-- ==== Sys2Proof/Word.lean ====
section
/-! DEFINITION. The data units of the part (R7, Table 0-3): words, dwords, device time, and the 72-bit record. -/
namespace Sys2Proof

/-- The native word of cells, scratch and store: 18 bits. -/
abbrev Word := BitVec 18
/-- A host access unit or register: 32 bits. -/
abbrev Dword := BitVec 32
/-- Device time, a count of su (R5). -/
abbrev DTime := BitVec 64

/-- A record: four words, W0 to W3 (R7, R242). -/
structure Rec where
  w0 : Word
  w1 : Word
  w2 : Word
  w3 : Word
  deriving DecidableEq, Repr

/-- A pad: four words of 0 (R248). -/
def Rec.pad : Rec := ⟨0, 0, 0, 0⟩

end Sys2Proof
end

