-- ==== Sys2Proof/Syntax.lean ====
section
/-! DEFINITION. The commands of the block: the operand types and `Instr`, one constructor per row of the table of operations and events. What
reaches the part from outside it (host data, link frames, analogue outcomes) is an operand of the command that brings it. -/
namespace Sys2Proof

/-- The agents of journal entries and of PAGE_ERRINFO, in the order of their codes (R249, Table 8-4). -/
inductive Agent where
  | pcie | svc | swarm | internal
  deriving DecidableEq, Repr

/-- How a loss shows (R64): after these reference cycles no edge has arrived 5 ns after its time, or the last of these cycles shows the loss.
A reference cycle is its phase error in su, which saturates at ±2,047; the cycles are those since the last command that brought any. -/
inductive LossCause where
  | noEdge (before : List (BitVec 12))
  | phases (l : List (BitVec 12))
  deriving DecidableEq, Repr

/-- Which of the references toggle within their frequency limits (Table 2-5): REFCLK, ALTREF. -/
structure Refs where
  refclk : Bool
  altref : Bool
  deriving DecidableEq, Repr

/-- How a PCI Express request the part made ended. -/
inductive Completion where
  | good | error | poisoned | timeout
  deriving DecidableEq, Repr

/-- The rails of Table 16-1: VDD_HV and VDD_CORE, which power the service port and the test access port, and any other. -/
inductive Rail where
  | hv | core | other
  deriving DecidableEq, Repr

/-- Link speeds and widths of the endpoint, and the ranges of its completion timeout (Table 12-1). -/
inductive PciSpeed where
  | gt2_5 | gt5 | gt8 | gt16
  deriving DecidableEq, Repr

inductive PciWidth where
  | x1 | x2 | x4
  deriving DecidableEq, Repr

inductive PciRange where
  | a | b | c
  deriving DecidableEq, Repr

/-- To what a link trained. -/
structure PciLink where
  speed : PciSpeed
  width : PciWidth
  deriving DecidableEq, Repr

/-- A field of the configuration space: those of Tables 12-1 and 14-7, and the capability bits of features that Table 12-1 does not list. -/
inductive CfgField where
  | vendor | device | revision | classCode | headerType | subVendor | subsystem | serial | interruptPin
  | bar0Size | bar2Size | msixVectors | payloadSupported | maxPayload | maxRead | linkSpeed | linkWidth | power | timeoutOff | timeoutRange | aspm
  | unsupported
  deriving DecidableEq, Repr

/-- What a configuration write programs: Max Payload Size and Max Read Request Size, as powers of two from 128 bytes; the device power state; the
completion timeout; ASPM; MSI-X Enable and Function Mask. -/
inductive CfgWrite where
  | maxPayload (n : Fin 3)
  | maxRead (n : Fin 6)
  | power (d3hot : Bool)
  | timeout (off : Bool) (range : PciRange)
  | aspm (l1 : Bool)
  | msix (enable funcMask : Bool)
  deriving DecidableEq, Repr

/-- A configuration request (R361). -/
inductive CfgRequest where
  | read (f : CfgField)
  | write (w : CfgWrite)
  deriving DecidableEq, Repr

/-- Where a poisoned write request points: a BAR0 address, or a store word of BAR2 (R360). -/
inductive PoisonTarget where
  | bar0 (addr : BitVec 24)
  | bar2 (w : BitVec 25)
  deriving DecidableEq, Repr

/-- What a descriptor fetch returned: DW0 to DW3, or a failed completion (R372, R386). -/
inductive FetchResult where
  | words (dw0 dw1 dw2 dw3 : Dword)
  | failed (c : Completion)
  deriving DecidableEq, Repr

/-- The ring registers of a DMA channel (R371). -/
inductive RingReg where
  | lo | hi | size
  deriving DecidableEq, Repr

/-- What a BAR0 request looks like, for the requests that give a bus error (R362). -/
inductive BusReq where
  | read | write
  deriving DecidableEq, Repr

/-- A converter's correction table (R114): the start of each of its 32 DLL bins in su, the period difference of its rings in su, its
offset against TCLK in su. -/
structure CalTable where
  starts : List Rat
  pdiff : Rat
  offset : Rat
  deriving DecidableEq, Repr

/-- What a nurse duty measured (R114): the normalised width of each of the 32 DLL bins and the periods of both rings, in su; the
offset against TCLK, in su; the pulser edges received. -/
structure Duty where
  widths : List Rat
  startRing : Rat
  stopRing : Rat
  offset : Rat
  edges : Nat
  deriving DecidableEq, Repr

/-- How an interval unit is armed (Table 5-6). -/
inductive Arming where
  | auto | gated | event
  deriving DecidableEq, Repr

/-- The sample sources of a STATS instance (Table 5-8); an interval, skew, rise or fall sample comes from the instance of that number on its
channel. -/
inductive Sample where
  | period | high | low | interval (num : BitVec 6) | skew (num : BitVec 6) | rise (num : BitVec 6) | fall (num : BitVec 6)
  deriving DecidableEq, Repr

/-- The measurement kinds with their image parameters (R131, Table 5-1). A polarity is `true` for rising edges. -/
inductive MeasKind where
  | count
  | recip
  | regr
  | pulse
  | interval (startRise : Bool) (stopCh : Fin 96) (stopRise : Bool) (arming : Arming) (holdoff : BitVec 32)
  | skew (target : Fin 96) (window : Nat)
  | phase (target : Fin 96)
  | rise
  | fall
  | stats (src : Sample) (perN : Option Nat)
  | adev (m : Nat) (octaves : Nat)
  deriving DecidableEq, Repr

/-- A measurement instance of an image: its primary channel, its number, its kind (R131), and the words that its program, as Ivter placed it, forms
a result from: general registers of cells (R38). -/
structure Meas where
  ch : Fin 96
  num : BitVec 6
  kind : MeasKind
  words : List (Fin 1024 × BitVec 6)
  deriving DecidableEq, Repr

/-- What a measurement instance takes from an event line that it names (R137, R152): the gate event of a channel, or the arming of an
interval unit. -/
inductive LineUse where
  | gate (ch : Fin 96)
  | arm (ch : Fin 96) (num : BitVec 6)
  deriving DecidableEq, Repr

/-- A character that a step lane receives (Table 7-7): a data byte, K27.7, K28.5, K28.3, K29.7, another control character, or one with a code
violation or a disparity error. -/
inductive StepChar where
  | data (b : BitVec 8) | start | idle | align | stop | control | broken
  deriving DecidableEq, Repr

/-- Why a step frame failed, if it did (R223). -/
inductive FrameCheck where
  | good | crc | code
  deriving DecidableEq, Repr

/-- What breaks off a LOAD beside its checks (Table 6-14): a read of host memory that failed, in the first or the second pass, at a byte
offset of the image; or an instruction written that failed parity on read-back, by cell and address. -/
inductive LoadBreak where
  | pcie (k : Completion) (pass2 : Bool) (offset : BitVec 24)
  | parity (cell : Fin 1024) (slot : Fin 512)
  deriving DecidableEq, Repr

/-- The pin that goes inactive when reset is released; `none` where the power-on monitor, a hold of the service port or an instruction of
the test access port has ended before. -/
inductive ResetPin where
  | none | resetN | testEn
  deriving DecidableEq, Repr

/-! Ovundan frames (chapter on swarms). Table 9-3 names what each payload holds; where the spec gives no bit layout a payload is its fields. -/

/-- What a HELLO carries (R287): the sender's role on this port, its membership (the state of this link as the sender sees it, whether it has
an active upstream joined through another port), ordinal, depth, stepping, image layout, image digest, swarm epoch, capability, and the die
identifier and ordinal of the queen it follows or is, if it knows one. -/
structure Hello where
  role : BitVec 2
  queen : Bool
  link : BitVec 3
  upElsewhere : Bool
  ordinal : BitVec 11
  depth : BitVec 4
  stepping : BitVec 8
  layout : BitVec 8
  digest : BitVec 64
  epoch : BitVec 16
  capability : BitVec 8
  queenDie : Option (BitVec 64)
  queenOrd : BitVec 11
  deriving DecidableEq, Repr

/-- A WAGGLE (Table 9-5); words 4 and 5 are those of Table 10-3. -/
structure Waggle where
  f : DTime
  aUp : BitVec 64
  number : BitVec 32
  queenOrd : BitVec 11
  tbEpoch : BitVec 8
  epoch : BitVec 16
  depth : BitVec 4
  holdover : Bool
  coarse : Bool
  domB : Bool
  domainA : BitVec 64
  domainB : BitVec 64
  deriving DecidableEq, Repr

/-- A swarm command (R297): its identifier, its CHIP.CMD code, the swarm epoch, an ARM's digest, a START's time. -/
structure SwarmCmd where
  id : BitVec 16
  code : BitVec 4
  epoch : BitVec 16
  digest : BitVec 64
  start : DTime
  deriving DecidableEq, Repr

/-- A REPLY (R298): counts of members done, refused, timed out and not reached, the ordinal and the cause of the first refusal. -/
structure SwarmReply where
  id : BitVec 16
  done : BitVec 12
  refused : BitVec 12
  timedOut : BitVec 12
  notReached : BitVec 12
  first : Option (BitVec 11 × BitVec 8)
  deriving DecidableEq, Repr

/-- A swarm event (R308). -/
structure SwarmEvent where
  code : BitVec 5
  id : BitVec 16
  time : DTime
  detail : BitVec 36
  deriving DecidableEq, Repr

/-- A swarm trigger (Table 9-3). -/
structure SwarmTrigger where
  t : DTime
  id : BitVec 16
  code : BitVec 5
  holdover : Bool
  coarse : Bool
  deriving DecidableEq, Repr

/-- The payload of a frame (Table 9-3). -/
inductive Payload where
  | hello (h : Hello)
  | join (ordinal parent : BitVec 11)
  | joinReply (ordinal : BitVec 11) (ok engaged : Bool)
  | waggle (w : Waggle)
  | mark (f : DTime)
  | trigger (t : SwarmTrigger)
  | command (c : SwarmCmd)
  | reply (r : SwarmReply)
  | event (e : SwarmEvent)
  | lentEnter (bank : BitVec 8) (fill : BitVec 16)
  | lentGrant (bank : BitVec 8) (ok : Bool)
  | lentLine (bank : BitVec 8) (line : BitVec 14) (r0 r1 : Rec)
  | ack
  deriving DecidableEq, Repr

/-- A received frame as its words stand on the link between its start and its terminate block (R284): the header word of Table 9-2, the
payload words, the CRC word, and whether every control block stood in its place. A command of a frame type brings beside it what the payload
words hold. -/
structure Head where
  word : BitVec 64
  payload : List (BitVec 64)
  crc : BitVec 64
  clean : Bool
  deriving DecidableEq, Repr

/-- A frame as it is sent: SEQ, ACK, HOPS and ORIGIN of its header, and its payload. -/
structure Frame where
  seq : BitVec 12
  ack : BitVec 12
  hops : BitVec 5
  origin : BitVec 11
  payload : Payload
  deriving DecidableEq, Repr

end Sys2Proof

namespace Sys2Proof

/-- A register that R279 guards: SWARM.CTRL, SWARM.ORDINAL, SWARM.EPOCH, or LINK.CTRL of a port. -/
inductive SwarmReg where
  | ctrl
  | ordinal
  | epoch
  | link (p : Fin 4)
  deriving DecidableEq, Repr

/-- The commands of the block: one constructor for each row of the table of operations and events. -/
inductive Instr where
  /-- CMD_LOAD (R197): A LOAD command starts reading the image from host memory at CHIP.IMG_ADDR for CHIP.IMG_LEN bytes, and sets LOADING. -/
  | cmdLoad (id : BitVec 8)
  /-- LOAD_COMPLETE (R198): The two-pass image load ends; the run state becomes LOADED on success or IDLE with a cause in LOAD_STATUS. -/
  | loadComplete (image : List (BitVec 64)) (brk : Option LoadBreak) (insts : List Meas) (lines : List (Nat × LineUse))
  /-- CMD_ARM (R43): ARM checks budgets, readiness, acquisition and ring ownership, then primes cells and channels and moves to ARMED, or refuses. -/
  | cmdArm (id : BitVec 8)
  /-- CMD_START (R42): START moves an ARMED part to RUNNING; a queen sets the start time S and sends START to the swarm. -/
  | cmdStart (id : BitVec 8)
  /-- RUN_SLOT0 (R30): In the TCLK cycle whose DTIME is S, every region executes slot 0 and the run begins; START's DTIME is journalled. -/
  | runSlot0
  /-- CMD_STOP (R144): STOP moves the run to STOPPING, starts each channel's stop grace and ends capture segments; in ARMED or FAULT it acts per
  Table 1-10. -/
  | cmdStop (id : BitVec 8)
  /-- CMD_ABORT (R43): ABORT halts every region at the end of the slot, discards records not yet in a bank and writes a loss record per region. -/
  | cmdAbort (id : BitVec 8)
  /-- CMD_RESET_RUN (R43): RESET_RUN returns to LOADED or IDLE, re-checks instruction memory parity and clears region faults, if no fault cause remains. -/
  | cmdResetRun (id : BitVec 8)
  /-- CMD_CLUSTER (R450): CLUSTER starts entry to the cluster state: DORMANT is sent, outputs, pools, cells and links are turned off. -/
  | cmdCluster (id : BitVec 8)
  /-- CMD_WAKE (R451): WAKE starts the fixed 200 µs wake from the cluster state. -/
  | cmdWake (id : BitVec 8)
  /-- CMD_INVALID (R404): A CHIP.CMD write with an unknown code or nonzero reserved bit is discarded with outcome ENCODING. -/
  | cmdInvalid (v : Dword)
  /-- REGION_HALT (R171): A draining region halts at the end of the major cycle after its gates, FIFOs, put queue and writers are empty. -/
  | regionHalt (n : Fin 8)
  /-- TIMEBASE_START (R50): In the first TCLK cycle after first lock, DTIME starts at 0, the clock dividers release and initial calibration and
  self-test begin. -/
  | timebaseStart
  /-- LOCK_DECLARED (R61): The main synthesizer is declared locked when fewer than 342 of the last 1,024 reference cycles were out of window. -/
  | lockDeclared (phases : List (BitVec 12)) (refs : Refs)
  /-- HARD_LOSS (R64): A missing reference edge or two large phase errors clear LOCKED, set LOCK_LOST and TB_LOST and capture LOSS_AT. -/
  | hardLoss (c : LossCause) (refs : Refs)
  /-- SOFT_LOSS (R64): The out-of-window count reaches 342 of 1,024, with the same effects as a hard loss. -/
  | softLoss (phases : List (BitVec 12)) (refs : Refs)
  /-- BYPASS_SWITCH (R65): Within 20 ns of a loss the clocks switch glitch-free to ALTREF or the internal oscillator and DTIME advances in 10 ns steps. -/
  | bypassSwitch (altToggles : Bool)
  /-- ALTREF_FAIL (R65): ALTREF fails during bypass and the clocks move to the internal oscillator within 20 ns. -/
  | altrefFail
  /-- SWITCH_BACK (R68): After lock is declared again, the clocks return to the root at the next bypass edge, COARSE clears and RELOCK_AT is captured. -/
  | switchBack
  /-- LOCK_WITHDRAWN (R477): A loss detected while still in bypass withdraws a pending lock declaration, and the clocks stay on bypass. -/
  | lockWithdrawn (c : LossCause) (refs : Refs)
  /-- DTIME_WRAP (R53): The whole-nanosecond count wraps; WRAPPED is set, EPOCH increments and time-extension records follow. -/
  | dtimeWrap
  /-- TRIM_SLEW_STEP (R71): Every 1,024 TCLK cycles while TRIM_LIVE differs from TARGET, one su is added to or withheld from DTIME. -/
  | trimSlewStep
  /-- TB_RESET (R73): A guarded write of TB_RESET restarts DTIME, EPOCH and TRIM_LIVE at 0 when its conditions hold, or is discarded. -/
  | tbReset (altrefEn : Bool)
  /-- REFSEL_WRITE (R60): A guarded write of TB.CTRL.REFSEL changes the synthesizer reference through bypass, or is discarded with BUSY_REJECT. -/
  | refselWrite (refsel : Bool) (altrefEn : Bool)
  /-- EDGE_ARRIVAL (R101): A selected comparator edge arrives; it is counted and given to the lowest free active converter. -/
  | edgeArrival (k : Fin 96) (fine : BitVec 10)
  /-- STUCK_EXPIRY (R90): The stuck timer reaches its timeout; STUCK and STUCK_AT are set, gates close and a STUCK record is written. -/
  | stuckExpiry (k : Fin 96)
  /-- INPUT_WRITE (R85): A guarded write of CH.INPUT sets mode, termination, prescaler and pairing, or is discarded for run state or encoding. -/
  | inputWrite (k : Fin 96) (v : Dword) (level : Bool) (level2 : Bool)
  /-- CONVERTER_RELEASE (R101): At the start of cycle m + 12 the converter that took an edge in cycle m becomes free. -/
  | converterRelease (k : Fin 96) (j : Fin 17)
  /-- GAP_LIMIT (R108): An open gap closes 262,143 ns after its start, with the split bit set. -/
  | gapLimit (k : Fin 96)
  /-- POOL_EMIT (R104): Sixteen cycles after arrival the pool emits the stamps and gap markers of a cycle to the accumulator, qualifier, FIFOs and
  capture writer. -/
  | poolEmit (k : Fin 96)
  /-- FIFO_OVF_CLOSE (R186): At a cycle start with 56 or fewer entries the FIFO_OVF gap closes, a gap pair enters the FIFO and an error record is
  written. -/
  | fifoOvfClose (g : Fin 64) (i : Fin 12)
  /-- COUNT_GATE_RESULT (R145): 177 ns after a grid point, the COUNT result of the gate ending there is written. -/
  | countGateResult (k : Fin 96)
  /-- STUCK_GRID_RESULT (R143): At each grid point while STUCK reads 1 in TIME mode, a count-0 STUCK NODATA result is written. -/
  | stuckGridResult (k : Fin 96)
  /-- GRACE_EXPIRY (R144): The stop grace expires and open gates and waiting interval units end with TRUNCATED. -/
  | graceExpiry (k : Fin 96)
  /-- NURSE_DUTY_END (R114): After 131,072 TCLK cycles a nurse duty ends and its table is accepted or rejected. -/
  | nurseDutyEnd (k : Fin 96) (d : Duty)
  /-- NURSE_SWAP (R115): At the first cycle start in which the outgoing converter is free, the nurse becomes active and the outgoing converter
  becomes nurse. -/
  | nurseSwap (k : Fin 96)
  /-- NURSE_REASSIGN (R124): After a retirement with DEGRADE 0, the next active converter becomes nurse when it is free and A falls by one. -/
  | nurseReassign (k : Fin 96)
  /-- INITIAL_CAL_DONE (R119): The 40 ms initial calibration ends; pools take their roles and READY is set. -/
  | initialCalDone (failed : List (Fin 96 × BitVec 17)) (tables : List (Fin 96 × Fin 17 × CalTable))
  /-- POOL_RECAL (R120): A guarded write of POOL_CTRL.RECAL starts recalibration of one pool, or is discarded with RECAL_REJECT. -/
  | poolRecal (k : Fin 96) (v : Dword)
  /-- RECAL_DONE (R120): The 40 ms recalibration ends and the pool takes its roles afresh. -/
  | recalDone (k : Fin 96) (failed : BitVec 17) (tables : List (Fin 96 × Fin 17 × CalTable))
  /-- READY_CHECK_DONE (R121): The ready check after relock or wake ends and the pool stamps again. -/
  | readyCheckDone (failed : List (Fin 96 × BitVec 17))
  /-- MAJOR_CYCLE_END (R169): A region completes its L slots; event words, sequencer states and buffered REG and BLK writes take effect. -/
  | majorCycleEnd (n : Fin 8)
  /-- NOP (R172): The never-executed no-op instruction. -/
  | nop (c : Fin 1024)
  /-- OPEN (R172): A no-op that marks its slot open for host and debug access. -/
  | openSlot (c : Fin 1024)
  /-- LOGIC (R173): Bitwise three-input function by truth table on registers or predicates. -/
  | logicOp (c : Fin 1024)
  /-- ADD (R174): GD = GA + GB with optional carry. -/
  | add (c : Fin 1024)
  /-- SUB (R174): GD = GA − GB with optional borrow. -/
  | subW (c : Fin 1024)
  /-- MOV (R174): GD = GA. -/
  | mov (c : Fin 1024)
  /-- SHL (R174): Logical shift left of GA by GB[4:0]. -/
  | shl (c : Fin 1024)
  /-- SHR (R174): Logical shift right of GA by GB[4:0]. -/
  | shr (c : Fin 1024)
  /-- SAR (R174): Arithmetic shift right of GA by GB[4:0]. -/
  | sar (c : Fin 1024)
  /-- MULU (R174): Unsigned 18 × 18 multiply into a register pair, latency 2. -/
  | mulu (c : Fin 1024)
  /-- MULS (R174): Signed 18 × 18 multiply into a register pair, latency 2. -/
  | muls (c : Fin 1024)
  /-- MACU (R174): Unsigned multiply-accumulate into a register pair with carry out, latency 2. -/
  | macu (c : Fin 1024)
  /-- CMPEQ (R174): Predicate = equality of GA and GB, optionally chained with carry. -/
  | cmpeq (c : Fin 1024)
  /-- CMPLTU (R174): Predicate = unsigned GA < GB, optionally chained. -/
  | cmpltu (c : Fin 1024)
  /-- CMPLTS (R174): Predicate = signed GA < GB, optionally chained. -/
  | cmplts (c : Fin 1024)
  /-- CLZ (R174): GD = leading zeros of GA. -/
  | clz (c : Fin 1024)
  /-- DSTEP (R174): One restoring division step on {GD, GA} by GB. -/
  | dstep (c : Fin 1024)
  /-- PTST (R174): Predicate = poison tag of GA. -/
  | ptst (c : Fin 1024)
  /-- PGET (R174): Copies 16 predicates into a register. -/
  | pget (c : Fin 1024)
  /-- PPUT (R174): Sets 16 predicates from a register. -/
  | pput (c : Fin 1024)
  /-- RDC (R174): GD = carry. -/
  | rdc (c : Fin 1024)
  /-- WRC (R174): Carry = GA[0]. -/
  | wrc (c : Fin 1024)
  /-- LDI (R175): GD = immediate. -/
  | ldi (c : Fin 1024)
  /-- ADDI (R175): GD = GD + immediate with carry out. -/
  | addi (c : Fin 1024)
  /-- ADCI (R175): GD = GD + immediate + carry. -/
  | adci (c : Fin 1024)
  /-- ANDI (R175): GD = GD AND immediate. -/
  | andi (c : Fin 1024)
  /-- ORI (R175): GD = GD OR immediate. -/
  | ori (c : Fin 1024)
  /-- XORI (R175): GD = GD XOR immediate. -/
  | xori (c : Fin 1024)
  /-- TAKE_POP (R176): Pops the oldest entry of a stamp FIFO into four registers and sets the valid predicate. -/
  | takePop (c : Fin 1024)
  /-- TAKE_COPY (R176): Copies the oldest FIFO entry without popping it. -/
  | takeCopy (c : Fin 1024)
  /-- TAKE_DISCARD (R176): Pops the oldest FIFO entry without writing registers. -/
  | takeDiscard (c : Fin 1024)
  /-- PUT (R177): Sends four registers as one record to the region's put queue with sequence and stamp handling. -/
  | putRec (c : Fin 1024)
  /-- TLD (R178): Loads a timer or counter from a register pair; a timer stops. -/
  | tld (c : Fin 1024)
  /-- TGO (R178): Starts a timer counting down. -/
  | tgo (c : Fin 1024)
  /-- THLT (R178): Stops a timer, holding its value. -/
  | thlt (c : Fin 1024)
  /-- TRD (R178): Reads a timer or counter into a register pair. -/
  | trd (c : Fin 1024)
  /-- TADD (R178): Adds an immediate to a counter, saturating. -/
  | tadd (c : Fin 1024)
  /-- TSUB (R178): Subtracts an immediate from a counter, saturating at 0. -/
  | tsub (c : Fin 1024)
  /-- TZ (R178): Predicate = unit is zero. -/
  | tz (c : Fin 1024)
  /-- TGE (R178): Predicate = unit ≥ register pair. -/
  | tge (c : Fin 1024)
  /-- TCLR (R178): Clears a unit; a timer stops. -/
  | tclr (c : Fin 1024)
  /-- TLDGO (R178): Loads a timer and starts it counting down. -/
  | tldgo (c : Fin 1024)
  /-- TIMER_EXPIRE (R178): A started cell timer reaches 0 and stops. -/
  | timerExpire (c : Fin 1024) (u : Fin 2)
  /-- RESULT_LAND (R170): A latency-2 result lands in its registers at the end of slot k + 1. -/
  | resultLand (c : Fin 1024)
  /-- NRD (R179): Reads a register of a neighbour cell of the block. -/
  | nrd (c : Fin 1024)
  /-- RSND (R180): Sends a register to a region exchange channel. -/
  | rsnd (c : Fin 1024)
  /-- RRCV (R180): Reads a region exchange channel. -/
  | rrcv (c : Fin 1024)
  /-- CSND (R180): Sends a register to a chip exchange channel. -/
  | csnd (c : Fin 1024)
  /-- CRCV (R180): Reads a chip exchange channel. -/
  | crcv (c : Fin 1024)
  /-- EXCHANGE_DELIVER (R180): A sent value becomes visible to receivers 4 (region) or 16 (chip) TCLK cycles after the send. -/
  | exchangeDeliver (id : Fin 640)
  /-- SLD (R189): Loads a scratch word through port A or B, latency 2. -/
  | sld (c : Fin 1024) (upset : Bool)
  /-- SST (R189): Stores a register into scratch through port A or B. -/
  | sst (c : Fin 1024)
  /-- XIN (R182): Reads an input word: DTIME, step, probe, event, swarm trigger or TRIG_IN word. -/
  | xin (c : Fin 1024)
  /-- EVT (R183): Drives a region event line for one TCLK cycle as a decision. -/
  | evt (c : Fin 1024)
  /-- BXFER (R190): Starts the block's bank engine moving lines between scratch and a bank, or is discarded when busy. -/
  | bxfer (c : Fin 1024)
  /-- BTST (R179): Tests the bank engine for idle and error. -/
  | btst (c : Fin 1024)
  /-- BXFER_LINE (R190): The bank engine moves one line when the store switch grants a lane. -/
  | bxferLine (g : Fin 64)
  /-- INSTRUCTION_PARITY_ERROR (R196): A fetched instruction fails parity and the cell stops at the end of the slot. -/
  | instructionParityError (c : Fin 1024)
  /-- DEBUG_GO (R192): A write of REG.DBG_CTRL.GO starts a debug access to one item of one cell. -/
  | debugGo (n : Fin 8) (patchEn : Bool)
  /-- DEBUG_ACCESS (R33): The debug access is carried out in the cell's next open slot, or fails with NO_SLOT. -/
  | debugAccess (n : Fin 8)
  /-- SCRATCH_WINDOW_ACCESS (R193): A host access through a scratch window is carried out in the first slot with a free port. -/
  | scratchWindowAccess (g : Fin 64) (w : Fin 4096) (wr : Option Dword)
  /-- IMEM_LO_WRITE (R194): A write to an instruction LO dword is held in the cell's staging register. -/
  | imemLoWrite (c : Fin 1024) (v : Dword)
  /-- IMEM_HI_COMMIT (R194): A write to an instruction HI dword commits 36 bits at once, as a pending patch, or is refused with IMEM_LOCKED. -/
  | imemHiCommit (c : Fin 1024) (a : Fin 512) (v : Dword)
  /-- PATCH_COMMIT (R194): A patch commit applies in the cell's next open slot and is journalled. -/
  | patchCommit (c : Fin 1024)
  /-- TRIGGER_DELIVER (R214): A trigger reaches capture writers, TRIG_OUT and the swarm in the cycle after its put. -/
  | triggerDeliver
  /-- TRIG_OUT_END (R216): The TRIG_OUT pulse width expires and the output returns to its inactive level. -/
  | trigOutEnd
  /-- TRIG_IN_EDGE (R218): An edge on TRIG_IN is stamped by its converter, or counted as missed while the converter is busy. -/
  | trigInEdge (rising : Bool) (fine : BitVec 10)
  /-- TRIG_IN_EMIT (R219): The TRIG_IN stamp is emitted 16 cycles later, latched and, if enabled, offered as a capture trigger. -/
  | trigInEmit
  /-- STEP_FRAME (R224): A step frame is received whole; its boundary is stamped, values become visible and step records are written. -/
  | stepFrame (start : DTime) (lanes : List (List StepChar))
  /-- ESL_ALIGN_LOST (R223): Lanes lose alignment by a mismatched or missing alignment character. -/
  | eslAlignLost (on : Option (BitVec 4)) (locked : BitVec 4) (estep : Bool)
  /-- ESL_ALIGN_CHAR (R222): A complete alignment character on all lanes deskews them and restores reception. -/
  | eslAlignChar (estep : Bool)
  /-- ESL_CTRL_WRITE (R221): A guarded write of ESL.CTRL or ESL.SKEW is accepted between runs or discarded with BUSY_REJECT. -/
  | eslCtrlWrite (skew : Bool) (v : Dword)
  /-- CAP_CTRL_WRITE (R239): A guarded write of REG.CAP_CTRL is accepted between runs or discarded with BUSY_REJECT. -/
  | capCtrlWrite (n : Fin 8) (v : Dword)
  /-- WRITER_LINE_WRITE (R267): A capture or record writer writes a whole line into its ring when granted a lane. -/
  | writerLineWrite (i : Fin 16)
  /-- PAD_TIMEOUT (R267): A writer holding one record for 32 FCLK cycles fills the line's second half with a pad. -/
  | padTimeout (i : Fin 16)
  /-- STRIPE_GROUP_ENTER (R268): A writer enters its next stripe group once it owns every bank of it, setting FILL_NO. -/
  | stripeGroupEnter (i : Fin 16)
  /-- OWNER_WRITE (R262): A write of BANK.OWNER starts a handover; new grants stop until the drain ends. -/
  | ownerWrite (b : Fin 256) (v : Dword)
  /-- HANDOVER_DONE (R262): The drain ends and OWNER_NOW takes the new owner; waiting requests are judged again. -/
  | handoverDone (b : Fin 256)
  /-- BANK_FILL (R265): A guarded write of BANK.FILL.GO starts filling the bank with pads, or is discarded with FILL_REJECT. -/
  | bankFill (b : Fin 256) (v : Dword)
  /-- FILL_DONE (R265): The bank fill completes and FILL_DONE is set. -/
  | fillDone (b : Fin 256)
  /-- SCRUB_VISIT (R259): Every 1,024 FCLK cycles the scrubber reads the next line of the bank. -/
  | scrubVisit (b : Fin 256) (ups : List (BitVec 14 × Bool × List (BitVec 7)))
  /-- SCRUB_WRITEBACK (R259): In the next idle cycle the scrubber writes back a corrected half. -/
  | scrubWriteback (b : Fin 256)
  /-- DEMOTE (R269): While the capture buffer holds over 768 records, the lowest-priority captured channel is demoted each TCLK cycle. -/
  | demote (n : Fin 8)
  /-- RESTORE (R269): After a window of 64 FCLK cycles at 256 records or fewer, the highest-priority demoted channel is restored and a DEMOTE loss
  record written. -/
  | restore (n : Fin 8)
  /-- LOSS_RECORD_WRITE (R272): A kept loss count is written as a loss record as soon as the record writer can place it. -/
  | lossRecordWrite (n : Fin 8)
  /-- STORE_FAULT (R274): An uncorrectable error in bank or switch control state takes the region to FAULT. -/
  | storeFault (n : Fin 8) (code : Fin 4) (bank : Fin 32)
  /-- LINK_TRAINED (R287): A port reaches block lock and lane deskew and begins sending HELLO. -/
  | linkTrained (p : Fin 4)
  /-- LINK_DOWN (R283): A receiver declares its link down and retrains. -/
  | linkDown (p : Fin 4)
  /-- HELLO_SEND (R287): Every 100 µs, or on a change of values, a port sends HELLO. -/
  | helloSend (p : Fin 4)
  /-- HELLO_RX (R287): A HELLO is received and, on a DOWN end, judged against Table 9-4. -/
  | helloRx (p : Fin 4) (hd : Head) (h : Hello)
  /-- JOIN_RX (R288): The queen receives a JOIN and accepts or refuses the ordinal. -/
  | joinRx (p : Fin 4) (hd : Head) (ordinal : BitVec 11) (parent : BitVec 11)
  /-- JOIN_REPLY_RX (R288): A JOIN_REPLY arrives and the link becomes JOINED or quarantined with cause ORDINAL. -/
  | joinReplyRx (p : Fin 4) (hd : Head) (ordinal : BitVec 11) (ok : Bool) (engaged : Bool)
  /-- WAGGLE_SEND (R292): Every 4.096 µs a parent sends a timing mark and WAGGLE on each JOINED downstream port. -/
  | waggleSend (p : Fin 4) (f : DTime)
  /-- MARK_SEND (R292): Every 4.096 µs a child sends a timing mark and MARK upstream. -/
  | markSend (p : Fin 4) (f : DTime)
  /-- WAGGLE_RX (R293): A WAGGLE is received; delay, offset and error e are formed and the filtered error updated. -/
  | waggleRx (p : Fin 4) (hd : Head) (a : DTime) (w : Waggle)
  /-- MARK_RX (R293): A parent receives a child's MARK and forms A_up. -/
  | markRx (p : Fin 4) (hd : Head) (a : DTime) (f : DTime)
  /-- ACQUISITION_STEP (R294): After 256 delay values and 16 waggles, a member steps DTIME once its regions have halted. -/
  | acquisitionStep
  /-- ALIGNED_REACHED (R294): The filtered error stays within ±16 su for 256 waggles and the member becomes ALIGNED. -/
  | alignedReached
  /-- ACK_RX (R285): An acknowledgement advances the sender's window of unacknowledged reliable frames. -/
  | ackRx (p : Fin 4) (hd : Head)
  /-- RETRY_TIMEOUT (R285): A reliable frame unacknowledged after R_t + 300 ns is resent with all after it. -/
  | retryTimeout (p : Fin 4)
  /-- RETRY_EXHAUSTED (R285): The oldest unacknowledged frame waits R_t + 2 µs and the link is declared down. -/
  | retryExhausted (p : Fin 4)
  /-- TRIGGER_FRAME_RX (R303): A TRIGGER frame is forwarded cut-through, deduplicated and delivered to trigger words and latches. -/
  | triggerFrameRx (p : Fin 4) (hd : Head) (t : SwarmTrigger)
  /-- COMMAND_FRAME_RX (R298): A member carries out a swarm command in its own state, or resends a stored reply for a repeat. -/
  | commandFrameRx (p : Fin 4) (hd : Head) (c : SwarmCmd)
  /-- REPLY_FRAME_RX (R298): A part aggregates a downstream REPLY and sends its own when complete. -/
  | replyFrameRx (p : Fin 4) (hd : Head) (r : SwarmReply)
  /-- CMD_TIMEOUT (R299): A forwarded command's port timer reaches CMD_TO and the subtree counts as timed out. -/
  | cmdTimeout (p : Fin 4)
  /-- EVENT_FRAME_RX (R308): A swarm EVENT is forwarded, deduplicated and journalled as a swarm event record. -/
  | eventFrameRx (p : Fin 4) (hd : Head) (e : SwarmEvent)
  /-- LENT_ENTER_RX (R313): A lender receives LENT_ENTER and answers LENT_GRANT or a refusal. -/
  | lentEnterRx (p : Fin 4) (hd : Head) (bank : BitVec 8) (fill : BitVec 16)
  /-- LENT_GRANT_RX (R313): A borrower receives the grant or refusal for a lent bank. -/
  | lentGrantRx (p : Fin 4) (hd : Head) (bank : BitVec 8) (ok : Bool)
  /-- LENT_RETRY (R313): A refused borrower asks again every 1 µs. -/
  | lentRetry (n : Fin 8)
  /-- LENT_LINE_RX (R314): A lender writes a received line into a lent bank, or freezes the port on a violation. -/
  | lentLineRx (p : Fin 4) (hd : Head) (bank : BitVec 8) (line : BitVec 14) (r0 : Rec) (r1 : Rec)
  /-- SWARM_CONFIG_WRITE (R279): A guarded write of SWARM.CTRL, ORDINAL, EPOCH or LINK.CTRL.ROLE is accepted or discarded with BUSY_REJECT. -/
  | swarmConfigWrite (r : SwarmReg) (v : Dword)
  /-- LINK_RETRAIN (R316): A guarded write of LINK.CTRL.RETRAIN takes the link down and retrains it. -/
  | linkRetrain (p : Fin 4) (v : Dword)
  /-- QUEEN_STRAP_CHANGE (R466): A filtered change of QUEEN_N changes the role once R279's conditions hold. -/
  | queenStrapChange (high : Bool)
  /-- MAP_TICK (R323): At each 1 ms map tick, sets, buffered DOM writes, servo, active switch and domain-map records are done in order. -/
  | mapTick
  /-- SET_REQUEST (R331): A write of DOM.SET_CTRL.GO requests a set of the domain at the next tick. -/
  | setRequest (d : Fin 2) (frac : BitVec 16)
  /-- PPS_EDGE (R327): A PPS edge is stamped and forms a pending sample, advancing EXPECT. -/
  | ppsEdge (i : Fin 2) (rising : Bool) (fine : BitVec 10)
  /-- OFS_SUBMIT (R325): A write of DOM.OFS_AT_HI submits a host offset sample, or discards it. -/
  | ofsSubmit (d : Fin 2) (v : Dword)
  /-- DOMAIN_SNAP (R339): A write of DOM.SNAP.GO captures the domain and DTIME in the same TCLK cycle. -/
  | domainSnap (d : Fin 2)
  /-- DOMAIN_STALE (R330): No sample is used for the stale time and the domain holds its learned frequency. -/
  | domainStale (d : Fin 2)
  /-- SYN_PAGE_START (R346): Starting a SYN page powers the synthesizer and begins a band search. -/
  | synPageStart (i : Fin 6)
  /-- BAND_SEARCH_REQUEST (R346): A write of SYN.CTRL.SEARCH starts a band search with the output disabled. -/
  | bandSearchRequest (i : Fin 6) (v : Dword)
  /-- BAND_SEARCH_DONE (R346): The band search locks, stores a profile entry and enables the output if EN is 1. -/
  | bandSearchDone (i : Fin 6) (band : BitVec 5) (tune : BitVec 8)
  /-- LOCK_FAIL (R346): A band search cannot lock within 200 µs and the output stays disabled. -/
  | lockFail (i : Fin 6)
  /-- PROFILE_HOP (R347): A write of PROF_CTRL.HOP loads a stored profile at the boundary, or is discarded with PROF_EMPTY. -/
  | profileHop (i : Fin 6) (index : BitVec 4) (slot : BitVec 4)
  /-- HOP_DONE (R347): The hop's loop locks and the output is enabled again. -/
  | hopDone (i : Fin 6)
  /-- DELAY_STEP (R350): At each output rising edge the fine delay moves one step towards its target. -/
  | delayStep (i : Fin 6)
  /-- LOOP_WRITE (R355): A guarded write of SYN.LOOP selects channels for loopback, or is discarded. -/
  | loopWrite (i : Fin 6) (j : Fin 3) (v : Dword) (levels : Dword)
  /-- SYN_RELOCK (R356): After the root returns, a held synthesizer relocks within 100 µs. -/
  | synRelock (i : Fin 6)
  /-- ZQ_CAL_MEASURE (R469): Every 100 ms the ZQ_CAL resistor is measured and driver impedance trimmed. -/
  | zqCalMeasure (ohms : Option Nat)
  /-- CONFIG_READY (R361): The configuration space becomes ready and retry status ends. -/
  | configReady (link : PciLink) (early later : List CfgRequest)
  /-- BAR0_BUS_ERROR (R362): A malformed or reserved BAR0 request completes with Completer Abort or is dropped, and BUS_ERR is set. -/
  | bar0BusError (addr : BitVec 24) (req : BusReq)
  /-- POISONED_WRITE (R360): A poisoned write request is dropped, reported through AER and consumes an unlock. -/
  | poisonedWrite (target : PoisonTarget)
  /-- BAR2_READ (R364): A BAR2 read returns store words, with poison in bit 31, as the host window master. -/
  | bar2Read (w : BitVec 25) (n : Fin 1025)
  /-- BAR2_WRITE (R365): A BAR2 write is a read-modify-write of each half, refused on uncorrectable halves. -/
  | bar2Write (w : BitVec 25) (ds : List (BitVec 4 × Dword))
  /-- MSIX_UNMASK (R367): Unmasking a vector with its pending bit set sends the message. -/
  | msixUnmask (v : Option (Fin 64)) (enable : Bool) (funcMask : Bool)
  /-- DMA_MODE_WRITE (R370): A write of DMA.MODE applies when every channel is IDLE or HALTED, or is discarded. -/
  | dmaModeWrite (v : Dword)
  /-- RING_WRITE (R371): A write of RING_LO, RING_HI or RING_SIZE sets the ring and resets CI to 0. -/
  | ringWrite (c : Fin 8) (r : Fin 3) (v : Dword)
  /-- DOORBELL (R375): A doorbell write records PI and starts fetching from CI, or is held. -/
  | doorbell (c : Fin 8) (pi : BitVec 16)
  /-- DESCRIPTOR_FETCH (R376): A fetched descriptor is checked and started, re-read once, or the channel becomes IDLE. -/
  | descriptorFetch (c : Fin 8) (r : FetchResult)
  /-- DMA_DATA_MOVE (R378): A channel moves one unit of data between store and host. -/
  | dmaDataMove (c : Fin 8) (i : BitVec 6) (k : Completion) (bytes : List (BitVec 8))
  /-- DESCRIPTOR_COMPLETE (R381): The completion read-back returns and the descriptor is written back and CI advances. -/
  | descriptorComplete (c : Fin 8) (k : Completion)
  /-- DMA_ENABLE (R377): Setting DMAC.CTRL.EN lets a held doorbell take effect. -/
  | dmaEnable (c : Fin 8) (v : Dword)
  /-- DMA_PAUSE (R383): A write of 1 to CTRL.PAUSE moves the channel to PAUSING. -/
  | dmaPause (c : Fin 8) (v : Dword)
  /-- DMA_PAUSED (R383): Issued reads drain and the channel becomes PAUSED. -/
  | dmaPaused (c : Fin 8)
  /-- DMA_RESUME (R383): A write of 0 to CTRL.PAUSE resumes the channel from its position. -/
  | dmaResume (c : Fin 8) (v : Dword)
  /-- DMA_ABORT (R384): A write of 1 to CTRL.ABORT races with completion and aborts the descriptor or lets it complete. -/
  | dmaAbort (c : Fin 8) (v : Dword)
  /-- DMA_CLEAR (R382): A write of 1 to CTRL.CLEAR returns a HALTED channel to IDLE. -/
  | dmaClear (c : Fin 8) (v : Dword)
  /-- DMA_STALL (R385): The stall timer reaches STALL_TO and the channel halts with STALLED. -/
  | dmaStall (c : Fin 8)
  /-- COMPLETION_TIMEOUT (R385): A completion times out and the descriptor ends with PCIE_ERR. -/
  | completionTimeout (c : Fin 8) (fetch : Bool)
  /-- PCIE_LINK_DOWN (R388): The PCI Express link goes down and active channels halt in place. -/
  | pcieLinkDown
  /-- KEY_UNLOCK (R399): A write of 0x0000_5A3C to PAGE_KEY unlocks the page for the next write. -/
  | keyUnlock (addr : BitVec 24)
  /-- RC_READ (R394): A read of an RC register returns and clears its set bits, and a PAGE_ERR read clears ERRINFO. -/
  | rcRead (addr : BitVec 24)
  /-- SHADOW_WRITE (R396): A write to a register with RWB fields stores them in the shadow after the page's checks. -/
  | shadowWrite (addr : BitVec 24) (v : Dword) (levels : Dword)
  /-- SHADOW_APPLY (R397): At the page's boundary, or when it stops running, every pending shadow applies together and is journalled. -/
  | shadowApply (addr : BitVec 24) (inBand : Bool)
  /-- FREEZE_RELEASE (R402): A guarded write of PAGE_FREEZE.RELEASE releases every master frozen on the page. -/
  | freezeRelease (addr : BitVec 24)
  /-- REGISTER_WRITE (R17): A write to a register with no behaviour of its own takes effect under its access codes. -/
  | registerWrite (addr : BitVec 24) (v : Dword) (levels : Dword)
  /-- CH_PAGE_CTRL_WRITE (R393): A write of CH.PAGE_CTRL enables or disables the channel under INPUT's conditions. -/
  | chPageCtrlWrite (k : Fin 96) (run : Bool) (level : Bool)
  /-- JOURNAL_SELECT (R408): A write of JRNL.RD_COUNT latches the selected journal record. -/
  | journalSelect (n : Dword)
  /-- JOURNAL_READ_ADVANCE (R408): A read of JRNL.RD_W3 advances RD_COUNT and latches the next record. -/
  | journalReadAdvance
  /-- INJECT_ARM (R420): A guarded write of CHIP.INJECT with GO arms an error injection, or is discarded. -/
  | injectArm (v : Dword)
  /-- INJECT_CANCEL (R438): A guarded write of GO = 0 cancels an armed injection. -/
  | injectCancel (v : Dword)
  /-- IMG_WRITE (R418): A write to IMG_ADDR or IMG_LEN is accepted while not loading, or discarded. -/
  | imgWrite (r : Fin 3) (v : Dword)
  /-- MBOX_OUT_WRITE (R423): A host write of SVC.MBOX_OUT sets OUT_FULL. -/
  | mboxOutWrite (v : Dword)
  /-- TEMP_UPDATE (R453): Every 1 ms CHIP.TEMP updates and warning and limit are compared. -/
  | tempUpdate (v : BitVec 11)
  /-- CHIP_UE (R433): An uncorrectable error in a chip-level structure raises the chip-level fault. -/
  | chipUe (code : BitVec 4) (loc : BitVec 30)
  /-- MONITOR_RELEASE (R441): After every rail has been good for 2 ms the power-on monitor releases reset. -/
  | monitorRelease
  /-- RAIL_FAIL (R441): A rail fails for 1 µs or longer and the monitor asserts reset. -/
  | railFail (rail : Rail) (good : Bool)
  /-- RESET_N_ASSERT (R442): RESET_N asserts reset at once. -/
  | resetNAssert
  /-- RESET_RELEASE (R445): Reset is released and start-up reads fuses and locks the main synthesizer. -/
  | resetRelease (pin : ResetPin) (strap : Bool) (bad : List (BitVec 8)) (levels : BitVec 96) (ohms : Option Nat)
  /-- SELF_TEST_DONE (R445): The store self-test ends and every line holds pads. -/
  | selfTestDone (bad : List (Fin 256 × BitVec 14 × Bool))
  /-- PERST_N (R443): PERST_N resets the endpoint and DMA while the run goes on. -/
  | perstN
  /-- HOT_RESET (R443): A PCI Express hot reset acts as PERST_N. -/
  | hotReset
  /-- CLUSTER_ENTRY_DONE (R450): Cluster-state entry completes within 10 µs. -/
  | clusterEntryDone
  /-- WAKE_COMPLETE (R451): The wake completes 200 µs after the later of acceptance and entry; CLUSTER clears. -/
  | wakeComplete (levels : BitVec 96)
  /-- SVC_NOP (R456): Service port NOP. -/
  | svcNop
  /-- SVC_READ_ID (R456): Service port READ_ID returns an identity word. -/
  | svcReadId (index : BitVec 2)
  /-- SVC_READ_HEALTH (R456): Service port READ_HEALTH returns SVC.HEALTH. -/
  | svcReadHealth
  /-- SVC_READ_MBOX (R456): Service port READ_MBOX returns MBOX_OUT and clears OUT_FULL. -/
  | svcReadMbox
  /-- SVC_MBOX_LO (R456): Service port MBOX_LO holds the low half of a mailbox value. -/
  | svcMboxLo (v : BitVec 16)
  /-- SVC_MBOX_HI (R456): Service port MBOX_HI writes MBOX_IN. -/
  | svcMboxHi (v : BitVec 16)
  /-- SVC_CMD (R456): Service port CMD submits CLUSTER or WAKE to be judged under R404. -/
  | svcCmd (id : BitVec 8) (wake : Bool)
  /-- SVC_READ_CMD (R456): Service port READ_CMD returns CHIP.CMD_STATUS. -/
  | svcReadCmd
  /-- SVC_HOLD (R457): Service port HOLD holds the part in reset when HOLD_EN is 1. -/
  | svcHold
  /-- SVC_RELEASE (R457): Service port RELEASE ends a hold and start-up proceeds. -/
  | svcRelease
  /-- SVC_RESERVED_OP (R456): A request with a reserved operation or field has no effect and counts in BAD_OPS. -/
  | svcReservedOp
  /-- SVC_FRAME_DISCARD (R455): A frame with fewer than 32 clocks is discarded. -/
  | svcFrameDiscard
  /-- TEST_EN_HIGH (R467): TEST_EN high holds the part in reset as RESET_N. -/
  | testEnHigh
  /-- TAP_RESET (R474): TRST_N or five TMS-high clocks reset the test access port and select IDCODE. -/
  | tapReset
  /-- EXTEST (R475): JTAG EXTEST drives and observes boundary cells with the part held in reset. -/
  | extest (pins : BitVec 158) (next : BitVec 158)
  /-- IDCODE (R474): JTAG IDCODE selects the identification register. -/
  | idcode
  /-- SAMPLE_PRELOAD (R474): JTAG SAMPLE/PRELOAD samples boundary cells without disturbing operation. -/
  | samplePreload (pins : BitVec 158) (next : BitVec 158)
  /-- CLAMP (R475): JTAG CLAMP holds outputs with the part in reset. -/
  | clamp
  /-- HIGHZ (R475): JTAG HIGHZ puts outputs high impedance with the part in reset. -/
  | highz
  /-- EXTEST_PULSE (R475): JTAG IEEE 1149.6 EXTEST_PULSE with the part in reset. -/
  | extestPulse (pins : BitVec 158) (next : BitVec 158)
  /-- EXTEST_TRAIN (R475): JTAG IEEE 1149.6 EXTEST_TRAIN with the part in reset. -/
  | extestTrain (pins : BitVec 158) (next : BitVec 158)
  /-- BYPASS (R474): JTAG BYPASS, and every unlisted code, selects the bypass register. -/
  | bypass
  /-- COMPARATOR_TRANSITION (R89): A transition of the comparator output that EDGE.SEL does not pass restarts the stuck timer, clears a stuck
  condition with a STUCK_CLEAR record, and moves the window state of a pair. -/
  | comparatorTransition (k : Fin 96)
  /-- ILLEGAL (R195): A cell executes a reserved encoding brought in by a patch, a schedule error of cause ILLEGAL that takes the region to FAULT. -/
  | illegal (c : Fin 1024)
  /-- ACK_SEND (R285): A receiver that has had no other frame to send within 100 ns of receiving a reliable frame sends an ACK frame. -/
  | ackSend (p : Fin 4)
  /-- SYN_PAGE_STOP (R397): A write that clears SYN.PAGE_CTRL.RUN powers the synthesizer down, disables its output, loses its profiles and applies
  its pending shadows at once. -/
  | synPageStop (i : Fin 6)
  deriving DecidableEq, Repr

end Sys2Proof
end

