-- ==== Sys2Proof/Decode.lean ====
section
/-! DEFINITION. The decoder over the rows of the table that give bits. No row of this block's table does: commands reach it as bus accesses,
frames, edges and pin events, not as words. -/

/-- The command that a word spells by the table's bits: none, because no row gives bits. -/
def Sys2Proof.decodeTableWord (_nbits _w : Nat) : Option Sys2Proof.Instr := none
end

