-- ==== Sys2Proof/Config.lean ====
section
/-! DEFINITION. What an implementation fixes or the spec leaves open: uninterpreted constants, so that no proof can see a value. -/
namespace Sys2Proof.Config

/-- The free values of the model, one for each draw: a value the spec leaves open. -/
opaque freeValue : Nat → BitVec 64

/-- The fused die serial number, DIE_ID bits [55:0] (Table 14-8). -/
opaque dieSerial : BitVec 56

/-- The fused channel skew corrections (Table 14-8). -/
opaque factorySkew : Nat → BitVec 16

/-- The fused spare column maps REPAIR0 and REPAIR1 of each bank (Table 14-8). -/
opaque repair : Nat → Nat → BitVec 32

/-- The fuse block that holds the fused value shown in the register at an address (R425): Table 14-8 does not lay the blocks out. -/
opaque fuseBlock : Nat → BitVec 8

/-- The fused link path asymmetry correction of a port, in su (Table 14-8), and the fuse block that holds it. -/
opaque linkAsymmetry : Nat → Int
opaque linkAsymmetryBlock : Nat → BitVec 8

/-- The fused start-up trim of a converter, by channel and converter (Table 14-8), and the fuse block that holds it. -/
opaque startTrim : Nat → Nat → BitVec 64
opaque startTrimBlock : Nat → Nat → BitVec 8

/-- What a correction table makes of a raw fine code, in su (R97): the spec names what a table holds and no formula. -/
opaque correction (starts : List Rat) (pdiff offset : Rat) (f : Nat) : Int

/-- The payload words of a frame of a TYPE whose payload Table 9-3 names and does not lay out, of the values it holds (R284). -/
opaque payloadWords : Nat → List Nat → List (BitVec 64)

/-- The step of a synthesizer's 24-bit linear-feedback register, whose taps the spec does not give (R351). -/
opaque ditherNext : BitVec 24 → BitVec 24

/-- By how much the feedback divider differs from INT in one cycle of the phase detector, in fractional mode: a function of FREQ, of DIV, of the
dither seed and of the cycles since it was loaded (R342, R351). -/
opaque dividerStep (freq div : Nat) (seed : BitVec 24) (n : Nat) : Int

/-- In centre mode the spread triangle rises first (R352, R353: the spec does not say which way it leaves f_out). -/
opaque spreadRises : Bool

end Sys2Proof.Config
end

