-- ==== Sys2Proof/Machine/Bits.lean ====
section
/-! DEFINITION. Bit fields of dwords and words, saturating counters and signed reading. -/
namespace Sys2Proof.Machine

/-- A field of a page register: its byte offset in the page, its low bit and its width. -/
structure Fld where
  off : Nat
  lo : Nat
  width : Nat
  deriving DecidableEq, Repr

/-- Bits [lo + w − 1 : lo] of a dword, as a number. -/
def getBits (r : BitVec 32) (lo w : Nat) : Nat := (r.toNat >>> lo) % 2 ^ w

/-- A dword with bits [lo + w − 1 : lo] replaced by the low `w` bits of `v`. -/
def setBits (r : BitVec 32) (lo w v : Nat) : BitVec 32 :=
  (r &&& ~~~ (BitVec.ofNat 32 ((2 ^ w - 1) <<< lo))) ||| BitVec.ofNat 32 ((v % 2 ^ w) <<< lo)

/-- Bits [lo + w − 1 : lo] of a number. -/
def bitsOf (v lo w : Nat) : Nat := (v >>> lo) % 2 ^ w

/-- One bit of a number. -/
def bitOf (v i : Nat) : Bool := bitsOf v i 1 == 1

/-- A Bool as a bit. -/
def b2n (b : Bool) : Nat := if b then 1 else 0

/-- The two's complement reading of the low `w` bits (R14). -/
def signed (w v : Nat) : Int :=
  let u := v % 2 ^ w
  if 2 ^ (w - 1) ≤ u then (u : Int) - (2 ^ w : Nat) else u

/-- The low `w` bits of an integer, two's complement (R14). -/
def unsigned (w : Nat) (i : Int) : Nat := (i % ((2 ^ w : Nat) : Int)).toNat

/-- An integer held to the range of a signed field of `w` bits. -/
def satSigned (w : Nat) (i : Int) : Int :=
  let m : Int := (2 ^ (w - 1) : Nat)
  if m ≤ i then m - 1 else if i < -m then -m else i

/-- A count held to the largest value of an unsigned field of `w` bits (R55). -/
def sat (w v : Nat) : Nat := min v (2 ^ w - 1)

/-- One bit of the CRC-32 of Table 7-7: polynomial 0x04C1_1DB7, reflected. -/
def crc32Bit (c : BitVec 32) : BitVec 32 := if c.getLsbD 0 then (c >>> 1) ^^^ 0xedb88320 else c >>> 1

/-- The CRC-32 of bytes: initial value and final XOR 0xFFFF_FFFF (Table 7-7). -/
def crc32 (bs : List (BitVec 8)) : BitVec 32 :=
  ~~~(bs.foldl (fun c b => (List.range 8).foldl (fun c _ => crc32Bit c) (c ^^^ b.setWidth 32)) 0xffffffff)

/-- The low `n` bytes of a value, least significant first. -/
def leBytes (n v : Nat) : List (BitVec 8) := (List.range n).map fun i => BitVec.ofNat 8 (v >>> (8 * i))

end Sys2Proof.Machine
end

