-- ==== Sys2Proof/Machine/Frames.lean ====
section
/-! DEFINITION. The words of an Ovundan frame: header, payload and CRC, as they are formed and as they are read (R284). -/
namespace Sys2Proof
open Sys2Proof.Machine

/-- The header word. -/
def headerWord (type cls seq ack len hops origin : Nat) : BitVec 64 :=
  BitVec.ofNat 64 (type % 32 * 2 ^ 59 + cls % 2 * 2 ^ 58 + seq % 2 ^ 12 * 2 ^ 46 + ack % 2 ^ 12 * 2 ^ 34 + len % 2 ^ 8 * 2 ^ 26 + hops % 32 * 2 ^ 21
    + origin % 2 ^ 11 * 2 ^ 10)

def Head.type (h : Head) : Nat := (h.word.extractLsb' 59 5).toNat
def Head.seq (h : Head) : BitVec 12 := h.word.extractLsb' 46 12
def Head.ack (h : Head) : BitVec 12 := h.word.extractLsb' 34 12
def Head.len (h : Head) : Nat := (h.word.extractLsb' 26 8).toNat
def Head.hops (h : Head) : BitVec 5 := h.word.extractLsb' 21 5
def Head.origin (h : Head) : BitVec 11 := h.word.extractLsb' 10 11

/-- The CRC word over header and payload, least significant byte first. -/
def frameCrc (words : List (BitVec 64)) : BitVec 64 := (crc32 (words.flatMap fun w => leBytes 8 w.toNat)).setWidth 64

/-- The frame is whole: its control blocks stand in their places, LEN counts its payload and its CRC word is right. -/
def Head.good (h : Head) : Bool := h.clean && h.len == h.payload.length && h.crc == frameCrc (h.word :: h.payload)

/-- The header word names a TYPE of Table 9-3. -/
def Head.known (h : Head) : Bool := decide (1 ≤ h.type) && decide (h.type ≤ 0xd)

/-- TYPE of a payload (Table 9-3). -/
def Payload.type : Payload → Nat
  | .hello _ => 1
  | .join .. => 2
  | .joinReply .. => 3
  | .waggle _ => 4
  | .mark _ => 5
  | .trigger _ => 6
  | .command _ => 7
  | .reply _ => 8
  | .event _ => 9
  | .lentEnter .. => 0xa
  | .lentGrant .. => 0xb
  | .lentLine .. => 0xc
  | .ack => 0xd

/-- CLASS 1: reliable. -/
def Payload.reliable : Payload → Bool
  | .hello _ | .waggle _ | .mark _ | .ack => false
  | _ => true

/-- The payload words of a WAGGLE (Tables 9-5 and 10-3). -/
def Waggle.words (w : Waggle) : List (BitVec 64) :=
  [w.f, w.aUp, BitVec.ofNat 64 (w.queenOrd.toNat * 2 ^ 32 + w.number.toNat),
   BitVec.ofNat 64 (b2n w.domB * 2 ^ 30 + b2n w.coarse * 2 ^ 29 + b2n w.holdover * 2 ^ 28 + w.depth.toNat * 2 ^ 24 + w.epoch.toNat * 2 ^ 8
     + w.tbEpoch.toNat), w.domainA, w.domainB]

/-- The payload words; `Config.payloadWords` gives them where Table 9-3 names what a payload holds and lays out no bits. -/
def Payload.words : Payload → List (BitVec 64)
  | .waggle w => w.words
  | .mark f => [f]
  | .trigger t => [t.t, BitVec.ofNat 64 (b2n t.coarse * 2 ^ 33 + b2n t.holdover * 2 ^ 32 + t.code.toNat * 2 ^ 16 + t.id.toNat)]
  | .ack => []
  | .hello h => Config.payloadWords 1 [h.role.toNat, b2n h.queen, h.link.toNat, b2n h.upElsewhere, h.ordinal.toNat, h.depth.toNat, h.stepping.toNat,
      h.layout.toNat, h.digest.toNat, h.epoch.toNat, h.capability.toNat, b2n h.queenDie.isSome, (h.queenDie.getD 0).toNat, h.queenOrd.toNat]
  | .join o p => Config.payloadWords 2 [o.toNat, p.toNat]
  | .joinReply o ok e => Config.payloadWords 3 [o.toNat, b2n ok, b2n e]
  | .command c => Config.payloadWords 7 [c.id.toNat, c.code.toNat, c.epoch.toNat, c.digest.toNat, c.start.toNat]
  | .reply r => Config.payloadWords 8 [r.id.toNat, r.done.toNat, r.refused.toNat, r.timedOut.toNat, r.notReached.toNat, b2n r.first.isSome,
      (r.first.getD (0, 0)).1.toNat, (r.first.getD (0, 0)).2.toNat]
  | .event e => Config.payloadWords 9 [e.code.toNat, e.id.toNat, e.time.toNat, e.detail.toNat]
  | .lentEnter b n => Config.payloadWords 0xa [b.toNat, n.toNat]
  | .lentGrant b ok => Config.payloadWords 0xb [b.toNat, b2n ok]
  | .lentLine b l r0 r1 => Config.payloadWords 0xc ([b.toNat, l.toNat] ++ [r0, r1].flatMap fun r => [r.w0.toNat, r.w1.toNat, r.w2.toNat, r.w3.toNat])

/-- The words of a frame as it is sent, without its CRC word. -/
def Frame.words (f : Frame) : List (BitVec 64) :=
  let ws := f.payload.words
  headerWord f.payload.type (b2n f.payload.reliable) f.seq.toNat f.ack.toNat ws.length f.hops.toNat f.origin.toNat :: ws

end Sys2Proof
end

