-- ==== Sys2Proof/Machine/Num.lean ====
section
/-! DEFINITION. Rounding of exact rationals into result fields: nearest, ties to even, saturation with OVF (R55, R142, R148, R158). -/
namespace Sys2Proof.Machine

/-- The integer nearest to a rational, ties to even (R148). -/
def roundEven (r : Rat) : Int :=
  let f := r.num / (r.den : Int)
  let rest : Int := 2 * (r.num - f * r.den)
  if rest < r.den then f else if rest > r.den then f + 1 else if f % 2 = 0 then f else f + 1

/-- Floor of the square root, bit by bit from 2^(n−1) down. -/
def isqrtFrom : Nat → Nat → Nat → Nat
  | 0, _, a => a
  | n + 1, v, a => isqrtFrom n v (if (a + 2 ^ n) * (a + 2 ^ n) ≤ v then a + 2 ^ n else a)

/-- The integer nearest to √v, ties to even, for v at most 2^200. -/
def sqrtEven (v : Rat) : Nat :=
  if v ≤ 0 then 0
  else
    let f := isqrtFrom 100 (v.num / (v.den : Int)).toNat 0
    let h : Rat := (((2 * f + 1) * (2 * f + 1) : Nat) : Rat) / 4
    if v < h then f else if h < v then f + 1 else if f % 2 = 0 then f else f + 1

/-- A value held to an unsigned field of `w` bits, and whether it exceeded it (R55). -/
def fitU (w : Nat) (v : Int) : Nat × Bool :=
  if v < 0 then (0, true) else if (2 ^ w : Nat) ≤ v.toNat then (2 ^ w - 1, true) else (v.toNat, false)

/-- A value held to a signed field of `w` bits, and whether it exceeded it (R55). -/
def fitS (w : Nat) (v : Int) : Nat × Bool := (unsigned w (satSigned w v), satSigned w v != v)

/-- Bits of a Q field: `r` scaled by 2^f, rounded once. -/
def scaled (f : Nat) (r : Rat) : Int := roundEven (r * ((2 ^ f : Nat) : Rat))

end Sys2Proof.Machine
end

