-- ==== Sys2Proof/Machine/Directory.lean ====
section
/-! DEFINITION. The register directory of BAR0: every page type, the registers its tables give, with reset value and the bits of each access
code (R17, Table 0-4), and the BAR0 map (R412 to R414, Tables 14-1, 14-2). Bits in no mask are read only or reserved. -/
namespace Sys2Proof.Machine

/-- One run of `n` consecutive dword registers of a page that share reset value and access masks. -/
structure RegRow where
  off : Nat
  n : Nat
  reset : BitVec 32
  rw : BitVec 32
  rwk : BitVec 32
  rwb : BitVec 32
  rc : BitVec 32
  wo : BitVec 32
  deriving DecidableEq, Repr

/-- The page types of Table 13-3. -/
inductive PageType where
  | chip | tb | syn | dom | jrnl | svc | link | swarm | esl | dma | dmac | ch | reg | blk | bank
  deriving DecidableEq, Repr

/-- The common header of every page, at offsets 0x000 to 0x02C (R391, Tables 13-1 and 13-2). `PAGE_ID` and `PAGE_BOUNDARY`
are filled in per page by `resetOf`. -/
def commonRows : List RegRow := [
  ⟨0x0, 1, 0x0, 0x0, 0x0, 0x0, 0x0, 0x0⟩,
  ⟨0x4, 1, 0x1, 0x0, 0x1, 0x0, 0x0, 0x0⟩,
  ⟨0x8, 1, 0x0, 0x0, 0x0, 0x0, 0x3ffff, 0x0⟩,
  ⟨0xc, 1, 0x0, 0x0, 0x0, 0x0, 0x0, 0x0⟩,
  ⟨0x10, 1, 0x0, 0x0, 0x0, 0x0, 0x7ffff, 0x0⟩,
  ⟨0x14, 1, 0x0, 0x0, 0x0, 0x0, 0x0, 0x0⟩,
  ⟨0x18, 1, 0x0, 0x0, 0x0, 0x0, 0x0, 0x0⟩,
  ⟨0x1c, 2, 0x0, 0x0, 0x0, 0x0, 0x0, 0x0⟩,
  ⟨0x24, 1, 0x0, 0x0, 0x1, 0x0, 0x0, 0x0⟩,
  ⟨0x28, 1, 0x0, 0xffffffff, 0x0, 0x0, 0x0, 0x0⟩,
  ⟨0x2c, 1, 0x0, 0x3003f, 0x0, 0x0, 0x0, 0x0⟩]

/-- The TB page: R74, Tables 2-3 to 2-12. -/
def rowsTB : List RegRow := [
  ⟨0x40, 1, 0x2, 0x2, 0x80000001, 0x0, 0x0, 0x0⟩,
  ⟨0x44, 3, 0x0, 0x0, 0x0, 0x0, 0x0, 0x0⟩,
  ⟨0x50, 1, 0x0, 0x0, 0x0, 0xffff, 0x0, 0x0⟩,
  ⟨0x54, 7, 0x0, 0x0, 0x0, 0x0, 0x0, 0x0⟩]

/-- The CH page: Tables 3-6 to 3-10, 4-11 to 4-17, 5-13 to 5-17, 7-14, 7-15. -/
def rowsCH : List RegRow := [
  ⟨0x40, 1, 0x0, 0x0, 0x1f, 0x0, 0x0, 0x0⟩,
  ⟨0x44, 1, 0x4b0, 0x0, 0x0, 0xfff, 0x0, 0x0⟩,
  ⟨0x48, 1, 0x0, 0x0, 0x0, 0xf, 0x0, 0x0⟩,
  ⟨0x4c, 1, 0x0, 0x0, 0x0, 0x3, 0x0, 0x0⟩,
  ⟨0x50, 1, 0x0, 0x0, 0x0, 0x3ffffff, 0x0, 0x0⟩,
  ⟨0x54, 3, 0x0, 0x0, 0x0, 0x0, 0x0, 0x0⟩,
  ⟨0x80, 1, 0x1, 0x0, 0x7, 0x0, 0x0, 0x0⟩,
  ⟨0x84, 1, 0x3e0, 0x0, 0x0, 0x0, 0x0, 0x0⟩,
  ⟨0x88, 1, 0x0, 0x0, 0x0, 0x3ffff, 0x0, 0x0⟩,
  ⟨0x8c, 1, 0x0, 0x0, 0x0, 0x3ff, 0x0, 0x0⟩,
  ⟨0x90, 8, 0x0, 0x0, 0x0, 0x0, 0x0, 0x0⟩,
  ⟨0x100, 1, 0x7f8, 0x0, 0x0, 0x7fff, 0x0, 0x0⟩,
  ⟨0x104, 1, 0x0, 0x0, 0x0, 0x7, 0x0, 0x0⟩,
  ⟨0x108, 1, 0xf4240, 0x0, 0x0, 0xffffffff, 0x0, 0x0⟩,
  ⟨0x10c, 1, 0x3d1, 0x0, 0x0, 0x3ffffff, 0x0, 0x0⟩,
  ⟨0x110, 8, 0x0, 0x0, 0x0, 0x0, 0x0, 0x0⟩,
  ⟨0x200, 1, 0x0, 0x0, 0x0, 0x1f, 0x0, 0x0⟩,
  ⟨0x204, 2, 0x0, 0x0, 0x0, 0x3ffffff, 0x0, 0x0⟩,
  ⟨0x20c, 1, 0x0, 0x0, 0x0, 0xffff, 0x0, 0x0⟩,
  ⟨0x210, 5, 0x0, 0x0, 0x0, 0x0, 0x0, 0x0⟩]

/-- The REG page: Tables 6-16 to 6-20, 7-16, 7-17, 8-15, 8-16. -/
def rowsREG : List RegRow := [
  ⟨0x40, 1, 0xf, 0x0, 0x0, 0x0, 0x0, 0x0⟩,
  ⟨0x44, 3, 0x0, 0x0, 0x0, 0x0, 0x0, 0x0⟩,
  ⟨0x50, 1, 0x0, 0x8000ffff, 0x0, 0x0, 0x0, 0x0⟩,
  ⟨0x54, 1, 0x0, 0x8003ffff, 0x0, 0x0, 0x0, 0x0⟩,
  ⟨0x58, 1, 0x0, 0x1, 0x100, 0x0, 0x0, 0x0⟩,
  ⟨0x5c, 6, 0x0, 0x0, 0x0, 0x0, 0x0, 0x0⟩,
  ⟨0x100, 1, 0x0, 0x0, 0x0, 0x0, 0x0, 0x0⟩,
  ⟨0x104, 1, 0x1, 0x0, 0x0, 0x0, 0x0, 0x0⟩,
  ⟨0x108, 16, 0x0, 0x0, 0x0, 0x0, 0x0, 0x0⟩,
  ⟨0x200, 8, 0x0, 0x0, 0x0, 0x7fff000, 0x0, 0x0⟩,
  ⟨0x220, 6, 0x0, 0x0, 0x0, 0x0, 0x0, 0x0⟩,
  ⟨0x238, 1, 0x0, 0x0, 0x1fff, 0x0, 0x0, 0x0⟩,
  ⟨0x23c, 1, 0x0, 0x0, 0x0, 0xfff, 0x0, 0x0⟩,
  ⟨0x240, 2, 0x0, 0x0, 0x0, 0x1fffff, 0x0, 0x0⟩,
  ⟨0x248, 1, 0x0, 0x0, 0x0, 0xffffffff, 0x0, 0x0⟩,
  ⟨0x24c, 4, 0x0, 0x0, 0x0, 0x0, 0x0, 0x0⟩,
  ⟨0x25c, 1, 0x0, 0x0, 0x0, 0x0, 0x7f, 0x0⟩,
  ⟨0x260, 16, 0x0, 0x0, 0x0, 0x0, 0x0, 0x0⟩]

/-- The BLK page: R200, Tables 6-21 to 6-23. -/
def rowsBLK : List RegRow := [
  ⟨0x40, 1, 0x0, 0x0, 0x0, 0x1, 0x0, 0x0⟩,
  ⟨0x44, 1, 0x0, 0x0, 0x0, 0x0, 0x0, 0x0⟩,
  ⟨0x48, 1, 0x0, 0x0, 0x0, 0x0, 0xfff, 0x0⟩,
  ⟨0x4c, 3, 0x0, 0x0, 0x0, 0x0, 0x0, 0x0⟩,
  ⟨0x58, 3, 0x0, 0x0, 0x0, 0x0, 0x7f7f7f7f, 0x0⟩,
  ⟨0x64, 4, 0x0, 0x0, 0x0, 0x0, 0x0, 0x0⟩]

/-- The ESL page: R241, Tables 7-19, 7-20. -/
def rowsESL : List RegRow := [
  ⟨0x40, 1, 0x0, 0x0, 0x7, 0x0, 0x0, 0x0⟩,
  ⟨0x44, 1, 0x0, 0x0, 0xfffff, 0x0, 0x0, 0x0⟩,
  ⟨0x48, 10, 0x0, 0x0, 0x0, 0x0, 0x0, 0x0⟩,
  ⟨0x70, 16, 0x0, 0xffffffff, 0x0, 0x0, 0x0, 0x0⟩]

/-- The BANK page: R275, Tables 8-13, 8-14. -/
def rowsBANK : List RegRow := [
  ⟨0x40, 1, 0x0, 0x0, 0x0, 0x7f, 0x0, 0x0⟩,
  ⟨0x44, 5, 0x0, 0x0, 0x0, 0x0, 0x0, 0x0⟩,
  ⟨0x58, 1, 0x1, 0x1, 0x0, 0x0, 0x0, 0x0⟩,
  ⟨0x5c, 5, 0x0, 0x0, 0x0, 0x0, 0x0, 0x0⟩,
  ⟨0x70, 1, 0x0, 0x0, 0x1, 0x0, 0x0, 0x0⟩]

/-- The LINK page: R316, Tables 9-11, 9-12. -/
def rowsLINK : List RegRow := [
  ⟨0x40, 1, 0x0, 0x0, 0xf, 0x0, 0x0, 0x0⟩,
  ⟨0x44, 1, 0x38, 0x0, 0x0, 0x7f, 0x0, 0x0⟩,
  ⟨0x48, 10, 0x0, 0x0, 0x0, 0x0, 0x0, 0x0⟩]

/-- The SWARM page: R317, Tables 9-13, 9-14. -/
def rowsSWARM : List RegRow := [
  ⟨0x40, 1, 0x0, 0x0, 0x7, 0x0, 0x0, 0x0⟩,
  ⟨0x44, 1, 0x0, 0x0, 0x7ff, 0x0, 0x0, 0x0⟩,
  ⟨0x48, 1, 0x0, 0x0, 0xffff, 0x0, 0x0, 0x0⟩,
  ⟨0x4c, 2, 0x0, 0x0, 0x0, 0x0, 0x0, 0x0⟩,
  ⟨0x54, 1, 0x14, 0xffff, 0x0, 0x0, 0x0, 0x0⟩,
  ⟨0x58, 1, 0x32, 0xffff, 0x0, 0x0, 0x0, 0x0⟩,
  ⟨0x5c, 16, 0x0, 0x0, 0x0, 0x0, 0x0, 0x0⟩,
  ⟨0x9c, 1, 0x21, 0x0, 0x0, 0x0, 0x0, 0x0⟩]

/-- The DOM page: R339, Tables 10-4, 10-5. -/
def rowsDOM : List RegRow := [
  ⟨0x40, 1, 0x0, 0x0, 0x0, 0xf, 0x0, 0x0⟩,
  ⟨0x44, 1, 0xb333, 0x0, 0x0, 0xffff, 0x0, 0x0⟩,
  ⟨0x48, 1, 0x4ccd, 0x0, 0x0, 0xffff, 0x0, 0x0⟩,
  ⟨0x4c, 1, 0x6400c8, 0x0, 0x0, 0xffff03ff, 0x0, 0x0⟩,
  ⟨0x50, 1, 0x3e8, 0x0, 0x0, 0xffffffff, 0x0, 0x0⟩,
  ⟨0x54, 1, 0x0, 0x0, 0x0, 0xffffffff, 0x0, 0x0⟩,
  ⟨0x58, 1, 0x0, 0x0, 0x0, 0x8000ffff, 0x0, 0x0⟩,
  ⟨0x5c, 1, 0x0, 0xffffffff, 0x0, 0x0, 0x0, 0x0⟩,
  ⟨0x60, 1, 0x0, 0xffff, 0x0, 0x0, 0x0, 0x0⟩,
  ⟨0x64, 2, 0x0, 0xffffffff, 0x0, 0x0, 0x0, 0x0⟩,
  ⟨0x6c, 1, 0x0, 0x0, 0x0, 0xffffffff, 0x0, 0x0⟩,
  ⟨0x70, 1, 0x0, 0x0, 0x0, 0xffff, 0x0, 0x0⟩,
  ⟨0x74, 1, 0x3b9aca00, 0x0, 0x0, 0xffffffff, 0x0, 0x0⟩,
  ⟨0x78, 1, 0x0, 0x0, 0x0, 0xffffffff, 0x0, 0x0⟩,
  ⟨0x7c, 1, 0x0, 0x0, 0x0, 0x1, 0x0, 0x0⟩,
  ⟨0x80, 1, 0x0, 0x0, 0x0, 0xffffffff, 0x0, 0x0⟩,
  ⟨0x84, 4, 0x0, 0x0, 0x0, 0x0, 0x0, 0x0⟩,
  ⟨0x94, 1, 0x0, 0x0, 0x0, 0x0, 0x0, 0x1⟩,
  ⟨0x98, 11, 0x0, 0x0, 0x0, 0x0, 0x0, 0x0⟩]

/-- The SYN page: R358, Tables 11-4, 11-5. -/
def rowsSYN : List RegRow := [
  ⟨0x40, 1, 0x0, 0x0, 0x0, 0x7f, 0x0, 0x0⟩,
  ⟨0x44, 1, 0xc000000, 0x0, 0x0, 0x1fffffff, 0x0, 0x0⟩,
  ⟨0x48, 1, 0x1d, 0x0, 0x0, 0x3ff, 0x0, 0x0⟩,
  ⟨0x4c, 1, 0x0, 0x0, 0x0, 0x1ff, 0x0, 0x0⟩,
  ⟨0x50, 1, 0x1, 0x0, 0x0, 0xffffff, 0x0, 0x0⟩,
  ⟨0x54, 1, 0x0, 0x0, 0x0, 0x3ff, 0x0, 0x0⟩,
  ⟨0x58, 1, 0x0, 0x0, 0x0, 0x1ff, 0x0, 0x0⟩,
  ⟨0x5c, 3, 0x0, 0x0, 0xffffffff, 0x0, 0x0, 0x0⟩,
  ⟨0x68, 4, 0x0, 0x0, 0x0, 0x0, 0x0, 0x0⟩,
  ⟨0x80, 32, 0x0, 0x0, 0x0, 0x0, 0x0, 0x0⟩]

/-- The DMA page: R389, Tables 12-8, 12-9. -/
def rowsDMA : List RegRow := [
  ⟨0x40, 1, 0x0, 0x1, 0x0, 0x0, 0x0, 0x0⟩,
  ⟨0x44, 1, 0x3e8, 0xffff, 0x0, 0x0, 0x0, 0x0⟩,
  ⟨0x48, 3, 0x0, 0x0, 0x0, 0x0, 0x0, 0x0⟩]

/-- The DMAC page: R390, Tables 12-10, 12-11. -/
def rowsDMAC : List RegRow := [
  ⟨0x40, 1, 0x0, 0x0, 0x0, 0x0, 0x0, 0x0⟩,
  ⟨0x44, 1, 0x0, 0xf, 0x0, 0x70, 0x0, 0x0⟩,
  ⟨0x48, 1, 0x0, 0xffffffe0, 0x0, 0x0, 0x0, 0x0⟩,
  ⟨0x4c, 1, 0x0, 0xffffffff, 0x0, 0x0, 0x0, 0x0⟩,
  ⟨0x50, 1, 0xf, 0xffff, 0x0, 0x0, 0x0, 0x0⟩,
  ⟨0x54, 1, 0x0, 0x0, 0x0, 0x0, 0x0, 0xffff⟩,
  ⟨0x58, 11, 0x0, 0x0, 0x0, 0x0, 0x0, 0x0⟩]

/-- The CHIP page: R416, Tables 14-3, 14-4, 13-5, 7-18. -/
def rowsCHIP : List RegRow := [
  ⟨0x40, 1, 0x961f5b, 0x0, 0x0, 0x0, 0x0, 0x0⟩,
  ⟨0x44, 1, 0x3f4b1, 0x0, 0x0, 0x0, 0x0, 0x0⟩,
  ⟨0x48, 2, 0x0, 0x0, 0x0, 0x0, 0x0, 0x0⟩,
  ⟨0x50, 1, 0x0, 0x0, 0x0, 0x0, 0x0, 0xff0f⟩,
  ⟨0x54, 2, 0x0, 0x0, 0x0, 0x0, 0x0, 0x0⟩,
  ⟨0x5c, 1, 0x0, 0xfffffff8, 0x0, 0x0, 0x0, 0x0⟩,
  ⟨0x60, 1, 0x0, 0xffffffff, 0x0, 0x0, 0x0, 0x0⟩,
  ⟨0x64, 1, 0x0, 0xffffff, 0x0, 0x0, 0x0, 0x0⟩,
  ⟨0x68, 3, 0x0, 0x0, 0x0, 0x0, 0x0, 0x0⟩,
  ⟨0x74, 1, 0x1000, 0xff0f, 0x0, 0x0, 0x0, 0x0⟩,
  ⟨0x78, 1, 0x0, 0x0, 0x0, 0x0, 0x0, 0x0⟩,
  ⟨0x7c, 1, 0x190, 0x7ff, 0x0, 0x0, 0x0, 0x0⟩,
  ⟨0x80, 1, 0x1, 0x3f, 0x0, 0x0, 0x0, 0x0⟩,
  ⟨0x84, 1, 0x0, 0x0, 0x0, 0x0, 0x0, 0x0⟩,
  ⟨0x88, 1, 0x0, 0x0, 0x80003fff, 0x0, 0x0, 0x0⟩,
  ⟨0x8c, 1, 0x1, 0x0, 0x0, 0x0, 0x3f, 0x0⟩]

/-- The SVC page: R422, Tables 14-5, 14-6. -/
def rowsSVC : List RegRow := [
  ⟨0x40, 1, 0x3, 0x0, 0x3, 0x0, 0x0, 0x0⟩,
  ⟨0x44, 4, 0x0, 0x0, 0x0, 0x0, 0x0, 0x0⟩,
  ⟨0x54, 1, 0x0, 0xffffffff, 0x0, 0x0, 0x0, 0x0⟩,
  ⟨0x58, 1, 0x0, 0x0, 0x0, 0x0, 0x0, 0x0⟩]

/-- The JRNL page: R411, Table 13-9. -/
def rowsJRNL : List RegRow := [
  ⟨0x40, 1, 0x0, 0x1, 0x0, 0x0, 0x0, 0x0⟩,
  ⟨0x44, 1, 0x0, 0x0, 0x0, 0x0, 0x0, 0x0⟩,
  ⟨0x48, 1, 0x0, 0xffffffff, 0x0, 0x0, 0x0, 0x0⟩,
  ⟨0x4c, 5, 0x0, 0x0, 0x0, 0x0, 0x0, 0x0⟩]

/-- The page-specific registers of a page type (Table 14-2). -/
def PageType.rows : PageType → List RegRow
  | .chip => rowsCHIP
  | .tb => rowsTB
  | .syn => rowsSYN
  | .dom => rowsDOM
  | .jrnl => rowsJRNL
  | .svc => rowsSVC
  | .link => rowsLINK
  | .swarm => rowsSWARM
  | .esl => rowsESL
  | .dma => rowsDMA
  | .dmac => rowsDMAC
  | .ch => rowsCH
  | .reg => rowsREG
  | .blk => rowsBLK
  | .bank => rowsBANK

/-- TYPE of a page (Table 13-3). -/
def PageType.code : PageType → Nat
  | .chip => 0x01
  | .tb => 0x02
  | .syn => 0x03
  | .dom => 0x04
  | .jrnl => 0x05
  | .svc => 0x06
  | .link => 0x07
  | .swarm => 0x08
  | .esl => 0x09
  | .dma => 0x0a
  | .dmac => 0x0b
  | .ch => 0x10
  | .reg => 0x11
  | .blk => 0x12
  | .bank => 0x13

/-- Boundary KIND of a page (Table 13-3). -/
def PageType.kind : PageType → Nat
  | .chip => 0
  | .tb => 6
  | .syn => 5
  | .dom => 7
  | .jrnl => 0
  | .svc => 0
  | .link => 8
  | .swarm => 0
  | .esl => 0
  | .dma => 0
  | .dmac => 4
  | .ch => 1
  | .reg => 2
  | .blk => 2
  | .bank => 3

/-- The page that a BAR0 byte address falls in, with its instance number (Table 14-1); none in the windows, the MSI-X
table and the reserved ranges. -/
def pageOf (addr : Nat) : Option (PageType × Nat) :=
  let q := addr / 0x1000
  if q = 0x00 then some (.chip, 0)
  else if q = 0x02 then some (.tb, 0)
  else if 0x03 ≤ q ∧ q < 0x09 then some (.syn, q - 0x03)
  else if q = 0x0a ∨ q = 0x0b then some (.dom, q - 0x0a)
  else if q = 0x0c then some (.jrnl, 0)
  else if q = 0x0d then some (.svc, 0)
  else if 0x10 ≤ q ∧ q < 0x14 then some (.link, q - 0x10)
  else if q = 0x14 then some (.swarm, 0)
  else if q = 0x15 then some (.esl, 0)
  else if q = 0x18 then some (.dma, 0)
  else if 0x19 ≤ q ∧ q < 0x21 then some (.dmac, q - 0x19)
  else if 0x100 ≤ q ∧ q < 0x160 then some (.ch, q - 0x100)
  else if 0x200 ≤ q ∧ q < 0x208 then some (.reg, q - 0x200)
  else if 0x210 ≤ q ∧ q < 0x250 then some (.blk, q - 0x210)
  else if 0x300 ≤ q ∧ q < 0x400 then some (.bank, q - 0x300)
  else none

/-- The base address of a page (Tables 1-2, 14-1). -/
def pageBase (t : PageType) (i : Nat) : Nat :=
  (match t with
  | .chip => 0x00
  | .tb => 0x02
  | .syn => 0x03
  | .dom => 0x0a
  | .jrnl => 0x0c
  | .svc => 0x0d
  | .link => 0x10
  | .swarm => 0x14
  | .esl => 0x15
  | .dma => 0x18
  | .dmac => 0x19
  | .ch => 0x100
  | .reg => 0x200
  | .blk => 0x210
  | .bank => 0x300) * 0x1000 + i * 0x1000

/-- Does the row hold the register at this page offset? -/
def RegRow.holds (r : RegRow) (off : Nat) : Bool := decide (r.off ≤ off ∧ off < r.off + 4 * r.n ∧ off % 4 = 0)

/-- Registers that only some instances of a page type have (Table 14-2). -/
def absentReg (t : PageType) (i off : Nat) : Bool :=
  match t with
  | .syn => decide (i < 4 ∧ off = 0x054)
  | .dom => decide (i = 1 ∧ (off = 0x07c ∨ off = 0x0c0))
  | _ => false

/-- Clears bits that only odd channels have: INPUT.PAIRED and QCTRL.WIN_EN (Table 14-2). -/
def evenChannelMask (t : PageType) (i : Nat) (r : RegRow) : RegRow :=
  if t = .ch ∧ i % 2 = 0 ∧ (r.off = 0x040 ∨ r.off = 0x200) then
    ⟨r.off, r.n, r.reset, r.rw, r.rwk &&& 0xf, r.rwb &&& 0xf, r.rc, r.wo⟩
  else r

/-- The register at a page offset of one page instance; none where the offset is reserved (R391, R414). -/
def pageReg (t : PageType) (i off : Nat) : Option RegRow :=
  if absentReg t i off then none
  else ((if off < 0x040 then commonRows else t.rows).find? (·.holds off)).map (evenChannelMask t i)

/-- The register at a BAR0 address. -/
def regAt (addr : Nat) : Option RegRow :=
  match pageOf addr with
  | some (t, i) => pageReg t i (addr % 0x1000)
  | none => none

/-- The fused value of a register, reserved bits 0 (Table 14-8). -/
def fusedAt (t : PageType) (i off : Nat) : Option (BitVec 32) :=
  match t with
  | .chip => if off = 0x048 then some (Config.dieSerial.setWidth 32)
    else if off = 0x04c then some (0xb1000000#32 ||| (Config.dieSerial >>> 32).setWidth 32) else none
  | .ch => if off = 0x090 then some ((Config.factorySkew i).setWidth 32) else none
  | .bank => if off = 0x060 then some (Config.repair i 0 &&& 0x80ff80ff) else if off = 0x064 then some (Config.repair i 1 &&& 0x80ff80ff) else none
  | _ => none

/-- The reset value of the register at a BAR0 address (the Reset column, R18; fused values are in force with the registers' reset, R425).
PAGE_ID, PAGE_CTRL, PAGE_BOUNDARY, TB.PAGE_LIVE.SOURCE and DMAC6/7.CFG are those of Tables 13-1 to 13-3, 2-5 and 14-2. -/
def resetOf (addr : Nat) : BitVec 32 :=
  match pageOf addr with
  | none => 0
  | some (t, i) =>
    let off := addr % 0x1000
    if off = 0x000 then BitVec.ofNat 32 (0x10000 + i * 0x100 + t.code)
    else if off = 0x004 then (if t = .syn then 0 else 1)
    else if off = 0x020 then BitVec.ofNat 32 t.kind
    else if off = 0x00c then (if t = .tb then 8 else 0)
    else if t = .dmac ∧ off = 0x040 then (if 6 ≤ i then 1 else 0)
    else match fusedAt t i off with
      | some v => v
      | none =>
        match pageReg t i off with
        | some r => r.reset
        | none => 0

end Sys2Proof.Machine
end

