-- ==== Sys2Proof/Machine/Fields.lean ====
section
/-! DEFINITION. Named registers and fields of the pages (offset in the page, low bit, width), as the field tables of the chapters give
them. A name without a second part is the whole register; `live_`, `st_` and `err_` name bits of PAGE_LIVE, PAGE_STATUS and PAGE_ERR. -/
namespace Sys2Proof.Machine

abbrev PG.CTRL_RUN : Fld := ⟨0x4, 0, 1⟩
abbrev PG.STATUS : Fld := ⟨0x8, 0, 32⟩
abbrev PG.LIVE : Fld := ⟨0xc, 0, 32⟩
abbrev PG.ERR : Fld := ⟨0x10, 0, 32⟩
abbrev PG.ERRINFO : Fld := ⟨0x14, 0, 32⟩
abbrev PG.ERRINFO_BIT : Fld := ⟨0x14, 0, 5⟩
abbrev PG.ERRINFO_VALID : Fld := ⟨0x14, 5, 1⟩
abbrev PG.ERRINFO_MORE : Fld := ⟨0x14, 6, 1⟩
abbrev PG.ERRINFO_OFFSET : Fld := ⟨0x14, 8, 12⟩
abbrev PG.ERRINFO_AGENT : Fld := ⟨0x14, 20, 2⟩
abbrev PG.APPLY_APPLIES : Fld := ⟨0x1c, 16, 16⟩
abbrev PG.FREEZE_FROZEN : Fld := ⟨0x24, 8, 8⟩
abbrev PG.IRQ_EN : Fld := ⟨0x28, 0, 32⟩
abbrev PG.IRQ_VEC : Fld := ⟨0x2c, 0, 32⟩
abbrev PG.IRQ_VEC_VECTOR : Fld := ⟨0x2c, 0, 6⟩
abbrev PG.IRQ_VEC_COMMON : Fld := ⟨0x2c, 16, 2⟩
abbrev PG.st_APPLIED : Fld := ⟨0x8, 16, 1⟩
abbrev PG.st_RELEASED : Fld := ⟨0x8, 17, 1⟩
abbrev PG.err_BUS_ERR : Fld := ⟨0x10, 16, 1⟩
abbrev PG.err_KEYFAIL : Fld := ⟨0x10, 17, 1⟩
abbrev PG.err_POISON_TLP : Fld := ⟨0x10, 18, 1⟩
abbrev TB.CTRL : Fld := ⟨0x40, 0, 32⟩
abbrev TB.EPOCH : Fld := ⟨0x44, 0, 32⟩
abbrev TB.NOW_LO : Fld := ⟨0x48, 0, 32⟩
abbrev TB.NOW_HI : Fld := ⟨0x4c, 0, 32⟩
abbrev TB.TRIM : Fld := ⟨0x50, 0, 32⟩
abbrev TB.TRIM_LIVE : Fld := ⟨0x54, 0, 32⟩
abbrev TB.PHASE_ERR : Fld := ⟨0x58, 0, 32⟩
abbrev TB.LOSS_COUNT : Fld := ⟨0x5c, 0, 32⟩
abbrev TB.LOSS_AT_LO : Fld := ⟨0x60, 0, 32⟩
abbrev TB.LOSS_AT_HI : Fld := ⟨0x64, 0, 32⟩
abbrev TB.RELOCK_AT_LO : Fld := ⟨0x68, 0, 32⟩
abbrev TB.RELOCK_AT_HI : Fld := ⟨0x6c, 0, 32⟩
abbrev TB.CTRL_REFSEL : Fld := ⟨0x40, 0, 1⟩
abbrev TB.CTRL_ALTREF_EN : Fld := ⟨0x40, 1, 1⟩
abbrev TB.CTRL_TB_RESET : Fld := ⟨0x40, 31, 1⟩
abbrev TB.live_STARTED : Fld := ⟨0xc, 0, 1⟩
abbrev TB.live_LOCKED : Fld := ⟨0xc, 1, 1⟩
abbrev TB.live_SOURCE : Fld := ⟨0xc, 2, 2⟩
abbrev TB.live_COARSE : Fld := ⟨0xc, 4, 1⟩
abbrev TB.live_WRAPPED : Fld := ⟨0xc, 5, 1⟩
abbrev TB.live_REF_PRESENT : Fld := ⟨0xc, 6, 1⟩
abbrev TB.live_UPREF_PRESENT : Fld := ⟨0xc, 7, 1⟩
abbrev TB.live_ALT_PRESENT : Fld := ⟨0xc, 8, 1⟩
abbrev TB.live_TRIMMING : Fld := ⟨0xc, 9, 1⟩
abbrev TB.st_LOCK_LOST : Fld := ⟨0x8, 0, 1⟩
abbrev TB.st_RELOCKED : Fld := ⟨0x8, 1, 1⟩
abbrev TB.st_WRAP : Fld := ⟨0x8, 2, 1⟩
abbrev TB.st_SRC_CHANGE : Fld := ⟨0x8, 3, 1⟩
abbrev TB.st_TRIM_DONE : Fld := ⟨0x8, 4, 1⟩
abbrev TB.st_TB_RESET_DONE : Fld := ⟨0x8, 5, 1⟩
abbrev TB.err_TB_LOST : Fld := ⟨0x10, 0, 1⟩
abbrev TB.err_BUSY_REJECT : Fld := ⟨0x10, 1, 1⟩
abbrev TB.EPOCH_VALUE : Fld := ⟨0x44, 0, 8⟩
abbrev TB.TRIM_TARGET : Fld := ⟨0x50, 0, 16⟩
abbrev TB.TRIM_LIVE_VALUE : Fld := ⟨0x54, 0, 16⟩
abbrev TB.PHASE_ERR_VALUE : Fld := ⟨0x58, 0, 12⟩
abbrev TB.LOSS_COUNT_VALUE : Fld := ⟨0x5c, 0, 16⟩
abbrev CH.INPUT : Fld := ⟨0x40, 0, 32⟩
abbrev CH.THRESH : Fld := ⟨0x44, 0, 32⟩
abbrev CH.HYST : Fld := ⟨0x48, 0, 32⟩
abbrev CH.EDGE : Fld := ⟨0x4c, 0, 32⟩
abbrev CH.STUCK_TO : Fld := ⟨0x50, 0, 32⟩
abbrev CH.LEVEL : Fld := ⟨0x54, 0, 32⟩
abbrev CH.STUCK_AT_LO : Fld := ⟨0x58, 0, 32⟩
abbrev CH.STUCK_AT_HI : Fld := ⟨0x5c, 0, 32⟩
abbrev CH.POOL_CTRL : Fld := ⟨0x80, 0, 32⟩
abbrev CH.POOL_STATUS : Fld := ⟨0x84, 0, 32⟩
abbrev CH.DELAY : Fld := ⟨0x88, 0, 32⟩
abbrev CH.FALL_TRIM : Fld := ⟨0x8c, 0, 32⟩
abbrev CH.FACTORY_SKEW : Fld := ⟨0x90, 0, 32⟩
abbrev CH.ECOUNT_LO : Fld := ⟨0x94, 0, 32⟩
abbrev CH.ECOUNT_HI : Fld := ⟨0x98, 0, 32⟩
abbrev CH.GAPEDGES_LO : Fld := ⟨0x9c, 0, 32⟩
abbrev CH.GAPEDGES_HI : Fld := ⟨0xa0, 0, 32⟩
abbrev CH.GAPRECS : Fld := ⟨0xa4, 0, 32⟩
abbrev CH.ROTATIONS : Fld := ⟨0xa8, 0, 32⟩
abbrev CH.CAL_LAST : Fld := ⟨0xac, 0, 32⟩
abbrev CH.ACC_CTRL : Fld := ⟨0x100, 0, 32⟩
abbrev CH.GATE_CTRL : Fld := ⟨0x104, 0, 32⟩
abbrev CH.GATE_LEN : Fld := ⟨0x108, 0, 32⟩
abbrev CH.GATE_GRACE : Fld := ⟨0x10c, 0, 32⟩
abbrev CH.GATE_MIN : Fld := ⟨0x110, 0, 32⟩
abbrev CH.GATE_IDX_LO : Fld := ⟨0x114, 0, 32⟩
abbrev CH.GATE_IDX_HI : Fld := ⟨0x118, 0, 32⟩
abbrev CH.GATE_START_LO : Fld := ⟨0x11c, 0, 32⟩
abbrev CH.GATE_START_HI : Fld := ⟨0x120, 0, 32⟩
abbrev CH.GATES_DONE : Fld := ⟨0x124, 0, 32⟩
abbrev CH.CHAIN_BREAKS : Fld := ⟨0x128, 0, 32⟩
abbrev CH.SUBGATES : Fld := ⟨0x12c, 0, 32⟩
abbrev CH.QCTRL : Fld := ⟨0x200, 0, 32⟩
abbrev CH.WMIN : Fld := ⟨0x204, 0, 32⟩
abbrev CH.WMAX : Fld := ⟨0x208, 0, 32⟩
abbrev CH.GLITCH_W : Fld := ⟨0x20c, 0, 32⟩
abbrev CH.NARROWS : Fld := ⟨0x210, 0, 32⟩
abbrev CH.WIDES : Fld := ⟨0x214, 0, 32⟩
abbrev CH.GLITCHES : Fld := ⟨0x218, 0, 32⟩
abbrev CH.RUNTS : Fld := ⟨0x21c, 0, 32⟩
abbrev CH.WINDOW_EVTS : Fld := ⟨0x220, 0, 32⟩
abbrev CH.INPUT_MODE : Fld := ⟨0x40, 0, 2⟩
abbrev CH.INPUT_TERM : Fld := ⟨0x40, 2, 1⟩
abbrev CH.INPUT_PRESCALE : Fld := ⟨0x40, 3, 1⟩
abbrev CH.INPUT_PAIRED : Fld := ⟨0x40, 4, 1⟩
abbrev CH.THRESH_LEVEL : Fld := ⟨0x44, 0, 12⟩
abbrev CH.HYST_STEP : Fld := ⟨0x48, 0, 4⟩
abbrev CH.EDGE_SEL : Fld := ⟨0x4c, 0, 2⟩
abbrev CH.STUCK_TO_COUNT : Fld := ⟨0x50, 0, 26⟩
abbrev CH.LEVEL_COMP : Fld := ⟨0x54, 0, 1⟩
abbrev CH.LEVEL_WIN : Fld := ⟨0x54, 1, 2⟩
abbrev CH.live_STUCK : Fld := ⟨0xc, 0, 1⟩
abbrev CH.live_STUCK_LEVEL : Fld := ⟨0xc, 1, 1⟩
abbrev CH.live_PAIRED_ACTIVE : Fld := ⟨0xc, 2, 1⟩
abbrev CH.st_STUCK_SET : Fld := ⟨0x8, 0, 1⟩
abbrev CH.st_STUCK_CLEAR : Fld := ⟨0x8, 1, 1⟩
abbrev CH.st_THRESH_APPLIED : Fld := ⟨0x8, 2, 1⟩
abbrev CH.err_RANGE : Fld := ⟨0x10, 0, 1⟩
abbrev CH.err_BUSY_REJECT : Fld := ⟨0x10, 1, 1⟩
abbrev CH.err_ENCODING : Fld := ⟨0x10, 2, 1⟩
abbrev CH.POOL_CTRL_NURSE_EN : Fld := ⟨0x80, 0, 1⟩
abbrev CH.POOL_CTRL_DEGRADE : Fld := ⟨0x80, 1, 1⟩
abbrev CH.POOL_CTRL_RECAL : Fld := ⟨0x80, 2, 1⟩
abbrev CH.POOL_STATUS_ACTIVE : Fld := ⟨0x84, 0, 5⟩
abbrev CH.POOL_STATUS_NURSE : Fld := ⟨0x84, 5, 5⟩
abbrev CH.POOL_STATUS_RETIRED : Fld := ⟨0x84, 10, 17⟩
abbrev CH.POOL_STATUS_READY : Fld := ⟨0x84, 27, 1⟩
abbrev CH.POOL_STATUS_CALIBRATING : Fld := ⟨0x84, 28, 1⟩
abbrev CH.DELAY_OFFSET : Fld := ⟨0x88, 0, 18⟩
abbrev CH.FALL_TRIM_VALUE : Fld := ⟨0x8c, 0, 10⟩
abbrev CH.FACTORY_SKEW_VALUE : Fld := ⟨0x90, 0, 16⟩
abbrev CH.CAL_LAST_CONV : Fld := ⟨0xac, 0, 5⟩
abbrev CH.CAL_LAST_ACCEPTED : Fld := ⟨0xac, 5, 1⟩
abbrev CH.CAL_LAST_SHIFT : Fld := ⟨0xac, 6, 8⟩
abbrev CH.CAL_LAST_REJECTS : Fld := ⟨0xac, 14, 2⟩
abbrev CH.live_POOL_READY : Fld := ⟨0xc, 8, 1⟩
abbrev CH.live_GAP_OPEN : Fld := ⟨0xc, 9, 1⟩
abbrev CH.live_DEGRADED : Fld := ⟨0xc, 10, 1⟩
abbrev CH.live_NO_NURSE : Fld := ⟨0xc, 11, 1⟩
abbrev CH.st_GAP : Fld := ⟨0x8, 8, 1⟩
abbrev CH.st_RETIRE : Fld := ⟨0x8, 9, 1⟩
abbrev CH.st_CAL_REJECT : Fld := ⟨0x8, 10, 1⟩
abbrev CH.st_OFFSET_APPLIED : Fld := ⟨0x8, 11, 1⟩
abbrev CH.err_CONV_RETIRED : Fld := ⟨0x10, 8, 1⟩
abbrev CH.err_RECAL_REJECT : Fld := ⟨0x10, 9, 1⟩
abbrev CH.ACC_CTRL_EN : Fld := ⟨0x100, 0, 1⟩
abbrev CH.ACC_CTRL_POL : Fld := ⟨0x100, 1, 2⟩
abbrev CH.ACC_CTRL_K_M1 : Fld := ⟨0x100, 3, 12⟩
abbrev CH.GATE_CTRL_MODE : Fld := ⟨0x104, 0, 2⟩
abbrev CH.GATE_CTRL_SCALE : Fld := ⟨0x104, 2, 1⟩
abbrev CH.GATE_GRACE_COUNT : Fld := ⟨0x10c, 0, 26⟩
abbrev CH.GATE_MIN_MIN_NS : Fld := ⟨0x110, 0, 20⟩
abbrev CH.GATE_MIN_KMIN_M1 : Fld := ⟨0x110, 20, 12⟩
abbrev CH.live_GATE_OPEN : Fld := ⟨0xc, 12, 1⟩
abbrev CH.live_CHAIN_BROKEN : Fld := ⟨0xc, 13, 1⟩
abbrev CH.st_GATE_DONE : Fld := ⟨0x8, 12, 1⟩
abbrev CH.st_CHAIN_BREAK : Fld := ⟨0x8, 13, 1⟩
abbrev CH.st_ACC_APPLIED : Fld := ⟨0x8, 14, 1⟩
abbrev CH.err_ACC_RANGE : Fld := ⟨0x10, 12, 1⟩
abbrev CH.err_ACC_CONFLICT : Fld := ⟨0x10, 13, 1⟩
abbrev CH.err_ACC_ENCODING : Fld := ⟨0x10, 14, 1⟩
abbrev CH.QCTRL_EN : Fld := ⟨0x200, 0, 1⟩
abbrev CH.QCTRL_WPOL : Fld := ⟨0x200, 1, 2⟩
abbrev CH.QCTRL_GLITCH_EN : Fld := ⟨0x200, 3, 1⟩
abbrev CH.QCTRL_WIN_EN : Fld := ⟨0x200, 4, 1⟩
abbrev CH.WMIN_VALUE : Fld := ⟨0x204, 0, 26⟩
abbrev CH.WMAX_VALUE : Fld := ⟨0x208, 0, 26⟩
abbrev CH.GLITCH_W_VALUE : Fld := ⟨0x20c, 0, 16⟩
abbrev REG.SCHED : Fld := ⟨0x40, 0, 32⟩
abbrev REG.SLOT : Fld := ⟨0x44, 0, 32⟩
abbrev REG.CYCLES_LO : Fld := ⟨0x48, 0, 32⟩
abbrev REG.CYCLES_HI : Fld := ⟨0x4c, 0, 32⟩
abbrev REG.DBG_SEL : Fld := ⟨0x50, 0, 32⟩
abbrev REG.DBG_DATA : Fld := ⟨0x54, 0, 32⟩
abbrev REG.DBG_CTRL : Fld := ⟨0x58, 0, 32⟩
abbrev REG.FAULT_CAUSE : Fld := ⟨0x5c, 0, 32⟩
abbrev REG.STOPPED0 : Fld := ⟨0x60, 0, 32⟩
abbrev REG.STOPPED1 : Fld := ⟨0x64, 0, 32⟩
abbrev REG.STOPPED2 : Fld := ⟨0x68, 0, 32⟩
abbrev REG.STOPPED3 : Fld := ⟨0x6c, 0, 32⟩
abbrev REG.POISON_PUTS : Fld := ⟨0x70, 0, 32⟩
abbrev REG.REC_RING : Fld := ⟨0x100, 0, 32⟩
abbrev REG.CAP_STRIPE : Fld := ⟨0x104, 0, 32⟩
abbrev REG.CAP_PRIO : Fld := ⟨0x108, 0, 32⟩
abbrev REG.BUDGET0 : Fld := ⟨0x10c, 0, 32⟩
abbrev REG.BUDGET1 : Fld := ⟨0x110, 0, 32⟩
abbrev REG.BUDGET2 : Fld := ⟨0x114, 0, 32⟩
abbrev REG.BUDGET3 : Fld := ⟨0x118, 0, 32⟩
abbrev REG.BUDGET4 : Fld := ⟨0x11c, 0, 32⟩
abbrev REG.BUDGET5 : Fld := ⟨0x120, 0, 32⟩
abbrev REG.BUDGET6 : Fld := ⟨0x124, 0, 32⟩
abbrev REG.BUDGET_SUM : Fld := ⟨0x128, 0, 32⟩
abbrev REG.CAP_POS : Fld := ⟨0x12c, 0, 32⟩
abbrev REG.REC_POS : Fld := ⟨0x130, 0, 32⟩
abbrev REG.DEMOTED : Fld := ⟨0x134, 0, 32⟩
abbrev REG.LEVELS : Fld := ⟨0x138, 0, 32⟩
abbrev REG.LOSS_RECS : Fld := ⟨0x13c, 0, 32⟩
abbrev REG.LOST_LO : Fld := ⟨0x140, 0, 32⟩
abbrev REG.LOST_HI : Fld := ⟨0x144, 0, 32⟩
abbrev REG.SEQ_CFG0 : Fld := ⟨0x200, 0, 32⟩
abbrev REG.SEQ_CFG1 : Fld := ⟨0x204, 0, 32⟩
abbrev REG.SEQ_CFG2 : Fld := ⟨0x208, 0, 32⟩
abbrev REG.SEQ_CFG3 : Fld := ⟨0x20c, 0, 32⟩
abbrev REG.SEQ_CFG4 : Fld := ⟨0x210, 0, 32⟩
abbrev REG.SEQ_CFG5 : Fld := ⟨0x214, 0, 32⟩
abbrev REG.SEQ_CFG6 : Fld := ⟨0x218, 0, 32⟩
abbrev REG.SEQ_CFG7 : Fld := ⟨0x21c, 0, 32⟩
abbrev REG.SEQ_STATE : Fld := ⟨0x220, 0, 32⟩
abbrev REG.TRIG_COUNT : Fld := ⟨0x224, 0, 32⟩
abbrev REG.TRIG_BAD : Fld := ⟨0x228, 0, 32⟩
abbrev REG.TRIG_IGNORED : Fld := ⟨0x22c, 0, 32⟩
abbrev REG.LAST_TRIG_LO : Fld := ⟨0x230, 0, 32⟩
abbrev REG.LAST_TRIG_HI : Fld := ⟨0x234, 0, 32⟩
abbrev REG.CAP_CTRL : Fld := ⟨0x238, 0, 32⟩
abbrev REG.CAP_SEL : Fld := ⟨0x23c, 0, 32⟩
abbrev REG.CAP_PRE : Fld := ⟨0x240, 0, 32⟩
abbrev REG.CAP_POST : Fld := ⟨0x244, 0, 32⟩
abbrev REG.CAP_SWARM : Fld := ⟨0x248, 0, 32⟩
abbrev REG.CAP_RING : Fld := ⟨0x24c, 0, 32⟩
abbrev REG.CAP_STATUS : Fld := ⟨0x250, 0, 32⟩
abbrev REG.SEGS_DONE : Fld := ⟨0x254, 0, 32⟩
abbrev REG.JUMPS_ABSORBED : Fld := ⟨0x258, 0, 32⟩
abbrev REG.CAP_EVENTS : Fld := ⟨0x25c, 0, 32⟩
abbrev REG.EVL_BIND0 : Fld := ⟨0x260, 0, 32⟩
abbrev REG.EVL_BIND1 : Fld := ⟨0x264, 0, 32⟩
abbrev REG.EVL_BIND2 : Fld := ⟨0x268, 0, 32⟩
abbrev REG.EVL_BIND3 : Fld := ⟨0x26c, 0, 32⟩
abbrev REG.EVL_BIND4 : Fld := ⟨0x270, 0, 32⟩
abbrev REG.EVL_BIND5 : Fld := ⟨0x274, 0, 32⟩
abbrev REG.EVL_BIND6 : Fld := ⟨0x278, 0, 32⟩
abbrev REG.EVL_BIND7 : Fld := ⟨0x27c, 0, 32⟩
abbrev REG.EVL_BIND8 : Fld := ⟨0x280, 0, 32⟩
abbrev REG.EVL_BIND9 : Fld := ⟨0x284, 0, 32⟩
abbrev REG.EVL_BIND10 : Fld := ⟨0x288, 0, 32⟩
abbrev REG.EVL_BIND11 : Fld := ⟨0x28c, 0, 32⟩
abbrev REG.EVL_BIND12 : Fld := ⟨0x290, 0, 32⟩
abbrev REG.EVL_BIND13 : Fld := ⟨0x294, 0, 32⟩
abbrev REG.EVL_BIND14 : Fld := ⟨0x298, 0, 32⟩
abbrev REG.EVL_BIND15 : Fld := ⟨0x29c, 0, 32⟩
abbrev REG.SCHED_L_M1 : Fld := ⟨0x40, 0, 9⟩
abbrev REG.SLOT_VALUE : Fld := ⟨0x44, 0, 9⟩
abbrev REG.SLOT_EXEC : Fld := ⟨0x44, 31, 1⟩
abbrev REG.DBG_SEL_CELL : Fld := ⟨0x50, 0, 7⟩
abbrev REG.DBG_SEL_INDEX : Fld := ⟨0x50, 7, 6⟩
abbrev REG.DBG_SEL_SPACE : Fld := ⟨0x50, 13, 3⟩
abbrev REG.DBG_SEL_WRITE : Fld := ⟨0x50, 31, 1⟩
abbrev REG.DBG_DATA_VALUE : Fld := ⟨0x54, 0, 18⟩
abbrev REG.DBG_DATA_POISON : Fld := ⟨0x54, 31, 1⟩
abbrev REG.DBG_CTRL_GO : Fld := ⟨0x58, 0, 1⟩
abbrev REG.DBG_CTRL_DONE : Fld := ⟨0x58, 1, 1⟩
abbrev REG.DBG_CTRL_FAIL : Fld := ⟨0x58, 2, 1⟩
abbrev REG.DBG_CTRL_PATCH_EN : Fld := ⟨0x58, 8, 1⟩
abbrev REG.FAULT_CAUSE_CAUSE : Fld := ⟨0x5c, 0, 4⟩
abbrev REG.FAULT_CAUSE_CELL : Fld := ⟨0x5c, 4, 10⟩
abbrev REG.FAULT_CAUSE_SLOT : Fld := ⟨0x5c, 14, 9⟩
abbrev REG.live_FAULT : Fld := ⟨0xc, 0, 1⟩
abbrev REG.live_EXEC : Fld := ⟨0xc, 1, 1⟩
abbrev REG.live_CELL_STOPPED : Fld := ⟨0xc, 2, 1⟩
abbrev REG.live_PATCHED : Fld := ⟨0xc, 3, 1⟩
abbrev REG.live_DBG_BUSY : Fld := ⟨0xc, 4, 1⟩
abbrev REG.st_CELL_STOP : Fld := ⟨0x8, 0, 1⟩
abbrev REG.st_DBG_DONE : Fld := ⟨0x8, 1, 1⟩
abbrev REG.st_HALTED : Fld := ⟨0x8, 2, 1⟩
abbrev REG.err_SCHEDULE : Fld := ⟨0x10, 0, 1⟩
abbrev REG.err_IPARITY : Fld := ⟨0x10, 1, 1⟩
abbrev REG.err_NO_SLOT : Fld := ⟨0x10, 2, 1⟩
abbrev REG.err_IMEM_LOCKED : Fld := ⟨0x10, 3, 1⟩
abbrev REG.err_DBG_ENCODING : Fld := ⟨0x10, 4, 1⟩
abbrev REG.SEQ_CFG0_EN : Fld := ⟨0x200, 0, 1⟩
abbrev REG.SEQ_CFG1_EN : Fld := ⟨0x204, 0, 1⟩
abbrev REG.SEQ_CFG2_EN : Fld := ⟨0x208, 0, 1⟩
abbrev REG.SEQ_CFG3_EN : Fld := ⟨0x20c, 0, 1⟩
abbrev REG.SEQ_CFG4_EN : Fld := ⟨0x210, 0, 1⟩
abbrev REG.SEQ_CFG5_EN : Fld := ⟨0x214, 0, 1⟩
abbrev REG.SEQ_CFG6_EN : Fld := ⟨0x218, 0, 1⟩
abbrev REG.SEQ_CFG7_EN : Fld := ⟨0x21c, 0, 1⟩
abbrev REG.SEQ_CFG0_HOME : Fld := ⟨0x200, 1, 7⟩
abbrev REG.SEQ_CFG1_HOME : Fld := ⟨0x204, 1, 7⟩
abbrev REG.SEQ_CFG2_HOME : Fld := ⟨0x208, 1, 7⟩
abbrev REG.SEQ_CFG3_HOME : Fld := ⟨0x20c, 1, 7⟩
abbrev REG.SEQ_CFG4_HOME : Fld := ⟨0x210, 1, 7⟩
abbrev REG.SEQ_CFG5_HOME : Fld := ⟨0x214, 1, 7⟩
abbrev REG.SEQ_CFG6_HOME : Fld := ⟨0x218, 1, 7⟩
abbrev REG.SEQ_CFG7_HOME : Fld := ⟨0x21c, 1, 7⟩
abbrev REG.SEQ_CFG0_FAST : Fld := ⟨0x200, 8, 1⟩
abbrev REG.SEQ_CFG1_FAST : Fld := ⟨0x204, 8, 1⟩
abbrev REG.SEQ_CFG2_FAST : Fld := ⟨0x208, 8, 1⟩
abbrev REG.SEQ_CFG3_FAST : Fld := ⟨0x20c, 8, 1⟩
abbrev REG.SEQ_CFG4_FAST : Fld := ⟨0x210, 8, 1⟩
abbrev REG.SEQ_CFG5_FAST : Fld := ⟨0x214, 8, 1⟩
abbrev REG.SEQ_CFG6_FAST : Fld := ⟨0x218, 8, 1⟩
abbrev REG.SEQ_CFG7_FAST : Fld := ⟨0x21c, 8, 1⟩
abbrev REG.SEQ_CFG0_CAPMASK : Fld := ⟨0x200, 12, 8⟩
abbrev REG.SEQ_CFG1_CAPMASK : Fld := ⟨0x204, 12, 8⟩
abbrev REG.SEQ_CFG2_CAPMASK : Fld := ⟨0x208, 12, 8⟩
abbrev REG.SEQ_CFG3_CAPMASK : Fld := ⟨0x20c, 12, 8⟩
abbrev REG.SEQ_CFG4_CAPMASK : Fld := ⟨0x210, 12, 8⟩
abbrev REG.SEQ_CFG5_CAPMASK : Fld := ⟨0x214, 12, 8⟩
abbrev REG.SEQ_CFG6_CAPMASK : Fld := ⟨0x218, 12, 8⟩
abbrev REG.SEQ_CFG7_CAPMASK : Fld := ⟨0x21c, 12, 8⟩
abbrev REG.SEQ_CFG0_OUT : Fld := ⟨0x200, 20, 1⟩
abbrev REG.SEQ_CFG1_OUT : Fld := ⟨0x204, 20, 1⟩
abbrev REG.SEQ_CFG2_OUT : Fld := ⟨0x208, 20, 1⟩
abbrev REG.SEQ_CFG3_OUT : Fld := ⟨0x20c, 20, 1⟩
abbrev REG.SEQ_CFG4_OUT : Fld := ⟨0x210, 20, 1⟩
abbrev REG.SEQ_CFG5_OUT : Fld := ⟨0x214, 20, 1⟩
abbrev REG.SEQ_CFG6_OUT : Fld := ⟨0x218, 20, 1⟩
abbrev REG.SEQ_CFG7_OUT : Fld := ⟨0x21c, 20, 1⟩
abbrev REG.SEQ_CFG0_SWARM : Fld := ⟨0x200, 21, 1⟩
abbrev REG.SEQ_CFG1_SWARM : Fld := ⟨0x204, 21, 1⟩
abbrev REG.SEQ_CFG2_SWARM : Fld := ⟨0x208, 21, 1⟩
abbrev REG.SEQ_CFG3_SWARM : Fld := ⟨0x20c, 21, 1⟩
abbrev REG.SEQ_CFG4_SWARM : Fld := ⟨0x210, 21, 1⟩
abbrev REG.SEQ_CFG5_SWARM : Fld := ⟨0x214, 21, 1⟩
abbrev REG.SEQ_CFG6_SWARM : Fld := ⟨0x218, 21, 1⟩
abbrev REG.SEQ_CFG7_SWARM : Fld := ⟨0x21c, 21, 1⟩
abbrev REG.SEQ_CFG0_CODE : Fld := ⟨0x200, 22, 5⟩
abbrev REG.SEQ_CFG1_CODE : Fld := ⟨0x204, 22, 5⟩
abbrev REG.SEQ_CFG2_CODE : Fld := ⟨0x208, 22, 5⟩
abbrev REG.SEQ_CFG3_CODE : Fld := ⟨0x20c, 22, 5⟩
abbrev REG.SEQ_CFG4_CODE : Fld := ⟨0x210, 22, 5⟩
abbrev REG.SEQ_CFG5_CODE : Fld := ⟨0x214, 22, 5⟩
abbrev REG.SEQ_CFG6_CODE : Fld := ⟨0x218, 22, 5⟩
abbrev REG.SEQ_CFG7_CODE : Fld := ⟨0x21c, 22, 5⟩
abbrev REG.SEQ_CFG0_NST_M1 : Fld := ⟨0x200, 27, 4⟩
abbrev REG.SEQ_CFG1_NST_M1 : Fld := ⟨0x204, 27, 4⟩
abbrev REG.SEQ_CFG2_NST_M1 : Fld := ⟨0x208, 27, 4⟩
abbrev REG.SEQ_CFG3_NST_M1 : Fld := ⟨0x20c, 27, 4⟩
abbrev REG.SEQ_CFG4_NST_M1 : Fld := ⟨0x210, 27, 4⟩
abbrev REG.SEQ_CFG5_NST_M1 : Fld := ⟨0x214, 27, 4⟩
abbrev REG.SEQ_CFG6_NST_M1 : Fld := ⟨0x218, 27, 4⟩
abbrev REG.SEQ_CFG7_NST_M1 : Fld := ⟨0x21c, 27, 4⟩
abbrev REG.CAP_CTRL_MODE : Fld := ⟨0x238, 0, 2⟩
abbrev REG.CAP_CTRL_NSEG_M1 : Fld := ⟨0x238, 2, 8⟩
abbrev REG.CAP_CTRL_WRAP : Fld := ⟨0x238, 10, 1⟩
abbrev REG.CAP_CTRL_END_RUN : Fld := ⟨0x238, 11, 1⟩
abbrev REG.CAP_CTRL_TRIGIN : Fld := ⟨0x238, 12, 1⟩
abbrev REG.CAP_SEL_CH : Fld := ⟨0x23c, 0, 12⟩
abbrev REG.CAP_PRE_VALUE : Fld := ⟨0x240, 0, 21⟩
abbrev REG.CAP_POST_VALUE : Fld := ⟨0x244, 0, 21⟩
abbrev REG.CAP_RING_FIRST : Fld := ⟨0x24c, 0, 5⟩
abbrev REG.CAP_RING_COUNT : Fld := ⟨0x24c, 5, 6⟩
abbrev REG.CAP_STATUS_PHASE : Fld := ⟨0x250, 0, 2⟩
abbrev REG.CAP_STATUS_SEGMENT : Fld := ⟨0x250, 2, 8⟩
abbrev REG.CAP_STATUS_WRAPPED : Fld := ⟨0x250, 10, 1⟩
abbrev REG.CAP_EVENTS_SEG_DONE : Fld := ⟨0x25c, 0, 1⟩
abbrev REG.CAP_EVENTS_CAPTURE_END : Fld := ⟨0x25c, 1, 1⟩
abbrev REG.CAP_EVENTS_JUMP_ABSORBED : Fld := ⟨0x25c, 2, 1⟩
abbrev REG.CAP_EVENTS_TRIG_BAD : Fld := ⟨0x25c, 3, 1⟩
abbrev REG.CAP_EVENTS_LATE : Fld := ⟨0x25c, 4, 1⟩
abbrev REG.CAP_EVENTS_BUSY_REJECT : Fld := ⟨0x25c, 5, 1⟩
abbrev REG.CAP_EVENTS_RANGE : Fld := ⟨0x25c, 6, 1⟩
abbrev REG.REC_RING_FIRST : Fld := ⟨0x100, 0, 5⟩
abbrev REG.REC_RING_COUNT : Fld := ⟨0x100, 5, 6⟩
abbrev REG.REC_RING_STRIPE : Fld := ⟨0x100, 11, 6⟩
abbrev REG.CAP_STRIPE_STRIPE : Fld := ⟨0x104, 0, 6⟩
abbrev REG.BUDGET0_CAP : Fld := ⟨0x10c, 0, 12⟩
abbrev REG.BUDGET0_REC : Fld := ⟨0x10c, 12, 12⟩
abbrev REG.BUDGET1_DMAR : Fld := ⟨0x110, 0, 12⟩
abbrev REG.BUDGET1_DMAW : Fld := ⟨0x110, 12, 12⟩
abbrev REG.BUDGET2_HOST : Fld := ⟨0x114, 0, 12⟩
abbrev REG.BUDGET2_LINK : Fld := ⟨0x114, 12, 12⟩
abbrev REG.BUDGET3_BLK : Fld := ⟨0x118, 0, 12⟩
abbrev REG.BUDGET4_BLK : Fld := ⟨0x11c, 0, 12⟩
abbrev REG.BUDGET5_BLK : Fld := ⟨0x120, 0, 12⟩
abbrev REG.BUDGET6_BLK : Fld := ⟨0x124, 0, 12⟩
abbrev REG.BUDGET3_BLKb : Fld := ⟨0x118, 12, 12⟩
abbrev REG.BUDGET4_BLKb : Fld := ⟨0x11c, 12, 12⟩
abbrev REG.BUDGET5_BLKb : Fld := ⟨0x120, 12, 12⟩
abbrev REG.BUDGET6_BLKb : Fld := ⟨0x124, 12, 12⟩
abbrev REG.BUDGET_SUM_SUM : Fld := ⟨0x128, 0, 12⟩
abbrev REG.BUDGET_SUM_OVER : Fld := ⟨0x128, 12, 1⟩
abbrev REG.CAP_POS_BANK : Fld := ⟨0x12c, 0, 5⟩
abbrev REG.REC_POS_BANK : Fld := ⟨0x130, 0, 5⟩
abbrev REG.CAP_POS_LINE : Fld := ⟨0x12c, 5, 14⟩
abbrev REG.REC_POS_LINE : Fld := ⟨0x130, 5, 14⟩
abbrev REG.DEMOTED_CH : Fld := ⟨0x134, 0, 12⟩
abbrev REG.LEVELS_CAP_BUF : Fld := ⟨0x138, 0, 11⟩
abbrev REG.LEVELS_PUTQ : Fld := ⟨0x138, 16, 9⟩
abbrev REG.live_CAP_FROZEN : Fld := ⟨0xc, 8, 1⟩
abbrev REG.live_REC_FROZEN : Fld := ⟨0xc, 9, 1⟩
abbrev REG.live_CAP_STALLED : Fld := ⟨0xc, 10, 1⟩
abbrev REG.live_REC_STALLED : Fld := ⟨0xc, 11, 1⟩
abbrev REG.live_DEMOTING : Fld := ⟨0xc, 12, 1⟩
abbrev REG.st_LOSS : Fld := ⟨0x8, 8, 1⟩
abbrev REG.st_DEMOTE : Fld := ⟨0x8, 9, 1⟩
abbrev REG.st_RESTORE : Fld := ⟨0x8, 10, 1⟩
abbrev REG.st_RING_ADVANCE : Fld := ⟨0x8, 11, 1⟩
abbrev REG.err_VIOLATION : Fld := ⟨0x10, 8, 1⟩
abbrev REG.err_STORE_FAULT : Fld := ⟨0x10, 9, 1⟩
abbrev REG.err_BUDGET : Fld := ⟨0x10, 10, 1⟩
abbrev BLK.CTRL : Fld := ⟨0x40, 0, 32⟩
abbrev BLK.FIFO_CFG : Fld := ⟨0x44, 0, 32⟩
abbrev BLK.FIFO_OVF : Fld := ⟨0x48, 0, 32⟩
abbrev BLK.FIFO_LEVEL0 : Fld := ⟨0x4c, 0, 32⟩
abbrev BLK.FIFO_LEVEL1 : Fld := ⟨0x50, 0, 32⟩
abbrev BLK.FIFO_LEVEL2 : Fld := ⟨0x54, 0, 32⟩
abbrev BLK.FIFO_PEAK0 : Fld := ⟨0x58, 0, 32⟩
abbrev BLK.FIFO_PEAK1 : Fld := ⟨0x5c, 0, 32⟩
abbrev BLK.FIFO_PEAK2 : Fld := ⟨0x60, 0, 32⟩
abbrev BLK.SCR_ERR : Fld := ⟨0x64, 0, 32⟩
abbrev BLK.SCR_ERRS : Fld := ⟨0x68, 0, 32⟩
abbrev BLK.XFER_STATUS : Fld := ⟨0x6c, 0, 32⟩
abbrev BLK.XFER_DROPS : Fld := ⟨0x70, 0, 32⟩
abbrev BLK.CTRL_SCR_POLICY : Fld := ⟨0x40, 0, 1⟩
abbrev BLK.FIFO_CFG_EN : Fld := ⟨0x44, 0, 12⟩
abbrev BLK.FIFO_CFG_SUMMARY : Fld := ⟨0x44, 12, 12⟩
abbrev BLK.FIFO_OVF_CH : Fld := ⟨0x48, 0, 12⟩
abbrev BLK.SCR_ERR_ADDR : Fld := ⟨0x64, 0, 12⟩
abbrev BLK.SCR_ERR_PORT : Fld := ⟨0x64, 12, 1⟩
abbrev BLK.XFER_STATUS_BUSY : Fld := ⟨0x6c, 0, 1⟩
abbrev BLK.XFER_STATUS_FROZEN : Fld := ⟨0x6c, 1, 1⟩
abbrev BLK.XFER_STATUS_ERR : Fld := ⟨0x6c, 2, 1⟩
abbrev BLK.XFER_STATUS_BANK : Fld := ⟨0x6c, 3, 5⟩
abbrev BLK.XFER_STATUS_LEFT : Fld := ⟨0x6c, 8, 6⟩
abbrev BLK.XFER_STATUS_LINE : Fld := ⟨0x6c, 14, 14⟩
abbrev BLK.live_HALTED : Fld := ⟨0xc, 0, 1⟩
abbrev BLK.live_XFER_BUSY : Fld := ⟨0xc, 1, 1⟩
abbrev BLK.live_XFER_FROZEN : Fld := ⟨0xc, 2, 1⟩
abbrev BLK.live_OVF_OPEN : Fld := ⟨0xc, 3, 1⟩
abbrev BLK.st_FIFO_OVF : Fld := ⟨0x8, 0, 1⟩
abbrev BLK.st_SCR_PARITY : Fld := ⟨0x8, 1, 1⟩
abbrev BLK.st_XFER_DONE : Fld := ⟨0x8, 2, 1⟩
abbrev BLK.err_SCR_PARITY : Fld := ⟨0x10, 0, 1⟩
abbrev BLK.err_XFER_BUSY : Fld := ⟨0x10, 1, 1⟩
abbrev BLK.err_XFER_ERR : Fld := ⟨0x10, 2, 1⟩
abbrev BLK.err_VIOLATION : Fld := ⟨0x10, 3, 1⟩
abbrev ESL.CTRL : Fld := ⟨0x40, 0, 32⟩
abbrev ESL.SKEW : Fld := ⟨0x44, 0, 32⟩
abbrev ESL.RECORD_EN : Fld := ⟨0x48, 0, 32⟩
abbrev ESL.STATUS : Fld := ⟨0x4c, 0, 32⟩
abbrev ESL.STEPS_LO : Fld := ⟨0x50, 0, 32⟩
abbrev ESL.STEPS_HI : Fld := ⟨0x54, 0, 32⟩
abbrev ESL.LAST_STEP_LO : Fld := ⟨0x58, 0, 32⟩
abbrev ESL.LAST_STEP_HI : Fld := ⟨0x5c, 0, 32⟩
abbrev ESL.CRC_ERRS : Fld := ⟨0x60, 0, 32⟩
abbrev ESL.CODE_ERRS : Fld := ⟨0x64, 0, 32⟩
abbrev ESL.DISCONTS : Fld := ⟨0x68, 0, 32⟩
abbrev ESL.ALIGN_LOSSES : Fld := ⟨0x6c, 0, 32⟩
abbrev ESL.MATCH0_MASK_LO : Fld := ⟨0x70, 0, 32⟩
abbrev ESL.MATCH0_MASK_HI : Fld := ⟨0x74, 0, 32⟩
abbrev ESL.MATCH0_VALUE_LO : Fld := ⟨0x78, 0, 32⟩
abbrev ESL.MATCH0_VALUE_HI : Fld := ⟨0x7c, 0, 32⟩
abbrev ESL.MATCH1_MASK_LO : Fld := ⟨0x80, 0, 32⟩
abbrev ESL.MATCH1_MASK_HI : Fld := ⟨0x84, 0, 32⟩
abbrev ESL.MATCH1_VALUE_LO : Fld := ⟨0x88, 0, 32⟩
abbrev ESL.MATCH1_VALUE_HI : Fld := ⟨0x8c, 0, 32⟩
abbrev ESL.MATCH2_MASK_LO : Fld := ⟨0x90, 0, 32⟩
abbrev ESL.MATCH2_MASK_HI : Fld := ⟨0x94, 0, 32⟩
abbrev ESL.MATCH2_VALUE_LO : Fld := ⟨0x98, 0, 32⟩
abbrev ESL.MATCH2_VALUE_HI : Fld := ⟨0x9c, 0, 32⟩
abbrev ESL.MATCH3_MASK_LO : Fld := ⟨0xa0, 0, 32⟩
abbrev ESL.MATCH3_MASK_HI : Fld := ⟨0xa4, 0, 32⟩
abbrev ESL.MATCH3_VALUE_LO : Fld := ⟨0xa8, 0, 32⟩
abbrev ESL.MATCH3_VALUE_HI : Fld := ⟨0xac, 0, 32⟩
abbrev ESL.CTRL_EN : Fld := ⟨0x40, 0, 1⟩
abbrev ESL.CTRL_WIDTH : Fld := ⟨0x40, 1, 2⟩
abbrev ESL.SKEW_VALUE : Fld := ⟨0x44, 0, 20⟩
abbrev ESL.RECORD_EN_REGIONS : Fld := ⟨0x48, 0, 8⟩
abbrev ESL.STATUS_LANE_LOCK : Fld := ⟨0x4c, 0, 4⟩
abbrev ESL.STATUS_ALIGNED : Fld := ⟨0x4c, 4, 1⟩
abbrev ESL.STATUS_ESTEP : Fld := ⟨0x4c, 5, 1⟩
abbrev ESL.LAST_STEP_HI_VALUE_HI : Fld := ⟨0x5c, 0, 16⟩
abbrev ESL.live_ALIGNED : Fld := ⟨0xc, 0, 1⟩
abbrev ESL.live_ESTEP_PRESENT : Fld := ⟨0xc, 1, 1⟩
abbrev ESL.st_ALIGN_LOST : Fld := ⟨0x8, 0, 1⟩
abbrev ESL.st_ALIGN_GAINED : Fld := ⟨0x8, 1, 1⟩
abbrev ESL.err_CRC : Fld := ⟨0x10, 0, 1⟩
abbrev ESL.err_CODE : Fld := ⟨0x10, 1, 1⟩
abbrev ESL.err_DISCONT : Fld := ⟨0x10, 2, 1⟩
abbrev ESL.err_BUSY_REJECT : Fld := ⟨0x10, 3, 1⟩
abbrev ESL.live_reservedb : Fld := ⟨0xc, 4, 12⟩
abbrev ESL.st_reservedb : Fld := ⟨0x8, 4, 12⟩
abbrev BANK.OWNER : Fld := ⟨0x40, 0, 32⟩
abbrev BANK.OWNER_NOW : Fld := ⟨0x44, 0, 32⟩
abbrev BANK.WPTR : Fld := ⟨0x48, 0, 32⟩
abbrev BANK.CE_COUNT : Fld := ⟨0x4c, 0, 32⟩
abbrev BANK.UE_COUNT : Fld := ⟨0x50, 0, 32⟩
abbrev BANK.ERR_ADDR : Fld := ⟨0x54, 0, 32⟩
abbrev BANK.SCRUB : Fld := ⟨0x58, 0, 32⟩
abbrev BANK.SCRUB_PASSES : Fld := ⟨0x5c, 0, 32⟩
abbrev BANK.REPAIR0 : Fld := ⟨0x60, 0, 32⟩
abbrev BANK.REPAIR1 : Fld := ⟨0x64, 0, 32⟩
abbrev BANK.VIOL : Fld := ⟨0x68, 0, 32⟩
abbrev BANK.VIOL_COUNT : Fld := ⟨0x6c, 0, 32⟩
abbrev BANK.FILL : Fld := ⟨0x70, 0, 32⟩
abbrev BANK.OWNER_CLASS : Fld := ⟨0x40, 0, 4⟩
abbrev BANK.OWNER_ARG : Fld := ⟨0x40, 4, 3⟩
abbrev BANK.OWNER_NOW_OWNER : Fld := ⟨0x44, 0, 7⟩
abbrev BANK.WPTR_LINE : Fld := ⟨0x48, 0, 14⟩
abbrev BANK.WPTR_FILL_NO : Fld := ⟨0x48, 16, 16⟩
abbrev BANK.ERR_ADDR_LINE : Fld := ⟨0x54, 0, 14⟩
abbrev BANK.ERR_ADDR_HALF : Fld := ⟨0x54, 14, 1⟩
abbrev BANK.ERR_ADDR_UE : Fld := ⟨0x54, 15, 1⟩
abbrev BANK.ERR_ADDR_DETECTOR : Fld := ⟨0x54, 16, 2⟩
abbrev BANK.SCRUB_EN : Fld := ⟨0x58, 0, 1⟩
abbrev BANK.REPAIR0_COL : Fld := ⟨0x60, 0, 8⟩
abbrev BANK.REPAIR1_COL : Fld := ⟨0x64, 0, 8⟩
abbrev BANK.REPAIR0_COLb : Fld := ⟨0x60, 16, 8⟩
abbrev BANK.REPAIR1_COLb : Fld := ⟨0x64, 16, 8⟩
abbrev BANK.REPAIR0_VALID : Fld := ⟨0x60, 15, 1⟩
abbrev BANK.REPAIR1_VALID : Fld := ⟨0x64, 15, 1⟩
abbrev BANK.REPAIR0_VALIDb : Fld := ⟨0x60, 31, 1⟩
abbrev BANK.REPAIR1_VALIDb : Fld := ⟨0x64, 31, 1⟩
abbrev BANK.REPAIR0_reservedb : Fld := ⟨0x60, 24, 7⟩
abbrev BANK.REPAIR1_reservedb : Fld := ⟨0x64, 24, 7⟩
abbrev BANK.VIOL_CLASS : Fld := ⟨0x68, 0, 4⟩
abbrev BANK.VIOL_ARG : Fld := ⟨0x68, 4, 3⟩
abbrev BANK.VIOL_WRITE : Fld := ⟨0x68, 7, 1⟩
abbrev BANK.VIOL_LINE : Fld := ⟨0x68, 8, 14⟩
abbrev BANK.FILL_GO : Fld := ⟨0x70, 0, 1⟩
abbrev BANK.live_HANDOVER : Fld := ⟨0xc, 0, 1⟩
abbrev BANK.live_FILLING : Fld := ⟨0xc, 1, 1⟩
abbrev BANK.live_WRITER_IN : Fld := ⟨0xc, 2, 1⟩
abbrev BANK.st_HANDOVER_DONE : Fld := ⟨0x8, 0, 1⟩
abbrev BANK.st_CE : Fld := ⟨0x8, 1, 1⟩
abbrev BANK.st_UE : Fld := ⟨0x8, 2, 1⟩
abbrev BANK.st_FILL_DONE : Fld := ⟨0x8, 3, 1⟩
abbrev BANK.st_SCRUB_PASS : Fld := ⟨0x8, 4, 1⟩
abbrev BANK.err_UE_READ : Fld := ⟨0x10, 0, 1⟩
abbrev BANK.err_UE_WRITE : Fld := ⟨0x10, 1, 1⟩
abbrev BANK.err_VIOLATION : Fld := ⟨0x10, 2, 1⟩
abbrev BANK.err_OWNER_REJECT : Fld := ⟨0x10, 3, 1⟩
abbrev BANK.err_FILL_REJECT : Fld := ⟨0x10, 4, 1⟩
abbrev LINK.CTRL : Fld := ⟨0x40, 0, 32⟩
abbrev LINK.TXCFG : Fld := ⟨0x44, 0, 32⟩
abbrev LINK.STATE : Fld := ⟨0x48, 0, 32⟩
abbrev LINK.PEER : Fld := ⟨0x4c, 0, 32⟩
abbrev LINK.DELAY : Fld := ⟨0x50, 0, 32⟩
abbrev LINK.RETRIES : Fld := ⟨0x54, 0, 32⟩
abbrev LINK.CRC_ERRS : Fld := ⟨0x58, 0, 32⟩
abbrev LINK.TIMING_LOST : Fld := ⟨0x5c, 0, 32⟩
abbrev LINK.DOWNS : Fld := ⟨0x60, 0, 32⟩
abbrev LINK.DUP_FRAMES : Fld := ⟨0x64, 0, 32⟩
abbrev LINK.LENT_LINES : Fld := ⟨0x68, 0, 32⟩
abbrev LINK.TRIG_DROPS : Fld := ⟨0x6c, 0, 32⟩
abbrev LINK.CTRL_EN : Fld := ⟨0x40, 0, 1⟩
abbrev LINK.CTRL_ROLE : Fld := ⟨0x40, 1, 2⟩
abbrev LINK.CTRL_RETRAIN : Fld := ⟨0x40, 3, 1⟩
abbrev LINK.TXCFG_AMP : Fld := ⟨0x44, 0, 4⟩
abbrev LINK.TXCFG_DEEMPH : Fld := ⟨0x44, 4, 3⟩
abbrev LINK.STATE_LSTATE : Fld := ⟨0x48, 0, 3⟩
abbrev LINK.STATE_LANES : Fld := ⟨0x48, 3, 2⟩
abbrev LINK.STATE_QCAUSE : Fld := ⟨0x48, 5, 4⟩
abbrev LINK.STATE_PEER_ROLE : Fld := ⟨0x48, 9, 2⟩
abbrev LINK.STATE_PEER_QUEEN : Fld := ⟨0x48, 11, 1⟩
abbrev LINK.PEER_ORDINAL : Fld := ⟨0x4c, 0, 11⟩
abbrev LINK.PEER_DEPTH : Fld := ⟨0x4c, 11, 4⟩
abbrev LINK.DELAY_VALUE : Fld := ⟨0x50, 0, 24⟩
abbrev LINK.live_UP : Fld := ⟨0xc, 0, 1⟩
abbrev LINK.live_ACTIVE_UP : Fld := ⟨0xc, 1, 1⟩
abbrev LINK.live_QUARANTINED : Fld := ⟨0xc, 2, 1⟩
abbrev LINK.live_HELD : Fld := ⟨0xc, 3, 1⟩
abbrev LINK.live_DORMANT : Fld := ⟨0xc, 4, 1⟩
abbrev LINK.live_FROZEN : Fld := ⟨0xc, 5, 1⟩
abbrev LINK.st_LINK_UP : Fld := ⟨0x8, 0, 1⟩
abbrev LINK.st_LINK_DOWN : Fld := ⟨0x8, 1, 1⟩
abbrev LINK.st_JOIN_DONE : Fld := ⟨0x8, 2, 1⟩
abbrev LINK.st_QUARANTINE : Fld := ⟨0x8, 3, 1⟩
abbrev LINK.err_DUAL_QUEEN : Fld := ⟨0x10, 0, 1⟩
abbrev LINK.err_RETRY_EXHAUSTED : Fld := ⟨0x10, 1, 1⟩
abbrev LINK.err_VIOLATION : Fld := ⟨0x10, 2, 1⟩
abbrev LINK.err_BUSY_REJECT : Fld := ⟨0x10, 3, 1⟩
abbrev SWARM.CTRL : Fld := ⟨0x40, 0, 32⟩
abbrev SWARM.ORDINAL : Fld := ⟨0x44, 0, 32⟩
abbrev SWARM.EPOCH : Fld := ⟨0x48, 0, 32⟩
abbrev SWARM.STATE : Fld := ⟨0x4c, 0, 32⟩
abbrev SWARM.OFFSET : Fld := ⟨0x50, 0, 32⟩
abbrev SWARM.CMD_TO : Fld := ⟨0x54, 0, 32⟩
abbrev SWARM.START_LEAD : Fld := ⟨0x58, 0, 32⟩
abbrev SWARM.MEMBERS : Fld := ⟨0x5c, 0, 32⟩
abbrev SWARM.LAST_CMD : Fld := ⟨0x60, 0, 32⟩
abbrev SWARM.DUP_CMDS : Fld := ⟨0x64, 0, 32⟩
abbrev SWARM.CMD_TIMEOUTS : Fld := ⟨0x68, 0, 32⟩
abbrev SWARM.STEP_LO : Fld := ⟨0x6c, 0, 32⟩
abbrev SWARM.STEP_HI : Fld := ⟨0x70, 0, 32⟩
abbrev SWARM.HOLD_AT_LO : Fld := ⟨0x74, 0, 32⟩
abbrev SWARM.HOLD_AT_HI : Fld := ⟨0x78, 0, 32⟩
abbrev SWARM.REMOTE_RING0 : Fld := ⟨0x7c, 0, 32⟩
abbrev SWARM.REMOTE_RING1 : Fld := ⟨0x80, 0, 32⟩
abbrev SWARM.REMOTE_RING2 : Fld := ⟨0x84, 0, 32⟩
abbrev SWARM.REMOTE_RING3 : Fld := ⟨0x88, 0, 32⟩
abbrev SWARM.REMOTE_RING4 : Fld := ⟨0x8c, 0, 32⟩
abbrev SWARM.REMOTE_RING5 : Fld := ⟨0x90, 0, 32⟩
abbrev SWARM.REMOTE_RING6 : Fld := ⟨0x94, 0, 32⟩
abbrev SWARM.REMOTE_RING7 : Fld := ⟨0x98, 0, 32⟩
abbrev SWARM.CAPABILITY : Fld := ⟨0x9c, 0, 32⟩
abbrev SWARM.CTRL_QUEEN_OVR : Fld := ⟨0x40, 0, 2⟩
abbrev SWARM.CTRL_LATE_POLICY : Fld := ⟨0x40, 2, 1⟩
abbrev SWARM.ORDINAL_VALUE : Fld := ⟨0x44, 0, 11⟩
abbrev SWARM.EPOCH_VALUE : Fld := ⟨0x48, 0, 16⟩
abbrev SWARM.STATE_QUEEN : Fld := ⟨0x4c, 0, 1⟩
abbrev SWARM.STATE_ALIGN : Fld := ⟨0x4c, 1, 3⟩
abbrev SWARM.STATE_MEMBER : Fld := ⟨0x4c, 4, 3⟩
abbrev SWARM.STATE_DEPTH : Fld := ⟨0x4c, 7, 4⟩
abbrev SWARM.STATE_UPPORT : Fld := ⟨0x4c, 11, 2⟩
abbrev SWARM.STATE_UP_VALID : Fld := ⟨0x4c, 13, 1⟩
abbrev SWARM.STATE_STRAP : Fld := ⟨0x4c, 14, 1⟩
abbrev SWARM.STATE_QUEEN_ORD : Fld := ⟨0x4c, 15, 11⟩
abbrev SWARM.OFFSET_VALUE : Fld := ⟨0x50, 0, 24⟩
abbrev SWARM.CMD_TO_US : Fld := ⟨0x54, 0, 16⟩
abbrev SWARM.START_LEAD_US : Fld := ⟨0x58, 0, 16⟩
abbrev SWARM.MEMBERS_COUNT : Fld := ⟨0x5c, 0, 12⟩
abbrev SWARM.LAST_CMD_ID : Fld := ⟨0x60, 0, 16⟩
abbrev SWARM.LAST_CMD_CODE : Fld := ⟨0x60, 16, 4⟩
abbrev SWARM.LAST_CMD_OUTCOME : Fld := ⟨0x60, 20, 3⟩
abbrev SWARM.REMOTE_RING0_EN : Fld := ⟨0x7c, 0, 1⟩
abbrev SWARM.REMOTE_RING1_EN : Fld := ⟨0x80, 0, 1⟩
abbrev SWARM.REMOTE_RING2_EN : Fld := ⟨0x84, 0, 1⟩
abbrev SWARM.REMOTE_RING3_EN : Fld := ⟨0x88, 0, 1⟩
abbrev SWARM.REMOTE_RING4_EN : Fld := ⟨0x8c, 0, 1⟩
abbrev SWARM.REMOTE_RING5_EN : Fld := ⟨0x90, 0, 1⟩
abbrev SWARM.REMOTE_RING6_EN : Fld := ⟨0x94, 0, 1⟩
abbrev SWARM.REMOTE_RING7_EN : Fld := ⟨0x98, 0, 1⟩
abbrev SWARM.REMOTE_RING0_PORT : Fld := ⟨0x7c, 1, 2⟩
abbrev SWARM.REMOTE_RING1_PORT : Fld := ⟨0x80, 1, 2⟩
abbrev SWARM.REMOTE_RING2_PORT : Fld := ⟨0x84, 1, 2⟩
abbrev SWARM.REMOTE_RING3_PORT : Fld := ⟨0x88, 1, 2⟩
abbrev SWARM.REMOTE_RING4_PORT : Fld := ⟨0x8c, 1, 2⟩
abbrev SWARM.REMOTE_RING5_PORT : Fld := ⟨0x90, 1, 2⟩
abbrev SWARM.REMOTE_RING6_PORT : Fld := ⟨0x94, 1, 2⟩
abbrev SWARM.REMOTE_RING7_PORT : Fld := ⟨0x98, 1, 2⟩
abbrev SWARM.REMOTE_RING0_FIRST : Fld := ⟨0x7c, 3, 8⟩
abbrev SWARM.REMOTE_RING1_FIRST : Fld := ⟨0x80, 3, 8⟩
abbrev SWARM.REMOTE_RING2_FIRST : Fld := ⟨0x84, 3, 8⟩
abbrev SWARM.REMOTE_RING3_FIRST : Fld := ⟨0x88, 3, 8⟩
abbrev SWARM.REMOTE_RING4_FIRST : Fld := ⟨0x8c, 3, 8⟩
abbrev SWARM.REMOTE_RING5_FIRST : Fld := ⟨0x90, 3, 8⟩
abbrev SWARM.REMOTE_RING6_FIRST : Fld := ⟨0x94, 3, 8⟩
abbrev SWARM.REMOTE_RING7_FIRST : Fld := ⟨0x98, 3, 8⟩
abbrev SWARM.REMOTE_RING0_COUNT : Fld := ⟨0x7c, 11, 6⟩
abbrev SWARM.REMOTE_RING1_COUNT : Fld := ⟨0x80, 11, 6⟩
abbrev SWARM.REMOTE_RING2_COUNT : Fld := ⟨0x84, 11, 6⟩
abbrev SWARM.REMOTE_RING3_COUNT : Fld := ⟨0x88, 11, 6⟩
abbrev SWARM.REMOTE_RING4_COUNT : Fld := ⟨0x8c, 11, 6⟩
abbrev SWARM.REMOTE_RING5_COUNT : Fld := ⟨0x90, 11, 6⟩
abbrev SWARM.REMOTE_RING6_COUNT : Fld := ⟨0x94, 11, 6⟩
abbrev SWARM.REMOTE_RING7_COUNT : Fld := ⟨0x98, 11, 6⟩
abbrev SWARM.CAPABILITY_CODE : Fld := ⟨0x9c, 0, 8⟩
abbrev SWARM.live_QUEEN : Fld := ⟨0xc, 0, 1⟩
abbrev SWARM.live_ALIGNED : Fld := ⟨0xc, 1, 1⟩
abbrev SWARM.live_ACQUIRING : Fld := ⟨0xc, 2, 1⟩
abbrev SWARM.live_HOLDOVER : Fld := ⟨0xc, 3, 1⟩
abbrev SWARM.live_DUAL_QUEEN : Fld := ⟨0xc, 4, 1⟩
abbrev SWARM.live_PENDING : Fld := ⟨0xc, 5, 1⟩
abbrev SWARM.st_ALIGNED_SET : Fld := ⟨0x8, 0, 1⟩
abbrev SWARM.st_HOLDOVER_SET : Fld := ⟨0x8, 1, 1⟩
abbrev SWARM.st_STEPPED : Fld := ⟨0x8, 2, 1⟩
abbrev SWARM.st_MEMBER_JOINED : Fld := ⟨0x8, 3, 1⟩
abbrev SWARM.st_MEMBER_LOST : Fld := ⟨0x8, 4, 1⟩
abbrev SWARM.st_CMD_DONE : Fld := ⟨0x8, 5, 1⟩
abbrev SWARM.st_UPSTREAM_SWITCH : Fld := ⟨0x8, 6, 1⟩
abbrev SWARM.err_QUEEN_LOST : Fld := ⟨0x10, 0, 1⟩
abbrev SWARM.err_DUAL_QUEEN : Fld := ⟨0x10, 1, 1⟩
abbrev SWARM.err_CMD_TIMEOUT : Fld := ⟨0x10, 2, 1⟩
abbrev SWARM.err_START_LATE : Fld := ⟨0x10, 3, 1⟩
abbrev SWARM.err_BUSY_REJECT : Fld := ⟨0x10, 4, 1⟩
abbrev SWARM.err_ENCODING : Fld := ⟨0x10, 5, 1⟩
abbrev DOM.CTRL : Fld := ⟨0x40, 0, 32⟩
abbrev DOM.KP : Fld := ⟨0x44, 0, 32⟩
abbrev DOM.KI : Fld := ⟨0x48, 0, 32⟩
abbrev DOM.LIMITS : Fld := ⟨0x4c, 0, 32⟩
abbrev DOM.STEP_NS : Fld := ⟨0x50, 0, 32⟩
abbrev DOM.SET_NS : Fld := ⟨0x54, 0, 32⟩
abbrev DOM.SET_CTRL : Fld := ⟨0x58, 0, 32⟩
abbrev DOM.OFS_NS : Fld := ⟨0x5c, 0, 32⟩
abbrev DOM.OFS_FRAC : Fld := ⟨0x60, 0, 32⟩
abbrev DOM.OFS_AT_LO : Fld := ⟨0x64, 0, 32⟩
abbrev DOM.OFS_AT_HI : Fld := ⟨0x68, 0, 32⟩
abbrev DOM.EXPECT_NS : Fld := ⟨0x6c, 0, 32⟩
abbrev DOM.EXPECT_FRAC : Fld := ⟨0x70, 0, 32⟩
abbrev DOM.PERIOD_NS : Fld := ⟨0x74, 0, 32⟩
abbrev DOM.PPS_WIN : Fld := ⟨0x78, 0, 32⟩
abbrev DOM.ACTIVE : Fld := ⟨0x7c, 0, 32⟩
abbrev DOM.FREQ_SET : Fld := ⟨0x80, 0, 32⟩
abbrev DOM.FREQ_NOW : Fld := ⟨0x84, 0, 32⟩
abbrev DOM.INTEG : Fld := ⟨0x88, 0, 32⟩
abbrev DOM.LAST_OFS_NS : Fld := ⟨0x8c, 0, 32⟩
abbrev DOM.LAST_OFS_FRAC : Fld := ⟨0x90, 0, 32⟩
abbrev DOM.SNAP : Fld := ⟨0x94, 0, 32⟩
abbrev DOM.SNAP_NS : Fld := ⟨0x98, 0, 32⟩
abbrev DOM.SNAP_FRAC : Fld := ⟨0x9c, 0, 32⟩
abbrev DOM.SNAP_AT_LO : Fld := ⟨0xa0, 0, 32⟩
abbrev DOM.SNAP_AT_HI : Fld := ⟨0xa4, 0, 32⟩
abbrev DOM.PPS_AT_LO : Fld := ⟨0xa8, 0, 32⟩
abbrev DOM.PPS_AT_HI : Fld := ⟨0xac, 0, 32⟩
abbrev DOM.SAMPLES : Fld := ⟨0xb0, 0, 32⟩
abbrev DOM.STEPS : Fld := ⟨0xb4, 0, 32⟩
abbrev DOM.PPS_REJECTS : Fld := ⟨0xb8, 0, 32⟩
abbrev DOM.PPS_MISSED : Fld := ⟨0xbc, 0, 32⟩
abbrev DOM.MAP_EN : Fld := ⟨0xc0, 0, 32⟩
abbrev DOM.CTRL_EN : Fld := ⟨0x40, 0, 1⟩
abbrev DOM.CTRL_SRC : Fld := ⟨0x40, 1, 2⟩
abbrev DOM.CTRL_PPS_POL : Fld := ⟨0x40, 3, 1⟩
abbrev DOM.KP_GAIN : Fld := ⟨0x44, 0, 16⟩
abbrev DOM.KI_GAIN : Fld := ⟨0x48, 0, 16⟩
abbrev DOM.LIMITS_MAXPPM : Fld := ⟨0x4c, 0, 10⟩
abbrev DOM.LIMITS_LOCK_NS : Fld := ⟨0x4c, 16, 16⟩
abbrev DOM.SET_CTRL_FRAC : Fld := ⟨0x58, 0, 16⟩
abbrev DOM.SET_CTRL_GO : Fld := ⟨0x58, 31, 1⟩
abbrev DOM.OFS_FRAC_FRAC : Fld := ⟨0x60, 0, 16⟩
abbrev DOM.EXPECT_FRAC_FRAC : Fld := ⟨0x70, 0, 16⟩
abbrev DOM.ACTIVE_B : Fld := ⟨0x7c, 0, 1⟩
abbrev DOM.LAST_OFS_FRAC_FRAC : Fld := ⟨0x90, 0, 16⟩
abbrev DOM.SNAP_GO : Fld := ⟨0x94, 0, 1⟩
abbrev DOM.SNAP_FRAC_VALUEb : Fld := ⟨0x9c, 0, 16⟩
abbrev DOM.MAP_EN_REGIONS : Fld := ⟨0xc0, 0, 8⟩
abbrev DOM.live_VALID : Fld := ⟨0xc, 0, 1⟩
abbrev DOM.live_LOCKED : Fld := ⟨0xc, 1, 1⟩
abbrev DOM.live_SERVO : Fld := ⟨0xc, 2, 1⟩
abbrev DOM.live_STALE : Fld := ⟨0xc, 3, 1⟩
abbrev DOM.live_ACTIVE : Fld := ⟨0xc, 4, 1⟩
abbrev DOM.st_SAMPLE : Fld := ⟨0x8, 0, 1⟩
abbrev DOM.st_STEPPED : Fld := ⟨0x8, 1, 1⟩
abbrev DOM.st_SET_DONE : Fld := ⟨0x8, 2, 1⟩
abbrev DOM.st_LOCK_GAINED : Fld := ⟨0x8, 3, 1⟩
abbrev DOM.st_LOCK_LOST : Fld := ⟨0x8, 4, 1⟩
abbrev DOM.st_SWITCHED : Fld := ⟨0x8, 5, 1⟩
abbrev DOM.err_OFS_STALE : Fld := ⟨0x10, 0, 1⟩
abbrev DOM.err_SRC_REJECT : Fld := ⟨0x10, 1, 1⟩
abbrev DOM.err_NOT_SERVO : Fld := ⟨0x10, 2, 1⟩
abbrev DOM.err_PPS_REJECT : Fld := ⟨0x10, 3, 1⟩
abbrev DOM.err_FREQ_LIMIT : Fld := ⟨0x10, 4, 1⟩
abbrev SYN.CTRL : Fld := ⟨0x40, 0, 32⟩
abbrev SYN.FREQ : Fld := ⟨0x44, 0, 32⟩
abbrev SYN.DIV : Fld := ⟨0x48, 0, 32⟩
abbrev SYN.DELAY : Fld := ⟨0x4c, 0, 32⟩
abbrev SYN.DITHER : Fld := ⟨0x50, 0, 32⟩
abbrev SYN.SPREAD : Fld := ⟨0x54, 0, 32⟩
abbrev SYN.PROF_CTRL : Fld := ⟨0x58, 0, 32⟩
abbrev SYN.LOOP0 : Fld := ⟨0x5c, 0, 32⟩
abbrev SYN.LOOP1 : Fld := ⟨0x60, 0, 32⟩
abbrev SYN.LOOP2 : Fld := ⟨0x64, 0, 32⟩
abbrev SYN.STATUS : Fld := ⟨0x68, 0, 32⟩
abbrev SYN.SEARCHES : Fld := ⟨0x6c, 0, 32⟩
abbrev SYN.HOPS : Fld := ⟨0x70, 0, 32⟩
abbrev SYN.LOCK_LOSSES : Fld := ⟨0x74, 0, 32⟩
abbrev SYN.PROF0_FREQ : Fld := ⟨0x80, 0, 32⟩
abbrev SYN.PROF0_AUX : Fld := ⟨0x84, 0, 32⟩
abbrev SYN.PROF1_FREQ : Fld := ⟨0x88, 0, 32⟩
abbrev SYN.PROF1_AUX : Fld := ⟨0x8c, 0, 32⟩
abbrev SYN.PROF2_FREQ : Fld := ⟨0x90, 0, 32⟩
abbrev SYN.PROF2_AUX : Fld := ⟨0x94, 0, 32⟩
abbrev SYN.PROF3_FREQ : Fld := ⟨0x98, 0, 32⟩
abbrev SYN.PROF3_AUX : Fld := ⟨0x9c, 0, 32⟩
abbrev SYN.PROF4_FREQ : Fld := ⟨0xa0, 0, 32⟩
abbrev SYN.PROF4_AUX : Fld := ⟨0xa4, 0, 32⟩
abbrev SYN.PROF5_FREQ : Fld := ⟨0xa8, 0, 32⟩
abbrev SYN.PROF5_AUX : Fld := ⟨0xac, 0, 32⟩
abbrev SYN.PROF6_FREQ : Fld := ⟨0xb0, 0, 32⟩
abbrev SYN.PROF6_AUX : Fld := ⟨0xb4, 0, 32⟩
abbrev SYN.PROF7_FREQ : Fld := ⟨0xb8, 0, 32⟩
abbrev SYN.PROF7_AUX : Fld := ⟨0xbc, 0, 32⟩
abbrev SYN.PROF8_FREQ : Fld := ⟨0xc0, 0, 32⟩
abbrev SYN.PROF8_AUX : Fld := ⟨0xc4, 0, 32⟩
abbrev SYN.PROF9_FREQ : Fld := ⟨0xc8, 0, 32⟩
abbrev SYN.PROF9_AUX : Fld := ⟨0xcc, 0, 32⟩
abbrev SYN.PROF10_FREQ : Fld := ⟨0xd0, 0, 32⟩
abbrev SYN.PROF10_AUX : Fld := ⟨0xd4, 0, 32⟩
abbrev SYN.PROF11_FREQ : Fld := ⟨0xd8, 0, 32⟩
abbrev SYN.PROF11_AUX : Fld := ⟨0xdc, 0, 32⟩
abbrev SYN.PROF12_FREQ : Fld := ⟨0xe0, 0, 32⟩
abbrev SYN.PROF12_AUX : Fld := ⟨0xe4, 0, 32⟩
abbrev SYN.PROF13_FREQ : Fld := ⟨0xe8, 0, 32⟩
abbrev SYN.PROF13_AUX : Fld := ⟨0xec, 0, 32⟩
abbrev SYN.PROF14_FREQ : Fld := ⟨0xf0, 0, 32⟩
abbrev SYN.PROF14_AUX : Fld := ⟨0xf4, 0, 32⟩
abbrev SYN.PROF15_FREQ : Fld := ⟨0xf8, 0, 32⟩
abbrev SYN.PROF15_AUX : Fld := ⟨0xfc, 0, 32⟩
abbrev SYN.CTRL_EN : Fld := ⟨0x40, 0, 1⟩
abbrev SYN.CTRL_OFF_HIZ : Fld := ⟨0x40, 1, 1⟩
abbrev SYN.CTRL_ON_LOSS : Fld := ⟨0x40, 2, 1⟩
abbrev SYN.CTRL_KEEP_CLUSTER : Fld := ⟨0x40, 3, 1⟩
abbrev SYN.CTRL_CAL : Fld := ⟨0x40, 4, 1⟩
abbrev SYN.CTRL_SWING : Fld := ⟨0x40, 5, 1⟩
abbrev SYN.CTRL_SEARCH : Fld := ⟨0x40, 6, 1⟩
abbrev SYN.FREQ_FRAC : Fld := ⟨0x44, 0, 24⟩
abbrev SYN.FREQ_INT : Fld := ⟨0x44, 24, 5⟩
abbrev SYN.DIV_DIV_M1 : Fld := ⟨0x48, 0, 10⟩
abbrev SYN.DELAY_TARGET : Fld := ⟨0x4c, 0, 9⟩
abbrev SYN.DITHER_SEED : Fld := ⟨0x50, 0, 24⟩
abbrev SYN.SPREAD_EN : Fld := ⟨0x54, 0, 1⟩
abbrev SYN.SPREAD_MODE : Fld := ⟨0x54, 1, 1⟩
abbrev SYN.SPREAD_DEPTH : Fld := ⟨0x54, 2, 6⟩
abbrev SYN.SPREAD_RATE : Fld := ⟨0x54, 8, 2⟩
abbrev SYN.PROF_CTRL_SLOT : Fld := ⟨0x58, 0, 4⟩
abbrev SYN.PROF_CTRL_INDEX : Fld := ⟨0x58, 4, 4⟩
abbrev SYN.PROF_CTRL_HOP : Fld := ⟨0x58, 8, 1⟩
abbrev SYN.STATUS_BAND : Fld := ⟨0x68, 0, 5⟩
abbrev SYN.STATUS_TUNE : Fld := ⟨0x68, 5, 8⟩
abbrev SYN.STATUS_DELAY_NOW : Fld := ⟨0x68, 13, 9⟩
abbrev SYN.STATUS_HOPPING : Fld := ⟨0x68, 22, 1⟩
abbrev SYN.STATUS_SPREADING : Fld := ⟨0x68, 23, 1⟩
abbrev SYN.PROF0_FREQ_FREQ : Fld := ⟨0x80, 0, 29⟩
abbrev SYN.PROF1_FREQ_FREQ : Fld := ⟨0x88, 0, 29⟩
abbrev SYN.PROF2_FREQ_FREQ : Fld := ⟨0x90, 0, 29⟩
abbrev SYN.PROF3_FREQ_FREQ : Fld := ⟨0x98, 0, 29⟩
abbrev SYN.PROF4_FREQ_FREQ : Fld := ⟨0xa0, 0, 29⟩
abbrev SYN.PROF5_FREQ_FREQ : Fld := ⟨0xa8, 0, 29⟩
abbrev SYN.PROF6_FREQ_FREQ : Fld := ⟨0xb0, 0, 29⟩
abbrev SYN.PROF7_FREQ_FREQ : Fld := ⟨0xb8, 0, 29⟩
abbrev SYN.PROF8_FREQ_FREQ : Fld := ⟨0xc0, 0, 29⟩
abbrev SYN.PROF9_FREQ_FREQ : Fld := ⟨0xc8, 0, 29⟩
abbrev SYN.PROF10_FREQ_FREQ : Fld := ⟨0xd0, 0, 29⟩
abbrev SYN.PROF11_FREQ_FREQ : Fld := ⟨0xd8, 0, 29⟩
abbrev SYN.PROF12_FREQ_FREQ : Fld := ⟨0xe0, 0, 29⟩
abbrev SYN.PROF13_FREQ_FREQ : Fld := ⟨0xe8, 0, 29⟩
abbrev SYN.PROF14_FREQ_FREQ : Fld := ⟨0xf0, 0, 29⟩
abbrev SYN.PROF15_FREQ_FREQ : Fld := ⟨0xf8, 0, 29⟩
abbrev SYN.PROF0_FREQ_VALID : Fld := ⟨0x80, 31, 1⟩
abbrev SYN.PROF1_FREQ_VALID : Fld := ⟨0x88, 31, 1⟩
abbrev SYN.PROF2_FREQ_VALID : Fld := ⟨0x90, 31, 1⟩
abbrev SYN.PROF3_FREQ_VALID : Fld := ⟨0x98, 31, 1⟩
abbrev SYN.PROF4_FREQ_VALID : Fld := ⟨0xa0, 31, 1⟩
abbrev SYN.PROF5_FREQ_VALID : Fld := ⟨0xa8, 31, 1⟩
abbrev SYN.PROF6_FREQ_VALID : Fld := ⟨0xb0, 31, 1⟩
abbrev SYN.PROF7_FREQ_VALID : Fld := ⟨0xb8, 31, 1⟩
abbrev SYN.PROF8_FREQ_VALID : Fld := ⟨0xc0, 31, 1⟩
abbrev SYN.PROF9_FREQ_VALID : Fld := ⟨0xc8, 31, 1⟩
abbrev SYN.PROF10_FREQ_VALID : Fld := ⟨0xd0, 31, 1⟩
abbrev SYN.PROF11_FREQ_VALID : Fld := ⟨0xd8, 31, 1⟩
abbrev SYN.PROF12_FREQ_VALID : Fld := ⟨0xe0, 31, 1⟩
abbrev SYN.PROF13_FREQ_VALID : Fld := ⟨0xe8, 31, 1⟩
abbrev SYN.PROF14_FREQ_VALID : Fld := ⟨0xf0, 31, 1⟩
abbrev SYN.PROF15_FREQ_VALID : Fld := ⟨0xf8, 31, 1⟩
abbrev SYN.PROF0_AUX_DIV_M1 : Fld := ⟨0x84, 0, 10⟩
abbrev SYN.PROF1_AUX_DIV_M1 : Fld := ⟨0x8c, 0, 10⟩
abbrev SYN.PROF2_AUX_DIV_M1 : Fld := ⟨0x94, 0, 10⟩
abbrev SYN.PROF3_AUX_DIV_M1 : Fld := ⟨0x9c, 0, 10⟩
abbrev SYN.PROF4_AUX_DIV_M1 : Fld := ⟨0xa4, 0, 10⟩
abbrev SYN.PROF5_AUX_DIV_M1 : Fld := ⟨0xac, 0, 10⟩
abbrev SYN.PROF6_AUX_DIV_M1 : Fld := ⟨0xb4, 0, 10⟩
abbrev SYN.PROF7_AUX_DIV_M1 : Fld := ⟨0xbc, 0, 10⟩
abbrev SYN.PROF8_AUX_DIV_M1 : Fld := ⟨0xc4, 0, 10⟩
abbrev SYN.PROF9_AUX_DIV_M1 : Fld := ⟨0xcc, 0, 10⟩
abbrev SYN.PROF10_AUX_DIV_M1 : Fld := ⟨0xd4, 0, 10⟩
abbrev SYN.PROF11_AUX_DIV_M1 : Fld := ⟨0xdc, 0, 10⟩
abbrev SYN.PROF12_AUX_DIV_M1 : Fld := ⟨0xe4, 0, 10⟩
abbrev SYN.PROF13_AUX_DIV_M1 : Fld := ⟨0xec, 0, 10⟩
abbrev SYN.PROF14_AUX_DIV_M1 : Fld := ⟨0xf4, 0, 10⟩
abbrev SYN.PROF15_AUX_DIV_M1 : Fld := ⟨0xfc, 0, 10⟩
abbrev SYN.PROF0_AUX_BAND : Fld := ⟨0x84, 10, 5⟩
abbrev SYN.PROF1_AUX_BAND : Fld := ⟨0x8c, 10, 5⟩
abbrev SYN.PROF2_AUX_BAND : Fld := ⟨0x94, 10, 5⟩
abbrev SYN.PROF3_AUX_BAND : Fld := ⟨0x9c, 10, 5⟩
abbrev SYN.PROF4_AUX_BAND : Fld := ⟨0xa4, 10, 5⟩
abbrev SYN.PROF5_AUX_BAND : Fld := ⟨0xac, 10, 5⟩
abbrev SYN.PROF6_AUX_BAND : Fld := ⟨0xb4, 10, 5⟩
abbrev SYN.PROF7_AUX_BAND : Fld := ⟨0xbc, 10, 5⟩
abbrev SYN.PROF8_AUX_BAND : Fld := ⟨0xc4, 10, 5⟩
abbrev SYN.PROF9_AUX_BAND : Fld := ⟨0xcc, 10, 5⟩
abbrev SYN.PROF10_AUX_BAND : Fld := ⟨0xd4, 10, 5⟩
abbrev SYN.PROF11_AUX_BAND : Fld := ⟨0xdc, 10, 5⟩
abbrev SYN.PROF12_AUX_BAND : Fld := ⟨0xe4, 10, 5⟩
abbrev SYN.PROF13_AUX_BAND : Fld := ⟨0xec, 10, 5⟩
abbrev SYN.PROF14_AUX_BAND : Fld := ⟨0xf4, 10, 5⟩
abbrev SYN.PROF15_AUX_BAND : Fld := ⟨0xfc, 10, 5⟩
abbrev SYN.PROF0_AUX_TUNE : Fld := ⟨0x84, 16, 8⟩
abbrev SYN.PROF1_AUX_TUNE : Fld := ⟨0x8c, 16, 8⟩
abbrev SYN.PROF2_AUX_TUNE : Fld := ⟨0x94, 16, 8⟩
abbrev SYN.PROF3_AUX_TUNE : Fld := ⟨0x9c, 16, 8⟩
abbrev SYN.PROF4_AUX_TUNE : Fld := ⟨0xa4, 16, 8⟩
abbrev SYN.PROF5_AUX_TUNE : Fld := ⟨0xac, 16, 8⟩
abbrev SYN.PROF6_AUX_TUNE : Fld := ⟨0xb4, 16, 8⟩
abbrev SYN.PROF7_AUX_TUNE : Fld := ⟨0xbc, 16, 8⟩
abbrev SYN.PROF8_AUX_TUNE : Fld := ⟨0xc4, 16, 8⟩
abbrev SYN.PROF9_AUX_TUNE : Fld := ⟨0xcc, 16, 8⟩
abbrev SYN.PROF10_AUX_TUNE : Fld := ⟨0xd4, 16, 8⟩
abbrev SYN.PROF11_AUX_TUNE : Fld := ⟨0xdc, 16, 8⟩
abbrev SYN.PROF12_AUX_TUNE : Fld := ⟨0xe4, 16, 8⟩
abbrev SYN.PROF13_AUX_TUNE : Fld := ⟨0xec, 16, 8⟩
abbrev SYN.PROF14_AUX_TUNE : Fld := ⟨0xf4, 16, 8⟩
abbrev SYN.PROF15_AUX_TUNE : Fld := ⟨0xfc, 16, 8⟩
abbrev SYN.PROF0_AUX_TEMP : Fld := ⟨0x84, 24, 8⟩
abbrev SYN.PROF1_AUX_TEMP : Fld := ⟨0x8c, 24, 8⟩
abbrev SYN.PROF2_AUX_TEMP : Fld := ⟨0x94, 24, 8⟩
abbrev SYN.PROF3_AUX_TEMP : Fld := ⟨0x9c, 24, 8⟩
abbrev SYN.PROF4_AUX_TEMP : Fld := ⟨0xa4, 24, 8⟩
abbrev SYN.PROF5_AUX_TEMP : Fld := ⟨0xac, 24, 8⟩
abbrev SYN.PROF6_AUX_TEMP : Fld := ⟨0xb4, 24, 8⟩
abbrev SYN.PROF7_AUX_TEMP : Fld := ⟨0xbc, 24, 8⟩
abbrev SYN.PROF8_AUX_TEMP : Fld := ⟨0xc4, 24, 8⟩
abbrev SYN.PROF9_AUX_TEMP : Fld := ⟨0xcc, 24, 8⟩
abbrev SYN.PROF10_AUX_TEMP : Fld := ⟨0xd4, 24, 8⟩
abbrev SYN.PROF11_AUX_TEMP : Fld := ⟨0xdc, 24, 8⟩
abbrev SYN.PROF12_AUX_TEMP : Fld := ⟨0xe4, 24, 8⟩
abbrev SYN.PROF13_AUX_TEMP : Fld := ⟨0xec, 24, 8⟩
abbrev SYN.PROF14_AUX_TEMP : Fld := ⟨0xf4, 24, 8⟩
abbrev SYN.PROF15_AUX_TEMP : Fld := ⟨0xfc, 24, 8⟩
abbrev SYN.live_LOCKED : Fld := ⟨0xc, 0, 1⟩
abbrev SYN.live_OUT_ON : Fld := ⟨0xc, 1, 1⟩
abbrev SYN.live_SEARCHING : Fld := ⟨0xc, 2, 1⟩
abbrev SYN.live_HOLD : Fld := ⟨0xc, 3, 1⟩
abbrev SYN.live_LOOP_ACTIVE : Fld := ⟨0xc, 4, 1⟩
abbrev SYN.live_CAL_ACTIVE : Fld := ⟨0xc, 5, 1⟩
abbrev SYN.st_SEARCH_DONE : Fld := ⟨0x8, 0, 1⟩
abbrev SYN.st_HOP_DONE : Fld := ⟨0x8, 1, 1⟩
abbrev SYN.st_REF_LOST : Fld := ⟨0x8, 2, 1⟩
abbrev SYN.st_RELOCKED : Fld := ⟨0x8, 3, 1⟩
abbrev SYN.st_PROF_STALE : Fld := ⟨0x8, 4, 1⟩
abbrev SYN.st_DELAY_DONE : Fld := ⟨0x8, 5, 1⟩
abbrev SYN.err_RANGE : Fld := ⟨0x10, 0, 1⟩
abbrev SYN.err_ENCODING : Fld := ⟨0x10, 1, 1⟩
abbrev SYN.err_BUSY_REJECT : Fld := ⟨0x10, 2, 1⟩
abbrev SYN.err_LOOP_CONFLICT : Fld := ⟨0x10, 3, 1⟩
abbrev SYN.err_PROF_EMPTY : Fld := ⟨0x10, 4, 1⟩
abbrev SYN.err_CAL_CONFLICT : Fld := ⟨0x10, 5, 1⟩
abbrev SYN.err_LOCK_FAIL : Fld := ⟨0x10, 6, 1⟩
abbrev DMA.MODE : Fld := ⟨0x40, 0, 32⟩
abbrev DMA.STALL_TO : Fld := ⟨0x44, 0, 32⟩
abbrev DMA.BUFFER : Fld := ⟨0x48, 0, 32⟩
abbrev DMA.OUTSTANDING : Fld := ⟨0x4c, 0, 32⟩
abbrev DMA.CPL_TIMEOUTS : Fld := ⟨0x50, 0, 32⟩
abbrev DMA.MODE_SERIAL : Fld := ⟨0x40, 0, 1⟩
abbrev DMA.STALL_TO_US : Fld := ⟨0x44, 0, 16⟩
abbrev DMA.BUFFER_UNITS : Fld := ⟨0x48, 0, 8⟩
abbrev DMA.OUTSTANDING_READS : Fld := ⟨0x4c, 0, 7⟩
abbrev DMA.live_READ_FROZEN : Fld := ⟨0xc, 0, 1⟩
abbrev DMA.live_WRITE_FROZEN : Fld := ⟨0xc, 1, 1⟩
abbrev DMA.live_SERIAL_ACTIVE : Fld := ⟨0xc, 2, 1⟩
abbrev DMA.live_SERIAL_CH : Fld := ⟨0xc, 3, 3⟩
abbrev DMA.st_MODE_CHANGED : Fld := ⟨0x8, 0, 1⟩
abbrev DMA.err_BUSY_REJECT : Fld := ⟨0x10, 0, 1⟩
abbrev DMA.err_VIOLATION : Fld := ⟨0x10, 1, 1⟩
abbrev DMA.err_CPL_TIMEOUT : Fld := ⟨0x10, 2, 1⟩
abbrev DMA.err_CPL_ERROR : Fld := ⟨0x10, 3, 1⟩
abbrev DMAC.CFG : Fld := ⟨0x40, 0, 32⟩
abbrev DMAC.CTRL : Fld := ⟨0x44, 0, 32⟩
abbrev DMAC.RING_LO : Fld := ⟨0x48, 0, 32⟩
abbrev DMAC.RING_HI : Fld := ⟨0x4c, 0, 32⟩
abbrev DMAC.RING_SIZE : Fld := ⟨0x50, 0, 32⟩
abbrev DMAC.DOORBELL : Fld := ⟨0x54, 0, 32⟩
abbrev DMAC.INDEX : Fld := ⟨0x58, 0, 32⟩
abbrev DMAC.STATE : Fld := ⟨0x5c, 0, 32⟩
abbrev DMAC.CUR_WORD : Fld := ⟨0x60, 0, 32⟩
abbrev DMAC.CUR_HOST_LO : Fld := ⟨0x64, 0, 32⟩
abbrev DMAC.CUR_HOST_HI : Fld := ⟨0x68, 0, 32⟩
abbrev DMAC.CUR_LEFT : Fld := ⟨0x6c, 0, 32⟩
abbrev DMAC.DESCS : Fld := ⟨0x70, 0, 32⟩
abbrev DMAC.BYTES_LO : Fld := ⟨0x74, 0, 32⟩
abbrev DMAC.BYTES_HI : Fld := ⟨0x78, 0, 32⟩
abbrev DMAC.REFETCHES : Fld := ⟨0x7c, 0, 32⟩
abbrev DMAC.POISONED : Fld := ⟨0x80, 0, 32⟩
abbrev DMAC.CFG_DIR : Fld := ⟨0x40, 0, 1⟩
abbrev DMAC.CTRL_EN : Fld := ⟨0x44, 0, 1⟩
abbrev DMAC.CTRL_PAUSE : Fld := ⟨0x44, 1, 1⟩
abbrev DMAC.CTRL_ABORT : Fld := ⟨0x44, 2, 1⟩
abbrev DMAC.CTRL_CLEAR : Fld := ⟨0x44, 3, 1⟩
abbrev DMAC.CTRL_PRIO : Fld := ⟨0x44, 4, 3⟩
abbrev DMAC.RING_LO_ADDR_LO : Fld := ⟨0x48, 5, 27⟩
abbrev DMAC.RING_SIZE_SIZE_M1 : Fld := ⟨0x50, 0, 16⟩
abbrev DMAC.DOORBELL_PI : Fld := ⟨0x54, 0, 16⟩
abbrev DMAC.INDEX_CI : Fld := ⟨0x58, 0, 16⟩
abbrev DMAC.INDEX_LAST_PI : Fld := ⟨0x58, 16, 16⟩
abbrev DMAC.STATE_STATE : Fld := ⟨0x5c, 0, 3⟩
abbrev DMAC.STATE_DB_PENDING : Fld := ⟨0x5c, 3, 1⟩
abbrev DMAC.STATE_LAST_STATUS : Fld := ⟨0x5c, 4, 4⟩
abbrev DMAC.CUR_WORD_WORD : Fld := ⟨0x60, 0, 25⟩
abbrev DMAC.CUR_LEFT_BYTES : Fld := ⟨0x6c, 0, 24⟩
abbrev DMAC.live_RUNNING : Fld := ⟨0xc, 0, 1⟩
abbrev DMAC.live_PAUSED : Fld := ⟨0xc, 1, 1⟩
abbrev DMAC.live_HALTED : Fld := ⟨0xc, 2, 1⟩
abbrev DMAC.live_FROZEN : Fld := ⟨0xc, 3, 1⟩
abbrev DMAC.st_DESC_DONE : Fld := ⟨0x8, 0, 1⟩
abbrev DMAC.st_DESC_IRQ : Fld := ⟨0x8, 1, 1⟩
abbrev DMAC.st_PAUSED_SET : Fld := ⟨0x8, 2, 1⟩
abbrev DMAC.st_ABORT_DONE : Fld := ⟨0x8, 3, 1⟩
abbrev DMAC.st_HALT : Fld := ⟨0x8, 4, 1⟩
abbrev DMAC.err_DESC_ERR : Fld := ⟨0x10, 0, 1⟩
abbrev DMAC.err_PCIE_ERR : Fld := ⟨0x10, 1, 1⟩
abbrev DMAC.err_VIOLATION : Fld := ⟨0x10, 2, 1⟩
abbrev DMAC.err_STALLED : Fld := ⟨0x10, 3, 1⟩
abbrev DMAC.err_UE_WRITE : Fld := ⟨0x10, 4, 1⟩
abbrev DMAC.err_BUSY_REJECT : Fld := ⟨0x10, 5, 1⟩
abbrev DMAC.err_RANGE : Fld := ⟨0x10, 6, 1⟩
abbrev CHIP.IDENT : Fld := ⟨0x40, 0, 32⟩
abbrev CHIP.REVISION : Fld := ⟨0x44, 0, 32⟩
abbrev CHIP.DIE_ID_LO : Fld := ⟨0x48, 0, 32⟩
abbrev CHIP.DIE_ID_HI : Fld := ⟨0x4c, 0, 32⟩
abbrev CHIP.CMD : Fld := ⟨0x50, 0, 32⟩
abbrev CHIP.CMD_STATUS : Fld := ⟨0x54, 0, 32⟩
abbrev CHIP.CMD_DUPS : Fld := ⟨0x58, 0, 32⟩
abbrev CHIP.IMG_ADDR_LO : Fld := ⟨0x5c, 0, 32⟩
abbrev CHIP.IMG_ADDR_HI : Fld := ⟨0x60, 0, 32⟩
abbrev CHIP.IMG_LEN : Fld := ⟨0x64, 0, 32⟩
abbrev CHIP.IMG_DIGEST_LO : Fld := ⟨0x68, 0, 32⟩
abbrev CHIP.IMG_DIGEST_HI : Fld := ⟨0x6c, 0, 32⟩
abbrev CHIP.LOAD_STATUS : Fld := ⟨0x70, 0, 32⟩
abbrev CHIP.TRIG_IO : Fld := ⟨0x74, 0, 32⟩
abbrev CHIP.TEMP : Fld := ⟨0x78, 0, 32⟩
abbrev CHIP.THERM_WARN : Fld := ⟨0x7c, 0, 32⟩
abbrev CHIP.ALERT_EN : Fld := ⟨0x80, 0, 32⟩
abbrev CHIP.ALERT_STATUS : Fld := ⟨0x84, 0, 32⟩
abbrev CHIP.INJECT : Fld := ⟨0x88, 0, 32⟩
abbrev CHIP.RESET_CAUSE : Fld := ⟨0x8c, 0, 32⟩
abbrev CHIP.IDENT_VENDOR : Fld := ⟨0x40, 0, 16⟩
abbrev CHIP.IDENT_PART : Fld := ⟨0x40, 16, 16⟩
abbrev CHIP.REVISION_STEPPING : Fld := ⟨0x44, 0, 8⟩
abbrev CHIP.REVISION_PACKAGE : Fld := ⟨0x44, 8, 8⟩
abbrev CHIP.REVISION_LAYOUT : Fld := ⟨0x44, 16, 8⟩
abbrev CHIP.IMG_ADDR_LO_ADDR_LO : Fld := ⟨0x5c, 3, 29⟩
abbrev CHIP.IMG_LEN_BYTES : Fld := ⟨0x64, 0, 24⟩
abbrev CHIP.LOAD_STATUS_CAUSE : Fld := ⟨0x70, 0, 4⟩
abbrev CHIP.LOAD_STATUS_WHERE : Fld := ⟨0x70, 4, 1⟩
abbrev CHIP.LOAD_STATUS_PASS2 : Fld := ⟨0x70, 5, 1⟩
abbrev CHIP.LOAD_STATUS_LOCATION : Fld := ⟨0x70, 8, 24⟩
abbrev CHIP.TEMP_VALUE : Fld := ⟨0x78, 0, 11⟩
abbrev CHIP.TEMP_VALID : Fld := ⟨0x78, 11, 1⟩
abbrev CHIP.THERM_WARN_LEVEL : Fld := ⟨0x7c, 0, 11⟩
abbrev CHIP.ALERT_EN_CAUSES : Fld := ⟨0x80, 0, 6⟩
abbrev CHIP.ALERT_STATUS_CAUSES : Fld := ⟨0x84, 0, 6⟩
abbrev CHIP.ALERT_STATUS_ASSERTED : Fld := ⟨0x84, 31, 1⟩
abbrev CHIP.INJECT_KIND : Fld := ⟨0x88, 0, 4⟩
abbrev CHIP.INJECT_UNIT : Fld := ⟨0x88, 4, 10⟩
abbrev CHIP.INJECT_GO : Fld := ⟨0x88, 31, 1⟩
abbrev CHIP.RESET_CAUSE_CAUSE : Fld := ⟨0x8c, 0, 6⟩
abbrev CHIP.live_RUN_STATE : Fld := ⟨0xc, 0, 3⟩
abbrev CHIP.live_CLUSTER : Fld := ⟨0xc, 3, 1⟩
abbrev CHIP.live_LOADING : Fld := ⟨0xc, 4, 1⟩
abbrev CHIP.live_READY : Fld := ⟨0xc, 5, 1⟩
abbrev CHIP.live_MEMBER : Fld := ⟨0xc, 6, 1⟩
abbrev CHIP.live_THERM_WARN : Fld := ⟨0xc, 7, 1⟩
abbrev CHIP.live_CAUSE_TB : Fld := ⟨0xc, 8, 1⟩
abbrev CHIP.live_CAUSE_QUEEN : Fld := ⟨0xc, 9, 1⟩
abbrev CHIP.live_CAUSE_THERMAL : Fld := ⟨0xc, 10, 1⟩
abbrev CHIP.live_CAUSE_UE : Fld := ⟨0xc, 11, 1⟩
abbrev CHIP.st_STATE_CHANGE : Fld := ⟨0x8, 0, 1⟩
abbrev CHIP.st_CMD_JUDGED : Fld := ⟨0x8, 1, 1⟩
abbrev CHIP.st_LOAD_END : Fld := ⟨0x8, 2, 1⟩
abbrev CHIP.st_READY_SET : Fld := ⟨0x8, 3, 1⟩
abbrev CHIP.st_THERM_WARN : Fld := ⟨0x8, 4, 1⟩
abbrev CHIP.st_FAULT_SET : Fld := ⟨0x8, 5, 1⟩
abbrev CHIP.err_CMD_ENCODING : Fld := ⟨0x10, 0, 1⟩
abbrev CHIP.err_STATE_ERR : Fld := ⟨0x10, 1, 1⟩
abbrev CHIP.err_ARM_REFUSED : Fld := ⟨0x10, 2, 1⟩
abbrev CHIP.err_LOAD_FAIL : Fld := ⟨0x10, 3, 1⟩
abbrev CHIP.err_BUSY_REJECT : Fld := ⟨0x10, 4, 1⟩
abbrev CHIP.err_INJECT_ENCODING : Fld := ⟨0x10, 5, 1⟩
abbrev CHIP.err_THERMAL : Fld := ⟨0x10, 6, 1⟩
abbrev CHIP.err_CHIP_UE : Fld := ⟨0x10, 7, 1⟩
abbrev CHIP.CMD_CODE : Fld := ⟨0x50, 0, 4⟩
abbrev CHIP.CMD_ID : Fld := ⟨0x50, 8, 8⟩
abbrev CHIP.CMD_STATUS_CODE : Fld := ⟨0x54, 0, 4⟩
abbrev CHIP.CMD_STATUS_OUTCOME : Fld := ⟨0x54, 4, 4⟩
abbrev CHIP.CMD_STATUS_ID : Fld := ⟨0x54, 8, 8⟩
abbrev CHIP.CMD_STATUS_CAUSE : Fld := ⟨0x54, 16, 8⟩
abbrev CHIP.TRIG_IO_IN_EN : Fld := ⟨0x74, 0, 1⟩
abbrev CHIP.TRIG_IO_IN_POL : Fld := ⟨0x74, 1, 1⟩
abbrev CHIP.TRIG_IO_OUT_EN : Fld := ⟨0x74, 2, 1⟩
abbrev CHIP.TRIG_IO_OUT_POL : Fld := ⟨0x74, 3, 1⟩
abbrev CHIP.TRIG_IO_OUT_WIDTH : Fld := ⟨0x74, 8, 8⟩
abbrev SVC.CTRL : Fld := ⟨0x40, 0, 32⟩
abbrev SVC.FRAMES : Fld := ⟨0x44, 0, 32⟩
abbrev SVC.DISCARDS : Fld := ⟨0x48, 0, 32⟩
abbrev SVC.BAD_OPS : Fld := ⟨0x4c, 0, 32⟩
abbrev SVC.HEALTH : Fld := ⟨0x50, 0, 32⟩
abbrev SVC.MBOX_OUT : Fld := ⟨0x54, 0, 32⟩
abbrev SVC.MBOX_IN : Fld := ⟨0x58, 0, 32⟩
abbrev SVC.CTRL_CMD_EN : Fld := ⟨0x40, 0, 1⟩
abbrev SVC.CTRL_HOLD_EN : Fld := ⟨0x40, 1, 1⟩
abbrev SVC.HEALTH_RUN_STATE : Fld := ⟨0x50, 0, 3⟩
abbrev SVC.HEALTH_CLUSTER : Fld := ⟨0x50, 3, 1⟩
abbrev SVC.HEALTH_READY : Fld := ⟨0x50, 4, 1⟩
abbrev SVC.HEALTH_LOCKED : Fld := ⟨0x50, 5, 1⟩
abbrev SVC.HEALTH_ALIGNED : Fld := ⟨0x50, 6, 1⟩
abbrev SVC.HEALTH_ALERT : Fld := ⟨0x50, 7, 1⟩
abbrev SVC.HEALTH_FAULT_CAUSE : Fld := ⟨0x50, 8, 1⟩
abbrev SVC.HEALTH_FROZEN : Fld := ⟨0x50, 9, 1⟩
abbrev SVC.HEALTH_THERM_WARN : Fld := ⟨0x50, 10, 1⟩
abbrev SVC.HEALTH_TEMP_C : Fld := ⟨0x50, 11, 10⟩
abbrev SVC.live_OUT_FULL : Fld := ⟨0xc, 0, 1⟩
abbrev SVC.live_SELECTED : Fld := ⟨0xc, 1, 1⟩
abbrev SVC.st_MBOX_IN : Fld := ⟨0x8, 0, 1⟩
abbrev SVC.st_MBOX_TAKEN : Fld := ⟨0x8, 1, 1⟩
abbrev SVC.err_DISCARD : Fld := ⟨0x10, 0, 1⟩
abbrev SVC.err_BAD_OP : Fld := ⟨0x10, 1, 1⟩
abbrev JRNL.CTRL : Fld := ⟨0x40, 0, 32⟩
abbrev JRNL.WR_COUNT : Fld := ⟨0x44, 0, 32⟩
abbrev JRNL.RD_COUNT : Fld := ⟨0x48, 0, 32⟩
abbrev JRNL.RD_W0 : Fld := ⟨0x4c, 0, 32⟩
abbrev JRNL.RD_W1 : Fld := ⟨0x50, 0, 32⟩
abbrev JRNL.RD_W2 : Fld := ⟨0x54, 0, 32⟩
abbrev JRNL.RD_W3 : Fld := ⟨0x58, 0, 32⟩
abbrev JRNL.OLDEST : Fld := ⟨0x5c, 0, 32⟩
abbrev JRNL.CTRL_COPY_EN : Fld := ⟨0x40, 0, 1⟩
abbrev JRNL.RD_W0_WORD : Fld := ⟨0x4c, 0, 18⟩
abbrev JRNL.RD_W1_WORD : Fld := ⟨0x50, 0, 18⟩
abbrev JRNL.RD_W2_WORD : Fld := ⟨0x54, 0, 18⟩
abbrev JRNL.RD_W3_WORD : Fld := ⟨0x58, 0, 18⟩
abbrev JRNL.RD_W0_VALID : Fld := ⟨0x4c, 31, 1⟩
abbrev JRNL.RD_W1_VALID : Fld := ⟨0x50, 31, 1⟩
abbrev JRNL.RD_W2_VALID : Fld := ⟨0x54, 31, 1⟩
abbrev JRNL.RD_W3_VALID : Fld := ⟨0x58, 31, 1⟩
abbrev JRNL.st_OVERWRITE : Fld := ⟨0x8, 0, 1⟩
abbrev JRNL.err_RD_LOST : Fld := ⟨0x10, 0, 1⟩

end Sys2Proof.Machine
end

