-- ==== Sys2Proof/Machine/Tab.lean ====
section
/-! DEFINITION. Sparse tables: the contents of an address space or of a numbered family of units as a list of (number, value) pairs in ONE
canonical form, numbers strictly rising and no entry equal to what an unlisted number holds (`d`). -/
namespace Sys2Proof.Machine

abbrev Tab (α : Type) := List (Nat × α)

/-- The value at `k`; an unlisted number holds `d k`. -/
def Tab.get {α : Type} (d : Nat → α) : Tab α → Nat → α
  | [], k => d k
  | (j, v) :: r, k => if j = k then v else if k < j then d k else Tab.get d r k

/-- The table with `v` at `k`, in canonical form. -/
def Tab.set {α : Type} [DecidableEq α] (d : Nat → α) : Tab α → Nat → α → Tab α
  | [], k, v => if v = d k then [] else [(k, v)]
  | (j, w) :: r, k, v =>
    if k < j then (if v = d k then (j, w) :: r else (k, v) :: (j, w) :: r)
    else if j = k then (if v = d k then r else (k, v) :: r)
    else (j, w) :: Tab.set d r k v

/-- The entries whose number `p` picks; the others take their default. -/
def Tab.keep {α : Type} (p : Nat → Bool) (t : Tab α) : Tab α := t.filter fun x => p x.1

/-- Every listed value replaced by `f` of its number and itself, in canonical form. -/
def Tab.update {α : Type} [DecidableEq α] (d : Nat → α) (f : Nat → α → α) (t : Tab α) : Tab α :=
  (t.map fun x => (x.1, f x.1 x.2)).filter fun x => decide (x.2 ≠ d x.1)

/-- Numbers strictly rising above `b`, and no entry at its default. -/
def Tab.wfFrom {α : Type} [DecidableEq α] (d : Nat → α) : Nat → Tab α → Bool
  | _, [] => true
  | b, (j, v) :: r => decide (b ≤ j) && decide (v ≠ d j) && Tab.wfFrom d (j + 1) r

/-- The canonical form. -/
def Tab.wf {α : Type} [DecidableEq α] (d : Nat → α) (t : Tab α) : Bool := Tab.wfFrom d 0 t

end Sys2Proof.Machine
end

