-- ==== Sys2Proof/Machine/State.lean ====
section
/-! DEFINITION. The state of the part as plain data, the reasons a step can stop, and the state right after reset. Registers live in one
sparse map by BAR0 address (`regs`, default: the directory's reset values); the other fields hold what the spec gives the units beside
their registers. -/
namespace Sys2Proof.Machine
open Sys2Proof

/-- Reasons a step can stop with a fault. No meaning raises one: every effect of the spec is a next state. -/
inductive Fault where
  /-- Raised by no one; it keeps the type inhabited. Safe. -/
  | none
  deriving DecidableEq, Repr

/-- Reasons a step can be refused. -/
inductive Refusal where
  /-- Raised by the dispatch for a command that has no meaning yet. Safe. -/
  | notModelled (mnemonic : String)
  deriving DecidableEq, Repr

/-- What the part sends out on its interfaces, oldest first: the model's own trace of its outputs. -/
inductive Out where
  /-- An MSI-X message: vector, address, data (R367). -/
  | msix (vector : Nat) (addr : Nat) (data : Dword)
  /-- A BAR0 or BAR2 read completion with its dwords. -/
  | readData (addr : Nat) (data : List Dword)
  /-- A completion with Completer Abort status (R362). -/
  | completerAbort (addr : Nat)
  /-- The answers to configuration requests: Configuration Request Retry Status, a read's value, a write's completion (R361). -/
  | configRetry
  | configData (f : CfgField) (v : Nat)
  | configDone
  /-- An error reported through AER (R427): 0 bus error, 1 poisoned TLP received, 2 completion timeout, 3 unexpected completion, 4 error completion. -/
  | aer (kind : Nat)
  /-- A write to host memory: byte address and bytes. -/
  | hostWrite (addr : Nat) (bytes : List (BitVec 8))
  /-- A read request to host memory: byte address and length. -/
  | hostRead (addr : Nat) (len : Nat)
  /-- A frame sent on an Ovundan port, with its words: header, payload, CRC (R284). -/
  | frame (port : Nat) (f : Frame) (words : List (BitVec 64))
  /-- An Ovundan frame whose CRC word is wrong: an injection corrupted it (R437), or it is a trigger forwarded before its CRC was seen to fail
  (R286). -/
  | badFrame (port : Nat) (f : Frame) (words : List (BitVec 64))
  /-- A response word of the service port (R456). -/
  | svcResponse (word : Dword)
  /-- What the test access port shifts out of the register that its instruction selects: the instruction and the register's captured
  value (R474). -/
  | tdo (instr : BitVec 8) (value : BitVec 158)
  deriving DecidableEq, Repr

/-- What every memory request that the part sends carries: its Traffic Class, the Relaxed Ordering and No Snoop attributes, the poison bit (R360). -/
structure TlpAttr where
  tc : BitVec 3
  relaxed : Bool
  noSnoop : Bool
  poisoned : Bool
  deriving DecidableEq, Repr

/-- The header attributes of what the part sends, for the memory requests (R360). -/
def Out.attr : Out → Option TlpAttr
  | .msix .. | .hostWrite .. | .hostRead .. => some ⟨0, false, false, false⟩
  | _ => none

/-- When a condition held: since when it does, and the earlier times, newest first, each from its beginning to its end. -/
structure Marks where
  since : Option DTime
  past : List (DTime × DTime)
  deriving DecidableEq, Repr

def Marks.never : Marks := ⟨none, []⟩

/-- The timebase beside the TB page: DTIME, the count of TCLK cycles since the dividers were released (which gives the phases of
FCLK and ACLK, R58), bypass and slew bookkeeping. -/
structure Timebase where
  dtime : DTime
  tclk : Nat
  /-- TCLK cycles since the last bypass edge (R66). -/
  bypassPhase : Nat
  /-- The present TCLK cycle began at a rising edge of the bypass source (R66, R68). -/
  bypassEdge : Bool
  /-- Value of `tclk` at the last trim slew step (R71). -/
  lastSlew : Nat
  /-- The su that the slews add to or withhold from the next increment on the root (R71, R295). -/
  slew : Int
  /-- The phase errors of the reference cycles that the count of R61 holds, newest first, at most 1,024. -/
  window : List (BitVec 12)
  /-- A timebase reset takes effect in the next TCLK cycle (R73). -/
  resetDue : Bool
  /-- DTIME has passed its end and the effects of R53 are due. -/
  wrapDue : Bool
  /-- The bypass in progress belongs to a change of REFSEL (R60). -/
  refChange : Bool
  /-- When COARSE read 1, and when the part was in holdover (flags of R163). -/
  coarse : Marks
  hold : Marks
  deriving DecidableEq, Repr

def Timebase.init : Timebase := ⟨0, 0, 0, false, 0, 0, [], false, false, false, Marks.never, Marks.never⟩

/-- A measurement of the ZQ_CAL resistor: its TCLK cycle, and what it found in thousandths of an ohm; with the ball open or shorted it finds no
resistor and the drivers run untrimmed (R469). -/
structure Zq where
  tclk : Nat
  milliohms : Option Nat
  deriving DecidableEq, Repr

/-- Where start-up stands (R445). -/
inductive Startup where
  | held | waitLock | calibrating | ready
  deriving DecidableEq, Repr

/-- Resets, start-up and the cluster state beside CHIP.PAGE_LIVE. -/
structure Power where
  /-- The power-on monitor holds reset (R441). -/
  monitor : Bool
  /-- RESET_N is low. -/
  resetN : Bool
  /-- A service-port hold is in force (R457). -/
  svcHold : Bool
  /-- TEST_EN is high (R467). -/
  testEn : Bool
  startup : Startup
  /-- The store self-test has ended. -/
  selfTestDone : Bool
  /-- The fuse blocks that failed their parity (R425). -/
  badFuses : List (BitVec 8)
  /-- Configuration space is ready (R361). -/
  configReady : Bool
  /-- PERST_N is asserted. -/
  perst : Bool
  /-- Resets that ended since RESET_CAUSE was last set by them (R421). -/
  causes : BitVec 6
  /-- The cluster entry has completed (R450). -/
  clusterEntered : Bool
  /-- A wake is in progress (R451). -/
  waking : Bool
  /-- Value of `heart` at the later of WAKE's acceptance and the entry's completion (R451). -/
  wakeFrom : Nat
  /-- VDD_HV, VDD_CORE, another rail is below its power-good level (R62, R441). -/
  noHv : Bool
  noCore : Bool
  noOther : Bool
  /-- TCLK cycles since the part left reset, from which HB_OUT is made (R448). -/
  heart : Nat
  /-- ALERT_N is driven low (R419). -/
  alerted : Bool
  deriving DecidableEq, Repr

/-- Run control beside the CHIP page. -/
structure RunCtl where
  /-- Identifier of the last accepted command; none after power-on and RESET_N (R404). -/
  lastId : Option (BitVec 8)
  /-- The accepted command whose result is not known yet: its code and identifier (R405). -/
  pendingCmd : Option (Nat × Nat)
  /-- An image is held (R43). -/
  imageHeld : Bool
  /-- The values IMG_ADDR and IMG_LEN had when the LOAD in progress was accepted (R418). -/
  loadAddr : Nat
  loadLen : Nat
  /-- A capture with END_RUN has become DONE and the run is to move to STOPPING: its region and segment (R232). -/
  endRun : Option (Nat × Nat)
  /-- RUNNING, and slot 0 has not come yet (R30); with the start time S that a swarm START gave (R301). -/
  slotDue : Bool
  startAt : Option DTime
  /-- Writes of CHIP.CMD that the part judges at the end of this TCLK cycle, after the internal events of the cycle (R47). -/
  heldCmds : List (Agent × Dword)
  /-- Swarm commands that wait in the same way, with ORIGIN and HOPS of their frames (R405). -/
  heldSwarm : List (BitVec 11 × BitVec 5 × SwarmCmd)
  /-- Regions that a chip-level error of this TCLK cycle stops and whose writer is to give its record: the region, the cause, the detail and the
  error's DTIME (R430). -/
  chipStops : List (Nat × Nat × Nat × DTime)
  deriving DecidableEq, Repr

/-- What the last time-extension record of a source in a stream said (R54, R247). -/
structure Ext where
  /-- Bit 54 of the last time extension; none where the source has written only records whose program brings its own (R177). -/
  bit54 : Option Bool
  coarse : Bool
  holdover : Bool
  /-- How often the two flags had changed by then (R247). -/
  changes : Nat
  deriving DecidableEq, Repr

/-- One source of one stream: its sequence counter (R244) and its last time extension, none before its first record since ARM. -/
structure SrcState where
  seq : BitVec 6
  ext : Option Ext
  deriving DecidableEq, Repr

/-- What a check of a stored half finds: correct, correctable, uncorrectable (with the mark that the scrubber has reported it), or written
poison (R256, R257). -/
inductive Integ where
  | ok | ce | ue (reported : Bool) | poison
  deriving DecidableEq, Repr

/-- A half-line (R256): the record written, the bits of its code word that are inverted, in rising order (0 to 71 data, 72 to 79 check bits), and
whether the scrubber has reported the half since it was written. -/
structure Half where
  data : Rec
  flips : List (BitVec 7)
  reported : Bool
  deriving DecidableEq, Repr

/-- A half with fresh check bits. -/
def Half.fresh (r : Rec) : Half := ⟨r, [], false⟩

/-- The check bits of written poison: the correct ones XOR 0x03 (R257). -/
def poisonFlips : List (BitVec 7) := [72, 73]

def Half.poisoned : Half := ⟨Rec.pad, poisonFlips, false⟩

/-- The check of a half (R256, R257): one inverted bit is correctable, and more are not, whatever upset and injection made them (R439), but for the
pattern of written poison. That no combination passes unseen or as a single bit is R439's; which patterns a code would mistake is not modelled
(DESIGN CHOICE, assumption 74). -/
def Half.integ (h : Half) : Integ :=
  match h.flips with
  | [] => .ok
  | [_] => .ce
  | l => if l = poisonFlips then .poison else .ue h.reported

/-- A bit is inverted, or inverted back. -/
def flipBit (b : BitVec 7) : List (BitVec 7) → List (BitVec 7)
  | [] => [b]
  | x :: l => if b < x then b :: x :: l else if b = x then l else x :: flipBit b l

/-- Bits of a half are upset. -/
def Half.upset (h : Half) (bits : List (BitVec 7)) : Half := { h with flips := bits.foldl (fun l b => flipBit b l) h.flips }

/-- A request of a master for a bank of a region's store switch or for the chip interconnect (Table 1-6): the next line of writer `i`, or its lone
record with a pad; a line of a bank engine; a move, a descriptor or the read-back of the last store line of a DMA channel; a read of the host
window, with the address of its completion, the words still to read and the dwords read; a write of the host window; a line that came over a port
for a lent bank. -/
inductive Access where
  | line (i : Nat) (pad : Bool)
  | engine (g : Nat)
  | move (c : Nat)
  | fetch (c : Nat) (r : FetchResult)
  | back (c : Nat)
  | hostRead (addr w n : Nat) (got : List Dword)
  | hostWrite (w : Nat) (ds : List (BitVec 4 × Dword))
  | lent (p bank line : Nat) (r0 r1 : Rec)
  deriving DecidableEq, Repr

/-- A request that waits, for a handover or a fill to end (R262, R265), for a lane (R34) or for an older transfer (R36), with the ACLK cycle in which
it was raised. -/
structure Request where
  raised : Nat
  access : Access
  deriving DecidableEq, Repr

/-- The lanes of a region's store switch (R34): the FCLK cycle they were last used in, the lines carried in it, beyond 32 those that the next cycles
carry; the lines that each master was granted in the window; where the rotation of each tier stands. -/
structure Lanes where
  fclk : Nat
  used : Nat
  got : Tab Nat
  first : Nat
  second : Nat
  deriving DecidableEq, Repr

def Lanes.init : Lanes := ⟨0, 0, [], 0, 0⟩

/-- A bank beside its page. -/
structure BankAux where
  /-- `tclk` of the last BANK_UE record that a master's read gave (R256). -/
  ueAt : Option Nat
  /-- The scrubber's next line (R259). -/
  scrubLine : Nat
  /-- Halves of a line for which the scrubber holds a correction: line, half 0, half 1. -/
  scrubFix : Option (Nat × Bool × Bool)
  deriving DecidableEq, Repr

/-- Which of the two writers of a region. -/
inductive WriterKind where
  | capture | record
  deriving DecidableEq, Repr

/-- Loss accumulated for one cause, kind and source of a region, not yet written as a loss record (R253, R272). -/
structure Loss where
  cause : Nat
  kind : Nat
  src : Nat
  count : Nat
  first : DTime
  last : DTime
  /-- The interval has ended and the record may be written. -/
  closed : Bool
  /-- STOP or ABORT closed it. -/
  byStop : Bool
  deriving DecidableEq, Repr

/-- Records that a writer writes together: a group, or the time extension before it; with the arrival cycle of a capture record (R230). -/
structure Batch where
  arrival : Nat
  recs : List Rec
  deriving DecidableEq, Repr

/-- A writer of a region (R266 to R268). -/
structure Writer where
  /-- Groups accepted and not yet written, oldest first; a group partly written is shortened. -/
  queue : List Batch
  /-- The front group of the queue is partly written. -/
  inGroup : Bool
  /-- TCLK cycle of the last arrival or line (R267). -/
  since : Nat
  /-- The next line within the current stripe group, counted over the group's banks. -/
  line : Nat
  /-- The current stripe group. -/
  group : Nat
  /-- The writer has entered its current stripe group. -/
  entered : Bool
  /-- Group entries since ARM (R268). -/
  fills : Nat
  /-- DTIME of its freeze (R253). -/
  frozenAt : DTime
  deriving DecidableEq, Repr

def Writer.empty : Writer := ⟨[], false, 0, 0, 0, false, 0, 0⟩

/-! Qualifiers, triggers, step lanes and capture -/

/-- What a qualifier gathers in one window: the event bits and the cause latches (R205, R206). -/
structure Window where
  bits : Nat
  latch : List (Nat × DTime)
  deriving DecidableEq, Repr

def Window.empty : Window := ⟨0, []⟩

/-- A qualifier (R202 to R206). -/
structure Qual where
  /-- The last stamped edge with no gap marker since. -/
  last : Option (DTime × Bool)
  /-- The comparator level that the stamped edges show; none after a gap (R204). -/
  level : Option Bool
  /-- Odd channels: the state from which the window went INSIDE. -/
  inside : Option Nat
  cur : Window
  shown : Window
  deriving DecidableEq, Repr

def Qual.init : Qual := ⟨none, none, none, Window.empty, Window.empty⟩

/-- What one window of a region gathers beside its channels: swarm triggers (R220), TRIG_IN (R219), step frames (R226, R227) and STATE
lines (R210). -/
structure RegWin where
  swarm : Nat
  swarmT : List (Nat × DTime)
  edges : Nat
  missed : Bool
  level : Bool
  trigT : Option DTime
  frames : Nat
  aligned : Bool
  err : Bool
  discont : Bool
  hits : Nat
  hitT : List (Nat × DTime)
  states : Nat
  deriving DecidableEq, Repr

def RegWin.empty : RegWin := ⟨0, [], 0, false, false, none, 0, false, false, false, 0, [], 0⟩

/-- TRIG_IN (R218): its level, the TCLK cycle of the last stamped edge, edges on their way, each with its cycle and its stamp (none for an
edge that met a busy converter). -/
structure TrigIn where
  level : Bool
  busy : Option Nat
  pipe : List (Nat × Option DTime)
  deriving DecidableEq, Repr

/-- A trigger between its put slot and the next cycle (R212 to R214), with the cell that put it, the SEQ of the put and the sequence in its W0. -/
structure Trig where
  /-- TCLK cycle of the put slot. -/
  cycle : Nat
  region : Nat
  sq : Nat
  src : Nat
  kind : Nat
  flags : Nat
  time : DTime
  decided : DTime
  cell : Nat
  seq : Nat
  keep : Nat
  deriving DecidableEq, Repr

/-- The step values that XIN and the STEP cause kind see (R224). -/
structure StepView where
  num : Nat
  probe : BitVec 64
  boundary : Option DTime
  deriving DecidableEq, Repr

/-- What a checked frame shows from the next TCLK cycle on (R224, R226): the number and the probe bits of a frame that did not fail, the boundary,
DISCONT, the matchers it satisfied. -/
structure StepDue where
  good : Option (Nat × BitVec 64)
  boundary : DTime
  discont : Bool
  hits : Nat
  deriving DecidableEq, Repr

/-- The step lanes beside the ESL page. -/
structure Esl where
  /-- The number of the previous frame, none before the first one (R225). -/
  prev : Option Nat
  /-- The next frame is the first after START or an alignment loss, and sets no DISCONT (R225). -/
  first : Bool
  lastStart : Option DTime
  view : StepView
  due : List StepDue
  /-- When the lanes were aligned (R223). -/
  aligned : Marks
  /-- The latest complete alignment character (R223). -/
  charAt : Option DTime
  /-- Alignment was lost and has not returned (R223). -/
  lost : Bool
  /-- Recent writes of matcher registers, newest first: when, the register, the value before (R227). -/
  writes : List (DTime × Nat × Dword)
  deriving DecidableEq, Repr

def Esl.init : Esl := ⟨none, true, none, ⟨0, 0, none⟩, [], Marks.never, none, false, []⟩

/-- The trigger a segment has accepted (R230, R231). -/
structure CapTrig where
  time : DTime
  /-- The TCLK cycle that holds it. -/
  cycle : Nat
  src : Nat
  region : Nat
  sq : Nat
  swarm : Option Nat
  late : Bool
  overrun : Bool
  /-- The first post-trigger record, counted over the segment; none while there is none. -/
  first : Option Nat
  post : Nat
  deriving DecidableEq, Repr

/-- What a trigger that is offered to the capture of region `n` carries; `cycle` is the TCLK cycle of its decision. -/
structure Offer where
  time : DTime
  cycle : Nat
  region : Nat
  sq : Nat
  src : Nat
  swarm : Option Nat
  deriving DecidableEq, Repr

/-- A capture writer beside the REG page: records written to the segment, the first record of each remembered arrival cycle (newest
first), the trigger, the count of records at the segment's latest loss, the cycle and the segment of the latest natural end, the TCLK cycle
since which the input buffer has held 256 records or fewer, the cycle of the latest demotion, whether STOP or ABORT has come. -/
structure Cap where
  count : Nat
  memory : List (Nat × Nat)
  trig : Option CapTrig
  lossAt : Option Nat
  natural : Option (Nat × Nat)
  low : Option Nat
  demotedAt : Option Nat
  stopped : Bool
  /-- The segment still ends at STOP once the records before it are written (R234). -/
  stopEnd : Bool
  /-- TCLK cycle of the STOP (R234), and the one in which the current segment began (R231). -/
  stopAt : Nat
  began : Nat
  /-- A decision of this TCLK cycle ends the segment at its end (R233). -/
  jumpDue : Bool
  deriving DecidableEq, Repr

def Cap.init : Cap := ⟨0, [], none, none, none, none, none, true, false, 0, 0, false⟩

/-! Links and the swarm (chapter on swarms) -/

/-- A block of a port's stream (R281): the types of clause 49 that the Ovundan layer uses, and its two ordered sets. -/
inductive Block where
  | idle | start | terminate
  | data (w : BitVec 64)
  | alignment | timing
  deriving DecidableEq, Repr

/-- A reliable frame that has not been acknowledged: TCLK cycles of its first and its latest sending (R285). -/
structure Unacked where
  frame : Frame
  first : Nat
  sent : Nat
  deriving DecidableEq, Repr

/-- A port beside its page. -/
structure LinkSt where
  /-- SEQ of the next reliable frame, and of the last one received in order. -/
  tx : BitVec 12
  rx : BitVec 12
  unacked : List Unacked
  /-- Reliable frames that wait for room, triggers first (R286). -/
  waiting : List Frame
  /-- TCLK cycle since which a reliable frame received has had no ACK. -/
  ackDue : Option Nat
  /-- The latest values of d, newest first, at most 256 (R293). -/
  ds : List Int
  /-- A_up of the far end's latest mark (R293). -/
  aUp : Option (BitVec 64)
  /-- The offset from the parent, as the latest waggle gives it (R293). -/
  offset : Int
  /-- What the port has sent other than idle blocks and alignment markers, in order, each with its number k in the port's stream (R281). -/
  line : List (Nat × Block)
  /-- The latest HELLO. -/
  peer : Option Hello
  /-- The ordinal behind this downstream port that the queen has accepted (R288). -/
  counted : Option (BitVec 11)
  /-- The port has been JOINED since it was enabled (Table 9-9). -/
  joinedOnce : Bool
  /-- The window of 64 FCLK cycles in which the port last sent a line to a lent bank, and its lines in it (R313). -/
  lent : Nat × Nat
  deriving DecidableEq, Repr

def LinkSt.init : LinkSt := ⟨0, 0xfff, [], [], none, [], none, 0, [], none, none, false, (0, 0)⟩

/-- A downstream port that owes a reply: its TCLK cycles without progress, and since when it makes none (R299). -/
structure PortWait where
  port : Nat
  acc : Nat
  since : Option Nat
  deriving DecidableEq, Repr

/-- A swarm command whose outcome is being gathered (R298). -/
structure CmdRun where
  cmd : SwarmCmd
  /-- The part received it, and replies upstream. -/
  up : Bool
  waits : List PortWait
  reply : SwarmReply
  deriving DecidableEq, Repr

/-- The record writer of a region with a remote ring (R313): the bank asked for, with the TCLK cycle of the latest refusal. -/
structure Remote where
  asked : Option Nat
  refused : Option Nat
  /-- The lender has frozen the port (R314). -/
  frozen : Bool
  deriving DecidableEq, Repr

def Remote.init : Remote := ⟨none, none, false⟩

/-- Swarm state beside the SWARM page. -/
structure Swarm where
  /-- Filtered level of QUEEN_N that has not taken effect yet (R466). -/
  pin : Option Bool
  /-- Die identifier of the queen that the part follows. -/
  queenDie : Option (BitVec 64)
  cmdNext : BitVec 16
  eventNext : BitVec 16
  trigNext : BitVec 16
  /-- The last 64 commands, newest first, with the replies sent (R298). -/
  history : List (BitVec 16 × Option SwarmReply)
  runs : List CmdRun
  /-- Triggers and events received: origin, identifier, TCLK cycle (R303, R308). -/
  seenTriggers : List (BitVec 11 × BitVec 16 × Nat)
  seenEvents : List (BitVec 11 × BitVec 16 × Nat)
  /-- Queen: ordinals taken, but its own (R288). -/
  taken : List (BitVec 11)
  /-- Ports by which the replies to JOINs go back. -/
  routes : List (BitVec 11 × Nat)
  /-- Acquisition (R294): values of d formed, errors of the next waggles, TB epoch of the sender, whether the step is made. -/
  dCount : Nat
  errs : List Int
  epochUp : BitVec 8
  stepped : Bool
  /-- The filtered error, the su slewed towards it since the last waggle, and the waggles in a row within ±16 su (R295). -/
  filtered : Rat
  slewed : Int
  within : Nat
  /-- The acquisition step, for the ALIGNED event. -/
  stepBy : Int
  /-- The first waggle after a wake is to be compared (R310). -/
  woke : Bool
  /-- Events owed on ALIGNED (R288, R307); the part joined an engaged run (R290). -/
  joinDue : Bool
  reacquire : Bool
  engaged : Bool
  waggleNo : BitVec 32
  /-- Queen: the ARM that waits for the swarm (R300). -/
  armId : Option (BitVec 16)
  deriving DecidableEq, Repr

def Swarm.init : Swarm :=
  ⟨none, none, 0, 0, 0, [], [], [], [], [], [], 0, [], 0, false, 0, 0, 0, 0, false, false, false, false, 0, none⟩

/-! Network time (chapter on network time) -/

/-- A pending offset sample: θ in 2^-48 ns, the DTIME it was taken at, whether the host wrote it. -/
structure Offset where
  θ : Int
  time : DTime
  host : Bool
  deriving DecidableEq, Repr

/-- A domain beside its page. -/
structure Dom where
  /-- D in 2^-48 ns, modulo 2^80 (R320). -/
  d : Nat
  /-- The integrator, in 2^-40. -/
  integ : Rat
  pending : Option Offset
  /-- Time of the sample last used, none before the first one since EN, SRC, a SET or a step (R328). -/
  lastUsed : Option DTime
  /-- OFS_AT of the last host sample used (R325). -/
  lastHost : Option DTime
  /-- DTIME from which the STALE interval counts (R330). -/
  freshAt : DTime
  /-- Used samples in a row within and beyond LOCK_NS (R329). -/
  good : Nat
  bad : Nat
  /-- Member: the latest carried pairs, newest first, at most 256 (R337), and the carried VALID and LOCKED. -/
  carried : List (DTime × Nat)
  carriedValid : Bool
  carriedLocked : Bool
  deriving DecidableEq, Repr

def Dom.init : Dom := ⟨0, 0, none, none, none, 0, 0, 0, [], false, false⟩

/-! Output synthesizers -/

/-- A synthesizer beside its page. -/
structure Syn where
  /-- TCLK cycle in which the band search in progress began. -/
  search : Option Nat
  /-- The entry that the search fills in place of SLOT (R347). -/
  fill : Option Nat
  /-- The entry that the hop in progress loads, and the TCLK cycle in which it began. -/
  hop : Option (Nat × Nat)
  /-- The multiplier that the loop is locked to, in 2^-24. -/
  locked : Nat
  /-- The dither register as last loaded, the TCLK cycle of that load (R351), and the one from which the spread triangle runs (R353). -/
  dither : BitVec 24
  ditherAt : Nat
  triangle : Nat
  /-- Without the root, or since its loss, the synthesizer waits to lock again (R356). -/
  lost : Bool
  /-- Its lock was lost with the root, and the relock is to be reported (R356). -/
  relock : Bool
  /-- The boundary of the pending FREQ came while a search or a hop was in progress (Table 11-2). -/
  held : Bool
  deriving DecidableEq, Repr

def Syn.init : Syn := ⟨none, none, none, 0, 1, 0, 0, false, false, false⟩

/-- The test access port (R474 to R476): its instruction, the boundary cells' shift stage and their update stage. -/
structure Tap where
  instr : BitVec 8
  shift : BitVec 158
  drive : BitVec 158
  deriving DecidableEq, Repr

/-- An MSI-X table entry and its pending bit (Table 12-2). -/
structure MsixEntry where
  addrLo : Dword
  addrHi : Dword
  data : Dword
  masked : Bool
  pend : Bool
  deriving DecidableEq, Repr

/-- The MSI-X capability: Enable and Function Mask, and the table. -/
structure Msix where
  enable : Bool
  funcMask : Bool
  table : Tab MsixEntry
  deriving DecidableEq, Repr

/-- A fetched DMA descriptor: DW0 to DW3 (Table 12-3). -/
structure Desc where
  dw0 : Dword
  dw1 : Dword
  dw2 : Dword
  dw3 : Dword
  deriving DecidableEq, Repr

/-- A read of host data that a DMA channel issued (R379): the bytes still to come, those that came and wait for an earlier read's, and whether its
channel no longer wants them (R384). -/
structure HostRead where
  left : Nat
  got : List (BitVec 8)
  lost : Bool
  deriving DecidableEq, Repr

/-- A DMA channel beside its page. -/
structure DmaCh where
  /-- The descriptor in progress. -/
  cur : Option Desc
  /-- The descriptor fetched one ahead (R375). -/
  ahead : Option Desc
  /-- A descriptor fetch is outstanding. -/
  fetching : Bool
  /-- A doorbell arrived in or after the cycle in which the last fetch was issued (R376). -/
  dbSince : Bool
  /-- The fetch outstanding is the second one of R376. -/
  second : Bool
  /-- The next descriptor was read with OWN = 0. -/
  atEnd : Bool
  /-- The completion read-back of R381 has been issued. -/
  readback : Bool
  /-- Bytes moved of the current descriptor (COUNT). -/
  count : Nat
  poisoned : Nat
  ueRefused : Nat
  /-- The channel's access froze its engine (R387). -/
  violated : Bool
  /-- Bytes of the current descriptor read and not yet written to their destination (R369, R378, R379). -/
  buf : List (BitVec 8)
  /-- Host bytes of the current descriptor for which reads have been issued (R379). -/
  asked : Nat
  /-- The host data reads whose bytes are not all in `buf`, in the order in which they were issued. -/
  reads : List HostRead
  /-- The units of the engines' buffer that a host-to-store channel holds: of each, oldest first, the bytes not yet written (R369). -/
  units : List Nat
  /-- Descriptor fetches and completion read-backs outstanding whose completions will be discarded (R384, R385). -/
  lostFetch : Nat
  lostBack : Nat
  /-- What came while the engine was frozen and acts at its release (R387): a fetch's result; a read-back's end and DTIME; a data read failed. -/
  fetched : Option FetchResult
  backAt : Option (Completion × DTime)
  failed : Bool
  /-- TCLK cycle from which the stall timer counts (R385). -/
  since : Nat
  /-- TCLK cycle in which the channel's engine froze. -/
  frozenAt : Option Nat
  deriving DecidableEq, Repr

def DmaCh.empty : DmaCh := ⟨none, none, false, false, false, false, false, 0, 0, 0, false, [], 0, [], [], 0, 0, none, none, false, 0, none⟩

/-- Identity values of the configuration space (Table 14-7); the Device Serial Number is CHIP.DIE_ID. -/
structure PciIdentity where
  vendor : BitVec 16
  device : BitVec 16
  revision : BitVec 8
  classCode : BitVec 24
  headerType : BitVec 8
  subVendor : BitVec 16
  subsystem : BitVec 16
  deriving DecidableEq, Repr

/-- The endpoint's configuration space (R359, R424): the identity values, and what the host has programmed: Max Payload Size and Max Read Request
Size in bytes, D3hot rather than D0, the completion timeout disabled and its range, ASPM L1; and the speed and width to which the link trained. -/
structure Endpoint where
  ident : PciIdentity
  maxPayload : Nat
  maxRead : Nat
  d3hot : Bool
  timeoutOff : Bool
  timeoutRange : PciRange
  aspmL1 : Bool
  link : PciLink
  deriving DecidableEq, Repr

/-- After a reset of the endpoint: 128 and 512 bytes, D0, completion timeouts enabled in range B, no ASPM (PRESUMED from PCI Express, assumption 86),
and the link not yet trained below its best. -/
def Endpoint.init : Endpoint :=
  ⟨⟨0x1f5b, 0x0096, 0xb1, 0x118000, 0x00, 0x1f5b, 0x00f4⟩, 128, 512, false, false, .b, false, ⟨.gt16, .x4⟩⟩

/-- An RC register that has taken something in this ACLK cycle (R394): what it held before and no read has returned, what it has taken, and for PAGE_ERR
what PAGE_ERRINFO captures of the errors of this cycle alone. -/
structure Fresh where
  stood : Dword
  bits : Dword
  info : Dword
  deriving DecidableEq, Repr

/-- The service port's own logic (R455 to R457). -/
structure Svc where
  response : Dword
  mboxLo : BitVec 16
  /-- What MBOX_OUT and MBOX_IN held before the ACLK cycle in which they last changed, with the number of that cycle from 1 on (R423). -/
  outOld : Nat × Dword
  inOld : Nat × Dword
  deriving DecidableEq, Repr


/-! Channels (chapters on stamping and measurement) -/

/-- The role of a converter (R101): active, nurse or retired. -/
inductive Role where
  | active | nurse | retired
  deriving DecidableEq, Repr

/-- A converter: its role, the TCLK cycle of the edge it holds, its consecutive rejected duties, its correction table. -/
structure Conv where
  role : Role
  busy : Option Nat
  rejects : Nat
  table : CalTable
  deriving DecidableEq, Repr

/-- Which calibration of a pool is in progress (R119 to R121). -/
inductive CalRun where
  | none | initial | recal | check
  deriving DecidableEq, Repr

/-- An open gap (R107): its cause, the DTIME and the TCLK cycle of its start, the edges counted, the TCLK cycle of the last one, and
whether COARSE read 1 at any time during it. -/
structure Gap where
  cause : Nat
  start : DTime
  first : Nat
  count : Nat
  last : Nat
  coarse : Bool
  deriving DecidableEq, Repr

/-- An entry of a pool (R104): a stamp of an edge in cycle `m` that began at `tc`, with its corrected fine time, to which the channel's
offsets are added at emission (R97, R128); or a gap marker (R108). -/
inductive Entry where
  | stamp (m : Nat) (tc : DTime) (corr : Int) (rising : Bool)
  | marker (m : Nat) (cause count span : Nat) (start : DTime) (split coarse : Bool)
  deriving DecidableEq, Repr

/-- The cycle 16 cycles before an entry leaves the pool (R104, R108). -/
def Entry.cycle : Entry → Nat
  | .stamp m .. => m
  | .marker m .. => m

/-- An open sub-gate (Table 5-2). -/
structure SubGate where
  t0 : DTime
  tl : DTime
  ks : Nat
  i0 : Nat
  s1 : Int
  s2 : Int
  h : Int
  l : Int
  nh : Nat
  nl : Nat
  g : Int
  boundary : Bool
  gapBefore : Bool
  coarse : Bool
  weak : Bool
  deriving DecidableEq, Repr

/-- Pair sums of Table 5-2 that no sub-gate holds yet, or as they stood at an index edge. -/
structure PairSums where
  h : Int
  l : Int
  nh : Nat
  nl : Nat
  g : Int
  deriving DecidableEq, Repr

def PairSums.zero : PairSums := ⟨0, 0, 0, 0, 0⟩

/-- An open edge-bounded gate (R137 to R140) with its exact sums: index and stamp of its last stamped index edge, the number of stamped
index edges and the sums of R147 relative to its start stamp, the pair sums of Table 5-2 over the whole gate. -/
structure Gate where
  num : Nat
  start : DTime
  /-- The grid point that bounds it (TIME mode). -/
  grid : DTime
  newChain : Bool
  idx : Nat
  last : DTime
  m : Nat
  si : Nat
  sii : Nat
  st : Int
  sit : Int
  h : Int
  l : Int
  nh : Nat
  nl : Nat
  g : Int
  gap : Bool
  /-- The earliest decision of the gate event while the gate is open (R137). -/
  decided : Option DTime
  /-- EDGE.SEL passed both polarities throughout (R151). -/
  both : Bool
  /-- The pair sums at the last stamped index edge, where an early end ends the gate (R143, R144). -/
  kept : PairSums
  deriving DecidableEq, Repr

/-- What a pool gave an accumulator that waits for slot 0, which may lie before its time (R139). -/
inductive Early where
  | stamp (m : Nat) (t tc raw : DTime) (rising : Bool)
  | gap (m count : Nat) (start : DTime) (span : Nat)
  deriving DecidableEq, Repr

/-- A COUNT gate that has not been reported (R145): its number, its grid interval, and whether the grace shortened it. -/
structure Bucket where
  num : Nat
  lo : DTime
  hi : DTime
  trunc : Bool
  deriving DecidableEq, Repr

/-- A channel accumulator and its gates (R132 to R145). -/
structure Acc where
  sub : Option SubGate
  gate : Option Gate
  /-- Gates since START in EDGES and EVENT modes. -/
  opened : Nat
  /-- Last stamped edge of either polarity. -/
  lastEdge : Option (DTime × Bool)
  /-- A gap marker stands since the last stamped edge. -/
  gapSince : Bool
  /-- Index edges that gaps contained since the last stamped index edge (R134). -/
  skipped : Nat
  /-- The last stamped index edge with no gap marker since (PERIOD samples of R158). -/
  lastIndex : Option DTime
  /-- Pair sums, and the mark of a gap, for the sub-gate to come (Table 5-2). -/
  carry : PairSums
  carryGap : Bool
  /-- The next gate opens a chain. -/
  fresh : Bool
  /-- A grid point and its number (R138). -/
  gridNum : Nat
  gridAt : DTime
  buckets : List Bucket
  /-- Times of index edges that no COUNT result has counted, each with its number of edges (R145). -/
  times : List (DTime × Nat)
  /-- Spans of gaps, first to last cycle, for the GAP flag of COUNT results. -/
  gaps : List (DTime × DTime)
  /-- The next grid point whose result R143 owes while the channel is stuck. -/
  stuckNext : Option Nat
  /-- DTIME of START (R139), none outside a run; no gate opens then. -/
  since : Option DTime
  /-- DTIME of slot 0, the origin of the grid (R138); none before it. -/
  origin : Option DTime
  /-- TCLK cycle of the latest apply of Table 5-3 with no gate open: an edge of it or before it opens none (R140). -/
  barred : Option Nat
  /-- Entries whose time may reach slot 0, which has not come (R139, R145). -/
  early : List Early
  /-- DTIME of the STOP, after which no gate opens (R144). -/
  stopped : Option DTime
  /-- The grace has expired. -/
  graceOver : Bool
  /-- Gates ended since START, newest first: number, start, end (R235). -/
  past : List (Nat × DTime × DTime)
  deriving DecidableEq, Repr

def Acc.empty : Acc := ⟨none, none, 0, none, false, 0, none, PairSums.zero, false, true, 0, 0, [], [], [], none, none, none, none, [], none, false, []⟩

/-- A channel beside its page. -/
structure Chan where
  /-- Converters C0 to C16. -/
  convs : List Conv
  /-- TCLK cycle in which the nurse's duty in progress began. -/
  duty : Option Nat
  /-- The nurse's duty was accepted and its swap waits for the outgoing converter. -/
  accepted : Bool
  /-- The converter that held the nurse role last (R124). -/
  lastNurse : Nat
  cal : CalRun
  gap : Option Gap
  /-- Entries that have not left the pool, in edge order. -/
  pipe : List Entry
  /-- Rising edges in the ÷4 divider (R84). -/
  presc : Nat
  /-- TCLK cycle in which the stuck timer last restarted, and the DTIME of that cycle (R89, R90). -/
  timerFrom : Nat
  lastAt : DTime
  /-- The timer has expired since it restarted. -/
  expired : Bool
  /-- ECOUNT holds its value (R106). -/
  held : Bool
  /-- In a run, the pool entries still to leave that date from before its START and do not count in it (R113); none outside a run. -/
  countFrom : Option Nat
  /-- Values that registers of the page had, each by its offset, and the TCLK cycle up to which arriving edges belong to it (R86, R398);
  oldest first. -/
  olds : List (Nat × Nat × Dword)
  /-- A retirement left the pool with no nurse while DEGRADE read KEEP_NURSE, and the next one is to come (R124). -/
  awaitNurse : Bool
  /-- When the pool had A below 16 or no nurse, and when STUCK read 1 (flags DEGRADED and STUCK). -/
  weak : Marks
  stuck : Marks
  acc : Acc
  deriving DecidableEq, Repr

/-- The nominal correction table: 32 bins of 32 su, a period difference of 1 su, no offset. -/
def CalTable.nominal : CalTable := ⟨(List.range 32).map fun i => ((32 * i : Nat) : Rat), 1, 0⟩

def Conv.init : Conv := ⟨.active, none, 0, CalTable.nominal⟩

def Chan.init : Chan := ⟨List.replicate 17 Conv.init, none, false, 16, .none, none, [], 0, 0, 0, false, false, none, [], false, Marks.never, Marks.never, Acc.empty⟩

/-- A FIFO_OVF gap (R186): start, first and last TCLK cycle, edges missing, COARSE, whether it closed at its limit. -/
structure FifoGap where
  start : DTime
  first : Nat
  last : Nat
  count : Nat
  coarse : Bool
  split : Bool
  deriving DecidableEq, Repr

/-- A block stamp FIFO (R184 to R187): its entries, oldest first; bit 54 of its last time-extension entry; the open FIFO_OVF gap, closed
gaps whose pairs have not entered yet, the held time extension; the refused summaries of the present run and the first
one's time. -/
structure Fifo where
  entries : List Rec
  bit54 : Option Bool
  gap : Option FifoGap
  closed : List FifoGap
  heldExt : Option Rec
  refused : Nat
  refusedAt : DTime
  /-- TCLK cycle of the last admission, and the entries admitted in it (R184). -/
  newAt : Nat
  newCount : Nat
  deriving DecidableEq, Repr

def Fifo.empty : Fifo := ⟨[], none, none, [], none, 0, 0, 0, 0⟩

/-! Cells (chapter on the cell array) -/

/-- A word with its poison tag (R168). -/
structure Tagged where
  val : Word
  poison : Bool
  deriving DecidableEq, Repr

/-- A predicate or the carry, with its poison tag. -/
structure TaggedBit where
  val : Bool
  poison : Bool
  deriving DecidableEq, Repr

/-- A timer or counter (Table 6-1): a started timer counts down from `val`, its value in the slot at TCLK cycle `since`. -/
structure CellUnit where
  val : BitVec 36
  poison : Bool
  started : Bool
  since : Nat
  deriving DecidableEq, Repr

/-- What an instruction writes. -/
inductive Item where
  | reg (r : Nat) (v : Tagged)
  | pred (p : Nat) (v : TaggedBit)
  | carry (v : TaggedBit)
  deriving DecidableEq, Repr

/-- A cell (Table 6-1). -/
structure Cell where
  regs : Tab Tagged
  preds : Tab TaggedBit
  carry : TaggedBit
  /-- TM0, TM1, CT0, CT1. -/
  units : Tab CellUnit
  /-- Results that have not landed, oldest first, each with the TCLK cycle at whose end it lands (R170). -/
  landing : List (Nat × Item)
  /-- The TCLK cycle at whose end the cell stopped. -/
  stopAt : Option Nat
  /-- TCLK cycle of the last instruction executed. -/
  ranAt : Option Nat
  /-- The sequence number of its most recent ASSIGN put (R177). -/
  lastSeq : BitVec 6
  /-- The staging register of its instruction window, and the commits that wait for an open slot (R194). -/
  staged : BitVec 32
  patch : List (Nat × BitVec 36)
  deriving DecidableEq, Repr

def Tagged.zero : Tagged := ⟨0, false⟩
def TaggedBit.zero : TaggedBit := ⟨false, false⟩
def CellUnit.init : CellUnit := ⟨0, false, false, 0⟩
def Cell.init : Cell := ⟨[], [], TaggedBit.zero, [], [], none, none, 0, 0, []⟩

/-- An instruction word of a cell and whether its stored parity fails. -/
structure IWord where
  word : BitVec 36
  bad : Bool
  deriving DecidableEq, Repr

/-- The reset instruction is NOP (Table 6-24). -/
def IWord.init : IWord := ⟨0xfc0000000, false⟩

/-- A scratch word: value, poison tag, and whether its stored parity fails. -/
structure SWord where
  val : Word
  poison : Bool
  bad : Bool
  deriving DecidableEq, Repr

def SWord.init : SWord := ⟨0, false, false⟩

/-- An exchange channel (R180, R181): its value, and whether a stopped sender has poisoned it until ARM. -/
structure XChan where
  cur : Tagged
  dead : Bool
  deriving DecidableEq, Repr

/-- A value sent and not yet seen: the TCLK cycle from which receivers see it; `collided` where another send of its cycle met it, so that
it is never delivered (R180). -/
structure Sent where
  due : Nat
  ch : Nat
  cell : Nat
  val : Tagged
  collided : Bool
  deriving DecidableEq, Repr

/-- An SST that lands at the end of its slot. -/
structure Stored where
  cycle : Nat
  blk : Nat
  addr : Nat
  port : Nat
  val : Tagged
  deriving DecidableEq, Repr

/-- What the slot in TCLK cycle `cycle` has used: takes of each FIFO, ports (2·block + port), puts by block; and the entry each FIFO that
was taken from had as its oldest at the slot's start. -/
structure SlotUse where
  cycle : Nat
  takes : List Nat
  ports : List Nat
  puts : List Nat
  /-- Event lines driven high, as 64·region + line. -/
  lines : List Nat
  oldest : List (Nat × Option Rec)
  deriving DecidableEq, Repr

/-- A host access to a window that waits for its slot (R33, R193): a read of an instruction's LO or HI dword, in the cell's next open slot; an
access to a scratch word, in the first slot with a free port. -/
inductive HeldAccess where
  | imem (c a : Nat) (hi : Bool)
  | scratch (g w : Nat) (wr : Option Dword)
  deriving DecidableEq, Repr

/-- A bank engine's transfer beyond BLK.XFER_STATUS (R190): its direction and the next scratch address. -/
structure Engine where
  toBank : Bool
  addr : Nat
  /-- An operand or the guard of its BXFER was poisoned. -/
  poison : Bool
  deriving DecidableEq, Repr

/-- A region beside its page: the TCLK cycle of slot 0, whether it executes, whether it drains, and the cycle count at which its FIFOs,
gates and units were found done (R171). -/
structure RegionRun where
  start : Nat
  draining : Bool
  emptyAt : Option Nat
  /-- TCLK cycle of the slot at whose end it halted; none while it runs, and before its first run. -/
  haltAt : Option Nat
  /-- TCLK cycle of the last slot of the major cycle that ended last. -/
  endedAt : Option Nat
  deriving DecidableEq, Repr

def RegionRun.init : RegionRun := ⟨0, false, none, none, none⟩

/-- Sums over samples (R158). -/
structure Sums where
  n : Nat
  sum : Int
  sumSq : Int
  min : Int
  max : Int
  extra : Nat
  deriving DecidableEq, Repr

def Sums.empty : Sums := ⟨0, 0, 0, 0, 0, 0⟩

/-- A regression gate kept for PHASE (R156): its number, its grid point, its line (none where there is no such gate), its span's start
and its flags. -/
structure Fit where
  num : Nat
  grid : DTime
  line : Option (Rat × Rat)
  flags : Nat
  deriving DecidableEq, Repr

/-- A gate that has ended and waits for the edges of a second channel (R155, R157): the reference edges of a SKEW gate; whether no gate ended at its
start edge; whether it ended before its end edge, which the next gate then does not share; whether every value of its result is 0 (R143, R157), as
for a grid point of a stuck channel. -/
structure EndedGate where
  num : Nat
  start : DTime
  endT : DTime
  flags : Nat
  edges : List DTime
  first : Bool
  early : Bool
  zero : Bool
  deriving DecidableEq, Repr

/-- The running part of a measurement instance; each kind uses the fields it needs. -/
structure Inst where
  meas : Meas
  /-- Results written since START. -/
  results : Nat
  /-- INTERVAL: the arming not yet used, with its DTIME bound (none: any edge). -/
  arm : Option (Option DTime)
  /-- INTERVAL: start stamp, ignored starts and GAP of the interval in progress. -/
  started : Option (DTime × Nat × Bool)
  /-- INTERVAL: stop edges emitted in the latest emission cycle. -/
  stops : List (Nat × DTime)
  sums : Sums
  /-- The sums at the last stamped index edge of its channel, where an early end ends the gate. -/
  kept : Sums
  /-- Gaps of the channels involved whose markers have left the pools, each from its beginning to its end. -/
  gaps : List (DTime × DTime)
  /-- Start of the span of the report in progress. -/
  spanFrom : DTime
  /-- ADEV: gates of the window, as (n, D), and whether the window opens a chain. -/
  window : List (Nat × Int)
  windowFlags : Nat
  /-- PHASE: fits of the reference that wait, recent fits of the target, the latest target grid point settled. -/
  fitsA : List Fit
  fitsB : List Fit
  /-- SKEW: reference edges of the open gate, recent target edges with a mark on those taken, ended gates that wait. -/
  edgesA : List DTime
  edgesB : List (DTime × Bool)
  waiting : List EndedGate
  /-- RISE and FALL: stamp of the first crossing of the transition in progress; samples, none for a runt, each with the stamp of its later edge. -/
  crossing : Option DTime
  samples : List (Option Int × DTime)
  deriving DecidableEq, Repr

def Inst.init (m : Meas) : Inst := ⟨m, 0, none, none, [], Sums.empty, Sums.empty, [], 0, [], 0, [], [], [], [], [], none, []⟩

/-- The block: every register, memory, queue and mode that the spec gives it, and the commands that wait. -/
structure State where
  /-- The commands that wait, first in, first out. -/
  pending : List Instr
  time : Timebase
  power : Power
  run : RunCtl
  /-- Every page register, by BAR0 byte address. -/
  regs : Tab Dword
  /-- What RC registers have taken in this ACLK cycle (R394). -/
  rcNew : Tab (Option Fresh)
  /-- Shadows of buffered registers that hold a write not yet applied, by address (R396). -/
  shadows : Tab (Option Dword)
  /-- Page bases whose key is unlocked (R399). -/
  keys : Tab Bool
  /-- The journal ring, whole groups, oldest first (R407). -/
  journal : List (List Rec)
  /-- Sources of streams, by 128·stream + source; streams 0 to 7 capture, 8 to 15 record, 16 journal. -/
  streams : Tab SrcState
  /-- The store: half h of line l of bank b at 32,768·b + 2·l + h (R255). -/
  store : Tab Half
  banks : Tab BankAux
  /-- Requests that wait, in the order in which they came (R34, R36, R262). -/
  reqs : List Request
  /-- The lanes of each region's store switch (R34). -/
  lanes : Tab Lanes
  /-- Writers by region: capture at n, record at 8 + n. -/
  writers : Tab Writer
  /-- Losses not yet written, by region. -/
  losses : Tab (List Loss)
  /-- Bit n: region n records, from ARM until it halts (R426). -/
  recordingRegions : BitVec 8
  chans : Tab Chan
  /-- Stamp FIFOs: the one of local channel i in block g at 12·g + i. -/
  fifos : Tab Fifo
  cells : Tab Cell
  /-- Instruction memories: address a of cell c at 512·c + a. -/
  imem : Tab IWord
  /-- Scratch: word w of block g at 4,096·g + w. -/
  scratch : Tab SWord
  stores : List Stored
  /-- Exchange channels: region n's channel i at 64·n + i, the chip's at 512 + i. -/
  exch : Tab XChan
  sent : List Sent
  slotUse : SlotUse
  /-- Host accesses that wait for their slot, oldest first (R33, R193). -/
  heldAcc : List HeldAccess
  engines : Tab Engine
  regions : Tab RegionRun
  /-- Initial registers and predicates of cells that the image holds (R167). -/
  cellInit : List (Nat × List (BitVec 18) × BitVec 32)
  /-- The measurement instances of the image held (R131). -/
  insts : List Inst
  /-- Event lines that measurement instances name (R211): 64·region + line. -/
  lineUses : List (Nat × LineUse)
  /-- Sub-gates that closed in this TCLK cycle, each with its channel: their summaries are delivered in the next (R133). -/
  summaries : List (Nat × SubGate)
  quals : Tab Qual
  /-- The window that each region gathers, and the one it shows. -/
  winCur : Tab RegWin
  winShown : Tab RegWin
  trigIn : TrigIn
  /-- TCLK cycle from which the TRIG_OUT pulse in progress counts (R216). -/
  trigOut : Option Nat
  trigs : List Trig
  /-- Capture triggers of TRIG_IN and of the swarm that were decided in this TCLK cycle, each with the region that it is for: they are offered at its
  end, after the jumps (R231). -/
  offers : List (Nat × Offer)
  esl : Esl
  caps : Tab Cap
  /-- The open group of each block's puts (R254). -/
  openGroups : Tab (List Rec)
  links : Tab LinkSt
  remotes : Tab Remote
  swarm : Swarm
  doms : Tab Dom
  /-- Latest stamps of PPS_A and PPS_B as each domain takes them, by 2·domain + input (R326). -/
  pps : Tab (Option DTime)
  /-- The next map tick: multiples of 1,000,000 ns passed (R323). -/
  mapTicks : Nat
  syns : Tab Syn
  /-- The latest ZQ_CAL measurement, from which the output drivers are trimmed (R469). -/
  zq : Option Zq
  tap : Tap
  msix : Msix
  endpoint : Endpoint
  dma : Tab DmaCh
  /-- The DMA channels in the order in which the engines served them, the longest ago first (R369). -/
  dmaTurn : List Nat
  svc : Svc
  /-- What the part has sent out: the model's own field. -/
  out : List Out
  /-- The number of free values drawn so far: the model's own field. -/
  freeCtr : Nat
  deriving DecidableEq, Repr

/-- A half after a fill: a pad with fresh check bits (R265, R445). -/
def Half.blank : Half := Half.fresh Rec.pad

def SrcState.init : SrcState := ⟨0, none⟩
def BankAux.init : BankAux := ⟨none, 0, none⟩
def MsixEntry.init : MsixEntry := ⟨0, 0, 0, true, false⟩

/-- The machine right after power-on reset: the power-on monitor has just released reset and start-up is about to begin. -/
def State.reset : State where
  pending := []
  time := Timebase.init
  power := ⟨false, false, false, false, .held, false, [], false, false, 1, false, false, 0, false, false, false, 0, false⟩
  run := ⟨none, none, false, 0, 0, none, false, none, [], [], []⟩
  regs := []
  rcNew := []
  shadows := []
  keys := []
  journal := []
  streams := []
  store := []
  banks := []
  reqs := []
  lanes := []
  writers := []
  losses := []
  recordingRegions := 0
  chans := []
  fifos := []
  cells := []
  imem := []
  scratch := []
  stores := []
  exch := []
  sent := []
  slotUse := ⟨0, [], [], [], [], []⟩
  heldAcc := []
  engines := []
  regions := []
  cellInit := []
  insts := []
  lineUses := []
  summaries := []
  quals := []
  winCur := []
  winShown := []
  trigIn := ⟨false, none, []⟩
  trigOut := none
  trigs := []
  offers := []
  esl := Esl.init
  caps := []
  openGroups := []
  links := []
  remotes := []
  swarm := Swarm.init
  doms := []
  pps := []
  mapTicks := 0
  syns := []
  zq := none
  tap := ⟨1, 0, 0⟩
  msix := ⟨false, false, []⟩
  endpoint := Endpoint.init
  dma := []
  dmaTurn := [0, 1, 2, 3, 4, 5, 6, 7]
  svc := ⟨0, 0, (0, 0), (0, 0)⟩
  out := []
  freeCtr := 0

end Sys2Proof.Machine
end

