-- ==== Sys2Proof/Machine/Ops.lean ====
section
/-! DEFINITION. The named operations every unit uses: registers and their fields, page status, errors and interrupts (R394, R395), the journal
(R407 to R410), streams and record groups (R242 to R251), losses (R253, R272), free values. -/
namespace Sys2Proof.Machine
open Sys2Proof

/-! Registers -/

/-- The register at a BAR0 address. -/
def State.rd (s : State) (a : Nat) : Dword := Tab.get resetOf s.regs a

/-- Sets the register at a BAR0 address. -/
def State.wr (s : State) (a : Nat) (v : Dword) : State := { s with regs := Tab.set resetOf s.regs a v }

/-- A field of the page at `base`. -/
def State.fld (s : State) (base : Nat) (f : Fld) : Nat := getBits (s.rd (base + f.off)) f.lo f.width

/-- Sets a field of the page at `base`. -/
def State.setFld (s : State) (base : Nat) (f : Fld) (v : Nat) : State :=
  s.wr (base + f.off) (setBits (s.rd (base + f.off)) f.lo f.width v)

/-- A one-bit field as a Bool. -/
def State.bit (s : State) (base : Nat) (f : Fld) : Bool := s.fld base f == 1

def State.setBit (s : State) (base : Nat) (f : Fld) (b : Bool) : State := s.setFld base f (b2n b)

/-- Adds to a counter that saturates. -/
def State.addSat (s : State) (base : Nat) (f : Fld) (n : Nat) : State :=
  s.setFld base f (sat f.width (s.fld base f + n))

/-- Adds to a counter that wraps. -/
def State.addWrap (s : State) (base : Nat) (f : Fld) (n : Nat) : State := s.setFld base f (s.fld base f + n)

/-- A 64-bit value held as a _LO, _HI pair; `f` is the _LO register (R403). -/
def State.pair (s : State) (base : Nat) (f : Fld) : Nat :=
  (s.rd (base + f.off + 4)).toNat * 2 ^ 32 + (s.rd (base + f.off)).toNat

def State.setPair (s : State) (base : Nat) (f : Fld) (v : Nat) : State :=
  (s.wr (base + f.off) (BitVec.ofNat 32 v)).wr (base + f.off + 4) (BitVec.ofNat 32 (v / 2 ^ 32))

abbrev chipPage : Nat := 0x000000
abbrev tbPage : Nat := 0x002000
abbrev jrnlPage : Nat := 0x00c000
abbrev svcPage : Nat := 0x00d000
abbrev swarmPage : Nat := 0x014000
abbrev eslPage : Nat := 0x015000
abbrev dmaPage : Nat := 0x018000
def synPage (i : Nat) : Nat := 0x003000 + i * 0x1000
def domPage (d : Nat) : Nat := 0x00a000 + d * 0x1000
def linkPage (p : Nat) : Nat := 0x010000 + p * 0x1000
def dmacPage (c : Nat) : Nat := 0x019000 + c * 0x1000
def chPage (k : Nat) : Nat := 0x100000 + k * 0x1000
def regPage (n : Nat) : Nat := 0x200000 + n * 0x1000
def blkPage (g : Nat) : Nat := 0x210000 + g * 0x1000
def bankPage (b : Nat) : Nat := 0x300000 + b * 0x1000

/-- Device time now. -/
def State.now (s : State) : DTime := s.time.dtime

/-- The signed difference of two times, in su. -/
def dt (a b : DTime) : Int := (a - b).toInt

/-- One nanosecond is 1,024 su (R5). -/
def ns (n : Nat) : DTime := BitVec.ofNat 64 (1024 * n)

/-- The epoch of a time near now: the one in force, or its neighbour where the wrap of R53 lies between (R100). -/
def State.epochOf (s : State) (t : DTime) : Nat :=
  let e := s.fld tbPage TB.EPOCH_VALUE + b2n s.time.wrapDue
  (if dt t s.now < 0 ∧ s.now.toNat < t.toNat then e + 255 else if 0 < dt t s.now ∧ t.toNat < s.now.toNat then e + 1 else e) % 256

/-- A condition that holds now, or not, is noted at `t`. -/
def Marks.note (m : Marks) (b : Bool) (t : DTime) : Marks :=
  match m.since with
  | none => if b then ⟨some t, m.past⟩ else m
  | some u => if b then m else ⟨none, (u, t) :: m.past⟩

/-- The condition held at some time from `a` to `b`; `live` tells whether it holds at `now`. -/
def Marks.meets (m : Marks) (live : Bool) (now a b : DTime) : Bool :=
  (m.past.any fun p => decide (dt p.1 b ≤ 0 ∧ dt a p.2 ≤ 0))
    || (match m.since with
        | some u => decide (dt u b ≤ 0) && (live || decide (dt a now ≤ 0))
        | none => live && decide (dt now b ≤ 0))

/-- How often the condition has begun or ended, the change to what holds now included. -/
def Marks.changes (m : Marks) (live : Bool) : Nat := 2 * m.past.length + b2n m.since.isSome + b2n (m.since.isSome != live)

def State.coarse (s : State) : Bool := s.bit tbPage TB.live_COARSE
/-- The part is in holdover (R306): SWARM.STATE.ALIGN reads HOLDOVER. -/
def State.holdover (s : State) : Bool := s.fld swarmPage SWARM.STATE_ALIGN == 3

def State.modTime (s : State) (f : Timebase → Timebase) : State := { s with time := f s.time }

/-- How often COARSE and the holdover state have changed (R247). -/
def State.flagChanges (s : State) : Nat := s.time.coarse.changes s.coarse + s.time.hold.changes s.holdover

/-- Sets COARSE, and notes it. -/
def State.setCoarse (s : State) (b : Bool) : State :=
  (s.setBit tbPage TB.live_COARSE b).modTime fun x => { x with coarse := x.coarse.note b x.dtime }

/-- Sets SWARM.STATE.ALIGN, and notes whether the part is in holdover. -/
def State.setAlign (s : State) (v : Nat) : State :=
  let s := s.setFld swarmPage SWARM.STATE_ALIGN v
  s.modTime fun x => { x with hold := x.hold.note s.holdover x.dtime }

/-- A free value: nothing constrains it, and each draw is a new one. -/
def State.free (s : State) : BitVec 64 := Config.freeValue s.freeCtr
def State.drawn (s : State) : State := { s with freeCtr := s.freeCtr + 1 }

def State.send (s : State) (o : Out) : State := { s with out := s.out ++ [o] }

def State.cell (s : State) (c : Nat) : Cell := Tab.get (fun _ => Cell.init) s.cells c
def Cell.reg (x : Cell) (r : Nat) : Tagged := Tab.get (fun _ => Tagged.zero) x.regs r

def State.dmaCh (s : State) (c : Nat) : DmaCh := Tab.get (fun _ => DmaCh.empty) s.dma c
def State.setDmaCh (s : State) (c : Nat) (x : DmaCh) : State := { s with dma := Tab.set (fun _ => DmaCh.empty) s.dma c x }

/-! Interrupts -/

/-- A page's interrupt request (R395). -/
def State.irqReq (s : State) (base : Nat) : Bool :=
  let st := s.rd (base + 0x008)
  let er := s.rd (base + 0x010)
  let en := s.rd (base + 0x028)
  let vec := s.rd (base + 0x02c)
  (getBits st 0 16 &&& getBits en 0 16) != 0 || (getBits er 0 16 &&& getBits en 16 16) != 0
    || (getBits vec 16 1 == 1 && getBits st 16 16 != 0) || (getBits vec 17 1 == 1 && getBits er 16 16 != 0)

def State.msixGet (s : State) (v : Nat) : MsixEntry := Tab.get (fun _ => MsixEntry.init) s.msix.table v
def State.msixSet (s : State) (v : Nat) (e : MsixEntry) : State :=
  { s with msix := ⟨s.msix.enable, s.msix.funcMask, Tab.set (fun _ => MsixEntry.init) s.msix.table v e⟩ }

/-- Signals a vector: a masked vector sets its pending bit; while MSI-X Enable or Function Mask stops messages none is
sent (R367). -/
def State.signal (s : State) (v : Nat) : State :=
  let e := s.msixGet v
  if e.masked then s.msixSet v ⟨e.addrLo, e.addrHi, e.data, e.masked, true⟩
  else if s.msix.enable && !s.msix.funcMask then s.send (.msix v (e.addrHi.toNat * 2 ^ 32 + e.addrLo.toNat) e.data)
  else s

/-- The pending message of a vector that is not masked is sent, unless MSI-X Enable or Function Mask stops messages (R367). -/
def State.msixSend (s : State) (v : Nat) : State :=
  let e := s.msixGet v
  if e.pend && !e.masked && s.msix.enable && !s.msix.funcMask then
    (s.msixSet v { e with pend := false }).send (.msix v (e.addrHi.toNat * 2 ^ 32 + e.addrLo.toNat) e.data)
  else s

/-- A vector is unmasked. -/
def State.msixUnmask (s : State) (v : Nat) : State := (s.msixSet v { s.msixGet v with masked := false }).msixSend v

/-- The host sets MSI-X Enable and Function Mask; when messages resume, those of the unmasked vectors are sent (R367). -/
def State.msixControl (s : State) (enable funcMask : Bool) : State :=
  (List.range 64).foldl State.msixSend { s with msix := ⟨enable, funcMask, s.msix.table⟩ }

/-- Does `g`, and sends the page's message when its request becomes active (R395). -/
def State.withIrq (s : State) (base : Nat) (g : State → State) : State :=
  let t := g s
  if !s.irqReq base && t.irqReq base then t.signal (t.fld base PG.IRQ_VEC_VECTOR) else t

/-- What an RC register has taken in this ACLK cycle. -/
def State.freshOf (s : State) (a : Nat) : Fresh := (Tab.get (fun _ => none) s.rcNew a).getD ⟨s.rd a, 0, 0⟩
def State.setFresh (s : State) (a : Nat) (x : Fresh) : State := { s with rcNew := Tab.set (fun _ => none) s.rcNew a (some x) }

/-- Sets a field of an RC register: a read in this ACLK cycle does not return it (R394). -/
def State.setRc (s : State) (base : Nat) (f : Fld) (v : Nat) : State :=
  let x := s.freshOf (base + f.off)
  (s.setFresh (base + f.off) { x with bits := setBits x.bits f.lo f.width v }).setFld base f v

/-- Sets a bit of PAGE_STATUS. -/
def State.post (s : State) (base : Nat) (f : Fld) : State := s.withIrq base (·.setRc base f 1)

/-- PAGE_ERRINFO after one more occurrence: it captures the first and notes that others followed (R394). -/
def errInfo (old : Dword) (f : Fld) (off agent : Nat) : Dword :=
  if getBits old PG.ERRINFO_VALID.lo 1 = 1 then setBits old PG.ERRINFO_MORE.lo 1 1
  else BitVec.ofNat 32 (f.lo + 2 ^ 5 + off % 2 ^ 12 * 2 ^ 8 + agent % 4 * 2 ^ 20)

/-- One occurrence of an error: its PAGE_ERR bit, and PAGE_ERRINFO, also of this cycle alone (R394). -/
def State.raiseAt (s : State) (base : Nat) (f : Fld) (off : Nat) (agent : Nat) : State :=
  s.withIrq base fun s =>
    let s := s.setRc base f 1
    let x := s.freshOf (base + 0x010)
    let s := s.setFresh (base + 0x010) { x with info := errInfo x.info f off agent }
    s.wr (base + 0x014) (errInfo (s.rd (base + 0x014)) f off agent)

/-- The codes of agents (R249). -/
def agentCode : Agent → Nat
  | .pcie => 0
  | .svc => 1
  | .swarm => 2
  | .internal => 3

/-- An error that no access caused: OFFSET 0 (Table 13-2). -/
def State.raise (s : State) (base : Nat) (f : Fld) : State := s.raiseAt base f 0 3

/-- An error that a write of the page's register `off` caused. -/
def State.raiseWrite (s : State) (base : Nat) (f : Fld) (off : Nat) (a : Agent) : State := s.raiseAt base f off (agentCode a)

/-! Streams and groups -/

def streamCap (n : Nat) : Nat := n
def streamRec (n : Nat) : Nat := 8 + n
def streamJournal : Nat := 16

def State.src (s : State) (st src : Nat) : SrcState := Tab.get (fun _ => SrcState.init) s.streams (128 * st + src)
def State.setSrc (s : State) (st src : Nat) (x : SrcState) : State :=
  { s with streams := Tab.set (fun _ => SrcState.init) s.streams (128 * st + src) x }

/-- W0 of a record (R242). -/
def w0 (ty src : Nat) (flag : Bool) (seq : Nat) : Word := BitVec.ofNat 18 (ty * 2 ^ 14 + src % 128 * 2 ^ 7 + b2n flag * 2 ^ 6 + seq % 64)

/-- A word of a number: its bits [lo + 17 : lo]. -/
def wordAt (v lo : Nat) : Word := BitVec.ofNat 18 (v >>> lo)

/-- A head that carries DTIME bits [53:0] (R242). -/
def headRec (ty src : Nat) (flag : Bool) (seq : Nat) (t : DTime) : Rec :=
  ⟨w0 ty src flag seq, wordAt t.toNat 36, wordAt t.toNat 18, wordAt t.toNat 0⟩

/-- Words W1 to W3 of a continuation. -/
structure Cont where
  w1 : Nat
  w2 : Nat
  w3 : Nat
  deriving DecidableEq, Repr

/-- The continuations of a group: the last carries W0[6] = 1 (R243). -/
def contRecs (src seq : Nat) : List Cont → List Rec
  | [] => []
  | c :: r => ⟨w0 0xf src r.isEmpty seq, wordAt c.w1 0, wordAt c.w2 0, wordAt c.w3 0⟩ :: contRecs src seq r

/-- The time-extension record of a source (R247, Table 8-3). -/
def extRec (src seq epoch : Nat) (t : DTime) (cause : Nat) (coarse hold : Bool) : Rec :=
  ⟨w0 1 src false seq, BitVec.ofNat 18 (epoch * 2 ^ 10 + t.toNat / 2 ^ 54), BitVec.ofNat 18 (cause + b2n coarse * 4 + b2n hold * 8), 0⟩

/-- COARSE or the holdover state has changed since a time extension, be it back to what that said (R247). -/
def State.flagsMoved (s : State) (x : Ext) : Bool := x.coarse != s.coarse || x.holdover != s.holdover || x.changes != s.flagChanges

/-- What a time extension written now, before a record of time `t`, says. -/
def State.extNow (s : State) (t : DTime) : Ext := ⟨some (bitOf t.toNat 54), s.coarse, s.holdover, s.flagChanges⟩

/-- The cause of the time extension a source needs before a record of time `t`; none when it needs none (R54, R247). -/
def State.extCause (s : State) (e : Option Ext) (t : DTime) : Option Nat :=
  match e with
  | none => some 0
  | some x => if x.bit54 = none then some 0 else if x.bit54 ≠ some (bitOf t.toNat 54) then some 1 else if s.flagsMoved x then some 2 else none

/-- The time extension that a head of time `t` makes a stream write before it, and the state after (R54, R247). -/
def State.extBefore (s : State) (st src : Nat) (t : DTime) : List Rec × State :=
  let x := s.src st src
  match s.extCause x.ext t with
  | none => ([], s)
  | some c =>
    ([extRec src x.seq.toNat (s.epochOf t) t c s.coarse s.holdover], s.setSrc st src ⟨x.seq + 1, some (s.extNow t)⟩)

/-- Takes the time extension a source needs, and one sequence number, from a stream: the records that precede the head, the head's
number, and the state after (R54, R244, R247). -/
def State.takeSeq (s : State) (st src : Nat) (t : DTime) : List Rec × Nat × State :=
  let x := s.src st src
  match s.extCause x.ext t with
  | none => ([], x.seq.toNat, s.setSrc st src ⟨x.seq + 1, x.ext⟩)
  | some c =>
    ([extRec src x.seq.toNat (s.epochOf t) t c s.coarse s.holdover], (x.seq + 1).toNat,
      s.setSrc st src ⟨x.seq + 2, some (s.extNow t)⟩)

/-- Record lists as groups that a writer writes together; empty ones fall away. -/
def batches (arrival : Nat) (l : List (List Rec)) : List Batch := (l.filter fun g => !g.isEmpty).map (Batch.mk arrival)

/-- A whole group of a stream, with any time extension before it as a group of its own. -/
def State.formGroup (s : State) (st ty src : Nat) (flag : Bool) (t : DTime) (cs : List Cont) : List (List Rec) × State :=
  match s.takeSeq st src t with
  | (pre, seq, s) => ([pre, headRec ty src flag seq t :: contRecs src seq cs], s)

/-! The two writers of a region -/

def State.writer (s : State) (i : Nat) : Writer := Tab.get (fun _ => Writer.empty) s.writers i
def State.setWriter (s : State) (i : Nat) (w : Writer) : State :=
  { s with writers := Tab.set (fun _ => Writer.empty) s.writers i w }

def WriterKind.idx (k : WriterKind) (n : Nat) : Nat :=
  match k with
  | .capture => n
  | .record => 8 + n

/-- Records that a writer holds and has not yet written. -/
def Writer.held (w : Writer) : Nat := w.queue.foldl (fun a g => a + g.recs.length) 0

def State.cap (s : State) (n : Nat) : Cap := Tab.get (fun _ => Cap.init) s.caps n
def State.setCap (s : State) (n : Nat) (c : Cap) : State := { s with caps := Tab.set (fun _ => Cap.init) s.caps n c }

/-! Losses -/

def State.lossesOf (s : State) (n : Nat) : List Loss := Tab.get (fun _ => []) s.losses n
def State.setLosses (s : State) (n : Nat) (l : List Loss) : State := { s with losses := Tab.set (fun _ => []) s.losses n l }

/-- Merges `count` records of one cause, kind and source into the loss of that cause, kind and source which is not yet written; one whose interval
had ended is open again (R253, R272). -/
def addLoss (cause kind src count : Nat) (t : DTime) : List Loss → List Loss
  | [] => [⟨cause, kind, src, sat 36 count, t, t, false, false⟩]
  | l :: r =>
    if l.cause = cause ∧ l.kind = kind ∧ l.src = src then ⟨cause, kind, src, sat 36 (l.count + count), l.first, t, false, false⟩ :: r
    else l :: addLoss cause kind src count t r

/-- A loss of region `n` lies at the records that its segment has taken so far (R270). -/
def State.markLoss (s : State) (n : Nat) : State := s.setCap n { s.cap n with lossAt := some ((s.cap n).count + (s.writer n).held) }

/-- SWARM.REMOTE_RING of region `n`: EN, PORT, FIRST and COUNT (R312). -/
def remoteEn (n : Nat) : Fld := ⟨0x7c + 4 * n, 0, 1⟩
def remotePort (n : Nat) : Fld := ⟨0x7c + 4 * n, 1, 2⟩
def remoteFirst (n : Nat) : Fld := ⟨0x7c + 4 * n, 3, 8⟩
def remoteCount (n : Nat) : Fld := ⟨0x7c + 4 * n, 11, 6⟩

/-- The record writer of region `n` has a remote ring (R312). -/
def State.remote (s : State) (n : Nat) : Bool := s.bit swarmPage (remoteEn n)

/-- The record writer of region `n` has a ring, local or remote (R268). -/
def State.hasRing (s : State) (n : Nat) : Bool := s.fld (regPage n) REG.REC_RING_COUNT != 0 || s.remote n

/-- Counts records lost by region `n`: in its open loss and in REG.LOST (R272). Where the record writer has no ring, the loss record is a record
that waits, and the writer shows as stalled (R268; DEDUCED, assumption 81). -/
def State.lose (s : State) (n cause kind src count : Nat) : State :=
  let s := (s.setLosses n (addLoss cause kind src count s.now (s.lossesOf n))).setPair (regPage n) REG.LOST_LO
    (s.pair (regPage n) REG.LOST_LO + count)
  (if s.hasRing n then s else s.setBit (regPage n) REG.live_REC_STALLED true).markLoss n

/-- Closes the losses that `p` picks. -/
def State.closeLosses (s : State) (n : Nat) (byStop : Bool) (p : Loss → Bool) : State :=
  if (s.lossesOf n).any fun l => !l.closed && p l then
    (s.setLosses n ((s.lossesOf n).map fun l =>
      if !l.closed && p l then ⟨l.cause, l.kind, l.src, l.count, l.first, s.now, true, byStop⟩ else l)).markLoss n
  else s

/-- The kind of loss that counts a record of this type (Table 8-9). -/
def lossKind (ty : Nat) : Nat := if ty = 2 then 0 else if ty = 3 then 1 else 2

/-- A master released through a page is frozen: `bit` of its PAGE_FREEZE (Table 13-4). -/
def State.isFrozen (s : State) (base bit : Nat) : Bool := getBits (s.rd (base + 0x024)) bit 1 == 1

/-! Put queues and rings -/

/-- The open group of block `g` (R254). -/
def State.openGroup (s : State) (g : Nat) : List Rec := Tab.get (fun _ => []) s.openGroups g
def State.setOpen (s : State) (g : Nat) (l : List Rec) : State := { s with openGroups := Tab.set (fun _ => []) s.openGroups g l }

/-- Records of open groups of a region's blocks, which wait in its put queue (R254). -/
def State.openHeld (s : State) (n : Nat) : Nat :=
  ((s.openGroups.filter fun p => decide (p.1 / 8 = n)).map fun p => p.2.length).foldl (· + ·) 0

/-- Records in the put queue of region `n`. -/
def State.putHeld (s : State) (n : Nat) : Nat := (s.writer (8 + n)).held + s.openHeld n

/-- Shows the levels of a region's capture buffer and put queue in REG.LEVELS (Table 8-16). -/
def State.showLevels (s : State) (n : Nat) : State :=
  (s.setFld (regPage n) REG.LEVELS_CAP_BUF (s.writer n).held).setFld (regPage n) REG.LEVELS_PUTQ (s.putHeld n)

/-- The record writer of region `n` is frozen, by its own switch or by the lender of its remote ring (R401, R314). -/
def State.recFrozen (s : State) (n : Nat) : Bool := s.isFrozen (regPage n) 9 || (Tab.get (fun _ => Remote.init) s.remotes n).frozen

/-- A region records from ARM until it halts (R426). -/
def State.recording (s : State) (n : Nat) : Bool := s.recordingRegions.getLsbD n

/-- Puts groups into the queue of writer `i`. -/
def State.pushWriter (s : State) (i arrival : Nat) (g : List (List Rec)) : State :=
  let w := s.writer i
  s.setWriter i { w with queue := w.queue ++ batches arrival g, since := s.time.tclk }

/-- Hands formed groups to the record writer of region `n`. -/
def State.enqueueRec (s : State) (n : Nat) (g : List (List Rec)) : State := (s.pushWriter (8 + n) s.time.tclk g).showLevels n

/-- Records that a head of time `t` makes a stream write before it: a time extension or none. -/
def State.extNeed (s : State) (st src : Nat) (t : DTime) : Nat := b2n (s.extCause (s.src st src).ext t).isSome

/-- Records that a region's own units hand to its record writer: refused under RING_FULL when they find no room or no ring, and under
FROZEN while the writer is frozen (R253, R268, R434). -/
def State.unitGroup (s : State) (n ty src : Nat) (flag : Bool) (t : DTime) (cs : List Cont) : State :=
  if s.recording n then
    if s.recFrozen n then s.lose n 4 (lossKind ty) (104 + n) (1 + cs.length)
    else if !s.hasRing n || decide (256 < s.putHeld n + s.extNeed (streamRec n) src t + 1 + cs.length) then s.lose n 2 (lossKind ty) (104 + n) (1 + cs.length)
    else
      match s.formGroup (streamRec n) ty src flag t cs with
      | (g, s) => s.enqueueRec n g
  else s

/-- The record writer of region `n` takes a group of `len` records whose head names source `src` and time `t`. -/
def State.takesGroup (s : State) (n src : Nat) (t : DTime) (len : Nat) : Bool :=
  s.recording n && !s.recFrozen n && s.hasRing n && decide (s.putHeld n + s.extNeed (streamRec n) src t + len ≤ 256)

/-! The journal -/

def recsOf (j : List (List Rec)) : Nat := j.foldl (fun a g => a + g.length) 0

/-- Drops the oldest whole groups until at most `room` records remain. -/
def dropGroups (room : Nat) : List (List Rec) → List (List Rec)
  | [] => []
  | g :: r => if recsOf (g :: r) ≤ room then g :: r else dropGroups room r

/-- Appends a group to the ring of 4,096 records; the oldest whole groups give way (R407). -/
def State.journalAppend (s : State) (g : List Rec) : State :=
  let kept := dropGroups (4096 - g.length) s.journal
  let lost := kept.length < s.journal.length
  let s := { s with journal := kept ++ [g] }
  let s := s.addWrap jrnlPage JRNL.WR_COUNT g.length
  let s := s.setFld jrnlPage JRNL.OLDEST (s.fld jrnlPage JRNL.WR_COUNT + 2 ^ 32 - recsOf s.journal)
  if lost then s.post jrnlPage JRNL.st_OVERWRITE else s

/-- Appends a group that has a time extension before it: the extension is a group of its own (R407). -/
def State.journalGroups (s : State) (pre g : List Rec) : State :=
  if pre.isEmpty then s.journalAppend g else (s.journalAppend pre).journalAppend g

/-- Enters a group in the journal, and in the record stream of region 0 when the copy is enabled (R407, R409). -/
def State.journalGroup (s : State) (ty src : Nat) (flag : Bool) (t : DTime) (cs : List Cont) : State :=
  match s.takeSeq streamJournal src t with
  | (pre, seq, s) =>
    let s := s.journalGroups pre (headRec ty src flag seq t :: contRecs src seq cs)
    if s.bit jrnlPage JRNL.CTRL_COPY_EN then s.unitGroup 0 ty src flag t cs else s

/-- Journal KIND codes (Table 13-6). -/
inductive JKind where
  | command | state | write | shadow | apply | handover | freeze | release | load | dtimeStep | timebase | patch | capture | unitEvent
  deriving DecidableEq, Repr

def JKind.code : JKind → Nat
  | .command => 1
  | .state => 2
  | .write => 3
  | .shadow => 4
  | .apply => 5
  | .handover => 6
  | .freeze => 7
  | .release => 8
  | .load => 9
  | .dtimeStep => 10
  | .timebase => 11
  | .patch => 12
  | .capture => 13
  | .unitEvent => 14

/-- Journal OUTCOME codes (Table 13-7). -/
inductive JOut where
  | done | shadowed | pending | duplicate | stateErr | keyfail | busyReject | encoding | clamped | refused | before | after | conflict
  deriving DecidableEq, Repr

def JOut.code : JOut → Nat
  | .done => 0
  | .shadowed => 1
  | .pending => 2
  | .duplicate => 3
  | .stateErr => 4
  | .keyfail => 5
  | .busyReject => 6
  | .encoding => 7
  | .clamped => 8
  | .refused => 9
  | .before => 10
  | .after => 11
  | .conflict => 12

/-- Outcomes for which the head's W0[6] is 1: no effect (Table 13-7). -/
def JOut.noEffect : JOut → Bool
  | .duplicate | .stateErr | .keyfail | .busyReject | .encoding | .refused | .conflict => true
  | _ => false

/-- A journal entry stamped `t` (R249, Table 8-4). -/
def State.journalAt (s : State) (t : DTime) (k : JKind) (a : Agent) (id off : Nat) (o : JOut) (v : Nat) : State :=
  s.journalGroup 8 122 o.noEffect t
    [⟨k.code * 2 ^ 12 + agentCode a * 2 ^ 10 + b2n s.coarse * 2 ^ 9 + b2n s.holdover * 2 ^ 8 + id % 256, off / 2 ^ 18 % 64, off⟩,
     ⟨o.code * 2 ^ 14, v / 2 ^ 18 % 2 ^ 14, v⟩]

/-- A journal entry stamped now. -/
def State.entry (s : State) (k : JKind) (a : Agent) (off : Nat) (o : JOut) (v : Nat) : State := s.journalAt s.now k a 0 off o v

/-- The entry of an event of a unit: the value its PAGE_STATUS holds after the event (Table 13-6, UNIT_EVENT). -/
def State.unitEvent (s : State) (base : Nat) : State :=
  s.entry .unitEvent .internal (base + 0x008) .done (s.rd (base + 0x008)).toNat

/-! Error records -/

/-- The continuation of an error record (R250). -/
def errCont (cause unit detail : Nat) (coarse hold : Bool) : Cont :=
  ⟨cause * 2 ^ 10 + unit % 2 ^ 10, b2n coarse * 2 ^ 17 + b2n hold * 2 ^ 16 + detail / 2 ^ 18 % 2 ^ 16, detail⟩

/-- Raises a type-0x9 group: the journal holds every one, and the region's record stream one while the region records (R426).
`n` is the region that writes it, none for an error the chip itself caused. -/
def State.errorAt (s : State) (t : DTime) (n : Option Nat) (src cause unit detail : Nat) (stopped : Bool) : State :=
  let cs := [errCont cause unit detail s.coarse s.holdover]
  let s := s.journalGroup 9 src stopped t cs
  match n with
  | some n => s.unitGroup n 9 src stopped t cs
  | none => s

def State.error (s : State) (n : Option Nat) (src cause unit detail : Nat) (stopped : Bool) : State :=
  s.errorAt s.now n src cause unit detail stopped

/-! Freezes (R400, R401) -/

/-- Freezes a master shown at bit `bit` of PAGE_FREEZE.FROZEN of the page at `base`; one already frozen keeps its first freeze. A
release in this ACLK cycle applies before the freeze (R435). -/
def State.freeze (s : State) (base bit : Nat) : State :=
  if getBits (s.rd (base + 0x024)) bit 1 = 1 then s
  else (s.setRc base ⟨0x024, bit, 1⟩ 1).entry .freeze .internal (base + 0x024) .done (2 ^ bit)


end Sys2Proof.Machine
end

