-- ==== Sys2Proof/Machine/Ring.lean ====
section
/-! DEFINITION. The writers' rings: banks and lines of a stripe group, segments, where a writer's next line goes (R229, R266, R268, R276). -/
namespace Sys2Proof.Machine
open Sys2Proof

/-! Rings (R229, R266) -/

/-- First local bank, number of banks and stripe width of the ring of writer `i` (captures at n, records at 8 + n). -/
def State.ring (s : State) (i : Nat) : Nat × Nat × Nat :=
  let p := regPage (i % 8)
  if i < 8 then (s.fld p REG.CAP_RING_FIRST, s.fld p REG.CAP_RING_COUNT, max 1 (s.fld p REG.CAP_STRIPE_STRIPE))
  else (s.fld p REG.REC_RING_FIRST, s.fld p REG.REC_RING_COUNT, max 1 (s.fld p REG.REC_RING_STRIPE))

/-- Lines of a stripe group. -/
def groupLines (w : Nat) : Nat := 16384 * w

/-- Bank and line of line `m` of stripe group `g` (R266). -/
def State.place (s : State) (i g m : Nat) : Nat × Nat :=
  let r := s.ring i
  (32 * (i % 8) + (r.1 + g * r.2.2 + m % r.2.2) % 32, m / r.2.2)

/-- Banks of a stripe group. -/
def State.groupBanks (s : State) (i g : Nat) : List Nat :=
  let r := s.ring i
  (List.range r.2.2).map fun j => 32 * (i % 8) + (r.1 + g * r.2.2 + j) % 32

def State.capMode (s : State) (n : Nat) : Nat := s.fld (regPage n) REG.CAP_CTRL_MODE
/-- SINGLE or SEGMENTED. -/
def State.segMode (s : State) (n : Nat) : Bool := decide (2 ≤ s.capMode n)
/-- N and R of R229. -/
def State.segments (s : State) (n : Nat) : Nat := if s.capMode n = 3 then s.fld (regPage n) REG.CAP_CTRL_NSEG_M1 + 1 else 1
def State.segLen (s : State) (n : Nat) : Nat := 2 * (s.fld (regPage n) REG.CAP_RING_COUNT * 16384 / s.segments n)

def State.capPhase (s : State) (n : Nat) : Nat := s.fld (regPage n) REG.CAP_STATUS_PHASE
def State.setPhase (s : State) (n v : Nat) : State := s.setFld (regPage n) REG.CAP_STATUS_PHASE v
def State.capSeg (s : State) (n : Nat) : Nat := s.fld (regPage n) REG.CAP_STATUS_SEGMENT

/-- The record writer of writer number `i` fills lent banks (R312). -/
def State.remoteRing (s : State) (i : Nat) : Bool := decide (8 ≤ i) && s.remote (i - 8)

/-- Stripe groups of the ring of writer `i`; of a remote ring, its banks (R266, R312). -/
def State.ringGroups (s : State) (i : Nat) : Nat :=
  if s.remoteRing i then s.fld swarmPage (remoteCount (i - 8)) else (s.ring i).2.1 / (s.ring i).2.2

/-- The stripe group that writer `i` enters next. -/
def State.nextGroup (s : State) (i : Nat) : Nat :=
  let w := s.writer i
  if w.fills = 0 then 0 else (w.group + 1) % max 1 (s.ringGroups i)

/-- Where the writer's next line goes: stripe group, line within it. -/
def State.nextLine (s : State) (i : Nat) : Nat × Nat :=
  if i < 8 ∧ s.segMode i then
    let l := (s.capSeg i * s.segLen i + (s.cap i).count % max 1 (s.segLen i)) / 2
    (l / groupLines (s.ring i).2.2, l % groupLines (s.ring i).2.2)
  else if (s.writer i).entered then ((s.writer i).group, (s.writer i).line)
  else (s.nextGroup i, 0)

/-- CAP_POS or REC_POS: the bank and the line of the writer's next line (Table 8-16). -/
def State.posView (s : State) (i : Nat) : Dword :=
  let g := s.nextLine i
  let p := if s.remoteRing i then (s.fld swarmPage (remoteFirst (i - 8)) + g.1, g.2) else s.place i g.1 g.2
  BitVec.ofNat 32 (p.1 % 32 + 2 ^ 5 * (p.2 % 2 ^ 14))

/-- In SINGLE and SEGMENTED the group of the capture writer's next line is its current stripe group (PAGE_LIVE.WRITER_IN). -/
def State.segmentIn (s : State) (b : Nat) : Bool :=
  let n := b / 32
  s.segMode n && (s.capPhase n == 1 || s.capPhase n == 2) && (s.groupBanks n (s.nextLine n).1).contains b

end Sys2Proof.Machine
end

