-- ==== Sys2Proof/Machine/Pages.lean ====
section
/-! DEFINITION. Register conventions: what a page shows (PAGE_LIVE and the other computed views), when a page counts as running, keys, shadows
and applies, freezes' release, and the generic effect of a write (R391 to R402, R417, R419). -/
namespace Sys2Proof.Machine
open Sys2Proof

def State.region (s : State) (n : Nat) : RegionRun := Tab.get (fun _ => RegionRun.init) s.regions n
def State.setRegion (s : State) (n : Nat) (r : RegionRun) : State := { s with regions := Tab.set (fun _ => RegionRun.init) s.regions n r }

/-- The region executes its major cycle (R171). -/
def State.executes (s : State) (n : Nat) : Bool := s.bit (regPage n) REG.SLOT_EXEC

/-- The major cycle length (R169). -/
def State.majorLen (s : State) (n : Nat) : Nat := s.fld (regPage n) REG.SCHED_L_M1 + 1

/-- The slot of this TCLK cycle (R169). -/
def State.slot (s : State) (n : Nat) : Nat := (s.time.tclk - (s.region n).start) % s.majorLen n

/-- Run states, coded 0 to 6 in CHIP.PAGE_LIVE (Table 1-8). -/
inductive RunState where
  | idle | loaded | armed | running | stopping | stopped | fault
  deriving DecidableEq, Repr

def RunState.code : RunState → Nat
  | .idle => 0
  | .loaded => 1
  | .armed => 2
  | .running => 3
  | .stopping => 4
  | .stopped => 5
  | .fault => 6

def State.runState (s : State) : RunState :=
  match s.fld chipPage CHIP.live_RUN_STATE with
  | 0 => .idle
  | 1 => .loaded
  | 2 => .armed
  | 3 => .running
  | 4 => .stopping
  | 5 => .stopped
  | _ => .fault

def State.inCluster (s : State) : Bool := s.bit chipPage CHIP.live_CLUSTER
/-- In the cluster state, and no wake in progress (R450, R451). -/
def State.asleep (s : State) : Bool := s.inCluster && !s.power.waking
def State.isQueen (s : State) : Bool := s.bit swarmPage SWARM.STATE_QUEEN
/-- The part is a swarm member (R280). -/
def State.isMember (s : State) : Bool := s.bit chipPage CHIP.live_MEMBER

/-- IDLE, LOADED or STOPPED: the states in which the part is not engaged in a run (R60, R73, R85, R120). -/
def State.betweenRuns (s : State) : Bool :=
  match s.runState with
  | .idle | .loaded | .stopped => true
  | _ => false

/-- Does the page count as running (Table 13-3)? -/
def State.pageRunning (s : State) (t : PageType) (i : Nat) : Bool :=
  match t with
  | .tb => s.isQueen || s.isMember
  | .syn => s.bit (synPage i) PG.CTRL_RUN
  | .dom => s.bit (domPage i) DOM.CTRL_EN
  | .link => decide (2 ≤ s.fld (linkPage i) LINK.STATE_LSTATE)
  | .dmac => s.fld (dmacPage i) DMAC.STATE_STATE == 1
  | .ch => s.bit (chPage i) PG.CTRL_RUN && (s.runState == .running || s.runState == .stopping) && s.bit (chPage i) CH.live_GATE_OPEN
  | .reg => s.bit (regPage i) REG.SLOT_EXEC
  | .blk => s.bit (regPage (i / 8)) REG.SLOT_EXEC
  | .bank => true
  | _ => false

def State.shadow (s : State) (a : Nat) : Option Dword := Tab.get (fun _ => none) s.shadows a
def State.setShadow (s : State) (a : Nat) (v : Option Dword) : State := { s with shadows := Tab.set (fun _ => none) s.shadows a v }

/-- The value that will be in force once every pending shadow has applied (R396). -/
def State.soon (s : State) (a : Nat) : Dword := (s.shadow a).getD (s.rd a)
def State.soonFld (s : State) (base : Nat) (f : Fld) : Nat := getBits (s.soon (base + f.off)) f.lo f.width

/-- Addresses of a page whose shadow holds a write, in offset order. -/
def State.pendingOf (s : State) (base : Nat) : List Nat :=
  (s.shadows.filter fun p => decide (base ≤ p.1 ∧ p.1 < base + 0x1000)).map (·.1)

def State.unlocked (s : State) (base : Nat) : Bool := Tab.get (fun _ => false) s.keys base
def State.setKey (s : State) (base : Nat) (b : Bool) : State := { s with keys := Tab.set (fun _ => false) s.keys base b }

/-- Every page of the part: type, instance and base. -/
def allPages : List (PageType × Nat × Nat) :=
  [(.chip, 0, chipPage), (.tb, 0, tbPage), (.jrnl, 0, jrnlPage), (.svc, 0, svcPage), (.swarm, 0, swarmPage), (.esl, 0, eslPage), (.dma, 0, dmaPage)]
    ++ (List.range 6).map (fun i => (.syn, i, synPage i)) ++ (List.range 2).map (fun i => (.dom, i, domPage i))
    ++ (List.range 4).map (fun i => (.link, i, linkPage i)) ++ (List.range 8).map (fun i => (.dmac, i, dmacPage i))
    ++ (List.range 96).map (fun i => (.ch, i, chPage i)) ++ (List.range 8).map (fun i => (.reg, i, regPage i))
    ++ (List.range 64).map (fun i => (.blk, i, blkPage i)) ++ (List.range 256).map (fun i => (.bank, i, bankPage i))

/-- Any page's PAGE_FREEZE shows a frozen master. -/
def State.anyFrozen (s : State) : Bool :=
  s.regs.any fun p => decide (p.1 % 0x1000 = 0x024) && (pageOf p.1).isSome && getBits p.2 8 8 != 0

/-- Fault causes present: COARSE, holdover, thermal limit, chip-level uncorrectable error (R417). -/
def State.causeTb (s : State) : Bool := s.coarse
/-- Holdover, until the part is ALIGNED again (R307). -/
def State.causeQueen (s : State) : Bool := s.holdover || (s.fld swarmPage SWARM.STATE_ALIGN == 1 && s.swarm.reacquire)
def State.causeThermal (s : State) : Bool := s.bit chipPage CHIP.live_CAUSE_THERMAL
def State.causeUe (s : State) : Bool := s.bit chipPage CHIP.live_CAUSE_UE
def State.anyCause (s : State) : Bool := s.causeTb || s.causeQueen || s.causeThermal || s.causeUe

/-- A link that the alarm of R419 counts: a page-specific error bit, or held or quarantined. -/
def State.linkAlarm (s : State) (p : Nat) : Bool :=
  getBits (s.rd (linkPage p + 0x010)) 0 16 != 0 || s.fld (linkPage p) LINK.STATE_LSTATE == 5 || s.fld (linkPage p) LINK.STATE_LSTATE == 6

/-- Alarm causes (R419). -/
def State.alarms (s : State) : Nat :=
  b2n (s.runState == .fault) + 2 * b2n (s.bit chipPage CHIP.live_THERM_WARN)
    + 4 * b2n ((List.range 8).any fun n => s.bit (regPage n) REG.live_FAULT) + 8 * b2n s.anyFrozen
    + 16 * b2n ((List.range 4).any fun p => s.linkAlarm p) + 32 * b2n (s.bit tbPage TB.live_STARTED && !s.bit tbPage TB.live_LOCKED)

/-- An enabled alarm is present: ALERT_N is driven low from the next ACLK cycle on (R419). -/
def State.alarmOn (s : State) : Bool := (s.alarms &&& s.fld chipPage CHIP.ALERT_EN_CAUSES) != 0

/-- SVC.HEALTH (Table 14-6). -/
def State.health (s : State) : Dword :=
  BitVec.ofNat 32 (s.fld chipPage CHIP.live_RUN_STATE + 8 * b2n s.inCluster + 16 * b2n (s.bit chipPage CHIP.live_READY)
    + 32 * b2n (s.bit tbPage TB.live_LOCKED) + 64 * b2n (s.isQueen || s.fld swarmPage SWARM.STATE_ALIGN == 2)
    + 128 * b2n s.power.alerted + 256 * b2n s.anyCause + 512 * b2n s.anyFrozen + 1024 * b2n (s.bit chipPage CHIP.live_THERM_WARN)
    + 2048 * unsigned 10 (signed 11 (s.fld chipPage CHIP.TEMP_VALUE) / 4))

/-- The Device Serial Number of the endpoint, DIE_ID_LO in its lower dword (R424). -/
def State.serialNumber (s : State) : Nat := s.pair chipPage CHIP.DIE_ID_LO

/-- The ACLK cycle in progress, of four TCLK cycles, counted from 1 at the release of reset. -/
def State.aclk (s : State) : Nat := s.power.heart / 4 + 1

/-- The last TCLK cycle of an ACLK cycle. -/
def State.aclkLast (s : State) : Bool := s.power.heart % 4 == 3

/-- What a mailbox held before this ACLK cycle: the other side sees a change from the next one on (R423). -/
def State.mailbox (s : State) (old : Nat × Dword) (off : Nat) : Dword := if old.1 = s.aclk then old.2 else s.rd (svcPage + off)

/-- What the note of a mailbox's old value becomes as the mailbox changes. -/
def State.noteOld (s : State) (old : Nat × Dword) (v : Dword) : Nat × Dword := if old.1 = s.aclk then old else (s.aclk, v)

/-- A frame of the service port, which its command ends with the rise of SSEL_N (R455). -/
def isFrame : Instr → Bool
  | .svcNop | .svcReadId _ | .svcReadHealth | .svcReadMbox | .svcMboxLo _ | .svcMboxHi _ | .svcCmd .. | .svcReadCmd | .svcHold | .svcRelease
  | .svcReservedOp | .svcFrameDiscard => true
  | _ => false

/-- SSEL_N is low: a frame is under way, whose command waits (R422, R455; how long before its end a frame shows is DESIGN CHOICE, assumption 89). -/
def State.selected (s : State) : Bool := s.pending.any isFrame

/-- Bits of PAGE_LIVE that mirror other registers (Tables 2-5, 4-17, 6-20, 6-23, 7-20, 8-14, 8-16, 9-12, 9-14, 11-5, 12-9, 12-11, 14-4). -/
def State.liveMirror (s : State) (t : PageType) (i : Nat) : Nat :=
  match t with
  | .chip => 2 ^ 8 * b2n s.causeTb + 2 ^ 9 * b2n s.causeQueen
  | .tb => 2 ^ 9 * b2n (s.fld tbPage TB.TRIM_LIVE_VALUE != s.fld tbPage TB.TRIM_TARGET)
  | .syn => 2 ^ 4 * b2n (s.rd (synPage i + 0x05c) != 0 || s.rd (synPage i + 0x060) != 0 || s.rd (synPage i + 0x064) != 0)
  | .link =>
    let l := s.fld (linkPage i) LINK.STATE_LSTATE
    b2n (decide (2 ≤ l)) + 2 * b2n (s.bit swarmPage SWARM.STATE_UP_VALID && s.fld swarmPage SWARM.STATE_UPPORT == i)
      + 4 * b2n (l == 5) + 8 * b2n (l == 6) + 16 * b2n (l == 7) + 32 * b2n (s.isFrozen (linkPage i) 8)
  | .swarm =>
    let a := s.fld swarmPage SWARM.STATE_ALIGN
    b2n s.isQueen + 2 * b2n (a == 2) + 4 * b2n (a == 1) + 8 * b2n (a == 3)
      + 16 * b2n ((List.range 4).any fun p => s.fld (linkPage p) LINK.STATE_LSTATE == 6) + 32 * b2n (s.fld swarmPage SWARM.STATE_MEMBER == 3)
  | .esl => b2n (s.bit eslPage ESL.STATUS_ALIGNED) + 2 * b2n (s.bit eslPage ESL.STATUS_ESTEP)
  | .dma => b2n (s.isFrozen dmaPage 8) + 2 * b2n (s.isFrozen dmaPage 9)
  | .dmac =>
    let x := s.fld (dmacPage i) DMAC.STATE_STATE
    b2n (x == 1 || x == 2) + 2 * b2n (x == 3) + 4 * b2n (x == 5) + 8 * b2n (s.isFrozen dmaPage (if i < 6 then 8 else 9))
  | .ch => 2 ^ 8 * b2n (s.bit (chPage i) CH.POOL_STATUS_READY)
  | .reg =>
    2 * b2n (s.bit (regPage i) REG.SLOT_EXEC)
      + 4 * b2n (s.rd (regPage i + 0x060) != 0 || s.rd (regPage i + 0x064) != 0 || s.rd (regPage i + 0x068) != 0 || s.rd (regPage i + 0x06c) != 0)
      + 16 * b2n (s.bit (regPage i) REG.DBG_CTRL_GO) + 2 ^ 8 * b2n (s.isFrozen (regPage i) 8) + 2 ^ 9 * b2n (s.isFrozen (regPage i) 9)
      + 2 ^ 12 * b2n (s.fld (regPage i) REG.DEMOTED_CH != 0)
  | .blk => 2 * b2n (s.bit (blkPage i) BLK.XFER_STATUS_BUSY) + 4 * b2n (s.isFrozen (blkPage i) 8)
  | .bank => b2n (s.shadow (bankPage i + 0x040)).isSome + 4 * b2n (s.segmentIn i)
  | .svc => 2 * b2n s.selected
  | _ => 0

/-- PAGE_LIVE as a read sees it: the stored bits, the mirrors, and the common bits (Table 13-2). -/
def State.liveView (s : State) (t : PageType) (i base : Nat) : Dword :=
  s.rd (base + 0x00c) ||| BitVec.ofNat 32 (s.liveMirror t i + 2 ^ 16 * b2n (s.pageRunning t i) + 2 ^ 17 * b2n (s.unlocked base)
    + 2 ^ 18 * b2n (!(s.pendingOf base).isEmpty) + 2 ^ 19 * b2n (getBits (s.rd (base + 0x024)) 8 8 != 0) + 2 ^ 20 * b2n (s.irqReq base))

/-- Units of 512 bytes that a channel holds in the engines' buffer (R369): a host-to-store channel those of its reads until their bytes are written,
a store-to-host channel one of the bytes it has read and not written, and one of a read that waits. -/
def State.dmaUnits (s : State) (c : Nat) : Nat :=
  let x := s.dmaCh c
  if 6 ≤ c then x.units.length else b2n (!x.buf.isEmpty) + (s.reqs.filter fun q => q.access == .move c).length

def State.dmaHeld (s : State) : Nat := ((List.range 8).map s.dmaUnits).foldl (· + ·) 0

/-- A completion read-back of host memory is outstanding. -/
def DmaCh.backOut (x : DmaCh) (c : Nat) : Bool := x.readback && x.backAt.isNone && decide (c < 6)

/-- Non-posted requests of a channel outstanding, those whose completions will be discarded too. -/
def DmaCh.outstanding (x : DmaCh) (c : Nat) : Nat :=
  b2n x.fetching + x.lostFetch + b2n (x.backOut c) + x.lostBack + (x.reads.filter fun r => decide (0 < r.left)).length

/-- Non-posted requests outstanding: descriptor fetches, host data reads, the read-backs of the channels that write to the host, and one read of a
LOAD in progress (R369; the last DESIGN CHOICE, assumption 85). -/
def State.dmaOutstanding (s : State) : Nat :=
  ((List.range 8).map fun c => (s.dmaCh c).outstanding c).foldl (· + ·) 0 + b2n (s.bit chipPage CHIP.live_LOADING)

/-- What a read of a page register returns, before the read's own effects. -/
def State.view (s : State) (a : Nat) : Dword :=
  match pageOf a with
  | none => 0
  | some (t, i) =>
    let base := pageBase t i
    let off := a % 0x1000
    if off = 0x00c then s.liveView t i base
    else if off = 0x018 then BitVec.ofNat 32 (b2n (s.unlocked base))
    else if off = 0x01c then s.rd a ||| BitVec.ofNat 32 (s.pendingOf base).length
    else if a = tbPage + 0x048 then BitVec.ofNat 32 s.now.toNat
    else if a = tbPage + 0x04c then BitVec.ofNat 32 (s.now.toNat / 2 ^ 32)
    else if a = chipPage + 0x084 then BitVec.ofNat 32 (s.alarms + 2 ^ 31 * b2n s.power.alerted)
    else if a = svcPage + 0x050 then s.health
    else if a = svcPage + 0x058 then s.mailbox s.svc.inOld 0x058
    -- the slot that executes at the read (Table 6-20)
    else if t = .reg ∧ (off = 0x12c ∨ off = 0x130) then s.posView (if off = 0x12c then i else 8 + i)
    else if t = .reg ∧ off = 0x044 ∧ s.executes i then setBits (s.rd a) REG.SLOT_VALUE.lo REG.SLOT_VALUE.width (s.slot i)
    else if a = dmaPage + 0x048 then BitVec.ofNat 32 s.dmaHeld
    else if a = dmaPage + 0x04c then BitVec.ofNat 32 s.dmaOutstanding
    else if (a = chipPage + 0x068 ∨ a = chipPage + 0x06c) ∧ s.runState = .idle then 0
    else if off = 0x024 then s.rd a
    else (s.freshOf a).stood

/-- Instructions of the test access port that hold the part in reset (Table 17-12). -/
def holdsPart (instr : BitVec 8) : Bool := instr == 0x00 || instr == 0x04 || instr == 0x05 || instr == 0x06 || instr == 0x07

/-- Nothing holds the part in reset (R442, R444, R467, R475). -/
def State.released (s : State) : Bool :=
  !s.power.monitor && !s.power.resetN && !s.power.svcHold && !s.power.testEn && !holdsPart s.tap.instr

/-- The units respond: nothing holds the part in reset, and start-up has begun (R444, R445). -/
def State.live (s : State) : Bool := s.released && s.power.startup != .held

/-- The host reaches the part: its units respond, its configuration space is ready (R361, R446), and it is in D0 (R359; that D3hot answers no memory
request is PRESUMED from PCI Express, assumption 86). -/
def State.hostLive (s : State) : Bool := s.live && s.power.configReady && !s.power.perst && !s.endpoint.d3hot

/-! Writes -/

/-- How the checks of a chapter judge a write (R396): stored as `v` (with an error bit when clamped), or discarded. -/
inductive Verdict where
  | accept (v : Dword) (err : Option Fld)
  | reject (err : Fld) (o : JOut)
  deriving DecidableEq, Repr

/-- A register with the bits of `m` replaced. -/
def merge (m old new : Dword) : Dword := (old &&& ~~~ m) ||| (new &&& m)

/-- A buffered register takes a value in force: PAGE_STATUS.APPLIED and PAGE_APPLY.APPLIES (R397). -/
def State.applyValue (s : State) (base off : Nat) (row : RegRow) (v : Dword) : State :=
  ((s.wr (base + off) (merge row.rwb (s.rd (base + off)) v)).addWrap base PG.APPLY_APPLIES 1).post base PG.st_APPLIED

/-- Applies every pending register of a page, in offset order, with one entry each (R397). -/
def State.applyPage (s : State) (base : Nat) : State :=
  (s.pendingOf base).foldl (fun s a =>
    match s.shadow a, regAt a with
    | some v, some row =>
      let s := (s.setShadow a none).applyValue base (a - base) row v
      s.entry .apply .internal a .done (s.rd a).toNat
    | _, _ => s) s

/-- Pages that stop running with a region's major cycle (Table 13-3). -/
def State.applyRegion (s : State) (n : Nat) : State :=
  (List.range 8).foldl (fun s b => s.applyPage (blkPage (8 * n + b))) (s.applyPage (regPage n))

/-- The entry of a write: SHADOW for a buffered register, WRITE for any other (Table 13-6). -/
def writeKind (row : RegRow) : JKind := if row.rwb ≠ 0 then .shadow else .write

/-- The effect of an accepted value on the register itself: RW fields and, with the key, RWK fields at once; RWB fields to the
shadow while the page runs and otherwise at once (R396, R397, R399). `journal` tells whether a rule journals the RW write. -/
def State.storeValue (s : State) (t : PageType) (i off : Nat) (row : RegRow) (v written : Dword) (keyed : Bool) (a : Agent)
    (clamped journal : Bool) : State :=
  let base := pageBase t i
  let s := s.wr (base + off) (merge (row.rw ||| (if keyed then row.rwk else 0)) (s.rd (base + off)) v)
  let o : JOut := if clamped then .clamped else .done
  if row.rwb ≠ 0 then
    if s.pageRunning t i then
      (s.setShadow (base + off) (some v)).entry .shadow a (base + off) (if clamped then .clamped else .shadowed) written.toNat
    else (s.applyValue base off row v).entry .shadow a (base + off) o written.toNat
  else if (row.rwk ≠ 0 && keyed) || journal || clamped then s.entry .write a (base + off) o written.toNat
  else s

/-- A write that is discarded: its error bit and its journal entry. -/
def State.rejectWrite (s : State) (t : PageType) (i off : Nat) (row : RegRow) (v : Dword) (a : Agent) (err : Fld) (o : JOut) : State :=
  (s.raiseWrite (pageBase t i) err off a).entry (writeKind row) a (pageBase t i + off) o v.toNat

/-- Guarded fields written while the page is locked: KEYFAIL (R399). -/
def State.keyFail (s : State) (base off : Nat) (v : Dword) (a : Agent) : State :=
  (s.raiseWrite base PG.err_KEYFAIL off a).entry .write a (base + off) .keyfail v.toNat

/-- A bus error on a page or in no page (R362, R413). -/
def State.busError (s : State) (addr : Nat) (req : BusReq) : State :=
  let s := match req with
    | .read => s.send (.completerAbort addr)
    | .write => s
  let s := s.send (.aer 0)
  match pageOf addr with
  | some (t, i) => s.raiseAt (pageBase t i) PG.err_BUS_ERR (addr % 0x1000) 0
  | none =>
    if 0x400000 ≤ addr ∧ addr < 0x800000 then s.raiseAt (regPage ((addr - 0x400000) / 0x1000 / 128)) PG.err_BUS_ERR (addr % 0x1000) 0
    else if 0x800000 ≤ addr ∧ addr < 0x900000 then s.raiseAt (regPage ((addr - 0x800000) / 0x4000 / 8)) PG.err_BUS_ERR (addr % 0x1000) 0
    else s.raiseAt chipPage PG.err_BUS_ERR (addr % 0x1000) 0

/-- A read of an RC register returns its bits and clears exactly those it returned as 1: what the register took in this ACLK cycle stays for the
next read. A nonzero PAGE_ERR read leaves in PAGE_ERRINFO what this cycle brought (R394). -/
def State.readClear (s : State) (a : Nat) : State :=
  match regAt a with
  | none => s
  | some row =>
    let x := s.freshOf a
    let s := s.wr a ((s.rd a &&& ~~~ row.rc) ||| (x.bits &&& row.rc))
    let s := if x.bits &&& row.rc = 0 then s else s.setFresh a { x with stood := 0 }
    if a % 0x1000 = 0x010 ∧ x.stood ≠ 0 then s.wr (a + 4) x.info else s

/-! Completions of what the part reads from the host (R385, R427) -/

/-- A completion that failed: its counters and its report (R385, R427). -/
def State.badCompletion (s : State) (k : Completion) : State :=
  match k with
  | .good => s
  | .timeout => ((s.addSat dmaPage DMA.CPL_TIMEOUTS 1).raise dmaPage DMA.err_CPL_TIMEOUT).send (.aer 2)
  | .error | .poisoned => (s.raise dmaPage DMA.err_CPL_ERROR).send (.aer 4)

/-- A completion that nothing waits for (R385, R427). -/
def State.unexpected (s : State) : State := s.send (.aer 3)

end Sys2Proof.Machine
end

