-- ==== Sys2Proof/Machine/Chan.lean ====
section
/-! DEFINITION. The channel inputs and converter pools: comparator transitions, the stuck detector, stamping and gaps, nurse duties and
swaps, retirement, calibration (R75 to R130, R478). -/
namespace Sys2Proof.Machine
open Sys2Proof

def State.chan (s : State) (k : Nat) : Chan := Tab.get (fun _ => Chan.init) s.chans k
def State.setChan (s : State) (k : Nat) (c : Chan) : State := { s with chans := Tab.set (fun _ => Chan.init) s.chans k c }
def State.modChan (s : State) (k : Nat) (f : Chan → Chan) : State := s.setChan k (f (s.chan k))

def State.qual (s : State) (k : Nat) : Qual := Tab.get (fun _ => Qual.init) s.quals k
def State.setQual (s : State) (k : Nat) (q : Qual) : State := { s with quals := Tab.set (fun _ => Qual.init) s.quals k q }

/-- A window takes an event; for bits 0 to 9 the first completing edge is latched (R205, R206). -/
def Window.mark (w : Window) (bit : Nat) (t : DTime) : Window :=
  ⟨w.bits ||| 2 ^ bit, if bit ≤ 9 ∧ !w.latch.any (·.1 == bit) then w.latch ++ [(bit, t)] else w.latch⟩

/-- The value of register `off` of the CH page for an edge that arrived in TCLK cycle `m` (R86, R398). -/
def State.valAt (s : State) (k m off : Nat) : Dword :=
  match (s.chan k).olds.find? fun p => decide (m ≤ p.1) && p.2.1 == off with
  | some p => p.2.2
  | none => s.rd (chPage k + off)

def State.fldAt (s : State) (k m : Nat) (f : Fld) : Nat := getBits (s.valAt k m f.off) f.lo f.width

/-- Settings that act at or after the pool output, and the edge selection (R398): EDGE, DELAY, FALL_TRIM, ACC_CTRL and the qualifier registers. -/
def laterRegs : List Nat := [0x04c, 0x088, 0x08c, 0x100, 0x200, 0x204, 0x208, 0x20c]

/-- Registers of the page are about to change: edges that arrive up to cycle `limit` keep their present values (R86, R398). -/
def State.keepOld (s : State) (k limit : Nat) (offs : List Nat) : State :=
  let l := (offs.filter laterRegs.contains).map fun o => (limit, o, s.rd (chPage k + o))
  s.modChan k fun c => { c with olds := (c.olds.filter fun p => decide (s.time.tclk ≤ p.1 + 512)) ++ l }

/-- Marks an event of channel `k` in the window being gathered. -/
def State.markEvent (s : State) (k bit : Nat) (t : DTime) : State := s.setQual k { s.qual k with cur := (s.qual k).cur.mark bit t }

/-- Every channel of the part. -/
def allChans : List Nat := List.range 96

/-- Applies `f` for each number of a list, in order. -/
def State.forEach (s : State) (l : List Nat) (f : Nat → State → State) : State := l.foldl (fun s k => f k s) s

/-- The region of a channel (R24). -/
def chRegion (k : Nat) : Nat := k / 12

/-- The comparator is on (Table 3-4). -/
def State.compOn (s : State) (k : Nat) : Bool := s.live && s.bit (chPage k) PG.CTRL_RUN && !s.inCluster

/-- CH(2k+1) is in paired mode with CH(2k) (R87). -/
def State.paired (s : State) (k : Nat) : Bool := k % 2 == 1 && s.bit (chPage k) CH.INPUT_PAIRED

/-- The input mode that holds for a channel: its own, or CH(2k)'s in paired mode (R87); 0 DIFF, 1 SE. -/
def State.modeOf (s : State) (k : Nat) : Nat := s.fld (chPage (if s.paired k then k - 1 else k)) CH.INPUT_MODE

/-- A threshold code held to its range (R77, R78). -/
def clampLevel (mode code : Nat) : Nat := if mode = 0 then max 700 (min 1700 code) else min 3600 code

/-- The low comparator of the pair whose even channel is `e` (R88). -/
def State.lowComp (s : State) (e : Nat) : Nat :=
  if s.fld (chPage (e + 1)) CH.THRESH_LEVEL < s.fld (chPage e) CH.THRESH_LEVEL then e + 1 else e

/-- Shows the window state of the pair of channel `k` (R88). -/
def State.showWin (s : State) (k : Nat) : State :=
  let e := k / 2 * 2
  if s.paired (e + 1) then
    let a := s.bit (chPage e) CH.LEVEL_COMP
    let b := s.bit (chPage (e + 1)) CH.LEVEL_COMP
    s.setFld (chPage (e + 1)) CH.LEVEL_WIN (if a && b then 2 else if a || b then 1 else 0)
  else s.setFld (chPage (e + 1)) CH.LEVEL_WIN 0

/-- The stuck timer restarts in this cycle (R89). -/
def State.restartTimer (s : State) (k : Nat) : State :=
  s.modChan k fun c => { c with timerFrom := s.time.tclk, lastAt := s.now, expired := false }

/-- The comparator takes the level of a new input, which is no edge and reaches no later stage (R478). -/
def State.takeLevel (s : State) (k : Nat) (level : Bool) : State :=
  if s.compOn k then ((s.setBit (chPage k) CH.LEVEL_COMP level).showWin k).restartTimer k else s

/-- CH.PAGE_LIVE.STUCK. -/
def State.setStuck (s : State) (k : Nat) (b : Bool) : State :=
  (s.setBit (chPage k) CH.live_STUCK b).modChan k fun c => { c with stuck := c.stuck.note b s.now }

/-- A transition of the comparator output: the level, the window, the end of a stuck condition, the timer (R88 to R91). -/
def State.transition (s : State) (k : Nat) : State :=
  let p := chPage k
  let s := (s.setBit p CH.LEVEL_COMP (!s.bit p CH.LEVEL_COMP)).showWin k
  let s := if s.bit p CH.live_STUCK then
      let s := ((s.setStuck k false).post p CH.st_STUCK_CLEAR).markEvent k 11 s.now
      if s.runState == .running then s.error (some (chRegion k)) k 0x09 0 0 false else s
    else s
  s.restartTimer k

/-! The pool -/

/-- Converters not retired. -/
def Chan.usable (c : Chan) : Nat := (c.convs.filter fun v => v.role != .retired).length
/-- Active converters, A (R101). -/
def Chan.active (c : Chan) : Nat := (c.convs.filter fun v => v.role == .active).length
/-- The number of the converter that holds the nurse role. -/
def Chan.nurse (c : Chan) : Option Nat := c.convs.findIdx? fun v => v.role == .nurse
/-- A pool with fewer than 12 usable converters has failed (R125). -/
def Chan.failed (c : Chan) : Bool := c.usable < 12
/-- Active and free. -/
def Conv.free (v : Conv) : Bool := v.role == .active && v.busy.isNone
/-- The lowest-numbered active converter that is free (R101). -/
def Chan.freeConv (c : Chan) : Option Nat := c.convs.findIdx? Conv.free
def Chan.conv (c : Chan) (j : Nat) : Conv := c.convs.getD j Conv.init
def Chan.setConv (c : Chan) (j : Nat) (v : Conv) : Chan := { c with convs := c.convs.set j v }

/-- The conditions of R117 under which a duty goes on, NURSE_EN apart. -/
def State.rotationOk (s : State) (k : Nat) : Bool :=
  s.compOn k && s.bit tbPage TB.live_LOCKED && s.bit (chPage k) CH.POOL_STATUS_READY

/-- The pool calibrates with no nurse or below 16 converters (flag DEGRADED). -/
def State.weak (s : State) (k : Nat) : Bool := s.bit (chPage k) CH.live_DEGRADED || s.bit (chPage k) CH.live_NO_NURSE

/-- Bit mask of the retired converters. -/
def retiredMask (l : List Conv) : Nat := ((l.zipIdx).map fun p => if p.1.role = .retired then 2 ^ p.2 else 0).foldl (· + ·) 0

/-- Shows the pool in POOL_STATUS and PAGE_LIVE (Tables 4-13, 4-17; R124, R125). Only a pool with a retired converter can be without a nurse by
R124; before the first roles are given, none is missing. DEGRADED counts the converters in the active role: on a healthy pool that is not READY it
reads 0 although ACTIVE reads 0, on which the spec is silent (DESIGN CHOICE, assumption 88). -/
def State.showPool (s : State) (k : Nat) : State :=
  let c := s.chan k
  let p := chPage k
  let s := s.setFld p CH.POOL_STATUS_ACTIVE (if c.failed || !s.bit p CH.POOL_STATUS_READY then 0 else c.active)
  let s := s.setFld p CH.POOL_STATUS_NURSE (c.nurse.getD 0x1f)
  let s := s.setFld p CH.POOL_STATUS_RETIRED (retiredMask c.convs)
  let s := s.setBit p CH.live_DEGRADED (decide (c.active < 16))
  let s := s.setBit p CH.live_NO_NURSE (if c.nurse.isNone then decide (c.usable < 17) else !s.bit p CH.POOL_CTRL_NURSE_EN && c.duty.isNone)
  s.modChan k fun c => { c with weak := c.weak.note (s.weak k) s.now }

/-- Starts, keeps or abandons the nurse's duty as the conditions of R117 and R118 stand. -/
def State.rotation (s : State) (k : Nat) : State :=
  let c := s.chan k
  let s := if !s.rotationOk k then s.setChan k { c with duty := none }
    else if c.duty.isNone && c.nurse.isSome && !c.accepted && s.bit (chPage k) CH.POOL_CTRL_NURSE_EN then
      s.setChan k { c with duty := some s.time.tclk }
    else s
  s.showPool k

/-- Closes the open gap: its marker enters the pool (R108). `at?` is the cycle at whose end a limit closed it. -/
def State.closeGap (s : State) (k : Nat) (limit : Option Nat) : State :=
  let c := s.chan k
  match c.gap with
  | none => s
  | some g =>
    let e := Entry.marker (limit.getD g.last) g.cause g.count (min (g.last + 1 - g.first) 262143) g.start limit.isSome (g.coarse || s.coarse)
    (s.setChan k { c with gap := none, pipe := c.pipe ++ [e] }).setFld (chPage k) CH.live_GAP_OPEN 0

/-- Closes the open gap if it has this cause. -/
def State.closeGapOf (s : State) (k cause : Nat) : State :=
  match (s.chan k).gap with
  | some g => if g.cause = cause then s.closeGap k none else s
  | none => s

/-- The last cycle of a gap that reaches its limit (R108). -/
def Gap.limit (g : Gap) : Nat := g.first + 262142

/-- A POOL_DRY gap closes once a converter is free (Table 4-2). -/
def State.closeDry (s : State) (k : Nat) : State := if (s.chan k).freeConv.isSome then s.closeGapOf k 1 else s

/-- The start of a cycle for the pool: converters are released (R101), a dry gap may close, a gap past its limit has closed (R108). -/
def State.settlePool (s : State) (k : Nat) : State :=
  let c := s.chan k
  let free := fun (v : Conv) => match v.busy with
    | some m => if m + 12 ≤ s.time.tclk then { v with busy := none } else v
    | none => v
  let s := (s.setChan k { c with convs := c.convs.map free }).closeDry k
  match (s.chan k).gap with
  | some g => if g.limit < s.time.tclk then s.closeGap k (some g.limit) else s
  | none => s

/-- The timebase runs, locked, from the main synthesizer, so that pools may stamp (R64, R67). -/
def State.timeGood (s : State) : Bool := s.bit tbPage TB.live_LOCKED && s.fld tbPage TB.live_SOURCE == 0 && !s.coarse

/-- Why the pool cannot stamp, leaving a dry pool aside (Table 4-2). A failed pool under RECAL has both the cause POOL_FAILED, which lasts until
the RECAL succeeds, and NOT_READY (R120); it takes POOL_FAILED (DESIGN CHOICE, assumption 79). -/
def State.unstampable (s : State) (k : Nat) : Option Nat :=
  if (s.chan k).failed then some 5
  else if s.bit tbPage TB.live_STARTED && !s.timeGood then some 2
  else if !s.bit (chPage k) CH.POOL_STATUS_READY then some 3 else none

/-- An edge that is not stamped: it opens a gap of its cause or joins the open one (R107). -/
def State.intoGap (s : State) (k cause : Nat) : State :=
  let m := s.time.tclk
  match (s.chan k).gap with
  | some g => s.modChan k fun c => { c with gap := some { g with count := g.count + 1, last := m, coarse := g.coarse || s.coarse } }
  | none => (s.modChan k fun c => { c with gap := some ⟨cause, s.now, m, 1, m, s.coarse⟩ }).setFld (chPage k) CH.live_GAP_OPEN 1

/-- A selected edge enters the pool with raw fine code `f`: it takes the lowest free converter, or falls into a gap (R97, R101). -/
def State.poolEdge (s : State) (k : Nat) (rising : Bool) (f : Nat) : State :=
  let s := s.settlePool k
  match s.unstampable k with
  | some cause => (s.closeGapOf k 1).intoGap k cause
  | none =>
    let c := s.chan k
    match c.freeConv with
    | none => s.intoGap k 1
    | some j =>
      let v := c.conv j
      let e := Entry.stamp s.time.tclk s.now (Config.correction v.table.starts v.table.pdiff v.table.offset f) rising
      let c := c.setConv j { v with busy := some s.time.tclk }
      s.setChan k { c with pipe := c.pipe ++ [e] }

/-- A gap of `count` edges counts in GAPEDGES and GAPRECS (R113). -/
def State.addGap (s : State) (k count : Nat) : State :=
  ((s.setPair (chPage k) CH.GAPEDGES_LO (s.pair (chPage k) CH.GAPEDGES_LO + count)).addSat (chPage k) CH.GAPRECS 1).post (chPage k) CH.st_GAP

/-- The gap of a marker that leaves the pool counts, if it lies in the run (R113). -/
def State.gapCounted (s : State) (k count : Nat) : State := if (s.chan k).countFrom = some 0 then s.addGap k count else s

/-- An entry has left the pool: one fewer dates from before START. -/
def State.leftPool (s : State) (k : Nat) : State := s.modChan k fun c => { c with countFrom := c.countFrom.map (· - 1) }

/-- Channel `k` counts edges and gaps of a new run: a gap open at START closes, with the edges that ECOUNT no longer holds, and counts no more than
what the pool still holds of the time before (R106, R113; DESIGN CHOICE, assumption 79). -/
def State.startCounts (s : State) (k : Nat) : State :=
  let s := s.closeGap k none
  s.modChan k fun c => { c with held := false, countFrom := some c.pipe.length, presc := 0 }

/-- The run ends for the counters of channel `k` (R106, R113): its open gap closes, gaps still on their way through the pool count, and ECOUNT
holds. -/
def State.holdCounts (s : State) (k : Nat) : State :=
  let s := s.closeGap k none
  let s := match (s.chan k).countFrom with
    | some n => ((s.chan k).pipe.drop n).foldl (fun (s : State) (e : Entry) =>
      match e with
      | .marker _ _ count .. => s.addGap k count
      | .stamp .. => s) s
    | none => s
  s.modChan k fun c => { c with held := true, countFrom := none }

/-- Counts selected edges, unless ECOUNT holds (R106). -/
def State.countEdges (s : State) (k n : Nat) : State :=
  if (s.chan k).held then s
  else s.setPair (chPage k) CH.ECOUNT_LO (sat 64 (s.pair (chPage k) CH.ECOUNT_LO + n))

/-- EDGE.SEL passes an edge of this polarity (R83). -/
def State.passes (s : State) (k : Nat) (rising : Bool) : Bool :=
  match s.fld (chPage k) CH.EDGE_SEL with
  | 0 => rising
  | 1 => !rising
  | 2 => true
  | _ => false

/-- The next transition of the channel is a rising one. -/
def State.nextRises (s : State) (k : Nat) : Bool := !s.bit (chPage k) CH.LEVEL_COMP

def State.prescaled (s : State) (k : Nat) : Bool := s.bit (chPage k) CH.INPUT_PRESCALE

/-- The next transition is an edge that goes on: one EDGE.SEL passes, or a rising edge into the divider (R83, R84). -/
def State.nextSelected (s : State) (k : Nat) : Bool := if s.prescaled k then s.nextRises k else s.passes k (s.nextRises k)

/-! Nurse duties, swaps and retirement -/

/-- The next active converter in the order C0 to C16 after converter `n`, skipping the others (R115). -/
def Chan.nextActive (c : Chan) (n : Nat) : Option Nat :=
  ((List.range 17).map fun i => (n + 1 + i) % 17).find? fun j => (c.conv j).role == .active

/-- The measured difference of the ring periods (Table 4-7). The spec does not say which ring must be the longer; the difference is taken
without sign (DESIGN CHOICE, assumption 79). -/
def ringDiff (d : Duty) : Rat := if d.startRing ≤ d.stopRing then d.stopRing - d.startRing else d.startRing - d.stopRing

/-- The limits of Table 4-7. -/
def dutyOk (d : Duty) (old : CalTable) : Bool :=
  d.widths.length == 32 && (d.widths.all fun w => decide (16 ≤ w ∧ w ≤ 48))
    && decide (3 / 4 ≤ ringDiff d ∧ ringDiff d ≤ 5 / 4) && decide (240 ≤ d.startRing ∧ d.startRing ≤ 272)
    && decide (240 ≤ d.stopRing ∧ d.stopRing ≤ 272) && decide (-4 ≤ d.offset - old.offset ∧ d.offset - old.offset ≤ 4)
    && decide (60000 ≤ d.edges)

/-- Starts of bins from their widths. -/
def prefixSums : Rat → List Rat → List Rat
  | _, [] => []
  | a, w :: r => a :: prefixSums (a + w) r

/-- An entry moves by one quarter of the difference (R114). -/
def quarter (old new : Rat) : Rat := old + (new - old) / 4

/-- The table after an accepted duty (R114). -/
def refreshTable (t : CalTable) (d : Duty) : CalTable :=
  ⟨(t.starts.zip (prefixSums 0 d.widths)).map fun p => quarter p.1 p.2, quarter t.pdiff (ringDiff d), quarter t.offset d.offset⟩

/-- A pool that has just failed (R125). -/
def State.poolFailed (s : State) (k : Nat) : State :=
  (s.raise (chPage k) CH.err_CONV_RETIRED).error (some (chRegion k)) k 0x0b 0 (s.chan k).usable true

/-- Retires converter `j` (R123, R124, R125). -/
def State.retire (s : State) (k j : Nat) : State :=
  let c := s.chan k
  let v := c.conv j
  if v.role == .retired then s
  else
    let wasFailed := c.failed
    let keep := s.bit (chPage k) CH.POOL_CTRL_DEGRADE
    let c := c.setConv j { v with role := .retired }
    let c := if v.role == .nurse then { c with duty := none, accepted := false, lastNurse := j } else c
    -- KEEP_ACTIVE: the nurse serves as an active converter while A would fall below 16 (R124)
    let c := match c.nurse with
      | some n => if keep && c.active < 16 then
          { (c.setConv n { c.conv n with role := .active }) with duty := none, accepted := false, lastNurse := n } else c
      | none => c
    -- DEGRADE takes effect as it reads at the retirement (Table 4-12)
    let c := { c with awaitNurse := c.nurse.isNone && !keep }
    let s := s.setChan k c
    let s := (s.raise (chPage k) CH.err_CONV_RETIRED).post (chPage k) CH.st_RETIRE
    let s := if s.runState == .running then s.error (some (chRegion k)) k 0x0a j 0 true else s
    let s := (s.showPool k).unitEvent (chPage k)
    if c.failed && !wasFailed then s.poolFailed k else s

/-- CAL_LAST of a duty (Table 4-16). -/
def State.calLast (s : State) (k j : Nat) (ok : Bool) (shift : Int) (rejects : Nat) : State :=
  let sh := if 127 < shift then 127 else if shift < -127 then -127 else shift
  s.wr (chPage k + 0x0ac) (BitVec.ofNat 32 (j + 2 ^ 5 * b2n ok + 2 ^ 6 * unsigned 8 sh + 2 ^ 14 * rejects))

/-- A nurse duty ends (R114, R115, R118, R123). -/
def State.dutyEnd (s : State) (k : Nat) (d : Duty) : State :=
  let c := s.chan k
  match c.duty, c.nurse with
  | some t, some j =>
    if !s.rotationOk k || s.time.tclk < t + 131072 then s
    else if !s.bit (chPage k) CH.POOL_CTRL_NURSE_EN then (s.setChan k { c with duty := none }).showPool k
    else
      let v := c.conv j
      let shift := roundEven (d.offset - v.table.offset)
      let s := s.addWrap (chPage k) CH.ROTATIONS 1
      if dutyOk d v.table then
        let c := c.setConv j { v with rejects := 0, table := refreshTable v.table d }
        ((s.setChan k { c with duty := none, accepted := true }).calLast k j true shift 0).showPool k
      else
        let n := min 3 (v.rejects + 1)
        let c := c.setConv j { v with rejects := n }
        let s := ((s.setChan k { c with duty := some s.time.tclk }).calLast k j false shift n).post (chPage k) CH.st_CAL_REJECT
        if n = 3 then s.retire k j else s
  | _, _ => s

/-- The swap of R115, at the start of the first cycle in which the outgoing converter is free. -/
def State.swap (s : State) (k : Nat) : State :=
  let s := s.settlePool k
  let c := s.chan k
  match c.nurse with
  | some n =>
    match c.nextActive n with
    | some o =>
      if c.accepted && (c.conv o).busy.isNone then
        let c := (c.setConv n { c.conv n with role := .active, busy := none }).setConv o { c.conv o with role := .nurse }
        (s.setChan k { c with accepted := false, duty := none, lastNurse := o }).rotation k
      else s
    | none => s
  | none => s

/-- After a retirement with KEEP_NURSE the next active converter becomes nurse once it is free (R124). -/
def State.reassign (s : State) (k : Nat) : State :=
  let s := s.settlePool k
  let c := s.chan k
  if c.nurse.isNone && !c.failed && c.awaitNurse && s.bit (chPage k) CH.POOL_STATUS_READY then
    match c.nextActive c.lastNurse with
    | some o =>
      if (c.conv o).busy.isNone then
        (s.setChan k { (c.setConv o { c.conv o with role := .nurse }) with lastNurse := o, duty := none, awaitNurse := false }).rotation k
      else s
    | none => s
  else s

/-! Calibration and readiness -/

/-- Roles afresh when an initial calibration or a RECAL ends (R119): `bad` marks the converters that failed. -/
def assignRoles (degrade : Bool) (bad : Nat) (l : List Conv) : List Conv :=
  let usable := (List.range 17).filter fun j => !bitOf bad j
  let nurse := if usable.length = 17 then some 16 else if degrade then none else usable.getLast?
  (l.zipIdx).map fun p =>
    { p.1 with busy := none, rejects := 0, role := if bitOf bad p.2 then .retired else if nurse = some p.2 then .nurse else .active }

/-- The tables a calibration measured, for the converters it names. -/
def takeTables (k : Nat) (ts : List (Fin 96 × Fin 17 × CalTable)) (l : List Conv) : List Conv :=
  (l.zipIdx).map fun p =>
    match ts.find? fun t => t.1.val == k && t.2.1.val == p.2 with
    | some t => { p.1 with table := t.2.2 }
    | none => { p.1 with table := CalTable.nominal }

def maskOf (k : Nat) (ms : List (Fin 96 × BitVec 17)) : Nat :=
  match ms.find? fun m => m.1.val == k with
  | some m => m.2.toNat
  | none => 0

/-- READY of a pool, in POOL_STATUS. -/
def State.setReady (s : State) (k : Nat) (b : Bool) : State := s.setBit (chPage k) CH.POOL_STATUS_READY b

/-- Reports the converters in `new` as retired (R123). -/
def State.reportRetired (s : State) (k : Nat) : List Nat → State
  | [] => s
  | j :: r =>
    let s := (s.raise (chPage k) CH.err_CONV_RETIRED).post (chPage k) CH.st_RETIRE
    let s := if s.runState == .running then s.error (some (chRegion k)) k 0x0a j 0 true else s
    (s.unitEvent (chPage k)).reportRetired k r

/-- An initial calibration or a RECAL of pool `k` ends (R119, R120). -/
def State.calDone (s : State) (k bad : Nat) (ts : List (Fin 96 × Fin 17 × CalTable)) : State :=
  let c := s.chan k
  let old := c.convs
  let wasFailed := c.failed
  let c := { c with convs := assignRoles (s.bit (chPage k) CH.POOL_CTRL_DEGRADE) bad (takeTables k ts old), cal := .none, accepted := false, duty := none, awaitNurse := false }
  let c := { c with lastNurse := c.nurse.getD c.lastNurse }
  let s := (s.setChan k c).setFld (chPage k) CH.POOL_STATUS_CALIBRATING 0
  let new := (List.range 17).filter fun j => bitOf bad j && ((old.getD j Conv.init).role != .retired)
  let s := s.setReady k true
  let s := (s.closeGapOf k 3)
  let s := if c.failed then s else s.closeGapOf k 5
  let s := (s.rotation k).reportRetired k new
  if c.failed && !wasFailed then s.poolFailed k else s

/-- Begins a calibration or check of pool `k`: nothing is stamped meanwhile (R119 to R122). -/
def State.beginCal (s : State) (k : Nat) (r : CalRun) : State :=
  let c := s.chan k
  let s := s.setChan k { c with cal := r, duty := none, accepted := false }
  let s := s.setReady k false
  (s.setBit (chPage k) CH.POOL_STATUS_CALIBRATING (r != .check)).showPool k

/-- The ready check of pool `k` ends: failed converters are retired and the pool stamps again (R121, R122). -/
def State.checkDone (s : State) (k bad : Nat) : State :=
  if (s.chan k).cal == .check then
    let s := s.modChan k fun c => { c with cal := .none }
    let s := ((List.range 17).filter fun j => bitOf bad j).foldl (fun s j => s.retire k j) s
    let s := s.setReady k true
    (s.closeGapOf k 3).rotation k
  else s

/-- A write of POOL_CTRL (R117, R118, R120): a RECAL outside IDLE, LOADED and STOPPED discards it. -/
def State.poolCtrlVerdict (s : State) (v : Dword) : Verdict :=
  if getBits v 2 1 = 1 && !s.betweenRuns then .reject CH.err_RECAL_REJECT .busyReject else .accept v none

/-- What an accepted write of POOL_CTRL does besides its fields. -/
def State.poolCtrlWritten (s : State) (k : Nat) (v : Dword) : State :=
  let s := s.setFld (chPage k) CH.POOL_CTRL_RECAL 0
  if getBits v 2 1 = 1 then s.beginCal k .recal else s.rotation k

/-! Writes of CH.INPUT and CH.PAGE_CTRL -/

/-- The checks of R85 and R87 on a write of CH.INPUT. -/
def State.inputVerdict (s : State) (k : Nat) (v : Dword) : Verdict :=
  let pre := getBits v 3 1 = 1
  let pair := getBits v 4 1 = 1
  if !s.betweenRuns then .reject CH.err_BUSY_REJECT .busyReject
  else if 2 ≤ getBits v 0 2 || (pair && k % 2 == 0) then .reject CH.err_ENCODING .encoding
  else if k % 2 = 1 ∧ pair ∧ (pre ∨ s.prescaled (k - 1)) then .reject CH.err_ENCODING .encoding
  else if k % 2 = 0 ∧ pre ∧ s.paired (k + 1) then .reject CH.err_ENCODING .encoding
  else .accept v none

/-- The stored threshold is clamped when the mode that holds for the channel turns to DIFF (R78, R87). -/
def State.reclamp (s : State) (k : Nat) : State :=
  let old := s.fld (chPage k) CH.THRESH_LEVEL
  let new := clampLevel (s.modeOf k) old
  if new = old then s
  else ((s.setFld (chPage k) CH.THRESH_LEVEL new).raise (chPage k) CH.err_RANGE).entry .write .internal (chPage k + 0x044) .clamped old

/-- What an accepted write of CH.INPUT does besides its fields (R78, R87, R478): `old` is the value it replaced, `level` and `level2`
the levels of the new inputs of the channel and of the odd channel that shares them. -/
def State.inputWritten (s : State) (k : Nat) (old v : Dword) (level level2 : Bool) : State :=
  let modeChanged := getBits old 0 2 != getBits v 0 2
  let pairChanged := getBits old 4 1 != getBits v 4 1
  let s := s.setBit (chPage k) CH.live_PAIRED_ACTIVE (s.paired k)
  let s := s.reclamp k
  let s := if k % 2 = 0 ∧ s.paired (k + 1) then s.reclamp (k + 1) else s
  let s := if modeChanged || pairChanged then s.takeLevel k level else s
  let s := if modeChanged && k % 2 == 0 && s.paired (k + 1) then s.takeLevel (k + 1) level2 else s
  s.showWin k

/-- What an accepted change of CH.PAGE_CTRL.RUN does (R89, R94, R117, R478). While the comparator is off LEVEL keeps what it showed last: the
spec gives it no value then (DESIGN CHOICE, assumption 79). -/
def State.chRunWritten (s : State) (k : Nat) (was : Bool) (level : Bool) : State :=
  let on := s.bit (chPage k) PG.CTRL_RUN
  let s := if on && !was then s.takeLevel k level
    else if !on && was then s.setStuck k false else s
  s.rotation k

end Sys2Proof.Machine
end

