-- ==== Sys2Proof/Machine/Fifo.lean ====
section
/-! DEFINITION. The block stamp FIFOs: admission, FIFO_OVF gaps, time-extension entries and summaries (R184 to R187, Table 6-10). -/
namespace Sys2Proof.Machine
open Sys2Proof

def State.fifo (s : State) (i : Nat) : Fifo := Tab.get (fun _ => Fifo.empty) s.fifos i

/-- Byte field i of a run of level registers that begins at `off` (Table 6-22). -/
def levelFld (off i : Nat) : Fld := ⟨off + i / 4 * 4, i % 4 * 8, 7⟩

/-- Sets FIFO `i` of block `g` and shows its level, its peak and the block's open gaps (Tables 6-22, 6-23). -/
def State.setFifo (s : State) (g i : Nat) (f : Fifo) : State :=
  let grown := f.entries.length - (s.fifo (12 * g + i)).entries.length
  let f := if grown = 0 then f else { f with newAt := s.time.tclk, newCount := grown + (if f.newAt = s.time.tclk then f.newCount else 0) }
  let s := { s with fifos := Tab.set (fun _ => Fifo.empty) s.fifos (12 * g + i) f }
  let n := f.entries.length
  let s := s.setFld (blkPage g) (levelFld 0x04c i) n
  let s := if s.fld (blkPage g) (levelFld 0x058 i) < n then s.setRc (blkPage g) (levelFld 0x058 i) n else s
  s.setBit (blkPage g) BLK.live_OVF_OPEN ((List.range 12).any fun j => (s.fifo (12 * g + j)).gap.isSome)

/-- A read of FIFO_PEAK has cleared it: the highest level since is the one that the FIFOs have (Table 6-22). -/
def State.showPeaks (s : State) (g : Nat) : State :=
  s.forEach (List.range 12) fun i s =>
    let n := (s.fifo (12 * g + i)).entries.length
    if s.fld (blkPage g) (levelFld 0x058 i) < n then s.setFld (blkPage g) (levelFld 0x058 i) n else s

/-- The FIFO refused an entry: its bit of BLK.FIFO_OVF and the page's status. -/
def State.noteOvf (s : State) (g i : Nat) : State := (s.setRc (blkPage g) ⟨0x048, i, 1⟩ 1).post (blkPage g) BLK.st_FIFO_OVF

/-- The two records of a gap (Table 4-3), with sequence 0. -/
def gapPair (k cause count span : Nat) (start : DTime) (split coarse : Bool) : List Rec :=
  [headRec 3 k split 0 start, ⟨w0 0xf k coarse 0, BitVec.ofNat 18 (cause * 2 ^ 14 + count / 2 ^ 18 % 2 ^ 14), wordAt count 0, BitVec.ofNat 18 span⟩]

def FifoGap.pair (k : Nat) (g : FifoGap) : List Rec :=
  gapPair k 4 g.count (min 262143 (g.last + 1 - g.first)) g.start g.split g.coarse

/-- COARSE has read 1 at some time since `t` (R111). -/
def State.coarseSince (s : State) (t : DTime) : Bool := s.time.coarse.meets s.coarse s.now t s.now

/-- The open gap of FIFO `i` closes, at its limit or not: its error record is written, and its pair waits to enter the FIFO (R186). -/
def State.closeOvf (s : State) (g i : Nat) (split : Bool) : State :=
  let f := s.fifo (12 * g + i)
  match f.gap with
  | none => s
  | some x =>
    let s := s.setFifo g i { f with gap := none, closed := f.closed ++ [{ x with coarse := x.coarse || s.coarseSince x.start, split }] }
    s.errorAt x.start (some (g / 8)) (12 * (g / 8) + i) 0x0c g x.count false

/-- A gap past its limit has closed there (R108, R186). -/
def State.limitOvf (s : State) (g i : Nat) : State :=
  if (s.fifo (12 * g + i)).gap.any fun x => decide (x.first + 262143 ≤ s.time.tclk) then s.closeOvf g i true else s

/-- FIFO admits an item: no gap is open, none waits to enter, and its level is 60 or below (R186). -/
def Fifo.admits (f : Fifo) : Bool := f.gap.isNone && f.closed.isEmpty && decide (f.entries.length ≤ 60)

/-- A refused item of `n` edges joins the open FIFO_OVF gap, or opens one (R186). -/
def Fifo.refuse (f : Fifo) (t : DTime) (m n : Nat) (coarse : Bool) : Fifo :=
  match f.gap with
  | none => { f with gap := some ⟨t, m, m, n, coarse, false⟩ }
  | some g => { f with gap := some ⟨g.start, g.first, m, g.count + n, g.coarse || coarse, false⟩ }

/-- A refusal of `n` edges by FIFO `i`; a gap that it opens is noted. -/
def State.refuseItem (s : State) (g i n : Nat) (f : Fifo) : State :=
  let opening := f.gap.isNone
  let s := s.setFifo g i (f.refuse s.now s.time.tclk n s.coarse)
  if opening then s.noteOvf g i else s

/-- Offers an item of `n` edges in stamp mode (R186). -/
def State.offer (s : State) (g i n : Nat) (item : List Rec) : State :=
  let s := s.limitOvf g i
  let f := s.fifo (12 * g + i)
  if f.admits then s.setFifo g i { f with entries := f.entries ++ item } else s.refuseItem g i n f

/-- The time-extension entry of a FIFO (R184): at ARM, and before a stamp whose bit 54 differs. A refused one is held. -/
def State.offerExt (s : State) (g i k : Nat) (t : DTime) (cause : Nat) : State :=
  let s := s.limitOvf g i
  let f := s.fifo (12 * g + i)
  let e := extRec k 0 (s.epochOf t) t cause s.coarse s.holdover
  let f := { f with bit54 := some (bitOf t.toNat 54) }
  if f.admits then s.setFifo g i { f with entries := f.entries ++ [e] } else s.refuseItem g i 0 { f with heldExt := some e }

/-- The FIFO of block `g` for local channel `i` is enabled, in the given mode (Table 6-22). -/
def State.fifoOn (s : State) (g i : Nat) (summary : Bool) : Bool :=
  bitOf (s.fld (blkPage g) BLK.FIFO_CFG_EN) i && bitOf (s.fld (blkPage g) BLK.FIFO_CFG_SUMMARY) i == summary

/-- Delivers to every enabled FIFO of the channel's region that is in the given mode, while the region records. -/
def State.deliver (s : State) (k : Nat) (summary : Bool) (put : Nat → State → State) : State :=
  if s.recording (chRegion k) then
    (List.range 8).foldl (fun s b => let g := 8 * chRegion k + b; if s.fifoOn g (k % 12) summary && !s.bit (blkPage g) BLK.live_HALTED then put g s else s) s
  else s

/-- A stamp enters one FIFO, with a time extension where bit 54 changed (R184). -/
def State.stampEntry (s : State) (g k : Nat) (rising : Bool) (t : DTime) : State :=
  let i := k % 12
  let s := if (s.fifo (12 * g + i)).bit54 = some (bitOf t.toNat 54) then s else s.offerExt g i k t 1
  s.offer g i 1 [headRec 2 k rising 0 t]

/-- Words of a value of `w` bits, high word first. -/
def wordsOf (n : Nat) (v : Nat) : List Word := (List.range n).map fun i => wordAt v (18 * (n - 1 - i))

/-- The 32 words of a summary (Table 6-10); times beyond a field hold its largest value (R55). -/
def summaryWords (g : SubGate) (refused : Nat) : List Word :=
  let head := b2n (refused != 0) * 2 ^ 17 + b2n g.weak * 2 ^ 16 + b2n g.coarse * 2 ^ 15 + b2n g.gapBefore * 2 ^ 14 + b2n g.boundary * 2 ^ 13 + g.ks % 2 ^ 13
  [BitVec.ofNat 18 head, BitVec.ofNat 18 (g.t0.toNat / 2 ^ 54)] ++ wordsOf 3 (g.t0.toNat % 2 ^ 54) ++ wordsOf 3 ((g.tl - g.t0).toNat % 2 ^ 48)
    ++ wordsOf 3 (g.i0 % 2 ^ 54) ++ wordsOf 4 (unsigned 60 g.s1) ++ wordsOf 4 (unsigned 72 g.s2) ++ wordsOf 3 (sat 48 g.h.toNat)
    ++ wordsOf 3 (sat 48 g.l.toNat) ++ wordsOf 3 (sat 48 g.g.toNat)
    ++ [BitVec.ofNat 18 (g.nh % 2 ^ 13), BitVec.ofNat 18 (g.nl % 2 ^ 13), BitVec.ofNat 18 (sat 18 refused), 0]

/-- Records of four words each. -/
def recsOfWords : Nat → List Word → List Rec
  | 0, _ => []
  | n + 1, w => ⟨w.getD 0 0, w.getD 1 0, w.getD 2 0, w.getD 3 0⟩ :: recsOfWords n (w.drop 4)

/-- The error record of a run of refused summaries (R187). -/
def State.summaryRunEnds (s : State) (g k : Nat) (f : Fifo) : State :=
  s.errorAt f.refusedAt (some (chRegion k)) k 0x0c (g + 2 ^ 6) f.refused false

/-- The run of region `n` stops: a run of refused summaries that is still open in one of its FIFOs gets its record (R187). -/
def State.summaryRunsEnd (s : State) (n : Nat) : State :=
  s.forEach ((List.range 96).map (96 * n + ·)) fun j s =>
    let f := s.fifo j
    if f.refused = 0 then s
    else (s.setFifo (j / 12) (j % 12) { f with refused := 0 }).summaryRunEnds (j / 12) (12 * n + j % 12) f

/-- A summary enters one FIFO whole, or is refused whole (R187). -/
def State.summaryEntry (s : State) (g k : Nat) (b : SubGate) : State :=
  let i := k % 12
  let f := s.fifo (12 * g + i)
  if f.entries.length + 8 ≤ 64 then
    let s := s.setFifo g i { f with entries := f.entries ++ recsOfWords 8 (summaryWords b f.refused), refused := 0 }
    if f.refused = 0 then s else s.summaryRunEnds g k f
  else
    (s.setFifo g i { f with refused := f.refused + 1, refusedAt := if f.refused = 0 then s.now else f.refusedAt }).noteOvf g i

/-- Pairs that enter a FIFO of `n` entries in order, while it holds 60 or fewer; and those that wait on. -/
def enterPairs (k n : Nat) : List FifoGap → List Rec × List FifoGap
  | [] => ([], [])
  | g :: r =>
    if n ≤ 60 then ((g.pair k) ++ (enterPairs k (n + 2) r).1, (enterPairs k (n + 2) r).2) else ([], g :: r)

/-- The FIFO_OVF gap of a FIFO closes at a cycle start with 56 or fewer entries; in that cycle the pairs enter, and then a held time extension
(R186). A halted block's FIFOs account for nothing (R191). -/
def State.ovfClose (s : State) (g i : Nat) : State :=
  if s.bit (blkPage g) BLK.live_HALTED then s
  else
  let s := s.limitOvf g i
  let k := 12 * (g / 8) + i
  let f := s.fifo (12 * g + i)
  if decide (56 < f.entries.length) || (f.gap.any fun x => decide (s.time.tclk ≤ x.last)) then s
  else
    let s := s.closeOvf g i false
    let f := s.fifo (12 * g + i)
    let p := enterPairs k f.entries.length f.closed
    let ext := if p.2.isEmpty then f.heldExt.toList else []
    s.setFifo g i { f with entries := f.entries ++ p.1 ++ ext, closed := p.2, heldExt := if p.2.isEmpty then none else f.heldExt }

end Sys2Proof.Machine
end

