-- ==== Sys2Proof/Machine/Measure.lean ====
section
/-! DEFINITION. The channel accumulator, gates and grids, and the results of every measurement kind (R131 to R165). -/
namespace Sys2Proof.Machine
open Sys2Proof


/-- Seconds in su: 1.024 × 10^12 (R146). -/
def second : Nat := 1024000000000

def State.acc (s : State) (k : Nat) : Acc := (s.chan k).acc
def State.setAcc (s : State) (k : Nat) (a : Acc) : State := s.modChan k fun c => { c with acc := a }

/-! Result records (R162 to R164) -/

abbrev fOVF : Nat := 1
abbrev fSTUCK : Nat := 2
abbrev fTIMEOUT : Nat := 4
abbrev fPOISON : Nat := 8
abbrev fGAP : Nat := 16
abbrev fTRUNC : Nat := 128
abbrev fPRESC : Nat := 256
abbrev fNODATA : Nat := 1024
abbrev fNEWCHAIN : Nat := 2048

/-- The flags that the span from `a` to `b` gives (Table 5-10): STUCK over the primary and stop channels `ps`, DEGRADED over the channels `ks`. -/
def State.spanFlags (s : State) (ps ks : List Nat) (a b : DTime) : Nat :=
  fSTUCK * b2n (ps.any fun k => (s.chan k).stuck.meets (s.bit (chPage k) CH.live_STUCK) s.now a b)
    + 32 * b2n (s.time.coarse.meets s.coarse s.now a b) + 64 * b2n (s.time.hold.meets s.holdover s.now a b)
    + 512 * b2n (ks.any fun k => (s.chan k).weak.meets (s.weak k) s.now a b)

/-- Codes of Table 5-1. -/
def kindCode : MeasKind → Nat
  | .count => 0x01
  | .recip => 0x02
  | .regr => 0x03
  | .pulse => 0x04
  | .interval .. => 0x08
  | .skew .. => 0x09
  | .phase .. => 0x0a
  | .rise => 0x0c
  | .fall => 0x0d
  | .stats .. => 0x10
  | .adev .. => 0x14

/-- The second channel of an instance, 127 for none (Table 5-9). -/
def secondCh (m : Meas) : Nat :=
  match m.kind with
  | .interval _ c .. => c.val
  | .skew c _ | .phase c => c.val
  | .rise | .fall => m.ch.val + 1
  | _ => 127

/-- The instance of this description gives the samples of this source (Table 5-8). -/
def isSource (src : Sample) (m : Meas) : Bool :=
  match src, m.kind with
  | .interval n, .interval .. => m.num == n
  | .skew n, .skew .. => m.num == n
  | .rise n, .rise => m.num == n
  | .fall n, .fall => m.num == n
  | _, _ => false

/-- The second channels of an instance: its own, and that of the instance whose samples it takes. -/
def State.seconds (s : State) (m : Meas) : List Nat :=
  match m.kind with
  | .stats src _ => (s.insts.filter fun x => x.meas.ch == m.ch && isSource src x.meas).map fun x => secondCh x.meas
  | _ => if secondCh m = 127 then [] else [secondCh m]

/-- The channels that an instance involves. -/
def State.involved (s : State) (m : Meas) : List Nat := m.ch.val :: s.seconds m

/-- The channels of an instance whose STUCK its results show: the primary and the stop channel (Table 5-10). -/
def State.stuckChans (s : State) (m : Meas) : List Nat :=
  match m.kind with
  | .interval .. | .stats (.interval _) _ => s.involved m
  | _ => [m.ch.val]

def State.flagsOf (s : State) (m : Meas) (a b : DTime) : Nat := s.spanFlags (s.stuckChans m) (s.involved m) a b

/-- A gap of channel `k` that is open, or whose marker is on its way through the pool, meets the span from `a` to `b`. -/
def State.gapMeets (s : State) (k : Nat) (a b : DTime) : Bool :=
  ((s.chan k).gap.any fun g => decide (dt g.start b ≤ 0 ∧ dt a (g.start + ns (g.last + 1 - g.first)) ≤ 0))
    || (s.chan k).pipe.any fun e =>
      match e with
      | .marker _ _ _ span start _ _ => decide (dt start b ≤ 0 ∧ dt a (start + ns span) ≤ 0)
      | .stamp .. => false

/-- A gap of a channel involved lies within the span of a result of instance `x` (Table 5-10): one whose marker has left the pool, or not. -/
def State.gapIn (s : State) (x : Inst) (a b : DTime) : Bool :=
  (x.gaps.any fun e => decide (dt e.1 b ≤ 0 ∧ dt a e.2 ≤ 0)) || (s.involved x.meas).any fun k => s.gapMeets k a b

/-- Gaps that a later report may still meet. -/
def Inst.passGaps (x : Inst) (t : DTime) : Inst := { x with gaps := x.gaps.filter fun e => decide (dt t e.2 ≤ 0) }

/-- A result of the instance is formed from a poisoned word: one of a stopped cell, of a halted block, or in a poisoned register (R38). -/
def State.poisoned (s : State) (m : Meas) : Bool :=
  m.words.any fun w => (s.cell w.1.val).stopAt.isSome || s.bit (blkPage (w.1.val / 16)) BLK.live_HALTED || ((s.cell w.1.val).reg w.2.toNat).poison

/-- A 54-bit field in W1 to W3. -/
def c54 (v : Nat) : Cont := ⟨v / 2 ^ 36, v / 2 ^ 18, v⟩
/-- Bits [71:18] of a 72-bit field. -/
def cHi (v : Nat) : Cont := c54 (v / 2 ^ 18 % 2 ^ 54)
/-- Bits [17:0] of a 72-bit field in W1, and a 36-bit field in W2 to W3. -/
def cLo (v n : Nat) : Cont := ⟨v % 2 ^ 18, n / 2 ^ 18, n⟩

/-- Writes a result: head, descriptor, value continuations (Table 5-9). `idx` is the gate or result number. One formed from a poisoned word carries
POISON, and its value fields read 0, so that none exceeds its field (R38, Table 5-10). -/
def State.result (s : State) (m : Meas) (head : DTime) (flags idx : Nat) (vals : List Cont) : State :=
  let bad := s.poisoned m
  let flags := if bad then flags - flags % 2 + fPOISON else flags
  let vals := if bad then vals.map fun _ => ⟨0, 0, 0⟩ else vals
  let desc : Cont := ⟨kindCode m.kind * 2 ^ 12 + flags, idx % 2 ^ 18, secondCh m * 2 ^ 11 + vals.length * 2 ^ 6 + m.num.toNat⟩
  s.unitGroup (chRegion m.ch.val) 4 m.ch.val (flags != 0) head (desc :: vals)

/-! Values (R145 to R160) -/

/-- A frequency in Q36.36; where no duration stands the value is free (R148). -/
def freqField (n : Nat) (d : Int) (free : Nat) : Nat × Bool :=
  if d ≤ 0 then (free % 2 ^ 72, false) else fitU 72 (scaled 36 (((n * second : Nat) : Rat) / (d : Rat)))

/-- Slope and intercept of R147's line over a gate, relative to its start stamp; none where the fit has no solution. -/
def gateFit (g : Gate) : Option (Rat × Rat) :=
  let m : Rat := (g.m : Rat)
  let den : Rat := m * (g.sii : Rat) - (g.si : Rat) * (g.si : Rat)
  if den = 0 then none
  else
    let b := (m * (g.sit : Rat) - (g.si : Rat) * (g.st : Rat)) / den
    some (b, ((g.st : Rat) - b * (g.si : Rat)) / m)

/-- Fields of a RECIP gate: f, n, D (R146). -/
def recipVals (n : Nat) (d : Int) (free : Nat) : List Cont × Bool :=
  let f := freqField n d free
  let c := fitU 36 n
  let e := fitU 54 d
  ([cHi f.1, cLo f.1 c.1, c54 e.1], f.2 || c.2 || e.2)

/-- Fields of a REGR gate: f, n, P, M, D (R147, R148). -/
def regrVals (g : Gate) (free : Nat) : List Cont × Bool :=
  let fp : (Nat × Bool) × (Nat × Bool) :=
    match gateFit g with
    | some (b, _) => if b ≤ 0 then ((free % 2 ^ 72, false), (free % 2 ^ 72, false)) else (fitU 72 (scaled 36 ((second : Rat) / b)), fitU 72 (scaled 18 b))
    | none => ((free % 2 ^ 72, false), (free % 2 ^ 72, false))
  let c := fitU 36 g.idx
  let m := fitU 36 g.m
  let e := fitU 54 (dt g.last g.start)
  ([cHi fp.1.1, cLo fp.1.1 c.1, cHi fp.2.1, cLo fp.2.1 m.1, c54 e.1], fp.1.2 || fp.2.2 || c.2 || m.2 || e.2)

/-- Mean of `n` values of sum `h` in Q54.18; 0 for none. -/
def meanField (h : Int) (n : Nat) : Nat × Bool := if n = 0 then (0, false) else fitU 72 (scaled 18 ((h : Rat) / (n : Rat)))

/-- Fields of a PULSE gate, its flags (R151). -/
def pulseVals (g : Gate) (free : Nat) : List Cont × Nat :=
  if !g.both then (List.replicate 5 ⟨0, 0, 0⟩, fNODATA)
  else
    let h := meanField g.h g.nh
    let l := meanField g.l g.nl
    let a := fitU 36 g.nh
    let b := fitU 36 g.nl
    let den : Int := dt g.last g.start - g.g
    let d := if den ≤ 0 then (free % 2 ^ 36, false) else fitU 36 (scaled 36 ((g.h : Rat) / (den : Rat)))
    ([cHi h.1, cLo h.1 a.1, cHi l.1, cLo l.1 b.1, cLo 0 d.1],
      fOVF * b2n (h.2 || l.2 || a.2 || b.2 || d.2) + fNODATA * b2n (g.nh == 0 || g.nl == 0))

/-- Adds a sample (R158). -/
def Sums.add (u : Sums) (x : Int) : Sums :=
  if u.n = 0 then ⟨1, x, x * x, x, x, u.extra⟩
  else ⟨u.n + 1, u.sum + x, u.sumSq + x * x, if x < u.min then x else u.min, if u.max < x then x else u.max, u.extra⟩

/-- The square of the deviation (R158). -/
def Sums.variance (u : Sums) : Rat :=
  if u.n ≤ 1 then 0 else ((u.sumSq : Rat) - (u.sum : Rat) * (u.sum : Rat) / (u.n : Rat)) / ((u.n - 1 : Nat) : Rat)

/-- The fields of a report that has no sample, all 0. -/
def noStats : List Cont := List.replicate 6 ⟨0, 0, 0⟩

/-- Fields of a statistics report, its flags (R158, R159). -/
def statVals (u : Sums) (sgn : Bool) : List Cont × Nat :=
  if u.n = 0 then (noStats, fNODATA)
  else
    let fit := fun (w : Nat) (v : Int) => if sgn then fitS w v else fitU w v
    let x := fit 72 (scaled 18 ((u.sum : Rat) / (u.n : Rat)))
    let n := fitU 36 u.n
    let d := fitU 72 (sqrtEven (u.variance * ((2 ^ 36 : Nat) : Rat)))
    let e := fitU 36 u.extra
    let lo := fit 54 u.min
    let hi := fit 54 u.max
    ([cHi x.1, cLo x.1 n.1, cHi d.1, cLo d.1 e.1, c54 lo.1, c54 hi.1], fOVF * b2n (x.2 || n.2 || d.2 || e.2 || lo.2 || hi.2))

/-- Whether samples of a source are signed (Table 5-8). -/
def signedSource : Sample → Bool
  | .skew _ | .rise _ | .fall _ => true
  | _ => false

/-- Sums over groups of `m` consecutive gates; a remainder is discarded (R160). -/
def groups (m : Nat) : Nat → List (Nat × Int) → List (Nat × Int)
  | 0, _ => []
  | q + 1, l => ((l.take m).foldl (fun a g => (a.1 + g.1, a.2 + g.2)) (0, 0)) :: groups m q (l.drop m)

/-- Frequency of a group in Hz. -/
def groupFreq (g : Nat × Int) : Rat := ((g.1 * second : Nat) : Rat) / (g.2 : Rat)

/-- Sum of squares of successive differences. -/
def sqDiffs : List Rat → Rat
  | a :: b :: r => (b - a) * (b - a) + sqDiffs (b :: r)
  | _ => 0

/-- σ_y of one octave in Q0.54; none when it holds fewer than two groups (R160). A window with no time gives a free value. -/
def octave (win : List (Nat × Int)) (m free : Nat) : Option (Nat × Bool) :=
  let q := win.length / m
  if q < 2 then none
  else
    let tot := win.foldl (fun a g => (a.1 + g.1, a.2 + g.2)) (0, 0)
    let gs := groups m q win
    if tot.1 = 0 ∨ tot.2 ≤ 0 ∨ gs.any (fun g => g.2 ≤ 0) = true then some (free % 2 ^ 54, false)
    else
      let f := groupFreq tot
      some (fitU 54 (sqrtEven (sqDiffs (gs.map groupFreq) / (2 * ((q - 1 : Nat) : Rat)) / (f * f) * ((2 ^ 108 : Nat) : Rat))))

/-- Fields of an ADEV window (R160, R161). -/
def adevVals (win : List (Nat × Int)) (octaves free : Nat) : List Cont × Bool :=
  let os := (List.range octaves).filterMap fun j => octave win (2 ^ j) free
  let m := fitU 36 win.length
  (cLo os.length m.1 :: os.map fun o => c54 o.1, m.2 || os.any (·.2))

/-! Instances -/

def State.inst (s : State) (i : Nat) : Option Inst := s.insts[i]?
def State.setInst (s : State) (i : Nat) (x : Inst) : State := { s with insts := s.insts.set i x }

/-- Applies `f` to each instance in order. -/
def State.eachInst (s : State) (f : Nat → Inst → State → State) : State :=
  (List.range s.insts.length).foldl (fun s i => match s.inst i with
    | some x => f i x s
    | none => s) s

/-- Writes a result of instance `i` and counts it. -/
def State.report (s : State) (i : Nat) (head : DTime) (flags idx : Nat) (vals : List Cont) : State :=
  match s.inst i with
  | none => s
  | some x => (s.result x.meas head flags idx vals).setInst i { x with results := x.results + 1 }

/-- Writes the ADEV window of instance `i`, which starts anew (R160, R161). -/
def State.closeWindow (s : State) (i : Nat) (x : Inst) (octaves : Nat) (g : Gate) : State :=
  if x.window.length < 2 then s.setInst i { x with window := [], windowFlags := 0 }
  else
    let v := adevVals x.window octaves s.free.toNat
    let s := s.drawn.setInst i { x with window := [], windowFlags := 0 }
    s.report i g.last ((x.windowFlags ||| fOVF * b2n v.2)) g.num v.1

/-- EDGE.SEL passes one polarity. -/
def State.selPasses (s : State) (k : Nat) (rising : Bool) : Bool := s.passes k rising

/-- Takes the nearest target edge within the window, the earlier on a tie: its place (R155). -/
def nearest (w : Nat) (a : DTime) (bs : List (DTime × Bool)) : Option Nat :=
  ((bs.zipIdx).foldl (fun (best : Option (Nat × Nat)) b =>
    let d := (dt b.1.1 a).natAbs
    if w < d then best
    else match best with
      | some (e, _) => if d < e then some (d, b.2) else best
      | none => some (d, b.2)) none).map (·.2)

/-- Pairs edges of a reference in arrival order (R155): each one's sample and the later stamp of its pair, none where it finds no pair; and the target
edges with those taken marked. -/
def pairEdges (w : Nat) : List DTime → List (DTime × Bool) → List (Option (Int × DTime)) × List (DTime × Bool)
  | [], bs => ([], bs)
  | a :: r, bs =>
    match nearest w a bs with
    | none => (none :: (pairEdges w r bs).1, (pairEdges w r bs).2)
    | some j =>
      let b := bs.getD j (0, true)
      if b.2 then (none :: (pairEdges w r bs).1, (pairEdges w r bs).2)
      else
        let p := pairEdges w r (bs.set j (b.1, true))
        (some (dt b.1 a, if dt b.1 a < 0 then a else b.1) :: p.1, p.2)

/-- Pairs the edges of a SKEW gate. Its end edge is the next gate's start edge, and what it takes there it takes again; so it leaves no mark, unless the
gate ended early. -/
def pairGate (w : Nat) (g : EndedGate) (bs : List (DTime × Bool)) : List (Option (Int × DTime)) × List (DTime × Bool) :=
  let p := pairEdges w g.edges.dropLast bs
  let q := pairEdges w (g.edges.drop (g.edges.length - 1)) p.2
  (p.1 ++ q.1, if g.early then q.2 else p.2)

/-- Sums over samples; one that is missing adds to the extra count. -/
def sumSamples (l : List (Option Int)) : Sums :=
  l.foldl (fun u x =>
    match x with
    | some x => u.add x
    | none => { u with extra := u.extra + 1 }) Sums.empty

/-- Sends one sample to the STATS instances of channel `k` that draw from `src`, and reports every N samples; a report per gate takes samples of the
open gate only (R158, R159). `x` is none for a sample excluded. -/
def State.sample (s : State) (k : Nat) (src : Sample) (x : Option Int) (t : DTime) (inGate : Bool) : State :=
  s.eachInst fun i y s =>
    match y.meas.kind with
    | .stats z per =>
      if y.meas.ch.val = k ∧ z = src then
        let u := match x with
          | some v => y.sums.add v
          | none => { y.sums with extra := y.sums.extra + 1 }
        match per with
        | some n =>
          if n ≤ u.n then
            let r := statVals u (signedSource z)
            let f := (s.flagsOf y.meas y.spanFrom t ||| fGAP * b2n (s.gapIn y y.spanFrom t)) ||| r.2
            (s.setInst i { y.passGaps t with sums := Sums.empty, spanFrom := t }).report i t f y.results r.1
          else s.setInst i { y with sums := u }
        | none => if inGate then s.setInst i { y with sums := u } else s
      else s
    | _ => s

/-- The entries of every edge of channel `k` that arrived before `t` have left the pool. -/
def State.emittedTo (s : State) (k : Nat) (t : DTime) : Bool :=
  (s.chan k).pipe.all fun e =>
    match e with
    | .stamp _ tc .. => decide (0 ≤ dt tc t)
    | .marker _ _ _ _ start .. => decide (0 ≤ dt start t)

/-- No edge that has yet to leave the pools of channels `ks` can carry a stamp before `t` (R145). -/
def State.passed (s : State) (ks : List Nat) (t : DTime) : Bool :=
  decide (0 ≤ dt s.now (t + ns 177)) && ks.all fun k => s.emittedTo k (t + ns 161)

/-- The report of a gate of instance `x` over the samples `l`, none for one that is missing, and with it those of the STATS instances that take these
samples per gate (R155, R157, R158). -/
def State.reportEnded (s : State) (i : Nat) (x : Inst) (src : Sample) (g : EndedGate) (l : List (Option Int)) : State :=
  let flags := g.flags ||| fGAP * b2n (s.gapIn x g.start g.endT)
  let v := if g.zero then (noStats, fNODATA) else statVals (sumSamples l) true
  let s := s.report i g.endT (flags ||| v.2) g.num v.1
  s.eachInst fun j y s =>
    if y.meas.ch = x.meas.ch ∧ y.meas.kind = .stats src none then s.report j g.endT (flags ||| v.2) g.num v.1 else s

/-- The oldest ended gate `g` of SKEW, RISE or FALL instance `x` is reported, over its pairs or over the samples whose later edge lies in it;
`r` wait on (R155, R157). -/
def State.settleGate (s : State) (i w : Nat) (x : Inst) (g : EndedGate) (r : List EndedGate) : State :=
  let p : List (Option (Int × DTime)) × List (DTime × Bool) := if g.zero then ([], x.edgesB) else pairGate w g x.edgesB
  let mine : List (Option Int) :=
    (x.samples.filter fun e => decide ((if g.first then 0 else 1) ≤ dt e.2 g.start ∧ dt e.2 g.endT ≤ 0)).map fun e => e.1
  let s := s.setInst i { x.passGaps g.endT with
    waiting := r
    edgesB := p.2.filter fun b => decide (-(w : Int) ≤ dt b.1 g.endT)
    samples := x.samples.filter fun e => decide (0 ≤ dt e.2 g.endT) }
  match x.meas.kind with
  | .skew .. =>
    let s := p.1.foldl (fun (s : State) q => match q with
      | some v => s.sample x.meas.ch.val (.skew x.meas.num) (some v.1) v.2 false
      | none => s) s
    s.reportEnded i x (.skew x.meas.num) g (p.1.map fun q => q.map (·.1))
  | .rise => s.reportEnded i x (.rise x.meas.num) g mine
  | _ => s.reportEnded i x (.fall x.meas.num) g mine

/-- Reports the ended gates of instance `i` that no edge can add to, or all of them, in order (R155, R157, R165). -/
def State.settleEnded (s : State) (i w : Nat) (all : Bool) : Nat → State
  | 0 => s
  | fuel + 1 =>
    match s.inst i with
    | none => s
    | some x =>
      match x.waiting with
      | [] => s
      | g :: r =>
        if all || g.zero || s.passed (s.involved x.meas) (g.endT + BitVec.ofNat 64 w) then (s.settleGate i w x g r).settleEnded i w all fuel
        else s

/-- Fitted time of the index whose fitted time is nearest the grid point, relative to it (R156). -/
def nearGrid (start grid : DTime) (b a : Rat) : Rat :=
  let x : Rat := (a + ((dt start grid : Int) : Rat))
  x + b * ((roundEven (-(x / b)) : Int) : Rat)

/-- φ reduced into −b/2 ≤ φ < b/2 (R156). -/
def reducePhase (b φ : Rat) : Rat :=
  let n := (φ + b / 2) / b
  φ - b * ((n.num / (n.den : Int) : Int) : Rat)

/-- No gate of channel `c` is bounded, or is to be, by the grid point at `t`, once none that has ended was: it has no gate open there any more
(R156). -/
def State.noneBounded (s : State) (c : Nat) (t : DTime) : Bool :=
  s.passed [c] t && match (s.acc c).gate with
    | some g => decide (0 < dt g.grid t)
    | none => true

/-- Reports the PHASE results that are settled: at each grid point of the reference, once the target's gate of that point has ended or none is
(R156). -/
def State.settlePhase (s : State) (i : Nat) (all : Bool) : Nat → State
  | 0 => s
  | fuel + 1 =>
    match s.inst i with
    | none => s
    | some x =>
      match x.fitsA with
      | [] => s
      | a :: r =>
        let b? := x.fitsB.find? fun b => b.grid == a.grid
        if b?.isNone && !all && !(x.fitsB.any fun b => decide (0 < dt b.grid a.grid)) && !s.noneBounded (secondCh x.meas) a.grid then s
        else
          let x' := { x with fitsA := r, fitsB := x.fitsB.filter fun f => decide (0 < dt f.grid a.grid) }
          let flags := a.flags ||| (b?.map (·.flags)).getD 0
          let s := match a.line, b?.bind (·.line) with
            | some (ba, aa), some (bb, ab) =>
              if ba ≤ 0 ∨ bb ≤ 0 then
                let v := s.free.toNat
                (s.drawn.setInst i x').report i a.grid flags a.num [cHi v, cLo v 0]
              else
                let v := fitS 72 (scaled 18 (reducePhase ba (ab - aa)))
                (s.setInst i x').report i a.grid (flags ||| fOVF * b2n v.2) a.num [cHi v.1, cLo v.1 0]
            | _, _ => (s.setInst i x').report i a.grid (flags ||| fNODATA) a.num [⟨0, 0, 0⟩, ⟨0, 0, 0⟩]
          s.settlePhase i all fuel

/-- A fit whose line is held as slope and as fitted time near the grid point, none after a stuck closure, with the flags of the REGR result
(R156). -/
def Gate.phaseFit (g : Gate) (flags : Nat) (stuckEnd : Bool) : Fit :=
  ⟨g.num, g.grid, if stuckEnd then none else (gateFit g).map fun l => (l.1, nearGrid g.start g.grid l.1 l.2), flags ||| fOVF * b2n (regrVals g 0).2⟩

/-- A gate of channel `k` ended: what its instance `i` reports. `extra` are the flags of a stuck or truncated end, `early` says that it
ended before its end edge, so that only what stood at its last index edge counts, `empty` that it ended at its start edge (R143, R144). -/
def State.gateReport (s : State) (k : Nat) (g : Gate) (extra : Nat) (early empty : Bool) (i : Nat) (x : Inst) : State :=
  let flags := (s.flagsOf x.meas g.start g.last ||| extra) ||| (fGAP * b2n g.gap ||| fNEWCHAIN * b2n g.newChain)
  let first := !(s.acc k).past.any fun p => p.2.2 == g.start
  let wait := fun (edges : List DTime) (zero : Bool) =>
    s.setInst i { x with waiting := x.waiting ++ [⟨g.num, g.start, g.last, flags, edges, first, early, zero⟩], edgesA := [] }
  let stuckEnd := early && extra &&& fSTUCK != 0
  let empty? := fun (n : Nat) => (s.report i g.last (flags ||| fNODATA) g.num (List.replicate n ⟨0, 0, 0⟩))
  let u := if early then x.kept else x.sums
  -- a stuck gate with no edge after its start reports 0 throughout (R143)
  let sums := fun (v : List Cont × Nat) =>
    let v := if stuckEnd && empty then (noStats, fNODATA) else v
    (s.setInst i { x.passGaps g.last with sums := Sums.empty, kept := Sums.empty }).report i g.last
      ((flags ||| fGAP * b2n (s.gapIn x g.start g.last)) ||| v.2) g.num v.1
  if x.meas.ch.val = k then
    match x.meas.kind with
    | .recip =>
      if empty then empty? 3
      else
        let v := recipVals g.idx (dt g.last g.start) s.free.toNat
        s.drawn.report i g.last (flags ||| fOVF * b2n v.2) g.num v.1
    | .regr =>
      if empty then empty? 5
      else
        let v := regrVals g s.free.toNat
        s.drawn.report i g.last (flags ||| fOVF * b2n v.2) g.num v.1
    | .pulse =>
      if empty then empty? 5
      else
        let v := pulseVals g s.free.toNat
        s.drawn.report i g.last (flags ||| v.2) g.num v.1
    | .skew _ _ => wait x.edgesA (stuckEnd && empty)
    | .rise | .fall =>
      let need := x.meas.kind == .rise
      wait [] ((stuckEnd && empty) || !(s.selPasses k need && s.selPasses (k + 1) need))
    | .stats (.skew _) none | .stats (.rise _) none | .stats (.fall _) none => s
    | .stats z none => sums (statVals u (signedSource z))
    | .adev m octaves =>
      if empty then s
      else
        let x := { x with window := x.window ++ [(g.idx, dt g.last g.start)], windowFlags := x.windowFlags ||| flags }
        if m ≤ x.window.length then s.closeWindow i x octaves g else s.setInst i x
    | .phase _ => s.setInst i { x with fitsA := x.fitsA ++ [g.phaseFit flags stuckEnd] }
    | _ => s
  else
    match x.meas.kind with
    | .phase c => if c.val = k then s.setInst i { x with fitsB := x.fitsB ++ [g.phaseFit flags stuckEnd] } else s
    | _ => s

/-- Settles what waits on other channels, in the region of channel `k`. Where a PHASE instance's two channels have no gate open and open none any
more, no fit of theirs is to come. -/
def State.settleWaiting (s : State) (k : Nat) : State :=
  s.eachInst fun i x s =>
    if chRegion x.meas.ch.val = chRegion k then
      match x.meas.kind with
      | .skew _ w => s.settleEnded i w false x.waiting.length
      | .rise | .fall => s.settleEnded i 0 false x.waiting.length
      | .phase c =>
        let ended := fun (j : Nat) => (s.acc j).gate.isNone && (s.acc j).stopped.isSome
        s.settlePhase i (ended x.meas.ch.val && ended c.val) x.fitsA.length
      | _ => s
    else s

/-- The gate as it stood at its last stamped index edge. -/
def Gate.back (g : Gate) : Gate := { g with h := g.kept.h, l := g.kept.l, nh := g.kept.nh, nl := g.kept.nl, g := g.kept.g }

/-- Closes the open gate and writes its results (R137, R143, R144). -/
def State.closeGate (s : State) (k : Nat) (g : Gate) (extra : Nat) (early : Bool) : State :=
  let empty := early && g.m ≤ 1
  let g := if early then g.back else g
  let s := s.eachInst fun i x s => s.gateReport k g extra early empty i x
  let s := s.setAcc k { s.acc k with gate := none, past := (g.num, g.start, g.last) :: (s.acc k).past }
  let s := (s.addSat (chPage k) CH.GATES_DONE 1).setFld (chPage k) CH.live_GATE_OPEN 0
  (s.post (chPage k) CH.st_GATE_DONE).settleWaiting k

/-- A chain ends: its windows close at the last gate, and the next gate opens a new one (R140, R161). -/
def State.endChain (s : State) (k : Nat) (g : Option Gate) : State :=
  let s := s.eachInst fun i x s =>
    if x.meas.ch.val = k then
      match x.meas.kind, g with
      | .adev _ octaves, some g => s.closeWindow i x octaves g
      | .adev _ _, none => s.setInst i { x with window := [], windowFlags := 0 }
      | _, _ => s
    else s
  let s := s.setAcc k { s.acc k with fresh := true }
  ((s.addSat (chPage k) CH.CHAIN_BREAKS 1).setFld (chPage k) CH.live_CHAIN_BROKEN 1).post (chPage k) CH.st_CHAIN_BREAK

/-! Grids (R138, R141) -/

/-- The gate length in su in TIME mode. -/
def State.gateLen (s : State) (k : Nat) : Nat :=
  (s.rd (chPage k + 0x108)).toNat * (if s.bit (chPage k) CH.GATE_CTRL_SCALE then 1000 else 1) * 1024

def State.gateMode (s : State) (k : Nat) : Nat := s.fld (chPage k) CH.GATE_CTRL_MODE

/-- The number and the DTIME of the smallest grid point later than `t` (R138); before the anchor the anchor itself, since a time before it lies in the
gate that the anchor bounds. -/
def State.gridAfter (s : State) (k : Nat) (t : DTime) : Nat × DTime :=
  let a := s.acc k
  let l := s.gateLen k
  let d := dt t a.gridAt
  let j := if d < 0 then 0 else d.toNat / l + 1
  (a.gridNum + j, a.gridAt + BitVec.ofNat 64 (j * l))

/-- The grid continues from the point `j`, at `b` (R141). -/
def State.anchorGrid (s : State) (k j : Nat) (b : DTime) : State := s.setAcc k { s.acc k with gridNum := j, gridAt := b }

/-- The grid continues from the latest point at or before `t` (R141). -/
def State.anchorAt (s : State) (k : Nat) (t : DTime) : State :=
  let p := s.gridAfter k t
  if (s.acc k).origin.isNone || dt t (s.acc k).gridAt < 0 then s
  else s.anchorGrid k (p.1 - 1) (p.2 - BitVec.ofNat 64 (s.gateLen k))

/-! Clamps (R141) -/

/-- The value R141 stores for a gate length, under a mode, a scale and the image's minimum. -/
def clampLen (mode : Nat) (micro : Bool) (minNs v : Nat) : Nat :=
  if mode = 0 then
    let least := max 1000 minNs
    max v (if micro then (least + 999) / 1000 else least)
  else if mode = 1 then max v 1 else v

/-- Makes the clamps of R141 again on the values held, each journalled with the value that was held. -/
def State.reclampGate (s : State) (k : Nat) : State :=
  let p := chPage k
  let v := (s.rd (p + 0x108)).toNat
  let w := clampLen (s.gateMode k) (s.bit p CH.GATE_CTRL_SCALE) (s.fld p CH.GATE_MIN_MIN_NS) v
  let s := if w = v then s
    else ((s.wr (p + 0x108) (BitVec.ofNat 32 w)).raise p CH.err_ACC_RANGE).entry .write .internal (p + 0x108) .clamped v
  let a := s.rd (p + 0x100)
  let kMin := s.fld p CH.GATE_MIN_KMIN_M1
  if getBits a 3 12 < kMin then
    ((s.setFld p CH.ACC_CTRL_K_M1 kMin).raise p CH.err_ACC_RANGE).entry .write .internal (p + 0x100) .clamped a.toNat
  else s

/-! Interval units (R152 to R154) -/

/-- Writes the result of the interval in progress and re-arms the unit. -/
def State.intervalResult (s : State) (i : Nat) (x : Inst) (arming : Arming) (ta : DTime) (ign : Nat) (flags : Nat) (head : DTime) (gapSpan : Nat) : State :=
  let v := fitU 54 (dt head ta)
  let flags := flags ||| fOVF * b2n (v.2 || decide (2 ^ 18 ≤ ign))
  let s := s.setInst i { x with started := none, arm := if arming = .auto then some (some head) else x.arm }
  let s := s.report i head flags x.results [c54 v.1, ⟨sat 18 ign, gapSpan / 2 ^ 18, gapSpan⟩]
  -- a sample of the STATS instances that draw from this unit (Table 5-8)
  s.sample x.meas.ch.val (.interval x.meas.num) (if flags &&& (fGAP + fTIMEOUT + fTRUNC) = 0 then some (dt head ta) else none) head
    (s.acc x.meas.ch.val).gate.isSome

/-- The flags of an interval from `ta` to `b`. -/
def State.intervalFlags (s : State) (x : Inst) (ta b : DTime) (gap : Bool) : Nat :=
  s.flagsOf x.meas ta b ||| fGAP * b2n (gap || (s.involved x.meas).any fun k => s.gapMeets k ta b)

/-- Stop edges of the emission cycle that stand in the unit's list are considered in order (R153). -/
def State.tryStops (s : State) (i : Nat) (arming : Arming) (holdoff : Nat) : List (Nat × DTime) → State
  | [] => s
  | e :: r =>
    match s.inst i with
    | none => s
    | some x =>
      match x.started with
      | none => s
      | some (ta, ign, gap) =>
        if (holdoff * 1024 : Nat) ≤ dt e.2 ta then
          s.intervalResult i x arming ta ign (s.intervalFlags x ta e.2 gap) e.2 0
        else s.tryStops i arming holdoff r

/-- A stamped edge of channel `k` reaches interval unit `i`. A stop of the interval in progress comes first, so that a start
edge is never its own stop (R153). -/
def State.intervalEdge (s : State) (k m : Nat) (t : DTime) (rising : Bool) (i : Nat) (x : Inst) : State :=
  match x.meas.kind with
  | .interval sr sc pr arming holdoff =>
    let isStop := sc.val = k ∧ pr = rising
    let isStart := x.meas.ch.val = k ∧ sr = rising
    let s := if isStop then
        let s := s.setInst i { x with stops := (x.stops.filter fun e => e.1 == m) ++ [(m, t)] }
        s.tryStops i arming holdoff.toNat [(m, t)]
      else s
    if isStart then
      match s.inst i with
      | none => s
      | some y =>
        -- in GATED mode a start lies in a gate, be it its end edge
        let a := s.acc k
        let open? := a.since.isSome && a.stopped.isNone
          && (arming != .gated || a.gate.isSome || a.past.head?.any fun p => p.2.2 == t)
        let ok := open? && match y.arm with
          | none => false
          | some none => true
          | some (some b) => if arming = .auto then decide (0 < dt t b) else decide (0 ≤ dt t b)
        let used := if arming ≠ .auto ∧ ok then none else y.arm
        match y.started with
        | some (ta, ign, gap) => s.setInst i { y with started := some (ta, ign + 1, gap), arm := used }
        | none =>
          if x.started.isSome then s.setInst i { y with arm := used }
          else if ok then
            let s := s.setInst i { y with started := some (t, 0, false), arm := none }
            -- the stops emitted in this cycle before the start, which is never its own stop
            s.tryStops i arming holdoff.toNat ((if isStop then y.stops.dropLast else y.stops).filter fun e => e.1 == m)
          else s
    else s
  | _ => s

/-- A gap marker of channel `k` reaches interval unit `i` (Table 5-7): one that does not end the interval lies within it (Table 5-10). -/
def State.intervalGap (s : State) (k : Nat) (start : DTime) (span : Nat) (i : Nat) (x : Inst) : State :=
  match x.meas.kind, x.started with
  | .interval _ sc _ arming holdoff, some (ta, ign, _) =>
    if sc.val = k ∧ (holdoff.toNat * 1024 : Nat) ≤ dt start ta then s.intervalResult i x arming ta ign (s.intervalFlags x ta start true) start span
    else if x.meas.ch.val = k ∨ sc.val = k then s.setInst i { x with started := some (ta, ign, true) } else s
  | _, _ => s

/-- A stuck expiry of the stop channel, or the grace expiry of the start channel, ends the interval in progress at this cycle (Table 5-7). -/
def State.intervalEnd (s : State) (k flags : Nat) (byStop : Bool) : State :=
  s.eachInst fun i x s =>
    match x.meas.kind, x.started with
    | .interval _ sc _ arming _, some (ta, ign, gap) =>
      if (if byStop then sc.val else x.meas.ch.val) = k then s.intervalResult i x arming ta ign (s.intervalFlags x ta s.now gap ||| flags) s.now 0 else s
    | _, _ => s

/-- Arms the units of an image at START (Table 5-6), and clears every instance for the run. -/
def State.startInsts (s : State) : State :=
  { s with insts := s.insts.map fun x =>
      let y := Inst.init x.meas
      match x.meas.kind with
      | .interval _ _ _ .auto _ => { y with arm := some none }
      | _ => { y with spanFrom := s.now } }

/-- A decision bound to an interval unit (Table 5-6): it replaces an earlier one not yet used. -/
def State.armDecision (s : State) (ch : Nat) (num : BitVec 6) (t : DTime) : State :=
  s.eachInst fun i x s =>
    match x.meas.kind with
    | .interval _ _ _ .event _ => if x.meas.ch.val = ch ∧ x.meas.num = num then s.setInst i { x with arm := some (some t) } else s
    | _ => s

/-- A decision of the gate event of channel `k` (R137): it acts on the open gate only. -/
def State.gateDecision (s : State) (k : Nat) (t : DTime) : State :=
  let a := s.acc k
  match a.gate with
  | some g => if s.gateMode k = 2 ∧ g.decided.isNone then s.setAcc k { a with gate := some { g with decided := some t } } else s
  | none => s

/-! COUNT gates (R145) -/

/-- COUNT gates up to the one that holds time `t`, from gate `b` on. -/
def growBuckets (l : Nat) (t : DTime) : Nat → Bucket → List Bucket
  | 0, b => [b]
  | n + 1, b => if dt t b.hi < 0 then [b] else b :: growBuckets l t n ⟨b.num + 1, b.hi, b.hi + BitVec.ofNat 64 l, false⟩

/-- Makes the COUNT gates of channel `k` reach time `t`; none opens after STOP (R144). -/
def State.reachBucket (s : State) (k : Nat) (t : DTime) : State :=
  let a := s.acc k
  if a.origin.isNone || s.gateMode k != 0 || s.gateLen k == 0 then s
  else
    let t := match a.stopped with
      | some x => if dt x t < 0 then x else t
      | none => t
    let l := s.gateLen k
    let last := a.buckets.getLast?.getD ⟨a.gridNum + 1, a.gridAt, a.gridAt + BitVec.ofNat 64 l, false⟩
    s.setAcc k { a with buckets := a.buckets.dropLast ++ growBuckets l t ((dt t last.hi).toNat / l + 1) last }

/-- `n` index edges of time `t` arrive at the COUNT gates of channel `k`. -/
def State.countAt (s : State) (k n : Nat) (t : DTime) : State :=
  let a := s.acc k
  if a.since.isSome then s.setAcc k { a with times := a.times ++ [(t, n)] } else s

/-- Those of an edge that is not stamped, as it arrives. While ACC_CTRL.EN is 0 none counts: the accumulator does not run (DESIGN CHOICE,
assumption 80: the spec does not say). -/
def State.countNow (s : State) (k n : Nat) : State := if s.bit (chPage k) CH.ACC_CTRL_EN then s.countAt k n s.now else s

/-- MODE is to leave TIME at `t`: the grid is anchored there, and COUNT gates that have not ended by then give no result, which is for TIME alone
(Table 5-1; DEDUCED, assumption 80). -/
def State.leaveTime (s : State) (k : Nat) (t : DTime) : State :=
  if s.gateMode k != 0 || (s.acc k).origin.isNone then s
  else
    let s := (s.reachBucket k t).anchorAt k t
    s.setAcc k { s.acc k with buckets := (s.acc k).buckets.filter fun b => decide (dt b.hi t ≤ 0) }

/-- MODE has come back to TIME at `t`: the first COUNT gate begins at the next grid point. -/
def State.enterTime (s : State) (k : Nat) (t : DTime) : State :=
  let a := s.acc k
  if s.gateMode k != 0 || a.origin.isNone || a.stopped.isSome then s
  else
    let p := s.gridAfter k t
    s.setAcc k { a with buckets := a.buckets ++ [⟨p.1 + 1, p.2, p.2 + BitVec.ofNat 64 (s.gateLen k), false⟩] }

/-- A gap from `t0` to `t1` reaches the COUNT gates of channel `k`. -/
def State.countGap (s : State) (k : Nat) (t0 t1 : DTime) : State :=
  let a := s.acc k
  if a.since.isSome then s.setAcc k { a with gaps := a.gaps ++ [(t0, t1)] } else s

/-- The grid of COUNT gates follows the anchor, with the new gate length: no gate lies past the one that begins at the anchor. -/
def State.regrid (s : State) (k : Nat) : State :=
  let a := s.acc k
  s.setAcc k { a with buckets := (a.buckets.filter fun b => decide (dt b.lo a.gridAt ≤ 0)).map fun b =>
    if b.lo = a.gridAt then { b with hi := b.lo + BitVec.ofNat 64 (s.gateLen k) } else b }

def isCount (m : Meas) (k : Nat) : Bool := m.ch.val == k && m.kind == .count

/-- The COUNT result of the oldest gate that has ended 177 ns ago (R145). -/
def State.countResult (s : State) (k : Nat) : State :=
  let s := s.reachBucket k s.now
  let a := s.acc k
  match a.buckets with
  | [] => s
  | b :: r =>
    if !s.passed [k] b.hi then s
    else
      let mine := fun (t : DTime) => decide (dt b.lo t ≤ 0 ∧ dt t b.hi < 0)
      let count : Nat := (a.times.filter fun e => mine e.1).foldl (fun n e => n + e.2) 0
      let gap := (a.gaps.any fun e => decide (dt e.1 b.hi < 0 ∧ dt b.lo e.2 ≤ 0)) || (s.chan k).gap.any fun g => decide (dt g.start b.hi < 0)
      let n := fitU 36 count
      let f := freqField count (dt b.hi b.lo) s.free.toNat
      let flags := (s.spanFlags [k] [k] b.lo b.hi ||| fGAP * b2n gap) ||| (fPRESC * b2n (s.prescaled k) ||| fTRUNC * b2n b.trunc) ||| fOVF * b2n (n.2 || f.2)
      let next : List Bucket := if r.isEmpty && !b.trunc && a.stopped.isNone && s.gateMode k == 0 then
          [⟨b.num + 1, b.hi, b.hi + BitVec.ofNat 64 (s.gateLen k), false⟩] else r
      let s := s.drawn.setAcc k { a with
        buckets := next
        times := a.times.filter fun e => decide (0 ≤ dt e.1 b.hi)
        gaps := a.gaps.filter fun e => decide (0 ≤ dt e.2 b.hi) }
      s.eachInst fun i x s => if isCount x.meas k then s.report i b.hi flags b.num [cHi f.1, cLo f.1 n.1] else s

/-! Stuck gates (R143) -/

/-- The kinds that write a result for each grid point while stuck; those that wait for a second channel, and what draws from them, keep their
order (R165). -/
def gatedValues : MeasKind → Option Nat
  | .recip => some 3
  | .regr | .pulse => some 5
  | .stats (.skew _) none | .stats (.rise _) none | .stats (.fall _) none => none
  | .stats _ none => some 6
  | _ => none

/-- One result of count 0 for grid point `j` at `b` (R143). -/
def State.stuckResult (s : State) (k j : Nat) (b : DTime) : State :=
  s.eachInst fun i x s =>
    let a := b - BitVec.ofNat 64 (s.gateLen k)
    let flags := (s.flagsOf x.meas a b ||| fGAP * b2n (s.gapIn x a b)) ||| (fSTUCK ||| fNODATA)
    if x.meas.ch.val = k then
      match gatedValues x.meas.kind with
      | some n => s.report i b flags j (List.replicate n ⟨0, 0, 0⟩)
      | none =>
        match x.meas.kind with
        | .phase _ => s.setInst i { x with fitsA := x.fitsA ++ [⟨j, b, none, flags⟩] }
        | .skew .. | .rise | .fall => s.setInst i { x with waiting := x.waiting ++ [⟨j, b, b, flags, [], true, true, true⟩] }
        | _ => s
    else
      match x.meas.kind with
      | .phase c => if c.val = k then s.setInst i { x with fitsB := x.fitsB ++ [⟨j, b, none, flags⟩] } else s
      | _ => s

/-- DTIME of grid point `j`, from the channel's anchor. -/
def State.gridPoint (s : State) (k j : Nat) : DTime :=
  (s.acc k).gridAt + BitVec.ofNat 64 ((j - (s.acc k).gridNum) * s.gateLen k)

/-- Results for `n` grid points from `j` on. -/
def State.stuckRun (s : State) (k : Nat) : Nat → Nat → State
  | 0, _ => s
  | n + 1, j => (s.stuckResult k j (s.gridPoint k j)).stuckRun k n (j + 1)

/-- Delivers a closed sub-gate to the summary FIFOs of its channel (R133). SUBGATES counts the summary once, whether or not a FIFO is enabled for it
or has room, which the spec does not say (DESIGN CHOICE, assumption 88). -/
def State.deliverSummary (s : State) (k : Nat) (b : SubGate) : State :=
  (s.addWrap (chPage k) CH.SUBGATES 1).deliver k true fun g s => s.summaryEntry g k b

/-- Delivers the summaries of the sub-gates that closed in the TCLK cycle before (R133). -/
def State.deliverSummaries (s : State) : State :=
  s.summaries.foldl (fun s p => s.deliverSummary p.1 p.2) { s with summaries := [] }

/-- Closes the open sub-gate, if any. -/
def State.closeSub (s : State) (k : Nat) (boundary : Bool) : State :=
  let a := s.acc k
  match a.sub with
  | none => s
  | some b =>
    let s := s.setAcc k { a with sub := none }
    { s with summaries := s.summaries ++ [(k, { b with boundary := b.boundary || boundary, coarse := b.coarse || s.coarse })] }

/-- The gate of channel `k` has ended with its chain: a GATED arming that it left unused ends with it (Table 5-6). -/
def State.disarm (s : State) (k : Nat) : State :=
  s.eachInst fun i x s =>
    match x.meas.kind with
    | .interval _ _ _ .gated _ => if x.meas.ch.val = k then s.setInst i { x with arm := none } else s
    | _ => s

/-- The open gate ends now at its last stamped index edge, and the chain ends (R143, R144). -/
def State.endGateEarly (s : State) (k extra : Nat) : State :=
  let s := s.closeSub k false
  match (s.acc k).gate with
  | none => s
  | some g => ((s.closeGate k g (extra ||| fNODATA * b2n (decide (g.m ≤ 1))) true).endChain k (some g)).disarm k

/-- What a stuck expiry does to the measurements of its channel (R143, R154, R161); on a prescaled channel no edge-bounded kind reports (R136). The
results for grid points follow on from the gate that was open. Where none was, the spec names no first grid point, and they begin at the next one
(DESIGN CHOICE, assumption 80). -/
def State.stuckMeasure (s : State) (k : Nat) : State :=
  let had := (s.acc k).gate
  let s := s.endGateEarly k fSTUCK
  let s := s.intervalEnd k (fTIMEOUT ||| fSTUCK) true
  let a := s.acc k
  if s.gateMode k = 0 ∧ a.origin.isSome ∧ s.bit (chPage k) CH.ACC_CTRL_EN ∧ !s.prescaled k then
    let p := s.gridAfter k s.now
    let s := match had with
      | some g => (s.stuckRun k (p.1 - 1 - g.num) (g.num + 1)).settleWaiting k
      | none => s
    s.setAcc k { s.acc k with stuckNext := some p.1 }
  else s

/-- The result of the next grid point while the channel is stuck (R143). -/
def State.stuckGrid (s : State) (k : Nat) : State :=
  match (s.acc k).stuckNext with
  | none => s
  | some j =>
    if s.bit (chPage k) CH.live_STUCK && s.gateMode k == 0 && decide (0 ≤ dt s.now (s.gridPoint k j)) then
      ((s.stuckResult k j (s.gridPoint k j)).setAcc k { s.acc k with stuckNext := some (j + 1) }).settleWaiting k
    else s

/-- A transition of channel `k` stands among commands of this TCLK cycle (R92). Where another command stands before it, which may change the edge
selection, it is a transition whatever its class. -/
def State.crossing (s : State) (k : Nat) : Bool → List Instr → Bool
  | _, [] => false
  | later, c :: r =>
    match c with
    | .edgeArrival j _ => (j.val == k && (later || s.nextSelected k)) || s.crossing k later r
    | .comparatorTransition j => (j.val == k && (later || !s.nextSelected k)) || s.crossing k later r
    | .stuckExpiry _ => s.crossing k later r
    | _ => s.crossing k true r

/-- A transition of channel `k` waits among the commands of this TCLK cycle. -/
def State.crosses (s : State) (k : Nat) : Bool := s.crossing k false s.pending

/-- The stuck detector expires (R90), unless a transition of the same TCLK cycle restarts its timer (R92). One that has expired does not expire a second
time before a transition or a restart, whatever STUCK_TO then applies, on which the spec is silent (DESIGN CHOICE, assumption 88). -/
def State.stuckExpire (s : State) (k : Nat) : State :=
  let p := chPage k
  let c := s.chan k
  let limit := s.fld p CH.STUCK_TO_COUNT
  if s.compOn k && limit != 0 && !c.expired && !s.crosses k && decide (c.timerFrom + 1024 * limit ≤ s.time.tclk) then
    let s := (s.modChan k fun c => { c with expired := true }).setStuck k true
    let level := s.bit p CH.LEVEL_COMP
    let s := s.setBit p CH.live_STUCK_LEVEL level
    let s := (s.setPair p CH.STUCK_AT_LO c.lastAt.toNat).post p CH.st_STUCK_SET
    let s := if s.runState == .running then s.errorAt c.lastAt (some (chRegion k)) k 0x08 (b2n level) 0 false else s
    s.stuckMeasure k
  else s

/-! Applies at the gate boundary (R86, R128, R140, R141, R166) -/

/-- What an applied register of a CH page does besides taking its value. -/
def State.chApplied (s : State) (k off : Nat) : State :=
  let p := chPage k
  if off = 0x044 ∨ off = 0x048 then (s.showWin k).post p CH.st_THRESH_APPLIED
  else if off = 0x050 then s.stuckExpire k
  else if off = 0x088 ∨ off = 0x08c then s.post p CH.st_OFFSET_APPLIED
  else if off = 0x100 ∨ off = 0x104 ∨ off = 0x108 ∨ off = 0x10c then s.post p CH.st_ACC_APPLIED
  else s

/-- Applies the pending registers of the CH page of channel `k` at DTIME `t`, in offset order (R397, R398); where a MODE or a SCALE has changed, the
values then held are clamped anew (R141). -/
def State.applyChan (s : State) (k : Nat) (t : DTime) : State :=
  let old := s.rd (chPage k + 0x104)
  let s := (s.pendingOf (chPage k)).foldl (fun s a =>
    match s.shadow a, regAt a with
    | some v, some row =>
      let s := (s.setShadow a none).applyValue (chPage k) (a - chPage k) row v
      (s.journalAt t .apply .internal 0 a .done (s.rd a).toNat).chApplied k (a - chPage k)
    | _, _ => s) s
  if s.rd (chPage k + 0x104) = old then s else s.reclampGate k

/-! The accumulator (R132 to R139) -/

/-- Index edges that a gap of `c` edges contained (R134), under the settings of cycle `m`. -/
def State.indexIn (s : State) (k m c : Nat) (last : Option (DTime × Bool)) : Nat :=
  let pol := s.fldAt k m CH.ACC_CTRL_POL
  if pol = 2 ∨ s.fldAt k m CH.EDGE_SEL ≠ 2 then c
  else if c % 2 = 0 then c / 2
  else match last with
    | some (_, r) => if r = (pol == 0) then (c - 1) / 2 else (c + 1) / 2
    | none => (c + 1) / 2

/-- A gate of its channel opens: what instance `x` gathers over a gate begins afresh. A gate start arms GATED units (Table 5-6), and a SKEW gate
holds its start edge. -/
def Inst.gateOpens (x : Inst) (t : DTime) : Inst :=
  match x.meas.kind with
  | .interval _ _ _ .gated _ => { x with arm := some (some t) }
  | .skew .. => { x with edgesA := [t] }
  | .stats _ none => { x with sums := Sums.empty, kept := Sums.empty }
  | _ => x

/-- The open sub-gate has its K-th index edge (R133). -/
def State.closeFull (s : State) (k : Nat) : State :=
  if (s.acc k).sub.any fun b => decide (s.fld (chPage k) CH.ACC_CTRL_K_M1 + 1 ≤ b.ks) then s.closeSub k false else s

/-- Opens a gate at an index edge of TCLK cycle `m` (R138, R139), and its first sub-gate. EDGE.SEL passes both polarities throughout the gate if it did
for that edge and does now: what has arrived between was selected under the one or the other (R86, R151). -/
def State.openGate (s : State) (k m : Nat) (t : DTime) (newChain : Bool) : State :=
  let a := s.acc k
  let g := s.gridAfter k t
  let num := if s.gateMode k = 0 then g.1 else a.opened + 1
  let both := s.fldAt k m CH.EDGE_SEL == 2 && s.fld (chPage k) CH.EDGE_SEL == 2
  let s := s.setAcc k { a with
    gate := some ⟨num, t, g.2, newChain, 0, t, 1, 0, 0, 0, 0, 0, 0, 0, 0, 0, false, none, both, PairSums.zero⟩
    opened := a.opened + 1, fresh := false, stuckNext := none, carry := PairSums.zero, carryGap := false
    sub := some ⟨t, t, 1, 0, 0, 0, 0, 0, 0, 0, 0, true, a.carryGap, s.coarse, s.weak k⟩ }
  let s := (s.setPair (chPage k) CH.GATE_IDX_LO num).setPair (chPage k) CH.GATE_START_LO t.toNat
  let s := (s.setFld (chPage k) CH.live_GATE_OPEN 1).setFld (chPage k) CH.live_CHAIN_BROKEN 0
  let s := s.closeFull k
  s.eachInst fun i x s => if x.meas.ch.val = k then s.setInst i (x.gateOpens t) else s

/-- What a stamped edge and the one before it add to the pair sums: a pair counts when both lie in the open gate and no gap marker stands between
them, and where one does, its time counts in G (Table 5-2). -/
def State.pairOf (s : State) (k : Nat) (t : DTime) (rising : Bool) : PairSums :=
  let a := s.acc k
  match a.gate, a.lastEdge with
  | some g, some (t0, r0) =>
    let x := dt t t0
    if dt t0 g.start < 0 then PairSums.zero
    else if a.gapSince then ⟨0, 0, 0, 0, x⟩
    else if r0 = rising then PairSums.zero
    else if r0 then ⟨x, 0, 1, 0, 0⟩ else ⟨0, x, 0, 1, 0⟩
  | _, _ => PairSums.zero

def PairSums.add (p q : PairSums) : PairSums := ⟨p.h + q.h, p.l + q.l, p.nh + q.nh, p.nl + q.nl, p.g + q.g⟩

def Gate.addPairs (g : Gate) (c : PairSums) : Gate := { g with h := g.h + c.h, l := g.l + c.l, nh := g.nh + c.nh, nl := g.nl + c.nl, g := g.g + c.g }

def SubGate.addPairs (b : SubGate) (c : PairSums) : SubGate :=
  { b with h := b.h + c.h, l := b.l + c.l, nh := b.nh + c.nh, nl := b.nl + c.nl, g := b.g + c.g }

/-- The pair sums of an edge join the gate, and give HIGH and LOW samples. -/
def State.pairEdge (s : State) (k : Nat) (t : DTime) (c : PairSums) : State :=
  let a := s.acc k
  let s := s.setAcc k { a with gate := a.gate.map (·.addPairs c) }
  let s := if c.nh = 0 then s else s.sample k .high (some c.h) t true
  if c.nl = 0 then s else s.sample k .low (some c.l) t true

/-- Those of an edge that is no index edge join the open sub-gate, or wait for the next one. -/
def State.pairSub (s : State) (k : Nat) (c : PairSums) : State :=
  let a := s.acc k
  match a.sub with
  | some b => s.setAcc k { a with sub := some (b.addPairs c) }
  | none => s.setAcc k { a with carry := a.carry.add c }

/-- An index edge joins the open sub-gate, or opens one, which takes what waited for it; the K-th closes it, and so does a boundary edge (R133). -/
def State.subEdge (s : State) (k : Nat) (t : DTime) (idx : Nat) (c : PairSums) (boundary : Bool) : State :=
  let s := match (s.acc k).sub with
    | some b => if (2 ^ 48 : Nat) ≤ dt t b.t0 then s.closeSub k false else s
    | none => s
  let a := s.acc k
  let b : SubGate := match a.sub with
    | some b => { b with tl := t, ks := b.ks + 1, s1 := b.s1 + dt t b.t0, s2 := b.s2 + (idx - b.i0 : Nat) * dt t b.t0, coarse := b.coarse || s.coarse, weak := b.weak || s.weak k }
    | none => (⟨t, t, 1, idx, 0, 0, 0, 0, 0, 0, 0, false, a.carryGap, s.coarse, s.weak k⟩ : SubGate).addPairs a.carry
  let s := s.setAcc k (if a.sub.isSome then { a with sub := some (b.addPairs c) }
    else { a with sub := some (b.addPairs c), carry := PairSums.zero, carryGap := false })
  if boundary then s.closeSub k true else s.closeFull k

/-- Does this index edge end the open gate (R137)? -/
def State.endsGate (s : State) (k : Nat) (g : Gate) (t : DTime) : Bool :=
  match s.gateMode k with
  | 0 => decide (0 ≤ dt t g.grid)
  | 1 => decide ((s.rd (chPage k + 0x108)).toNat ≤ g.idx)
  | _ => match g.decided with
    | some d => decide (0 ≤ dt t d)
    | none => false

/-- May a gate open on channel `k` at an edge of TCLK cycle `m` stamped `t` (R139, R140, R144)? -/
def State.mayOpen (s : State) (k m : Nat) (t : DTime) : Bool :=
  let a := s.acc k
  s.bit (chPage k) CH.ACC_CTRL_EN && a.stopped.isNone && a.barred.all (fun b => decide (b < m))
    && (if s.gateMode k = 0 then a.origin else a.since).any fun b => decide (0 ≤ dt t b)

/-- Writes that apply now, with no gate open, end chains (Table 5-3): no edge of this TCLK cycle or before opens a gate (R140). -/
def State.bar (s : State) (k : Nat) : State := s.setAcc k { s.acc k with barred := some s.time.tclk }

/-- The open gate takes an index edge, whose pair it holds already: index, stamp, and the sums of R147. -/
def Gate.take (g : Gate) (t : DTime) (skipped : Nat) : Gate :=
  let i := g.idx + 1 + skipped
  let x := dt t g.start
  { g with idx := i, last := t, m := g.m + 1, si := g.si + i, sii := g.sii + i * i, st := g.st + x, sit := g.sit + (i : Int) * x
           kept := ⟨g.h, g.l, g.nh, g.nl, g.g⟩ }

/-- What pending writes change at a boundary (Table 5-3): EN clears, MODE or POL changes, an offset is written, the grid's length. -/
def State.clearsEn (s : State) (k : Nat) : Bool := s.soonFld (chPage k) CH.ACC_CTRL_EN == 0 && s.bit (chPage k) CH.ACC_CTRL_EN
def State.changesMode (s : State) (k : Nat) : Bool :=
  s.soonFld (chPage k) CH.GATE_CTRL_MODE != s.gateMode k || s.soonFld (chPage k) CH.ACC_CTRL_POL != s.fld (chPage k) CH.ACC_CTRL_POL
def State.changesOffset (s : State) (k : Nat) : Bool := (s.shadow (chPage k + 0x088)).isSome || (s.shadow (chPage k + 0x08c)).isSome
def State.changesLen (s : State) (k : Nat) : Bool :=
  (s.shadow (chPage k + 0x108)).isSome || s.soonFld (chPage k) CH.GATE_CTRL_SCALE != s.fld (chPage k) CH.GATE_CTRL_SCALE

/-- The channel's delay for an edge of TCLK cycle `m`, without and with the falling-edge trim (R97, R128). -/
def State.delayAt (s : State) (k m : Nat) (rising : Bool) : Int :=
  signed 16 (s.fld (chPage k) CH.FACTORY_SKEW_VALUE) + signed 18 (s.fldAt k m CH.DELAY_OFFSET)
    + (if rising then 0 else signed 10 (s.fldAt k m CH.FALL_TRIM_VALUE))

/-- Applies everything pending on the CH page with no gate open: at once, at `t` (R86, R140, R141, R398). -/
def State.applyIdle (s : State) (k : Nat) (t : DTime) : State :=
  let mode := s.gateMode k
  let s := if s.clearsEn k || s.changesMode k || s.changesOffset k then s.bar k else s
  let s := s.keepOld k s.time.tclk ((s.pendingOf (chPage k)).map (· - chPage k))
  let len := s.changesLen k && mode == 0
  let s := if s.soonFld (chPage k) CH.GATE_CTRL_MODE != 0 then s.leaveTime k t else s
  let s := if len then s.anchorAt k t else s
  let s := s.applyChan k t
  let s := if mode != 0 then s.enterTime k t else s
  if len then s.regrid k else s

/-- The page of channel `k` has stopped running with its gate: what is pending applies at once (R86, R166, R397). -/
def State.settlePage (s : State) (k : Nat) : State :=
  if (s.pendingOf (chPage k)).isEmpty || s.pageRunning .ch k then s else s.applyIdle k s.now

/-- The result that PHASE instance `x` gives at grid point `j` of its reference, which no gate bounds. -/
def State.skippedFit (s : State) (x : Inst) (k j : Nat) : Fit :=
  let b := s.gridPoint k j
  let a := b - BitVec.ofNat 64 (s.gateLen k)
  ⟨j, b, none, s.flagsOf x.meas a b ||| fGAP * b2n (s.gapIn x a b)⟩

/-- The grid points that the gate of number `j` has passed and the gate from its end edge on, of number `n`, would not bound: PHASE instances of
channel `k` report no data there (R138, R156). -/
def State.skipGrid (s : State) (k j n : Nat) : State :=
  s.eachInst fun i x s =>
    if x.meas.ch.val = k then
      match x.meas.kind with
      | .phase _ => s.setInst i { x with fitsA := x.fitsA ++ (List.range (n - 1 - j)).map fun d => s.skippedFit x k (j + 1 + d) }
      | _ => s
    else s

/-- The boundary edge of the gate that has just ended, of TCLK cycle `m`, stamped `t`, of raw value `raw` in the cycle at `tc`: pending writes apply
and the next gate opens (R139, R140, R141). New offsets stamp the edge anew, for that gate and for what follows in it. EDGE takes effect only now:
edges that have arrived were selected before (R86). After a STOP no gate opens, and the chain ends (Table 5-3). -/
def State.boundary (s : State) (k : Nat) (g : Gate) (m : Nat) (t tc : DTime) (raw : DTime) (rising : Bool) : State :=
  let off := s.clearsEn k
  let mode := s.changesMode k
  let offset := s.changesOffset k
  let was := s.gateMode k
  let len := s.changesLen k && was == 0
  let s := if was = 0 ∧ !len then s.skipGrid k g.num (s.gridAfter k t).1 else s
  let s := if s.soonFld (chPage k) CH.GATE_CTRL_MODE != 0 then s.leaveTime k tc else s
  let s := if len then s.anchorGrid k g.num g.grid else s
  let s := if (s.shadow (chPage k + 0x04c)).isSome then s.keepOld k (s.time.tclk - 1) [0x04c] else s
  let s := s.applyChan k tc
  let s := if was != 0 then s.enterTime k tc else s
  let s := if len then s.regrid k else s
  let s := if off || mode || offset || (s.acc k).stopped.isSome then s.endChain k (some g) else s
  let t' := if offset then raw + BitVec.ofInt 64 (s.delayAt k m rising) else t
  let s := if offset then s.setAcc k { s.acc k with lastEdge := some (t', rising), lastIndex := some t' } else s
  let s := if len ∧ s.gateMode k = 0 then s.skipGrid k g.num (s.gridAfter k t').1 else s
  if off || mode || !s.mayOpen k m t' then s else s.openGate k m t' offset

/-- An index edge of TCLK cycle `m` stamped `t`, whose pair sums are `c`, reaches the accumulator of channel `k` (R133 to R139). -/
def State.indexStamp (s : State) (k m : Nat) (t tc raw : DTime) (rising : Bool) (c : PairSums) : State :=
  let s := s.countAt k 1 t
  let a := s.acc k
  let s := match a.lastIndex with
    | some u => s.sample k .period (some (dt t u)) t a.gate.isSome
    | none => s
  let s := s.setAcc k { s.acc k with lastIndex := if a.since.isSome then some t else none }
  match (s.acc k).gate with
  | some g =>
    let g := g.take t a.skipped
    let ends := s.endsGate k g t
    let s := (s.setAcc k { s.acc k with gate := some g }).subEdge k t g.idx c ends
    let s := s.eachInst fun i x s =>
      if x.meas.ch.val = k then
        match x.meas.kind with
        | .skew _ _ => s.setInst i { x with edgesA := x.edgesA ++ [t] }
        | _ => s.setInst i { x with kept := x.sums }
      else s
    if ends then (s.closeGate k g 0 false).boundary k g m t tc raw rising else s
  | none => if s.mayOpen k m t then s.openGate k m t (s.acc k).fresh else s

/-- A stamped edge of TCLK cycle `m` reaches the accumulator of channel `k`, under the settings to which it belongs (R132 to R139, R398). What passes
while EN is 0 parts the index edges on its two sides (Table 5-8). -/
def State.accEdge (s : State) (k m : Nat) (t tc raw : DTime) (rising : Bool) : State :=
  if s.fldAt k m CH.ACC_CTRL_EN == 0 then s.setAcc k { s.acc k with lastIndex := none }
  else
    let c := s.pairOf k t rising
    let index := match s.fldAt k m CH.ACC_CTRL_POL with
      | 0 => rising
      | 1 => !rising
      | _ => true
    let s := s.pairEdge k t c
    let s := s.setAcc k { s.acc k with lastEdge := some (t, rising), gapSince := false }
    let s := if index then s.indexStamp k m t tc raw rising c else s.pairSub k c
    if index then
      -- target edges of SKEW instances
      let s := s.eachInst fun i x s =>
        match x.meas.kind with
        | .skew c _ => if c.val = k then s.setInst i { x with edgesB := x.edgesB ++ [(t, false)] } else s
        | _ => s
      s.setAcc k { s.acc k with skipped := 0 }
    else s

/-- A gap marker of channel `k` goes to the instances that involve it, and breaks off a RISE or FALL sample (R157, R163). -/
def State.gapInsts (s : State) (k : Nat) (start : DTime) (span : Nat) : State :=
  s.eachInst fun i x s =>
    if (s.involved x.meas).contains k then s.setInst i { x with gaps := x.gaps ++ [(start, start + ns span)], crossing := none } else s

/-- A gap marker that ends in TCLK cycle `m` reaches the accumulator of channel `k` (R133, R134). -/
def State.accGap (s : State) (k m count : Nat) (start : DTime) (span : Nat) : State :=
  let s := s.countGap k start (start + ns span)
  if s.fldAt k m CH.ACC_CTRL_EN == 0 then s.setAcc k { s.acc k with lastIndex := none }
  else
    let s := s.closeSub k false
    let a := s.acc k
    let n := s.indexIn k m count a.lastEdge
    let both := s.fldAt k m CH.EDGE_SEL == 2
    s.setAcc k { a with
      gapSince := true, carryGap := true, lastIndex := none, skipped := a.skipped + n
      gate := a.gate.map fun g => { g with gap := true, both := g.both && both } }

/-! What leaves the pool before slot 0 (R139, R145) -/

/-- The accumulator of channel `k` waits for slot 0, whose DTIME it does not know yet. -/
def State.waitsSlot (s : State) (k : Nat) : Bool := (s.acc k).since.isSome && (s.acc k).origin.isNone && s.gateMode k == 0

/-- The entry cannot lie at slot 0 or after it, which comes at `now` at the earliest. -/
def Early.before (e : Early) (now : DTime) : Bool :=
  match e with
  | .stamp _ t .. => decide (dt t now < 0)
  | .gap .. => true

def State.accOne (s : State) (k : Nat) (e : Early) : State :=
  match e with
  | .stamp m t tc raw rising => s.accEdge k m t tc raw rising
  | .gap m count start span => s.accGap k m count start span

/-- Gives the accumulator the entries that it need not hold back, in order, and answers the others. -/
def State.passEarly (s : State) (k : Nat) : List Early → List Early × State
  | [] => ([], s)
  | e :: r => if !s.waitsSlot k || e.before s.now then (s.accOne k e).passEarly k r else (e :: r, s)

/-- An entry of the pool comes to the accumulator of channel `k`. One whose stamp may reach a slot 0 that has not come waits for it, with those
behind it. -/
def State.accInput (s : State) (k : Nat) (e : Early) : State :=
  let p := s.passEarly k ((s.acc k).early ++ [e])
  p.2.setAcc k { p.2.acc k with early := p.1 }

/-- A RISE or FALL sample of instance `i`, none for a runt, ends at `t`; its gate is found when that has ended (R157). -/
def State.addSample (s : State) (i : Nat) (x : Inst) (e : Nat) (src : Sample) (v : Option Int) (t : DTime) : State :=
  let kept := if (s.acc e).gate.isSome || !x.waiting.isEmpty then x.samples else x.samples.filter fun p => decide (dt s.now p.2 < 1024000)
  (s.setInst i { x with crossing := none, samples := kept ++ [(v, t)] }).sample e src v t (s.acc e).gate.isSome

/-- RISE and FALL samples of the pair that channel `c` belongs to (R157). -/
def State.pairSample (s : State) (c : Nat) (t : DTime) (rising : Bool) : State :=
  let e := c / 2 * 2
  if !s.paired (e + 1) then s
  else
    let low := s.lowComp e == c
    s.eachInst fun i x s =>
      if x.meas.ch.val = e then
        let step := fun (up first : Bool) (src : Sample) =>
          -- `first`: this comparator crosses first; an edge back on it is a runt, an edge on the other one completes the sample; a gap that either
          -- channel has had meanwhile, its marker on its way yet, discards both
          if first && rising = up then s.setInst i { x with crossing := some t }
          else if first || rising = up then
            match x.crossing with
            | some t0 =>
              if s.gapMeets e t0 t || s.gapMeets (e + 1) t0 t then s.setInst i { x with crossing := none }
              else s.addSample i x e src (if first then none else some (dt t t0)) t
            | none => s
          else s
        match x.meas.kind with
        | .rise => step true low (.rise x.meas.num)
        | .fall => step false (!low) (.fall x.meas.num)
        | _ => s
      else s

/-- A stamp leaves the pool of channel `k`: what the measurements make of it. A crossing that is a boundary edge lies in two gates; its RISE or FALL
sample counts in the one that it ends, as a pair of Table 5-2 does (DESIGN CHOICE, assumption 80). -/
def State.measureStamp (s : State) (k m : Nat) (t tc raw : DTime) (rising : Bool) : State :=
  let s := (s.pairSample k t rising).accInput k (.stamp m t tc raw rising)
  s.eachInst fun i x s => s.intervalEdge k m t rising i x

/-- A gap marker leaves the pool of channel `k`; its last edge arrived in TCLK cycle `m`. -/
def State.measureGap (s : State) (k m count : Nat) (start : DTime) (span : Nat) : State :=
  let s := s.eachInst fun i x s => s.intervalGap k start span i x
  (s.gapInsts k start span).accInput k (.gap m count start span)

/-- The grace of channel `k` has expired (R144): the open gate, waiting interval units and the COUNT gate end with TRUNCATED. -/
def State.graceExpire (s : State) (k : Nat) : State :=
  let a := s.acc k
  match a.stopped with
  | none => s
  | some t =>
    if a.graceOver || dt s.now (t + ns (1024 * s.fld (chPage k) CH.GATE_GRACE_COUNT)) < 0 then s
    else
      let s := s.endGateEarly k fTRUNC
      let s := s.intervalEnd k fTRUNC false
      let s := s.reachBucket k s.now
      let a := s.acc k
      ((s.setAcc k { a with graceOver := true, buckets := a.buckets.map fun b => if 0 < dt b.hi s.now then { b with hi := s.now, trunc := true } else b }).settleWaiting k).settlePage k

/-- START clears the measurements of channel `k` (Table 5-16). -/
def State.startAcc (s : State) (k : Nat) : State :=
  let p := chPage k
  let s := s.setAcc k { Acc.empty with since := some s.now }
  let s := (s.setPair p CH.GATE_IDX_LO 0).setPair p CH.GATE_START_LO 0
  let s := ((s.wr (p + 0x124) 0).wr (p + 0x128) 0).wr (p + 0x12c) 0
  (s.setFld p CH.live_GATE_OPEN 0).setFld p CH.live_CHAIN_BROKEN 0

/-- Slot 0 runs, and `t` is its instant: the grid of channel `k` begins, and what waited for it comes to the accumulator (R138, R139, R145). -/
def State.beginAcc (s : State) (k : Nat) (t : DTime) : State :=
  let a := s.acc k
  let first : List Bucket := if s.gateMode k = 0 then [⟨1, t, t + BitVec.ofNat 64 (s.gateLen k), false⟩] else []
  let s := s.setAcc k { a with origin := some t, gridNum := 0, gridAt := t, buckets := first, early := [] }
  a.early.foldl (fun s e => s.accOne k e) s

/-- STOP: channel `k` opens no more gates (R144). -/
def State.stopAcc (s : State) (k : Nat) : State :=
  let a := s.acc k
  if a.since.isSome && a.stopped.isNone then s.setAcc k { a with stopped := some s.now } else s

/-- ABORT: no result is written for what is open; a chain that was open ends (R144, Table 5-3). -/
def State.dropAcc (s : State) (k : Nat) : State :=
  let a := s.acc k
  let had := a.gate.isSome
  let s := s.setAcc k { a with gate := none, sub := none, since := none, origin := none, early := [], buckets := [], times := [], gaps := [], fresh := true, stuckNext := none }
  let s := s.setFld (chPage k) CH.live_GATE_OPEN 0
  if had then ((s.addSat (chPage k) CH.CHAIN_BREAKS 1).setFld (chPage k) CH.live_CHAIN_BROKEN 1).post (chPage k) CH.st_CHAIN_BREAK else s

/-- Interval units stop with the run. -/
def State.dropInsts (s : State) : State := { s with insts := s.insts.map fun x => { x with started := none, arm := none, waiting := [], samples := [], fitsA := [], fitsB := [], window := [] } }

/-- All that channel `k` measures has ended: no gate is open, no interval unit that starts on it waits, no COUNT gate is unreported,
and no result waits for another channel (R144, R171). -/
def State.measureDone (s : State) (k : Nat) : Bool :=
  let a := s.acc k
  let counting := s.insts.any fun x => isCount x.meas k
  a.gate.isNone && (!counting || a.buckets.isEmpty)
    && s.insts.all fun x => x.meas.ch.val != k || (x.started.isNone && x.waiting.isEmpty && x.fitsA.isEmpty)

end Sys2Proof.Machine
end

