-- ==== Sys2Proof/Machine/Store.lean ====
section
/-! DEFINITION. The store banks: ownership, violations, checked reads, whole and partial writes, the host window, handovers, fills, the scrubber
(R255 to R265, R364 to R366, R437). -/
namespace Sys2Proof.Machine
open Sys2Proof

def State.half (s : State) (i : Nat) : Half := Tab.get (fun _ => Half.blank) s.store i
def State.setHalf (s : State) (i : Nat) (h : Half) : State := { s with store := Tab.set (fun _ => Half.blank) s.store i h }
def State.bank (s : State) (b : Nat) : BankAux := Tab.get (fun _ => BankAux.init) s.banks b
def State.setBank (s : State) (b : Nat) (x : BankAux) : State := { s with banks := Tab.set (fun _ => BankAux.init) s.banks b x }

/-- A half by bank, line and half (R255). -/
def halfIdx (b line half : Nat) : Nat := 32768 * b + 2 * line + half

/-- The owner in force: CLASS + 16·ARG (Table 8-11). -/
def State.ownerNow (s : State) (b : Nat) : Nat := s.fld (bankPage b) BANK.OWNER_NOW_OWNER
def State.draining (s : State) (b : Nat) : Bool := (s.shadow (bankPage b + 0x040)).isSome
def State.filling (s : State) (b : Nat) : Bool := s.bit (bankPage b) BANK.live_FILLING

/-- How the switch answers a request (R262, R263, R265). -/
inductive Grant where
  | granted | waits | violation
  deriving DecidableEq, Repr

def State.gate (s : State) (b cls arg : Nat) : Grant :=
  if s.draining b || s.filling b then .waits
  else if cls ≠ 0 ∧ s.ownerNow b = cls + 16 * arg then .granted else .violation

/-- Notes when writer `i` of a region freezes. -/
def State.markFrozen (s : State) (i bit : Nat) : State :=
  if s.isFrozen (regPage (i % 8)) bit then s else s.setWriter i { s.writer i with frozenAt := s.now }

/-- Freezes the master of a class and argument that violated bank `b`, on the page of Table 13-4, and sets that page's error. -/
def State.freezeMaster (s : State) (b cls arg : Nat) : State :=
  let n := b / 32
  if cls = 1 then ((s.markFrozen n 8).freeze (regPage n) 8).raise (regPage n) REG.err_VIOLATION
  else if cls = 2 then ((s.markFrozen (8 + n) 9).freeze (regPage n) 9).raise (regPage n) REG.err_VIOLATION
  else if cls = 3 then
    ((s.freeze (blkPage (8 * n + arg)) 8).setFld (blkPage (8 * n + arg)) BLK.XFER_STATUS_FROZEN 1).raise (blkPage (8 * n + arg)) BLK.err_VIOLATION
  else if cls = 4 then (s.freeze dmaPage 8).raise dmaPage DMA.err_VIOLATION
  else if cls = 5 then (s.freeze dmaPage 9).raise dmaPage DMA.err_VIOLATION
  else if cls = 6 then s.freeze (bankPage b) 8
  else (s.freeze (linkPage arg) 8).raise (linkPage arg) LINK.err_VIOLATION

/-- A violation of bank `b` (R263): recorded, counted, reported, and the master frozen. -/
def State.violate (s : State) (b cls arg : Nat) (write : Bool) (line : Nat) : State :=
  let s := s.wr (bankPage b + 0x068) (BitVec.ofNat 32 (cls + 16 * arg + 2 ^ 7 * b2n write + 2 ^ 8 * line))
  let s := (s.addSat (bankPage b) BANK.VIOL_COUNT 1).raise (bankPage b) BANK.err_VIOLATION
  let s := s.error (some (b / 32)) (104 + b / 32) 0x1a b (line + 2 ^ 14 * b2n write + 2 ^ 15 * cls + 2 ^ 19 * arg) false
  s.freezeMaster b cls arg

/-- BANK.ERR_ADDR of the latest detected error (Table 8-14). -/
def State.errAddr (s : State) (b line half : Nat) (ue : Bool) (det : Nat) : State :=
  s.wr (bankPage b + 0x054) (BitVec.ofNat 32 (line + 2 ^ 14 * half + 2 ^ 15 * b2n ue + 2 ^ 16 * det))

/-- Counts a correctable error (R256). -/
def State.countCe (s : State) (b line half det : Nat) : State :=
  ((s.addSat (bankPage b) BANK.CE_COUNT 1).errAddr b line half false det).post (bankPage b) BANK.st_CE

/-- Counts an uncorrectable error (R256, R258). -/
def State.countUe (s : State) (b line half det : Nat) : State :=
  ((s.addSat (bankPage b) BANK.UE_COUNT 1).errAddr b line half true det).post (bankPage b) BANK.st_UE

def State.bankUeRecord (s : State) (b line half det : Nat) : State :=
  s.error (some (b / 32)) (104 + b / 32) 0x18 b (line + 2 ^ 14 * half + 2 ^ 15 * det) false

/-- 1,024 FCLK cycles, in TCLK cycles (R256). -/
def ueWindow : Nat := 2048

/-- A master's checked read of a half: the record, or none where it returns poison (R256, R257). -/
def State.readHalf (s : State) (b line half : Nat) : Option Rec × State :=
  let h := s.half (halfIdx b line half)
  match h.integ with
  | .ok => (some h.data, s)
  | .ce => (some h.data, s.countCe b line half 0)
  | .poison => (none, s)
  | .ue _ =>
    let s := (s.countUe b line half 0).raise (bankPage b) BANK.err_UE_READ
    let x := s.bank b
    let due := match x.ueAt with
      | none => true
      | some t => decide (t + ueWindow ≤ s.time.tclk)
    (none, if due then (s.setBank b ⟨some s.time.tclk, x.scrubLine, x.scrubFix⟩).bankUeRecord b line half 0 else s)

/-- A master has written a line: a correction that the scrubber holds for it is discarded (R259). -/
def State.dropFix (s : State) (b line : Nat) : State :=
  let x := s.bank b
  match x.scrubFix with
  | some (l, _, _) => if l = line then s.setBank b ⟨x.ueAt, x.scrubLine, none⟩ else s
  | none => s

/-- A whole-half write with fresh check bits (R258). -/
def State.writeHalf (s : State) (b line half : Nat) (r : Rec) : State := (s.setHalf (halfIdx b line half) (Half.fresh r)).dropFix b line

/-- A half stored as written poison (R257). -/
def State.writePoison (s : State) (b line half : Nat) : State := (s.setHalf (halfIdx b line half) Half.poisoned).dropFix b line

/-- An armed injection of this kind and unit (R420). -/
def State.injectArmed (s : State) (kind unit : Nat) : Bool :=
  s.bit chipPage CHIP.INJECT_GO && s.fld chipPage CHIP.INJECT_KIND == kind && s.fld chipPage CHIP.INJECT_UNIT == unit

/-- The injection has been made: GO clears, and the journal holds the INJECT dword with GO as 1 (R438). -/
def State.injected (s : State) : State :=
  let v := s.rd (chipPage + 0x088)
  (s.setFld chipPage CHIP.INJECT_GO 0).entry .write .internal (chipPage + 0x088) .done v.toNat

/-- An armed injection of kind 0x1 or 0x2 goes into the half just written whole: data bit 0, or 0 and 1, are inverted after the check bits are formed
(R437, Table 15-4). -/
def State.injectHalf (s : State) (b line half : Nat) : State :=
  let i := halfIdx b line half
  if s.injectArmed 1 b then (s.setHalf i ((s.half i).upset [0])).injected
  else if s.injectArmed 2 b then (s.setHalf i ((s.half i).upset [0, 1])).injected
  else s

/-- A whole line, in one cycle: an injection goes into half 0 (R437). -/
def State.writeLine (s : State) (b line : Nat) (r0 r1 : Rec) : State :=
  ((s.writeHalf b line 0 r0).writeHalf b line 1 r1).injectHalf b line 0

/-- A partial write: a read-modify-write of a half, refused where the half is uncorrectable or written poison (R258). -/
def State.partialWrite (s : State) (b line half cls : Nat) (f : Rec → Rec) : Bool × State :=
  let h := s.half (halfIdx b line half)
  let refuse := fun (s : State) =>
    (s.raise (bankPage b) BANK.err_UE_WRITE).error (some (b / 32)) (104 + b / 32) 0x19 b (line + 2 ^ 14 * half + 2 ^ 15 * cls) false
  match h.integ with
  | .ok => (true, s.writeHalf b line half (f h.data))
  | .ce => (true, (s.countCe b line half 2).writeHalf b line half (f h.data))
  | .ue _ => (false, refuse (s.countUe b line half 2))
  | .poison => (false, refuse (s.errAddr b line half true 2))

/-! The host window (R364 to R366) -/

/-- Any bank's page shows the host window frozen. -/
def State.windowFrozen (s : State) : Bool :=
  s.regs.any fun p => decide (0x300000 ≤ p.1 ∧ p.1 < 0x400000 ∧ p.1 % 0x1000 = 0x024) && getBits p.2 8 1 == 1

/-- The halves that store words `w` to `w + n − 1` fall in: half number, first word, count. -/
def halvesOf (w n : Nat) : List (Nat × Nat × Nat) :=
  ((List.range (n / 4 + 2)).map fun j =>
    let h := w / 4 + j
    let a := max w (4 * h)
    let e := min (w + n) (4 * h + 4)
    (h, a - 4 * h, e - a)).filter fun x => decide (0 < x.2.2)

/-- Word `i` of a record. -/
def recWord (r : Rec) (i : Nat) : Word :=
  match i with
  | 0 => r.w0
  | 1 => r.w1
  | 2 => r.w2
  | _ => r.w3

def recSetWord (r : Rec) (i : Nat) (w : Word) : Rec :=
  match i with
  | 0 => ⟨w, r.w1, r.w2, r.w3⟩
  | 1 => ⟨r.w0, w, r.w2, r.w3⟩
  | 2 => ⟨r.w0, r.w1, w, r.w3⟩
  | _ => ⟨r.w0, r.w1, r.w2, w⟩

/-- A poisoned dword of BAR2 (R364). -/
def poisonDword : Dword := 0x80000000

/-- Carries out the reads of a BAR2 request half by half, bank by bank (R366). -/
def State.bar2ReadHalves (s : State) : List (Nat × Nat × Nat) → List Dword → List Dword × State
  | [], acc => (acc, s)
  | (h, i, n) :: r, acc =>
    let b := h / 32768
    let line := h % 32768 / 2
    if s.windowFrozen then s.bar2ReadHalves r (acc ++ List.replicate n poisonDword)
    else if s.gate b 6 0 = .granted then
      match s.readHalf b line (h % 2) with
      | (some x, s) => s.bar2ReadHalves r (acc ++ (List.range n).map fun j => (recWord x (i + j)).setWidth 32)
      | (none, s) => s.bar2ReadHalves r (acc ++ List.replicate n poisonDword)
    else (s.violate b 6 0 false line).bar2ReadHalves r (acc ++ List.replicate n poisonDword)

/-- The words of a half that a BAR2 write changes: byte enables 0, 1 and 2 all set (R365). -/
def bar2Merge (i : Nat) (ds : List (BitVec 4 × Dword)) (r : Rec) : Rec :=
  (ds.zipIdx i).foldl (fun r d => if d.1.1 &&& 7 = 7 then recSetWord r d.2 (d.1.2.setWidth 18) else r) r

def State.bar2WriteHalves (s : State) : List (Nat × Nat × Nat) → List (BitVec 4 × Dword) → State
  | [], _ => s
  | (h, i, n) :: r, ds =>
    let b := h / 32768
    let line := h % 32768 / 2
    let mine := ds.take n
    let rest := ds.drop n
    if s.windowFrozen || !(mine.any fun d => d.1 &&& 7 == 7) then s.bar2WriteHalves r rest
    else if s.gate b 6 0 = .granted then (s.partialWrite b line (h % 2) 6 (bar2Merge i mine)).2.bar2WriteHalves r rest
    else (s.violate b 6 0 true line).bar2WriteHalves r rest

/-- A write of dwords with their byte enables from store word `w` (R365, R366). -/
def State.bar2Write (s : State) (w : Nat) (ds : List (BitVec 4 × Dword)) : State := s.bar2WriteHalves (halvesOf w ds.length) ds

/-! Handovers, fills and the scrubber (R259, R262, R265) -/

/-- A write of BANK.OWNER: reserved classes and arguments are discarded (R261). CLASS 0x7 with an ARG of 4 to 7, which names no port, is one of them:
R261 does not name the case (DESIGN CHOICE, assumption 88). -/
def ownerVerdict (v : Dword) : Verdict :=
  let c := getBits v 0 4
  let g := getBits v 4 3
  if c < 8 ∧ (c = 3 ∨ (c = 7 ∧ g < 4) ∨ g = 0) then .accept v none else .reject BANK.err_OWNER_REJECT .encoding

/-- The drain of a handover ends (R262): the owner changes. -/
def State.handoverDone (s : State) (b : Nat) : State :=
  match s.shadow (bankPage b + 0x040) with
  | none => s
  | some v =>
    if s.filling b then s
    else
      let old := s.ownerNow b
      let s := s.setShadow (bankPage b + 0x040) none
      let s := s.applyValue (bankPage b) 0x040 ⟨0x040, 1, 0, 0, 0, 0x7f, 0, 0⟩ v
      let s := s.setFld (bankPage b) BANK.OWNER_NOW_OWNER v.toNat
      let s := s.post (bankPage b) BANK.st_HANDOVER_DONE
      let s := s.entry .apply .internal (bankPage b + 0x040) .done (s.rd (bankPage b + 0x040)).toNat
      s.entry .handover .internal (bankPage b + 0x040) .done (old + 2 ^ 8 * (v.toNat % 2 ^ 7))

/-- May a fill start (R265)? Owner NONE or HOST, no handover pending, no fill in progress. -/
def State.fillAllowed (s : State) (b : Nat) : Bool :=
  (s.ownerNow b == 0 || s.ownerNow b == 6) && !s.draining b && !s.filling b

/-- A fill request that passed the key (R265). A GO during a fill neither restarts nor extends it and is discarded. -/
def State.fillGo (s : State) (b : Nat) (v : Dword) (a : Agent) : State :=
  if s.fillAllowed b then (s.setFld (bankPage b) BANK.live_FILLING 1).entry .write a (bankPage b + 0x070) .done v.toNat
  else (s.raiseWrite (bankPage b) BANK.err_FILL_REJECT 0x070 a).entry .write a (bankPage b + 0x070) .busyReject v.toNat

/-- The store with every half of bank `b` a pad with fresh check bits. -/
abbrev fillStore (b : Nat) (t : Tab Half) : Tab Half := t.keep fun i => decide (i / 32768 ≠ b)

/-- The fill ends: pads in every line, poison cleared (R265). An armed injection goes into the first line filled (R437). -/
def State.fillDone (s : State) (b : Nat) : State :=
  if s.filling b then
    let s := { s with store := fillStore b s.store }
    let x := s.bank b
    let s := (s.setBank b ⟨x.ueAt, x.scrubLine, none⟩).injectHalf b 0 0
    (s.setFld (bankPage b) BANK.live_FILLING 0).post (bankPage b) BANK.st_FILL_DONE
  else s

/-- The scrubber reads one half: it notes a correctable half for correction, and reports an uncorrectable one once until it is
written again (R256, R259). -/
def State.scrubHalf (s : State) (b line half : Nat) : Bool × State :=
  let i := halfIdx b line half
  let h := s.half i
  match h.integ with
  | .ce => (true, s.countCe b line half 1)
  | .ue rep =>
    let s := (s.countUe b line half 1).raise (bankPage b) BANK.err_UE_READ
    (false, if rep then s else (s.setHalf i { h with reported := true }).bankUeRecord b line half 1)
  | _ => (false, s)

/-- One visit of the scrubber, in line order; the end of the last line ends a pass (R259). -/
def State.scrubVisit (s : State) (b : Nat) : State :=
  if s.bit (bankPage b) BANK.SCRUB_EN then
    let line := (s.bank b).scrubLine
    match s.scrubHalf b line 0 with
    | (c0, s) =>
      match s.scrubHalf b line 1 with
      | (c1, s) =>
        let x := s.bank b
        let last := line = 16383
        let s := s.setBank b ⟨x.ueAt, if last then 0 else line + 1, if c0 || c1 then some (line, c0, c1) else x.scrubFix⟩
        if last then (s.addSat (bankPage b) BANK.SCRUB_PASSES 1).post (bankPage b) BANK.st_SCRUB_PASS else s
  else s

/-- Halves of bank `b` are upset, by line and half: genuine errors (R256, R439). -/
def State.upsetHalves (s : State) (b : Nat) (l : List (BitVec 14 × Bool × List (BitVec 7))) : State :=
  l.foldl (fun s x => let i := halfIdx b x.1.toNat (b2n x.2.1); s.setHalf i ((s.half i).upset x.2.2)) s

/-- The visit is due: the halves that were upset since the one before, then the visit, while the part is out of reset. -/
def State.scrubBank (s : State) (b : Nat) (l : List (BitVec 14 × Bool × List (BitVec 7))) : State :=
  if s.live then (s.upsetHalves b l).scrubVisit b else s

/-- The scrubber writes its corrections back in the next idle cycle, unless a master wrote the line meanwhile (R259). Each is a whole-half write, which
takes an armed injection (R420, R437). -/
def State.scrubWriteback (s : State) (b : Nat) : State :=
  let x := s.bank b
  match x.scrubFix with
  | none => s
  | some f =>
    let fix := fun (s : State) (h : Nat) =>
      (s.setHalf (halfIdx b f.1 h) (Half.fresh (s.half (halfIdx b f.1 h)).data)).injectHalf b f.1 h
    let s := s.setBank b ⟨x.ueAt, x.scrubLine, none⟩
    let s := if f.2.1 then fix s 0 else s
    if f.2.2 then fix s 1 else s

end Sys2Proof.Machine
end

