-- ==== Sys2Proof/Machine/Cell.lean ====
section
/-! DEFINITION. Cells: instruction decoding (Tables 6-2 to 6-9), the register operations (Tables 6-3 to 6-6), poison and latency, slots, stopped
cells and region faults (R167 to R178, R195, R196). -/
namespace Sys2Proof.Machine
open Sys2Proof

/-- The region, the global block and the region's local number of a cell (R24). -/
def cellRegion (c : Nat) : Nat := c / 128
def cellBlock (c : Nat) : Nat := c / 16

def State.setCell (s : State) (c : Nat) (x : Cell) : State := { s with cells := Tab.set (fun _ => Cell.init) s.cells c x }
def State.iword (s : State) (c a : Nat) : IWord := Tab.get (fun _ => IWord.init) s.imem (512 * c + a)
def State.setIword (s : State) (c a : Nat) (w : IWord) : State := { s with imem := Tab.set (fun _ => IWord.init) s.imem (512 * c + a) w }
/-! Instructions -/

/-- The operations of a cell, with the fields of Tables 6-3 to 6-7. -/
inductive CellOp where
  | nop
  | openSlot
  | logic (tt : Nat) (m : Bool) (d a b : Nat)
  | arith (op : Nat) (cc : Bool) (d a b : Nat)
  | imm (iop d i : Nat)
  | take (f v d mode : Nat)
  | put (sq : Nat) (stamp : Bool) (g : Nat)
  | timer (top u p g i : Nat)
  | nrd (nb a d : Nat)
  | rsnd (ch g : Nat)
  | rrcv (ch d : Nat)
  | csnd (ch g : Nat)
  | crcv (ch d : Nat)
  | sld (port i a d : Nat)
  | sst (port i a g : Nat)
  | xin (sel d : Nat)
  | evt (line p : Nat)
  | bxfer (dir : Bool) (bank n a b : Nat)
  | btst (q p : Nat)
  deriving DecidableEq, Repr

/-- An instruction: NEG and predicate of its guard, and its operation. -/
structure CellInstr where
  neg : Bool
  guard : Nat
  op : CellOp
  deriving DecidableEq, Repr

/-- The operation if the condition holds; otherwise the encoding is reserved (R172). -/
def given (c : Bool) (o : CellOp) : Option CellOp := if c then some o else none

/-- LOGIC (Table 6-3): with M = 1, bit 5 of the three fields is 0. -/
def decodeLogic (w : Nat) : Option CellOp :=
  let m := bitOf w 18
  given (!m || !(bitOf w 17 || bitOf w 11 || bitOf w 5)) (.logic (bitsOf w 19 8) m (bitsOf w 12 6) (bitsOf w 6 6) (bitsOf w 0 6))

/-- Operations for which CC is meaningful (Table 6-4). -/
def usesCc (op : Nat) : Bool := op == 0x00 || op == 0x01 || op == 0x08 || op == 0x09 || op == 0x0a || op == 0x0b

/-- Operations whose destination is a predicate (Table 6-4). -/
def predDest (op : Nat) : Bool := op == 0x09 || op == 0x0a || op == 0x0b || op == 0x0e

/-- ARITH (R174). -/
def decodeArith (w : Nat) : Option CellOp :=
  let op := bitsOf w 22 5
  let cc := bitOf w 21
  let d := bitsOf w 12 6
  let b := bitsOf w 0 6
  given (decide (op ≤ 0x12) && bitsOf w 18 3 == 0 && (!cc || usesCc op) && (!predDest op || decide (d < 32)) && (op != 0x02 || b == 0)
    && (op != 0x0f || decide (b < 2)) && (op != 0x10 || decide (d < 2))) (.arith op cc d (bitsOf w 6 6) b)

/-- TIMER: which units an operation allows (Table 6-6). -/
def timerUnits (top u : Nat) : Bool :=
  if top = 1 ∨ top = 2 ∨ top = 9 then decide (u < 2) else if top = 4 ∨ top = 5 then decide (2 ≤ u) else decide (top ≤ 9)

/-- XIN selectors that Table 6-8 lists. -/
def xinListed (sel : Nat) : Bool := decide (sel ≤ 0x0b) || decide (0x10 ≤ sel ∧ sel ≤ 0x1b) || decide (0x20 ≤ sel ∧ sel ≤ 0x24)

/-- EXCHANGE (Table 6-7). -/
def decodeExchange (w : Nat) : Option CellOp :=
  let ch := bitsOf w 16 7
  let r := bitsOf w 0 6
  match bitsOf w 23 4 with
  | 0x0 => given (bitsOf w 12 7 == 0) (.nrd (bitsOf w 19 4) (bitsOf w 6 6) r)
  | 0x1 => given (bitsOf w 6 10 == 0 && decide (ch < 64)) (.rsnd ch r)
  | 0x2 => given (bitsOf w 6 10 == 0 && decide (ch < 64)) (.rrcv ch r)
  | 0x3 => given (bitsOf w 6 10 == 0) (.csnd ch r)
  | 0x4 => given (bitsOf w 6 10 == 0) (.crcv ch r)
  | 0x5 => some (.sld (bitsOf w 22 1) (bitsOf w 12 10) (bitsOf w 6 6) r)
  | 0x6 => some (.sst (bitsOf w 22 1) (bitsOf w 12 10) (bitsOf w 6 6) r)
  | 0x7 => given (bitsOf w 6 10 == 0 && xinListed ch) (.xin ch r)
  | 0x8 => given (bitsOf w 5 11 == 0 && decide (ch < 64)) (.evt ch (bitsOf w 0 5))
  | 0x9 => some (.bxfer (bitOf w 22) (bitsOf w 17 5) (bitsOf w 12 5) (bitsOf w 6 6) r)
  | 0xa => given (bitsOf w 5 13 == 0) (.btst (bitsOf w 18 5) (bitsOf w 0 5))
  | _ => none

/-- The operation of an instruction that is not a no-op (Table 6-2); none for a reserved encoding. -/
def decodeOp (w : Nat) : Option CellOp :=
  match bitsOf w 27 3 with
  | 0 => decodeLogic w
  | 1 => decodeArith w
  | 2 => given (decide (bitsOf w 24 3 ≤ 5)) (.imm (bitsOf w 24 3) (bitsOf w 18 6) (bitsOf w 0 18))
  | 3 => given (decide (bitsOf w 23 4 ≤ 11) && bitsOf w 10 2 != 3 && bitsOf w 0 10 == 0) (.take (bitsOf w 23 4) (bitsOf w 18 5) (bitsOf w 12 6) (bitsOf w 10 2))
  | 4 => given (bitsOf w 25 2 != 3 && bitsOf w 18 6 == 0 && bitsOf w 0 12 == 0) (.put (bitsOf w 25 2) (bitOf w 24) (bitsOf w 12 6))
  | 5 => given (timerUnits (bitsOf w 23 4) (bitsOf w 21 2)) (.timer (bitsOf w 23 4) (bitsOf w 21 2) (bitsOf w 16 5) (bitsOf w 10 6) (bitsOf w 0 10))
  | 6 => decodeExchange w
  | _ => none

/-- Decodes 36 bits (R172); none for a reserved encoding. -/
def decodeInstr (w : BitVec 36) : Option CellInstr :=
  let v := w.toNat
  if bitOf v 35 && bitsOf v 30 5 == 31 then
    if bitsOf v 1 29 = 0 then some ⟨true, 31, if bitOf v 0 then .openSlot else .nop⟩ else none
  else (decodeOp v).map fun o => ⟨bitOf v 35, bitsOf v 30 5, o⟩

/-- A register field that breaks the alignment of R176, R177, R174 or R178 (cause ALIGN). -/
def CellOp.misaligned : CellOp → Bool
  | .take _ _ d _ => d % 4 != 0
  | .put _ _ g => g % 4 != 0
  | .arith op _ d _ _ => (op == 0x06 || op == 0x07 || op == 0x08) && d % 2 == 1
  | .timer _ _ _ g _ => g % 2 == 1
  | _ => false

/-! Registers, predicates, units -/

/-- P31 always reads 1 (Table 6-1). -/
def Cell.pred (x : Cell) (p : Nat) : TaggedBit := if p = 31 then ⟨true, false⟩ else Tab.get (fun _ => TaggedBit.zero) x.preds p
def Cell.unit (x : Cell) (u : Nat) : CellUnit := Tab.get (fun _ => CellUnit.init) x.units u

/-- One result lands; a write of P31 is discarded. -/
def Cell.item (x : Cell) : Item → Cell
  | .reg r v => { x with regs := Tab.set (fun _ => Tagged.zero) x.regs r v }
  | .pred p v => if p = 31 then x else { x with preds := Tab.set (fun _ => TaggedBit.zero) x.preds p v }
  | .carry v => { x with carry := v }

def Cell.setUnit (x : Cell) (u : Nat) (v : CellUnit) : Cell := { x with units := Tab.set (fun _ => CellUnit.init) x.units u v }

/-- Lands, in order, the results that land at the end of a cycle before `t` (R170). -/
def Cell.landBefore (x : Cell) (t : Nat) : Cell :=
  let x' := (x.landing.filter fun p => decide (p.1 < t)).foldl (fun x p => x.item p.2) x
  { x' with landing := x.landing.filter fun p => decide (t ≤ p.1) }

/-- The cell as it stands at the start of this slot. -/
def State.cellNow (s : State) (c : Nat) : Cell := (s.cell c).landBefore s.time.tclk

/-- The value of a unit in the slot of TCLK cycle `t`: a started timer decreases by 1 each cycle, down to 0 (R178). -/
def CellUnit.at (u : CellUnit) (t : Nat) : Nat := if u.started then u.val.toNat - (t - u.since) else u.val.toNat

/-- Stops a timer at the value it has in the slot of cycle `t`. -/
def CellUnit.stop (u : CellUnit) (t : Nat) : CellUnit := ⟨BitVec.ofNat 36 (u.at t), u.poison, false, 0⟩

/-- The pair {Gr+1, Gr}, and whether either word is poisoned. -/
def Cell.pair (x : Cell) (r : Nat) : Nat × Bool :=
  ((x.reg (r + 1)).val.toNat * 2 ^ 18 + (x.reg r).val.toNat, (x.reg (r + 1)).poison || (x.reg r).poison)

/-- The guard's verdict: none when it is false; otherwise whether it is poisoned (R168, R172). -/
def Cell.guardOf (x : Cell) (i : CellInstr) : Option Bool :=
  let p := x.pred i.guard
  if p.poison then some true else if p.val != i.neg then some false else none

/-! Effects on the cell's own state: lists of results with their latencies. `gp` says that the guard is poisoned. -/

def regItem (n r v : Nat) (p : Bool) : Nat × Item := (n, .reg r ⟨BitVec.ofNat 18 v, p⟩)
def predItem (r : Nat) (v p : Bool) : Nat × Item := (1, .pred r ⟨v, p⟩)
def carryItem (n : Nat) (v p : Bool) : Nat × Item := (n, .carry ⟨v, p⟩)
/-- A register pair, high word in the odd register. -/
def pairItems (n d v : Nat) (p : Bool) : List (Nat × Item) := [regItem n d v p, regItem n (d + 1) (v / 2 ^ 18) p]

/-- LOGIC on `n` bits: result bit i is TT[4a + 2b + c] (R173). -/
def truth (tt n a b c : Nat) : Nat :=
  ((List.range n).map fun i => if bitOf tt (4 * bitsOf a i 1 + 2 * bitsOf b i 1 + bitsOf c i 1) then 2 ^ i else 0).foldl (· + ·) 0

def Cell.logic (x : Cell) (gp : Bool) (tt : Nat) (m : Bool) (d a b : Nat) : List (Nat × Item) :=
  if m then
    let p := x.pred a
    let q := x.pred b
    let r := x.pred d
    [predItem d (truth tt 1 (b2n p.val) (b2n q.val) (b2n r.val) == 1) (gp || p.poison || q.poison || r.poison)]
  else
    let p := x.reg a
    let q := x.reg b
    let r := x.reg d
    [regItem 1 d (truth tt 18 p.val.toNat q.val.toNat r.val.toNat) (gp || p.poison || q.poison || r.poison)]

/-- Leading zeros of an 18-bit value. -/
def leadingZeros (v : Nat) : Nat := if v = 0 then 18 else 17 - Nat.log2 v

/-- The last bit that a left or right shift by `n` moves out, for shifts of 1 to 18 (Table 6-4). -/
def outLeft (v n : Nat) : Bool := decide (1 ≤ n ∧ n ≤ 18) && bitOf v (18 - n)
def outRight (v n : Nat) : Bool := decide (1 ≤ n ∧ n ≤ 18) && bitOf v (n - 1)

/-- 16 predicates from P`b` on as a number. -/
def Cell.preds16 (x : Cell) (b : Nat) : Nat × Bool :=
  (((List.range 16).map fun i => if (x.pred (b + i)).val then 2 ^ i else 0).foldl (· + ·) 0, (List.range 16).any fun i => (x.pred (b + i)).poison)

/-- The operations of Table 6-4. DSTEP with D = A writes both its results to one register, and GA's stands (DESIGN CHOICE, assumption 88: the spec does
not say which). -/
def Cell.arith (x : Cell) (gp : Bool) (op : Nat) (cc : Bool) (d a b : Nat) : List (Nat × Item) :=
  let ga := x.reg a
  let gb := x.reg b
  let gd := x.reg d
  let va := ga.val.toNat
  let vb := gb.val.toNat
  let c := if cc then b2n x.carry.val else 0
  let cpz := cc && x.carry.poison
  let pab := gp || ga.poison || gb.poison
  let pc := pab || cpz
  let n := vb % 32
  let cmp := fun (r : Bool) => [predItem d r pc, carryItem 1 r pc]
  match op with
  | 0x00 => [regItem 1 d (va + vb + c) pc, carryItem 1 (decide (2 ^ 18 ≤ va + vb + c)) pc]
  | 0x01 => [regItem 1 d (va + 2 ^ 19 - vb - c) pc, carryItem 1 (decide (va < vb + c)) pc]
  | 0x02 => [regItem 1 d va (gp || ga.poison)]
  | 0x03 => [regItem 1 d (if n < 18 then va * 2 ^ n else 0) pab, carryItem 1 (outLeft va n) pab]
  | 0x04 => [regItem 1 d (if n < 18 then va / 2 ^ n else 0) pab, carryItem 1 (outRight va n) pab]
  | 0x05 =>
    let sv := signed 18 va
    [regItem 1 d (unsigned 18 (sv / ((2 ^ (min n 18) : Nat) : Int))) pab, carryItem 1 (if 18 < n then bitOf va 17 else outRight va n) pab]
  | 0x06 => pairItems 2 d (va * vb) pab
  | 0x07 => pairItems 2 d (unsigned 36 (signed 18 va * signed 18 vb)) pab
  | 0x08 =>
    let acc := x.pair d
    let v := acc.1 + va * vb + c
    pairItems 2 d v (pc || acc.2) ++ [carryItem 2 (decide (2 ^ 36 ≤ v)) (pc || acc.2)]
  | 0x09 => cmp (va == vb && (!cc || x.carry.val))
  | 0x0a => cmp (decide (va < vb) || (cc && va == vb && x.carry.val))
  | 0x0b => cmp (decide (signed 18 va < signed 18 vb) || (cc && va == vb && x.carry.val))
  | 0x0c => [regItem 1 d (leadingZeros va) (gp || ga.poison)]
  | 0x0d =>
    let v := 2 * gd.val.toNat + va / 2 ^ 17
    let q := decide (vb ≤ v)
    let p := pab || gd.poison
    [regItem 1 d (v - (if q then vb else 0)) p, regItem 1 a (va * 2 + b2n q) p, carryItem 1 q p]
  | 0x0e => [predItem d ga.poison gp]
  | 0x0f =>
    let p := x.preds16 (16 * b)
    [regItem 1 d p.1 (gp || p.2)]
  | 0x10 => (List.range 16).map fun i => predItem (16 * d + i) (bitOf va i) (gp || ga.poison)
  | 0x11 => [regItem 1 d (b2n x.carry.val) (gp || x.carry.poison)]
  | 0x12 => [carryItem 1 (bitOf va 0) (gp || ga.poison)]
  | _ => []

/-- The operations of Table 6-5. -/
def Cell.imm (x : Cell) (gp : Bool) (iop d i : Nat) : List (Nat × Item) :=
  let g := x.reg d
  let v := g.val.toNat
  let p := gp || g.poison
  match iop with
  | 0 => [regItem 1 d i gp]
  | 1 => [regItem 1 d (v + i) p, carryItem 1 (decide (2 ^ 18 ≤ v + i)) p]
  | 2 =>
    let w := v + i + b2n x.carry.val
    [regItem 1 d w (p || x.carry.poison), carryItem 1 (decide (2 ^ 18 ≤ w)) (p || x.carry.poison)]
  | 3 => [regItem 1 d (v &&& i) p]
  | 4 => [regItem 1 d (v ||| i) p]
  | _ => [regItem 1 d (v ^^^ i) p]

/-- The operations of Table 6-6 in the slot of TCLK cycle `t`: the unit, and the results. -/
def Cell.timer (x : Cell) (gp : Bool) (t top u p g i : Nat) : CellUnit × List (Nat × Item) :=
  let o := x.unit u
  let v := o.at t
  let w := x.pair g
  let pz := gp || o.poison
  match top with
  | 0 => (⟨BitVec.ofNat 36 w.1, gp || w.2, false, 0⟩, [])
  | 1 => (if o.started && v != 0 then { o with poison := pz } else ⟨BitVec.ofNat 36 v, pz, v != 0, t + 1⟩, [])
  | 2 => (⟨BitVec.ofNat 36 v, pz, false, 0⟩, [])
  | 3 => (o, pairItems 1 g v pz)
  | 4 => (⟨BitVec.ofNat 36 (min (v + i) (2 ^ 36 - 1)), pz, false, 0⟩, [predItem p (decide (2 ^ 36 ≤ v + i)) pz])
  | 5 => (⟨BitVec.ofNat 36 (v - i), pz, false, 0⟩, [predItem p (decide (v < i)) pz])
  | 6 => (o, [predItem p (v == 0) pz])
  | 7 => (o, [predItem p (decide (w.1 ≤ v)) (pz || w.2)])
  | 8 => (⟨0, gp, false, 0⟩, [])
  | _ => (⟨BitVec.ofNat 36 w.1, gp || w.2, w.1 != 0, t + 1⟩, [])

/-! Slots -/

/-- Queues results issued in this slot: a result of latency n lands at the end of slot k + n − 1 (R170). -/
def State.land (s : State) (c : Nat) (l : List (Nat × Item)) : State :=
  let x := s.cell c
  s.setCell c { x with landing := x.landing ++ l.map fun p => (s.time.tclk + p.1 - 1, p.2) }

/-- Region `n` runs the slot of this cycle: it executes, or halts only at the slot's end (R171). -/
def State.runsSlot (s : State) (n : Nat) : Bool := s.executes n || (s.region n).haltAt == some s.time.tclk

/-- The instruction that cell `c` fetches in this slot, if it fetches one that it has not executed yet. -/
def State.fetchCell (s : State) (c : Nat) : Option IWord :=
  let x := s.cell c
  if s.live && s.runsSlot (cellRegion c) && !(x.stopAt.any fun t => decide (t < s.time.tclk)) && x.ranAt != some s.time.tclk then some (s.iword c (s.slot (cellRegion c))) else none

/-- Marks the instruction of this slot as executed, with every earlier result landed. -/
def State.markRan (s : State) (c : Nat) : State := s.setCell c { s.cellNow c with ranAt := some s.time.tclk }

/-! Stopped cells and region faults (R181, R191, R195, R196) -/

def State.xchan (s : State) (i : Nat) : XChan := Tab.get (fun _ => ⟨Tagged.zero, false⟩) s.exch i
def State.setXchan (s : State) (i : Nat) (x : XChan) : State := { s with exch := Tab.set (fun _ => ⟨Tagged.zero, false⟩) s.exch i x }

/-- Exchange channels that a cell of region `n` names in a send. -/
def sendChannel (n : Nat) (i : Option CellInstr) : Option Nat :=
  match i with
  | some ⟨_, _, .rsnd ch _⟩ => some (64 * n + ch)
  | some ⟨_, _, .csnd ch _⟩ => some (512 + ch)
  | _ => none

/-- Channels that cell `c` sends to below L. -/
def State.sends (s : State) (c : Nat) : List Nat :=
  (List.range (s.majorLen (cellRegion c))).filterMap fun a => sendChannel (cellRegion c) (decodeInstr (s.iword c a).word)

/-- Poisons channels until ARM (R181). -/
def State.killChannels (s : State) (l : List Nat) : State := l.foldl (fun s i => s.setXchan i ⟨⟨(s.xchan i).cur.val, true⟩, true⟩) s

/-- The cell's timers hold the values they have (R171, R196). -/
def Cell.freeze (x : Cell) (t : Nat) : Cell := { x with units := x.units.map fun p => (p.1, p.2.stop t), landing := [] }

/-- The end of a slot: in cells that stop with it, and in the regions that halt with it, what is due lands, later results never do, and the
timers hold (R171, R191, R196). A timer that runs makes the decrement at the end of that slot, on which the spec is silent (DESIGN CHOICE,
assumption 88). -/
def State.endSlot (s : State) : State :=
  let t := s.time.tclk
  { s with cells := Tab.update (fun _ => Cell.init) (fun c x =>
    if x.stopAt = some t ∨ (s.region (cellRegion c)).haltAt = some t then (x.landBefore (t + 1)).freeze (t + 1) else x) s.cells }

/-- Cell `c` stops at the end of this slot (R196). -/
def State.stopCell (s : State) (c : Nat) : State :=
  let s := s.setCell c { s.cell c with stopAt := some s.time.tclk }
  let n := cellRegion c
  let i := c % 128
  let s := (s.setFld (regPage n) ⟨0x060 + i / 32 * 4, i % 32, 1⟩ 1).setFld (regPage n) REG.live_CELL_STOPPED 1
  (s.post (regPage n) REG.st_CELL_STOP).killChannels (s.sends c)

/-- A region stops executing at the end of this slot: its page shows it at once, and every instruction of the slot still executes. -/
def State.haltRegion (s : State) (n : Nat) : State :=
  let s := s.setFld (regPage n) REG.SLOT_VALUE (s.slot n)
  let s := (s.setFld (regPage n) REG.SLOT_EXEC 0).applyRegion n
  let r := s.region n
  s.setRegion n { r with draining := false, haltAt := some s.time.tclk }

/-- The record writer of region `n` takes what it holds of open groups as they stand: the region has nothing more to run (R39, R254). -/
def State.flushOpen (s : State) (n : Nat) : State :=
  s.forEach ((List.range 8).map (8 * n + ·)) fun g s =>
    let o := s.openGroup g
    if o.isEmpty then s else (s.setOpen g []).enqueueRec n [o]

/-- Chip exchange channels that the cells of a region send to. -/
def State.chipSends (s : State) (n : Nat) : List Nat :=
  ((List.range 128).flatMap fun i => s.sends (128 * n + i)).filter fun i => decide (512 ≤ i)

/-- A region goes to FAULT with a cause (R39, R181, R195): its writers take what open groups hold, then one error record, then no more. -/
def State.regionFault (s : State) (n code cell slot : Nat) (rec9 : Nat × Nat × Nat) : State :=
  if s.bit (regPage n) REG.live_FAULT then s
  else
    let s := (s.setFld (regPage n) REG.live_FAULT 1).wr (regPage n + 0x05c) (BitVec.ofNat 32 (code + 2 ^ 4 * cell + 2 ^ 14 * slot))
    let s := s.raise (regPage n) (if code < 8 then REG.err_SCHEDULE else REG.err_STORE_FAULT)
    -- what the writers have accepted comes first (R39)
    let s := ((s.flushOpen n).summaryRunsEnd n).error (some n) (104 + n) rec9.1 rec9.2.1 rec9.2.2 true
    let s := (s.haltRegion n).killChannels (s.chipSends n)
    { s with recordingRegions := s.recordingRegions &&& ~~~ (BitVec.ofNat 8 (2 ^ n)) }

/-- A schedule error of cell `c` in this slot (R195). -/
def State.scheduleError (s : State) (c code : Nat) : State :=
  let n := cellRegion c
  let k := s.slot n
  s.regionFault n code c k (0x12, c, 2 ^ 4 * k + code)

/-- Executes the instruction of this slot when it is one of those `want` picks: `run` gets the operation and whether the guard is
poisoned (R168, R172, R195). -/
def State.cellRun (s : State) (c : Nat) (want : CellOp → Bool) (run : CellOp → Bool → State → State) : State :=
  match s.fetchCell c with
  | none => s
  | some w =>
    if w.bad || s.injectArmed 3 c then s
    else
      match decodeInstr w.word with
      | none => s
      | some i =>
        if !want i.op then s
        else
          match (s.cellNow c).guardOf i with
          | none => s.markRan c
          | some gp => if i.op.misaligned then (s.markRan c).scheduleError c 2 else run i.op gp (s.markRan c)

/-- LOGIC, ARITH and IMM instructions: only the cell's own registers change. -/
def State.cellAlu (s : State) (c : Nat) (want : CellOp → Bool) : State :=
  s.cellRun c want fun o gp s =>
    match o with
    | .logic tt m d a b => s.land c ((s.cell c).logic gp tt m d a b)
    | .arith op cc d a b => s.land c ((s.cell c).arith gp op cc d a b)
    | .imm iop d i => s.land c ((s.cell c).imm gp iop d i)
    | _ => s

/-- TIMER instructions. -/
def State.cellTimer (s : State) (c top : Nat) : State :=
  s.cellRun c (fun o => match o with
    | .timer t .. => t == top
    | _ => false) fun o gp s =>
    match o with
    | .timer t u p g i =>
      let r := (s.cell c).timer gp s.time.tclk t u p g i
      (s.setCell c ((s.cell c).setUnit u r.1)).land c r.2
    | _ => s

/-- A started timer that has reached 0 stops (R178). -/
def State.timerExpire (s : State) (c u : Nat) : State :=
  let o := (s.cell c).unit u
  if o.started && o.at s.time.tclk == 0 then s.setCell c ((s.cell c).setUnit u (o.stop s.time.tclk)) else s

/-- Results due at the end of an earlier slot land (R170). -/
def State.resultLand (s : State) (c : Nat) : State := s.setCell c ((s.cell c).landBefore s.time.tclk)

/-- A reserved encoding executes (R172, R195). An instruction that is never executed is a no-op whatever its other bits hold. -/
def State.cellIllegal (s : State) (c : Nat) : State :=
  match s.fetchCell c with
  | none => s
  | some w =>
    if w.bad || s.injectArmed 3 c || (decodeInstr w.word).isSome then s
    else
      let v := w.word.toNat
      let p := (s.cellNow c).pred (bitsOf v 30 5)
      if p.poison || p.val != bitOf v 35 then (s.markRan c).scheduleError c 1 else s.markRan c

/-- A fetched instruction fails parity (R196, R437): the stored parity fails, and the cell stops at the end of the slot. -/
def State.cellParity (s : State) (c : Nat) : State :=
  match s.fetchCell c with
  | none => s
  | some w =>
    let n := cellRegion c
    let k := s.slot n
    let s := s.setIword c k ⟨w.word, true⟩
    let s := if s.injectArmed 3 c then s.injected else s
    let s := ((s.markRan c).stopCell c).raise (regPage n) REG.err_IPARITY
    s.error (some n) (104 + n) 0x10 c k true

end Sys2Proof.Machine
end

