-- ==== Sys2Proof/Machine/CellIo.lean ====
section
/-! DEFINITION. What cells share: takes, exchange channels, scratch and its parity, bank engines, debug accesses, the instruction and scratch
windows (R176, R179 to R181, R185, R189 to R194). -/
namespace Sys2Proof.Machine
open Sys2Proof

/-- What the present slot has used. -/
def State.use (s : State) : SlotUse := if s.slotUse.cycle = s.time.tclk then s.slotUse else ⟨s.time.tclk, [], [], [], [], []⟩
def State.setUse (s : State) (u : SlotUse) : State := { s with slotUse := u }

/-! TAKE (R176, R185) -/

/-- Entries that can be taken in this cycle: those admitted in earlier cycles (R184). -/
def State.takeable (s : State) (i : Nat) : List Rec :=
  let f := s.fifo i
  if f.newAt = s.time.tclk then f.entries.take (f.entries.length - f.newCount) else f.entries

/-- Cell `c` will pop this FIFO in the present slot and has not executed yet. -/
def State.willPop (s : State) (c f : Nat) : Bool :=
  match s.fetchCell c with
  | none => false
  | some w =>
    match decodeInstr w.word with
    | some i =>
      match i.op with
      | .take f' _ _ mode => f' == f && mode != 1 && !w.bad && ((s.cellNow c).guardOf i).isSome
      | _ => false
    | none => false

/-- The entry a popping take of cell `c` receives: the oldest left by the lower cells of the block that pop in this slot. -/
def State.popPlace (s : State) (c f : Nat) : Nat := ((List.range (c % 16)).filter fun j => s.willPop (c / 16 * 16 + j) f).length

/-- A take (R176, R185). -/
def State.take (s : State) (c f v d mode : Nat) (gp : Bool) : State :=
  let g := cellBlock c
  let i := 12 * g + f
  let u := s.use
  if !bitOf (s.fld (blkPage g) BLK.FIFO_CFG_EN) f || decide (2 ≤ (u.takes.filter (· == i)).length) then s.scheduleError c 5
  else
    let avail := s.takeable i
    let oldest := match u.oldest.find? fun p => p.1 == i with
      | some p => p.2
      | none => avail.head?
    let u := { u with takes := i :: u.takes, oldest := if u.oldest.any fun p => p.1 == i then u.oldest else (i, avail.head?) :: u.oldest }
    let s := s.setUse u
    let place := s.popPlace c f
    let got := if mode = 1 then oldest else avail[place]?
    let s := if mode = 1 ∨ got.isNone then s
      else
        let x := s.fifo i
        s.setFifo g f { x with entries := x.entries.eraseIdx place }
    let r := got.getD Rec.pad
    let regs := if mode = 2 then [] else [regItem 1 d r.w0.toNat gp, regItem 1 (d + 1) r.w1.toNat gp, regItem 1 (d + 2) r.w2.toNat gp, regItem 1 (d + 3) r.w3.toNat gp]
    s.land c (predItem v got.isSome gp :: regs)

def State.cellTake (s : State) (c mode : Nat) : State :=
  s.cellRun c (fun o => match o with
    | .take _ _ _ m => m == mode
    | _ => false) fun o gp s =>
    match o with
    | .take f v d m => s.take c f v d m gp
    | _ => s

/-! Exchange (R180, R181) -/

/-- Delivers the values sent to channel `i` that receivers see from now on; those that collided are never delivered. -/
def State.deliverX (s : State) (i : Nat) : State :=
  let due := s.sent.filter fun x => x.ch == i && decide (x.due ≤ s.time.tclk)
  let s := { s with sent := s.sent.filter fun x => !(x.ch == i && decide (x.due ≤ s.time.tclk)) }
  due.foldl (fun s x => if x.collided then s else s.setXchan i ⟨x.val, (s.xchan i).dead⟩) s

/-- Sends a value that is seen `lat` cycles later. Sends to one channel in one cycle collide: the region of each takes the error, and no value
is delivered (R180). -/
def State.sendX (s : State) (c i lat : Nat) (v : Tagged) : State :=
  let due := s.time.tclk + lat
  let others := s.sent.filter fun x => x.ch == i && x.due == due
  let s := { s with sent := (s.sent.map fun x => if x.ch == i && x.due == due then { x with collided := true } else x) ++ [⟨due, i, c, v, !others.isEmpty⟩] }
  if others.isEmpty then s
  else others.foldl (fun s o => if o.collided || cellRegion o.cell == cellRegion c then s else s.scheduleError o.cell 4) ((s.killChannels [i]).scheduleError c 4)

/-- The value a receive gets: poison once a stopped cell has poisoned the channel. -/
def State.recvX (s : State) (i : Nat) : Tagged × State :=
  let s := s.deliverX i
  let x := s.xchan i
  (⟨x.cur.val, x.cur.poison || x.dead⟩, s)

def State.cellSend (s : State) (c : Nat) (chip : Bool) : State :=
  s.cellRun c (fun o => match o with
    | .rsnd .. => !chip
    | .csnd .. => chip
    | _ => false) fun o gp s =>
    match o with
    | .rsnd ch g => let v := (s.cell c).reg g; s.sendX c (64 * cellRegion c + ch) 4 ⟨v.val, v.poison || gp⟩
    | .csnd ch g => let v := (s.cell c).reg g; s.sendX c (512 + ch) 16 ⟨v.val, v.poison || gp⟩
    | _ => s

def State.cellRecv (s : State) (c : Nat) (chip : Bool) : State :=
  s.cellRun c (fun o => match o with
    | .rrcv .. => !chip
    | .crcv .. => chip
    | _ => false) fun o gp s =>
    match o with
    | .rrcv ch d =>
      match s.recvX (64 * cellRegion c + ch) with
      | (v, s) => s.land c [(1, .reg d ⟨v.val, v.poison || gp⟩)]
    | .crcv ch d =>
      match s.recvX (512 + ch) with
      | (v, s) => s.land c [(1, .reg d ⟨v.val, v.poison || gp⟩)]
    | _ => s

/-- NRD: a register of a neighbour as it stood at the start of the slot; a stopped cell gives poison (R179, R181). -/
def State.cellNrd (s : State) (c : Nat) : State :=
  s.cellRun c (fun o => match o with
    | .nrd .. => true
    | _ => false) fun o gp s =>
    match o with
    | .nrd nb a d =>
      let x := s.cellNow (c / 16 * 16 + nb)
      let v := x.reg a
      s.land c [(1, .reg d ⟨v.val, v.poison || gp || x.stopAt.any fun t => decide (t < s.time.tclk)⟩)]
    | _ => s

/-! Scratch (R189, R191) -/

def State.sword (s : State) (g w : Nat) : SWord := Tab.get (fun _ => SWord.init) s.scratch (4096 * g + w)
def State.setSword (s : State) (g w : Nat) (x : SWord) : State := { s with scratch := Tab.set (fun _ => SWord.init) s.scratch (4096 * g + w) x }

/-- Stores of earlier slots land; of two in one slot to one address, port B's value stays (R189). -/
def State.landStores (s : State) : State :=
  let old := s.stores.filter fun x => decide (x.cycle < s.time.tclk)
  let put := fun (s : State) (x : Stored) => s.setSword x.blk x.addr ⟨x.val.val, x.val.poison, false⟩
  let s := { s with stores := s.stores.filter fun x => decide (s.time.tclk ≤ x.cycle) }
  old.foldl (fun s x =>
    if x.port = 0 ∧ old.any (fun y => y.cycle == x.cycle && y.blk == x.blk && y.addr == x.addr && y.port == 1) then s else put s x) s

/-- Claims a scratch port for the slot; a second access is a collision (R189). -/
def State.claimPort (s : State) (c port : Nat) : Bool × State :=
  let u := s.use
  let p := 2 * cellBlock c + port
  if u.ports.contains p then (false, s.scheduleError c 3) else (true, s.setUse { u with ports := p :: u.ports })

/-- Stops the 16 cells of a block (R191). -/
def State.haltBlock (s : State) (g : Nat) : State :=
  let s := (List.range 16).foldl (fun s j => if (s.cell (16 * g + j)).stopAt.isSome then s else s.stopCell (16 * g + j)) s
  (s.setFld (blkPage g) BLK.live_HALTED 1).setFld (blkPage g) BLK.XFER_STATUS_BUSY 0

/-- A scratch read through port `port` fails parity: the block acts on SCR_POLICY (R189, R191, Table 1-7). -/
def State.scratchParity (s : State) (g w port : Nat) : State :=
  let n := g / 8
  let x := s.sword g w
  let s := s.setSword g w { x with bad := true }
  let halt := s.fld (blkPage g) BLK.CTRL_SCR_POLICY == 0
  let s := s.wr (blkPage g + 0x064) (BitVec.ofNat 32 (w + 2 ^ 12 * port))
  let s := ((s.addSat (blkPage g) BLK.SCR_ERRS 1).post (blkPage g) BLK.st_SCR_PARITY).raise (blkPage g) BLK.err_SCR_PARITY
  let s := s.error (some n) (104 + n) 0x11 g (2 ^ 12 * port + w) halt
  if halt then s.haltBlock g else s

/-- SLD; `upset` tells that the stored parity of the word read fails (R189, R191). -/
def State.cellSld (s : State) (c : Nat) (upset : Bool) : State :=
  s.cellRun c (fun o => match o with
    | .sld .. => true
    | _ => false) fun o gp s =>
    match o with
    | .sld port i a d =>
      match s.claimPort c port with
      | (false, s) => s
      | (true, s) =>
        let s := s.landStores
        let g := cellBlock c
        let ga := (s.cell c).reg a
        let w := (ga.val.toNat + i) % 4096
        let x := s.sword g w
        let armed := s.injectArmed 4 g
        let fails := x.bad || upset || armed
        let s := if armed then s.injected else s
        let s := s.land c [(2, .reg d ⟨x.val, x.poison || fails || gp || ga.poison⟩)]
        if fails then s.scratchParity g w port else s
    | _ => s

/-- SST (R189). -/
def State.cellSst (s : State) (c : Nat) : State :=
  s.cellRun c (fun o => match o with
    | .sst .. => true
    | _ => false) fun o gp s =>
    match o with
    | .sst port i a g =>
      match s.claimPort c port with
      | (false, s) => s
      | (true, s) =>
        let s := s.landStores
        let ga := (s.cell c).reg a
        let v := (s.cell c).reg g
        { s with stores := s.stores ++ [⟨s.time.tclk, cellBlock c, (ga.val.toNat + i) % 4096, port, ⟨v.val, v.poison || gp || ga.poison⟩⟩] }
    | _ => s

/-! The bank engine (R190) -/

def State.engine (s : State) (g : Nat) : Engine := Tab.get (fun _ => ⟨false, 0, false⟩) s.engines g
def State.setEngine (s : State) (g : Nat) (e : Engine) : State := { s with engines := Tab.set (fun _ => ⟨false, 0, false⟩) s.engines g e }

/-- BXFER: starts the engine, or is discarded while the engine is busy or frozen; in the slot in which its block halts the engine has stopped, and
starts no more (R191). -/
def State.cellBxfer (s : State) (c : Nat) : State :=
  s.cellRun c (fun o => match o with
    | .bxfer .. => true
    | _ => false) fun o gp s =>
    match o with
    | .bxfer dir bank n a b =>
      let g := cellBlock c
      let p := blkPage g
      if s.bit p BLK.live_HALTED then s
      else if s.bit p BLK.XFER_STATUS_BUSY || s.bit p BLK.XFER_STATUS_FROZEN then (s.addSat p BLK.XFER_DROPS 1).raise p BLK.err_XFER_BUSY
      else
        let ga := (s.cell c).reg a
        let gb := (s.cell c).reg b
        let s := s.setEngine g ⟨dir, bitsOf ga.val.toNat 3 9 * 8, gp || ga.poison || gb.poison⟩
        s.wr (p + 0x06c) (BitVec.ofNat 32 (1 + 2 ^ 3 * bank + 2 ^ 8 * (n + 1) + 2 ^ 14 * bitsOf gb.val.toNat 0 14))
    | _ => s

/-- BTST (Table 6-7). Before any transfer there is no last one, and PP reads 1; with P = Q the result of Q stands (DESIGN CHOICE, assumption 88: the
spec says neither). -/
def State.cellBtst (s : State) (c : Nat) : State :=
  s.cellRun c (fun o => match o with
    | .btst .. => true
    | _ => false) fun o gp s =>
    match o with
    | .btst q p =>
      let b := blkPage (cellBlock c)
      s.land c [predItem p (!s.bit b BLK.XFER_STATUS_BUSY && s.fld b BLK.XFER_STATUS_LEFT == 0) gp,
        predItem q (s.bit b BLK.XFER_STATUS_ERR || s.bit b BLK.XFER_STATUS_FROZEN) gp]
    | _ => s

/-- Four scratch words as a record; none when one is poisoned. -/
def State.scratchRec (s : State) (g w : Nat) : Option Rec :=
  let x := fun (i : Nat) => s.sword g ((w + i) % 4096)
  if (x 0).poison || (x 1).poison || (x 2).poison || (x 3).poison || (x 0).bad || (x 1).bad || (x 2).bad || (x 3).bad then none
  else some ⟨(x 0).val, (x 1).val, (x 2).val, (x 3).val⟩

/-- Four scratch words from a half as read; none poisons them. -/
def State.putScratch (s : State) (g w : Nat) (r : Option Rec) : State :=
  (List.range 4).foldl (fun s i =>
    let v := match r with
      | some r => recWord r i
      | none => (s.sword g ((w + i) % 4096)).val
    s.setSword g ((w + i) % 4096) ⟨v, r.isNone, false⟩) s

/-- What a bank engine's or a window's read of `n` scratch words from `w` on does to the block: each stored word whose parity fails counts,
whichever port serves the read; the spec names no port for an engine's read: a free value (R189). -/
def State.engineReads (s : State) (g w n : Nat) : State :=
  s.forEach ((List.range n).filter fun i => (s.sword g ((w + i) % 4096)).bad) fun i s =>
    s.drawn.scratchParity g ((w + i) % 4096) (s.free.toNat % 2)

/-- A half written by the engine: whole, or as written poison (R257). -/
def State.engineHalf (s : State) (b line half : Nat) (r : Option Rec) : State :=
  match r with
  | some r => s.writeHalf b line half r
  | none => s.writePoison b line half

/-- The engine moves one line (R190). -/
def State.bxferLine (s : State) (g : Nat) : State :=
  let p := blkPage g
  if !s.bit p BLK.XFER_STATUS_BUSY || s.bit p BLK.XFER_STATUS_FROZEN || s.bit p BLK.live_HALTED then s
  else
    let e := s.engine g
    let b := 32 * (g / 8) + s.fld p BLK.XFER_STATUS_BANK
    let line := s.fld p BLK.XFER_STATUS_LINE
    match s.gate b 3 (g % 8) with
    | .waits => s
    | .violation => (s.setFld p BLK.XFER_STATUS_ERR 1).violate b 3 (g % 8) e.toBank line
    | .granted =>
      let s := s.landStores
      let s := if e.toBank && !e.poison then s.engineReads g e.addr 8 else s
      -- a block halted by its read stops its engine with the line unmoved (R191)
      if s.bit p BLK.live_HALTED then s else
      let s := if e.toBank then
          let r0 := if e.poison then none else s.scratchRec g e.addr
          let r1 := if e.poison then none else s.scratchRec g (e.addr + 4)
          let s := (s.engineHalf b line 0 r0).engineHalf b line 1 r1
          s.injectHalf b line 0
        else
          match s.readHalf b line 0 with
          | (r0, s) =>
            match s.readHalf b line 1 with
            | (r1, s) =>
              let s := (s.putScratch g e.addr (if e.poison then none else r0)).putScratch g (e.addr + 4) (if e.poison then none else r1)
              if r0.isNone || r1.isNone then (s.setFld p BLK.XFER_STATUS_ERR 1).raise p BLK.err_XFER_ERR else s
      let s := s.setEngine g { e with addr := (e.addr + 8) % 4096 }
      let left := s.fld p BLK.XFER_STATUS_LEFT - 1
      let s := (s.setFld p BLK.XFER_STATUS_LINE (line + 1)).setFld p BLK.XFER_STATUS_LEFT left
      if left = 0 then (s.setFld p BLK.XFER_STATUS_BUSY 0).post p BLK.st_XFER_DONE else s

/-! Open slots: debug accesses and patches (R33, R192, R194) -/

def openWord : BitVec 36 := 0xfc0000001

/-- Cell `c` has an open slot below L. -/
def State.hasOpen (s : State) (c : Nat) : Bool := (List.range (s.majorLen (cellRegion c))).any fun a => (s.iword c a).word == openWord

/-- Cell `c` stands in an open slot now, or its region does not execute (R33). -/
def State.openNow (s : State) (c : Nat) : Bool := !s.executes (cellRegion c) || (s.iword c (s.slot (cellRegion c))).word == openWord

/-- The predicates that a debug SPACE names: first and count. -/
def predSpace (space : Nat) : Nat × Nat := if space = 1 then (0, 18) else (18, 14)

/-- The item that a debug read returns (Table 6-18). -/
def State.dbgRead (s : State) (c index space : Nat) : Nat × Bool :=
  let x := s.cellNow c
  match space with
  | 0 => ((x.reg index).val.toNat, (x.reg index).poison)
  | 3 => (b2n x.carry.val + 2 * b2n x.stopAt.isSome, x.carry.poison)
  | 4 => ((x.unit index).at s.time.tclk % 2 ^ 18, (x.unit index).poison)
  | 5 => ((x.unit index).at s.time.tclk / 2 ^ 18, (x.unit index).poison)
  | _ =>
    let p := predSpace space
    (((List.range p.2).map fun i => if (x.pred (p.1 + i)).val then 2 ^ i else 0).foldl (· + ·) 0, (List.range p.2).any fun i => (x.pred (p.1 + i)).poison)

/-- What a debug write changes (R192). -/
def State.dbgWrite (s : State) (c index space v : Nat) (poison : Bool) : State :=
  let x := s.cellNow c
  let u := x.unit index
  let now := u.at s.time.tclk
  -- a timer that has reached 0 has stopped (R178)
  let unit := fun (w : Nat) => s.setCell c (x.setUnit index ⟨BitVec.ofNat 36 w, poison, u.started && now != 0, s.time.tclk⟩)
  match space with
  | 0 => s.setCell c (x.item (.reg index ⟨BitVec.ofNat 18 v, poison⟩))
  | 3 => s.setCell c { x with carry := ⟨bitOf v 0, poison⟩ }
  | 4 => unit (now / 2 ^ 18 * 2 ^ 18 + v)
  | 5 => unit (v * 2 ^ 18 + now % 2 ^ 18)
  | _ =>
    let p := predSpace space
    s.setCell c ((List.range p.2).foldl (fun x i => x.item (.pred (p.1 + i) ⟨bitOf v i, poison⟩)) x)

/-- A debug access ends. -/
def State.dbgEnd (s : State) (n : Nat) (ok : Bool) : State :=
  let p := regPage n
  let s := (s.setFld p REG.DBG_CTRL_GO 0).setFld p (if ok then REG.DBG_CTRL_DONE else REG.DBG_CTRL_FAIL) 1
  s.post p REG.st_DBG_DONE

/-- The pending debug access of region `n` is carried out, in an open slot or at once (R33, R192). It takes DBG_SEL and DBG_DATA as they stand then: the
spec does not say what a write of them while GO reads 1 does, and a reserved SPACE written then is not judged again (DESIGN CHOICE,
assumption 88). -/
def State.dbgAccess (s : State) (n : Nat) : State :=
  let p := regPage n
  if !s.bit p REG.DBG_CTRL_GO then s
  else
    let c := 128 * n + s.fld p REG.DBG_SEL_CELL
    let index := s.fld p REG.DBG_SEL_INDEX
    let space := s.fld p REG.DBG_SEL_SPACE
    if !s.openNow c then s
    else if s.bit p REG.DBG_SEL_WRITE then
      (s.dbgWrite c index space (s.fld p REG.DBG_DATA_VALUE) (s.bit p REG.DBG_DATA_POISON)).dbgEnd n true
    else
      let r := s.dbgRead c index space
      (s.wr (p + 0x054) (BitVec.ofNat 32 (r.1 % 2 ^ 18 + 2 ^ 31 * b2n r.2))).dbgEnd n true

/-- A write of 1 to DBG_CTRL.GO (R192). -/
def State.dbgGo (s : State) (n : Nat) : State :=
  let p := regPage n
  let c := 128 * n + s.fld p REG.DBG_SEL_CELL
  let index := s.fld p REG.DBG_SEL_INDEX
  let space := s.fld p REG.DBG_SEL_SPACE
  let s := ((s.setFld p REG.DBG_CTRL_GO 1).setFld p REG.DBG_CTRL_DONE 0).setFld p REG.DBG_CTRL_FAIL 0
  if 6 ≤ space ∨ ((space = 4 ∨ space = 5) ∧ 4 ≤ index) then (s.raiseWrite p REG.err_DBG_ENCODING 0x058 .pcie).dbgEnd n false
  else if s.executes n && !s.hasOpen c then (s.raiseWrite p REG.err_NO_SLOT 0x058 .pcie).dbgEnd n false
  else if s.executes n then s
  else s.dbgAccess n

/-- BAR0 address of instruction `a` of cell `c` (R25). -/
def imemAddr (c a : Nat) : Nat := 0x400000 + 0x1000 * c + 8 * a

/-- A write of an instruction's LO dword is staged (R194). -/
def State.imemLo (s : State) (c : Nat) (v : Dword) : State := s.setCell c { s.cell c with staged := v }

/-- Commits one instruction with new parity. -/
def State.commit (s : State) (c a : Nat) (w : BitVec 36) : State := s.setIword c a ⟨w, false⟩

/-- A patch commit applies and is journalled with the old and new instructions (R194, Table 13-6). -/
def State.patch (s : State) (c a : Nat) (w : BitVec 36) : State :=
  let old := (s.iword c a).word.toNat
  let s := (s.commit c a w).setFld (regPage (cellRegion c)) REG.live_PATCHED 1
  let s := (s.entry .patch .internal (imemAddr c a) .before (old % 2 ^ 32)).entry .patch .internal (imemAddr c a) .after (w.toNat % 2 ^ 32)
  s.entry .patch .internal (imemAddr c a + 4) .done (old / 2 ^ 32 + 2 ^ 4 * (w.toNat / 2 ^ 32))

/-- An error of a window, on the REG page of its region (R25). -/
def State.windowError (s : State) (n : Nat) (f : Fld) (addr : Nat) (read : Bool) : State :=
  ((s.raiseWrite (regPage n) f (addr % 0x1000) .pcie).busError addr (if read then .read else .write))

/-- A write of an instruction's HI dword (R194). -/
def State.imemHi (s : State) (c a : Nat) (v : Dword) : State :=
  let n := cellRegion c
  let w : BitVec 36 := BitVec.ofNat 36 (v.toNat % 16 * 2 ^ 32 + (s.cell c).staged.toNat)
  if s.betweenRuns && !s.executes n then s.commit c a w
  else if (s.executes n || s.runState == .armed) && s.bit (regPage n) REG.DBG_CTRL_PATCH_EN then
    if s.hasOpen c then
      let x := s.cell c
      s.setCell c { x with patch := x.patch ++ [(a, w)] }
    else s.windowError n REG.err_NO_SLOT (imemAddr c a + 4) false
  else s.windowError n REG.err_IMEM_LOCKED (imemAddr c a + 4) false

/-- Pending commits of cell `c` apply in its next open slot (R194). -/
def State.patchCommit (s : State) (c : Nat) : State :=
  match (s.cell c).patch with
  | [] => s
  | (a, w) :: r =>
    if s.executes (cellRegion c) && s.openNow c then (s.setCell c { s.cell c with patch := r }).patch c a w else s

/-! The scratch window (R193) -/

/-- Port `port` of block `g` is assigned at address `k`: some cell holds an SLD or SST that names it (R189). -/
def State.portAssigned (s : State) (g port k : Nat) : Bool :=
  (List.range 16).any fun j =>
    match decodeInstr (s.iword (16 * g + j) k).word with
    | some ⟨_, _, .sld p _ _ _⟩ => p == port
    | some ⟨_, _, .sst p _ _ _⟩ => p == port
    | _ => false

def State.portFree (s : State) (g k : Nat) : Bool := !s.portAssigned g 0 k || !s.portAssigned g 1 k

def scratchAddr (g w : Nat) : Nat := 0x800000 + 0x4000 * g + 4 * w

/-- The ports of block `g` that the window can use in slot `k`: unassigned ones that no access has used, port A before port B (R193). -/
def State.windowPorts (s : State) (g k : Nat) : List Nat :=
  [0, 1].filter fun q => !s.portAssigned g q k && !s.use.ports.contains (2 * g + q)

/-- Scratch accesses to block `g`, and reads of cell `c`, that wait. -/
def State.heldScratch (s : State) (g : Nat) : Bool := s.heldAcc.any fun
  | .scratch g' .. => g' == g
  | .imem .. => false
def State.heldImem (s : State) (c : Nat) : Bool := s.heldAcc.any fun
  | .imem c' .. => c' == c
  | .scratch .. => false

/-- The access is carried out through port `port`. -/
def State.scratchServe (s : State) (g w port : Nat) (wr : Option Dword) : State :=
  let s := s.landStores
  match wr with
  | some v => s.setSword g w ⟨v.setWidth 18, false, false⟩
  | none =>
    let s := if (s.sword g w).bad && !s.bit (blkPage g) BLK.live_HALTED then s.scratchParity g w port else s
    let x := s.sword g w
    s.send (.readData (scratchAddr g w) [BitVec.ofNat 32 (x.val.toNat + 2 ^ 31 * b2n (x.poison || x.bad || s.bit (blkPage g) BLK.live_HALTED))])

/-- A host access to scratch word `w` of block `g`: a write of a dword, or a read. While the region executes it waits for the first slot with a
free port, behind those that wait already (R193). -/
def State.scratchAccess (s : State) (g w : Nat) (wr : Option Dword) : State :=
  let n := g / 8
  if !s.executes n then s.scratchServe g w 0 wr
  else if !((List.range (s.majorLen n)).any fun k => s.portFree g k) then s.windowError n REG.err_NO_SLOT (scratchAddr g w) wr.isNone
  else
    match (if s.heldScratch g then [] else s.windowPorts g (s.slot n)) with
    | [] => { s with heldAcc := s.heldAcc ++ [.scratch g w wr] }
    | q :: _ => (s.setUse { s.use with ports := (2 * g + q) :: s.use.ports }).scratchServe g w q wr

/-- A read through an instruction memory window; while the region executes it waits for the cell's next open slot (R33, R194). -/
def State.imemRead (s : State) (c a : Nat) (hi : Bool) : State :=
  let n := cellRegion c
  let addr := imemAddr c a + 4 * b2n hi
  if s.executes n && !s.hasOpen c then s.windowError n REG.err_NO_SLOT addr true
  else if !s.openNow c || s.heldImem c then { s with heldAcc := s.heldAcc ++ [.imem c a hi] }
  else
    let w := s.iword c a
    s.send (.readData addr [if hi then BitVec.ofNat 32 (w.word.toNat / 2 ^ 32 + 2 ^ 31 * b2n w.bad) else BitVec.ofNat 32 w.word.toNat])

/-- The accesses that wait are tried again, oldest first, in the slot that begins. -/
def State.serveHeld (s : State) : State :=
  s.heldAcc.foldl (fun s h =>
    match h with
    | .imem c a hi => s.imemRead c a hi
    | .scratch g w wr => s.scratchAccess g w wr) { s with heldAcc := [] }

end Sys2Proof.Machine
end

