-- ==== Sys2Proof/Machine/Qual.lean ====
section
/-! DEFINITION. The qualifiers, the windows of a region, TRIG_IN and TRIG_OUT (R202 to R207, R210, R216 to R220). -/
namespace Sys2Proof.Machine
open Sys2Proof

/-! Qualifiers (R202 to R204) -/

/-- Counts an event of the qualifier of channel `k` in a CH counter and marks its bit. -/
def State.qualHit (s : State) (k bit : Nat) (f : Fld) (t : DTime) : State := (s.addSat (chPage k) f 1).markEvent k bit t

/-- The tests of R203 on a pulse of width `w` that ends at `t`, with the edge of TCLK cycle `m`. -/
def State.pulseTests (s : State) (k m : Nat) (high : Bool) (w : Int) (t : DTime) : State :=
  let pol := s.fldAt k m CH.QCTRL_WPOL
  let sel := pol == 2 || (pol == 0 && high) || (pol == 1 && !high)
  let lo := s.fldAt k m CH.WMIN_VALUE
  let hi := s.fldAt k m CH.WMAX_VALUE
  let s := if sel && lo != 0 && decide (w < lo) then s.qualHit k 2 CH.NARROWS t else s
  let s := if sel && hi != 0 && decide ((hi : Int) < w) then s.qualHit k 3 CH.WIDES t else s
  if s.fldAt k m CH.QCTRL_GLITCH_EN == 1 && decide (w < s.fldAt k m CH.GLITCH_W_VALUE) then s.qualHit k 4 CH.GLITCHES t else s

/-- The window state of a pair from its comparators: 0 BELOW, 1 INSIDE, 2 ABOVE; none while it is unknown (R88, R204). -/
def winState (a b : Option Bool) : Option Nat :=
  match a, b with
  | some x, some y => some (b2n x + b2n y)
  | _, _ => none

/-- The window tests run on the pair of odd channel `o`, for an edge of TCLK cycle `m` (R204). -/
def State.winTests (s : State) (o m : Nat) : Bool :=
  s.paired o && s.fldAt o m CH.QCTRL_EN == 1 && s.fldAt o m CH.QCTRL_WIN_EN == 1 && s.fldAt o m CH.EDGE_SEL == 2
    && s.fldAt (o - 1) m CH.EDGE_SEL == 2

/-- The window of the pair of odd channel `o` goes from `a` to `b` at `t`, with an edge of TCLK cycle `m` (Table 7-2). -/
def State.winMove (s : State) (o m : Nat) (a b : Option Nat) (t : DTime) : State :=
  let from? := (s.qual o).inside
  let s := s.setQual o { s.qual o with inside := if b = some 1 then (if a = some 0 ∨ a = some 2 then a else if a = some 1 then from? else none) else none }
  if !s.winTests o m then s
  else
    match a, b with
    | some 1, some 0 =>
      let s := s.qualHit o 8 CH.WINDOW_EVTS t
      if from? = some 0 then s.qualHit o 5 CH.RUNTS t else s
    | some 1, some 2 =>
      let s := s.qualHit o 7 CH.WINDOW_EVTS t
      if from? = some 2 then s.qualHit o 6 CH.RUNTS t else s
    | some 0, some 1 => s.qualHit o 9 CH.WINDOW_EVTS t
    | some 2, some 1 => s.qualHit o 9 CH.WINDOW_EVTS t
    | _, _ => s

/-- A stamped edge of TCLK cycle `m` reaches the qualifier of channel `k` (R202 to R204, R206), with the settings to which it belongs (R398). -/
def State.qualEdge (s : State) (k m : Nat) (rising : Bool) (t : DTime) : State :=
  let q := s.qual k
  let both := s.fldAt k m CH.EDGE_SEL == 2
  let s := s.markEvent k (if rising then 0 else 1) t
  let o := k / 2 * 2 + 1
  let a := winState (s.qual (o - 1)).level (s.qual o).level
  let s := s.setQual k { s.qual k with last := some (t, rising), level := if both then some rising else none }
  let b := winState (s.qual (o - 1)).level (s.qual o).level
  let s := match q.last with
    | some (t0, r) => if s.fldAt k m CH.QCTRL_EN == 1 && both && r != rising then s.pulseTests k m r (dt t t0) t else s
    | none => s
  s.winMove o m a b t

/-- A gap marker reaches the qualifier of channel `k` (R203, R204): the window of its pair is unknown until each comparator has a stamped edge
again. -/
def State.qualGap (s : State) (k : Nat) : State :=
  let s := s.markEvent k 10 s.now
  let o := k / 2 * 2 + 1
  let s := s.setQual k { s.qual k with last := none }
  let s := s.setQual (o - 1) { s.qual (o - 1) with level := none }
  s.setQual o { s.qual o with level := none, inside := none }

/-! Windows (R205, R210) -/

def State.winOf (s : State) (n : Nat) : RegWin := Tab.get (fun _ => RegWin.empty) s.winCur n
def State.setWin (s : State) (n : Nat) (w : RegWin) : State := { s with winCur := Tab.set (fun _ => RegWin.empty) s.winCur n w }
def State.winShow (s : State) (n : Nat) : RegWin := Tab.get (fun _ => RegWin.empty) s.winShown n

/-- Changes the window that every region gathers. -/
def State.modWins (s : State) (f : RegWin → RegWin) : State := s.forEach (List.range 8) fun n s => s.setWin n (f (s.winOf n))

/-- The channels of region `n`. -/
def chansOf (n : Nat) : List Nat := (List.range 12).map (12 * n + ·)

/-- The word of channel `k` becomes readable and its next window begins (R205). -/
def State.publishQual (s : State) (k : Nat) : State :=
  let q := s.qual k
  let stuck := 2 ^ 11 * b2n (s.bit (chPage k) CH.live_STUCK)
  let comp := 2 ^ 12 * b2n (s.compOn k && s.bit (chPage k) CH.LEVEL_COMP)
  s.setQual k { q with shown := ⟨q.cur.bits ||| stuck ||| comp, q.cur.latch⟩, cur := Window.empty }

/-- The words of region `n` become readable and their next window begins. -/
def State.publish (s : State) (n : Nat) : State :=
  let s := s.forEach (chansOf n) fun k s => s.publishQual k
  let w := s.winOf n
  let s := { s with winShown := Tab.set (fun _ => RegWin.empty) s.winShown n { w with level := s.trigIn.level, aligned := s.bit eslPage ESL.STATUS_ALIGNED } }
  (s.setWin n RegWin.empty).wr (regPage n + 0x220) (BitVec.ofNat 32 w.states)

/-- Every window begins: the words read 0 in the first major cycle (R205). -/
def State.beginWindows (s : State) : State :=
  let s := { s with quals := Tab.update (fun _ => Qual.init) (fun _ q => { q with cur := Window.empty, shown := Window.empty }) s.quals }
  let s := { s with winCur := [] }
  { s with winShown := [] }

/-- Until slot 0 every TCLK cycle begins the windows anew: the first one takes what comes from the start of slot 0's own cycle on (R205, R226). -/
def State.holdWindows (s : State) : State := if s.run.slotDue then s.beginWindows else s

/-- START clears the counters (R238). -/
def State.clearQual (s : State) (k : Nat) : State :=
  ((((s.setFld (chPage k) CH.NARROWS 0).setFld (chPage k) CH.WIDES 0).setFld (chPage k) CH.GLITCHES 0).setFld (chPage k) CH.RUNTS 0).setFld
    (chPage k) CH.WINDOW_EVTS 0

/-- The TRIG_IN word (R219). -/
def RegWin.trigInWord (w : RegWin) : Nat := b2n (w.edges != 0) + 2 * b2n w.level + 4 * sat 8 w.edges + 2 ^ 10 * b2n w.missed

/-- The step lane status word (R226). -/
def RegWin.stepWord (w : RegWin) : Nat :=
  sat 6 w.frames + 2 ^ 6 * b2n w.aligned + 2 ^ 7 * b2n w.err + 2 ^ 8 * b2n w.discont + 2 ^ 9 * w.hits

/-- A value latched in a window under a number. -/
def latched (l : List (Nat × DTime)) (i : Nat) : Option DTime := (l.find? fun p => p.1 == i).map (·.2)

/-- Adds the first value of a number. -/
def latchFirst (l : List (Nat × DTime)) (i : Nat) (t : DTime) : List (Nat × DTime) := if l.any (·.1 == i) then l else l ++ [(i, t)]

/-! TRIG_OUT (R216) -/

/-- A trigger or decision starts a pulse, or restarts the width of the one in progress. -/
def State.pulse (s : State) : State := if s.bit chipPage CHIP.TRIG_IO_OUT_EN then { s with trigOut := some s.time.tclk } else s

/-- The pulse ends after its width, of which 0 counts as 1. -/
def State.pulseEnd (s : State) : State :=
  match s.trigOut with
  | some t => if t + max 1 (s.fld chipPage CHIP.TRIG_IO_OUT_WIDTH) ≤ s.time.tclk then { s with trigOut := none } else s
  | none => s

/-- The level of TRIG_OUT. -/
def State.trigOutLevel (s : State) : Bool := (s.trigOut.isSome && s.bit chipPage CHIP.TRIG_IO_OUT_EN) != s.bit chipPage CHIP.TRIG_IO_OUT_POL

/-! TRIG_IN (R218, R219) -/

/-- An edge on TRIG_IN at `fine` su within the cycle: stamped on the selected polarity, or counted while the converter is busy. -/
def State.trigInEdge (s : State) (rising : Bool) (fine : Nat) : State :=
  let s := { s with trigIn := { s.trigIn with level := rising } }
  if !s.live || !s.bit chipPage CHIP.TRIG_IO_IN_EN || rising == s.bit chipPage CHIP.TRIG_IO_IN_POL then s
  else
    let busy := match s.trigIn.busy with
      | some m => decide (s.time.tclk < m + 12)
      | none => false
    { s with trigIn := ⟨rising, if busy then s.trigIn.busy else some s.time.tclk,
        s.trigIn.pipe ++ [(s.time.tclk, if busy then none else some (s.now + BitVec.ofNat 64 fine))]⟩ }

/-! Event lines (R211) -/

/-- The code of event line `l` of region `n`: use and argument. -/
def State.binding (s : State) (n l : Nat) : Nat × Nat :=
  let c := getBits (s.rd (regPage n + 0x260 + l / 4 * 4)) (l % 4 * 8) 8
  (c / 32, c % 32)

/-- What the measurement instances that name a line make of a decision at `t` (R137, R152). -/
def State.namedLine (s : State) (n l : Nat) (t : DTime) : State :=
  s.lineUses.foldl (fun s u =>
    if u.1 = 64 * n + l then
      match u.2 with
      | .gate k => s.gateDecision k t
      | .arm k i => s.armDecision k i t
    else s) s

end Sys2Proof.Machine
end

