-- ==== Sys2Proof/Machine/Writer.lean ====
section
/-! DEFINITION. The two writers of a region: rings and stripe groups, lines and pads, segments and their marks, admission and demotion, loss
records (R228 to R235, R253, R266 to R272). -/
namespace Sys2Proof.Machine
open Sys2Proof

/-! Segments and their events -/

/-- An event bit of REG.CAP_EVENTS. -/
def State.capEvent (s : State) (n : Nat) (f : Fld) : State := s.setRc (regPage n) f 1

/-- Region `n` captures: it records and its run has begun. -/
def State.capturing (s : State) (n : Nat) : Bool := s.recording n && s.executes n

/-! Losses (R253, R269, R270, R272) -/

/-- Closes the RING_FULL interval of a source once a record was placed (Table 8-10). -/
def State.ringFullEnds (s : State) (n src : Nat) : State := s.closeLosses n false fun l => l.cause == 2 && l.src == src

/-- Removes the first closed loss. -/
def takeClosed : List Loss → Option (Loss × List Loss)
  | [] => none
  | l :: r => if l.closed then some (l, r) else (takeClosed r).map fun p => (p.1, l :: p.2)

/-- A loss record (Table 8-9). -/
def State.lossConts (s : State) (l : Loss) : List Cont :=
  [⟨l.cause * 2 ^ 14 + l.kind * 2 ^ 12 + b2n s.coarse * 2 ^ 11 + b2n s.holdover * 2 ^ 10, l.count / 2 ^ 18, l.count⟩, c54 l.last.toNat]

/-- One more loss record is written. -/
def State.lossWritten (s : State) (n : Nat) : State := (s.addSat (regPage n) REG.LOSS_RECS 1).post (regPage n) REG.st_LOSS

/-- A kept loss is written once the record writer can place it (R272). -/
def State.lossWrite (s : State) (n : Nat) : State :=
  if s.recFrozen n || !s.hasRing n || s.bit (regPage n) REG.live_REC_STALLED then s
  else
    match takeClosed (s.lossesOf n) with
    | none => s
    | some (l, r) =>
      if 256 < s.putHeld n + s.extNeed (streamRec n) l.src l.first + 3 then s
      else
        let s := s.setLosses n r
        match s.formGroup (streamRec n) 0xc l.src l.byStop l.first (s.lossConts l) with
        | (g, s) => (s.enqueueRec n g).lossWritten n

/-- The records of source `src` in a list take the sequence numbers from `q` on, a continuation its head's (R244); with the next number. -/
def renumber (src : Nat) : Nat → List Rec → List Rec × Nat
  | q, [] => ([], q)
  | q, r :: l =>
    let w := r.w0.toNat
    if r = Rec.pad ∨ bitsOf r.w0.toNat 7 7 ≠ src then
      let x := renumber src q l
      (r :: x.1, x.2)
    else
      let head := w / 2 ^ 14 ≠ 15
      let x := renumber src (if head then q + 1 else q) l
      (⟨BitVec.ofNat 18 (w / 2 ^ 6 * 2 ^ 6 + (if head then q else q + 63) % 64), r.w1, r.w2, r.w3⟩ :: x.1, x.2)

/-- The groups of a queue with the numbers of source `src` running on from `q`. -/
def renumberAll (src : Nat) : Nat → List Batch → List Batch
  | _, [] => []
  | q, b :: r => ⟨b.arrival, (renumber src q b.recs).1⟩ :: renumberAll src (renumber src q b.recs).2 r

/-- New groups of source `src` go before those that a queue holds, behind a time extension with which the source begins there; the numbers of the
source follow the order in which its records are written (R244). -/
def placeFirst (src : Nat) (new q : List Batch) : List Batch :=
  let mine := fun b : Batch => b.recs.any fun r => bitsOf r.w0.toNat 7 7 == src && r != Rec.pad
  match q.find? mine with
  | none => new ++ q
  | some b =>
    renumberAll src (b.recs.head?.elim 0 fun r => bitsOf r.w0.toNat 0 6)
      (if b.recs.all (fun r => r.w0.toNat / 2 ^ 14 == 1) then b :: new ++ q.erase b else new ++ q)

/-- A loss record is written before the groups that wait, but not within one that is partly written (R268). -/
def State.lossFirst (s : State) (n : Nat) (l : Loss) : State :=
  match s.formGroup (streamRec n) 0xc l.src l.byStop l.first (s.lossConts l) with
  | (g, s) =>
    let w := s.writer (8 + n)
    let k := b2n w.inGroup
    ((s.setWriter (8 + n) { w with
      queue := w.queue.take k ++ placeFirst l.src (batches s.time.tclk g) (w.queue.drop k), since := s.time.tclk }).showLevels n).lossWritten n

/-- A loss of a frozen master. -/
def Loss.isFrozen (l : Loss) (src : Nat) : Bool := l.cause == 4 && l.src == src

/-- The count a master gathered while frozen is written on its release (R268), before other losses that wait: one record for each kind that lost
records, and one of count 0 where nothing was lost; the interval begins with the freeze. -/
def State.frozenEnds (s : State) (n src kind : Nat) (at_ : DTime) : State :=
  let ls := s.lossesOf n
  let ls := if ls.any fun l => l.isFrozen src && !l.closed then ls else addLoss 4 kind src 0 s.now ls
  let ls := ls.map fun l => if l.isFrozen src ∧ l.closed = false ∧ 0 < dt l.first at_ then { l with first := at_ } else l
  (s.setLosses n (ls.filter (·.isFrozen src) ++ ls.filter fun l => !l.isFrozen src)).closeLosses n false (·.isFrozen src)

/-- The record writer's own records of its freeze come before everything that it holds (R268). -/
def State.frozenFirst (s : State) (n : Nat) : State :=
  if s.recFrozen n || !s.hasRing n then s
  else
    let ls := s.lossesOf n
    let mine := fun l : Loss => l.isFrozen (104 + n) && l.closed
    (ls.filter mine).foldr (fun l s => s.lossFirst n l) (s.setLosses n (ls.filter fun l => !mine l))

/-- In a segment, the stripe group of the next line counts as full: the next record goes to the group after it, or to the segment's beginning
(R268; DEDUCED, assumption 81). -/
def State.skipGroup (s : State) (n : Nat) : State :=
  let c := s.cap n
  let r := max 1 (s.segLen n)
  let left := 2 * (groupLines (s.ring n).2.2 - (s.nextLine n).2)
  let s := s.setCap n { c with count := c.count + min left (r - c.count % r) }
  if r < (s.cap n).count then s.setFld (regPage n) REG.CAP_STATUS_WRAPPED 1 else s

/-- A writer released from a freeze (R268): its loss record comes first, and its stripe group counts as full. -/
def State.releaseWriter (s : State) (n : Nat) (record : Bool) : State :=
  let i := if record then 8 + n else n
  let w := s.writer i
  let s := s.frozenEnds n (if record then 104 + n else 96 + n) (if record then 2 else 0) w.frozenAt
  let s := if record then s.frozenFirst n else s
  if !record && s.segMode n then (if s.capPhase n = 1 ∨ s.capPhase n = 2 then s.skipGroup n else s)
  else
    let s := s.setWriter i { s.writer i with entered := false }
    s.forEach (s.groupBanks i w.group) fun b s => if w.entered then s.setFld (bankPage b) BANK.live_WRITER_IN 0 else s

/-! Segments (R229 to R235) -/

/-- The gate of source channel `src` that was open at `t`; a free value where none was (Table 7-10). -/
def State.gateAt (s : State) (src : Nat) (t : DTime) : Nat × State :=
  if 96 ≤ src ∨ ¬ s.bit (chPage src) CH.ACC_CTRL_EN then (0, s)
  else
    let a := s.acc src
    match a.gate with
    | some g =>
      if 0 ≤ dt t g.start then (g.num % 2 ^ 36, s)
      else
        match a.past.find? fun p => decide (0 ≤ dt t p.2.1 ∧ dt t p.2.2 ≤ 0) with
        | some p => (p.1 % 2 ^ 36, s)
        | none => (s.free.toNat % 2 ^ 36, s.drawn)
    | none =>
      match a.past.find? fun p => decide (0 ≤ dt t p.2.1 ∧ dt t p.2.2 ≤ 0) with
      | some p => (p.1 % 2 ^ 36, s)
      | none => (s.free.toNat % 2 ^ 36, s.drawn)

/-- Does a loss of region `n` lie in its segment (R270)? One that is still open or a writer that is frozen reaches up to now. -/
def State.segLoss (s : State) (n : Nat) : Bool :=
  let c := s.cap n
  (s.lossesOf n).any (fun l => !l.closed) || s.isFrozen (regPage n) 8 || s.recFrozen n || (match c.lossAt with
    | some a => decide (c.count - s.segLen n ≤ a)
    | none => false)

/-- The trigger that a segment mark of region `n` would name. -/
def State.segTrig (s : State) (n : Nat) : Option CapTrig := if s.capPhase n = 2 then (s.cap n).trig else none

/-- The record writer takes the segment mark of region `n`, of four records. -/
def State.markFits (s : State) (n : Nat) : Bool :=
  match s.segTrig n with
  | some t => s.takesGroup n t.src t.time 4
  | none => s.takesGroup n (96 + n) s.now 4

/-- The segment mark of region `n` (Table 7-10), with end cause `cause`; the gate that was open at T is named as the edges emitted so far show it
(DEDUCED, assumption 81). What no trigger gives is free. -/
def State.segMark (s : State) (n cause : Nat) : State :=
  let c := s.cap n
  let r := max 1 (s.segLen n)
  let t := s.segTrig n
  let flags := b2n (s.bit (regPage n) REG.CAP_STATUS_WRAPPED) + 2 * b2n (t.any (·.late)) + 4 * b2n (t.any (·.overrun)) + 8 * b2n s.coarse
    + 16 * b2n s.holdover + 32 * b2n (s.segLoss n) + 64 * b2n (t.any (·.swarm.isSome))
  let c1 : Cont := ⟨s.capSeg n % 2 ^ 8 * 2 ^ 10 + cause * 2 ^ 8 + flags, c.count % r / 2 ^ 18, c.count % r⟩
  match t with
  | some t =>
    let f := t.first.getD c.count % r
    match s.gateAt t.src t.time with
    | (g, s) =>
      s.unitGroup n 6 t.src true t.time
        [c1, ⟨t.region * 2 ^ 15 + t.sq * 2 ^ 12 + t.swarm.getD 0, f / 2 ^ 18, f⟩, ⟨0, g / 2 ^ 18, g⟩]
  | none =>
    let f := s.free.toNat
    s.drawn.unitGroup n 6 (96 + n) false s.now [c1, ⟨n * 2 ^ 15 + f / 2 ^ 36 % 8 * 2 ^ 12, f / 2 ^ 18 % 2 ^ 18, f⟩, ⟨0, 0, 0⟩]

/-- A new segment begins in the PRE phase. -/
def State.newSegment (s : State) (n seg : Nat) : State :=
  let s := ((s.setFld (regPage n) REG.CAP_STATUS_SEGMENT seg).setFld (regPage n) REG.CAP_STATUS_WRAPPED 0).setPhase n 1
  s.setCap n { s.cap n with count := 0, memory := [], trig := none, lossAt := none, began := s.time.tclk }

/-- A group of the capture writer's queue that is a gap record, or a time extension. -/
def Batch.isGap (b : Batch) : Bool := b.recs.any fun r => r.w0.toNat / 2 ^ 14 == 3 || r.w0.toNat / 2 ^ 14 == 0xf
def Batch.isExt (b : Batch) : Bool := b.recs.all fun r => r.w0.toNat / 2 ^ 14 == 1

/-- The gap records of a queue, each with the time extension before it. -/
def gapBatches : List Batch → List Batch
  | [] => []
  | b :: r => if b.isGap || (b.isExt && (r.head?.any (·.isGap))) then b :: gapBatches r else gapBatches r

/-- The capture becomes DONE (R232): the writer stops writing, and stamps that wait lie beyond the capture's end; with END_RUN the run is to
end. -/
def State.capDone (s : State) (n : Nat) (natural : Bool) : State :=
  let s := (s.setPhase n 3).capEvent n REG.CAP_EVENTS_CAPTURE_END
  let s := (s.setWriter n { s.writer n with queue := gapBatches (s.writer n).queue }).showLevels n
  let s := s.setCap n { s.cap n with stopEnd := false }
  if natural && s.bit (regPage n) REG.CAP_CTRL_END_RUN && s.run.endRun.isNone then { s with run := { s.run with endRun := some (n, s.capSeg n) } } else s

/-- The current segment of region `n` ends (R231, R232, R235); SEGS_DONE counts the mark where the record writer takes it (Table 7-17). -/
def State.segEnd (s : State) (n cause : Nat) : State :=
  let written := s.markFits n
  let s := s.segMark n cause
  let s := (if written then s.addSat (regPage n) REG.SEGS_DONE 1 else s).capEvent n REG.CAP_EVENTS_SEG_DONE
  let s := if cause = 0 then s.setCap n { s.cap n with natural := some (s.time.tclk, s.capSeg n) } else s
  if s.capSeg n + 1 < s.segments n then s.newSegment n (s.capSeg n + 1)
  else if s.capMode n = 3 ∧ s.bit (regPage n) REG.CAP_CTRL_WRAP then s.newSegment n 0
  else s.capDone n (cause != 2)

/-- The TCLK cycle that holds a time. -/
def State.cycleOf (s : State) (t : DTime) : Int := s.time.tclk + (dt t s.now) / 1024

/-- Post-trigger records written, once the first one is. -/
def CapTrig.posted (t : CapTrig) (count : Nat) : Option Nat := t.first.map fun f => count - f

/-- The segment has its Q post-trigger records (R231). -/
def Cap.full (c : Cap) : Bool :=
  match c.trig with
  | some t => (t.posted c.count).any fun n => decide (t.post ≤ n)
  | none => false

/-- A segment takes one record, with its arrival cycle, or a pad; the memory spans the last 4,096 TCLK cycles (R229, R230, R304). -/
def State.segPush (s : State) (n : Nat) (arrival : Option Nat) : State :=
  let c := s.cap n
  let r := s.segLen n
  let memory := match arrival with
    | some m =>
      let kept := c.memory.filter fun p => decide (s.time.tclk < p.1 + 4096)
      if kept.any fun p => p.1 == m then kept else (m, c.count) :: kept
    | none => c.memory
  let trig := c.trig.map fun t =>
    if t.first.isNone ∧ arrival.any fun m => decide (t.cycle ≤ m) then { t with first := some c.count } else t
  let s := s.setCap n { c with memory, trig, count := c.count + 1 }
  if r < c.count + 1 then s.setFld (regPage n) REG.CAP_STATUS_WRAPPED 1 else s

/-- A trigger is offered to the capture writer of region `n` (R230, R231): the answer tells whether it was accepted, and whether late, its cycle being
older than the memory. It belongs to the segment that is current after the ends of its decision cycle; one that began later refuses it. -/
def State.offerTrigger (s : State) (n : Nat) (o : Offer) : Option Bool × State :=
  let c := s.cap n
  let refuse := s.addSat (regPage n) REG.TRIG_IGNORED 1
  if !s.capturing n || !s.segMode n || s.capPhase n = 3 then (none, if s.segMode n then refuse else s)
  else if c.stopped && decide (c.stopAt ≤ o.cycle) then (none, s)
  else if s.capPhase n != 1 || decide (o.cycle < c.began) || decide (min c.count (s.segLen n) < s.fld (regPage n) REG.CAP_PRE_VALUE) then (none, refuse)
  else
    let cyc := (s.cycleOf o.time).toNat
    -- the first record whose arrival cycle is at or after the trigger's
    let after := (c.memory.filter fun p => decide (cyc ≤ p.1 ∧ s.time.tclk < p.1 + 4096)).getLast?
    let late := decide (cyc + 4096 ≤ s.time.tclk)
    let first := after.map (·.2)
    let q := s.fld (regPage n) REG.CAP_POST_VALUE
    let lapped := decide (q ≤ c.count - first.getD c.count)
    let s := s.setCap n { c with trig := some ⟨o.time, cyc, o.src, o.region, o.sq, o.swarm, late, lapped, if lapped then some (first.getD c.count) else first, q⟩ }
    let s := s.setPhase n 2
    let s := if late then s.capEvent n REG.CAP_EVENTS_LATE else s
    (some late, if lapped then s.segEnd n 0 else s)

/-- A decision on a line bound JUMP takes effect at the end of its TCLK cycle (R233). -/
def State.jump (s : State) (n : Nat) : State :=
  if !s.capturing n || s.capMode n ≠ 3 || (s.cap n).stopped then s else s.setCap n { s.cap n with jumpDue := true }

/-- The end of a TCLK cycle in which a jump of region `n` was decided: the natural end of a segment in that cycle absorbs it (R233). -/
def State.jumpEnd (s : State) (n : Nat) : State :=
  let c := s.cap n
  if !c.jumpDue then s
  else
    let s := s.setCap n { c with jumpDue := false }
    match c.natural.filter fun p => p.1 == s.time.tclk with
    | some p =>
      ((s.addSat (regPage n) REG.JUMPS_ABSORBED 1).capEvent n REG.CAP_EVENTS_JUMP_ABSORBED).entry .capture .internal (regPage n + 0x25c) .done
        (n + p.2 * 2 ^ 3 + 2 ^ 11)
    | none => if s.capPhase n = 3 || c.stopped then s else s.segEnd n 1

/-! Admission of capture records (R228, R268, R269) -/

/-- Entries of the input buffer that gap records take, and those that stamps take, each with the time extensions before them (R269; DEDUCED,
assumption 81). -/
def gapRecs (w : Writer) : Nat := ((gapBatches w.queue).map fun b => b.recs.length).foldl (· + ·) 0
def stampRecs (w : Writer) : Nat := w.held - gapRecs w

/-- Follows the time for which the input buffer has held 256 records or fewer (R269). -/
def State.noteLow (s : State) (n : Nat) : State :=
  let c := s.cap n
  if (s.writer n).held ≤ 256 then (if c.low.isNone then s.setCap n { c with low := some s.time.tclk } else s) else s.setCap n { c with low := none }

/-- Channel `i` of region `n` is demoted (R269). -/
def State.demote (s : State) (n i : Nat) : State :=
  let s := s.setFld (regPage n) ⟨0x134, i, 1⟩ 1
  (s.lose n 1 0 (12 * n + i) 0).post (regPage n) REG.st_DEMOTE

/-- Channels of region `n` still captured, and those demoted. -/
def State.captured (s : State) (n : Nat) (demoted : Bool) : List Nat :=
  (List.range 12).filter fun i => bitOf (s.fld (regPage n) REG.CAP_SEL_CH) i && bitOf (s.fld (regPage n) REG.DEMOTED_CH) i == demoted

/-- Rank of a channel: priority first, a higher number counting as lower (R269). -/
def State.rank (s : State) (n i : Nat) : Nat := getBits (s.rd (regPage n + 0x108)) (2 * i) 2 * 16 + (15 - i)

/-- The member of a list with the least or the greatest rank. -/
def pickRank (f : Nat → Nat) (least : Bool) : List Nat → Option Nat
  | [] => none
  | a :: r =>
    match pickRank f least r with
    | none => some a
    | some b => if (if least then f a < f b else f b < f a) then some a else some b

/-- The lowest-priority channel still captured is demoted while the buffer holds more than 768 records (R269). -/
def State.demoteLowest (s : State) (n : Nat) : State :=
  if s.capturing n && decide (768 < (s.writer n).held) && (s.cap n).demotedAt != some s.time.tclk then
    match pickRank (s.rank n) true (s.captured n false) with
    | some i => (s.setCap n { s.cap n with demotedAt := some s.time.tclk }).demote n i
    | none => s
  else s

/-- A demoted channel's interval ends with its loss record. -/
def State.endDemotion (s : State) (n i : Nat) (byStop : Bool) : State :=
  (s.setFld (regPage n) ⟨0x134, i, 1⟩ 0).closeLosses n byStop fun l => l.cause == 1 && l.src == 12 * n + i

/-- The highest-priority demoted channel is restored after a window of 64 FCLK cycles at 256 records or fewer (R269). -/
def State.restore (s : State) (n : Nat) : State :=
  match (s.cap n).low with
  | some t =>
    if s.capturing n && decide (t + 128 ≤ s.time.tclk) then
      match pickRank (s.rank n) false ((List.range 12).filter fun i => bitOf (s.fld (regPage n) REG.DEMOTED_CH) i) with
      | some i => ((s.setCap n { s.cap n with low := some s.time.tclk }).endDemotion n i false).post (regPage n) REG.st_RESTORE
      | none => s
    else s
  | none => s

/-- The pool emitted this group's record in the present ACLK cycle, 16 cycles after its arrival cycle. -/
def State.freshBatch (s : State) (b : Batch) : Bool := decide (s.time.tclk ≤ b.arrival + 16 + s.power.heart % 4)

/-- Hands a group to the capture writer. -/
def State.enqueueCap (s : State) (n arrival : Nat) (g : List (List Rec)) : State := ((s.pushWriter n arrival g).showLevels n).noteLow n

/-- A stamp of channel `k`, which arrived in cycle `m`, is offered to its capture writer (R228, R269). -/
def State.captureStamp (s : State) (k m : Nat) (t : DTime) (rising : Bool) : State :=
  let n := chRegion k
  let i := k % 12
  if !s.capturing n || s.capMode n == 0 || (s.cap n).stopped || s.capPhase n == 3 || !bitOf (s.fld (regPage n) REG.CAP_SEL_CH) i then s
  else if bitOf (s.fld (regPage n) REG.DEMOTED_CH) i then s.lose n 1 0 k 1
  else if s.isFrozen (regPage n) 8 then s.lose n 4 0 (96 + n) 1
  else if 960 < stampRecs (s.writer n) + s.extNeed (streamCap n) k t + 1 then (s.demote n i).lose n 1 0 k 1
  else
    match s.formGroup (streamCap n) 2 k rising t [] with
    | (g, s) => s.enqueueCap n m g

/-- A gap marker of channel `k` becomes a gap record (R110, R113, R268). After DONE it is admitted as in MODE OFF, but the writer has stopped writing
(R232; DEDUCED, assumption 81). -/
def State.captureGap (s : State) (k m cause count span : Nat) (start : DTime) (split coarse : Bool) : State :=
  let n := chRegion k
  let s := s.gapCounted k count
  if !s.capturing n then s
  else if s.isFrozen (regPage n) 8 then s.lose n 4 1 (96 + n) 2
  else if s.fld (regPage n) REG.CAP_RING_COUNT = 0 ∨ 64 < gapRecs (s.writer n) + s.extNeed (streamCap n) k start + 2 ∨ (s.segMode n ∧ (s.cap n).stopped) then
    s.lose n 2 1 (96 + n) 2
  else
    match s.takeSeq (streamCap n) k start with
    | (pre, q, s) =>
      s.enqueueCap n m [pre, [headRec 3 k split q start,
        ⟨w0 0xf k coarse q, BitVec.ofNat 18 (cause * 2 ^ 14 + count / 2 ^ 18 % 2 ^ 14), wordAt count 0, BitVec.ofNat 18 span⟩]]

/-- Gap records that the writer, DONE, can no longer place are lost: it has stopped writing, and its ring holds the segments (R232, R272). -/
def State.dropDone (s : State) (n : Nat) : State :=
  let w := s.writer n
  if s.segMode n && s.capPhase n == 3 && !w.queue.isEmpty then
    (((w.queue.flatMap (·.recs)).foldl (fun s _ => s.lose n 2 1 (96 + n) 1) s).setWriter n { w with queue := [], inGroup := false }).showLevels n
  else s

/-! Lines (R267) -/

/-- The next record of a queue for a line with `left` records left in the stripe group: the record with its arrival cycle, none for a pad where
the next group does not fit; the queue after; whether a group is partly written. -/
def nextRec (left : Nat) (q : List Batch) (inGroup : Bool) : Option (Rec × Option Nat × List Batch × Bool) :=
  match q with
  | [] => none
  | b :: r =>
    if !inGroup && decide (left < b.recs.length) then some (Rec.pad, none, b :: r, false)
    else
      match b.recs with
      | [] => some (Rec.pad, none, r, false)
      | [x] => some (x, some b.arrival, r, false)
      | x :: y => some (x, some b.arrival, ⟨b.arrival, y⟩ :: r, true)

/-- Loses the records of a line under VIOLATION, one loss for each kind; the interval is the access (R253, Table 8-10). -/
def State.lineLost (s : State) (n src : Nat) : List Rec → State
  | [] => s.closeLosses n false fun l => l.cause == 6 && l.src == src
  | r :: l =>
    if r = Rec.pad then s.lineLost n src l
    else
      let ty := r.w0.toNat / 2 ^ 14
      let kind := if ty = 0xf ∧ src < 104 then 1 else lossKind ty
      ((s.lose n 6 kind src 1).lineLost n src l)

/-- One record of a line leaves the queue of writer `i`; in a segment it takes its index, and the segment ends after its last group. -/
def State.takeRec (s : State) (i left : Nat) : Option Rec × State :=
  let w := s.writer i
  match nextRec left w.queue w.inGroup with
  | none => (none, s)
  | some (r, a, q, g) =>
    let s := (s.setWriter i { w with queue := q, inGroup := g }).showLevels (i % 8)
    (some r, if i < 8 ∧ s.segMode i then s.segPush i a else s)

/-- In a segment the capture has its last record, and no group is partly written. -/
def State.segOver (s : State) (i : Nat) : Bool := decide (i < 8) && s.segMode i && s.capPhase i == 2 && (s.cap i).full && !(s.writer i).inGroup

/-- STOP ends the segment once the records before it are written (R234). -/
def State.stopSegment (s : State) (n : Nat) : State :=
  if (s.cap n).stopEnd && (s.writer n).queue.isEmpty then (s.setCap n { s.cap n with stopEnd := false }).segEnd n 2 else s

/-- In a segment, a record that the pool emitted in the present ACLK cycle is not written before its end: a STOP of the cycle leaves it out (R234). -/
def State.heldFresh (s : State) (i : Nat) : Bool :=
  decide (i < 8) && s.segMode i && (s.writer i).queue.head?.any fun b => s.freshBatch b

/-- The lines of a bank that a writer works on, shown in BANK.WPTR. -/
def State.setWptr (s : State) (b line : Nat) : State := s.setFld (bankPage b) BANK.WPTR_LINE line

/-- A writer whose input is not empty may write: it has a ring, it is not frozen, and it has entered its stripe group or fills segments. -/
def State.canWrite (s : State) (i : Nat) : Bool :=
  let n := i % 8
  !s.isFrozen (regPage n) (if i < 8 then 8 else 9) && (s.ring i).2.1 != 0
    && (if i < 8 ∧ s.segMode n then s.capPhase n != 3 else (s.writer i).entered)

/-- Writes one line of writer `i`; `padOk` tells that a lone record may be completed with a pad (R267). -/
def State.writeOne (s : State) (i : Nat) (padOk : Bool) : State :=
  let n := i % 8
  let w := s.writer i
  let src := if i < 8 then 96 + n else 104 + n
  let seg := i < 8 ∧ s.segMode n
  if !s.canWrite i || w.queue.isEmpty || s.heldFresh i then s
  else
    let gm := s.nextLine i
    let bl := s.place i gm.1 gm.2
    let left := 2 * (groupLines (s.ring i).2.2 - gm.2)
    if s.gate bl.1 (if i < 8 then 1 else 2) 0 = .waits then s
    else
      match s.takeRec i left with
      | (none, _) => s
      | (some r0, t) =>
        let close := t.segOver i
        match (if close then (some Rec.pad, t) else
            match (if t.heldFresh i then (none, t) else t.takeRec i (left - 1)) with
            | (some r, u) => (some r, u)
            | (none, u) => if padOk then (some Rec.pad, if seg then u.segPush n none else u) else (none, u)) with
        | (none, _) => s
        | (some r1, t) =>
          let t := t.setWriter i { t.writer i with since := t.time.tclk }
          let t := if s.gate bl.1 (if i < 8 then 1 else 2) 0 = .violation then
              ((t.violate bl.1 (if i < 8 then 1 else 2) 0 true bl.2).lineLost n src [r0, r1])
            else
              let t := ((t.writeLine bl.1 bl.2 r0 r1).ringFullEnds n src).setWptr bl.1 ((bl.2 + 1) % 16384)
              if seg then t
              else
                let t := t.setWriter i { t.writer i with line := w.line + 1 }
                if w.line + 1 = groupLines (s.ring i).2.2 then t.setWriter i { t.writer i with entered := false } else t
          let t := if t.segOver i then t.segEnd n 0 else t
          if i < 8 then (t.stopSegment n).noteLow n else t

/-- A writer that holds a single record pads its line 32 FCLK cycles after it came, or when the run reaches STOPPED (R267). -/
def State.padTimeout (s : State) (i : Nat) : State :=
  let w := s.writer i
  if w.held = 1 ∧ (w.since + 64 ≤ s.time.tclk ∨ ¬ s.executes (i % 8)) then s.writeOne i true else s

/-- Shows whether writer `i` is stalled (R268). -/
def State.showStall (s : State) (i : Nat) (b : Bool) : State :=
  s.setBit (regPage (i % 8)) (if i < 8 then REG.live_CAP_STALLED else REG.live_REC_STALLED) b

/-- Writer `i` tries to enter its next stripe group (R268). -/
def State.enterGroup (s : State) (i : Nat) : State :=
  let n := i % 8
  let w := s.writer i
  if (s.ring i).2.1 = 0 ∨ w.entered ∨ s.isFrozen (regPage n) (if i < 8 then 8 else 9) ∨ (i < 8 ∧ s.segMode n) then s
  else
    let g := s.nextGroup i
    let banks := s.groupBanks i g
    if banks.all fun b => s.ownerNow b == (if i < 8 then 1 else 2) && !s.draining b then
      let s := if w.fills = 0 then s else s.forEach (s.groupBanks i w.group) fun b s => s.setFld (bankPage b) BANK.live_WRITER_IN 0
      let s := s.setWriter i { w with line := 0, group := g, entered := true, fills := w.fills + 1 }
      let s := s.forEach banks fun b s =>
        ((s.setWptr b 0).setFld (bankPage b) BANK.WPTR_FILL_NO (w.fills + 1)).setFld (bankPage b) BANK.live_WRITER_IN 1
      (s.showStall i false).post (regPage n) REG.st_RING_ADVANCE
    else s.showStall i true

/-! Run control of the writers (R234, R268, R269) -/

/-- The run of region `n` has ended: intervals still open are closed by it, and a frozen writer counts what it cannot write (R272, R434). -/
def State.closeRun (s : State) (n : Nat) : State := s.closeLosses n true fun _ => true

/-- Records that writer `i` holds and will not write are lost under `cause`, each of its kind (R26, R272, R434). -/
def State.loseQueue (s : State) (i cause : Nat) : State :=
  let n := i % 8
  let src := if i < 8 then 96 + n else 104 + n
  let recs := (s.writer i).queue.flatMap (·.recs)
  ((recs.foldl (fun s r =>
    let ty := r.w0.toNat / 2 ^ 14
    s.lose n cause (if ty = 0xf ∧ i < 8 then 1 else lossKind ty) src 1) s).setWriter i
    { s.writer i with queue := [], inGroup := false }).showLevels n

/-- ARM: writer `i` begins afresh (R268). What it could not place in the run before is lost as with no free ring bank (R26; DEDUCED,
assumption 81). -/
def State.freshWriter (s : State) (i : Nat) : State :=
  let s := if (s.writer i).queue.isEmpty then s else s.loseQueue i 2
  let w := s.writer i
  let s := s.forEach (s.groupBanks i w.group) fun b s => if w.fills ≠ 0 then s.setFld (bankPage b) BANK.live_WRITER_IN 0 else s
  (s.setWriter i { Writer.empty with frozenAt := w.frozenAt }).showStall i false

/-- ARM: both writers of region `n` begin afresh, and every counter of its streams is 0 (R244, R268). -/
def State.armWriters (s : State) (n : Nat) : State :=
  let s := (((s.flushOpen n).freshWriter n).freshWriter (8 + n)).closeRun n
  let s := { s with streams := s.streams.keep fun i => decide (i / 128 ≠ streamCap n ∧ i / 128 ≠ streamRec n) }
  let s := { s with openGroups := s.openGroups.keep fun g => decide (g / 8 ≠ n) }
  (((s.setCap n Cap.init).wr (regPage n + 0x134) 0).wr (regPage n + 0x250) 0).showLevels n

/-- START: the capture of region `n` begins with segment 0 in the PRE phase, and its counters are cleared (R239, R276). -/
def State.startCapture (s : State) (n : Nat) : State :=
  let p := regPage n
  let s := (((((s.wr (p + 0x224) 0).wr (p + 0x228) 0).wr (p + 0x22c) 0).wr (p + 0x254) 0).wr (p + 0x258) 0).wr (p + 0x13c) 0
  let s := ((s.wr (p + 0x140) 0).wr (p + 0x144) 0).wr (p + 0x250) 0
  (s.setCap n { Cap.init with stopped := false, low := some s.time.tclk }).newSegment n 0

/-- Every channel still demoted at STOP or ABORT gets its loss record (R269). -/
def State.endDemotions (s : State) (n : Nat) : State :=
  s.forEach ((List.range 12).filter fun i => bitOf (s.fld (regPage n) REG.DEMOTED_CH) i) fun i s => s.endDemotion n i true

/-- What the pool emitted in the ACLK cycle of the STOP is not written: stamps fall away, and so, where the segment ends, do gap records, which are
lost (R234, R272). -/
def State.dropFresh (s : State) (n : Nat) : State :=
  let q := (s.writer n).queue
  let new := q.filter s.freshBatch
  let s := (s.setWriter n { s.writer n with queue := q.filter (fun b => !s.freshBatch b) ++ (if s.segMode n then [] else gapBatches new) }).showLevels n
  if s.segMode n then (new.filter (·.isGap)).foldl (fun s _ => s.lose n 2 1 (96 + n) 2) s else s

/-- STOP (R234). -/
def State.stopCapture (s : State) (n : Nat) : State :=
  if (s.cap n).stopped then s
  else
    let s := (s.dropFresh n).endDemotions n
    let ends := s.segMode n && s.capPhase n != 3
    (s.setCap n { s.cap n with stopped := true, stopEnd := ends, stopAt := s.time.tclk }).stopSegment n

/-- ABORT: records that have not reached a bank are discarded and counted (R43, R234). -/
def State.abortWriters (s : State) (n : Nat) : State :=
  let count := (s.writer n).held + s.putHeld n
  let s := s.endDemotions n
  let s := s.setCap n { s.cap n with stopped := true, stopEnd := false, stopAt := s.time.tclk }
  let drop := fun (i : Nat) (s : State) => s.setWriter i { s.writer i with queue := [], inGroup := false }
  let s := drop n s |> drop (8 + n)
  let s := { s with openGroups := s.openGroups.keep fun g => decide (g / 8 ≠ n) }
  let s := s.setPair (regPage n) REG.LOST_LO (s.pair (regPage n) REG.LOST_LO + count)
  ((s.setLosses n (addLoss 5 3 (104 + n) count s.now (s.lossesOf n))).closeLosses n true fun _ => true).showLevels n

end Sys2Proof.Machine
end

