-- ==== Sys2Proof/Machine/Trigger.lean ====
section
/-! DEFINITION. PUT, XIN and EVT; the trigger unit; the emission of a pool's entries to their four consumers (R104,
R110, R177, R182, R183, R208 to R220, R254). -/
namespace Sys2Proof.Machine
open Sys2Proof

/-! The trigger unit (R208, R212, R213) -/

/-- The enabled sequencer of region `n` whose home cell is local cell `c`. -/
def State.homeOf (s : State) (n c : Nat) : Option Nat :=
  (List.range 8).find? fun q =>
    let v := s.rd (regPage n + 0x200 + 4 * q)
    getBits v 0 1 == 1 && getBits v 1 7 == c

/-- The step values that are visible now (R224). -/
def State.stepView (s : State) : StepView := s.esl.view

/-- The latch that a cause kind names, none when it is empty (Table 7-4). -/
def State.causeLatch (s : State) (n kind arg src : Nat) : Option DTime :=
  match kind with
  | 1 => latched (s.qual src).shown.latch arg
  | 2 => s.stepView.boundary
  | 3 => latched (s.winShow n).hitT arg
  | 4 => (s.winShow n).trigT
  | 5 => latched (s.winShow n).swarmT arg
  | _ => none

/-- The put names a cause that the unit discards (R212). So does one with W0[6] = 1 and cause kind 0x0: EXPLICIT is for W0[6] = 0 (Table 7-4), and the
rule's list does not name the case (DESIGN CHOICE, assumption 88). -/
def badCause (n kind arg src : Nat) : Bool :=
  decide (7 ≤ kind) || kind == 0
    || (kind == 1 && (decide (9 < arg) || decide (96 ≤ src) || chRegion src != n))
    || ((kind == 2 || kind == 4 || kind == 6) && arg != 0) || (kind == 3 && decide (3 < arg))

/-- The latest time with the carried bits [53:0] that does not lie after `d`, none where no such time exists (R213). -/
def fullTime (low : Nat) (d : DTime) : Option DTime :=
  let t := d.toNat / 2 ^ 54 * 2 ^ 54 + low % 2 ^ 54
  if t ≤ d.toNat then some (BitVec.ofNat 64 t) else if 2 ^ 54 ≤ t then some (BitVec.ofNat 64 (t - 2 ^ 54)) else none

/-- A put of type 0x5 by cell `c` with SEQ `sq` (R177, R212, R213). -/
def State.triggerPut (s : State) (c sq : Nat) (r : Rec) : State :=
  let n := cellRegion c
  let a := r.w0.toNat
  let src := bitsOf a 7 7
  let kind := if bitOf a 6 then bitsOf r.w1.toNat 14 4 else 0
  let arg := bitsOf r.w1.toNat 0 5
  let bad := (s.addSat (regPage n) REG.TRIG_BAD 1).capEvent n REG.CAP_EVENTS_TRIG_BAD
  match s.homeOf n (c % 128) with
  | none => bad
  | some q =>
    if bitOf a 6 && badCause n kind arg src then bad
    else
      let mode := 4 * b2n s.coarse + 8 * b2n s.holdover
      let low := r.w1.toNat * 2 ^ 36 + r.w2.toNat * 2 ^ 18 + r.w3.toNat
      let tf : DTime × Nat :=
        if bitOf a 6 then
          if kind = 6 then (s.now, 0)
          else match s.causeLatch n kind arg src with
            | some t => (t, 0)
            | none => (s.now, 1)
        else match fullTime low s.now with
          | some t => (t, 0)
          | none => (s.now, 2)
      { s with trigs := s.trigs ++ [⟨s.time.tclk, n, q, src, kind, tf.2 + mode, tf.1, s.now, c, sq, bitsOf a 0 6⟩] }

/-! PUT (R177, R254, R271) -/

/-- A put that the put queue refuses whole (R271). -/
def State.putRefused (s : State) (n count : Nat) : State := s.lose n 3 2 (104 + n) count

/-- Groups a put queues, one after the other, unless the writer is frozen, has no ring or has no room. -/
def State.queuePut (s : State) (n : Nat) (g : List (List Rec)) : State :=
  (s.enqueueRec n g).closeLosses n false fun l => l.cause == 3

/-- Does the head open a group that continuations follow (Table 8-1)? -/
def opensGroup (r : Rec) : Bool :=
  let ty := r.w0.toNat / 2 ^ 14
  (ty == 0xd || ty == 0xe) && bitOf r.w0.toNat 6 || ty == 3 || ty == 4 || (decide (6 ≤ ty) && decide (ty ≤ 0xc))

/-- A continuation ends its group: its W0[6] is 1; a gap has one (R243). -/
def closesGroup (open_ : List Rec) (r : Rec) : Bool :=
  bitOf r.w0.toNat 6 || open_.any fun h => h.w0.toNat / 2 ^ 14 == 3

/-- A record of block `g` reaches the record writer, which holds the block's open group until it is complete (R254). -/
def State.putRecord (s : State) (g : Nat) (pre : List Rec) (r : Rec) : State :=
  let n := g / 8
  let o := s.openGroup g
  if r.w0.toNat / 2 ^ 14 = 0xf ∧ o ≠ [] then
    if closesGroup o r then (s.setOpen g []).queuePut n [o ++ [r]]
    else ((s.setOpen g (o ++ [r])).closeLosses n false fun l => l.cause == 3).showLevels n
  else
    let s := if o = [] then s else (s.setOpen g []).queuePut n [o]
    if opensGroup r then
      let s := if pre.isEmpty then s else s.queuePut n [pre]
      ((s.setOpen g [r]).closeLosses n false fun l => l.cause == 3).showLevels n
    else s.queuePut n [pre, [r]]

/-- Records put in the slot in which the region halts, after it stopped recording: what ABORT discards counts under ABORT, the rest as a refused put
(R43, R271; DEDUCED, assumption 81). -/
def State.putLate (s : State) (n count : Nat) : State :=
  let s := if (s.lossesOf n).any (fun l => l.cause == 5) then s.lose n 5 3 (104 + n) count else s.lose n 3 2 (104 + n) count
  s.closeLosses n true fun _ => true

/-- The time extension that goes before a record put for source `src`: with STAMP 1 as R54 requires, else only where the flags changed (R177,
R247). -/
def State.putExt (s : State) (st src : Nat) (stamp : Bool) : List Rec × State :=
  let x := s.src st src
  let cause := if stamp then s.extCause x.ext s.now
    else x.ext.bind fun e => if s.flagsMoved e then some 2 else none
  match cause with
  | some k => ([extRec src x.seq.toNat (s.epochOf s.now) s.now k s.coarse s.holdover],
      s.setSrc st src ⟨x.seq + 1, some (s.extNow s.now)⟩)
  | none => ([], if x.ext.isNone then s.setSrc st src ⟨x.seq, some { s.extNow s.now with bit54 := none }⟩ else s)

/-- The sequence of a record put by cell `c` under SEQ: the source's next one, that of the cell's most recent ASSIGN, or the one it brings
(R177). -/
def State.putSeq (s : State) (c src sq keep : Nat) : Nat × State :=
  let st := streamRec (cellRegion c)
  let x := s.src st src
  match sq with
  | 0 => (x.seq.toNat, (s.setSrc st src ⟨x.seq + 1, x.ext⟩).setCell c { s.cell c with lastSeq := x.seq })
  | 1 => ((s.cell c).lastSeq.toNat, s)
  | _ => (keep, s)

/-- The words of a record put: with STAMP 1 the slot's DTIME stands in W1 to W3 (R177). -/
def State.putWords (s : State) (stamp : Bool) (r : Rec) : Rec :=
  let t := s.now.toNat
  if stamp then ⟨r.w0, wordAt t 36, wordAt t 18, wordAt t 0⟩ else r

/-- A record put by cell `c` (R177, R212, R254, R271). Four zero words as they stand are a pad, which carries no source and no sequence (R248). -/
def State.put (s : State) (c sq : Nat) (stamp poisoned : Bool) (r : Rec) : State :=
  let g := cellBlock c
  let n := cellRegion c
  let st := streamRec n
  let ty := r.w0.toNat / 2 ^ 14
  let src := bitsOf r.w0.toNat 7 7
  let pad := poisoned || (r == Rec.pad && !stamp)
  -- a continuation has no time extension before it, and a program's own time extension none for the flags
  let alone := pad || ty == 0xf || (ty == 1 && !stamp)
  if ty = 5 ∧ !poisoned then s.triggerPut c sq r
  else if !s.recording n then s.putLate n 1
  else if s.recFrozen n then s.lose n 4 2 (104 + n) 1
  else if !s.hasRing n then s.lose n 2 2 (104 + n) 1
  else if 256 < s.putHeld n + (if alone then 0 else (s.putExt st src stamp).1.length) + 1 then s.putRefused n 1
  else if pad then s.putRecord g [] Rec.pad
  else
    match (if alone then ([], s) else s.putExt st src stamp) with
    | (pre, s) =>
      match s.putSeq c src sq (bitsOf r.w0.toNat 0 6) with
      | (q, s) =>
        let w := s.putWords stamp r
        let s := if ty = 1 then s.setSrc st src ⟨(s.src st src).seq, some ⟨some (bitOf w.w1.toNat 0), bitOf w.w2.toNat 2, bitOf w.w2.toNat 3, s.flagChanges⟩⟩ else s
        s.putRecord g pre ⟨w0 ty src (bitOf r.w0.toNat 6) q, w.w1, w.w2, w.w3⟩

/-- PUT; a poisoned word is written as 0, and a poisoned W0 makes a pad (R177). -/
def State.cellPut (s : State) (c : Nat) : State :=
  s.cellRun c (fun o => match o with
    | .put .. => true
    | _ => false) fun o gp s =>
    match o with
    | .put sq stamp a =>
      let u := s.use
      let g := cellBlock c
      if u.puts.contains g then s.scheduleError c 6
      else
        let s := s.setUse { u with puts := g :: u.puts }
        let x := s.cell c
        let word := fun (i : Nat) => let v := x.reg (a + i); if gp || v.poison then (0 : Word) else v.val
        let bad := fun (i : Nat) => gp || (x.reg (a + i)).poison
        let s := if bad 0 || bad 1 || bad 2 || bad 3 then s.addSat (regPage (cellRegion c)) REG.POISON_PUTS 1 else s
        s.put c sq stamp (bad 0) (if bad 0 then Rec.pad else ⟨word 0, word 1, word 2, word 3⟩)
    | _ => s

/-! XIN (R182, Table 6-8) -/

/-- The word that XIN reads in region `n`. -/
def State.xinWord (s : State) (n sel : Nat) : Nat :=
  let t := s.now.toNat
  let v := s.stepView
  let w := s.winShow n
  match sel with
  | 0x00 => bitsOf t 36 18
  | 0x01 => bitsOf t 18 18
  | 0x02 => bitsOf t 0 18
  | 0x03 => bitsOf t 54 10 + 2 ^ 10 * s.fld tbPage TB.EPOCH_VALUE
  | 0x04 => bitsOf v.num 36 12
  | 0x05 => bitsOf v.num 18 18
  | 0x06 => bitsOf v.num 0 18
  | 0x07 => bitsOf v.probe.toNat 54 10
  | 0x08 => bitsOf v.probe.toNat 36 18
  | 0x09 => bitsOf v.probe.toNat 18 18
  | 0x0a => bitsOf v.probe.toNat 0 18
  | 0x0b => w.stepWord
  | 0x24 => w.trigInWord
  | _ =>
    if 0x20 ≤ sel then bitsOf w.swarm (8 * (sel - 0x20)) 8
    else if 0x10 ≤ sel then (s.qual (12 * n + (sel - 0x10))).shown.bits
    else 0

def State.cellXin (s : State) (c : Nat) : State :=
  s.cellRun c (fun o => match o with
    | .xin .. => true
    | _ => false) fun o gp s =>
    match o with
    | .xin sel d => s.land c [regItem 1 d (s.xinWord (cellRegion c) sel) gp]
    | _ => s

/-! EVT (R183, R211) -/

/-- A decision on line `l` of region `n` in this slot. -/
def State.decision (s : State) (n l : Nat) : State :=
  let s := s.namedLine n l s.now
  match s.binding n l with
  | (1, a) => if a < 12 then s.gateDecision (12 * n + a) s.now else s
  | (2, a) => s.setWin n { s.winOf n with states := (s.winOf n).states ||| 2 ^ a }
  | (3, _) => s.jump n
  | (4, _) => s.pulse
  | _ => s

def State.cellEvt (s : State) (c : Nat) : State :=
  s.cellRun c (fun o => match o with
    | .evt .. => true
    | _ => false) fun o gp s =>
    match o with
    | .evt l p =>
      let v := (s.cell c).pred p
      let n := cellRegion c
      let u := s.use
      if gp || v.poison || !v.val || u.lines.contains (64 * n + l) then s
      else (s.setUse { u with lines := (64 * n + l) :: u.lines }).decision n l
    | _ => s

/-! Capture triggers that are no puts (R219, R220) -/

/-- A capture trigger is offered to the capture writers of a list of regions: whether each that accepted it placed it late, and the state after. -/
def State.offerAll (s : State) (o : Nat → Offer) : List Nat → List Bool × State
  | [] => ([], s)
  | n :: r =>
    match s.offerTrigger n (o n) with
    | (x, s) =>
      match s.offerAll o r with
      | (l, s) => (x.toList ++ l, s)

/-- A swarm trigger of this code is marked in the windows, with the edge time `t` that it carries (R220). -/
def State.swarmMark (s : State) (code : Nat) (t : DTime) : State :=
  s.modWins fun w => { w with swarm := w.swarm ||| 2 ^ code, swarmT := latchFirst w.swarmT code t }

/-- Regions that take swarm triggers of a code as capture triggers (R220). -/
def State.swarmRegions (s : State) (code : Nat) : List Nat := (List.range 8).filter fun n => bitOf (s.rd (regPage n + 0x248)).toNat code

/-- What a swarm trigger offers region `n`. Its frame names no region and no sequencer: the segment mark carries the capturing region, and
sequencer 0 (DESIGN CHOICE, assumption 88). -/
def swarmTo (code : Nat) (t : DTime) (cycle n : Nat) : Offer := ⟨t, cycle, n, 0, 96 + n, some code⟩

/-- A swarm trigger that this part raised, in TCLK cycle `cycle`, counts here too (R220): which capture writers took it, each with LATE. -/
def State.swarmOffer (s : State) (code : Nat) (t : DTime) (cycle : Nat) : List Bool × State :=
  let s := s.swarmMark code t
  s.offerAll (swarmTo code t cycle) (s.swarmRegions code)

/-- A swarm trigger of code `code` and edge time `t` arrives (R220), which is its decision. -/
def State.swarmArrive (s : State) (code : Nat) (t : DTime) : State :=
  let s := s.swarmMark code t
  { s with offers := s.offers ++ (s.swarmRegions code).map fun n => (n, swarmTo code t s.time.tclk n) }

/-- Capture triggers that were decided in this TCLK cycle come to the capture writers (R231). -/
def State.offersDue (s : State) : State := s.offers.foldl (fun s p => (s.offerTrigger p.1 p.2).2) { s with offers := [] }

/-- The edge of TRIG_IN that arrived 16 cycles ago is emitted: counted, latched, and in this cycle decided as a capture trigger (R218, R219). The
segment mark carries the capturing region as the trigger's (DESIGN CHOICE, assumption 88). -/
def State.trigInEmit (s : State) : State :=
  match s.trigIn.pipe with
  | [] => s
  | (m, t) :: r =>
    if s.time.tclk < m + 16 then s
    else
      let s := { s with trigIn := { s.trigIn with pipe := r } }
      let s := s.modWins fun w => { w with edges := w.edges + 1, missed := w.missed || t.isNone, trigT := w.trigT.orElse fun _ => t }
      match t with
      | none => s
      | some t =>
        let takers := (List.range 8).filter fun n => s.bit (regPage n) REG.CAP_CTRL_TRIGIN
        { s with offers := s.offers ++ takers.map fun n => (n, ⟨t, s.time.tclk, n, 7, 96 + n, none⟩) }

/-! The pool's output (R104, R110) -/

/-- One entry leaves the pool of channel `k` for its four consumers. A boundary edge belongs to the settings it ends, so the qualifier tests it
before the gate's boundary applies new ones (R398). -/
def State.emitEntry (s : State) (k : Nat) (e : Entry) : State :=
  match e with
  | .stamp m tc corr rising =>
    let raw : DTime := tc + BitVec.ofInt 64 corr
    let t := raw + BitVec.ofInt 64 (s.delayAt k m rising)
    let s := s.qualEdge k m rising t
    let s := s.measureStamp k m t tc raw rising
    let s := s.deliver k false fun g s => s.stampEntry g k rising t
    s.captureStamp k m t rising
  | .marker m cause count span start split coarse =>
    let s := s.measureGap k m count start span
    let s := s.qualGap k
    let s := s.deliver k false fun g s => s.offer g (k % 12) count (gapPair k cause count span start split coarse)
    s.captureGap k m cause count span start split coarse

/-- The entries that leave the pool now: those of 16 cycles ago, and any marker that closed late, in edge order. -/
def dueEntries (t : Nat) : List Entry → List Entry × List Entry
  | [] => ([], [])
  | e :: r => if e.cycle + 16 ≤ t then (match dueEntries t r with
      | (a, b) => (e :: a, b)) else ([], e :: r)

/-- The pool of channel `k` emits its entries of this cycle, up to eight (R104). -/
def State.poolEmit (s : State) (k : Nat) : State :=
  let d := dueEntries s.time.tclk (s.chan k).pipe
  let out := d.1.take 8
  let s := s.modChan k fun c => { c with pipe := d.1.drop 8 ++ d.2 }
  out.foldl (fun s e => (s.emitEntry k e).leftPool k) s

end Sys2Proof.Machine
end

