-- ==== Sys2Proof/Machine/Lanes.lean ====
section
/-! DEFINITION. The emulation step lanes: characters, frames and their check, alignment, matchers (R221 to R227, R241). -/
namespace Sys2Proof.Machine
open Sys2Proof

/-! Frames (R222, Table 7-7) -/

/-- Lanes in use (R221). -/
def State.laneCount (s : State) : Nat :=
  match s.fld eslPage ESL.CTRL_WIDTH with
  | 0 => 1
  | 1 => 2
  | _ => 4
def State.laneMask (s : State) : Nat := 2 ^ s.laneCount - 1

/-- The data byte that a character carries. -/
def charByte : StepChar → Option (BitVec 8)
  | .data b => some b
  | _ => none

/-- The `n` data bytes of one lane of a frame: they stand between K27.7 and K29.7; none where a character is broken or misplaced. -/
def laneBytes (n : Nat) : List StepChar → Option (List (BitVec 8))
  | .start :: r => if r.length = n + 1 ∧ r[n]? = some .stop ∧ ((r.take n).all fun c => (charByte c).isSome) then some ((r.take n).filterMap charByte) else none
  | _ => none

/-- Data byte k of a frame: it travels on lane k mod `w`. -/
def destripe (w : Nat) (lanes : List (List (BitVec 8))) : List (BitVec 8) :=
  (List.range 20).map fun k => ((lanes[k % w]?).bind fun l => l[k / w]?).getD 0

/-- The 20 data bytes of a frame received on `w` lanes, unless a character of it is broken or misplaced. -/
def frameBytes (w : Nat) (lanes : List (List StepChar)) : Option (List (BitVec 8)) :=
  let ls := (lanes.take w).map (laneBytes (20 / w))
  if ls.length = w ∧ ls.all (·.isSome) then some (destripe w (ls.filterMap id)) else none

/-- A little-endian number. -/
def leNat (bs : List (BitVec 8)) : Nat := bs.foldr (fun b a => b.toNat + 256 * a) 0

/-- The verdict on a frame's characters (R223), its step number and its probe bits. -/
def frameCheck (w : Nat) (lanes : List (List StepChar)) : FrameCheck × Nat × BitVec 64 :=
  match frameBytes w lanes with
  | none => (.code, 0, 0)
  | some bs =>
    (if leNat (bs.drop 16) = (crc32 (bs.take 16)).toNat then .good else .crc, leNat (bs.take 6), BitVec.ofNat 64 (leNat ((bs.drop 6).take 8)))

/-! Matchers (R227) -/

/-- A matcher register is written: a frame whose start came before keeps the value it held. A frame and its check last less than 1,024 ns. -/
def State.noteMatcher (s : State) (off : Nat) (old : Dword) : State :=
  { s with esl := { s.esl with writes := (s.now, off, old) :: s.esl.writes.filter fun x => decide (dt s.now x.1 < 2 ^ 20) } }

/-- The value that a matcher register held when a frame started. -/
def State.matchReg (s : State) (start : DTime) (off : Nat) : Nat :=
  match (s.esl.writes.filter fun x => x.2.1 == off && decide (dt start x.1 ≤ 0)).getLast? with
  | some x => x.2.2.toNat
  | none => (s.rd (eslPage + off)).toNat

/-- Mask and value of matcher `m` for a frame that started at `start`. -/
def State.matcher (s : State) (start : DTime) (m : Nat) : Nat × Nat :=
  let pair := fun (off : Nat) => s.matchReg start (off + 4) * 2 ^ 32 + s.matchReg start off
  (pair (0x70 + 16 * m), pair (0x78 + 16 * m))

/-- Matchers that probe bits satisfy. -/
def State.hits (s : State) (start : DTime) (p : BitVec 64) : Nat :=
  ((List.range 4).map fun m =>
    if p.toNat &&& (s.matcher start m).1 = (s.matcher start m).2 &&& (s.matcher start m).1 then 2 ^ m else 0).foldl (· + ·) 0

/-! A frame (R223 to R226) -/

/-- Regions whose record writer writes step records. -/
def State.stepRegions (s : State) : List Nat := (List.range 8).filter fun n => bitOf (s.fld eslPage ESL.RECORD_EN_REGIONS) n

/-- The lanes were aligned when a frame started, and when they lost alignment during it, if they did. -/
def State.alignedAt (s : State) (start : DTime) : Bool × Bool :=
  let m := s.esl.aligned
  let lost := m.past.any fun p => decide (dt p.1 start ≤ 0 ∧ dt start p.2 < 0)
  (lost || m.since.any fun t => decide (dt t start ≤ 0), lost)

/-- A frame has been received whole (R223 to R227): `start` is the arrival of its first bit at ESL0, `lanes` the characters of each lane. A frame
that started while alignment was lost gives nothing; one that lost it on its way failed, and counts under CODE_ERRS unless its CRC differs
(DESIGN CHOICE, assumption 82), and the next frame is still the first after the loss. The number that follows none is free. -/
def State.stepFrame (s : State) (start : DTime) (lanes : List (List StepChar)) : State :=
  let a := s.alignedAt start
  if !s.live || s.inCluster || !s.bit eslPage ESL.CTRL_EN || !a.1 then s
  else
    let c := frameCheck s.laneCount lanes
    let check := if a.2 && c.1 == .good then .code else c.1
    let ok := check == .good
    let t := start + BitVec.ofInt 64 (signed 20 (s.fld eslPage ESL.SKEW_VALUE))
    let guess := !ok && s.esl.prev.isNone
    let number : Nat := if ok then c.2.1 else (match s.esl.prev with
      | some p => (p + 1) % 2 ^ 48
      | none => s.free.toNat % 2 ^ 48)
    let s := if guess then s.drawn else s
    let disc := ok && !s.esl.first && s.esl.prev.any fun p => decide ((p + 1) % 2 ^ 48 ≠ number)
    let fast := s.esl.lastStart.any fun l => decide (dt start l < 50 * 1024)
    let hit := if ok then s.hits start c.2.2 else 0
    let pr : Nat := if ok then c.2.2.toNat else 0
    let flags := b2n disc + 2 * b2n (!ok) + 4 * b2n s.coarse + 8 * b2n s.holdover + 16 * b2n fast
    let s := s.setPair eslPage ESL.STEPS_LO (sat 64 (s.pair eslPage ESL.STEPS_LO + 1))
    let s := match check with
      | .good => (s.setFld eslPage ESL.LAST_STEP_LO number).setFld eslPage ESL.LAST_STEP_HI_VALUE_HI (number / 2 ^ 32)
      | .crc => (s.addSat eslPage ESL.CRC_ERRS 1).raise eslPage ESL.err_CRC
      | .code => (s.addSat eslPage ESL.CODE_ERRS 1).raise eslPage ESL.err_CODE
    let s := if disc then (s.addSat eslPage ESL.DISCONTS 1).raise eslPage ESL.err_DISCONT else s
    let shown : StepDue := ⟨if ok then some (number, c.2.2) else none, t, disc, hit⟩
    let s := { s with esl := { s.esl with prev := some number, first := a.2, lastStart := some start, due := s.esl.due ++ [shown] } }
    s.forEach s.stepRegions fun n s =>
      s.unitGroup n 7 120 (!ok) t
        [⟨number / 2 ^ 30, number / 2 ^ 12, number % 2 ^ 12 * 2 ^ 6 + flags⟩, ⟨pr / 2 ^ 46, pr / 2 ^ 28, pr / 2 ^ 10⟩, ⟨pr % 2 ^ 10, hit, 0⟩]

/-- A checked frame becomes visible: the step values, and its marks in the window of this cycle (R224, R226, R227). -/
def State.showStep (s : State) (d : StepDue) : State :=
  let v : StepView := match d.good with
    | some g => ⟨g.1, g.2, some d.boundary⟩
    | none => { s.esl.view with boundary := some d.boundary }
  let s := { s with esl := { s.esl with view := v } }
  s.modWins fun w => { w with
    frames := w.frames + 1, err := w.err || d.good.isNone, discont := w.discont || d.discont, hits := w.hits ||| d.hits,
    hitT := (List.range 4).foldl (fun l m => if bitOf d.hits m then latchFirst l m d.boundary else l) w.hitT }

/-- The frames checked in the TCLK cycle that has ended become visible in the one that begins. -/
def State.showSteps (s : State) : State := s.esl.due.foldl (fun s d => s.showStep d) { s with esl := { s.esl with due := [] } }

/-! Alignment (R222, R223) -/

/-- A loss or return of alignment in the record streams that hold step records (R223). -/
def State.stepError (s : State) (cause : Nat) : State :=
  s.forEach s.stepRegions fun n s => s.unitGroup n 9 120 false s.now [errCont cause 0 0 s.coarse s.holdover]

/-- What the receivers report: lanes with bit and character lock, and whether ESTEP toggles within its limits (Table 7-20). -/
def State.laneStatus (s : State) (locked : Nat) (estep : Bool) : State :=
  (s.setFld eslPage ESL.STATUS_LANE_LOCK (locked &&& s.laneMask)).setBit eslPage ESL.STATUS_ESTEP estep

/-- An alignment character stood on the lanes `on` only, or, with none, has not come for 2 µs (R223). -/
def State.alignBroken (s : State) (on : Option (BitVec 4)) : Bool :=
  match on with
  | some l => (l.toNat &&& s.laneMask) != 0 && (l.toNat &&& s.laneMask) != s.laneMask
  | none => s.esl.charAt.all fun t => decide (2000 * 1024 ≤ dt s.now t)

/-- Alignment is lost (R223). -/
def State.alignLost (s : State) (on : Option (BitVec 4)) (locked : Nat) (estep : Bool) : State :=
  if !s.live || s.asleep || !s.bit eslPage ESL.CTRL_EN then s
  else
    let s := s.laneStatus locked estep
    if !s.bit eslPage ESL.STATUS_ALIGNED || !s.alignBroken on then s
    else
      let s := s.setFld eslPage ESL.STATUS_ALIGNED 0
      let s := (s.addSat eslPage ESL.ALIGN_LOSSES 1).post eslPage ESL.st_ALIGN_LOST
      let s := { s with esl := { s.esl with first := true, lost := true, aligned := s.esl.aligned.note false s.now } }
      -- every loss is in the journal too (R426)
      (s.journalGroup 9 120 false s.now [errCont 0x0d 0 0 s.coarse s.holdover]).stepError 0x0d

/-- An alignment character stands in one character time on every lane in use, which therefore have their locks (R222). -/
def State.alignChar (s : State) (estep : Bool) : State :=
  if !s.live || s.asleep || !s.bit eslPage ESL.CTRL_EN then s
  else
    let s := s.laneStatus s.laneMask estep
    let s := { s with esl := { s.esl with charAt := some s.now } }
    if s.bit eslPage ESL.STATUS_ALIGNED then s
    else
      let back := s.esl.lost
      let s := (s.setFld eslPage ESL.STATUS_ALIGNED 1).post eslPage ESL.st_ALIGN_GAINED
      let s := { s with esl := { s.esl with lost := false, aligned := s.esl.aligned.note true s.now } }
      if back then (s.journalGroup 9 120 false s.now [errCont 0x0e 0 0 s.coarse s.holdover]).stepError 0x0e else s

/-- The step lanes stop receiving, which is no loss of alignment. -/
def State.eslOff (s : State) : State :=
  let s := ((s.setFld eslPage ESL.STATUS_ALIGNED 0).setFld eslPage ESL.STATUS_LANE_LOCK 0).setFld eslPage ESL.STATUS_ESTEP 0
  { s with esl := { s.esl with aligned := Marks.never, charAt := none, lost := false } }

/-- START for the step lanes (R225, R241). -/
def State.startEsl (s : State) : State :=
  let s := { s with esl := { s.esl with first := true } }
  (((((s.setPair eslPage ESL.STEPS_LO 0).setFld eslPage ESL.CRC_ERRS 0).setFld eslPage ESL.CODE_ERRS 0).setFld eslPage ESL.DISCONTS 0).setFld
    eslPage ESL.ALIGN_LOSSES 0)

end Sys2Proof.Machine
end

