-- ==== Sys2Proof/Machine/Link.lean ====
section
/-! DEFINITION. The Ovundan ports as carriers of frames: roles, reliable delivery, the command timer's progress, and swarm events and triggers as
they are sent (R278, R284 to R286, R299, R303, R308). -/
namespace Sys2Proof.Machine
open Sys2Proof

def State.link (s : State) (p : Nat) : LinkSt := Tab.get (fun _ => LinkSt.init) s.links p
def State.setLink (s : State) (p : Nat) (l : LinkSt) : State := { s with links := Tab.set (fun _ => LinkSt.init) s.links p l }
def State.rem (s : State) (n : Nat) : Remote := Tab.get (fun _ => Remote.init) s.remotes n
def State.setRem (s : State) (n : Nat) (x : Remote) : State := { s with remotes := Tab.set (fun _ => Remote.init) s.remotes n x }
def State.modLink (s : State) (p : Nat) (f : LinkSt → LinkSt) : State := s.setLink p (f (s.link p))
def State.modSwarm (s : State) (f : Swarm → Swarm) : State := { s with swarm := f s.swarm }

/-- Link states (Table 9-12). -/
abbrev lDown : Nat := 0
abbrev lTraining : Nat := 1
abbrev lUp : Nat := 2
abbrev lJoining : Nat := 3
abbrev lJoined : Nat := 4
abbrev lQuarantined : Nat := 5
abbrev lHeld : Nat := 6
abbrev lDormant : Nat := 7

/-- Alignment states (Table 9-14). -/
abbrev aNone : Nat := 0
abbrev aAcquiring : Nat := 1
abbrev aAligned : Nat := 2
abbrev aHoldover : Nat := 3
abbrev aQueen : Nat := 4

def State.lstate (s : State) (p : Nat) : Nat := s.fld (linkPage p) LINK.STATE_LSTATE
/-- The link takes a state; one that goes below UP applies its pending fields (R397). -/
def State.setLstate (s : State) (p v : Nat) : State :=
  let t := s.setFld (linkPage p) LINK.STATE_LSTATE v
  if lUp ≤ s.lstate p ∧ v < lUp then t.applyPage (linkPage p) else t
def State.linkRole (s : State) (p : Nat) : Nat := s.fld (linkPage p) LINK.CTRL_ROLE
def State.upValid (s : State) : Bool := s.bit swarmPage SWARM.STATE_UP_VALID
def State.upPort (s : State) : Nat := s.fld swarmPage SWARM.STATE_UPPORT
def State.isUp (s : State) (p : Nat) : Bool := s.upValid && s.upPort == p
def State.ordinal (s : State) : BitVec 11 := BitVec.ofNat 11 (s.fld swarmPage SWARM.ORDINAL_VALUE)
def State.align (s : State) : Nat := s.fld swarmPage SWARM.STATE_ALIGN

/-- The role a port plays (R278, R306): of UP and BACKUP, the active upstream acts as UP and the other one as BACKUP. -/
def State.effRole (s : State) (p : Nat) : Nat :=
  let r := s.linkRole p
  if r = 1 ∨ r = 2 then (if s.upValid then (if s.upPort = p then 1 else 2) else r) else r

/-- A downstream port of the active tree: JOINED, and its far end is not a backup (R278, R288). -/
def State.activeDown (s : State) (p : Nat) : Bool :=
  s.linkRole p == 3 && s.lstate p == lJoined && ((s.link p).peer.any fun h => h.role == 1)

/-- Ports of the active tree (R278). -/
def State.activePorts (s : State) : List Nat := (List.range 4).filter fun p => s.activeDown p || (s.isUp p && s.lstate p == lJoined)

/-! The member bit of CHIP.PAGE_LIVE (R280) -/

/-- TRIM_LIVE differs from its target (R71). -/
def State.trimming (s : State) : Bool := s.fld tbPage TB.TRIM_LIVE_VALUE != s.fld tbPage TB.TRIM_TARGET

/-- The TB page's pending fields apply; TRIM_DONE where target and live value meet (R71, R397). -/
def State.applyTb (s : State) : State :=
  let t := s.applyPage tbPage
  if s.trimming && !t.trimming then t.post tbPage TB.st_TRIM_DONE else t

/-- The TB page counts as running on a queen and on a member; where it stops, its pending fields apply (R397). -/
def State.tbStops (s old : State) : State := if (old.isQueen || old.isMember) && !(s.isQueen || s.isMember) then s.applyTb else s

/-! Blocks and lanes (R281, R284) -/

/-- The block type that R281 gives, of the start block and of the two ordered sets, and the O code of an ordered set. -/
def Block.type : Block → Option (BitVec 8)
  | .start => some 0x78
  | .alignment | .timing => some 0x4b
  | _ => none
def Block.oCode : Block → Option (BitVec 4)
  | .alignment => some 0xa
  | .timing => some 0x5
  | _ => none

/-- The lane on which block k of a port's stream travels, and its block time. -/
def laneOf (k : Nat) : Nat := k % 2
def blockTimeOf (k : Nat) : Nat := k / 2

/-- Block k is an alignment marker: both lanes carry one in every 16,384th block time. -/
def isAlignment (k : Nat) : Bool := blockTimeOf k % 16384 == 0

/-- The first block from k on that is no alignment marker. -/
def freeSlot (k : Nat) : Nat := if isAlignment k then 2 * (blockTimeOf k + 1) else k

/-- The first one that travels on lane 0, where a timing mark goes. -/
def markSlot (k : Nat) : Nat := if laneOf (freeSlot k) = 0 then freeSlot k else freeSlot (freeSlot k + 1)

/-- The blocks of a frame: a start block, its words, a terminate block. -/
def frameBlocks (words : List (BitVec 64)) : List Block := .start :: (words.map .data ++ [.terminate])

/-- Blocks laid into a stream from block k on, around the alignment markers. -/
def layBlocks : Nat → List Block → List (Nat × Block)
  | _, [] => []
  | k, b :: r => (freeSlot k, b) :: layBlocks (freeSlot k + 1) r

/-- Block k of a port's stream. -/
def LinkSt.block (l : LinkSt) (k : Nat) : Block :=
  if isAlignment k then .alignment
  else match l.line.find? fun x => x.1 == k with
    | some x => x.2
    | none => .idle

/-! Sending -/

def isTrigger : Payload → Bool
  | .trigger _ => true
  | _ => false

/-- The port carries reliable frames: a quarantined link carries HELLO and ACK only, a held one HELLO only, a dormant one nothing (R289, R291,
R309). -/
def State.talks (s : State) (p : Nat) : Bool := s.lstate p == lUp || s.lstate p == lJoining || s.lstate p == lJoined

/-- The link makes no progress (R285): it is down, or a reliable frame is outstanding. -/
def State.stalled (s : State) (p : Nat) : Bool := decide (s.lstate p < lUp) || !(s.link p).unacked.isEmpty

/-- Brings the command timers of a port up to this cycle; `ack` tells that its ACK has just advanced. -/
def PortWait.note (w : PortWait) (stalled ack : Bool) (t : Nat) : PortWait :=
  let gone := match w.since with
    | some u => t - u
    | none => 0
  if stalled then (if ack then ⟨w.port, w.acc + gone, some (t + 4)⟩ else ⟨w.port, w.acc, some (w.since.getD t)⟩)
  else ⟨w.port, w.acc + gone, none⟩

def State.noteProgress (s : State) (p : Nat) (ack : Bool) : State :=
  let st := s.stalled p
  s.modSwarm fun w => { w with runs := w.runs.map fun r => { r with
    waits := r.waits.map fun x => if x.port = p then x.note st ack s.time.tclk else x } }

/-- The next block of port `p`'s stream: the present block time, of 2.56 ns (66 bits at 25.78125 GBd), counted from the release of the dividers
(DESIGN CHOICE, assumption 89), or behind what the port is still sending. -/
def State.nextBlock (s : State) (p : Nat) : Nat :=
  max (2 * (s.time.tclk * 25 / 64)) (((s.link p).line.getLast?).elim 0 fun x => x.1 + 1)

/-- The blocks of a frame go out on port `p` (R281, R284). -/
def State.sendBlocks (s : State) (p : Nat) (words : List (BitVec 64)) : State :=
  s.modLink p fun l => { l with line := l.line ++ layBlocks (s.nextBlock p) (frameBlocks words) }

/-- A timing mark goes out on lane 0 of port `p` (R281, R292). -/
def State.sendMark (s : State) (p : Nat) : State := s.modLink p fun l => { l with line := l.line ++ [(markSlot (s.nextBlock p), .timing)] }

/-- Sends a frame on port `p` with the port's ACK; an armed injection corrupts the CRC word of a reliable one (R437). -/
def State.transmit (s : State) (p : Nat) (reliable : Bool) (f : Frame) : State :=
  let f : Frame := ⟨f.seq, (s.link p).rx, f.hops, f.origin, f.payload⟩
  let s := s.modLink p fun l => { l with ackDue := none }
  let ws := f.words
  if reliable && s.injectArmed 5 p then
    let ws := ws ++ [frameCrc ws ^^^ 1]
    ((s.injected).sendBlocks p ws).send (.badFrame p f ws)
  else
    let ws := ws ++ [frameCrc ws]
    (s.sendBlocks p ws).send (.frame p f ws)

/-- A timing frame: SEQ 0, raised by this part (Table 9-2). -/
def State.sendTiming (s : State) (p : Nat) (x : Payload) : State := s.transmit p false ⟨0, 0, 0, s.ordinal, x⟩

/-- A reliable frame goes out under the port's next SEQ (R285). -/
def State.launch (s : State) (p : Nat) (f : Frame) : State :=
  let l := s.link p
  let f : Frame := ⟨l.tx, 0, f.hops, f.origin, f.payload⟩
  let s := s.setLink p { l with tx := l.tx + 1, unacked := l.unacked ++ [⟨f, s.time.tclk, s.time.tclk⟩] }
  (s.transmit p true f).noteProgress p false

/-- Puts a trigger before every other frame that waits (R286). -/
def insertTrigger (f : Frame) : List Frame → List Frame
  | [] => [f]
  | g :: r => if isTrigger g.payload then g :: insertTrigger f r else f :: g :: r

/-- Sends a reliable frame, or lets it wait while 512 are unacknowledged or the link carries none; a port holds at most 32 triggers (R285, R286,
R289, R291, R303). -/
def State.sendReliable (s : State) (p : Nat) (origin : BitVec 11) (hops : BitVec 5) (x : Payload) : State :=
  let l := s.link p
  let f : Frame := ⟨0, 0, hops, origin, x⟩
  if s.talks p && l.unacked.length < 512 && l.waiting.isEmpty then s.launch p f
  else if isTrigger x then
    if 32 ≤ (l.waiting.filter fun g => isTrigger g.payload).length then s.addSat (linkPage p) LINK.TRIG_DROPS 1
    else s.setLink p { l with waiting := insertTrigger f l.waiting }
  else s.setLink p { l with waiting := l.waiting ++ [f] }

/-- Frames that wait go out while there is room and the link carries them. -/
def State.drain (s : State) (p : Nat) : Nat → State
  | 0 => s
  | n + 1 =>
    let l := s.link p
    match l.waiting with
    | [] => s
    | f :: r => if s.talks p && l.unacked.length < 512 then ((s.setLink p { l with waiting := r }).launch p f).drain p n else s

/-- The frames after the one that `a` acknowledges, none where `a` names none of them. -/
def ackRest (a : BitVec 12) : List Unacked → Option (List Unacked)
  | [] => none
  | u :: r => if u.frame.seq = a then some r else ackRest a r

/-- An ACK field arrives (R285). -/
def State.takeAck (s : State) (p : Nat) (a : BitVec 12) : State :=
  let l := s.link p
  match ackRest a l.unacked with
  | none => s
  | some r => ((s.setLink p { l with unacked := r }).noteProgress p true).drain p l.waiting.length

/-- The round trip R_t in su (R285). -/
def State.roundTrip (s : State) (p : Nat) : Nat :=
  if (s.link p).ds.isEmpty then 4000 * 1024 else 2 * s.fld (linkPage p) LINK.DELAY_VALUE

/-- su since a TCLK cycle, at 1,024 su each. -/
def State.elapsed (s : State) (t : Nat) : Nat := (s.time.tclk - t) * 1024

/-- The oldest frame has not been acknowledged in time: it and all after it go out again (R285). -/
def State.resend (s : State) (p : Nat) : State :=
  let l := s.link p
  match l.unacked with
  | [] => s
  | u :: _ =>
    if !s.talks p || decide (s.elapsed u.sent < s.roundTrip p + 300 * 1024) then s
    else
      let s := s.setLink p { l with unacked := l.unacked.map fun v => ⟨v.frame, v.first, s.time.tclk⟩ }
      let s := s.addSat (linkPage p) LINK.RETRIES l.unacked.length
      l.unacked.foldl (fun s v => s.transmit p true v.frame) s

/-! Receiving -/

/-- A frame is discarded whole: its CRC or its control blocks fail, or its TYPE is reserved (R284); a WAGGLE or a MARK is lost then (R285). -/
def State.badFrame (s : State) (p : Nat) (hd : Head) (timing : Bool) : State :=
  let s := s.addSat (linkPage p) LINK.CRC_ERRS 1
  if timing && !hd.good then s.addSat (linkPage p) LINK.TIMING_LOST 1 else s

/-- An ACK is due 100 ns after the first reliable frame that no frame of this end has answered yet, one out of order or a duplicate too
(R285). -/
def State.oweAck (s : State) (p : Nat) : State := s.modLink p fun l => { l with ackDue := some (l.ackDue.getD s.time.tclk) }

/-- A frame other than HELLO arrives on port `p`: one that fails is discarded; a quarantined link takes ACK only, a held or dormant one
nothing; a reliable frame must be the next in order (R284, R285, R289, R291). -/
def State.receive (s : State) (p : Nat) (hd : Head) (reliable timing ackOnly : Bool) (k : State → State) : State :=
  if !s.live || s.inCluster || decide (s.lstate p < lUp) then s
  else if !hd.good || !hd.known then s.badFrame p hd timing
  else if s.lstate p == lDormant || s.lstate p == lHeld || (s.lstate p == lQuarantined && !ackOnly) then s
  else
    let s := s.takeAck p hd.ack
    if reliable then
      if hd.seq = (s.link p).rx + 1 then k ((s.modLink p fun l => { l with rx := hd.seq }).oweAck p)
      else (s.addSat (linkPage p) LINK.DUP_FRAMES 1).oweAck p
    else k s

/-- An ACK frame goes out 100 ns after a reliable frame that no other frame has answered (R285); a held link carries none (R291). -/
def State.ackSend (s : State) (p : Nat) : State :=
  match (s.link p).ackDue with
  | some t =>
    if !s.live || s.inCluster || decide (s.lstate p < lUp) || s.lstate p == lHeld || s.lstate p == lDormant || s.time.tclk < t + 100 then s
    else s.sendTiming p .ack
  | none => s

/-! Flooding (R303, R308) -/

/-- Origins and identifiers received in the last 64 µs. -/
def fresh (t : Nat) (l : List (BitVec 11 × BitVec 16 × Nat)) : List (BitVec 11 × BitVec 16 × Nat) :=
  l.filter fun x => decide (t < x.2.2 + 64000)

def seen (o : BitVec 11) (i : BitVec 16) (l : List (BitVec 11 × BitVec 16 × Nat)) : Bool := l.any fun x => x.1 == o && x.2.1 == i

/-- Sends a reliable frame on every port of the active tree but one. -/
def State.flood (s : State) (but : Option Nat) (origin : BitVec 11) (hops : BitVec 5) (x : Payload) : State :=
  s.forEach (s.activePorts.filter fun p => but != some p) fun p s => s.sendReliable p origin hops x

/-- The swarm event record of the journal (R251, R308). -/
def State.eventRecord (s : State) (other : Bool) (origin : BitVec 11) (e : SwarmEvent) : State :=
  s.journalGroup 0xa 123 other e.time
    [⟨e.code.toNat * 2 ^ 13 + b2n s.holdover * 2 ^ 12 + b2n s.coarse * 2 ^ 11 + origin.toNat, e.detail.toNat / 2 ^ 18, e.detail.toNat⟩]

/-- The part raises a swarm event (R308). -/
def State.raiseEvent (s : State) (code : Nat) (detail : Nat) : State :=
  let e : SwarmEvent := ⟨BitVec.ofNat 5 code, s.swarm.eventNext, s.now, BitVec.ofNat 36 detail⟩
  let s := s.modSwarm fun w => { w with eventNext := w.eventNext + 1, seenEvents := fresh s.time.tclk w.seenEvents ++ [(s.ordinal, e.id, s.time.tclk)] }
  let s := if code = 3 then s.post swarmPage SWARM.st_MEMBER_LOST else s
  (s.eventRecord false s.ordinal e).flood none s.ordinal 0 (.event e)

/-- The part sends a swarm trigger of edge time `t`, with HOLDOVER and COARSE as they stood at the decision (R214, R303); a PENDING part sends none
(R290). -/
def State.raiseTrigger (s : State) (code : Nat) (t : DTime) (holdover coarse : Bool) : State :=
  if s.fld swarmPage SWARM.STATE_MEMBER = 3 then s
  else
    let g : SwarmTrigger := ⟨t, s.swarm.trigNext, BitVec.ofNat 5 code, holdover, coarse⟩
    let s := s.modSwarm fun w => { w with trigNext := w.trigNext + 1, seenTriggers := fresh s.time.tclk w.seenTriggers ++ [(s.ordinal, g.id, s.time.tclk)] }
    s.flood none s.ordinal 0 (.trigger g)

/-- A TRIGGER frame whose CRC will fail has left every forwarding port by then, its CRC word as wrong as it came, and takes no SEQ there: the
sender's retry carries the trigger again (R286). A port with other frames under way has not begun it (DEDUCED, assumption 84). -/
def State.cutThrough (s : State) (p : Nat) (hd : Head) (g : SwarmTrigger) : State :=
  if !s.live || s.inCluster || s.lstate p != lJoined || !s.activePorts.contains p || !hd.known || hd.good || hd.seq != (s.link p).rx + 1
    || seen hd.origin g.id (fresh s.time.tclk s.swarm.seenTriggers) then s
  else s.forEach (s.activePorts.filter fun q => q != p) fun q s =>
    let l := s.link q
    if l.waiting.isEmpty && l.unacked.length < 512 then
      let f : Frame := ⟨l.tx, l.rx, hd.hops + 1, hd.origin, .trigger g⟩
      let ws := f.words ++ [frameCrc f.words ^^^ (hd.crc ^^^ frameCrc (hd.word :: hd.payload))]
      (s.sendBlocks q ws).send (.badFrame q f ws)
    else s

/-- A TRIGGER frame arrives (R220, R286, R303). -/
def State.triggerRx (s : State) (p : Nat) (hd : Head) (g : SwarmTrigger) : State :=
  (s.cutThrough p hd g).receive p hd true false false fun s =>
    let w := fresh s.time.tclk s.swarm.seenTriggers
    if seen hd.origin g.id w then s
    else
      let s := s.modSwarm fun x => { x with seenTriggers := w ++ [(hd.origin, g.id, s.time.tclk)] }
      (s.flood (some p) hd.origin (hd.hops + 1) (.trigger g)).swarmArrive g.code.toNat g.t

end Sys2Proof.Machine
end

