-- ==== Sys2Proof/Machine/Run.lean ====
section
/-! DEFINITION. The run on this part: its state and the journal of its changes, chip faults, ARM, START, STOP, ABORT and RESET_RUN as effects on
the units, slot 0, the end of a major cycle and the drain of a region (R30, R41 to R47, R169, R171, R273, R429 to R434). -/
namespace Sys2Proof.Machine
open Sys2Proof

def allRegions : List Nat := List.range 8

/-! The run state (R41) -/

/-- CH pages that stop running apply what is pending (R397). -/
def State.settleChans (s : State) : State :=
  s.forEach allChans fun k s => if (s.pendingOf (chPage k)).isEmpty then s else s.applyIdle k s.now

/-- RUNNING or STOPPING. -/
def RunState.going : RunState → Bool
  | .running | .stopping => true
  | _ => false

/-- The run state changes, and the change is journalled (R41, Table 13-6). -/
def State.setRunState (s : State) (new : RunState) (internal : Bool) (a : Agent) : State :=
  let old := s.runState
  if old = new then s
  else
    let s := s.setFld chipPage CHIP.live_RUN_STATE new.code
    let s := s.entry .state a (chipPage + 0x00c) .done (old.code + 16 * new.code + 256 * b2n s.inCluster + 512 * b2n internal)
    let s := s.post chipPage CHIP.st_STATE_CHANGE
    let s := if new = .fault then s.post chipPage CHIP.st_FAULT_SET else s
    -- IMG_DIGEST reads 0 in IDLE (Table 14-4)
    let s := if new = .idle then s.setPair chipPage CHIP.IMG_DIGEST_LO 0 else s
    -- ECOUNT holds from STOPPED on (R106), and the run's gaps are counted (R108, R113)
    let s := if new = .stopped then s.forEach allChans fun k s => s.holdCounts k else s
    if old.going && !new.going then s.settleChans else s

/-! Halting regions -/

def State.stopRecording (s : State) (n : Nat) : State :=
  { s with recordingRegions := s.recordingRegions &&& ~~~ (BitVec.ofNat 8 (2 ^ n)) }

/-- Halts region `n` if it executes. -/
def State.halt (s : State) (n : Nat) : State := if s.executes n then s.haltRegion n else s

/-- A region writes the record of a chip-level error that stops it: it records, and did not go to FAULT before this TCLK cycle (R430). -/
def State.takesChipRecord (s : State) (n : Nat) : Bool :=
  if s.bit (regPage n) REG.live_FAULT then (s.region n).haltAt == some s.time.tclk else s.recording n

/-- What follows a chip-level error's record (R45, R429): with `stop` the regions halt at the end of the slot and each of their record writers is to give
one record of its own; the run state becomes FAULT. -/
def State.chipStop (s : State) (cause detail : Nat) (stop : Bool) : State :=
  let s :=
    if stop then
      let due := (allRegions.filter s.takesChipRecord).map fun n => (n, cause, detail, s.now)
      let s := s.forEach allRegions fun n s => s.halt n
      { s with run := { s.run with slotDue := false, chipStops := s.run.chipStops ++ due } }
    else s
  s.setRunState .fault true .internal

/-- A chip-level error: its record for the chip, which is the journal's only one (R430), and what follows. -/
def State.chipFault (s : State) (cause unit detail : Nat) (stop : Bool) : State :=
  (s.error none 122 cause unit detail stop).chipStop cause detail stop

/-- The writers of a region that a chip-level error stopped finish: what they have accepted, after a region fault of the same cycle that fault's
record, then one record of the chip cause, and no more (R39, R45, R430). -/
def State.chipRecord (s : State) (x : Nat × Nat × Nat × DTime) : State :=
  let n := x.1
  let s := { s with recordingRegions := s.recordingRegions ||| BitVec.ofNat 8 (2 ^ n) }
  (((s.flushOpen n).summaryRunsEnd n).unitGroup n 9 (104 + n) true x.2.2.2 [errCont x.2.1 0 x.2.2.1 s.coarse s.holdover]).stopRecording n

/-- Regions that a chip-level error stopped in this cycle give their records: two errors in one cycle give the first of them (R45). -/
def State.chipRecords (s : State) : State :=
  (s.run.chipStops.filter fun x => s.run.chipStops.find? (·.1 == x.1) == some x).foldl State.chipRecord { s with run := { s.run with chipStops := [] } }

/-! ARM (R43, R167, R244, R273) -/

/-- The budgets of region `n`: their sum. -/
def State.budgetSum (s : State) (n : Nat) : Nat :=
  ((List.range 7).map fun j => let v := s.rd (regPage n + 0x10c + 4 * j)
    getBits v 0 12 + getBits v 12 12).foldl (· + ·) 0

/-- A budget of region `n` is refused (R273). -/
def State.overBudget (s : State) (n : Nat) : Bool :=
  decide (1843 < s.budgetSum n)
    || ((s.ring n).2.1 != 0 && decide (64 * (s.ring n).2.2 < s.fld (regPage n) REG.BUDGET0_CAP))
    || ((s.ring (8 + n)).2.1 != 0 && decide (64 * (s.ring (8 + n)).2.2 < s.fld (regPage n) REG.BUDGET0_REC))
    || (s.remote n && decide (64 < s.fld (regPage n) REG.BUDGET0_REC))

/-- Shows the sum of a region's budgets. -/
def State.showBudget (s : State) (n : Nat) : State :=
  (s.setFld (regPage n) REG.BUDGET_SUM_SUM (sat 12 (s.budgetSum n))).setBit (regPage n) REG.BUDGET_SUM_OVER (s.overBudget n)

/-- A region whose capture ring holds a bank that the capture writer does not own (R268). -/
def State.notOwned (s : State) (n : Nat) : Bool :=
  let r := s.ring n
  s.segMode n && (List.range r.2.1).any fun i => s.ownerNow (32 * n + (r.1 + i) % 32) != 1

/-- Why the part refuses to arm, by its CMD_STATUS cause, if it does (R43, R268, R273). -/
def State.armRefusal (s : State) : Option Nat :=
  if allRegions.any fun n => s.overBudget n then some 1
  else if s.align = aAcquiring then some 2
  else if !s.bit chipPage CHIP.live_READY then some 8
  else if allRegions.any fun n => s.notOwned n then some 3 else none

/-- An ARM is refused with a cause: ARM_REFUSED, and BUDGET in each refusing region. -/
def State.refuseArm (s : State) (cause : Nat) : State :=
  let s := if cause = 1 then s.forEach (allRegions.filter fun n => s.overBudget n) fun n s => (s.showBudget n).raise (regPage n) REG.err_BUDGET else s
  s.raise chipPage CHIP.err_ARM_REFUSED

/-- Every cell takes the image's initial state (R167); staged dwords, commits that wait and instruction memories are no part of it. -/
def State.primeCells (s : State) : State :=
  let s := { s with cells := Tab.update (fun _ => Cell.init) (fun _ x => { Cell.init with staged := x.staged, patch := x.patch }) s.cells }
  s.cellInit.foldl (fun s (p : Nat × List (BitVec 18) × BitVec 32) =>
    let x := s.cell p.1
    let x := (p.2.1.zipIdx).foldl (fun (x : Cell) (v : BitVec 18 × Nat) => x.item (.reg v.2 ⟨v.1, false⟩)) x
    let x := (List.range 32).foldl (fun (x : Cell) i => x.item (.pred i ⟨p.2.2.getLsbD i, false⟩)) x
    s.setCell p.1 x) s

/-- Fills every enabled FIFO in stamp mode with its time-extension entry of ARM (R184); a halted block's admit nothing (R191). -/
def State.primeFifos (s : State) : State :=
  let s := { s with fifos := [] }
  s.forEach (List.range 64) fun g s =>
    let s := s.forEach (List.range 12) fun i s => s.setFifo g i Fifo.empty
    s.forEach ((List.range 12).filter fun i => s.fifoOn g i false && !s.bit (blkPage g) BLK.live_HALTED) fun i s => s.offerExt g i (12 * (g / 8) + i) s.now 0

/-- ARM: every stream's counters begin afresh (R244). -/
def State.freshStreams (s : State) : State := { s with streams := [] }

/-- ARM: the exchange channels hold 0 (R180). -/
def State.freshExchange (s : State) : State := { s with exch := [] }

/-- ARM: only a lender's freeze of a remote ring outlives it (R314). -/
def State.freshRemotes (s : State) : State := { s with remotes := s.remotes.filter fun p => p.2.frozen }

/-- ARM: no value and no store is under way. -/
def State.freshSent (s : State) : State := { s with sent := [] }
def State.freshStores (s : State) : State := { s with stores := [] }

/-- ARM: no trigger waits. -/
def State.freshTrigs (s : State) : State := { s with trigs := [] }

/-- ARM: no summary waits, and no capture trigger. -/
def State.freshSummaries (s : State) : State := { s with summaries := [] }
def State.freshOffers (s : State) : State := { s with offers := [] }

/-- ARM: every region records (R426). -/
def State.allRecord (s : State) : State := { s with recordingRegions := 0xff }

/-- ARM: no run is to begin or to end. -/
def State.freshRun (s : State) : State := { s with run := { s.run with endRun := none, slotDue := false, startAt := none } }

/-- ARM takes effect on every unit (R42, R167, R244, R426). -/
def State.armUnits (s : State) : State :=
  let s := s.forEach allRegions fun n s => (s.armWriters n).showBudget n
  let s := s.freshStreams.freshExchange.freshRemotes.freshSent.freshStores.freshTrigs.freshSummaries.freshOffers.allRecord.freshRun
  let s := s.forEach allRegions fun n s =>
    let p := regPage n
    ((((s.wr (p + 0x060) 0).wr (p + 0x064) 0).wr (p + 0x068) 0).wr (p + 0x06c) 0).setFld p REG.live_CELL_STOPPED 0
  (s.primeCells).primeFifos

/-! START and slot 0 (R30, R42) -/

/-- What START clears in region `n` and in its blocks. -/
def State.clearRegion (s : State) (n : Nat) : State :=
  let p := regPage n
  let s := ((s.startCapture n).setPair p REG.CYCLES_LO 0).setFld p REG.POISON_PUTS 0
  s.forEach (List.range 8) fun b s => s.setFld (blkPage (8 * n + b)) BLK.XFER_DROPS 0

/-- START takes effect on every unit: counters and measurements begin afresh, and the stuck timers restart (R89); slot 0 is due, at `at_` where
the swarm sets it (R301); interval units in AUTO are armed (Table 5-6). -/
def State.startUnits (s : State) (at_ : Option DTime) : State :=
  let s := s.forEach allChans fun k s =>
    let p := chPage k
    let s := ((s.startAcc k).clearQual k).startCounts k
    let s := ((s.setPair p CH.ECOUNT_LO 0).setPair p CH.GAPEDGES_LO 0).setFld p CH.GAPRECS 0
    (s.setStuck k false).restartTimer k
  let s := (s.forEach allRegions fun n s => s.clearRegion n).startEsl.startInsts
  let s := s.beginWindows
  { s with run := { s.run with slotDue := true, startAt := at_ } }

/-- Slot 0 of the run (R30): every region begins its first major cycle, and the channels' grids begin. After a START of the
swarm it comes in the TCLK cycle that holds its S, which is the origin of the grids (R301). -/
def State.slot0 (s : State) : State :=
  let t := s.run.startAt.getD s.now
  if !s.live || s.runState != .running || !s.run.slotDue || decide (dt t s.now < 0 ∨ 1024 ≤ dt t s.now) then s
  else
    let s := { s with run := { s.run with slotDue := false } }
    let s := s.forEach (allRegions.filter fun n => !s.bit (regPage n) REG.live_FAULT) fun n s =>
      let s := (s.setFld (regPage n) REG.SLOT_EXEC 1).setFld (regPage n) REG.SLOT_VALUE 0
      s.setRegion n ⟨s.time.tclk, false, none, none, none⟩
    let s := s.forEach allChans fun k s => s.beginAcc k t
    s.unitEvent chipPage

/-! The end of a major cycle and the drain (R169, R171) -/

/-- Every gate, interval unit and FIFO of a region has ended or is empty (R171). -/
def State.quiet (s : State) (n : Nat) : Bool :=
  ((chansOf n).all fun k => s.measureDone k)
    && (s.fifos.all fun p => p.1 / 96 != n || p.2.entries.isEmpty)

/-- Region `n` completes its L slots, once in its last slot: event words and states become visible, buffered writes apply, the count of cycles advances; in
STOPPING the region's drain is judged, and once it is quiet what cells still put of open groups is written as it stands (R169, R171). -/
def State.majorCycleEnd (s : State) (n : Nat) : State :=
  if !s.live || !s.executes n || s.slot n != s.majorLen n - 1 || (s.region n).endedAt == some s.time.tclk then s
  else
    let s := s.setRegion n { s.region n with endedAt := some s.time.tclk }
    let s := (s.publish n).applyRegion n
    let s := s.settleWaiting (12 * n)
    let c := s.pair (regPage n) REG.CYCLES_LO + 1
    let s := s.setPair (regPage n) REG.CYCLES_LO c
    let r := s.region n
    if !r.draining then s
    else if r.emptyAt.isSome then s.flushOpen n
    else if s.quiet n then ((((s.setRegion n { r with emptyAt := some c }).flushOpen n).summaryRunsEnd n).dropDone n).closeRun n
    else s

/-- A frozen writer counts what it cannot write (R434). -/
def State.dropFrozen (s : State) (i : Nat) : State :=
  let n := i % 8
  let w := s.writer i
  if (if i < 8 then s.isFrozen (regPage n) 8 else s.recFrozen n) && !w.queue.isEmpty then s.loseQueue i 4 else s

/-- Both writers of a region hold nothing that they can write. -/
def State.writersEmpty (s : State) (n : Nat) : Bool :=
  ((s.writer n).queue.isEmpty || s.isFrozen (regPage n) 8 || (s.ring n).2.1 == 0 || (s.segMode n && s.capPhase n == 3))
    && (((s.writer (8 + n)).queue.isEmpty && s.openHeld n == 0) || s.recFrozen n || !s.hasRing n)

/-- Every region has drained: STOPPING becomes STOPPED (R43, R431). -/
def State.settleStop (s : State) : State :=
  if s.runState = .stopping && !(allRegions.any fun n => s.executes n) then
    let s := { s with recordingRegions := 0 }
    s.setRunState .stopped true .internal
  else s

/-- A drained region halts at the end of a major cycle, one complete cycle or more after the one in which its gates and FIFOs were found done; they
still are (R171). -/
def State.regionHalt (s : State) (n : Nat) : State :=
  let r := s.region n
  if !s.live || !s.executes n || !r.draining || s.slot n != s.majorLen n - 1 then s
  else
    match r.emptyAt with
    | none => s
    | some c =>
      if s.pair (regPage n) REG.CYCLES_LO ≤ c || !s.quiet n || !s.writersEmpty n then s
      else
        let s := s.forEach (chansOf n) fun k s => s.closeGap k none
        let s := (((s.flushOpen n).dropFrozen n).dropFrozen (8 + n)).dropDone n
        ((((s.haltRegion n).stopRecording n).post (regPage n) REG.st_HALTED).closeRun n).settleStop

/-! STOP and ABORT as effects (R43, R46, R144, R234) -/

/-- STOP on every unit: gates end naturally within the grace, segments end, open gaps close so that their records can still be written (a gap that
opens later closes when its region halts; DEDUCED, assumption 79), regions drain. -/
def State.stopUnits (s : State) : State :=
  let s := s.forEach allChans fun k s => (s.stopAcc k).closeGap k none
  let s := s.forEach allRegions fun n s =>
    let s := if s.recording n then s.stopCapture n else s
    if s.executes n then s.setRegion n { s.region n with draining := true, emptyAt := none } else s.closeRun n
  { s with run := { s.run with slotDue := false, startAt := none } }

/-- ABORT on every unit: regions halt at the end of the slot, and what has not reached a bank is discarded and counted, in a region that stopped
before too (R43). -/
def State.abortUnits (s : State) : State :=
  let s := s.forEach allChans fun k s => (s.dropAcc k).closeGap k none
  let s := s.dropInsts
  let s := s.forEach allRegions fun n s =>
    if s.recording n || (s.writer n).held + s.putHeld n != 0 then ((((s.summaryRunsEnd n).halt n).abortWriters n)).stopRecording n else s.halt n
  { s with run := { s.run with slotDue := false, startAt := none, endRun := none } }

/-! RESET_RUN (R43, R432) -/

/-- What RESET_RUN does to every region: faults and stopped cells are cleared, halted blocks return to service. -/
def State.resetRegions (s : State) : State :=
  let s := s.forEach allRegions fun n s =>
    let p := regPage n
    let s := ((((s.wr (p + 0x05c) 0).wr (p + 0x060) 0).wr (p + 0x064) 0).wr (p + 0x068) 0).wr (p + 0x06c) 0
    (s.setFld p REG.live_FAULT 0).setFld p REG.live_CELL_STOPPED 0
  s.forEach (List.range 64) fun g s => s.setFld (blkPage g) BLK.live_HALTED 0

/-- RESET_RUN takes effect: LOADED when an image is held and every instruction memory passes its parity check, else IDLE. -/
def State.resetRun (s : State) (a : Agent) : State :=
  let s := if allRegions.any fun n => s.executes n || s.recording n then s.abortUnits else s
  let s := s.resetRegions.forEach allChans fun k s =>
    let s := if (s.chan k).gap.isSome then s.closeGapOf k 5 else s
    s.modChan k fun c => { c with countFrom := none }
  if s.run.imageHeld && !(s.imem.any fun p => p.2.bad) then s.setRunState .loaded false a
  else ({ s with run := { s.run with imageHeld := false } }).setRunState .idle false a

end Sys2Proof.Machine
end

