-- ==== Sys2Proof/Machine/Deliver.lean ====
section
/-! DEFINITION. The delivery of triggers in the cycle after their put slot: capture writers, TRIG_OUT, the swarm, and the trigger record
(R213 to R216, R271, R303). -/
namespace Sys2Proof.Machine
open Sys2Proof

/-- SEQ_CFG of a trigger's sequencer. -/
def State.trigCfg (s : State) (g : Trig) : Dword := s.rd (regPage g.region + 0x200 + 4 * g.sq)

/-- The earlier of two triggers at one capture writer (R215). -/
def Trig.before (a b : Trig) : Bool :=
  let d := dt a.time b.time
  decide (d < 0) || (d == 0 && (decide (a.region < b.region) || (a.region == b.region && decide (a.sq < b.sq))))

/-- The trigger that a capture writer takes of those that reach it in one cycle. -/
def earliest : List Trig → Option Trig
  | [] => none
  | g :: r => match earliest r with
    | some h => if h.before g then some h else some g
    | none => some g

/-- Delivers the triggers of a cycle to the capture writer of region `n`: those accepted, each with LATE, and the state after. -/
def State.deliverTo (s : State) (due : List Trig) (n : Nat) : List (Trig × Bool) × State :=
  let mine := due.filter fun g => bitOf (s.trigCfg g).toNat (12 + n)
  match earliest mine with
  | none => ([], s)
  | some g =>
    let s := s.addSat (regPage n) REG.TRIG_IGNORED (mine.length - 1)
    match s.offerTrigger n ⟨g.time, g.cycle, g.region, g.sq, g.src, none⟩ with
    | (some late, s) => ([(g, late)], s)
    | (none, s) => ([], s)

/-- Delivers them to the capture writers of a list of regions. -/
def State.deliverAll (s : State) (due : List Trig) : List Nat → List (Trig × Bool) × State
  | [] => ([], s)
  | n :: r =>
    match s.deliverTo due n with
    | (l, s) => (l ++ (s.deliverAll due r).1, (s.deliverAll due r).2)

/-- The trigger record of Table 7-5 under the put queue's rules and the put's SEQ (R177, R213, R271). -/
def State.triggerRecord (s : State) (g : Trig) (flags : Nat) : State :=
  let n := g.region
  let st := streamRec n
  if !s.recording n then s.putLate n 2
  else if s.recFrozen n then s.lose n 4 2 (104 + n) 2
  else if !s.hasRing n then s.lose n 2 2 (104 + n) 2
  else if 256 < s.putHeld n + s.extNeed st g.src g.time + 2 then s.putRefused n 2
  else
    let ago := sat 36 (dt g.decided g.time).toNat
    let edge := !(bitOf g.flags 0 || bitOf g.flags 1 || g.kind == 6)
    match s.extBefore st g.src g.time with
    | (pre, s) =>
      match s.putSeq g.cell g.src g.seq g.keep with
      | (q, s) =>
        s.queuePut n [pre, headRec 5 g.src edge q g.time
          :: contRecs g.src q [⟨n * 2 ^ 15 + g.sq * 2 ^ 12 + g.kind * 2 ^ 8 + flags, ago / 2 ^ 18, ago⟩]]

/-- One trigger acts on its region's counters, on TRIG_OUT and on the swarm, and its record is written (R213, R214). CAPTURED and LATE count the
writers that take it as a swarm trigger of this part too (R220). -/
def State.triggerAct (s : State) (taken : List (Trig × Bool)) (g : Trig) : State :=
  let v := (s.trigCfg g).toNat
  let out := bitOf v 20 && s.bit chipPage CHIP.TRIG_IO_OUT_EN
  let sends := bitOf v 21 && s.fld swarmPage SWARM.STATE_MEMBER != 3
  let s := (s.addSat (regPage g.region) REG.TRIG_COUNT 1).setPair (regPage g.region) REG.LAST_TRIG_LO g.time.toNat
  let s := if out then s.pulse else s
  match (if sends then (s.raiseTrigger (bitsOf v 22 5) g.time (bitOf g.flags 3) (bitOf g.flags 2)).swarmOffer (bitsOf v 22 5) g.time g.cycle else ([], s)) with
  | (swarm, s) =>
    let mine := ((taken.filter fun p => p.1 == g).map (·.2)) ++ swarm
    s.triggerRecord g (g.flags + 16 * b2n sends + 32 * b2n out + 64 * b2n (!mine.isEmpty) + 128 * b2n (mine.any id))

/-- The triggers of earlier cycles are delivered (R214). -/
def State.triggerDeliver (s : State) : State :=
  if !s.live then s
  else
    let due := s.trigs.filter fun g => decide (g.cycle < s.time.tclk)
    let s := { s with trigs := s.trigs.filter fun g => !decide (g.cycle < s.time.tclk) }
    match s.deliverAll due allRegions with
    | (taken, s) => due.foldl (fun s g => s.triggerAct taken g) s

end Sys2Proof.Machine
end

