-- ==== Sys2Proof/Machine/Domain.lean ====
section
/-! DEFINITION. Network time: the two domains, their servo, the map tick, PPS and host samples, the members' mapping (R318 to R339). -/
namespace Sys2Proof.Machine
open Sys2Proof

def State.dom (s : State) (d : Nat) : Dom := Tab.get (fun _ => Dom.init) s.doms d
def State.setDom (s : State) (d : Nat) (x : Dom) : State := { s with doms := Tab.set (fun _ => Dom.init) s.doms d x }
def State.modDom (s : State) (d : Nat) (f : Dom → Dom) : State := s.setDom d (f (s.dom d))

/-- Both domains. -/
def bothDoms : List Nat := [0, 1]

/-- D is a count of 2^-48 ns modulo 2^80 (R320). -/
def domMod : Nat := 2 ^ 80

def domAdd (d : Nat) (x : Int) : Nat := (((d : Int) + x) % (domMod : Int)).toNat

/-- Whole nanoseconds and 16 bits of fraction, as a domain is reported (R320). -/
def domNs (d : Nat) : Nat := d / 2 ^ 48
def domFrac (d : Nat) : Nat := d / 2 ^ 32 % 2 ^ 16

def State.domEn (s : State) (d : Nat) : Bool := s.bit (domPage d) DOM.CTRL_EN
def State.domSrc (s : State) (d : Nat) : Nat := s.fld (domPage d) DOM.CTRL_SRC
/-- The frequency correction y in units of 2^-40. -/
def State.domY (s : State) (d : Nat) : Int := signed 32 (s.rd (domPage d + 0x84)).toNat

/-- What δ su add to a domain whose correction is `y`, held to 48 bits of fraction; what lies below them is dropped (R320; the rule does not say how it
is rounded, DESIGN CHOICE, assumption 59). -/
def domStep (δ y : Int) : Int := δ * ((2 ^ 40 : Nat) + y) / 4

/-- An increment of DTIME by δ su advances every domain that counts. -/
def State.domAdvance (s : State) (δ : Int) : State :=
  s.forEach bothDoms fun d s =>
    if s.domEn d then s.modDom d fun x => { x with d := domAdd x.d (domStep δ (s.domY d)) } else s

/-- This part servoes its domains (R336). -/
def State.servoes (s : State) : Bool := !s.isMember

/-! What the page shows -/

/-- VALID and SERVO of both pages, and which domain is active (R321, R334, R336, R337). -/
def State.showDoms (s : State) : State :=
  s.forEach bothDoms fun d s =>
    let p := domPage d
    let mapped := s.align == 2 || s.align == 3
    let valid := s.domEn d && (if s.isMember then mapped && (s.dom d).carriedValid else if s.align == 1 then false else true)
    ((s.setBit p DOM.live_VALID valid).setBit p DOM.live_SERVO s.servoes).setBit p DOM.live_ACTIVE (s.fld (domPage 0) DOM.ACTIVE_B == d)

/-- LOCKED changes (R329). -/
def State.domLock (s : State) (d : Nat) (b : Bool) : State :=
  let p := domPage d
  if s.bit p DOM.live_LOCKED == b then s
  else ((s.setBit p DOM.live_LOCKED b).post p (if b then DOM.st_LOCK_GAINED else DOM.st_LOCK_LOST)).unitEvent p

/-- The values of a domain before and after a set or a step are journalled. -/
def State.domJournal (s : State) (d old new : Nat) : State :=
  (s.entry .unitEvent .internal (domPage d + 8) .before (domNs old)).entry .unitEvent .internal (domPage d + 8) .after (domNs new)

/-! The servo (R322, R328, R329) -/

/-- MAXPPM in units of 2^-40. -/
def State.domLimit (s : State) (d : Nat) : Rat := ((s.fld (domPage d) DOM.LIMITS_MAXPPM * 2 ^ 40 : Nat) : Rat) / 1000000

/-- A value held to ±MAXPPM, and whether it was clamped. -/
def clampTo (m v : Rat) : Rat × Bool := if m < v then (m, true) else if v < -m then (-m, true) else (v, false)

/-- y takes a value (R322); its magnitude never exceeds the limit after rounding. -/
def State.setY (s : State) (d : Nat) (v : Rat) : State :=
  let c := clampTo (s.domLimit d) v
  let y := roundEven c.1
  let m : Int := (s.domLimit d).floor
  let y := if m < y then m else if y < -m then -m else y
  let s := s.wr (domPage d + 0x84) (BitVec.ofInt 32 y)
  if c.2 then s.raise (domPage d) DOM.err_FREQ_LIMIT else s

/-- The integrator takes a value. -/
def State.setInteg (s : State) (d : Nat) (v : Rat) : State :=
  let c := clampTo (s.domLimit d) v
  let s := (s.modDom d fun x => { x with integ := c.1 }).wr (domPage d + 0x88) (BitVec.ofInt 32 (roundEven c.1))
  if c.2 then s.raise (domPage d) DOM.err_FREQ_LIMIT else s

/-- The first-sample rule begins again, and LOCKED is cleared (R328, R329). -/
def State.domAfresh (s : State) (d : Nat) : State :=
  (s.modDom d fun x => { x with lastUsed := none, good := 0, bad := 0 }).domLock d false

/-- 1 ns in the units of D. -/
def nsUnit : Nat := 2 ^ 48

/-- The servo steps a domain by −θ (R328, step 2). -/
def State.domStepBy (s : State) (d : Nat) (θ : Int) : State :=
  let old := (s.dom d).d
  let new := domAdd old (-θ)
  let s := s.modDom d fun x => { x with d := new }
  let s := (s.addSat (domPage d) DOM.STEPS 1).post (domPage d) DOM.st_STEPPED
  (s.domAfresh d).domJournal d old new

/-- The used sample is shown and counted. -/
def State.domUsed (s : State) (d : Nat) (o : Offset) : State :=
  let p := domPage d
  let ns := satSigned 32 (o.θ / (nsUnit : Int))
  let s := (s.wr (p + 0x8c) (BitVec.ofInt 32 ns)).wr (p + 0x90) (BitVec.ofNat 32 ((o.θ / (2 ^ 32 : Nat)) % (2 ^ 16 : Nat)).toNat)
  let s := (s.addSat p DOM.SAMPLES 1).post p DOM.st_SAMPLE
  let s := s.setBit p DOM.live_STALE false
  s.modDom d fun x => { x with freshAt := s.now, lastHost := if o.host then some o.time else x.lastHost }

/-- Counts a used sample towards LOCKED (R329). -/
def State.domJudge (s : State) (d : Nat) (θ : Int) : State :=
  let within := decide (θ.natAbs ≤ s.fld (domPage d) DOM.LIMITS_LOCK_NS * nsUnit)
  let s := s.modDom d fun x => if within then { x with good := x.good + 1, bad := 0 } else { x with good := 0, bad := x.bad + 1 }
  if within && decide (4 ≤ (s.dom d).good) then s.domLock d true
  else if !within && decide (2 ≤ (s.dom d).bad) then s.domLock d false else s

/-- The servo acts on the pending sample (R328). While EN is 0 its state stands, the sample too (R321). -/
def State.servo (s : State) (d : Nat) : State :=
  let p := domPage d
  match (s.dom d).pending with
  | none => s
  | some o =>
    if !s.domEn d then s
    else
    let s := s.modDom d fun x => { x with pending := none }
    if !s.servoes || s.domSrc d == 0 || (s.domSrc d == 1) != o.host then s
    else
      let limit := (s.rd (p + 0x50)).toNat
      let beyond := limit != 0 && decide (limit * nsUnit < o.θ.natAbs)
      let last := (s.dom d).lastUsed
      let s := s.domUsed d o
      if beyond then
        let s := s.domStepBy d o.θ
        if last.isNone then s.modDom d fun x => { x with lastUsed := some o.time } else s
      else
        match last with
        | none => (s.modDom d fun x => { x with lastUsed := some o.time }).domJudge d o.θ
        | some t =>
          let τ := dt o.time t
          let s := (s.modDom d fun x => { x with lastUsed := some o.time }).domJudge d o.θ
          if τ ≤ 0 then s
          else
            -- θ over τ in units of 2^-40: θ in 2^-48 ns, τ in su, 2^-10 ns each
            let u : Rat := 4 * (o.θ : Rat) / (τ : Rat)
            let kp : Rat := (s.fld p DOM.KP_GAIN : Rat) / 65536
            let ki : Rat := (s.fld p DOM.KI_GAIN : Rat) / 65536
            let s := s.setInteg d ((s.dom d).integ + ki * u)
            s.setY d (-(kp * u + (s.dom d).integ))

/-- No sample has been used for the stale time (R330). -/
def State.domStale (s : State) (d : Nat) : State :=
  let p := domPage d
  let wait := if s.domSrc d = 1 then 2000000000 * 1024 else 2 * (s.rd (p + 0x74)).toNat * 1024
  if !s.live || !s.servoes || !s.domEn d || s.domSrc d == 0 || s.bit p DOM.live_STALE || decide (dt s.now (s.dom d).freshAt < (wait : Int)) then s
  else ((s.setBit p DOM.live_STALE true).setY d (-(s.dom d).integ)).domLock d false

/-! Sets and applied writes (R321, R331, Table 10-1) -/

/-- A sample that is discarded. -/
def State.dropPending (s : State) (d : Nat) : State :=
  if (s.dom d).pending.isSome then ((s.modDom d fun x => { x with pending := none }).raise (domPage d) DOM.err_OFS_STALE).unitEvent (domPage d) else s

/-- A requested set takes effect. -/
def State.setNow (s : State) (d : Nat) : State :=
  let p := domPage d
  if s.bit p DOM.SET_CTRL_GO then
    let old := (s.dom d).d
    let new := (s.rd (p + 0x54)).toNat * nsUnit + s.fld p DOM.SET_CTRL_FRAC * 2 ^ 32
    let s := ((s.setBit p DOM.SET_CTRL_GO false).dropPending d).modDom d fun x => { x with d := new }
    ((s.domAfresh d).post p DOM.st_SET_DONE).domJournal d old new
  else s

/-- Applies some pending registers of a domain's page. -/
def State.domApply (s : State) (d : Nat) (pick : Nat → Bool) : State :=
  ((s.pendingOf (domPage d)).filter fun a => pick (a - domPage d)).foldl (fun s a =>
    match s.shadow a, regAt a with
    | some v, some row => (s.setShadow a none).applyValue (domPage d) (a - domPage d) row v
    | _, _ => s) s

/-- The values that a domain's pending registers take at a tick, in offset order; the ACTIVE already in force applies nothing (R335). -/
def State.domPending (s : State) (d : Nat) : List (Nat × Dword) :=
  (s.pendingOf (domPage d)).filterMap fun a =>
    match s.shadow a, regAt a with
    | some v, some row =>
      let w := merge row.rwb (s.rd a) v
      if a = domPage 0 + 0x7c ∧ w = s.rd a then none else some (a, w)
    | _, _ => none

/-- The limits hold y and I, and a domain without a source takes FREQ_SET (R322, R324). A part in holdover keeps its rate (R338). -/
def State.domRate (s : State) (d : Nat) : State :=
  if s.isMember || s.holdover then s
  else
    let s := s.setInteg d (s.dom d).integ
    if s.domEn d && s.domSrc d == 0 then s.setY d (signed 32 (s.rd (domPage d + 0x80)).toNat : Rat) else s.setY d (s.domY d)

/-- What follows from writes that have just applied; `ctrl` is the value of CTRL before, and `rate` tells whether CTRL, LIMITS or FREQ_SET is
among them. A domain without a source is not STALE; between sources STALE stays until a sample is used (R330). -/
def State.domSettle (s : State) (d : Nat) (ctrl : Dword) (rate : Bool) : State :=
  let en := getBits ctrl 0 1 == 1
  let s := if s.domEn d && !en then (s.modDom d fun x => { x with lastUsed := none, freshAt := s.now }) else s
  let s := if getBits ctrl 1 2 ≠ s.domSrc d then
      let s := s.domAfresh d
      if s.domSrc d = 0 then s.setBit (domPage d) DOM.live_STALE false else s
    else s
  (if rate then s.domRate d else s).showDoms

/-- DTIME has moved by `Δ` without passing: what counts the time since a sample and since a pulse moves with it (R326, R330). -/
def State.shiftDoms (s : State) (Δ : DTime) : State :=
  let s := s.forEach bothDoms fun d s => s.modDom d fun x => { x with freshAt := x.freshAt + Δ }
  s.forEach (List.range 4) fun i s => { s with pps := Tab.set (fun _ => none) s.pps i ((Tab.get (fun _ => none) s.pps i).map (· + Δ)) }

/-! Members join and leave (R336) -/

/-- A part becomes a member: pending samples, sets and changes of SRC, of gains and of ACTIVE have no effect on one, and are discarded as writes of them
are (R336; DEDUCED, assumption 59). -/
def State.joinDom (s : State) (d : Nat) : State :=
  let p := domPage d
  let s := (s.dropPending d).setBit p DOM.SET_CTRL_GO false
  let s := ([0x44, 0x48, 0x58, 0x7c].filter fun o => (s.shadow (p + o)).isSome).foldl (fun s o =>
    match s.shadow (p + o) with
    | some v => ((s.setShadow (p + o) none).raise p DOM.err_NOT_SERVO).entry .apply .internal (p + o) .refused v.toNat
    | none => s) s
  match s.shadow (p + 0x40) with
  | some v => s.setShadow (p + 0x40) (some (setBits v 1 2 (s.domSrc d)))
  | none => s

/-- The part has become a member, or has ceased to be one (R324, R336). -/
def State.memberDoms (s : State) (was : Bool) : State :=
  if s.isMember == was then s
  else (s.forEach bothDoms fun d s => if was then s.domRate d else s.joinDom d).showDoms

/-- The active domain changes (R335). -/
def State.activeTo (s : State) (b : Bool) : State :=
  if s.bit (domPage 0) DOM.ACTIVE_B == b then s
  else (((s.setBit (domPage 0) DOM.ACTIVE_B b).post (domPage 0) DOM.st_SWITCHED).unitEvent (domPage 0)).showDoms

/-! Map records (R332, Table 8-8) -/

/-- A domain's continuation. -/
def State.mapCont (s : State) (d : Nat) : Cont :=
  let x := (s.dom d).d
  ⟨(if d = 0 then 2 ^ 17 * b2n s.coarse + 2 ^ 16 * b2n s.holdover else 0) + 2 ^ 15 * b2n (s.bit (domPage d) DOM.live_VALID)
    + 2 ^ 14 * b2n (s.bit (domPage d) DOM.live_LOCKED) + domNs x / 2 ^ 20, domNs x / 4, domNs x % 4 * 2 ^ 16 + domFrac x⟩

/-- Region `n` writes map records: from START until the run leaves STOPPING, and in FAULT while it goes on recording (R45, R332). -/
def State.maps (s : State) (n : Nat) : Bool :=
  bitOf (s.fld (domPage 0) DOM.MAP_EN_REGIONS) n && (s.runState.going || (s.runState == .fault && s.capturing n))

def State.mapRecords (s : State) : State :=
  s.forEach ((List.range 8).filter fun n => s.maps n) fun n s =>
    s.unitGroup n 0xb 121 (s.bit (domPage 0) DOM.ACTIVE_B) s.now [s.mapCont 0, s.mapCont 1]

/-- Multiples of 1,000,000 ns that DTIME has passed. -/
def ticksOf (t : DTime) : Nat := t.toNat / 1024000000

/-- A map tick in the order of Table 10-1 (R323); the entries of what applied follow in offset order (R397). -/
def State.mapTick (s : State) : State :=
  if !s.live || !s.bit tbPage TB.live_STARTED || decide (ticksOf s.now ≤ s.mapTicks) then s
  else
    let applied := s.domPending 0 ++ s.domPending 1
    let s := { s with mapTicks := ticksOf s.now }
    let s := s.forEach bothDoms fun d s =>
      if s.domEn d then
        if s.bit (domPage d) DOM.SET_CTRL_GO || (s.shadow (domPage d + 0x58)).any (fun v => getBits v 31 1 == 1) then
          (s.domApply d fun o => o == 0x54 || o == 0x58).setNow d
        else s
      else s
    let s := s.forEach bothDoms fun d s =>
      let c := s.rd (domPage d + 0x40)
      let rate := [0x40, 0x4c, 0x80].any fun o => (s.shadow (domPage d + o)).isSome
      (s.domApply d fun o => o != 0x7c).domSettle d c rate
    let s := s.forEach bothDoms fun d s => s.servo d
    let s :=
      match s.shadow (domPage 0 + 0x7c) with
      | some v =>
        let s := s.setShadow (domPage 0 + 0x7c) none
        if s.bit (domPage 0) DOM.ACTIVE_B == (getBits v 0 1 == 1) then s
        else ((s.activeTo (getBits v 0 1 == 1)).addWrap (domPage 0) PG.APPLY_APPLIES 1).post (domPage 0) PG.st_APPLIED
      | none => s
    (applied.foldl (fun s x => s.entry .apply .internal x.1 .done x.2.toNat) s).showDoms.mapRecords

/-! Samples (R325 to R327) -/

/-- The write of OFS_AT_HI has stored `OFS_AT`: the sample is submitted. -/
def State.submit (s : State) (d : Nat) (a : Agent) : State :=
  let p := domPage d
  let v := (s.rd (p + 0x68)).toNat
  if s.domSrc d ≠ 1 then (s.raiseWrite p DOM.err_SRC_REJECT 0x68 a).entry .write a (p + 0x68) .refused v
  else
    let at_ : DTime := BitVec.ofNat 64 (s.pair p DOM.OFS_AT_LO)
    if (s.dom d).lastHost.any (fun t => decide (dt at_ t ≤ 0)) || decide (0 < dt at_ s.now) then
      (s.raiseWrite p DOM.err_OFS_STALE 0x68 a).entry .write a (p + 0x68) .refused v
    else
      let s := s.dropPending d
      let θ : Int := signed 32 (s.rd (p + 0x5c)).toNat * (nsUnit : Int) + (s.fld p DOM.OFS_FRAC_FRAC * 2 ^ 32 : Nat)
      s.modDom d fun x => { x with pending := some ⟨θ, at_, true⟩ }

/-- The whole periods nearest to an offset, the smaller on a tie. -/
def nearestPeriods (θ0 : Int) (period : Nat) : Int :=
  if period = 0 then 0 else -(((period : Int) - 2 * θ0) / (2 * (period : Int)))

/-- A pulse stamped `t` forms a sample (R327). -/
def State.ppsSample (s : State) (d : Nat) (t : DTime) : State :=
  let p := domPage d
  let at_ := domAdd (s.dom d).d (domStep (dt t s.now) (s.domY d))
  let expect : Nat := (s.rd (p + 0x6c)).toNat * nsUnit + s.fld p DOM.EXPECT_FRAC_FRAC * 2 ^ 32
  let θ0 := signed 80 (domAdd at_ (-(expect : Int)))
  let period := (s.rd (p + 0x74)).toNat
  let k := nearestPeriods θ0 (period * nsUnit)
  let θ := θ0 - k * ((period * nsUnit : Nat) : Int)
  let s := if 0 < k then s.addSat p DOM.PPS_MISSED k.toNat else s
  let win := (s.rd (p + 0x78)).toNat
  let s := if win ≠ 0 ∧ win * nsUnit < θ.natAbs then (s.addSat p DOM.PPS_REJECTS 1).raise p DOM.err_PPS_REJECT
    else s.modDom d fun x => { x with pending := some ⟨θ, t, false⟩ }
  s.wr (p + 0x6c) (BitVec.ofInt 32 (((s.rd (p + 0x6c)).toNat : Int) + (k + 1) * (period : Int)))

/-- An edge on PPS input `i`, `fine` su into this cycle, as domain `d` takes it (R326). -/
def State.ppsTake (s : State) (d i : Nat) (rising : Bool) (fine : Nat) : State :=
  let p := domPage d
  if s.domSrc d ≠ 2 + i ∨ rising = s.bit p DOM.CTRL_PPS_POL then s
  else
    let t := s.now + BitVec.ofNat 64 fine
    let last := Tab.get (fun _ => none) s.pps (2 * d + i)
    let early := last.any fun l => decide (2 * dt t l < (((s.rd (p + 0x74)).toNat * 1024 : Nat) : Int))
    if early then s.addSat p DOM.PPS_REJECTS 1
    else
      let s := ({ s with pps := Tab.set (fun _ => none) s.pps (2 * d + i) (some t) }).setPair p DOM.PPS_AT_LO t.toNat
      if s.servoes && s.domEn d then s.ppsSample d t else s

def State.ppsEdge (s : State) (i : Nat) (rising : Bool) (fine : Nat) : State :=
  if !s.live || s.coarse || s.inCluster || !s.bit tbPage TB.live_STARTED then s
  else s.forEach bothDoms fun d s => s.ppsTake d i rising fine

/-- SNAP (R339). -/
def State.snap (s : State) (d : Nat) : State :=
  let p := domPage d
  let x := (s.dom d).d
  ((s.wr (p + 0x98) (BitVec.ofNat 32 (domNs x))).wr (p + 0x9c) (BitVec.ofNat 32 (domFrac x))).setPair p DOM.SNAP_AT_LO s.now.toNat

/-! Members (R337, R338) -/

/-- Word 4 or 5 of a waggle that leaves at `f` (Table 10-3). -/
def State.domWord (s : State) (d : Nat) (f : DTime) : BitVec 64 :=
  let x := if s.domEn d then domAdd (s.dom d).d (domStep (dt f s.now) (s.domY d)) else (s.dom d).d
  BitVec.ofNat 64 (domNs x + 2 ^ 32 * domFrac x + 2 ^ 48 * b2n (s.bit (domPage d) DOM.live_VALID)
    + 2 ^ 49 * b2n (s.bit (domPage d) DOM.live_LOCKED && !s.holdover))

/-- The slope of the carried values over the waggles kept, minus 1, in 2^-40; R322 limits it as any y. -/
def carriedSlope (l : List (DTime × Nat)) : Int :=
  match l, l.getLast? with
  | (t, x) :: _, some (t0, x0) =>
    let Δ := dt t t0
    if Δ ≤ 0 then 0 else roundEven ((((signed 48 (x + 2 ^ 48 - x0) : Int) : Rat) * 2 ^ 34 / (Δ : Rat)) - 2 ^ 40)
  | _, _ => 0

/-- A waggle carries `w` for domain `d`, taken at `f` (R337). -/
def State.carry (s : State) (d : Nat) (f : DTime) (w : BitVec 64) : State :=
  let v := w.toNat % 2 ^ 48
  let v := v % 2 ^ 32 * 2 ^ 16 + v / 2 ^ 32
  let mapped := s.align == 2 || s.align == 3
  let s := s.modDom d fun x => { x with
    carried := ((f, v) :: x.carried).take 256, carriedValid := mapped && w.getLsbD 48, carriedLocked := mapped && w.getLsbD 49 }
  if mapped && s.domEn d then
    let was := s.bit (domPage d) DOM.live_VALID
    let old := (s.dom d).d
    let s := s.setY d (carriedSlope (s.dom d).carried : Rat)
    let new := domAdd (v * 2 ^ 32) (domStep (dt s.now f) (s.domY d))
    let s := s.modDom d fun x => { x with d := new }
    let s := (s.showDoms).domLock d (w.getLsbD 49)
    if was then s else s.domJournal d old new
  else s.showDoms

end Sys2Proof.Machine
end

