-- ==== Sys2Proof/Machine/Join.lean ====
section
/-! DEFINITION. Joining and losing links: HELLO and its checks, ordinals, held and quarantined links, loss of the upstream, holdover, roles
(R277 to R280, R283, R287 to R291, R305 to R311, R466). -/
namespace Sys2Proof.Machine
open Sys2Proof

/-! What the part shows of its place in the swarm -/

/-- SWARM.STATE.MEMBER: PENDING stays until the next ARM (R290); the end of a link that is joined or dormant is JOINED (R288, R311). -/
def State.memberState (s : State) : Nat :=
  let up := fun (v : Nat) => (List.range 4).any fun p => (s.linkRole p == 1 || s.linkRole p == 2) && s.lstate p == v
  if s.isQueen then 0
  else if s.upValid && (s.lstate s.upPort == lJoined || s.lstate s.upPort == lDormant) then (if s.fld swarmPage SWARM.STATE_MEMBER = 3 then 3 else 2)
  else if up lJoining then 1
  else if up lQuarantined then 4
  else 0

/-- The active upstream port, or the UP port of a part that has not joined, supplies a recovered reference (R60, R278). -/
def State.upref (s : State) : Bool :=
  (List.range 4).any fun p => s.bit (linkPage p) LINK.CTRL_EN && (if s.upValid then s.upPort == p else s.linkRole p == 1) && decide (lUp ≤ s.lstate p)

/-- Shows whether the part is a swarm member, how far it has joined, and whether its upstream supplies a reference. -/
def State.showMember (s : State) : State :=
  let t := s.setFld swarmPage SWARM.STATE_MEMBER s.memberState
  let t := t.setBit chipPage CHIP.live_MEMBER (s.upValid && s.lstate s.upPort == lJoined && s.align != aHoldover && !s.isQueen)
  ((t.setBit tbPage TB.live_UPREF_PRESENT s.upref).tbStops s).memberDoms s.isMember

/-! Roles and ordinals (R277, R279, R288) -/

/-- The conditions under which roles, ordinal and epoch may change (R279). -/
def State.configOk (s : State) : Bool :=
  s.betweenRuns && !((List.range 4).any fun p => s.lstate p == lJoining || s.lstate p == lJoined || s.lstate p == lQuarantined)

/-- MEMBERS counts the ordinals taken, on a queen. -/
def State.showMembers (s : State) : State := s.setFld swarmPage SWARM.MEMBERS_COUNT (if s.isQueen then s.swarm.taken.length else 0)

/-- The queen frees an ordinal. -/
def State.freeOrdinal (s : State) (o : BitVec 11) : State :=
  if s.isQueen then (s.modSwarm fun w => { w with taken := w.taken.filter fun x => x != o }).showMembers else s

/-- The queen takes an ordinal, unless it is taken. -/
def State.takeOrdinal (s : State) (o : BitVec 11) : Bool × State :=
  if o = s.ordinal ∨ s.swarm.taken.contains o then (false, s)
  else (true, ((s.modSwarm fun w => { w with taken := w.taken ++ [o] }).showMembers).post swarmPage SWARM.st_MEMBER_JOINED)

/-- The part becomes, or ceases to be, the queen. -/
def State.setQueen (s : State) (b : Bool) : State :=
  if s.isQueen == b then s
  else
    let old := s
    let s := s.setBit swarmPage SWARM.STATE_QUEEN b
    let s := s.setAlign (if b then aQueen else aNone)
    let s := ((s.setFld swarmPage SWARM.STATE_DEPTH 0).setBit swarmPage SWARM.STATE_UP_VALID false).setFld swarmPage SWARM.STATE_MEMBER 0
    let s := s.setFld swarmPage SWARM.STATE_QUEEN_ORD (if b then s.ordinal.toNat else 0)
    let s := s.modSwarm fun w => { w with queenDie := none, taken := [], routes := [], reacquire := false }
    (((s.showMembers.showMember).tbStops old).forEach bothDoms fun d s => s.domRate d).showDoms

/-- The role that QUEEN_OVR and the strap give (R277). -/
def State.roleOf (s : State) : Bool :=
  match s.fld swarmPage SWARM.CTRL_QUEEN_OVR with
  | 0 => !s.bit swarmPage SWARM.STATE_STRAP
  | 1 => true
  | _ => false

/-- A role that the filtered level of QUEEN_N gives is applied where the conditions of R279 hold, and waits while they do not (R466). -/
def State.strapDue (s : State) : State :=
  if s.roleOf == s.isQueen || !s.configOk then s
  else (s.setQueen s.roleOf).entry .write .internal (swarmPage + 0x40) .done (s.rd (swarmPage + 0x40)).toNat

/-- QUEEN_N has a filtered level (R466). -/
def State.strap (s : State) (high : Bool) : State := (s.setBit swarmPage SWARM.STATE_STRAP high).strapDue

/-! Acquisition begins (R294) -/

/-- Step 1 of acquisition. -/
def State.beginAcquire (s : State) : State :=
  let left := s.align == aHoldover
  let s := s.setAlign aAcquiring
  let s := s.modSwarm fun w => { w with dCount := 0, errs := [], stepped := false, filtered := 0, slewed := 0, within := 0, reacquire := w.reacquire || left }
  let s := s.forEach bothDoms fun d s => s.modDom d fun x => { x with carriedValid := false }
  (s.wr (swarmPage + 0x50) 0).showMember.showDoms

/-- Acquisition begins where its conditions hold (R294). -/
def State.tryAcquire (s : State) : State :=
  if s.upValid && s.lstate s.upPort == lJoined && s.bit tbPage TB.CTRL_REFSEL && s.bit tbPage TB.live_LOCKED && !s.isQueen && !s.swarm.woke
  then s.beginAcquire else s

/-! HELLO (R287) -/

/-- CHIP.DIE_ID. -/
def State.die (s : State) : BitVec 64 := BitVec.ofNat 64 (s.pair chipPage CHIP.DIE_ID_LO)

/-- The part is joined to a swarm through its active upstream. -/
def State.joined (s : State) : Bool := s.upValid && s.lstate s.upPort == lJoined

/-- Die identifier of the queen that the part is or follows, if it knows one. -/
def State.ownQueen (s : State) : Option (BitVec 64) := if s.isQueen then some s.die else if s.joined then s.swarm.queenDie else none

/-- The HELLO of port `p`. -/
def State.hello (s : State) (p : Nat) : Hello where
  role := BitVec.ofNat 2 (s.effRole p)
  queen := s.isQueen
  link := BitVec.ofNat 3 (s.lstate p)
  upElsewhere := s.joined && s.upPort != p
  ordinal := s.ordinal
  depth := BitVec.ofNat 4 (s.fld swarmPage SWARM.STATE_DEPTH)
  stepping := BitVec.ofNat 8 (s.fld chipPage CHIP.REVISION_STEPPING)
  layout := BitVec.ofNat 8 (s.fld chipPage CHIP.REVISION_LAYOUT)
  digest := if s.run.imageHeld then BitVec.ofNat 64 (s.pair chipPage CHIP.IMG_DIGEST_LO) else 0
  epoch := BitVec.ofNat 16 (s.fld swarmPage SWARM.EPOCH_VALUE)
  capability := BitVec.ofNat 8 (s.fld swarmPage SWARM.CAPABILITY_CODE)
  queenDie := s.ownQueen
  queenOrd := if s.isQueen then s.ordinal else BitVec.ofNat 11 (s.fld swarmPage SWARM.STATE_QUEEN_ORD)

/-- A trained port sends HELLO. -/
def State.helloSend (s : State) (p : Nat) : State :=
  if !s.live || s.inCluster || decide (s.lstate p < lUp) then s else s.sendTiming p (.hello (s.hello p))

/-- A link trains (R287). -/
def State.linkTrained (s : State) (p : Nat) : State :=
  if !s.live || s.asleep || !s.bit (linkPage p) LINK.CTRL_EN || s.linkRole p == 0 || (s.lstate p != lTraining && s.lstate p != lDormant) then s
  else
    let s := if s.lstate p = lTraining then s.setLstate p lUp else s
    let s := (s.setFld (linkPage p) LINK.STATE_LANES 3).post (linkPage p) LINK.st_LINK_UP
    ((s.noteProgress p false).drain p (s.link p).waiting.length).showMember

/-! Losing links (R283, R305 to R309) -/

/-- Holdover begins (R306, R307): the loss came on port `p`; `detected` tells whether this part detected it. -/
def State.enterHoldover (s : State) (p : Nat) (detected : Bool) : State :=
  if s.align = aHoldover ∨ s.isQueen then s
  else
    let s := (s.setAlign aHoldover).setPair swarmPage SWARM.HOLD_AT_LO s.now.toNat
    let s := s.modSwarm fun w => { w with woke := false }
    let s := (s.post swarmPage SWARM.st_HOLDOVER_SET).raise swarmPage SWARM.err_QUEEN_LOST
    let s := (s.showMember).raiseEvent 4 (p + 4 * b2n detected)
    let s := s.chipFault 4 p 0 false
    (s.forEach bothDoms fun d s => s.domLock d false).showDoms

/-- The active upstream on port `p` is lost (R306). -/
def State.loseUpstream (s : State) (p : Nat) : State :=
  match (List.range 4).find? fun q => q != p && (s.linkRole q == 1 || s.linkRole q == 2) && s.lstate q == lJoined with
  | some q =>
    let s := s.setFld swarmPage SWARM.STATE_UPPORT q
    let s := s.setFld swarmPage SWARM.STATE_DEPTH (s.fld (linkPage q) LINK.PEER_DEPTH + 1)
    ((s.showMember).raiseEvent 6 (p + 4 * q)).post swarmPage SWARM.st_UPSTREAM_SWITCH
  | none =>
    ((s.setBit swarmPage SWARM.STATE_UP_VALID false).enterHoldover p true).showMember

/-- Port `p` no longer leads to the queen: as the active upstream of a joined part it is lost, one that was not joined is one no more (R306). -/
def State.upstreamGone (s : State) (p : Nat) (joined : Bool) : State :=
  if !s.isUp p then s.showMember
  else if joined then s.loseUpstream p
  else (s.setBit swarmPage SWARM.STATE_UP_VALID false).showMember

/-- Lent lines on their way are lost with the link (R313). -/
def State.loseLines (s : State) (p : Nat) (l : List Payload) : State :=
  l.foldl (fun s x =>
    match x with
    | .lentLine bank _ r0 r1 =>
      match (List.range 8).find? fun n => s.remote n && s.fld swarmPage (remotePort n) == p && decide (s.fld swarmPage (remoteFirst n) ≤ bank.toNat)
        && decide (bank.toNat < s.fld swarmPage (remoteFirst n) + s.fld swarmPage (remoteCount n)) with
      | some n => [r0, r1].foldl (fun s r => if r = Rec.pad then s else s.lose n 2 (lossKind (r.w0.toNat / 2 ^ 14)) (104 + n) 1) s
      | none => s
    | _ => s) s

/-- Requests for lent banks that were on their way through port `p` are made again (R313). -/
def State.reask (s : State) (p : Nat) : State :=
  s.forEach allRegions fun n s =>
    let x := Tab.get (fun _ => Remote.init) s.remotes n
    if x.asked.isSome && s.fld swarmPage (remotePort n) == p then
      s.setRem n { x with refused := some (x.refused.getD s.time.tclk) }
    else s

/-- The ordinal behind port `p` is lost to the swarm (R288, R305). -/
def State.loseMember (s : State) (p : Nat) : State :=
  match (s.link p).counted with
  | some o => ((s.modLink p fun l => { l with counted := none }).raiseEvent 3 (o.toNat + 2 ^ 11 * p)).freeOrdinal o
  | none => s

/-- The link of port `p` goes down, to TRAINING or DOWN (R283, R285, R316). -/
def State.linkGone (s : State) (p next : Nat) : State :=
  let was := s.lstate p
  let l := s.link p
  let s := (((s.setLstate p next).setFld (linkPage p) LINK.STATE_LANES 0).setFld (linkPage p) LINK.STATE_QCAUSE 0).addSat (linkPage p) LINK.DOWNS 1
  let s := s.post (linkPage p) LINK.st_LINK_DOWN
  let s := s.setLink p { l with tx := 0, rx := 0xfff, unacked := [], waiting := [], ackDue := none, aUp := none }
  let s := s.noteProgress p false
  let s := s.loseLines p (l.unacked.map (·.frame.payload) ++ l.waiting.map (·.payload)) |>.reask p
  let s := s.loseMember p
  s.upstreamGone p (was == lJoined)

/-- A receiver declares its link down; a dormant link falls silent without a loss (R283, R309). -/
def State.linkDown (s : State) (p : Nat) : State :=
  if !s.live || s.asleep || decide (s.lstate p < lUp) || s.lstate p == lDormant then s else s.linkGone p lTraining

/-- The oldest unacknowledged frame has waited R_t + 2 µs (R285). -/
def State.retryExhausted (s : State) (p : Nat) : State :=
  match (s.link p).unacked with
  | [] => s
  | u :: _ =>
    if !s.live || s.inCluster || decide (s.lstate p < lUp) || decide (s.elapsed u.first < s.roundTrip p + 2000 * 1024) then s
    else (s.raise (linkPage p) LINK.err_RETRY_EXHAUSTED).linkGone p lTraining

/-! Commands in progress on a port that no longer carries them (R299) -/

/-- The ports that owe a reply, without `p`, which counts as not reached. -/
def CmdRun.unreach (r : CmdRun) (p : Nat) : CmdRun :=
  if r.waits.any fun w => w.port == p then
    { r with waits := r.waits.filter fun w => w.port != p, reply := { r.reply with notReached := r.reply.notReached + 1 } }
  else r

def State.unreach (s : State) (p : Nat) : State := s.modSwarm fun w => { w with runs := w.runs.map fun r => r.unreach p }

/-! Judging the far end (R287 to R291) -/

/-- The first check of Table 9-4 that the far end fails. -/
def State.judgeHello (s : State) (h : Hello) : Option Nat :=
  let own := s.hello 0
  if h.stepping ≠ own.stepping then some 1
  else if h.layout ≠ own.layout then some 2
  else if h.epoch ≠ own.epoch then some 3
  else if h.capability ≠ own.capability then some 4
  else if (h.role ≠ 1 ∧ h.role ≠ 2) ∨ (h.upElsewhere ∧ h.role ≠ 2) then some 5
  else if 8 < own.depth.toNat + 1 then some 6
  else if h.digest ≠ 0 ∧ own.digest ≠ 0 ∧ h.digest ≠ own.digest then some 7
  else if !h.queen && !s.isQueen && h.queenDie.isSome && s.ownQueen.isSome && h.queenDie != s.ownQueen then some 8
  else none

/-- The link shows two queens (R291). -/
def State.twoQueens (s : State) (h : Hello) : Bool :=
  (s.isQueen && h.queen) || ((s.isQueen || h.queen) && h.queenDie.isSome && s.ownQueen.isSome && h.queenDie != s.ownQueen)

/-- The link of port `p` is quarantined (R289). -/
def State.quarantine (s : State) (p cause : Nat) : State :=
  if s.lstate p = lQuarantined ∧ s.fld (linkPage p) LINK.STATE_QCAUSE = cause then s
  else
    let s := (s.setLstate p lQuarantined).setFld (linkPage p) LINK.STATE_QCAUSE cause
    let s := ((s.unreach p).post (linkPage p) LINK.st_QUARANTINE).unitEvent (linkPage p)
    s.raiseEvent 2 (cause + 16 * p)

/-- The link of port `p` is held (R291). -/
def State.hold (s : State) (p : Nat) : State :=
  if s.lstate p = lHeld then s
  else
    let joined := s.lstate p == lJoined
    let s := ((s.setLstate p lHeld).setFld (linkPage p) LINK.STATE_QCAUSE 0).unreach p
    let s := (s.raise (linkPage p) LINK.err_DUAL_QUEEN).raise swarmPage SWARM.err_DUAL_QUEEN
    let s := s.raiseEvent 7 p
    s.upstreamGone p joined

/-- A link becomes JOINED. -/
def State.linkJoined (s : State) (p : Nat) : State :=
  let s := ((s.setLstate p lJoined).setFld (linkPage p) LINK.STATE_QCAUSE 0).post (linkPage p) LINK.st_JOIN_DONE
  s.modLink p fun l => { l with joinedOnce := true }

/-- The queen's answer reaches the DOWN end of the joining link (R288). A link that has ceased to be JOINING does not become JOINED: one that is still
up keeps the ordinal that the queen has taken, and one that is down loses it, with MEMBER_LOST (DEDUCED, assumption 84). -/
def State.joinDone (s : State) (p : Nat) (ordinal : BitVec 11) (ok engaged : Bool) : State :=
  if s.lstate p = lJoining ∨ s.lstate p = lJoined then
    if ok then
      let s := if s.lstate p = lJoined then s else s.linkJoined p
      (s.modLink p fun l => { l with counted := some ordinal }).sendReliable p s.ordinal 0 (.joinReply ordinal true engaged)
    else (s.sendReliable p s.ordinal 0 (.joinReply ordinal false false)).quarantine p 9
  else if ok then
    let s := s.modLink p fun l => { l with counted := some ordinal }
    if s.lstate p < lUp then s.loseMember p else s
  else s

/-- The queen's run has begun (R290). -/
def State.engaged (s : State) : Bool :=
  match s.runState with
  | .armed | .running | .stopping => true
  | _ => false

/-- The DOWN end asks the queen for the ordinal behind port `p` (R288). -/
def State.requestJoin (s : State) (p : Nat) (ordinal : BitVec 11) : State :=
  let s := if s.lstate p = lJoined then s else (s.setLstate p lJoining).setFld (linkPage p) LINK.STATE_QCAUSE 0
  if s.isQueen then
    match s.takeOrdinal ordinal with
    | (ok, s) => s.joinDone p ordinal ok s.engaged
  else
    let s := s.modSwarm fun w => { w with routes := (w.routes.filter fun x => x.1 != ordinal) ++ [(ordinal, p)] }
    s.sendReliable s.upPort s.ordinal 0 (.join ordinal s.ordinal)

/-- The DOWN end of port `p` judges a HELLO. -/
def State.helloDown (s : State) (p : Nat) (h : Hello) : State :=
  if !(s.isQueen || s.joined) then (if s.lstate p = lDormant then s.setLstate p lUp else s)
  else
    match s.judgeHello h with
    | some c => s.quarantine p c
    | none =>
      if h.role = 1 then
        if s.lstate p = lJoining then s
        else if (s.link p).counted = some h.ordinal then (if s.lstate p = lJoined then s else s.linkJoined p)
        else s.requestJoin p h.ordinal
      else if s.lstate p = lJoined then s else s.linkJoined p

/-- The upper end's view makes an upstream link JOINED: the part acquires, unless it compares a first waggle after its wake (R288, R310). -/
def State.upJoined (s : State) (p : Nat) (h : Hello) : State :=
  let s := s.linkJoined p
  if s.upValid && s.upPort != p && s.lstate s.upPort == lJoined then s
  else if s.linkRole p = 2 ∧ !s.isUp p then s
  else
    let s := (s.setBit swarmPage SWARM.STATE_UP_VALID true).setFld swarmPage SWARM.STATE_UPPORT p
    let s := (s.setFld swarmPage SWARM.STATE_DEPTH (h.depth.toNat + 1)).setFld swarmPage SWARM.STATE_QUEEN_ORD h.queenOrd.toNat
    let s := s.modSwarm fun w => { w with queenDie := h.queenDie, joinDue := !w.woke }
    (s.showMember).tryAcquire

/-- The upstream end of port `p` takes the link's state from the far end's HELLO. -/
def State.helloUp (s : State) (p : Nat) (h : Hello) : State :=
  let st := s.lstate p
  let s :=
    match h.link.toNat with
    | 2 => if st = lQuarantined ∨ st = lHeld ∨ st = lDormant then s.setLstate p lUp else s
    | 3 => if st = lJoined then s else s.setLstate p lJoining
    | 4 => if st = lJoined then s else s.upJoined p h
    | 5 => if st = lQuarantined then s else s.setLstate p lQuarantined
    | _ => s
  let s := if s.isUp p && s.lstate p == lJoined then (s.setFld swarmPage SWARM.STATE_DEPTH (h.depth.toNat + 1)).modSwarm fun w => { w with queenDie := h.queenDie } else s
  s.showMember

/-- A HELLO arrives (R287 to R291). -/
def State.helloRx (s : State) (p : Nat) (hd : Head) (h : Hello) : State :=
  if !s.live || s.inCluster || decide (s.lstate p < lUp) then s
  else if !hd.good || !hd.known then s.badFrame p hd false
  else
    let s := s.takeAck p hd.ack
    let s := ((s.setFld (linkPage p) LINK.STATE_PEER_ROLE h.role.toNat).setBit (linkPage p) LINK.STATE_PEER_QUEEN h.queen).wr (linkPage p + 0x4c)
      (BitVec.ofNat 32 (h.ordinal.toNat + 2 ^ 11 * h.depth.toNat))
    let s := s.modLink p fun l => { l with peer := some h }
    if s.twoQueens h then s.hold p
    else
      let s := if s.lstate p = lHeld then s.setLstate p lUp else s
      let s := match s.linkRole p with
        | 3 => s.helloDown p h
        | 0 => s
        | _ => s.helloUp p h
      -- what waited while the link was quarantined or held goes out (R285)
      s.drain p (s.link p).waiting.length

/-- A JOIN arrives from below: the queen answers it, another part passes it on (R288). -/
def State.joinRx (s : State) (p : Nat) (hd : Head) (ordinal parent : BitVec 11) : State :=
  s.receive p hd true false false fun s =>
    if !s.activeDown p then s
    else if s.isQueen then
      match s.takeOrdinal ordinal with
      | (ok, s) => s.sendReliable p s.ordinal 0 (.joinReply ordinal ok (ok && s.engaged))
    else
      let s := s.modSwarm fun w => { w with routes := (w.routes.filter fun x => x.1 != ordinal) ++ [(ordinal, p)] }
      if s.joined then s.sendReliable s.upPort hd.origin (hd.hops + 1) (.join ordinal parent) else s

/-- A JOIN_REPLY arrives from above: at the joining part, at its parent, or on the way. A part that is joined there has its own ordinal; a
reply with that number answers one below it that asked for the same (R288). -/
def State.joinReplyRx (s : State) (p : Nat) (hd : Head) (ordinal : BitVec 11) (ok engaged : Bool) : State :=
  s.receive p hd true false false fun s =>
    if s.linkRole p = 3 ∨ s.linkRole p = 0 then s
    else if ordinal = s.ordinal ∧ (s.lstate p ≠ lJoined ∨ !s.swarm.routes.any fun x => x.1 == ordinal) then
      if ok then
        let s := s.modSwarm fun w => { w with engaged := engaged }
        match (s.link p).peer with
        | some h => if s.lstate p = lJoined then s else s.upJoined p h
        | none => s
      else ((s.setLstate p lQuarantined).setFld (linkPage p) LINK.STATE_QCAUSE 9).showMember
    else
      match s.swarm.routes.find? fun x => x.1 == ordinal with
      | none => s
      | some (_, q) =>
        let s := s.modSwarm fun w => { w with routes := w.routes.filter fun x => x.1 != ordinal }
        if ((s.link q).peer.any fun h => h.ordinal == ordinal) && (s.link q).counted != some ordinal then s.joinDone q ordinal ok engaged
        else s.sendReliable q hd.origin (hd.hops + 1) (.joinReply ordinal ok engaged)

end Sys2Proof.Machine
end

