-- ==== Sys2Proof/Machine/Waggle.lean ====
section
/-! DEFINITION. Shared time: marks and waggles, the delay and the error of a member, acquisition, alignment, the wake step, and swarm events as
they arrive (R292 to R295, R306 to R311, R337). -/
namespace Sys2Proof.Machine
open Sys2Proof

/-- A port that carries waggles or marks: JOINED, and neither held in reset nor asleep. -/
def State.carries (s : State) (p : Nat) : Bool := s.live && !s.inCluster && s.lstate p == lJoined

/-- Waggles sent so far by a queen: one every 4.096 µs (R292). -/
def State.waggleCount (s : State) : BitVec 32 := if s.isQueen then BitVec.ofNat 32 (s.time.tclk / 4096) else s.swarm.waggleNo

/-- A_up of the far end's latest mark; a free value before any (Table 9-5). -/
def State.lastUp (s : State) (p : Nat) : BitVec 64 × State :=
  match (s.link p).aUp with
  | some a => (a, s)
  | none => (s.free, s.drawn)

/-- A parent sends a timing mark that leaves at `f`, and the WAGGLE after it (R292). At the queen its instant is the
boundary of the TB page, whether or not a port carries it (R397; DEDUCED, assumption 84). -/
def State.waggleSend (s : State) (p : Nat) (f : DTime) : State :=
  let s := if s.isQueen && s.live && !s.inCluster then s.applyTb else s
  if !s.carries p || s.linkRole p != 3 then s
  else
    match s.lastUp p with
    | (a, s) =>
      (s.sendMark p).sendTiming p (.waggle ⟨f, a, s.waggleCount, (s.hello p).queenOrd, BitVec.ofNat 8 (s.fld tbPage TB.EPOCH_VALUE),
        BitVec.ofNat 16 (s.fld swarmPage SWARM.EPOCH_VALUE), BitVec.ofNat 4 (s.fld swarmPage SWARM.STATE_DEPTH), s.holdover, s.coarse,
        s.bit (domPage 0) DOM.ACTIVE_B, s.domWord 0 f, s.domWord 1 f⟩)

/-- A child sends a timing mark that leaves at `f`, and the MARK after it (R292). -/
def State.markSend (s : State) (p : Nat) (f : DTime) : State :=
  if !s.carries p || s.linkRole p == 3 || s.linkRole p == 0 then s else (s.sendMark p).sendTiming p (.mark f)

/-- The fused correction of the asymmetry of a port's own transmit and receive paths; 0 where its fuse block failed (Tables 9-1 and 14-8, R425). -/
def State.linkCorrection (s : State) (p : Nat) : Int :=
  if s.power.badFuses.contains (Config.linkAsymmetryBlock p) then 0 else Config.linkAsymmetry p

/-- The arrival stamp of a mark of which the port's converter reads `a` (R292; that the fused correction enters here is DEDUCED, assumption 89). -/
def State.arrival (s : State) (p : Nat) (a : DTime) : DTime := a + BitVec.ofInt 64 (s.linkCorrection p)

/-- A parent stamps a child's mark, of which its converter reads `a` (R293). -/
def State.markRx (s : State) (p : Nat) (hd : Head) (a f : DTime) : State :=
  s.receive p hd false true false fun s => if s.linkRole p = 3 then s.modLink p fun l => { l with aUp := some (s.arrival p a - f) } else s

/-! DTIME steps (R52) -/

/-- DTIME steps to `t`, with its two journal entries. The wrap of R53 is the count's: a step that carries DTIME past its end, or back across
0, is none; what EPOCH becomes is R294's (DESIGN CHOICE, assumption 78). -/
def State.stepDtime (s : State) (cause : Nat) (t : DTime) (epoch : Nat) : State :=
  let s := s.journalAt s.now .dtimeStep .internal 0 (tbPage + 0x48) .before cause
  let s := (s.modTime fun x => { x with dtime := t }).shiftDoms (t - s.now)
  let s := { s with mapTicks := min s.mapTicks (ticksOf t) }
  (s.setFld tbPage TB.EPOCH_VALUE epoch).journalAt t .dtimeStep .internal 0 (tbPage + 0x48) .after cause

/-- A member steps DTIME by `e` su: SWARM.STEP, STEPPED (R294, R310). -/
def State.memberStep (s : State) (cause : Nat) (e : Int) (epoch : Nat) : State :=
  let s := s.stepDtime cause (s.now + BitVec.ofInt 64 e) epoch
  (s.setPair swarmPage SWARM.STEP_LO (unsigned 64 e)).post swarmPage SWARM.st_STEPPED

/-- Acquisition step 2, once no region executes (R294). -/
def State.acquisitionStep (s : State) : State :=
  let w := s.swarm
  if !s.live || s.inCluster || s.align != aAcquiring || w.stepped || w.errs.length != 16 || (allRegions.any fun n => s.executes n) then s
  else
    let e := roundEven (((w.errs.foldl (· + ·) 0 : Int) : Rat) / 16)
    (s.modSwarm fun w => { w with stepped := true, stepBy := e, filtered := 0, slewed := 0, within := 0 }).memberStep 0 e w.epochUp.toNat

/-- A member becomes ALIGNED (R288, R290, R294, R307). -/
def State.alignedReached (s : State) : State :=
  let w := s.swarm
  if !s.live || s.inCluster || s.align != aAcquiring || !w.stepped || decide (w.within < 256) then s
  else
    let s := (s.setAlign aAligned).modSwarm fun w => { w with joinDue := false, reacquire := false, engaged := false }
    let s := ((s.showMember).showDoms).post swarmPage SWARM.st_ALIGNED_SET
    let s := if w.engaged then s.setFld swarmPage SWARM.STATE_MEMBER 3 else s
    let s := s.raiseEvent 5 (unsigned 36 (satSigned 36 (roundEven ((w.stepBy : Rat) / 1024))))
    let s := if w.joinDue then s.raiseEvent 1 (s.fld swarmPage SWARM.STATE_DEPTH + 16 * s.fld (linkPage s.upPort) LINK.PEER_ORDINAL) else s
    if w.reacquire then s.raiseEvent 0x10 0 else s

/-! Waggles as a child receives them (R293, R295) -/

/-- A value of d joins the last 256, LINK.DELAY shows their mean, and the part's offset from its parent is formed (R293). -/
def State.newDelay (s : State) (p : Nat) (aDown aUp : BitVec 64) : State :=
  let ds := (((aDown + aUp).toInt / 2) :: (s.link p).ds).take 256
  let mean := roundEven (((ds.foldl (· + ·) 0 : Int) : Rat) / (ds.length : Rat))
  (s.modLink p fun l => { l with ds := ds, offset := (aDown - aUp).toInt / 2 }).setFld (linkPage p) LINK.DELAY_VALUE (fitU 24 mean).1

/-- The link's delay: the mean of the values kept. -/
def LinkSt.delay (l : LinkSt) : Int := if l.ds.isEmpty then 0 else roundEven (((l.ds.foldl (· + ·) 0 : Int) : Rat) / (l.ds.length : Rat))

/-- The filtered error moves one sixty-fourth of the way towards `e` (R295). -/
def State.filterError (s : State) (e : Int) : State :=
  let ē := s.swarm.filtered + ((e : Rat) - s.swarm.filtered) / 64
  let s := s.modSwarm fun w => { w with filtered := ē, slewed := 0, within := if -16 ≤ ē ∧ ē ≤ 16 then w.within + 1 else 0 }
  s.wr (swarmPage + 0x50) (BitVec.ofNat 32 (unsigned 24 (satSigned 24 (roundEven ē))))

/-- What a member does with the error of a waggle from its active upstream. -/
def State.useError (s : State) (p : Nat) (w : Waggle) (e : Int) : State :=
  if w.holdover then (s.enterHoldover p false).filterError e
  else if s.align = aHoldover then s.tryAcquire
  else if s.swarm.woke then
    let s := s.modSwarm fun x => { x with woke := false }
    if -4096 ≤ e ∧ e ≤ 4096 then
      let s := if s.align = aAligned then s else (s.setAlign aAligned).post swarmPage SWARM.st_ALIGNED_SET
      (s.memberStep 1 e (s.fld tbPage TB.EPOCH_VALUE)).raiseEvent 0xf (unsigned 36 e)
    else s.tryAcquire
  else if s.align = aAcquiring then
    if s.swarm.stepped then s.filterError e
    else if s.swarm.dCount < 256 then s.modSwarm fun x => { x with dCount := x.dCount + 1 }
    else s.modSwarm fun x => { x with errs := if x.errs.length < 16 then x.errs ++ [e] else x.errs }
  else if s.align = aAligned then s.filterError e
  else s.tryAcquire

/-- A WAGGLE arrives; of its mark the port's converter reads `a` (R293, R337). -/
def State.waggleRx (s : State) (p : Nat) (hd : Head) (a : DTime) (w : Waggle) : State :=
  s.receive p hd false true false fun s =>
    if s.lstate p ≠ lJoined ∨ s.linkRole p = 3 ∨ s.linkRole p = 0 then s
    else
      let held := (s.link p).delay
      let a := s.arrival p a
      let s := s.newDelay p (a - w.f) w.aUp
      if !s.isUp p then s
      else
        -- the first waggle after a wake is compared with the delay held from before (R310)
        let e := (w.f + BitVec.ofInt 64 (if s.swarm.woke then held else (s.link p).delay) - a).toInt
        let s := (s.applyTb).modSwarm fun x => { x with waggleNo := w.number, epochUp := w.tbEpoch }
        let s := (s.setFld swarmPage SWARM.STATE_QUEEN_ORD w.queenOrd.toNat).setFld swarmPage SWARM.STATE_DEPTH (w.depth.toNat + 1)
        -- the trim adds to the alignment that waggles impose (R72)
        let s := s.useError p w (e + signed 16 (s.fld tbPage TB.TRIM_LIVE_VALUE))
        ((s.activeTo w.domB).carry 0 w.f w.domainA).carry 1 w.f w.domainB

/-! Events from other parts (R288, R308, R309) -/

/-- The neighbour on port `p` enters the cluster state (R309). -/
def State.neighbourSleeps (s : State) (p : Nat) : State :=
  let l := s.link p
  let s := (s.setLstate p lDormant).setLink p { l with tx := 0, rx := 0xfff, unacked := [], waiting := [], ackDue := none, aUp := none }
  let s := s.loseLines p (l.unacked.map (·.frame.payload) ++ l.waiting.map (·.payload)) |>.reask p
  (s.unreach p).showMember

/-- An EVENT arrives. -/
def State.eventRx (s : State) (p : Nat) (hd : Head) (e : SwarmEvent) : State :=
  s.receive p hd true false false fun s =>
    let w := fresh s.time.tclk s.swarm.seenEvents
    let s :=
      if seen hd.origin e.id w then s
      else
        let s := s.modSwarm fun x => { x with seenEvents := w ++ [(hd.origin, e.id, s.time.tclk)] }
        let s := s.eventRecord true hd.origin e
        let s := s.flood (some p) hd.origin (hd.hops + 1) (.event e)
        let s := if e.code = 0xe ∧ s.isQueen then { s with run := { s.run with endRun := some (8 + e.detail.toNat % 8, 0) } } else s
        if e.code = 3 then (s.post swarmPage SWARM.st_MEMBER_LOST).freeOrdinal (BitVec.ofNat 11 e.detail.toNat) else s
    if e.code = 0x11 ∧ hd.origin.toNat = s.fld (linkPage p) LINK.PEER_ORDINAL then s.neighbourSleeps p else s

end Sys2Proof.Machine
end

