-- ==== Sys2Proof/Machine/Command.lean ====
section
/-! DEFINITION. Run commands as effects, swarm commands and their replies, and the end of a run by capture (R42, R43, R46 to R48, R232, R297 to
R302, R404). -/
namespace Sys2Proof.Machine
open Sys2Proof

/-! Command codes (Table 1-10) -/

abbrev cLoad : Nat := 1
abbrev cArm : Nat := 2
abbrev cStart : Nat := 3
abbrev cStop : Nat := 4
abbrev cAbort : Nat := 5
abbrev cReset : Nat := 6
abbrev cCluster : Nat := 7
abbrev cWake : Nat := 8

/-- The cells of Table 1-10 that are not "rejected", with R417. -/
def State.allowed (s : State) (code : Nat) : Bool :=
  match code, s.runState with
  | 1, .idle | 1, .loaded | 1, .stopped => true
  | 2, .loaded | 2, .stopped => true
  | 3, .armed => true
  | 4, .armed | 4, .running | 4, .fault => true
  | 5, .armed | 5, .running | 5, .stopping | 5, .fault => true
  | 6, .idle | 6, .loaded | 6, .armed | 6, .stopped | 6, .fault => !s.anyCause
  | 7, .idle | 7, .loaded | 7, .stopped => true
  | 8, _ => s.inCluster && !s.power.waking
  | _, _ => false

/-- A command's result is not known yet (R405). -/
def State.cmdPending (s : State) : Bool := s.run.pendingCmd.isSome

/-- CMD_STATUS takes a command's code, outcome, identifier and cause (Table 13-5). -/
def State.setStatus (s : State) (code outcome id cause : Nat) : State :=
  s.wr (chipPage + 0x54) (BitVec.ofNat 32 (code + 16 * outcome + 2 ^ 8 * id + 2 ^ 16 * cause))

/-- The outcome of a pending command is known: CMD_STATUS, CMD_JUDGED and a journal entry. -/
def State.endPending (s : State) (outcome cause : Nat) : State :=
  match s.run.pendingCmd with
  | none => s
  | some (code, id) =>
    let s := { s with run := { s.run with pendingCmd := none } }
    let s := (s.setStatus code outcome id cause).post chipPage CHIP.st_CMD_JUDGED
    s.journalAt s.now .command .internal id (chipPage + 0x50) (if outcome = 2 then .done else .refused) (code + 2 ^ 8 * id)

/-! Effects (Table 1-10) -/

def State.doArm (s : State) (a : Agent) : State := s.armUnits.setRunState .armed false a

def State.doStart (s : State) (at_ : Option DTime) (a : Agent) : State := (s.startUnits at_).setRunState .running false a

def State.doStop (s : State) (a : Agent) (internal : Bool) : State :=
  match s.runState with
  | .armed =>
    let s := (s.forEach allRegions fun n s => s.closeRun n)
    ({ s with recordingRegions := 0 }).setRunState .stopped internal a
  | .running => ((s.setRunState .stopping internal a).stopUnits).settleStop
  | .fault => s.stopUnits
  | _ => s

def State.doAbort (s : State) (a : Agent) (internal : Bool) : State :=
  let s := s.abortUnits
  if s.runState = .fault then s else s.setRunState .stopped internal a

/-! Sending commands and gathering replies (R297 to R299) -/

def noReply (id : BitVec 16) : SwarmReply := ⟨id, 0, 0, 0, 0, none⟩

/-- Downstream ports of the tree that a command does not reach: quarantined, dormant, or down since they were joined (R299, Table 9-9). A link whose far
end is a backup leads to no subtree of this part (R278, R288). -/
def State.unreached (s : State) : List Nat :=
  (List.range 4).filter fun p => s.linkRole p == 3 && s.bit (linkPage p) LINK.CTRL_EN && !((s.link p).peer.any fun h => h.role == 2)
    && (s.lstate p == lQuarantined || s.lstate p == lDormant || (decide (s.lstate p < lUp) && (s.link p).joinedOnce))

/-- Sends a command down the active tree, and begins to gather its replies; `own` is what this part counts for itself. -/
def State.sendCommand (s : State) (c : SwarmCmd) (up : Bool) (origin : BitVec 11) (hops : BitVec 5) (own : SwarmReply) : State :=
  let ports := (List.range 4).filter fun p => s.activeDown p
  let r := { own with notReached := own.notReached + BitVec.ofNat 12 s.unreached.length }
  let s := s.forEach ports fun p s => s.sendReliable p origin hops (.command c)
  let waits := ports.map fun p => (⟨p, 0, if s.stalled p then some s.time.tclk else none⟩ : PortWait)
  let s := s.modSwarm fun w => { w with runs := w.runs ++ [⟨c, up, waits, r⟩], history := ((c.id, none) :: w.history).take 64 }
  s.wr (swarmPage + 0x60) (BitVec.ofNat 32 (c.id.toNat + 2 ^ 16 * c.code.toNat))

/-- A command of the queen, or of a part in holdover, under its next identifier. -/
def State.issue (s : State) (code : Nat) (start : DTime) : State :=
  let c : SwarmCmd := ⟨s.swarm.cmdNext, BitVec.ofNat 4 code, BitVec.ofNat 16 (s.fld swarmPage SWARM.EPOCH_VALUE),
    BitVec.ofNat 64 (s.pair chipPage CHIP.IMG_DIGEST_LO), start⟩
  (s.modSwarm fun w => { w with cmdNext := w.cmdNext + 1 }).sendCommand c false s.ordinal 0 (noReply c.id)

/-- The outcome of a reply (Table 9-14). -/
def replyOutcome (r : SwarmReply) : Nat :=
  if r.refused ≠ 0 then 2 else if r.timedOut ≠ 0 then 3 else if r.notReached ≠ 0 then 4 else 1

/-- What a queen does once the outcome of its ARM or START is known (R300, R302). -/
def State.queenDecides (s : State) (c : SwarmCmd) (r : SwarmReply) : State :=
  if c.code = 2 then
    if s.swarm.armId ≠ some c.id then s
    else
      let s := s.modSwarm fun w => { w with armId := none }
      if replyOutcome r = 1 ∧ s.armRefusal = none then (s.endPending 2 0).doArm .internal
      else
        let s := (s.raise chipPage CHIP.err_ARM_REFUSED).endPending 5 (if replyOutcome r = 1 then s.armRefusal.getD 4 else 4)
        s.issue cAbort 0
  else if c.code = 3 ∧ replyOutcome r ≠ 1 then
    if s.bit swarmPage SWARM.CTRL_LATE_POLICY || !(s.runState == .running || s.runState == .stopping || s.runState == .fault) then s.unitEvent swarmPage
    else
      -- LAST_CMD goes on showing the START
      let last := s.rd (swarmPage + 0x60)
      (((s.unitEvent swarmPage).doAbort .internal true).issue cAbort 0).wr (swarmPage + 0x60) last
  else s

/-- A command whose replies are all in: LAST_CMD, the reply upstream or the queen's decision (R298, R300). -/
def State.finishRun (s : State) (run : CmdRun) : State :=
  let r := run.reply
  let s := s.modSwarm fun w => { w with
    runs := w.runs.filter (fun x => x.cmd.id != run.cmd.id)
    history := w.history.map (fun x => if x.1 = run.cmd.id then (x.1, some r) else x) }
  let s := if s.fld swarmPage SWARM.LAST_CMD_ID = run.cmd.id.toNat then
      (s.setFld swarmPage SWARM.LAST_CMD_OUTCOME (replyOutcome r)).post swarmPage SWARM.st_CMD_DONE else s
  if run.up then (if s.joined then s.sendReliable s.upPort s.ordinal 0 (.reply r) else s) else s

/-- Finishes every command whose replies are all in, oldest first. -/
def State.finishRuns (s : State) : Nat → State
  | 0 => s
  | n + 1 =>
    match s.swarm.runs.find? fun r => r.waits.isEmpty with
    | none => s
    | some r =>
      let s := s.finishRun r
      (if r.up then s else s.queenDecides r.cmd r.reply).finishRuns n

/-- At most this many commands are open when one reply arrives. -/
def State.settleRuns (s : State) : State := s.finishRuns (s.swarm.runs.length + 2)

/-! A member carries out a swarm command (R298, R300, R301) -/

/-- Why a member refuses a command, by its cause; 0 where its state does not allow it. `late` is the case of R301. -/
def State.cmdRefusal (s : State) (c : SwarmCmd) : Option Nat :=
  if c.epoch.toNat ≠ s.fld swarmPage SWARM.EPOCH_VALUE then some 6
  else if s.cmdPending || s.inCluster || !s.allowed c.code.toNat || decide (c.code.toNat < 2) || decide (5 < c.code.toNat) then some 0
  else if c.code = 2 then
    if c.digest.toNat ≠ s.pair chipPage CHIP.IMG_DIGEST_LO then some 5 else s.armRefusal
  else none

/-- START arrives less than 1 µs before its time, or after it. -/
def State.startLate (s : State) (c : SwarmCmd) : Bool := c.code == 3 && decide (dt c.start s.now < 1024000)

/-- This part's own outcome of a swarm command. -/
def State.carryOut (s : State) (c : SwarmCmd) : SwarmReply × State :=
  let o := s.ordinal
  let no := fun (cause : Nat) => ({ noReply c.id with refused := 1, first := some (o, BitVec.ofNat 8 cause) } : SwarmReply)
  let entry := fun (out : JOut) (s : State) => s.journalAt s.now .command .swarm c.id.toNat (chipPage + 0x50) out (c.code.toNat + 2 ^ 8 * (c.id.toNat % 256))
  match s.cmdRefusal c with
  | some cause =>
    let s := entry (if cause = 0 then .stateErr else .refused) s
    let s := if c.code = 2 ∧ cause ≠ 0 then s.refuseArm cause else s
    (no cause, s.raiseEvent 0xc (c.id.toNat + 2 ^ 16 * cause))
  | none =>
    if s.startLate c then
      let s := (entry .refused s).raise swarmPage SWARM.err_START_LATE
      (no 0, s.raiseEvent 0xd c.id.toNat)
    else
      let s := entry .done s
      ({ noReply c.id with done := 1 },
        match c.code.toNat with
        | 2 => s.doArm .swarm
        | 3 => s.doStart (some c.start) .swarm
        | 4 => s.doStop .swarm false
        | _ => s.doAbort .swarm false)

/-! Order within a cycle (R47, R405) -/

/-- Accesses of the host, of the service port and of the test access port: what no event inside the part brings. -/
def isAccess : Instr → Bool
  | .cmdLoad .. | .cmdArm .. | .cmdStart .. | .cmdStop .. | .cmdAbort .. | .cmdResetRun .. | .cmdCluster .. | .cmdWake .. | .cmdInvalid .. | .tbReset ..
  | .refselWrite .. | .inputWrite .. | .poolRecal .. | .debugGo .. | .scratchWindowAccess .. | .imemLoWrite .. | .imemHiCommit .. | .eslCtrlWrite ..
  | .capCtrlWrite .. | .ownerWrite .. | .bankFill .. | .swarmConfigWrite .. | .linkRetrain .. | .setRequest .. | .ofsSubmit .. | .domainSnap ..
  | .synPageStart .. | .synPageStop .. | .bandSearchRequest .. | .profileHop .. | .delayStep .. | .loopWrite .. | .configReady .. | .bar0BusError ..
  | .poisonedWrite .. | .bar2Read .. | .bar2Write .. | .msixUnmask .. | .dmaModeWrite .. | .ringWrite .. | .doorbell .. | .dmaEnable .. | .dmaPause ..
  | .dmaResume .. | .dmaAbort .. | .dmaClear .. | .keyUnlock .. | .rcRead .. | .shadowWrite .. | .freezeRelease .. | .registerWrite ..
  | .chPageCtrlWrite .. | .journalSelect .. | .journalReadAdvance | .injectArm .. | .injectCancel .. | .imgWrite .. | .mboxOutWrite .. | .svcNop
  | .svcReadId .. | .svcReadHealth | .svcReadMbox | .svcMboxLo .. | .svcMboxHi .. | .svcCmd .. | .svcReadCmd | .svcHold | .svcRelease | .svcReservedOp
  | .svcFrameDiscard | .testEnHigh | .tapReset | .extest .. | .idcode | .samplePreload .. | .clamp | .highz | .extestPulse .. | .extestTrain .. | .bypass
    => true
  | _ => false

/-- A command of the swarm arrives. -/
def swarmCommand : Instr → Bool
  | .commandFrameRx .. => true
  | _ => false

/-- The host writes CHIP.CMD. -/
def hostCommand : Instr → Bool
  | .cmdLoad .. | .cmdArm .. | .cmdStart .. | .cmdStop .. | .cmdAbort .. | .cmdResetRun .. | .cmdCluster .. | .cmdWake .. | .cmdInvalid .. => true
  | .registerWrite a _ _ => a.toNat == chipPage + 0x050
  | _ => false

/-- An event inside the part, whose ACLK cycle a command may share (R47). -/
def internalEvent (c : Instr) : Bool := !isAccess c && !swarmCommand c

/-- An internal event of this ACLK cycle waits, or may still come in one of its later TCLK cycles (R47). -/
def State.eventWaits (s : State) : Bool :=
  !s.aclkLast || s.pending.any internalEvent || !s.run.chipStops.isEmpty || s.caps.any fun c => c.2.jumpDue

/-- A swarm command goes down the tree, and the part carries it out. -/
def State.takeCommand (s : State) (origin : BitVec 11) (hops : BitVec 5) (c : SwarmCmd) : State :=
  match (s.sendCommand c true origin (hops + 1) (noReply c.id)).carryOut c with
  | (r, s) =>
    (s.modSwarm fun w => { w with runs := w.runs.map fun x => if x.cmd.id = c.id then
      { x with reply := { x.reply with done := x.reply.done + r.done, refused := x.reply.refused + r.refused, first := r.first } } else x }).settleRuns

/-- A COMMAND frame arrives (R298); its command waits for the internal events of the cycle. -/
def State.commandRx (s : State) (p : Nat) (hd : Head) (c : SwarmCmd) : State :=
  s.receive p hd true false false fun s =>
    if !(s.isUp p && s.lstate p == lJoined) then s
    else if s.run.heldSwarm.any fun x => x.2.2.id == c.id then s.addSat swarmPage SWARM.DUP_CMDS 1
    else
      match s.swarm.history.find? fun x => x.1 == c.id with
      | some (_, r) =>
        let s := s.addSat swarmPage SWARM.DUP_CMDS 1
        match r with
        | some r => s.sendReliable p s.ordinal 0 (.reply r)
        | none => s
      | none =>
        if s.fld swarmPage SWARM.STATE_MEMBER = 3 ∧ c.code ≠ 2 then s.sendReliable p s.ordinal 0 (.reply (noReply c.id))
        else
          let s := if s.fld swarmPage SWARM.STATE_MEMBER = 3 then s.setFld swarmPage SWARM.STATE_MEMBER 2 else s
          if s.eventWaits then { s with run := { s.run with heldSwarm := s.run.heldSwarm ++ [(hd.origin, hd.hops, c)] } }
          else s.takeCommand hd.origin hd.hops c

/-- A REPLY frame arrives (R298, R300). -/
def State.replyRx (s : State) (p : Nat) (hd : Head) (r : SwarmReply) : State :=
  s.receive p hd true false false fun s =>
    if !(s.swarm.runs.any fun x => x.cmd.id == r.id && x.waits.any fun w => w.port == p) then s
    else
      let s := s.modSwarm fun w => { w with runs := w.runs.map fun x =>
        if x.cmd.id = r.id then
          { x with waits := x.waits.filter fun w => w.port != p,
                   reply := ⟨x.reply.id, x.reply.done + r.done, x.reply.refused + r.refused, x.reply.timedOut + r.timedOut,
                     x.reply.notReached + r.notReached, if x.reply.first.isSome then x.reply.first else r.first⟩ }
        else x }
      let s := match r.first with
        | some (o, cause) => if cause = 5 ∧ o.toNat = s.fld (linkPage p) LINK.PEER_ORDINAL then s.quarantine p 7 else s
        | none => s
      s.settleRuns

/-- TCLK cycles a port has made no progress. -/
def PortWait.total (w : PortWait) (t : Nat) : Nat := w.acc + (match w.since with
  | some u => t - u
  | none => 0)

/-- The timer of port `p` has reached CMD_TO for the oldest command that waits there (R299). -/
def State.cmdTimeout (s : State) (p : Nat) : State :=
  let limit := s.fld swarmPage SWARM.CMD_TO_US * 1000
  match s.swarm.runs.find? fun x => x.waits.any fun w => w.port == p && decide (limit ≤ w.total s.time.tclk) with
  | none => s
  | some x =>
    if !s.live || s.inCluster then s
    else
      let s := (s.addSat swarmPage SWARM.CMD_TIMEOUTS 1).raise swarmPage SWARM.err_CMD_TIMEOUT
      let s := s.raiseEvent 0xb (x.cmd.id.toNat + 2 ^ 16 * p)
      (s.modSwarm fun w => { w with runs := w.runs.map fun y => if y.cmd.id = x.cmd.id then
        { y with waits := y.waits.filter fun w => w.port != p, reply := { y.reply with timedOut := y.reply.timedOut + 1 } } else y }).settleRuns

/-! Local run commands of a queen and of any other part (R280, R297, R301) -/

/-- S of a START: DTIME at acceptance plus the lead, rounded up to a whole nanosecond (R301). -/
def State.startTime (s : State) : DTime :=
  BitVec.ofNat 64 ((s.now.toNat + s.fld swarmPage SWARM.START_LEAD_US * 1024000 + 1023) / 1024 * 1024)

/-- ARM, START, STOP or ABORT has been accepted on this part: its effect here, and its journey to the swarm. -/
def State.runLocal (s : State) (code : Nat) (a : Agent) : State :=
  match code with
  | 3 =>
    let t := s.startTime
    if s.isQueen then ((s.doStart (some t) a).issue cStart t).settleRuns else s.doStart none a
  | 4 =>
    let s := s.doStop a false
    if s.isQueen || s.holdover then (s.issue cStop 0).settleRuns else s
  | 5 =>
    let s := s.doAbort a false
    if s.isQueen || s.holdover then (s.issue cAbort 0).settleRuns else s
  | _ => s

/-- ARM accepted on this part: refused with a cause, taken, or pending on a queen (R43, R300, R405). The Bool of the result tells that it is
pending, the number is the cause of a refusal. -/
def State.armLocal (s : State) (a : Agent) : Option Nat × State :=
  match s.armRefusal with
  | some c => (some c, s.refuseArm c)
  | none => (none, if s.isQueen then s else s.doArm a)

/-- A queen that has accepted ARM sends it to the swarm. -/
def State.armSwarm (s : State) : State := ((s.modSwarm fun w => { w with armId := some w.cmdNext }).issue cArm 0).settleRuns

/-- ABORT ends a pending swarm ARM (R405). -/
def State.abortArm (s : State) : State :=
  let s := (s.modSwarm fun w => { w with armId := none }).raise chipPage CHIP.err_ARM_REFUSED
  ((s.endPending 5 7).issue cAbort 0).settleRuns

/-! The end of a run by capture (R232) -/

/-- A SINGLE or SEGMENTED capture with END_RUN is DONE, here or (region 8 and on) on a member: the run moves to STOPPING, on the whole swarm; a
member tells the queen instead. -/
def State.endRun (s : State) : State :=
  match s.run.endRun with
  | none => s
  | some (n, seg) =>
    let s := { s with run := { s.run with endRun := none } }
    if s.runState ≠ .running then s
    else
      let s := if n < 8 then s.entry .capture .internal (regPage n + 0x25c) .done (n + 8 * seg) else s
      if s.isMember then s.raiseEvent 0xe n
      else
        let s := s.doStop .internal true
        if s.isQueen then (s.issue cStop 0).settleRuns else s

/-- What follows from a capture or a drain once a command has taken effect. -/
def State.settle (s : State) : State := s.endRun.settleStop

end Sys2Proof.Machine
end

