-- ==== Sys2Proof/Machine/Load.lean ====
section
/-! DEFINITION. Loading an image: its header, its sections and its digest, the static checks, the two passes and the end of a LOAD (R172, R195,
R197, R198, R211, R266, R312, R415, R418). -/
namespace Sys2Proof.Machine
open Sys2Proof

/-- Why a LOAD failed: a cause of Table 6-14, WHERE, PASS2 and LOCATION. -/
structure LoadFail where
  cause : Nat
  cellSlot : Bool
  pass2 : Bool
  loc : Nat
  deriving DecidableEq, Repr

/-- A failure at a byte offset of the image, in the first pass. -/
def LoadFail.at (cause off : Nat) : LoadFail := ⟨cause, false, false, off⟩

/-- A failure at an instruction. -/
def LoadFail.instr (cause cell slot : Nat) : LoadFail := ⟨cause, true, false, cell + 2 ^ 10 * slot⟩

/-- CHIP.LOAD_STATUS of a failure (Table 14-4). -/
def LoadFail.word (f : LoadFail) : Dword := BitVec.ofNat 32 (f.cause + 2 ^ 4 * b2n f.cellSlot + 2 ^ 5 * b2n f.pass2 + 2 ^ 8 * (f.loc % 2 ^ 24))

/-! The digest (Table 6-12) -/

/-- One bit of CRC-64 ECMA-182, unreflected. -/
def crcBit (c : BitVec 64) : BitVec 64 := if c.getLsbD 63 then (c <<< 1) ^^^ 0x42f0e1eba9ea3693 else c <<< 1

def crcByte (c : BitVec 64) (b : BitVec 8) : BitVec 64 :=
  crcBit (crcBit (crcBit (crcBit (crcBit (crcBit (crcBit (crcBit (c ^^^ (b.setWidth 64 <<< 56)))))))))

/-- The eight bytes of a 64-bit value, lowest address first. -/
def crcWord (c w : BitVec 64) : BitVec 64 := (List.range 8).foldl (fun c i => crcByte c (BitVec.ofNat 8 (w.toNat >>> (8 * i)))) c

/-! Sections (Table 6-13) -/

/-- What the second pass writes, with the byte offset of the image that holds it. -/
inductive Item2 where
  | instr (cell addr : Nat) (w : BitVec 36)
  | init (cell : Nat) (regs : List Word) (preds : Dword)
  | config (addr : Nat) (v : Dword)
  deriving DecidableEq, Repr

/-- Fields that a CONFIG entry may set, by BAR0 address: those that the tables mark as set by LOAD (R415). -/
def loadMask (addr : Nat) : Nat :=
  let off := addr % 0x1000
  match pageOf addr with
  | some (.ch, _) => if off = 0x110 then 0xffffffff else 0
  | some (.reg, _) =>
    if off = 0x040 then 0x1ff
    else if off = 0x100 then 0x1ffff
    else if off = 0x104 then 0x3f
    else if off = 0x108 then 0xffffff
    else if 0x10c ≤ off ∧ off ≤ 0x124 ∧ off % 4 = 0 then 0xffffff
    else if 0x200 ≤ off ∧ off ≤ 0x21c ∧ off % 4 = 0 then 0x780001ff
    else if off = 0x24c then 0x7ff
    else if 0x260 ≤ off ∧ off ≤ 0x29c ∧ off % 4 = 0 then 0xffffffff
    else 0
  | some (.blk, _) => if off = 0x044 then 0xffffff else 0
  | some (.esl, _) => if off = 0x048 then 0xff else 0
  | some (.bank, _) => if off = 0x040 then 0x7f else 0
  | some (.swarm, _) => if 0x07c ≤ off ∧ off ≤ 0x098 ∧ off % 4 = 0 then 0x1ffff else 0
  | some (.dom, 0) => if off = 0x0c0 then 0xff else 0
  | _ => 0

/-- Codes that Table 7-3 lists. -/
def bindListed (c : Nat) : Bool :=
  let a := c % 32
  match c / 32 with
  | 0 | 3 | 4 => a == 0
  | 1 => decide (a < 12)
  | 2 => true
  | _ => false

/-- A CONFIG entry that LOAD takes: its location is one that LOAD sets, an event line's code is listed, and L is 16 to 512. -/
def configTaken (addr : Nat) (v : Dword) : Bool :=
  let off := addr % 0x1000
  loadMask addr != 0
    && (match pageOf addr with
      | some (.reg, _) =>
        (decide (off < 0x260) || (List.range 4).all fun i => bindListed (getBits v (8 * i) 8)) && (off != 0x040 || decide (15 ≤ getBits v 0 9))
      | _ => true)

/-- Instructions from one address on. -/
def instrItems : Nat → Nat → List (BitVec 64) → Except LoadFail (List (Nat × Item2))
  | _, _, [] => .ok []
  | off, i, w :: r =>
    if 2 ^ 36 ≤ w.toNat then .error (.at 2 off)
    else
      match instrItems (off + 8) (i + 1) r with
      | .error e => .error e
      | .ok l => .ok ((off, .instr (i / 512) (i % 512) (w.setWidth 36)) :: l)

/-- One cell record of CELL_INIT: 64 dwords, P31 to P0, a reserved dword. -/
def initItem (off cell : Nat) (ws : List (BitVec 64)) : Except LoadFail (Nat × Item2) :=
  let regs := (ws.take 32).flatMap fun (w : BitVec 64) => [w.setWidth 18, (w >>> 32).setWidth 18]
  let last := ws.getD 32 0
  if last >>> 32 = 0 then .ok (off, .init cell regs (last.setWidth 32)) else .error (.at 2 (off + 260))

def initItems : Nat → Nat → Nat → List (BitVec 64) → Except LoadFail (List (Nat × Item2))
  | 0, _, _, _ => .ok []
  | n + 1, off, cell, ws =>
    match initItem off cell (ws.take 33), initItems n (off + 264) (cell + 1) (ws.drop 33) with
    | .error e, _ => .error e
    | _, .error e => .error e
    | .ok a, .ok l => .ok (a :: l)

def configItems : Nat → List (BitVec 64) → Except LoadFail (List (Nat × Item2))
  | _, [] => .ok []
  | off, w :: r =>
    let a := (w.setWidth 32 : Dword).toNat
    let v : Dword := (w >>> 32).setWidth 32
    if !configTaken a v then .error (.at 2 off)
    else
      match configItems (off + 8) r with
      | .error e => .error e
      | .ok l => .ok ((off, .config a v) :: l)

/-- The payload of a section. -/
def payload (off ty target count : Nat) (ws : List (BitVec 64)) : Except LoadFail (List (Nat × Item2)) :=
  match ty with
  | 1 => if ws.length ≠ count ∨ 1024 ≤ target ∨ 1024 * 512 < 512 * target + count then .error (.at 2 off) else instrItems (off + 16) (512 * target) ws
  | 2 => if ws.length ≠ 33 * count ∨ 1024 < target + count then .error (.at 2 off) else initItems count (off + 16) target ws
  | 3 => if ws.length ≠ count then .error (.at 2 off) else configItems (off + 16) ws
  | 4 => .ok []
  | _ => .error (.at 2 off)

/-- `n` sections from byte offset `off` on; they fill the image exactly. -/
def sections : Nat → Nat → List (BitVec 64) → Except LoadFail (List (Nat × Item2))
  | 0, off, ws => if ws.isEmpty then .ok [] else .error (.at 4 off)
  | n + 1, off, a :: b :: ws =>
    let bytes := (b >>> 32).toNat
    if ws.length < bytes / 8 then .error (.at 4 off)
    else if bytes % 8 ≠ 0 ∨ bitsOf a.toNat 16 16 ≠ 0 then .error (.at 2 off)
    else
      match payload off (bitsOf a.toNat 0 16) (a >>> 32).toNat (b.toNat % 2 ^ 32) (ws.take (bytes / 8)), sections n (off + 16 + bytes) (ws.drop (bytes / 8)) with
      | .error e, _ => .error e
      | _, .error e => .error e
      | .ok l, .ok m => .ok (l ++ m)
  | _ + 1, off, _ => .error (.at 4 off)

/-- The header and the sections of an image whose length is `len` bytes (Table 6-12). -/
def readImage (len : Nat) (ws : List (BitVec 64)) : Except LoadFail (List (Nat × Item2)) :=
  let h := fun i => (ws.getD i 0).toNat
  if bitsOf (h 0) 0 32 ≠ 0x474d495a then .error (.at 1 0x00)
  else if bitsOf (h 0) 32 16 ≠ 3 then .error (.at 2 0x04)
  else if bitsOf (h 0) 48 8 ≠ 0xb1 then .error (.at 3 0x06)
  else if bitsOf (h 0) 56 8 ≠ 0 then .error (.at 2 0x07)
  else if bitsOf (h 2) 48 16 ≠ 0 ∨ h 3 ≠ 0 ∨ h 4 ≠ 0 ∨ h 5 ≠ 0 ∨ h 6 ≠ 0 ∨ h 7 ≠ 0 then .error (.at 2 0x16)
  else if bitsOf (h 2) 0 32 ≠ len ∨ 0x800000 < len ∨ len % 8 ≠ 0 ∨ len < 64 then .error (.at 4 0x10)
  else if (ws.drop 8).foldl crcWord 0 ≠ ws.getD 1 0 then .error (.at 5 0x08)
  else sections (bitsOf (h 2) 32 16) 64 (ws.drop 8)

/-! The static checks (R172, R195, R198) -/

/-- The instruction memories with the image's instructions. -/
def mergeImem (m : Tab IWord) (l : List (Nat × Item2)) : Tab IWord :=
  l.foldl (fun m x => match x.2 with
    | .instr c a w => Tab.set (fun _ => IWord.init) m (512 * c + a) ⟨w, false⟩
    | _ => m) m

/-- The registers with the fields that the image sets. -/
def mergeRegs (m : Tab Dword) (l : List (Nat × Item2)) : Tab Dword :=
  l.foldl (fun m x => match x.2 with
    | .config a v => Tab.set resetOf m a (merge (BitVec.ofNat 32 (loadMask a)) (Tab.get resetOf m a) v)
    | _ => m) m

/-- Where the image sets a register; 0 where it does not. -/
def configAt (l : List (Nat × Item2)) (addr : Nat) : Nat :=
  match l.find? fun x => match x.2 with
    | .config a _ => a == addr
    | _ => false with
  | some x => x.1
  | none => 0

/-- A ring of COUNT banks in stripes of S that LOAD takes (R266). -/
def ringTaken (count stripe : Nat) : Bool := count == 0 || (decide (count ≤ 32) && stripe != 0 && count % stripe == 0)

/-- The rings of region `n`, local and remote, and its capture mode, with the image's registers `m` (R266, R312, Table 7-17). -/
def ringCheck (m : Tab Dword) (l : List (Nat × Item2)) (n : Nat) : Option LoadFail :=
  let g := fun (base : Nat) (f : Fld) => getBits (Tab.get resetOf m (base + f.off)) f.lo f.width
  let p := regPage n
  if !ringTaken (g p REG.REC_RING_COUNT) (g p REG.REC_RING_STRIPE) then some (.at 2 (configAt l (p + 0x100)))
  else if !ringTaken (g p REG.CAP_RING_COUNT) (g p REG.CAP_STRIPE_STRIPE) then some (.at 2 (configAt l (p + 0x24c)))
  else if g p REG.CAP_RING_COUNT = 0 ∧ g p REG.CAP_CTRL_MODE ≠ 0 then some (.at 2 (configAt l (p + 0x24c)))
  else if g swarmPage (remoteEn n) = 1 ∧ g p REG.REC_RING_COUNT ≠ 0 then some (.at 2 (configAt l (swarmPage + 0x7c + 4 * n)))
  else none

/-- What an instruction uses that another one in the same slot may also use: a FIFO, a scratch port, the block's put, an exchange channel. -/
inductive Use where
  | fifo (i : Nat)
  | port (i : Nat)
  | put (g : Nat)
  | chan (i : Nat)
  deriving DecidableEq, Repr

def useOf (c : Nat) (o : CellOp) : Option Use :=
  match o with
  | .take f _ _ _ => some (.fifo (12 * cellBlock c + f))
  | .sld p _ _ _ => some (.port (2 * cellBlock c + p))
  | .sst p _ _ _ => some (.port (2 * cellBlock c + p))
  | .put .. => some (.put (cellBlock c))
  | .rsnd ch _ => some (.chan (64 * cellRegion c + ch))
  | .csnd ch _ => some (.chan (512 + ch))
  | _ => none

/-- Slots `k` and `j` of regions with cycles of `a` and `b` slots that fall in one TCLK cycle some time (R30, R180). -/
def slotsMeet (k a j b : Nat) : Bool := k % Nat.gcd a b == j % Nat.gcd a b

/-- Judges the instructions below L one by one, in the order of their cells and addresses, against those before them: `len` gives the L of a
region, `on` the FIFOs that are enabled. -/
def staticCheck (len : Nat → Nat) (on : Nat → Bool) : List (Nat × IWord) → List (Nat × Nat × Use) → Option LoadFail
  | [], _ => none
  | (i, w) :: r, before =>
    let c := i / 512
    let k := i % 512
    let n := cellRegion c
    if len n ≤ k then staticCheck len on r before
    else
      match decodeInstr w.word with
      | none => some (.instr 6 c k)
      | some d =>
        if d.op.misaligned then some (.instr 7 c k)
        else
          match useOf c d.op with
          | none => staticCheck len on r before
          | some u =>
            let same := (before.filter fun x => x.2.2 == u && slotsMeet k (len n) x.2.1 (len (cellRegion x.1))).length
            let bad := match u with
              | .fifo f => decide (2 ≤ same) || !on f
              | _ => decide (1 ≤ same)
            if bad then some (.instr 7 c k) else staticCheck len on r ((c, k, u) :: before)

/-- Every check of the first pass (R198). -/
def State.firstPass (s : State) (len : Nat) (ws : List (BitVec 64)) : Except LoadFail (List (Nat × Item2)) :=
  match readImage len ws with
  | .error e => .error e
  | .ok l =>
    let m := mergeRegs s.regs l
    match (List.range 8).findSome? (ringCheck m l) with
    | some e => .error e
    | none =>
      let len := fun n => getBits (Tab.get resetOf m (regPage n + 0x040)) 0 9 + 1
      let on := fun f => bitOf (Tab.get resetOf m (blkPage (f / 12) + 0x044)).toNat (f % 12)
      match staticCheck len on (mergeImem s.imem l) [] with
      | some e => .error e
      | none => .ok l

/-! The second pass and the end -/

/-- Writes one item of the image, past keys and the run state (R197). -/
def State.loadItem (s : State) (x : Item2) : State :=
  match x with
  | .instr c a w => s.commit c a w
  | .init .. => s
  | .config a v =>
    match pageOf a with
    | some (.bank, b) =>
      match ownerVerdict v with
      | .accept v _ => s.storeValue .bank b 0x040 ⟨0x040, 1, 0, 0, 0, 0x7f, 0, 0⟩ v v true .internal false false
      | .reject e o => s.rejectWrite .bank b 0x040 ⟨0x040, 1, 0, 0, 0, 0x7f, 0, 0⟩ v .internal e o
    | some (.ch, k) => (s.wr a v).reclampGate k
    | _ => s.wr a (merge (BitVec.ofNat 32 (loadMask a)) (s.rd a) v)

/-- The items are written, and every BUDGET_SUM follows the budgets and rings that they set (R276). -/
def State.loadItems (s : State) (l : List (Nat × Item2)) : State :=
  (l.foldl (fun s x => s.loadItem x.2) s).forEach allRegions fun n s => s.showBudget n

/-- Initial registers and predicates that the image holds, by cell, the last record of a cell. -/
def initsOf (l : List (Nat × Item2)) : List (Nat × List Word × Dword) :=
  l.foldl (fun t x => match x.2 with
    | .init c r p => t.filter (fun y => y.1 != c) ++ [(c, r, p)]
    | _ => t) []

/-- A LOAD ends (R43, R198, R418): LOADED, or IDLE with its cause. A part that has meanwhile gone to FAULT stays there. -/
def State.loadEnd (s : State) (f : Option LoadFail) : State :=
  let s := s.setFld chipPage CHIP.live_LOADING 0
  let w := match f with
    | some f => f.word
    | none => 0
  let s := { s with run := { s.run with imageHeld := f.isNone } }
  let s := if f.isSome then (s.setPair chipPage CHIP.IMG_DIGEST_LO 0).raise chipPage CHIP.err_LOAD_FAIL else s
  let s := (s.wr (chipPage + 0x070) w).post chipPage CHIP.st_LOAD_END
  let s := s.entry .load .internal (chipPage + 0x064) (if f.isSome then .refused else .done) w.toNat
  let s := s.endPending (if f.isSome then 5 else 2) (match f with
    | some f => 0x10 + f.cause
    | none => 0)
  if s.runState = .fault then s else s.setRunState (if f.isSome then .idle else .loaded) true .internal

/-- The items that stand before byte offset `off`. -/
def itemsBefore (off : Nat) (l : List (Nat × Item2)) : List (Nat × Item2) := l.filter fun x => decide (x.1 < off)

/-- The byte offset of the last write of an instruction, if the image writes it. -/
def instrAt (l : List (Nat × Item2)) (c a : Nat) : Option Nat :=
  (l.reverse.find? fun x => match x.2 with
    | .instr c' a' _ => c' == c && a' == a
    | _ => false).map (·.1)

/-- The second pass, up to what breaks it off (R198). A patch that still waits for an open slot stays, and is committed into the new image, on which the
spec is silent (DESIGN CHOICE, assumption 88). -/
def State.secondPass (s : State) (l : List (Nat × Item2)) (brk : Option LoadBreak) (digest : BitVec 64) (insts : List Meas)
    (lines : List (Nat × LineUse)) : State :=
  let done := fun (_ : Unit) =>
    let s := s.loadItems l
    let s := s.forEach allRegions fun n s => s.setFld (regPage n) REG.live_PATCHED 0
    let s := { s with cellInit := initsOf l }
    let s := { s with insts := insts.map Inst.init }
    let s := { s with lineUses := lines }
    (s.setPair chipPage CHIP.IMG_DIGEST_LO digest.toNat).loadEnd none
  match brk with
  | some (.pcie k _ off) => ((s.badCompletion k).loadItems (itemsBefore off.toNat l)).loadEnd (some ⟨8, false, true, off.toNat⟩)
  | some (.parity c k) =>
    match instrAt l c k with
    | some off =>
      let s := s.loadItems (itemsBefore (off + 1) l)
      (s.setIword c k ⟨(s.iword c k).word, true⟩).loadEnd (some ⟨9, true, true, c.val + 2 ^ 10 * k.val⟩)
    | none => done ()
  | none => done ()

/-- The image has been read, or a read has failed (R198): `ws` is what host memory holds from the image's address on. -/
def State.loadComplete (s : State) (ws : List (BitVec 64)) (brk : Option LoadBreak) (insts : List Meas) (lines : List (Nat × LineUse)) : State :=
  if !s.bit chipPage CHIP.live_LOADING then s
  else
    let len := s.run.loadLen
    let ws := (ws ++ List.replicate (len / 8 - ws.length) 0).take (len / 8)
    match brk with
    | some (.pcie k false off) => (s.badCompletion k).loadEnd (some (.at 8 off.toNat))
    | _ =>
      match s.firstPass len ws with
      | .error e => s.loadEnd (some e)
      | .ok l => s.secondPass l brk (ws.getD 1 0) insts lines

/-- A LOAD is accepted (R197, R418): the part begins to read. The value of the entry at the start is not stated (Table 13-6). -/
def State.loadBegin (s : State) (a : Agent) : State :=
  let at_ := s.pair chipPage CHIP.IMG_ADDR_LO
  let len := s.fld chipPage CHIP.IMG_LEN_BYTES
  let s := { s with run := { s.run with loadAddr := at_, loadLen := len } }
  ((s.setFld chipPage CHIP.live_LOADING 1).entry .load a (chipPage + 0x064) .pending (s.free.toNat % 2 ^ 32)).drawn.send (.hostRead at_ len)

end Sys2Proof.Machine
end

