-- ==== Sys2Proof/Machine/Dma.lean ====
section
/-! DEFINITION. The DMA engines: descriptors, fetches, data moves, write-backs, pause, abort, stalls and freezes (R368 to R390). -/
namespace Sys2Proof.Machine
open Sys2Proof

/-- Channel states (Table 12-11). -/
abbrev dIdle : Nat := 0
abbrev dRunning : Nat := 1
abbrev dPausing : Nat := 2
abbrev dPaused : Nat := 3
abbrev dAborting : Nat := 4
abbrev dHalted : Nat := 5

def State.dState (s : State) (c : Nat) : Nat := s.fld (dmacPage c) DMAC.STATE_STATE

/-- Channels 6 and 7 move host data to the store (R368). -/
def dirWrite (c : Nat) : Bool := decide (6 ≤ c)
/-- The owner class an engine needs (R368). -/
def dmaClass (c : Nat) : Nat := if 6 ≤ c then 5 else 4
/-- The engine of a channel is frozen (R387). -/
def State.engineFrozen (s : State) (c : Nat) : Bool := s.isFrozen dmaPage (if 6 ≤ c then 9 else 8)

/-- A channel leaves RUNNING: in SERIAL mode the next choice is then made (R369). -/
def State.leaveSerial (s : State) (c : Nat) : State :=
  if s.bit dmaPage DMA.live_SERIAL_ACTIVE && s.fld dmaPage DMA.live_SERIAL_CH == c then s.setFld dmaPage DMA.live_SERIAL_ACTIVE 0 else s

/-- Buffered fields of a channel apply at a descriptor boundary, or at once while it does not run (R390). -/
def State.applyDmac (s : State) (c : Nat) : State :=
  match s.shadow (dmacPage c + 0x044) with
  | none => s
  | some v =>
    let s := (s.setShadow (dmacPage c + 0x044) none).applyValue (dmacPage c) 0x044 ⟨0x044, 1, 0, 0, 0, 0x70, 0, 0⟩ v
    s.entry .apply .internal (dmacPage c + 0x044) .done (s.rd (dmacPage c + 0x044)).toNat

/-- A request of the channel is satisfied, or the channel begins to run: its stall timer starts again (R385). -/
def State.satisfied (s : State) (c : Nat) : State := s.setDmaCh c { s.dmaCh c with since := s.time.tclk }

/-- The channel of a request of a DMA engine. -/
def Access.channel : Access → Option Nat
  | .move c | .fetch c _ | .back c => some c
  | _ => none

/-- Requests of a channel for the store that wait are no more. -/
def State.dropMoves (s : State) (c : Nat) : State := { s with reqs := s.reqs.filter fun q => q.access != .move c && q.access != .back c }

/-- All requests of a channel that wait are no more, the transfer of a descriptor that a fetch brought too. -/
def State.dropAll (s : State) (c : Nat) : State := { s with reqs := s.reqs.filter fun q => q.access.channel != some c }

/-- A descriptor fetch of the channel whose completion has not come. -/
def State.fetchOut (s : State) (c : Nat) : Bool := (s.dmaCh c).fetching && !s.reqs.any fun q => q.access.channel == some c && q.access != .move c && q.access != .back c

/-- A request of the channel waits, for a lane, a handover, a fill or a completion (R385). -/
def State.waits (s : State) (c : Nat) : Bool :=
  let x := s.dmaCh c
  x.fetching || x.backOut c || x.reads.any (fun r => !r.lost && decide (0 < r.left)) || s.reqs.any fun q => q.access.channel == some c

/-- A request of the channel is issued: the stall timer counts from the first that waits (R385). -/
def State.issueReq (s : State) (c : Nat) : State := if s.waits c then s else s.satisfied c

/-- Reads whose data nothing wants any more: what they still bring is discarded (R384). -/
def loseReads (l : List HostRead) : List HostRead := (l.filter fun r => decide (0 < r.left)).map fun r => { r with got := [], lost := true }

/-- The channel with nothing under way; the completions of what it has issued will be discarded (R384, R385). -/
def State.dropped (s : State) (c : Nat) : DmaCh :=
  let x := s.dmaCh c
  { DmaCh.empty with
    reads := loseReads x.reads
    lostFetch := x.lostFetch + b2n (s.fetchOut c)
    lostBack := x.lostBack + b2n (x.backOut c)
    since := x.since
    frozenAt := x.frozenAt }

/-- A channel takes a state; one that stops running applies its pending fields (R397). -/
def State.setDState (s : State) (c x : Nat) : State :=
  let s := s.setFld (dmacPage c) DMAC.STATE_STATE x
  if x = dRunning then s.satisfied c else (s.leaveSerial c).applyDmac c

def State.ringAddr (s : State) (c : Nat) : Nat := s.pair (dmacPage c) DMAC.RING_LO
def State.ci (s : State) (c : Nat) : Nat := s.fld (dmacPage c) DMAC.INDEX_CI
/-- The index after `i` in the ring (R371). -/
def State.nextIdx (s : State) (c i : Nat) : Nat := if s.fld (dmacPage c) DMAC.RING_SIZE_SIZE_M1 ≤ i then 0 else i + 1

/-- A descriptor fetch for the channel's next index (R375, R376), `second` where it re-reads one. It is issued now, or with the next choice of the
engine: while the engine is frozen it issues nothing (R387), and fewer than 57 non-posted requests must be outstanding, so that the read-backs and
LOAD stay within 64 (R369; the 57 DESIGN CHOICE, assumption 85). -/
def State.startFetch (s : State) (c : Nat) (second : Bool) : State :=
  let x := { s.dmaCh c with second := second, atEnd := false, dbSince := false }
  if s.engineFrozen c || decide (57 ≤ s.dmaOutstanding) then s.setDmaCh c x
  else
    let i := if x.cur.isSome then s.nextIdx c (s.ci c) else s.ci c
    ((s.issueReq c).setDmaCh c { x with fetching := true, since := ((s.issueReq c).dmaCh c).since }).send (.hostRead (s.ringAddr c + 32 * i) 16)

/-- Host address of a descriptor's first byte. -/
def Desc.host (d : Desc) : Nat := d.dw3.toNat * 2 ^ 32 + d.dw2.toNat

/-- The descriptor check of R373 and Table 12-4. -/
def Desc.ok (d : Desc) : Bool :=
  let fmt := getBits d.dw0 24 4
  let len := getBits d.dw0 0 24
  let word := getBits d.dw1 0 25
  let words := if fmt = 0 then len / 9 * 4 else len / 4
  getBits d.dw0 28 2 == 0 && getBits d.dw1 25 7 == 0
    && ((fmt == 0 && word % 4 == 0 && len % 9 == 0) || (fmt == 1 && len % 4 == 0))
    && decide (word + words ≤ 33554432) && decide (d.host + len ≤ 2 ^ 64)

/-- Writes the current descriptor back with a status and its completion DTIME (R381, R384, R385): DW4 to DW7, then DW0 with OWN 0. CI advances. -/
def State.writeBack (s : State) (c : Nat) (d : Desc) (status : Nat) (t : DTime) : State :=
  let x := s.dmaCh c
  let at_ := s.ringAddr c + 32 * s.ci c
  let s := s.send (.hostWrite (at_ + 16) (leBytes 4 (x.count + 2 ^ 24 * status) ++ leBytes 4 (sat 16 x.poisoned + 2 ^ 16 * sat 16 x.ueRefused) ++ leBytes 8 t.toNat))
  let s := s.send (.hostWrite at_ (leBytes 4 (d.dw0.toNat % 2 ^ 31)))
  let s := s.setFld (dmacPage c) DMAC.INDEX_CI (s.nextIdx c (s.ci c))
  let s := s.addWrap (dmacPage c) DMAC.DESCS 1
  let s := s.setPair (dmacPage c) DMAC.BYTES_LO (s.pair (dmacPage c) DMAC.BYTES_LO + x.count)
  let s := s.setFld (dmacPage c) DMAC.STATE_LAST_STATUS status
  let s := (s.dropMoves c).setDmaCh c { x with
    cur := none, readback := false, count := 0, poisoned := 0, ueRefused := 0, violated := false, buf := [], asked := 0, reads := loseReads x.reads,
    units := [], lostBack := x.lostBack + b2n (x.backOut c), backAt := none, failed := false }
  let s := s.post (dmacPage c) DMAC.st_DESC_DONE
  if getBits d.dw0 30 1 = 1 then s.post (dmacPage c) DMAC.st_DESC_IRQ else s

/-- An ABORT that waited for a completion has ended (R384). -/
def State.abortEnds (s : State) (c : Nat) : State :=
  ((s.setFld (dmacPage c) DMAC.CTRL_ABORT 0).post (dmacPage c) DMAC.st_ABORT_DONE).unitEvent (dmacPage c)

/-- The channel becomes HALTED: nothing in flight is used (R382). -/
def State.haltCh (s : State) (c : Nat) (err : Fld) : State :=
  let s := (s.setDmaCh c (s.dropped c)).dropAll c
  let s := if s.dState c == dAborting then s.abortEnds c else s
  ((s.setDState c dHalted).raise (dmacPage c) err).post (dmacPage c) DMAC.st_HALT

/-- A held doorbell takes effect (R377). -/
def State.takeDoorbell (s : State) (c : Nat) : State :=
  if s.bit (dmacPage c) DMAC.STATE_DB_PENDING && s.bit (dmacPage c) DMAC.CTRL_EN && s.dState c == dIdle then
    ((s.setFld (dmacPage c) DMAC.STATE_DB_PENDING 0).setDState c dRunning).startFetch c false
  else s

/-- The channel becomes IDLE; a fetch under way is discarded (R376, R384). -/
def State.idleCh (s : State) (c : Nat) : State :=
  let x := s.dmaCh c
  ((s.setDmaCh c { x with
    ahead := none, fetching := false, fetched := none, lostFetch := x.lostFetch + b2n (s.fetchOut c), second := false, atEnd := false,
    dbSince := false }).dropAll c).setDState c dIdle

/-- The mode lets the channel be served (R369). -/
def State.modeServes (s : State) (c : Nat) : Bool :=
  !s.bit dmaPage DMA.MODE_SERIAL || (s.bit dmaPage DMA.live_SERIAL_ACTIVE && s.fld dmaPage DMA.live_SERIAL_CH == c)

/-- The descriptor fetched ahead can begin: its channel is served, or its pause shows the position of the next byte (R383). -/
def State.mayBegin (s : State) (c : Nat) (d : Desc) : Bool :=
  (s.dState c == dRunning && s.modeServes c) || (s.dState c == dPausing && d.ok && getBits d.dw0 0 24 != 0)

/-- What a channel without a current descriptor does: the one fetched ahead begins, an unowned one is read once more after a doorbell or ends the
work, or a fetch is issued (R375, R376). `begin` starts a descriptor. -/
def State.nextDesc (s : State) (c : Nat) (begin : Desc → State → State) : State :=
  let s := s.applyDmac c
  let x := s.dmaCh c
  match x.ahead with
  | some d => if s.mayBegin c d then begin d (s.setDmaCh c { x with ahead := none }) else s
  | none =>
    if x.fetching || x.fetched.isSome || s.dState c != dRunning then s
    else if !x.atEnd then s.startFetch c x.second
    else if !x.dbSince then s.idleCh c
    else if x.second then s.startFetch c false
    else (s.addWrap (dmacPage c) DMAC.REFETCHES 1).startFetch c true

/-- Begins a descriptor: its check, the LENGTH 0 case, or its data (R373). `fuel` bounds a chain of empty descriptors held by the engine. -/
def State.beginDesc (s : State) (c : Nat) : Nat → Desc → State
  | 0, _ => s
  | fuel + 1, d =>
    if !d.ok then (s.writeBack c d 8 s.now).haltCh c DMAC.err_DESC_ERR
    else if getBits d.dw0 0 24 = 0 then (s.writeBack c d 1 s.now).nextDesc c fun d s => s.beginDesc c fuel d
    else
      let s := s.setDmaCh c { s.dmaCh c with cur := some d }
      let s := s.wr (dmacPage c + 0x060) (BitVec.ofNat 32 (getBits d.dw1 0 25))
      let s := s.setPair (dmacPage c) DMAC.CUR_HOST_LO d.host
      let s := s.wr (dmacPage c + 0x06c) (BitVec.ofNat 32 (getBits d.dw0 0 24))
      if (s.dmaCh c).fetching || (s.dmaCh c).atEnd || s.dState c != dRunning then s else s.startFetch c false

def State.begin (s : State) (c : Nat) (d : Desc) : State := s.beginDesc c 3 d

def State.nextOf (s : State) (c : Nat) : State := s.nextDesc c fun d s => s.begin c d

/-- A RUNNING channel goes on where it waited for its engine: it begins a descriptor or issues a fetch. -/
def State.goOn (s : State) (c : Nat) : State :=
  let x := s.dmaCh c
  if s.dState c != dRunning || s.engineFrozen c || x.fetching || x.fetched.isSome then s
  else match x.ahead with
    | some d => if x.cur.isNone && s.mayBegin c d then s.nextOf c else s
    | none => if x.cur.isNone then s.nextOf c else if x.atEnd then s else s.startFetch c x.second

/-- What a descriptor fetch brought (R376, R386). -/
def State.fetchUse (s : State) (c : Nat) (r : FetchResult) : State :=
  let x := s.dmaCh c
  let s := (s.setDmaCh c { x with fetching := false, fetched := none }).satisfied c
  match r with
  | .failed _ => (s.haltCh c DMAC.err_PCIE_ERR).setFld (dmacPage c) DMAC.STATE_LAST_STATUS 9
  | .words a b d e =>
    let y := s.dmaCh c
    let s := s.setDmaCh c
      (if getBits a 31 1 = 1 then { y with second := false, dbSince := false, ahead := some ⟨a, b, d, e⟩ }
      else { y with atEnd := true, dbSince := y.dbSince && !y.second })
    if x.cur.isSome then s else s.nextOf c

/-- A failed fetch's report. -/
def State.fetchReport (s : State) (r : FetchResult) : State :=
  match r with
  | .failed k => s.badCompletion k
  | .words .. => s

/-- A descriptor fetch returns: to the oldest one outstanding. One that an ABORT discarded has no effect, and one for a frozen engine waits for its
release (R384, R387). -/
def State.fetchDone (s : State) (c : Nat) (r : FetchResult) : State :=
  let x := s.dmaCh c
  if 0 < x.lostFetch then (s.fetchReport r).setDmaCh c { x with lostFetch := x.lostFetch - 1 }
  else if !x.fetching then s.unexpected
  else if s.engineFrozen c then (s.fetchReport r).setDmaCh c { x with fetching := false, fetched := some r }
  else (s.fetchReport r).fetchUse c r

/-- A write of DOORBELL (R375 to R377). -/
def State.doorbell (s : State) (c : Nat) (pi : Nat) : State :=
  let s := s.setFld (dmacPage c) DMAC.INDEX_LAST_PI pi
  let st := s.dState c
  if !s.bit (dmacPage c) DMAC.CTRL_EN || st == dHalted || st == dPaused || st == dAborting then s.setFld (dmacPage c) DMAC.STATE_DB_PENDING 1
  else if st == dIdle then (s.setDState c dRunning).startFetch c false
  else s.setDmaCh c { s.dmaCh c with dbSince := true }

/-- Bytes of a record under PACKED (R374). -/
def packed (r : Rec) : List (BitVec 8) :=
  leBytes 9 (r.w0.toNat + 2 ^ 18 * r.w1.toNat + 2 ^ 36 * r.w2.toNat + 2 ^ 54 * r.w3.toNat)

def fromLe (bs : List (BitVec 8)) : Nat := bs.foldr (fun b a => b.toNat + 256 * a) 0

/-- A record from its nine PACKED bytes (R374). -/
def unpacked (bs : List (BitVec 8)) : Rec :=
  let v := fromLe bs
  ⟨wordAt v 0, wordAt v 18, wordAt v 36, wordAt v 54⟩

/-- Host bytes of the words [i, i + n) of a half as read: poison is 0xFF bytes or 0x8000_0000 dwords (R374). -/
def hostBytes (fmt : Nat) (r : Option Rec) (i n : Nat) : List (BitVec 8) :=
  match r with
  | some r => if fmt = 0 then packed r else (List.range n).flatMap fun j => leBytes 4 (recWord r (i + j)).toNat
  | none => if fmt = 0 then List.replicate 9 0xff else (List.range n).flatMap fun _ => leBytes 4 0x80000000

/-- How a move ended: all its halves, at a bank that makes it wait, or at a violation. -/
inductive MoveEnd where
  | all | waits | violated
  deriving DecidableEq, Repr

/-- Store to host, half by half: the bytes delivered, the poisoned records, how the move ended (R378, R380, R387). -/
def State.moveOut (s : State) (c fmt : Nat) : List (Nat × Nat × Nat) → List (BitVec 8) → Nat → Nat → List (BitVec 8) × Nat × Nat × MoveEnd × State
  | [], acc, w, p => (acc, w, p, .all, s)
  | (h, i, n) :: r, acc, w, p =>
    let b := h / 32768
    let line := h % 32768 / 2
    match s.gate b 4 0 with
    | .waits => (acc, w, p, .waits, s)
    | .violation => (acc, w, p, .violated, s.violate b 4 0 false line)
    | .granted =>
      match s.readHalf b line (h % 2) with
      | (x, s) => s.moveOut c fmt r (acc ++ hostBytes fmt x i n) (w + n) (p + b2n x.isNone)

/-- Words of host data, by format (R374). -/
def hostWords (fmt : Nat) (bs : List (BitVec 8)) : List Word :=
  if fmt = 0 then (List.range (bs.length / 9)).flatMap fun j =>
    let r := unpacked ((bs.drop (9 * j)).take 9)
    [r.w0, r.w1, r.w2, r.w3]
  else (List.range (bs.length / 4)).map fun j => BitVec.ofNat 18 (fromLe ((bs.drop (4 * j)).take 4))

/-- Replaces words from `i` on. -/
def setWords (i : Nat) (ws : List Word) (r : Rec) : Rec := (ws.zipIdx i).foldl (fun r x => recSetWord r x.2 x.1) r

/-- Host to store, half by half: whole halves written whole, head and tail as partial writes (R379). -/
def State.moveIn (s : State) : List (Nat × Nat × Nat) → List Word → Nat → Nat → Nat × Nat × MoveEnd × State
  | [], _, w, u => (w, u, .all, s)
  | (h, i, n) :: r, ws, w, u =>
    let b := h / 32768
    let line := h % 32768 / 2
    match s.gate b 5 0 with
    | .waits => (w, u, .waits, s)
    | .violation => (w, u, .violated, s.violate b 5 0 true line)
    | .granted =>
      if n = 4 then ((s.writeHalf b line (h % 2) (setWords 0 (ws.take 4) Rec.pad)).injectHalf b line (h % 2)).moveIn r (ws.drop 4) (w + 4) u
      else
        match s.partialWrite b line (h % 2) 5 (setWords i (ws.take n)) with
        | (ok, s) => s.moveIn r (ws.drop n) (w + n) (u + b2n (!ok))

/-! Which channel is served (R369) -/

/-- The channel that an engine serves next of those that can be served: the highest PRIO, and of equal ones the one served longest ago. -/
def State.dmaPick (s : State) (can : Nat → Bool) : Option Nat :=
  (s.dmaTurn.filter can).foldl
    (fun best c =>
      match best with
      | none => some c
      | some b => if s.fld (dmacPage b) DMAC.CTRL_PRIO < s.fld (dmacPage c) DMAC.CTRL_PRIO then some c else some b) none

/-- The channel has been served. -/
def State.dmaServed (s : State) (c : Nat) : State := { s with dmaTurn := s.dmaTurn.filter (· != c) ++ [c] }

/-- The channel has a descriptor to work on. -/
def State.hasWork (s : State) (c : Nat) : Bool := s.dState c == dRunning && ((s.dmaCh c).cur.isSome || (s.dmaCh c).ahead.isSome)

/-- SERIAL mode chooses its active channel: of those with work the highest PRIO, the lower number on a tie. One whose work ends at once makes way for the
next choice. -/
def State.chooseSerial (s : State) : Nat → State
  | 0 => s
  | fuel + 1 =>
    if !s.bit dmaPage DMA.MODE_SERIAL || s.bit dmaPage DMA.live_SERIAL_ACTIVE then s
    else
      match ({ s with dmaTurn := List.range 8 }).dmaPick s.hasWork with
      | some c => (((s.setFld dmaPage DMA.live_SERIAL_ACTIVE 1).setFld dmaPage DMA.live_SERIAL_CH c).goOn c).chooseSerial fuel
      | none => s

/-- The channel may issue a read of its current descriptor's data (R369, R383, R387). -/
def State.mayRead (s : State) (c : Nat) : Bool :=
  s.dState c == dRunning && (s.dmaCh c).cur.isSome && !s.engineFrozen c && !(s.dmaCh c).readback && s.modeServes c

/-- `u` more units of the buffer are free for the channel: 128 in all, and in CONCURRENT 64 of its own (R369). -/
def State.unitsFree (s : State) (c u : Nat) : Bool :=
  decide (s.dmaHeld + u ≤ 128) && (s.bit dmaPage DMA.MODE_SERIAL || decide (s.dmaUnits c + u ≤ 64))

/-- A channel that reads the store may do so now: a unit is free, and none of its reads waits. -/
def State.mayFill (s : State) (c : Nat) : Bool :=
  decide (c < 6) && s.mayRead c && s.unitsFree c 1 && !s.reqs.any fun q => q.access == .move c

/-- The store-to-host channel whose turn it is. -/
def State.readTurn (s : State) : Option Nat := s.dmaPick s.mayFill

/-! Reads of host memory (R379) -/

/-- Host address and length of the next read of the current descriptor: up to the next multiple of the Max Read Request Size, which divides
4 KiB. -/
def State.nextRead (s : State) (c : Nat) (d : Desc) : Nat × Nat :=
  let x := s.dmaCh c
  let a := d.host + x.asked
  (a, min (getBits d.dw0 0 24 - x.asked) (s.endpoint.maxRead - a % s.endpoint.maxRead))

/-- A host-to-store channel may issue its next read: buffer units are free for it, and fewer than 49 non-posted requests are outstanding, so that the
fetches, the read-backs and LOAD stay within 64 (R369; the 49 DESIGN CHOICE, assumption 85). -/
def State.mayAsk (s : State) (c : Nat) : Bool :=
  match (s.dmaCh c).cur with
  | none => false
  | some d =>
    let n := (s.nextRead c d).2
    dirWrite c && s.mayRead c && decide (0 < n) && s.unitsFree c ((n + 511) / 512) && decide (s.dmaOutstanding < 49)

/-- The units of a read of `n` bytes. -/
def unitsOf (n : Nat) : List Nat := (List.range ((n + 511) / 512)).map fun j => min 512 (n - 512 * j)

/-- Issues the next read of a channel. -/
def State.askHost (s : State) (c : Nat) : State :=
  match (s.dmaCh c).cur with
  | none => s
  | some d =>
    match s.nextRead c d with
    | (a, n) =>
      let s := s.issueReq c
      let x := s.dmaCh c
      ((s.setDmaCh c { x with asked := x.asked + n, reads := x.reads ++ [⟨n, [], false⟩], units := x.units ++ unitsOf n }).send (.hostRead a n)).dmaServed c

/-- The write engine issues the reads that it may. -/
def State.askReads (s : State) : Nat → State
  | 0 => s
  | fuel + 1 =>
    match s.dmaPick s.mayAsk with
    | some c => (s.askHost c).askReads fuel
    | none => s

/-- What the engines do of themselves: fetches and descriptors that waited, SERIAL mode's choice, the reads of host memory. -/
def State.dmaServe (s : State) : State := (((List.range 8).foldl State.goOn s).chooseSerial 8).askReads 64

/-! Moves (R374, R378 to R380) -/

/-- The channel can write data to its destination: what it has read before a pause too (R383). -/
def State.mayMove (s : State) (c : Nat) : Bool :=
  (s.dState c == dRunning || s.dState c == dPausing) && !s.engineFrozen c && !(s.dmaCh c).readback

/-- Words and bytes of a format: where the byte `n` of a descriptor's data stands, as an offset in words (R374). -/
def wordOfByte (fmt n : Nat) : Nat := if fmt = 0 then n / 9 * 4 + 8 * (n % 9) / 18 else n / 4

/-- Bytes of whole records or words. -/
def bytesOfWords (fmt w : Nat) : Nat := if fmt = 0 then w / 4 * 9 else w * 4

/-- Bytes of a store-to-host channel's next unit: up to the next multiple of 512 in host memory, at which every Max Payload Size splits too (R369,
R378). -/
def State.unitSize (s : State) (c : Nat) : Nat :=
  min (s.fld (dmacPage c) DMAC.CUR_LEFT_BYTES) (512 - s.pair (dmacPage c) DMAC.CUR_HOST_LO % 512)

/-- First word, relative to WORD, and number of the words that the next unit needs beside those read already, taken to the end of their half. -/
def State.readSpan (s : State) (c : Nat) (d : Desc) : Nat × Nat :=
  let x := s.dmaCh c
  let fmt := getBits d.dw0 24 4
  let w := wordOfByte fmt (x.count + x.buf.length)
  let need := s.unitSize c - x.buf.length
  let k := if fmt = 0 then 4 * ((need + 8) / 9) else (need + 3) / 4
  let word := getBits d.dw1 0 25
  let rest := wordOfByte fmt (getBits d.dw0 0 24) - w
  (w, if k = 0 then 0 else min rest ((word + w + k + 3) / 4 * 4 - word - w))

/-- Words that a unit's bytes in the buffer fill, up to the last half that is complete or ends the descriptor (R369, R379). -/
def State.writeSpan (s : State) (c : Nat) (d : Desc) : Nat :=
  let fmt := getBits d.dw0 24 4
  let left := s.fld (dmacPage c) DMAC.CUR_LEFT_BYTES
  let n := min 512 (s.dmaCh c).buf.length
  let avail := if fmt = 0 then 4 * (n / 9) else n / 4
  if bytesOfWords fmt avail = left then avail else avail - min avail ((s.fld (dmacPage c) DMAC.CUR_WORD_WORD + avail) % 4)

/-- A channel that writes the store has something to write. -/
def State.mayDrain (s : State) (c : Nat) : Bool :=
  match (s.dmaCh c).cur with
  | some d => dirWrite c && s.mayMove c && decide (0 < s.writeSpan c d) && !s.reqs.any fun q => q.access == .move c
  | none => false

/-- The host-to-store channel whose turn it is. -/
def State.writeTurn (s : State) : Option Nat := s.dmaPick s.mayDrain

/-- The halves that the next move reads or writes. -/
def State.moveHalves (s : State) (c : Nat) (d : Desc) : List (Nat × Nat × Nat) :=
  if dirWrite c then halvesOf (s.fld (dmacPage c) DMAC.CUR_WORD_WORD) (s.writeSpan c d)
  else match s.readSpan c d with
    | (w, k) => halvesOf (getBits d.dw1 0 25 + w) k

/-- What is left of pieces of data, oldest first, once `n` bytes of them are done with. -/
def piecesLeft : List Nat → Nat → List Nat
  | [], _ => []
  | m :: r, n => if m ≤ n then piecesLeft r (n - m) else (m - n) :: r

/-- `bytes` of the descriptor have been moved: position, COUNT, the units that are free again, and the completion read-back once no byte is left
(R369, R378, R379, R381). -/
def State.moved (s : State) (c : Nat) (d : Desc) (bytes poisoned refused : Nat) (buf : List (BitVec 8)) : State :=
  let x := s.dmaCh c
  let count := x.count + bytes
  let s := s.setFld (dmacPage c) DMAC.CUR_WORD_WORD (getBits d.dw1 0 25 + wordOfByte (getBits d.dw0 24 4) count)
  let s := s.setPair (dmacPage c) DMAC.CUR_HOST_LO (s.pair (dmacPage c) DMAC.CUR_HOST_LO + bytes)
  let left := s.fld (dmacPage c) DMAC.CUR_LEFT_BYTES - bytes
  let s := s.setFld (dmacPage c) DMAC.CUR_LEFT_BYTES left
  let s := s.addSat (dmacPage c) DMAC.POISONED poisoned
  let s := (s.setDmaCh c { x with
    count := count, poisoned := x.poisoned + poisoned, ueRefused := x.ueRefused + refused, readback := left == 0, buf := buf,
    units := piecesLeft x.units bytes }).satisfied c
  let s := if 0 < refused then s.raise (dmacPage c) DMAC.err_UE_WRITE else s
  if left = 0 && !dirWrite c then s.send (.hostRead ((d.host + getBits d.dw0 0 24 - 1) / 4 * 4) 4) else s

/-- Host writes of `bs` from address `a` on, split at every multiple of `m` (R378). -/
def State.writeHost (s : State) (m : Nat) : Nat → Nat → List (BitVec 8) → State
  | 0, _, _ => s
  | fuel + 1, a, bs =>
    if bs.isEmpty then s
    else
      let n := m - a % m
      (s.send (.hostWrite a (bs.take n))).writeHost m fuel (a + n) (bs.drop n)

/-- A violation stops the channel in place, and with it every channel of its engine, until the engine is released (R387). -/
def State.markViolated (s : State) (c : Nat) (e : MoveEnd) : State :=
  if e = .violated then
    let s := ((List.range 8).filter fun k => dirWrite k == dirWrite c).foldl (fun s k => s.setDmaCh k { s.dmaCh k with frozenAt := some s.time.tclk }) s
    s.setDmaCh c { s.dmaCh c with violated := true }
  else s

/-- Bytes of the buffer go to host memory: at most 512 of them, in at most five writes. -/
def State.bufToHost (s : State) (c : Nat) (d : Desc) (data : List (BitVec 8)) (n poisoned : Nat) : State :=
  let bs := data.take n
  (s.writeHost s.endpoint.maxPayload 8 (s.pair (dmacPage c) DMAC.CUR_HOST_LO) bs).moved c d bs.length poisoned 0 (data.drop n)

/-- Store to host: one unit, of what the buffer and the store give (R369, R378). -/
def State.moveToHost (s : State) (c : Nat) (d : Desc) : State :=
  let n := s.unitSize c
  match (s.dmaServed c).moveOut c (getBits d.dw0 24 4) (s.moveHalves c d) (s.dmaCh c).buf 0 0 with
  | (data, _, p, e, s) => (s.bufToHost c d data n p).markViolated c e

/-- Host to store (R379). -/
def State.moveToStore (s : State) (c : Nat) (d : Desc) : State :=
  let fmt := getBits d.dw0 24 4
  let buf := (s.dmaCh c).buf
  match (s.dmaServed c).moveIn (s.moveHalves c d) (hostWords fmt buf) 0 0 with
  | (w, u, e, s) =>
    let n := bytesOfWords fmt w
    (if w = 0 then s else s.moved c d n 0 u (buf.drop n)).markViolated c e

/-- A channel that may move data moves some (R369, R378, R379). -/
def State.dmaMove (s : State) (c : Nat) : State :=
  match (s.dmaCh c).cur with
  | none => s
  | some d => if !s.mayMove c then s else if dirWrite c then s.moveToStore c d else s.moveToHost c d

/-- The descriptor in progress ends with an error status and the channel halts. -/
def State.failDesc (s : State) (c status : Nat) (err : Fld) : State :=
  match (s.dmaCh c).cur with
  | some d => (s.writeBack c d status s.now).haltCh c err
  | none => s

/-- Bytes that continue the buffer, and the reads that still bring or hold others: of the oldest read what has come, and once it is complete of
the one after it (R379). -/
def gather : List HostRead → List (BitVec 8) × List HostRead
  | [] => ([], [])
  | r :: l =>
    if r.lost then ((gather l).1, r :: (gather l).2)
    else if r.left = 0 then (r.got ++ (gather l).1, (gather l).2)
    else (r.got, { r with got := [] } :: l)

/-- Data of the channel's read `i`, counted from the oldest that it still holds, arrives, or its completion fails (R379, Table 12-6). What an
ABORT or a failure left outstanding is discarded (R384); a failure while the engine is frozen ends the descriptor at its release (R387). -/
def State.dataArrives (s : State) (c i : Nat) (k : Completion) (bytes : List (BitVec 8)) : State :=
  let x := s.dmaCh c
  match x.reads[i]? with
  | none => s.unexpected
  | some r =>
    let n := min bytes.length r.left
    if r.left = 0 then s.unexpected
    else if k ≠ .good then
      let s := (s.badCompletion k).setDmaCh c { x with reads := x.reads.eraseIdx i, failed := x.failed || !r.lost }
      if r.lost || s.engineFrozen c then s else s.failDesc c 9 DMAC.err_PCIE_ERR
    else if r.lost then
      s.setDmaCh c { x with reads := (x.reads.set i { r with left := r.left - n }).filter fun r => decide (0 < r.left) || !r.lost }
    else
      match gather (x.reads.set i { r with left := r.left - n, got := r.got ++ bytes.take n }) with
      | (bs, l) => (s.setDmaCh c { x with reads := l, buf := x.buf ++ bs }).satisfied c

/-- The completion read-back has returned at DTIME `t` (R381, R384). -/
def State.backUse (s : State) (c : Nat) (k : Completion) (t : DTime) : State :=
  match (s.dmaCh c).cur with
  | none => s
  | some d =>
    let s := s.setDmaCh c { s.dmaCh c with backAt := some (k, t) }
    if k ≠ .good then s.failDesc c 9 DMAC.err_PCIE_ERR
    else
      let s := s.writeBack c d (if (s.dmaCh c).ueRefused = 0 then 1 else 3) t
      if s.dState c == dAborting then ((s.idleCh c).abortEnds c).takeDoorbell c else (s.satisfied c).nextOf c

/-- The read-back of a store-to-host channel returns; to a frozen engine it waits for the release (R387). -/
def State.readbackDone (s : State) (c : Nat) (k : Completion) : State :=
  let x := s.dmaCh c
  if 0 < x.lostBack then (s.badCompletion k).setDmaCh c { x with lostBack := x.lostBack - 1 }
  else if !x.backOut c then s.unexpected
  else
    let s := s.badCompletion k
    if s.engineFrozen c then s.setDmaCh c { x with backAt := some (k, s.now) } else s.backUse c k s.now

/-- The last store line that a descriptor's data reach: bank and line (R381). -/
def Desc.lastLine (d : Desc) : Nat × Nat :=
  let w := getBits d.dw1 0 25 + wordOfByte (getBits d.dw0 24 4) (getBits d.dw0 0 24) - 1
  (w / 131072, w % 131072 / 8)

/-- A host-to-store channel reads back the last line it wrote, as its engine's master (R381, R387). -/
def State.readLast (s : State) (c : Nat) : State :=
  match (s.dmaCh c).cur with
  | none => s
  | some d =>
    match d.lastLine with
    | (b, line) =>
      match s.gate b 5 0 with
      | .waits => s
      | .violation => (s.violate b 5 0 false line).markViolated c .violated
      | .granted => ((s.readHalf b line 0).2.readHalf b line 1).2.backUse c .good s.now

/-- A host-to-store channel's read-back can be made. -/
def State.mayReadLast (s : State) (c : Nat) : Bool :=
  dirWrite c && (s.dmaCh c).readback && !s.engineFrozen c && !(s.reqs.any fun q => q.access == .back c)

/-- A write of 1 to PAUSE (R383). -/
def State.pauseCh (s : State) (c : Nat) : State :=
  if s.dState c == dRunning then s.setDState c dPausing
  else if s.dState c == dIdle then
    ((s.setDmaCh c { s.dmaCh c with atEnd := true, dbSince := false }).setDState c dPaused).post (dmacPage c) DMAC.st_PAUSED_SET
  else s

/-- What a pausing store-to-host channel has read and not written goes to the host (R383). -/
def State.flushBuf (s : State) (c : Nat) : State :=
  match (s.dmaCh c).cur with
  | some d =>
    let buf := (s.dmaCh c).buf
    if dirWrite c || buf.isEmpty || !s.mayMove c || (s.reqs.any fun q => q.access == .move c) then s else s.bufToHost c d buf buf.length 0
  | none => s

/-- Bytes in the buffer that can still be written: of the host-to-store direction whole halves, and what ends the descriptor. -/
def State.toWrite (s : State) (c : Nat) : Bool :=
  match (s.dmaCh c).cur with
  | some d => if dirWrite c then decide (0 < s.writeSpan c d) else !(s.dmaCh c).buf.isEmpty
  | none => false

/-- Every read issued before the pause has returned and its data is written: the channel is PAUSED (R383). -/
def State.pausedCh (s : State) (c : Nat) : State :=
  if s.dState c == dPausing then
    let s := s.flushBuf c
    if s.waits c || (s.dmaCh c).readback || (s.dmaCh c).fetched.isSome || (s.dmaCh c).failed || s.toWrite c then s
    else (s.setDState c dPaused).post (dmacPage c) DMAC.st_PAUSED_SET
  else s

/-- A write of 0 to PAUSE (R376, R377, R383): the channel goes on; one without a descriptor that read the end of the ring, with no doorbell since the
fetch, becomes IDLE and takes a held doorbell. -/
def State.resumeCh (s : State) (c : Nat) : State :=
  let x := s.dmaCh c
  if s.dState c == dPaused || s.dState c == dPausing then
    if x.cur.isNone && x.ahead.isNone && x.atEnd && !x.dbSince then (s.idleCh c).takeDoorbell c
    else
      let s := s.setDState c dRunning
      let s := if s.bit (dmacPage c) DMAC.STATE_DB_PENDING then
          (s.setFld (dmacPage c) DMAC.STATE_DB_PENDING 0).setDmaCh c { s.dmaCh c with dbSince := true }
        else s
      s.goOn c
  else s.takeDoorbell c

/-- An ABORT takes its descriptor (R384): it is written back ABORTED, or there is none, and the channel becomes IDLE. -/
def State.abortNow (s : State) (c : Nat) : State :=
  let s := match (s.dmaCh c).cur with
    | some d => s.writeBack c d 2 s.now
    | none => s
  (s.idleCh c).abortEnds c

/-- A write of 1 to ABORT (R384). It waits for the completion read-back, and on a frozen engine for the release, since nothing is written back before
(R387). -/
def State.abortCh (s : State) (c : Nat) : State :=
  let x := s.dmaCh c
  let st := s.dState c
  if st == dIdle || st == dHalted then (s.post (dmacPage c) DMAC.st_ABORT_DONE).unitEvent (dmacPage c)
  else if x.readback || (x.cur.isSome && s.engineFrozen c) then (s.setDState c dAborting).setFld (dmacPage c) DMAC.CTRL_ABORT 1
  else s.abortNow c

/-- A write of 1 to CLEAR (R382). -/
def State.clearCh (s : State) (c : Nat) : State := if s.dState c == dHalted then (s.idleCh c).takeDoorbell c else s

/-- A write of DMAC.CTRL (R377, R382 to R384, R390): discarded when it clears EN of a channel that is neither IDLE nor HALTED. -/
def State.ctrlWrite (s : State) (c : Nat) (v : Dword) (a : Agent) : State :=
  let base := dmacPage c
  let st := s.dState c
  if s.bit base DMAC.CTRL_EN && getBits v 0 1 == 0 && st != dIdle && st != dHalted then
    (s.raiseWrite base DMAC.err_BUSY_REJECT 0x044 a).entry .shadow a (base + 0x044) .busyReject v.toNat
  else
    let was := s.bit base DMAC.CTRL_PAUSE
    let s := s.storeValue .dmac c 0x044 ⟨0x044, 1, 0, 0x3, 0, 0x70, 0, 0⟩ v v true a false false
    let s := s.takeDoorbell c
    let s := if getBits v 1 1 = 1 then s.pauseCh c else if was then s.resumeCh c else s
    let s := if getBits v 2 1 = 1 then (s.entry .write a (base + 0x044) .done v.toNat).abortCh c else s
    (if getBits v 3 1 = 1 then s.clearCh c else s).dmaServe

/-- A request of the channel waits, or its turn to move a unit does, for the credit of the link (R385). -/
def State.dmaStalled (s : State) (c : Nat) : Bool := s.waits c || (s.dmaCh c).readback || s.readTurn == some c

/-- The stall timer of a RUNNING channel of which a request waits reaches its limit: the channel stops as for ABORT and halts. The timer stands while
the engine is frozen (R385). -/
def State.stallCh (s : State) (c : Nat) : State :=
  let limit := s.fld dmaPage DMA.STALL_TO_US * 1000
  if s.dState c == dRunning && limit != 0 && !s.engineFrozen c && s.dmaStalled c && decide ((s.dmaCh c).since + limit ≤ s.time.tclk) then
    ((if (s.dmaCh c).cur.isSome then s.failDesc c 0xb DMAC.err_STALLED else s.haltCh c DMAC.err_STALLED)).dmaServe
  else s

/-- The oldest descriptor fetch of the channel, or else its oldest data read or its read-back, times out, unless the host has disabled completion
timeouts (R359, R385, R386). -/
def State.cplTimeout (s : State) (c : Nat) (fetch : Bool) : State :=
  let x := s.dmaCh c
  let i := x.reads.findIdx fun r => decide (0 < r.left)
  if s.endpoint.timeoutOff then s
  else if fetch then if 0 < x.lostFetch || x.fetching then (s.fetchDone c (.failed .timeout)).dmaServe else s
  else if i < x.reads.length then (s.dataArrives c i .timeout []).dmaServe
  else if 0 < x.lostBack || x.backOut c then (s.readbackDone c .timeout).dmaServe
  else s

/-- The PCI Express link goes down: active channels stop in place, nothing is written back, and what was outstanding never returns (R388). -/
def State.linkLost (s : State) : List Nat → State
  | [] => s
  | c :: r =>
    let st := s.dState c
    let s := s.setDmaCh c { s.dmaCh c with fetching := false, reads := [], readback := false, lostFetch := 0, lostBack := 0 }
    let s := if st == dRunning || st == dPausing || st == dPaused || st == dAborting then
        (s.haltCh c DMAC.err_PCIE_ERR).setFld (dmacPage c) DMAC.STATE_LAST_STATUS 9
      else s
    s.linkLost r

/-- The stall timer of a channel goes on where it stood (R385). -/
def State.unfreeze (s : State) (c : Nat) : State :=
  let x := s.dmaCh c
  match x.frozenAt with
  | some t => s.setDmaCh c { x with frozenAt := none, since := if x.since ≤ t then x.since + (s.time.tclk - t) else s.time.tclk }
  | none => s

/-- What a channel does first after its engine's release (R387): the one that violated writes its descriptor back and halts, as does one of which a
read failed meanwhile; an ABORT that waited takes effect; a read-back or a fetch that returned acts. -/
def State.released1 (s : State) (c : Nat) : State :=
  let x := s.dmaCh c
  if x.violated then s.failDesc c 0xa DMAC.err_VIOLATION
  else if x.failed then s.failDesc c 9 DMAC.err_PCIE_ERR
  else if s.dState c == dAborting && !x.readback then s.abortNow c
  else
    let s := match x.backAt with
      | some (k, t) => s.backUse c k t
      | none => s
    match (s.dmaCh c).fetched with
    | some r => s.fetchUse c r
    | none => s

/-- Release of engines, over the channels they serve (R385, R387). -/
def State.releaseDma (s : State) : List Nat → State
  | [] => s.dmaServe
  | c :: r => (if s.engineFrozen c then s else (s.unfreeze c).released1 c).releaseDma r

/-- Writes of RING_LO, RING_HI and RING_SIZE: only while EN is 0; a size below 15 is stored as 15 (R371, R390, Table 12-11). -/
def State.ringVerdict (s : State) (c off : Nat) (v : Dword) : Verdict :=
  if s.bit (dmacPage c) DMAC.CTRL_EN then .reject DMAC.err_BUSY_REJECT .busyReject
  else if off = 0x050 ∧ getBits v 0 16 < 15 then .accept (setBits v 0 16 15) (some DMAC.err_RANGE)
  else .accept v none

/-- Every channel is IDLE or HALTED (R370). -/
def State.dmaQuiet (s : State) : Bool := (List.range 8).all fun c => s.dState c == dIdle || s.dState c == dHalted

end Sys2Proof.Machine
end

