-- ==== Sys2Proof/Machine/Lent.lean ====
section
/-! DEFINITION. Lent banks: the record writer of a region with a remote ring, and the lender (R268, R312 to R314). -/
namespace Sys2Proof.Machine
open Sys2Proof

/-- Port of the remote ring of region `n`, and its bank for stripe group `g`. -/
def State.remPort (s : State) (n : Nat) : Nat := s.fld swarmPage (remotePort n)
def State.remBank (s : State) (n g : Nat) : Nat := s.fld swarmPage (remoteFirst n) + g

/-- The group a remote ring enters next. -/
def State.remNext (s : State) (n : Nat) : Nat := s.nextGroup (8 + n)

/-- The link to the lender carries reliable frames. -/
def State.remLink (s : State) (n : Nat) : Bool := s.live && !s.inCluster && s.lstate (s.remPort n) == lJoined

/-- Sends LENT_ENTER for the next bank. -/
def State.remAsk (s : State) (n : Nat) : State :=
  let b := s.remBank n (s.remNext n)
  let s := (s.setRem n ⟨some b, none, false⟩).showStall (8 + n) true
  s.sendReliable (s.remPort n) s.ordinal 0 (.lentEnter (BitVec.ofNat 8 b) (BitVec.ofNat 16 ((s.writer (8 + n)).fills + 1)))

/-- The record writer of region `n` asks to enter its next bank (R313), while its region records or it still holds records to write (R39,
R43, R45). -/
def State.remEnter (s : State) (n : Nat) : State :=
  if !s.remote n || (s.writer (8 + n)).entered || s.recFrozen n || (s.rem n).asked.isSome || (!s.recording n && (s.writer (8 + n)).queue.isEmpty) then s
  else if s.remLink n then s.remAsk n else s.showStall (8 + n) true

/-- A refused borrower asks again 1 µs later (R313). -/
def State.lentRetry (s : State) (n : Nat) : State :=
  match (s.rem n).asked, (s.rem n).refused with
  | some _, some t => if s.remote n && s.remLink n && !s.recFrozen n && decide (t + 1000 ≤ s.time.tclk) then s.remAsk n else s
  | _, _ => s

/-- The writer enters the bank it asked for. -/
def State.remGranted (s : State) (n : Nat) : State :=
  let w := s.writer (8 + n)
  let s := (s.setWriter (8 + n) { w with line := 0, group := s.remNext n, entered := true, fills := w.fills + 1 }).setRem n Remote.init
  (s.showStall (8 + n) false).post (regPage n) REG.st_RING_ADVANCE

/-- The lender's release of the port reaches the borrower: the loss record first, then the next bank (R268, R314). -/
def State.remReleased (s : State) (n : Nat) : State :=
  let w := s.writer (8 + n)
  let s := ((s.setRem n Remote.init).frozenEnds n (104 + n) 2 w.frozenAt).frozenFirst n
  s.setWriter (8 + n) { s.writer (8 + n) with entered := false }

/-- The window of 64 FCLK cycles in progress, of two TCLK cycles each. -/
def State.laneWindow (s : State) : Nat := s.time.tclk / 128

/-- Lines to lent banks that port `p` has sent in this window: it carries up to 16 (R313). -/
def State.lentSent (s : State) (p : Nat) : Nat := if (s.link p).lent.1 = s.laneWindow then (s.link p).lent.2 else 0
def State.noteLent (s : State) (p : Nat) : State := s.modLink p fun l => { l with lent := (s.laneWindow, s.lentSent p + 1) }

/-- Writes one line of a remote ring; `padOk` tells that a lone record may be completed with a pad (R267, R313). -/
def State.remWrite (s : State) (n : Nat) (padOk : Bool) : State :=
  let i := 8 + n
  let w := s.writer i
  if !s.remote n || !w.entered || s.recFrozen n || !s.remLink n || w.queue.isEmpty || decide (16 ≤ s.lentSent (s.remPort n)) then s
  else
    let left := 2 * (16384 - w.line)
    match s.takeRec i left with
    | (none, _) => s
    | (some r0, t) =>
      match (match t.takeRec i (left - 1) with
        | (some r, u) => (some r, u)
        | (none, u) => (if padOk then some Rec.pad else none, u)) with
      | (none, _) => s
      | (some r1, t) =>
        let t := t.setWriter i { t.writer i with since := t.time.tclk, line := w.line + 1, entered := w.line + 1 != 16384 }
        let t := t.sendReliable (t.remPort n) t.ordinal 0 (.lentLine (BitVec.ofNat 8 (t.remBank n w.group)) (BitVec.ofNat 14 w.line) r0 r1)
        ((t.noteLent (t.remPort n)).addSat (linkPage (t.remPort n)) LINK.LENT_LINES 1).ringFullEnds n (104 + n)

/-- A line of writer `i`, in its own store or in lent banks. -/
def State.writerLine (s : State) (i : Nat) : State :=
  if !s.live || s.inCluster then s else if 8 ≤ i ∧ s.remote (i - 8) then s.remWrite (i - 8) false else s.writeOne i false

/-- A lone record is padded (R267). -/
def State.writerPad (s : State) (i : Nat) : State :=
  if !s.live || s.inCluster then s
  else if 8 ≤ i ∧ s.remote (i - 8) then
    let w := s.writer i
    if w.held = 1 ∧ (w.since + 64 ≤ s.time.tclk ∨ ¬ s.executes (i - 8)) then s.remWrite (i - 8) true else s
  else s.padTimeout i

/-- Writer `i` enters its next stripe group, or asks its lender. -/
def State.writerEnter (s : State) (i : Nat) : State :=
  if !s.live || s.inCluster then s else if 8 ≤ i ∧ s.remote (i - 8) then s.remEnter (i - 8) else s.enterGroup i

/-! Frames -/

/-- LENT_ENTER at the lender (R313). -/
def State.lentEnterRx (s : State) (p : Nat) (hd : Head) (bank : BitVec 8) (fill : BitVec 16) : State :=
  s.receive p hd true false false fun s =>
    let b := bank.toNat
    let ok := s.ownerNow b == 7 + 16 * p && !s.draining b && !s.isFrozen (linkPage p) 8
    let s :=
      if ok then
        let s := s.forEach ((List.range 32).map (32 * (b / 32) + ·)) fun c s =>
          if s.ownerNow c == 7 + 16 * p then s.setFld (bankPage c) BANK.live_WRITER_IN 0 else s
        ((s.setWptr b 0).setFld (bankPage b) BANK.WPTR_FILL_NO fill.toNat).setFld (bankPage b) BANK.live_WRITER_IN 1
      else s
    s.sendReliable p s.ordinal 0 (.lentGrant bank ok)

/-- A line that came over port `p` for a lent bank: a violation freezes the port and is told to the borrower (R262, R314). -/
def State.lentWrite (s : State) (p bank line : Nat) (r0 r1 : Rec) : State :=
  if s.isFrozen (linkPage p) 8 then s
  else if s.gate bank 7 p = .violation then
    (s.violate bank 7 p true line).sendReliable p s.ordinal 0 (.lentGrant (BitVec.ofNat 8 bank) false)
  else ((s.writeLine bank line r0 r1).setWptr bank ((line + 1) % 16384)).addSat (linkPage p) LINK.LENT_LINES 1

/-- Regions that borrow through port `p`. -/
def State.borrowers (s : State) (p : Nat) : List Nat := (List.range 8).filter fun n => s.remote n && s.remPort n == p

/-- The lender has frozen the port: so is each writer that borrows through it. -/
def State.remFreeze (s : State) (n : Nat) : State :=
  if (s.rem n).frozen then s else (s.setRem n ⟨none, none, true⟩).setWriter (8 + n) { s.writer (8 + n) with frozenAt := s.now }

/-- LENT_GRANT at the borrower: the answer to the region that asked for the bank, or, where none did, the port's freeze and its release, which reach
every region that borrows through the port (R313, R314). -/
def State.lentGrantRx (s : State) (p : Nat) (hd : Head) (bank : BitVec 8) (ok : Bool) : State :=
  s.receive p hd true false false fun s =>
    match (s.borrowers p).find? fun n => (s.rem n).asked == some bank.toNat with
    | some n => if ok then s.remGranted n else s.setRem n ⟨some bank.toNat, some s.time.tclk, false⟩
    | none =>
      if ok then s.forEach ((s.borrowers p).filter fun n => (s.rem n).frozen) fun n s => s.remReleased n
      else if (s.borrowers p).any fun n => s.remBank n (s.writer (8 + n)).group == bank.toNat then s.forEach (s.borrowers p) fun n s => s.remFreeze n
      else s

/-- The lender's LINK page releases its lent-bank master, and the borrower is told (R314, R402). -/
def State.releaseLent (s : State) (p : Nat) : State :=
  if s.lstate p = lJoined then s.sendReliable p s.ordinal 0 (.lentGrant 0 true) else s

end Sys2Proof.Machine
end

