-- ==== Sys2Proof/Machine/Arbiter.lean ====
section
/-! DEFINITION. Who goes first: the lanes of a region's store switch, the chip interconnect, and requests that wait for either or for a bank whose
handover or fill is under way (R32, R34 to R36, R262, R263, R265). -/
namespace Sys2Proof.Machine
open Sys2Proof

/-! What a request needs -/

/-- Bank and line of each half of a list, each line once. -/
def linesOfHalves (hs : List (Nat × Nat × Nat)) : List (Nat × Nat) := (hs.map fun x => (x.1 / 32768, x.1 % 32768 / 2)).eraseDups

/-- The halves in which a BAR2 write changes a word (R365). -/
def writtenHalves (w : Nat) (ds : List (BitVec 4 × Dword)) : List (Nat × Nat × Nat) :=
  (halvesOf w ds.length).filter fun x => ((ds.drop (4 * x.1 + x.2.1 - w)).take x.2.2).any fun d => d.1 &&& 7 == 7

/-- Of `n` words from word `w` on those in the bank of word `w`: a request of the host window is carried out bank by bank (R366). -/
def inBank (w n : Nat) : Nat := min n (131072 - w % 131072)

/-- The lines of local banks that a request reads or writes, each one a lane's work in an FCLK cycle (R34); of the host window's requests, those in
the bank whose turn it is (R366). -/
def State.linesOf (s : State) (a : Access) : List (Nat × Nat) :=
  match a with
  | .line i _ =>
    if s.remoteRing i || !s.canWrite i || (s.writer i).queue.isEmpty then []
    else let g := s.nextLine i; [s.place i g.1 g.2]
  | .engine g =>
    let p := blkPage g
    if !s.bit p BLK.XFER_STATUS_BUSY || s.bit p BLK.XFER_STATUS_FROZEN || s.bit p BLK.live_HALTED then []
    else [(32 * (g / 8) + s.fld p BLK.XFER_STATUS_BANK, s.fld p BLK.XFER_STATUS_LINE)]
  | .move c =>
    match (s.dmaCh c).cur with
    | some d => if s.mayMove c then linesOfHalves (s.moveHalves c d) else []
    | none => []
  | .fetch .. => []
  | .back c =>
    match (s.dmaCh c).cur with
    | some d => if s.engineFrozen c then [] else [d.lastLine]
    | none => []
  | .hostRead _ w n _ => if s.windowFrozen then [] else linesOfHalves (halvesOf w (inBank w n))
  | .hostWrite w ds => if s.windowFrozen then [] else linesOfHalves (writtenHalves w (ds.take (inBank w ds.length)))
  | .lent p bank line _ _ => if s.isFrozen (linkPage p) 8 then [] else [(bank, line)]

/-- A bank that the request needs has a handover or a fill under way: the request waits (R262, R265). -/
def State.bankWaits (s : State) (a : Access) : Bool := (s.linesOf a).any fun l => s.draining l.1 || s.filling l.1

/-! The lanes of a region (R34, R35) -/

/-- A master's number among the contenders of Table 1-6: capture writer, record writer, bank engines of the 8 blocks, DMA read engine, DMA write
engine, host window, lent-bank streams. Round robin goes in this order (DESIGN CHOICE, assumption 83). -/
def Access.master : Access → Nat
  | .line i _ => i / 8
  | .engine g => 2 + g % 8
  | .move c | .fetch c _ | .back c => if dirWrite c then 11 else 10
  | .hostRead .. | .hostWrite .. => 12
  | .lent .. => 13

/-- The declared budget of a master, in lines per window of 64 FCLK cycles (Table 8-16). -/
def State.budget (s : State) (n m : Nat) : Nat :=
  let k := if m < 2 then m else if m < 10 then m + 4 else m - 8
  getBits (s.rd (regPage n + 0x10c + k / 2 * 4)) (k % 2 * 12) 12

def State.lanesOf (s : State) (n : Nat) : Lanes := Tab.get (fun _ => Lanes.init) s.lanes n

def State.setLanes (s : State) (n : Nat) (x : Lanes) : State := { s with lanes := Tab.set (fun _ => Lanes.init) s.lanes n x }

/-- The lanes of region `n` in the present FCLK cycle, of two TCLK cycles, and window; before the clocks are released none is counted. -/
def State.lanesNow (s : State) (n : Nat) : Lanes :=
  let x := s.lanesOf n
  let f := s.time.tclk / 2
  { x with
    fclk := f
    used := if s.bit tbPage TB.live_STARTED then x.used - 32 * (f - x.fclk) else 0
    got := if f / 64 = x.fclk / 64 then x.got else [] }

/-- Lines that master `m` has been granted in the window. -/
def Lanes.lines (x : Lanes) (m : Nat) : Nat := Tab.get (fun _ => 0) x.got m

/-- The first tier serves a master that has received fewer lines than its budget in the window. -/
def State.firstTier (s : State) (n m : Nat) : Bool := decide ((s.lanesNow n).lines m < s.budget n m)

/-- Lanes that other requests take before the next one of master `m`: in its own tier one for each master that the rotation reaches sooner, and in the
second tier what is left of the budgets of those in the first. `rivals` names the master of each other request. -/
def State.lanesBefore (s : State) (n m : Nat) (rivals : List Nat) : Nat :=
  let x := s.lanesNow n
  let sooner := fun (turn : Nat) (tier : Bool) =>
    ((List.range 14).filter fun k => k != m && rivals.contains k && s.firstTier n k == tier && decide ((k + 14 - turn) % 14 < (m + 14 - turn) % 14)).length
  if s.firstTier n m then sooner x.first true
  else ((List.range 14).map fun k => if s.firstTier n k then min (rivals.count k) (s.budget n k - x.lines k) else 0).foldl (· + ·) (sooner x.second false)

/-- The region whose lanes a request needs, if it needs any. -/
def State.laneRegion (s : State) (a : Access) : Option Nat := (s.linesOf a).head?.map fun l => l.1 / 32

/-- A lane is left for the request after those that go before it. -/
def State.laneFree (s : State) (others : List Request) (a : Access) : Bool :=
  match s.laneRegion a with
  | none => true
  | some n =>
    let rivals := (others.filter fun q => s.laneRegion q.access == some n && !s.bankWaits q.access).map (·.access.master)
    decide ((s.lanesNow n).used + s.lanesBefore n a.master rivals < 32)

/-- `k` lines of region `n` are granted to master `m`; the rotation of its tier goes on with the master after it. -/
def State.useLanes (s : State) (m n k : Nat) : State :=
  let x := s.lanesNow n
  let x : Lanes := { x with
    used := x.used + k
    got := Tab.set (fun _ => 0) x.got m (x.lines m + k)
    first := if s.firstTier n m then (m + 1) % 14 else x.first
    second := if s.firstTier n m then x.second else (m + 1) % 14 }
  s.setLanes n x

/-- The request takes its lanes, in each region that its lines stand in. -/
def State.takeLanes (s : State) (a : Access) : State :=
  let rs := (s.linesOf a).map fun l => l.1 / 32
  rs.eraseDups.foldl (fun s n => s.useLanes a.master n (rs.count n)) s

/-! The chip interconnect (R36) -/

/-- The rank that breaks a tie between transfers on the chip interconnect: ports L0 to L3, DMA write engine, DMA read engine, PCI Express endpoint,
regions 0 to 7; none for a request that stays within its region. -/
def State.chipRank (s : State) (a : Access) : Option Nat :=
  match a with
  | .line i _ => if s.remoteRing i then some (7 + i % 8) else none
  | .engine _ => none
  | .move c | .fetch c _ | .back c => some (if dirWrite c then 4 else 5)
  | .hostRead .. | .hostWrite .. => some 6
  | .lent p .. => some p

/-- `q` is a transfer that goes before one raised at `raised` of rank `r`: it is older, or as old and first in the order of ties. -/
def State.goesBefore (s : State) (raised r : Nat) (q : Request) : Bool :=
  (s.chipRank q.access).any fun k => (decide (q.raised < raised) || (q.raised == raised && decide (k < r))) && !s.bankWaits q.access

/-- No other transfer goes before. -/
def State.chipFree (s : State) (raised : Nat) (others : List Request) (a : Access) : Bool :=
  match s.chipRank a with
  | none => true
  | some r => !others.any fun q => s.goesBefore raised r q

/-! Requests -/

/-- The request is granted now: its banks take requests, a lane is left for it, and no other transfer goes before it. -/
def State.granted (s : State) (raised : Nat) (others : List Request) (a : Access) : Bool :=
  !s.bankWaits a && s.laneFree others a && s.chipFree raised others a

/-- What a granted request does, and what is left of it for a later bank (R366); a bank that its master does not own makes it a violation (R263). -/
def State.perform (s : State) (a : Access) : Option Access × State :=
  match a with
  | .line i pad => (none, (if pad then s.writerPad i else s.writerLine i).settle)
  | .engine g => (none, s.bxferLine g)
  | .move c => (none, (s.dmaMove c).dmaServe)
  | .fetch c r => (none, (s.fetchDone c r).dmaServe)
  | .back c => (none, (s.readLast c).dmaServe)
  | .hostRead addr w n got =>
    let k := inBank w n
    match s.bar2ReadHalves (halvesOf w k) [] with
    | (ds, s) => if k < n then (some (.hostRead addr (w + k) (n - k) (got ++ ds)), s) else (none, s.send (.readData addr (got ++ ds)))
  | .hostWrite w ds =>
    let k := inBank w ds.length
    (if k < ds.length then some (.hostWrite (w + k) (ds.drop k)) else none, s.bar2Write w (ds.take k))
  | .lent p bank line r0 r1 => (none, s.lentWrite p bank line r0 r1)

/-- A request is granted, or waits; a request of several banks goes on with its next bank, `fuel` banks at most, and waits for the others. -/
def State.requestBanks (s : State) (raised : Nat) (others : List Request) : Nat → Access → State
  | 0, a => { s with reqs := s.reqs ++ [⟨raised, a⟩] }
  | fuel + 1, a =>
    if s.granted raised others a then
      match (s.takeLanes a).perform a with
      | (none, s) => s
      | (some a, s) => s.requestBanks raised others fuel a
    else { s with reqs := s.reqs ++ [⟨raised, a⟩] }

/-- A request is granted, or waits. A request of the host window reaches two banks at most. -/
def State.request (s : State) (raised : Nat) (others : List Request) (a : Access) : State := s.requestBanks raised others 2 a

/-- The request that a command brings, raised in this ACLK cycle. -/
def requestOf : Instr → Option Access
  | .writerLineWrite i => some (.line i.val false)
  | .padTimeout i => some (.line i.val true)
  | .bxferLine g => some (.engine g.val)
  | .dmaDataMove c .. => some (.move c.val)
  | .descriptorFetch c r => some (.fetch c.val r)
  | .descriptorComplete c _ => if dirWrite c.val then some (.back c.val) else none
  | .bar2Read w n => some (.hostRead (4 * w.toNat) w.toNat n.val [])
  | .bar2Write w ds => some (.hostWrite w.toNat ds)
  | .lentLineRx p _ bank line r0 r1 => some (.lent p.val bank.toNat line.toNat r0 r1)
  | _ => none

/-- The requests beside one that is raised now: those that wait, and those that commands of this cycle bring. -/
def State.others (s : State) : List Request := s.reqs ++ (s.pending.filterMap requestOf).map fun a => ⟨s.aclk, a⟩

/-- A command's request. -/
def State.ask (s : State) (a : Access) : State := s.request s.aclk s.others a

/-- A DMA channel moves a unit (R369): the store-to-host channel whose turn it is reads the store and writes the host; for a host-to-store channel data
of its read `i` arrives, and the channel whose turn it is writes the store. A request that waits takes in what comes meanwhile. -/
def State.dmaData (s : State) (c i : Nat) (k : Completion) (bytes : List (BitVec 8)) : State :=
  if dirWrite c then
    let s := if k = .good ∧ bytes = [] then s else (s.dataArrives c i k bytes).dmaServe
    if s.writeTurn = some c then (s.issueReq c).ask (.move c) else s
  else if s.readTurn = some c then (s.issueReq c).ask (.move c)
  else s

/-- The completion read-back returns: from host memory, or of the last store line (R381). -/
def State.dmaComplete (s : State) (c : Nat) (k : Completion) : State :=
  if dirWrite c then if s.mayReadLast c then (s.issueReq c).ask (.back c) else s else (s.readbackDone c k).dmaServe

/-- The older request first, the order of ties among those of one age. -/
def State.reqBefore (s : State) (p q : Request) : Bool :=
  decide (p.raised < q.raised) || (p.raised == q.raised && decide ((s.chipRank p.access).getD 15 ≤ (s.chipRank q.access).getD 15))

def State.insertReq (s : State) (q : Request) : List Request → List Request
  | [] => [q]
  | p :: r => if s.reqBefore p q then p :: s.insertReq q r else q :: p :: r

/-- Requests that wait, one after the other. -/
def State.serveAll (s : State) : List Request → State
  | [] => s
  | q :: r => (s.request q.raised r q.access).serveAll r

/-- The requests that wait are tried again, oldest first. -/
def State.serveReqs (s : State) : State := ({ s with reqs := [] }).serveAll (s.reqs.foldl (fun l q => s.insertReq q l) [])

/-- LENT_LINE at the lender: the frame is received, and its line waits where it must (R262, R314). -/
def State.lentLineRx (s : State) (p : Nat) (hd : Head) (bank : BitVec 8) (line : BitVec 14) (r0 r1 : Rec) : State :=
  s.receive p hd true false false fun s => s.ask (.lent p bank.toNat line.toNat r0 r1)

end Sys2Proof.Machine
end

