-- ==== Sys2Proof/Machine/Synth.lean ====
section
/-! DEFINITION. The output synthesizers: frequency changes, band searches, hops, enables, delay, dither and spread, loss of the root, loopback
selection (R340 to R358). -/
namespace Sys2Proof.Machine
open Sys2Proof

def State.syn (s : State) (i : Nat) : Syn := Tab.get (fun _ => Syn.init) s.syns i
def State.setSyn (s : State) (i : Nat) (x : Syn) : State := { s with syns := Tab.set (fun _ => Syn.init) s.syns i x }
def State.modSyn (s : State) (i : Nat) (f : Syn → Syn) : State := s.setSyn i (f (s.syn i))

def allSyns : List Nat := List.range 6

/-- The multiplier INT + FRAC/2^24 in force, in 2^-24 (R340). -/
def State.synMult (s : State) (i : Nat) : Nat := (s.rd (synPage i + 0x44)).toNat % 2 ^ 29

/-- The programmed output frequency f_out in Hz, and with it the mean frequency without spread (R340). -/
def State.synFreq (s : State) (i : Nat) : Rat :=
  250000000 * ((s.synMult i : Rat) / ((2 ^ 24 : Nat) : Rat)) / ((s.fld (synPage i) SYN.DIV_DIV_M1 + 1 : Nat) : Rat)

/-- The depth d of the spread, and the rate of its triangle in Hz (R352). -/
def State.spreadDepth (s : State) (i : Nat) : Rat := (s.fld (synPage i) SYN.SPREAD_DEPTH : Rat) / 10000
def State.spreadRate (s : State) (i : Nat) : Nat := (30 + s.fld (synPage i) SYN.SPREAD_RATE) * 1000

/-- The least and the greatest factor by which spread moves the frequency (R352). -/
def State.spreadRange (s : State) (i : Nat) : Rat × Rat :=
  let d := s.spreadDepth i
  if !s.bit (synPage i) SYN.STATUS_SPREADING then (1, 1)
  else if s.bit (synPage i) SYN.SPREAD_MODE then (1 - d / 2, 1 + d / 2) else (1 - d, 1)

/-- Where the triangle stands, from 0 to 1 of its period: it restarted from f_out (R353). -/
def State.spreadPhase (s : State) (i : Nat) : Rat := (((s.time.tclk - (s.syn i).triangle) * s.spreadRate i % 10 ^ 9 : Nat) : Rat) / 10 ^ 9

/-- The factor by which spread moves the frequency now: in down mode the triangle runs from f_out to f_out × (1 − d) and back, in centre mode about f_out
(R352, R353). -/
def State.spreadNow (s : State) (i : Nat) : Rat :=
  let d := s.spreadDepth i
  let φ := s.spreadPhase i
  if !s.bit (synPage i) SYN.STATUS_SPREADING then 1
  else if s.bit (synPage i) SYN.SPREAD_MODE then
    let t : Rat := if 4 * φ ≤ 1 then 4 * φ else if 4 * φ ≤ 3 then 2 - 4 * φ else 4 * φ - 4
    1 + (if Config.spreadRises then t else -t) * d / 2
  else 1 - d * (if 2 * φ ≤ 1 then 2 * φ else 2 - 2 * φ)

/-- The output frequency now, in Hz. -/
def State.synNow (s : State) (i : Nat) : Rat := s.synFreq i * s.spreadNow i

/-- Cycles of the phase detector, at 250 MHz, since the dither register was loaded (R340, R351). -/
def State.ditherCount (s : State) (i : Nat) : Nat := (s.time.tclk - (s.syn i).ditherAt) / 4

/-- The dither register: it has shifted once in each cycle of the phase detector since it was loaded (DESIGN CHOICE, assumption 61). -/
def State.ditherNow (s : State) (i : Nat) : BitVec 24 := Nat.repeat Config.ditherNext (s.ditherCount i) (s.syn i).dither

/-- The feedback divider in the present cycle of the phase detector: INT in integer mode, where the modulator is idle; in fractional mode its steps follow
from FREQ, DIV, the seed and the cycles since it was loaded (R342, R351). -/
def State.dividerNow (s : State) (i : Nat) : Int :=
  if s.synMult i % 2 ^ 24 = 0 then s.synMult i / 2 ^ 24
  else (s.synMult i / 2 ^ 24 : Nat) + Config.dividerStep (s.synMult i) (s.fld (synPage i) SYN.DIV_DIV_M1) (s.syn i).dither (s.ditherCount i)

/-- The synthesizer is powered: its page runs, and it does not sleep with the part or over the thermal limit (R357, R454). -/
def State.synOn (s : State) (i : Nat) : Bool :=
  s.bit (synPage i) PG.CTRL_RUN && (s.bit (synPage i) SYN.CTRL_KEEP_CLUSTER || (!s.asleep && !s.causeThermal))

/-- The main synthesizer supplies its root. -/
def State.rootOk (s : State) : Bool := s.bit tbPage TB.live_LOCKED

/-- FREQ as it is stored, and whether it was clamped (R341). -/
def clampFreq (v : Nat) : Nat × Bool :=
  if 16 * 2 ^ 24 < v % 2 ^ 29 then (16 * 2 ^ 24, true)
  else if v % 2 ^ 29 < 8 * 2 ^ 24 then (8 * 2 ^ 24 + v % 2 ^ 24, true) else (v % 2 ^ 29, false)

/-! Searches and hops (R346, R347) -/

/-- Dither and spread begin again (R351, R353). -/
def State.synLoad (s : State) (i : Nat) : State :=
  s.modSyn i fun x => { x with dither := BitVec.ofNat 24 (s.fld (synPage i) SYN.DITHER_SEED), ditherAt := s.time.tclk, triangle := s.time.tclk }

/-- Nothing is in progress any more. -/
def State.synAbandon (s : State) (i : Nat) : State :=
  let p := synPage i
  let s := s.modSyn i fun x => { x with search := none, fill := none, hop := none }
  (((s.setBit p SYN.live_SEARCHING false).setBit p SYN.CTRL_SEARCH false).setBit p SYN.STATUS_HOPPING false).setBit p SYN.PROF_CTRL_HOP false

/-- A band search begins; without its root the synthesizer waits for it. -/
def State.startSearch (s : State) (i : Nat) (fill : Option Nat) : State :=
  let p := synPage i
  let s := ((s.synAbandon i).setBit p SYN.live_OUT_ON false).setBit p SYN.live_LOCKED false
  if s.rootOk then
    let s := ((s.synLoad i).setBit p SYN.live_SEARCHING true).setBit p SYN.CTRL_SEARCH true
    s.modSyn i fun x => { x with search := some s.time.tclk, fill := fill, lost := false }
  else (s.modSyn i fun x => { x with lost := true }).setBit p SYN.live_HOLD false

/-- The loop has locked again after it lost its root (R356). -/
def State.synRelocked (s : State) (i : Nat) : State :=
  if (s.syn i).relock then ((s.modSyn i fun x => { x with relock := false }).post (synPage i) SYN.st_RELOCKED).unitEvent (synPage i) else s

/-- The output toggles again where EN is 1. -/
def State.synOut (s : State) (i : Nat) : State := s.setBit (synPage i) SYN.live_OUT_ON (s.bit (synPage i) SYN.CTRL_EN)

/-- The loop locks to the multiplier in force. -/
def State.synLock (s : State) (i : Nat) : State :=
  (s.setBit (synPage i) SYN.live_LOCKED true).modSyn i fun x => { x with locked := s.synMult i }

def profFreq (k : Nat) : Fld := ⟨0x80 + 8 * k, 0, 32⟩
def profAux (k : Nat) : Fld := ⟨0x84 + 8 * k, 0, 32⟩

/-- A band search ends 40 µs after it began, in band `band` with code `tune` (R346). -/
def State.searchDone (s : State) (i : Nat) (band tune : Nat) : State :=
  let p := synPage i
  match (s.syn i).search with
  | none => s
  | some t =>
    if !s.live || !s.synOn i || s.time.tclk < t + 40000 then s
    else
      let k := (s.syn i).fill.getD (s.fld p SYN.PROF_CTRL_SLOT)
      let s := ((s.synAbandon i).synLock i).addSat p SYN.SEARCHES 1
      let s := (s.setFld p SYN.STATUS_BAND band).setFld p SYN.STATUS_TUNE tune
      let s := s.setFld p (profFreq k) (s.synMult i + 2 ^ 31)
      let s := s.setFld p (profAux k) (s.fld p SYN.DIV_DIV_M1 + 2 ^ 10 * (band % 32) + 2 ^ 16 * (tune % 256)
        + 2 ^ 24 * unsigned 8 (signed 11 (s.fld chipPage CHIP.TEMP_VALUE) / 4))
      (((s.post p SYN.st_SEARCH_DONE).unitEvent p).synRelocked i).synOut i

/-- A band search has not locked for 200 µs (R346). -/
def State.lockFail (s : State) (i : Nat) : State :=
  match (s.syn i).search with
  | none => s
  | some t => if !s.live || !s.synOn i || s.time.tclk < t + 200000 then s
    else ((s.synAbandon i).modSyn i fun x => { x with relock := false }).raise (synPage i) SYN.err_LOCK_FAIL

/-- A hop to entry `k` takes place at the boundary (R347). Without the root it is abandoned, as Table 11-2 has it for one in progress, and a search
starts once the root returns. -/
def State.startHop (s : State) (i k : Nat) : State :=
  let p := synPage i
  let aux := s.fld p (profAux k)
  let s := (((s.synAbandon i).setBit p SYN.live_OUT_ON false).setBit p SYN.live_LOCKED false).setFld p SYN.FREQ (s.fld p (profFreq k) % 2 ^ 29)
  let s := (s.setFld p SYN.DIV_DIV_M1 (bitsOf aux 0 10)).setBit p SYN.PROF_CTRL_HOP true
  if !s.rootOk then s.startSearch i none
  else if 80 < (signed 11 (s.fld chipPage CHIP.TEMP_VALUE) - 4 * signed 8 (bitsOf aux 24 8)).natAbs then
    ((s.startSearch i (some k)).setBit p SYN.PROF_CTRL_HOP true).post p SYN.st_PROF_STALE
  else
    let s := ((s.setFld p SYN.STATUS_BAND (bitsOf aux 10 5)).setFld p SYN.STATUS_TUNE (bitsOf aux 16 8)).synLoad i
    (s.setBit p SYN.STATUS_HOPPING true).modSyn i fun x => { x with hop := some (k, s.time.tclk) }

/-- A hop's loop has locked (R347). -/
def State.hopDone (s : State) (i : Nat) : State :=
  let p := synPage i
  if !s.live || !s.synOn i || (s.syn i).hop.isNone then s
  else ((((s.synAbandon i).synLock i).addSat p SYN.HOPS 1).post p SYN.st_HOP_DONE).unitEvent p |>.synOut i

/-- Spread runs while it is enabled and the synthesizer is powered. -/
def State.showSpread (s : State) (i : Nat) : State :=
  s.setBit (synPage i) SYN.STATUS_SPREADING (s.bit (synPage i) SYN.SPREAD_EN && s.synOn i)

/-! The boundary (R345, R348, R349, R353) -/

/-- A step of at most 100 ppm (R345). -/
def smallStep (old new : Nat) : Bool := decide ((if old ≤ new then new - old else old - new) * 10000 ≤ old)

/-- Applies the pending registers of a SYN page that `pick` names, in offset order. -/
def State.synTake (s : State) (i : Nat) (pick : Nat → Bool) : State :=
  ((s.pendingOf (synPage i)).filter fun a => pick (a - synPage i)).foldl (fun s a =>
    match s.shadow a, regAt a with
    | some v, some row =>
      let s := (s.setShadow a none).applyValue (synPage i) (a - synPage i) row v
      s.entry .apply .internal a .done (s.rd a).toNat
    | _, _ => s) s

/-- What CTRL shows and does once it has applied. -/
def State.synCtrl (s : State) (i : Nat) (old : Dword) : State :=
  let p := synPage i
  let s := s.setBit p SYN.live_CAL_ACTIVE (s.bit p SYN.CTRL_CAL)
  let busy := (s.syn i).search.isSome || (s.syn i).hop.isSome
  if !s.bit p SYN.CTRL_EN then s.setBit p SYN.live_OUT_ON false
  else if getBits old 0 1 = 0 ∧ ¬ busy ∧ (s.bit p SYN.live_LOCKED ∨ s.bit p SYN.live_HOLD) then s.setBit p SYN.live_OUT_ON true else s

/-- A synthesizer powers down (R357, R454). -/
def State.synDown (s : State) (i : Nat) : State :=
  let p := synPage i
  let s := (((s.synAbandon i).setBit p SYN.live_OUT_ON false).setBit p SYN.live_LOCKED false).setBit p SYN.live_HOLD false
  (s.setBit p SYN.STATUS_SPREADING false).modSyn i fun x => { x with lost := false, relock := false, held := false }

/-- The next rising edge of the divided clock: every pending register applies, but FREQ and DIV while a search or a hop is in progress.
`inBand` tells whether the new frequency with its spread lies within the band in use. -/
def State.synBoundary (s : State) (i : Nat) (inBand : Bool) : State :=
  let p := synPage i
  if !s.synOn i || (s.pendingOf p).isEmpty then s
  else
    let ctrl := s.rd (p + 0x40)
    let busy := (s.syn i).search.isSome || (s.syn i).hop.isSome
    let req := (s.shadow (p + 0x40)).any fun v => getBits v 6 1 == 1
    let hop := (s.shadow (p + 0x58)).any fun v => getBits v 8 1 == 1
    let freq := (s.shadow (p + 0x44)).isSome
    let spread := (s.shadow (p + 0x54)).isSome
    let kept := busy && (s.syn i).held
    let s := s.modSyn i fun x => { x with held := busy && freq }
    -- HOP and a FREQ write at one boundary: the hop applies; a FREQ held since an earlier one stays (Table 11-2)
    let s := if hop && freq && !kept then
        (((s.setShadow (p + 0x44) none).raise p SYN.err_ENCODING).entry .shadow .internal (p + 0x44) .encoding ((s.shadow (p + 0x44)).getD 0).toNat)
      else s
    let freq := freq && !hop && !busy
    let seed := (s.shadow (p + 0x50)).isSome
    let s := s.synTake i fun o => !busy || (o != 0x44 && o != 0x48)
    let s := s.synCtrl i ctrl
    let s := if seed then s.modSyn i fun x => { x with dither := BitVec.ofNat 24 (s.fld p SYN.DITHER_SEED), ditherAt := s.time.tclk } else s
    let s := if spread then (s.modSyn i fun x => { x with triangle := s.time.tclk }).showSpread i else s
    if !s.synOn i then s.synDown i
    else if hop then s.startHop i (s.fld p SYN.PROF_CTRL_INDEX)
    else
      let small := smallStep (s.syn i).locked (s.synMult i)
      if req || (freq && !(small && inBand)) || (spread && !inBand) then s.startSearch i none
      else
        let s := s.setBit p SYN.CTRL_SEARCH (s.syn i).search.isSome
        let s := s.setBit p SYN.PROF_CTRL_HOP ((s.syn i).hop.isSome || (s.syn i).fill.isSome)
        if freq && s.bit p SYN.live_LOCKED then s.synLock i else s

/-- The fine delay moves one step at an output edge (R350). -/
def State.delayStep (s : State) (i : Nat) : State :=
  let p := synPage i
  let now := s.fld p SYN.STATUS_DELAY_NOW
  let target := s.fld p SYN.DELAY_TARGET
  if !s.live || !s.bit p SYN.live_OUT_ON || now == target then s
  else
    let next := if now < target then now + 1 else now - 1
    let s := s.setFld p SYN.STATUS_DELAY_NOW next
    if next = target then s.post p SYN.st_DELAY_DONE else s

/-! Pages, the root, the cluster state (R346, R347, R356, R357) -/

/-- PAGE_CTRL starts or stops the page. -/
def State.synPageCtrl (s : State) (i : Nat) (was : Bool) : State :=
  let p := synPage i
  let run := s.bit p PG.CTRL_RUN
  if run && !was then (if s.synOn i then (s.startSearch i none).showSpread i else s)
  else if was && !run then
    let s := (((s.synAbandon i).setBit p SYN.live_OUT_ON false).setBit p SYN.live_LOCKED false).setBit p SYN.live_HOLD false
    let s := s.forEach (List.range 16) fun k s => (s.setFld p (profFreq k) 0).setFld p (profAux k) 0
    let s := s.modSyn i fun x => { x with lost := false, relock := false, held := false }
    let s := (s.synTake i fun _ => true).setBit p SYN.CTRL_SEARCH false
    ((s.setBit p SYN.PROF_CTRL_HOP false).setBit p SYN.live_CAL_ACTIVE (s.bit p SYN.CTRL_CAL)).showSpread i
  else s

/-- The main synthesizer loses lock (R356). A loop that a failed search left unlocked has nothing to hold: it waits for the next request (R346). -/
def State.synRefLost (s : State) : State :=
  s.forEach allSyns fun i s =>
    let p := synPage i
    if !s.synOn i || (s.syn i).lost then s
    else
      let busy := (s.syn i).search.isSome || (s.syn i).hop.isSome
      let locked := s.bit p SYN.live_LOCKED
      let s := if locked then s.addSat p SYN.LOCK_LOSSES 1 else s
      let s := ((s.setBit p SYN.live_LOCKED false).post p SYN.st_REF_LOST).synAbandon i
      let s := s.modSyn i fun x => { x with lost := busy || locked, relock := busy || locked }
      if !busy && !locked then s
      else if busy || s.bit p SYN.CTRL_ON_LOSS then s.setBit p SYN.live_OUT_ON false else s.setBit p SYN.live_HOLD true

/-- The root has returned and the synthesizer relocks (R356): a loop that held at once, any other by a search, with whose end it has relocked. -/
def State.synRelock (s : State) (i : Nat) : State :=
  let p := synPage i
  if !s.live || !s.synOn i || !s.rootOk || !(s.syn i).lost then s
  else
    let held := s.bit p SYN.live_HOLD
    let s := (s.modSyn i fun x => { x with lost := false }).setBit p SYN.live_HOLD false
    if held then (s.synLock i).synRelocked i else s.startSearch i none

/-- Synthesizers without KEEP_CLUSTER power down (R357, R454). -/
def State.synSleep (s : State) : State :=
  s.forEach allSyns fun i s =>
    if s.bit (synPage i) SYN.CTRL_KEEP_CLUSTER then s else s.synDown i

/-- They begin their band search (R357, R454). -/
def State.synWake (s : State) : State :=
  s.forEach allSyns fun i s => if s.synOn i && !s.bit (synPage i) SYN.CTRL_KEEP_CLUSTER then (s.startSearch i none).showSpread i else s

/-! Checks on writes (R341, R347, R350 to R355) -/

/-- Another synthesizer holds CAL, or will (R354): R396 looks ahead at the pending values of the page written alone. -/
def State.calTaken (s : State) (i : Nat) : Bool :=
  allSyns.any fun j => j != i && (s.bit (synPage j) SYN.CTRL_CAL || s.soonFld (synPage j) SYN.CTRL_CAL == 1)

def State.synVerdict (s : State) (i off : Nat) (v : Dword) : Verdict :=
  let p := synPage i
  match off with
  | 0x40 => if getBits v 4 1 == 1 && s.calTaken i then .reject SYN.err_CAL_CONFLICT .conflict else .accept v none
  | 0x44 => match clampFreq v.toNat with
    | (f, true) => .accept (BitVec.ofNat 32 f) (some SYN.err_RANGE)
    | (_, false) => .accept v none
  | 0x4c => if 256 < getBits v 0 9 then .accept (setBits v 0 9 256) (some SYN.err_RANGE) else .accept v none
  | 0x50 => if getBits v 0 24 = 0 then .accept (setBits v 0 24 1) (some SYN.err_RANGE) else .accept v none
  | 0x54 => if 50 < getBits v 2 6 then .accept (setBits v 2 6 50) (some SYN.err_RANGE) else .accept v none
  | 0x58 => if getBits v 8 1 == 1 && !bitOf (s.fld p (profFreq (getBits v 4 4))) 31 then .reject SYN.err_PROF_EMPTY .refused else .accept v none
  | _ => .accept v none

/-- LOOPj selects channels (R355). -/
def State.loopVerdict (s : State) (i off : Nat) (v : Dword) : Verdict :=
  if !s.betweenRuns then .reject SYN.err_BUSY_REJECT .busyReject
  else if allSyns.any fun j => j != i && (s.rd (synPage j + off) &&& v) != 0 then .reject SYN.err_LOOP_CONFLICT .conflict
  else .accept v none

/-- The comparators whose loopback changes take the levels given, bit i for channel 32j + i (R355). A paired CH(2k+1) keeps its input, the signal
at the balls of R87, when CH(2k) is selected: R355 puts the selected channel alone in loopback (DEDUCED, assumption 79). -/
def State.loopWritten (s : State) (j : Nat) (old new levels : Dword) : State :=
  s.forEach ((List.range 32).filter fun b => (old ^^^ new).getLsbD b) fun b s =>
    let k := 32 * j + b
    if s.paired k then s else s.takeLevel k (levels.getLsbD b)

end Sys2Proof.Machine
end

