-- ==== Sys2Proof/Machine/Time.lean ====
section
/-! DEFINITION. Device time: its start, its increments, lock and its loss, bypass, trims, wrap, timebase reset and change of reference (R49 to R53,
R60 to R73, R477). -/
namespace Sys2Proof.Machine
open Sys2Proof

/-- DTIME grows by δ su, and every domain that counts with it (R49, R320); passing its end is noted (R53). -/
def State.passTime (s : State) (δ : Nat) : State :=
  let t := s.now + BitVec.ofNat 64 δ
  let past := decide (2 ^ 64 ≤ s.now.toNat + δ)
  let s := (s.domAdvance δ).modTime fun x => { x with dtime := t, wrapDue := x.wrapDue || past }
  if past then { s with mapTicks := 0 } else s

/-- The clocks run from the main synthesizer. -/
def State.onRoot (s : State) : Bool := s.fld tbPage TB.live_SOURCE == 0

/-- The journal's sources take the ARM occasion again (R54). -/
def State.journalAfresh (s : State) : State :=
  { s with streams := Tab.update (fun _ => SrcState.init) (fun i x => if i / 128 = streamJournal then { x with ext := none } else x) s.streams }

/-! Lock (R50, R61, R64) -/

/-- A reference cycle out of window: beyond ±16 su (R61). -/
def outOfWindow (e : BitVec 12) : Bool := decide (16 < e.toInt.natAbs)

/-- The cycles out of window among those that the count holds. -/
def outCount (w : List (BitVec 12)) : Nat := (w.filter outOfWindow).length

/-- A reference cycle beyond ±256 su (R64). -/
def farOut (e : BitVec 12) : Bool := decide (256 < e.toInt.natAbs)

/-- The loss that one more reference cycle shows, 0 hard, 1 soft: it and the cycle before are both far out, or with it the count first
reaches 342 of the last 1,024 (R64). -/
def cycleLoss (w : List (BitVec 12)) (e : BitVec 12) : Option Nat :=
  if farOut e && (w.head?.any farOut) then some 0
  else if outCount w < 342 ∧ 342 ≤ outCount ((e :: w).take 1024) then some 1
  else none

/-- The count takes one more reference cycle. It begins again after a hard loss, and with `anew` after a soft one too (R61, R477). -/
def countCycle (anew : Bool) (w : List (BitVec 12)) (e : BitVec 12) : List (BitVec 12) :=
  match cycleLoss w e with
  | some k => if k = 0 ∨ anew then [] else (e :: w).take 1024
  | none => (e :: w).take 1024

/-- The reference cycles that a command brings. -/
def seenCycles : LossCause → List (BitVec 12)
  | .noEdge l => l
  | .phases l => l

/-- PHASE_ERR as it saturates at ±2,047 (Table 2-11). -/
def phaseField (e : BitVec 12) : Nat := if e = 0x800 then 0x801 else e.toNat

/-- Which references toggle (Table 2-5). -/
def State.showRefs (s : State) (refs : Refs) : State :=
  (s.setBit tbPage TB.live_REF_PRESENT refs.refclk).setBit tbPage TB.live_ALT_PRESENT refs.altref

/-- The clocks run from bypass. -/
def State.inBypass (s : State) : Bool := s.bit tbPage TB.live_STARTED && !s.onRoot

/-- Lock may be declared: in start-up before the timebase has started, and in bypass after (R61, R445). -/
def State.mayLock (s : State) : Bool :=
  !s.bit tbPage TB.live_LOCKED && (if s.bit tbPage TB.live_STARTED then !s.onRoot else s.power.startup == .waitLock)

/-- The count holds 1,024 cycles, of which fewer than 342 are out of window, and no hard loss since it began (R61). -/
def lockCount (w : List (BitVec 12)) : Bool := w.length == 1024 && decide (outCount w < 342)

/-- An ACLK cycle ends: ALERT_N follows its alarms in the next (R419), and reads then return what RC registers took in it (R394). -/
def State.endAclk (s : State) : State :=
  let s := { s with power := { s.power with alerted := s.alarmOn } }
  { s with rcNew := [] }

/-- The dividers are released: an ACLK cycle begins in the present TCLK cycle (R58). -/
def State.alignAclk (s : State) : State :=
  if s.power.heart % 4 = 0 then s
  else
    let s := s.endAclk
    { s with power := { s.power with heart := (s.power.heart / 4 + 1) * 4 } }

/-- The timebase starts in the first TCLK cycle after first lock (R50, R58, R119). -/
def State.timebaseStart (s : State) : State :=
  if !s.live || s.bit tbPage TB.live_STARTED || !s.bit tbPage TB.live_LOCKED then s
  else
    let s := ((s.setBit tbPage TB.live_STARTED true).setFld tbPage TB.live_SOURCE 0).setFld tbPage TB.TRIM_LIVE_VALUE 0
    let s := if s.time.refChange then s.post tbPage TB.st_SRC_CHANGE else s
    let s := s.modTime fun x => { Timebase.init with window := x.window }
    let s := { s with mapTicks := 0 }.alignAclk
    let s := { s with power := { s.power with startup := .calibrating } }
    let s := s.journalAfresh.forEach allChans fun k s => s.beginCal k .initial
    s.forEach allSyns fun i s => if s.bit (synPage i) PG.CTRL_RUN then s.startSearch i none else s

/-! Losing the timebase (R64 to R70) -/

/-- The timebase can be lost: it has started, and the clocks run, locked, from the main synthesizer. -/
def State.canLose (s : State) : Bool := s.live && s.bit tbPage TB.live_STARTED && s.bit tbPage TB.live_LOCKED && s.onRoot

/-- A pool's nurse duty is abandoned. -/
def State.abandonDuties (s : State) : State := s.forEach allChans fun k s => s.rotation k

/-- A loss of timebase of kind 0 hard, 1 soft. An open POOL_DRY gap closes first (Table 4-2); the TB_LOST record, the FAULT entry and the
swarm event are formed with the coarse-only flag of the bypass that they open (R67, Table 2-2). POOL_STATUS.READY keeps its value: the
loss is no calibration (Table 4-13; DEDUCED, assumption 78). -/
def State.loseTime (s : State) (kind : Nat) : State :=
  let s := s.forEach allChans fun k s => s.closeGapOf k 1
  let s := (s.setBit tbPage TB.live_LOCKED false).post tbPage TB.st_LOCK_LOST
  let s := (s.raise tbPage TB.err_TB_LOST).setPair tbPage TB.LOSS_AT_LO s.now.toNat
  let s := (s.addSat tbPage TB.LOSS_COUNT_VALUE 1).entry .timebase .internal (tbPage + 8) .done kind
  let s := (s.synRefLost.abandonDuties).setBit tbPage TB.live_COARSE true
  ((s.chipFault 1 0 0 false).raiseEvent 8 0).setBit tbPage TB.live_COARSE false

/-- A loss that the part sees while the clocks run from bypass withdraws a pending declaration of lock (R477). -/
def State.withdrawLock (s : State) : State :=
  if s.bit tbPage TB.live_LOCKED then (s.setBit tbPage TB.live_LOCKED false).entry .timebase .internal (tbPage + 8) .done 4 else s

/-- A loss of kind 0 hard, 1 soft is seen: of the timebase while it runs, locked, from the root; in bypass of a pending declaration (R64, R477). -/
def State.lossSeen (s : State) (kind : Nat) : State :=
  if s.canLose then s.loseTime kind else if s.inBypass then s.withdrawLock else s

/-- One reference cycle passes: PHASE_ERR shows its phase error, the count takes it, and it shows a loss, or lock is declared (R61, R64,
R477). -/
def State.refCycle (s : State) (e : BitVec 12) : State :=
  let w := s.time.window
  let w' := countCycle s.inBypass w e
  let s := (s.setFld tbPage TB.PHASE_ERR_VALUE (phaseField e)).modTime fun x => { x with window := w' }
  match cycleLoss w e with
  | some k => s.lossSeen k
  | none => if s.mayLock && lockCount w' then s.setBit tbPage TB.live_LOCKED true else s

/-- Reference cycles pass, one after the other. -/
def State.refCycles (s : State) (l : List (BitVec 12)) (refs : Refs) : State := l.foldl State.refCycle (s.showRefs refs)

/-- An expected edge has not arrived: a hard loss, with which the count begins anew (R61, R64). -/
def State.edgeMissing (s : State) : State := (s.modTime fun x => { x with window := [] }).lossSeen 0

/-- The reference cycles of a command pass, and after them an edge is missing where it says so. -/
def State.refsPass (s : State) (c : LossCause) (refs : Refs) : State :=
  let s := s.refCycles (seenCycles c) refs
  match c with
  | .noEdge _ => s.edgeMissing
  | .phases _ => s

/-- Reference cycles, with which the main synthesizer is declared locked where the count allows it (R61). -/
def State.lockDeclared (s : State) (l : List (BitVec 12)) (refs : Refs) : State := if !s.live then s else s.refCycles l refs

/-- Reference cycles, or a missing edge, that show a hard loss (R64). -/
def State.hardLoss (s : State) (c : LossCause) (refs : Refs) : State := if !s.live then s else s.refsPass c refs

/-- Reference cycles with which the count reaches 342: a soft loss (R64). -/
def State.softLoss (s : State) (l : List (BitVec 12)) (refs : Refs) : State := if !s.live then s else s.refCycles l refs

/-- Reference cycles, or a missing edge, that withdraw a declaration of lock in bypass (R477). -/
def State.lockWithdrawn (s : State) (c : LossCause) (refs : Refs) : State := if !s.live then s else s.refsPass c refs

/-- The clocks switch to the bypass source (R65, R66). -/
def State.bypassSwitch (s : State) (altToggles : Bool) : State :=
  if !s.live || !s.bit tbPage TB.live_STARTED || s.bit tbPage TB.live_LOCKED || !s.onRoot then s
  else
    let alt := altToggles && s.bit tbPage TB.CTRL_ALTREF_EN
    let s := (s.setFld tbPage TB.live_SOURCE (if alt then 1 else 2)).setBit tbPage TB.live_ALT_PRESENT altToggles
    let s := ((s.setCoarse true).passTime 1024).modTime fun x => { x with bypassPhase := 0, bypassEdge := false }
    s.forEach allChans fun k s => s.modChan k fun c => { c with gap := c.gap.map fun g => { g with coarse := true } }

/-- ALTREF fails during bypass (R65). -/
def State.altrefFail (s : State) : State :=
  if !s.live || s.fld tbPage TB.live_SOURCE != 1 then s else (s.setFld tbPage TB.live_SOURCE 2).setBit tbPage TB.live_ALT_PRESENT false

/-- The clocks return to the root at a rising edge of the bypass source, whose period the increment that began the present cycle has counted:
DTIME is D_b + 10,240 su (R68, R69, R121). The slews' count of 1,024 cycles starts anew here: R66 says only that both slews resume (DESIGN
CHOICE, assumption 78). -/
def State.switchBack (s : State) : State :=
  if !s.live || !s.coarse || s.onRoot || !s.bit tbPage TB.live_LOCKED || !s.time.bypassEdge then s
  else
    let s := (s.setCoarse false).setFld tbPage TB.live_SOURCE 0
    let s := s.modTime fun x => { x with bypassPhase := 0, bypassEdge := false, lastSlew := x.tclk }
    let s := ((s.post tbPage TB.st_RELOCKED).setPair tbPage TB.RELOCK_AT_LO s.now.toNat).entry .timebase .internal (tbPage + 8) .done 2
    let s := if s.time.refChange then (s.post tbPage TB.st_SRC_CHANGE).modTime fun x => { x with refChange := false } else s
    let s := s.forEach allChans fun k s =>
      let s := if (s.chan k).gap.isSome then s.closeGapOf k 2 else s
      if (s.chan k).cal == .none && !s.inCluster && !s.causeThermal then s.beginCal k .check else s
    if s.align = aHoldover then s else s.tryAcquire

/-! Wrap and slews (R53, R71, R295) -/

/-- The effects of a wrap. -/
def State.dtimeWrap (s : State) : State :=
  if !s.time.wrapDue then s
  else
    let s := s.modTime fun x => { x with wrapDue := false }
    ((s.setBit tbPage TB.live_WRAPPED true).addWrap tbPage TB.EPOCH_VALUE 1).post tbPage TB.st_WRAP

/-- One su towards a target. -/
def towards (live target : Int) : Int := if live < target then 1 else if target < live then -1 else 0

/-- The su that alignment still owes (R295). -/
def State.alignOwed (s : State) : Int :=
  let aligned := s.align == aAligned || s.align == aHoldover || (s.align == aAcquiring && s.swarm.stepped)
  if aligned && s.joined then towards s.swarm.slewed (roundEven s.swarm.filtered) else 0

/-- Every 1,024 TCLK cycles on the root the trim and the alignment each move the next increment of DTIME by one su. One count of 1,024 cycles
serves both, so both move in one cycle, the first in which the command finds the count run out (R71, R295; DESIGN CHOICE, assumption 78). -/
def State.trimSlew (s : State) : State :=
  let live := signed 16 (s.fld tbPage TB.TRIM_LIVE_VALUE)
  let target := signed 16 (s.fld tbPage TB.TRIM_TARGET)
  let a := towards live target
  let b := s.alignOwed
  if !s.live || !s.bit tbPage TB.live_STARTED || !s.onRoot || decide (s.time.tclk < s.time.lastSlew + 1024) || (a == 0 && b == 0) then s
  else
    let s := (s.modTime fun x => { x with slew := x.slew + (a + b), lastSlew := x.tclk }).modSwarm fun w => { w with slewed := w.slewed + b }
    let s := s.setFld tbPage TB.TRIM_LIVE_VALUE (unsigned 16 (live + a))
    if a ≠ 0 ∧ live + a = target then s.post tbPage TB.st_TRIM_DONE else s

/-! TB.CTRL (R60, R73) -/

/-- The conditions of a change of reference to `r`. -/
def State.refOk (s : State) (r : Bool) : Bool := s.betweenRuns && !s.inCluster && (!r || s.bit tbPage TB.live_UPREF_PRESENT)

/-- The conditions of a timebase reset. -/
def State.resetOk (s : State) : Bool :=
  s.bit tbPage TB.live_LOCKED && s.onRoot && s.betweenRuns && !s.inCluster && !s.isQueen && !s.isMember

/-- A keyed write of TB.CTRL writes REFSEL, and TB_RESET where it is 1: the conditions of either failing discard it (R60, R73). -/
def State.tbVerdict (s : State) (v : Dword) : Verdict :=
  if !s.refOk (getBits v 0 1 == 1) || (getBits v 31 1 == 1 && !s.resetOk) then .reject TB.err_BUSY_REJECT .busyReject
  else .accept v none

/-- The reference changes (R60): the count of R61 begins anew, and once the timebase has started the clocks pass through bypass. -/
def State.refChanged (s : State) : State :=
  let s := (s.setBit tbPage TB.live_LOCKED false).modTime fun x => { x with refChange := true, window := [] }
  let s := s.entry .timebase .internal (tbPage + 8) .done 3
  if s.bit tbPage TB.live_STARTED then s.synRefLost.abandonDuties else s

/-- A timebase reset is accepted: its entry carries the old DTIME (R73, R442, R443). -/
def State.timebaseReset (s : State) : State :=
  let s := s.journalAt s.now .dtimeStep .internal 0 (tbPage + 0x48) .before 2
  let s := s.setRc chipPage CHIP.RESET_CAUSE_CAUSE (s.fld chipPage CHIP.RESET_CAUSE_CAUSE ||| 32)
  let s := s.entry .unitEvent .internal (chipPage + 0x8c) .done (s.rd (chipPage + 0x8c)).toNat
  s.modTime fun x => { x with resetDue := true }

/-- The next TCLK cycle begins the new timebase (R73); a trim in force meets a TARGET of 0 (R71). -/
def State.timebaseRestart (s : State) : State :=
  let met := s.trimming && s.fld tbPage TB.TRIM_TARGET == 0
  let s := (s.modTime fun x => { x with dtime := 0, wrapDue := false, resetDue := false, slew := 0, coarse := Marks.never, hold := Marks.never }).journalAfresh.shiftDoms (-s.now)
  let s := { s with mapTicks := 0 }
  let s := ((s.setFld tbPage TB.EPOCH_VALUE 0).setFld tbPage TB.TRIM_LIVE_VALUE 0).setBit tbPage TB.live_WRAPPED false
  let s := (s.journalAt 0 .dtimeStep .internal 0 (tbPage + 0x48) .after 3).post tbPage TB.st_TB_RESET_DONE
  if met then s.post tbPage TB.st_TRIM_DONE else s

/-- In bypass ALTREF_EN picks the source as it does at the switch (R65). -/
def State.altrefWritten (s : State) : State :=
  if !s.inBypass then s
  else s.setFld tbPage TB.live_SOURCE (if s.bit tbPage TB.CTRL_ALTREF_EN && s.bit tbPage TB.live_ALT_PRESENT then 1 else 2)

/-- What an accepted keyed write of TB.CTRL does besides its fields; `old` is the value before. -/
def State.tbWritten (s : State) (old v : Dword) : State :=
  let s := s.setBit tbPage TB.CTRL_TB_RESET false
  let s := if getBits old 0 1 ≠ getBits v 0 1 then s.refChanged else s
  if getBits v 31 1 = 1 then s.timebaseReset else s

/-! The clock -/

/-- DTIME in a new TCLK cycle: the increment of R49, the bypass edges of R66, or the restart of a timebase reset, in whose cycle the domains
count on (R73, R320). -/
def State.countTime (s : State) : State :=
  if s.time.resetDue then (s.domAdvance 1024).timebaseRestart
  else if s.onRoot then (s.passTime (1024 + s.time.slew).toNat).modTime fun x => { x with slew := 0 }
  else if s.time.bypassPhase + 1 < 10 then s.modTime fun x => { x with bypassPhase := x.bypassPhase + 1, bypassEdge := false }
  else (s.modTime fun x => { x with bypassPhase := 0, bypassEdge := true }).passTime 10240

end Sys2Proof.Machine
end

