-- ==== Sys2Proof/Machine/Control.lean ====
section
/-! DEFINITION. Commands at CHIP.CMD: their judgement, acceptance and effects, the cluster state and the wake (R42 to R44, R48, R309, R310, R404,
R405, R450 to R452). -/
namespace Sys2Proof.Machine
open Sys2Proof

/-! The cluster state (R309, R450) -/

/-- The entry of a state change that leaves the run state as it is. -/
def State.stateEntry (s : State) (internal : Bool) (a : Agent) : State :=
  s.entry .state a (chipPage + 0x00c) .done (17 * s.runState.code + 256 * b2n s.inCluster + 512 * b2n internal)

/-- DORMANT goes out on every JOINED port (R309). -/
def State.sendDormant (s : State) : State :=
  let ports := (List.range 4).filter fun p => s.lstate p == lJoined
  if ports.isEmpty then s
  else
    let e : SwarmEvent := ⟨0x11, s.swarm.eventNext, s.now, 0⟩
    let s := s.modSwarm fun w => { w with eventNext := w.eventNext + 1, seenEvents := fresh s.time.tclk w.seenEvents ++ [(s.ordinal, e.id, s.time.tclk)] }
    (s.eventRecord false s.ordinal e).forEach ports fun p s => s.sendReliable p s.ordinal 0 (.event e)

/-- The transmitter and receiver of port `p` are off: no loss is raised, and an ordinal behind the port stays taken (R309, R311). -/
def State.portOff (s : State) (p : Nat) : State :=
  if s.lstate p = lDown then s
  else
    let l := s.link p
    let s := ((s.setLstate p lDown).setFld (linkPage p) LINK.STATE_LANES 0).setFld (linkPage p) LINK.STATE_QCAUSE 0
    let s := s.setLink p { l with tx := 0, rx := 0xfff, unacked := [], waiting := [], ackDue := none, aUp := none }
    let s := s.loseLines p (l.unacked.map (·.frame.payload) ++ l.waiting.map (·.payload)) |>.reask p
    (s.unreach p).showMember

/-- The pool of channel `k` is off. -/
def State.poolOff (s : State) (k : Nat) : State :=
  let s := s.modChan k fun c => { c with cal := if c.cal = .check then .none else c.cal, duty := none }
  let s := if (s.chan k).cal = .none then s.setReady k false else s
  s.showPool k

/-- CLUSTER is accepted: the entry starts, and every unit that sleeps is turned off. -/
def State.clusterBegin (s : State) (a : Agent) : State :=
  let s := (s.setFld chipPage CHIP.live_CLUSTER 1).stateEntry false a
  let s := (s.sendDormant.synSleep).forEach (List.range 4) fun p s => s.portOff p
  let s := ((s.settleRuns).forEach allChans fun k s => (s.poolOff k).setStuck k false).eslOff
  let s := { s with trigOut := none }
  { s with power := { s.power with waking := false, clusterEntered := false, wakeFrom := 0 } }

/-- The entry has completed; a WAKE accepted before it counts from here (R450, R451). -/
def State.clusterEntered (s : State) : State :=
  if !s.live || !s.inCluster || s.power.clusterEntered then s
  else { s with power := { s.power with clusterEntered := true, wakeFrom := if s.power.waking then s.power.heart else s.power.wakeFrom } }

/-! Waking (R122, R310, R357, R451, R452) -/

/-- WAKE is accepted: pools, links and synthesizers begin their part of it. -/
def State.wakeBegin (s : State) : State :=
  let s := { s with power := { s.power with waking := true, wakeFrom := s.power.heart } }
  let s := s.forEach allChans fun k s => if (s.chan k).cal = .none ∧ ¬ s.causeThermal then s.beginCal k .check else s
  let s := s.forEach (List.range 4) fun p s =>
    if s.bit (linkPage p) LINK.CTRL_EN && s.linkRole p != 0 then s.setLstate p lTraining else s
  (s.modSwarm fun w => { w with woke := s.align == aAligned }).synWake

/-- The wake completes, in the ACLK cycle in which the 200 µs end and in no other; `levels` are those of the comparators that are turned on (R451,
R452, R478). A member whose upstream carries no waggles is ACQUIRING until they arrive (R310). -/
def State.wakeComplete (s : State) (levels : BitVec 96) : State :=
  if !s.live || !s.inCluster || !s.power.waking || !s.power.clusterEntered || s.power.heart / 4 != (s.power.wakeFrom + 200000) / 4 then s
  else
    let s := (s.setFld chipPage CHIP.live_CLUSTER 0).stateEntry true .internal
    let s := { s with power := { s.power with waking := false, clusterEntered := false } }
    let s := s.forEach allChans fun k s => ((s.takeLevel k (levels.getLsbD k)).checkDone k 0).rotation k
    if s.swarm.woke && !s.joined then
      (s.setAlign aAcquiring).modSwarm fun w => { w with dCount := 0, errs := [], stepped := false, within := 0 }
    else s

/-! Judging a command (R404, R405) -/

/-- Table 1-10 with R44, R48 and R405: the present state permits a command. -/
def State.permitted (s : State) (code : Nat) : Bool :=
  if s.cmdPending then code == cAbort && s.swarm.armId.isSome
  else if s.inCluster then code == cWake && !s.power.waking
  else s.allowed code && !(s.isMember && decide (cArm ≤ code ∧ code ≤ cAbort))

/-- The judgement of a write of CHIP.CMD is entered in the journal and in CMD_JUDGED. -/
def State.judged (s : State) (a : Agent) (v : Dword) (o : JOut) : State :=
  (s.journalAt s.now .command a (v.toNat / 256 % 256) (chipPage + 0x50) o v.toNat).post chipPage CHIP.st_CMD_JUDGED

/-- An accepted command whose result is known at once. -/
def State.accepted (s : State) (a : Agent) (v : Dword) : State :=
  (s.setStatus (v.toNat % 16) 2 (v.toNat / 256 % 256) 0).judged a v .done

/-- An accepted command whose result is not known yet (R405). -/
def State.acceptedPending (s : State) (a : Agent) (v : Dword) : State :=
  let id := v.toNat / 256 % 256
  ({ s with run := { s.run with pendingCmd := some (v.toNat % 16, id) } }.setStatus (v.toNat % 16) 1 id 0).judged a v .pending

/-- LOAD is accepted (R197, R405). -/
def State.acceptLoad (s : State) (a : Agent) (v : Dword) : State := (s.acceptedPending a v).loadBegin a

/-- ARM is accepted: refused with a cause, sent to the swarm by a queen, or taken (R43, R300, R405). -/
def State.acceptArm (s : State) (a : Agent) (v : Dword) : State :=
  match s.armRefusal with
  | some c => ((s.setStatus cArm 5 (v.toNat / 256 % 256) c).judged a v .refused).refuseArm c
  | none => if s.isQueen then (s.acceptedPending a v).armSwarm else (s.accepted a v).doArm a

def State.acceptStart (s : State) (a : Agent) (v : Dword) : State := (s.accepted a v).runLocal cStart a
def State.acceptStop (s : State) (a : Agent) (v : Dword) : State := (s.accepted a v).runLocal cStop a

/-- ABORT is accepted; during a pending ARM of the swarm it ends that ARM (R405). -/
def State.acceptAbort (s : State) (a : Agent) (v : Dword) : State :=
  if s.cmdPending then (s.judged a v .done).abortArm.setStatus cAbort 2 (v.toNat / 256 % 256) 0
  else (s.accepted a v).runLocal cAbort a

def State.acceptReset (s : State) (a : Agent) (v : Dword) : State := (s.accepted a v).resetRun a
def State.acceptCluster (s : State) (a : Agent) (v : Dword) : State := (s.accepted a v).clusterBegin a
def State.acceptWake (s : State) (a : Agent) (v : Dword) : State := (s.accepted a v).wakeBegin

/-- A known code, and every reserved bit 0. -/
def wellFormedCmd (v : Dword) : Bool :=
  decide (1 ≤ v.toNat % 16 ∧ v.toNat % 16 ≤ 8) && decide (v.toNat / 16 % 16 = 0) && decide (v.toNat / 2 ^ 16 = 0)

/-- A command of agent `a` is judged at the end of its ACLK cycle, after the internal events of that cycle; for the host a swarm command goes before,
for the service port a command of the host too (R47, R405). -/
def State.cmdWaits (s : State) (a : Agent) : Bool :=
  s.eventWaits || !s.run.heldCmds.isEmpty || !s.run.heldSwarm.isEmpty
    || (a != .swarm && s.pending.any swarmCommand) || (a == .svc && s.pending.any hostCommand)

/-- A command is judged in the order of R404; `accept` is what its acceptance does. -/
def State.judgeNow (s : State) (a : Agent) (v : Dword) (accept : State → State) : State :=
  let code := v.toNat % 16
  let id := v.toNat / 256 % 256
  if !wellFormedCmd v then
    ((s.setStatus code 4 id 0).raiseWrite chipPage CHIP.err_CMD_ENCODING 0x50 a).judged a v .encoding
  else if s.run.lastId = some (BitVec.ofNat 8 id) then (s.addSat chipPage CHIP.CMD_DUPS 1).judged a v .duplicate
  else if !s.permitted code then
    let s := if s.cmdPending then s else s.setStatus code 3 id 0
    (s.raiseWrite chipPage CHIP.err_STATE_ERR 0x50 a).judged a v .stateErr
  else accept { s with run := { s.run with lastId := some (BitVec.ofNat 8 id) } }

/-- A command of agent `a` is judged at once where nothing of its ACLK cycle can come before it any more, or else at the cycle's end (R47, R405). -/
def State.judgeCmd (s : State) (a : Agent) (v : Dword) (accept : State → State) : State :=
  if s.cmdWaits a then { s with run := { s.run with heldCmds := s.run.heldCmds ++ [(a, v)] } } else s.judgeNow a v accept

/-- The dword of a command. -/
def cmdWord (code : Nat) (id : BitVec 8) : Dword := BitVec.ofNat 32 (code + 2 ^ 8 * id.toNat)

end Sys2Proof.Machine
end

