-- ==== Sys2Proof/WellFormed.lean ====
section
/-! DEFINITION. The commands that can come about: bounds that the spec sets on what a command brings and that an operand's type does not say.
Meanings are total all the same; a statement names the bound where it needs it. -/
namespace Sys2Proof

/-- The image parameters of a measurement kind (R142, R155, R160): a SKEW window from 1 to 2^30 su, an ADEV window of 2 to 2^32 gates with
1 to 16 octaves, a STATS report every 1 or more samples. -/
def MeasKind.wf : MeasKind → Bool
  | .skew _ w => decide (1 ≤ w ∧ w ≤ 2 ^ 30)
  | .adev m j => decide (2 ≤ m ∧ m ≤ 2 ^ 32 ∧ 1 ≤ j ∧ j ≤ 16)
  | .stats _ (some n) => decide (1 ≤ n)
  | _ => true

/-- A correction table has 32 DLL bins (R95, R114). -/
def CalTable.wf (t : CalTable) : Bool := decide (t.starts.length = 32)

/-- What a nurse duty measures: 32 widths (R114). -/
def Duty.wf (d : Duty) : Bool := decide (d.widths.length = 32)

/-- A dword address within BAR0 (R362, Table 12-1). -/
def dwordAligned (a : BitVec 24) : Bool := decide (a.toNat % 4 = 0)

/-- A phase error saturates at ±2,047 su (Table 2-11). -/
def phasesOk (l : List (BitVec 12)) : Bool := l.all fun e => e != 0x800

/-- What a loss brings: the cycles before it, or the cycles that show it, at least one (R64). -/
def LossCause.wf : LossCause → Bool
  | .noEdge l => phasesOk l
  | .phases l => !l.isEmpty && phasesOk l

/-- A read that broke off a LOAD failed (R198). -/
def LoadBreak.wf : LoadBreak → Bool
  | .pcie k _ _ => k != .good
  | .parity .. => true

/-- A location of a chip-level structure (Table 15-2): fuse block, journal ring index, word of the DMA buffer, exchange channel, page TYPE and
INSTANCE, port and entry of the link frame buffers. -/
def chipLocOk (code loc : Nat) : Bool :=
  match code with
  | 1 => decide (loc < 256)
  | 2 => decide (loc < 4096)
  | 3 => decide (loc < 8192)
  | 4 => decide (loc < 128)
  | 5 => decide (loc < 65536)
  | 6 => decide (loc < 4096)
  | _ => false

/-- An upset bit of a half is one of its 80 (R256). -/
def upsetOk (l : List (BitVec 14 × Bool × List (BitVec 7))) : Bool := l.all fun x => x.2.2.all fun b => decide (b.toNat < 80)

/-- The command respects the bounds of the spec on its operands. -/
def Instr.wf : Instr → Bool
  | .loadComplete image brk insts lines =>
    decide (image.length ≤ 2 ^ 20) && brk.all LoadBreak.wf && insts.all (fun m => m.kind.wf) && lines.all fun l => decide (l.1 < 512)
  | .lockDeclared l _ => !l.isEmpty && phasesOk l
  | .hardLoss c _ => c.wf
  | .softLoss l _ => !l.isEmpty && phasesOk l
  | .lockWithdrawn c _ => c.wf
  | .nurseDutyEnd _ d => d.wf
  | .initialCalDone _ tables => tables.all fun t => t.2.2.wf
  | .recalDone _ _ tables => tables.all fun t => t.2.2.wf
  | .bar2Read w n => decide (1 ≤ n.val ∧ w.toNat + n.val ≤ 2 ^ 25)
  | .bar2Write w ds => decide (ds ≠ [] ∧ w.toNat + ds.length ≤ 2 ^ 25)
  | .registerWrite a _ _ => dwordAligned a
  | .shadowWrite a _ _ => dwordAligned a
  | .rcRead a => dwordAligned a
  | .dmaDataMove _ _ k bytes => k == .good || bytes.isEmpty
  | .scrubVisit _ ups => upsetOk ups
  | .chipUe code loc => decide (2 ≤ code.toNat) && chipLocOk code.toNat loc.toNat
  | _ => true

end Sys2Proof
end

