-- ==== Sys2Proof/Machine/Power.lean ====
section
/-! DEFINITION. Resets and start-up, PERST_N and hot reset, temperature, chip-level uncorrectable errors, the service port, the test access port
(R421, R423, R425, R433, R441 to R446, R453 to R457, R466, R467, R469, R474 to R476). -/
namespace Sys2Proof.Machine
open Sys2Proof

/-! Holding the part in reset (R441, R442, R444, Table 16-2) -/

/-- The page registers that RESET_N leaves: RESET_CAUSE, and with `keepSvc` the counters of the service port (R421, R442). -/
def keptRegs (keepSvc : Bool) (t : Tab Dword) : Tab Dword :=
  t.keep fun a => a == chipPage + 0x8c || (keepSvc && (a == svcPage + 0x44 || a == svcPage + 0x48 || a == svcPage + 0x4c))

/-- The whole part as reset leaves it: no record and no journal entry survives. What stands outside its reset is kept: the commands that wait,
the pins, the test access port, and under a hold of the service port that port. -/
def State.wiped (s : State) (keepSvc : Bool) : State :=
  { State.reset with
    pending := s.pending
    power := { State.reset.power with monitor := s.power.monitor, resetN := s.power.resetN, svcHold := s.power.svcHold, testEn := s.power.testEn, perst := s.power.perst, causes := s.power.causes, noHv := s.power.noHv, noCore := s.power.noCore, noOther := s.power.noOther }
    regs := keptRegs keepSvc s.regs
    svc := if keepSvc then { s.svc with outOld := (0, 0), inOld := (0, 0) } else State.reset.svc
    tap := s.tap
    out := s.out
    freeCtr := s.freeCtr }

/-- A reset of cause bit `bit` holds the part. -/
def State.holdBy (s : State) (bit : Nat) (keepSvc : Bool) (f : Power → Power) : State :=
  { s with power := f { s.power with causes := s.power.causes ||| BitVec.ofNat 6 (2 ^ bit) } }.wiped keepSvc

/-- RESET_N goes low (R442). -/
def State.resetNAssert (s : State) : State := s.holdBy 1 false fun p => { p with resetN := true }

/-- TEST_EN goes high (R467). -/
def State.testEnHigh (s : State) : State := s.holdBy 1 false fun p => { p with testEn := true }

/-- A rail fails: power-on reset (R441, R457). `good` tells that the rail has risen again, so that the monitor counts its 2 ms; otherwise it stays
below its power-good level until then. VDD_HV and VDD_CORE power the test access port (R474). -/
def State.railFail (s : State) (rail : Rail) (good : Bool) : State :=
  let p := s.power
  let p := match rail with
    | .hv => { p with noHv := !good }
    | .core => { p with noCore := !good }
    | .other => { p with noOther := !good }
  let s := { s with regs := [] }
  let s := { s with power := { p with monitor := true, svcHold := false, causes := 1 } }.wiped false
  if rail = .other then s else { s with tap := ⟨1, 0, 0⟩ }

/-- Every rail has been good for 2 ms (R441). -/
def State.monitorRelease (s : State) : State :=
  { s with power := { s.power with monitor := false, noHv := false, noCore := false, noOther := false } }

/-! Chip-level uncorrectable errors (R425, R433) -/

/-- The records of a group that stands at positions `k` on of the ring, once the entry that holds position `i` is overwritten with `g`: an entry keeps its
size (of an entry of another size than `g`, DESIGN CHOICE, assumption 45). -/
def overwriteGroup (i : Nat) (g : List Rec) : Nat → List (List Rec) → List (List Rec)
  | _, [] => []
  | k, e :: l =>
    (if k ≤ i ∧ i < k + e.length then (g ++ List.replicate e.length Rec.pad).take e.length else e) :: overwriteGroup i g (k + e.length) l

/-- The journal entry at a ring index has failed: it is overwritten with the error group just written (R433). -/
def State.journalFails (s : State) (idx : Nat) : State :=
  let h := recsOf s.journal
  let d := (s.fld jrnlPage JRNL.WR_COUNT + 4096 - idx) % 4096
  let d := if d = 0 then 4096 else d
  if d ≤ h then { s with journal := overwriteGroup (h - d) (s.journal.getLastD []) 0 s.journal } else s

/-- An uncorrectable error of structure `code` at `loc` (Table 15-2): the record comes before the regions stop. -/
def State.chipUe (s : State) (code : Nat) (loc : Nat) : State :=
  let d := code * 2 ^ 30 + loc % 2 ^ 30
  let s := ((s.setFld chipPage CHIP.live_CAUSE_UE 1).raise chipPage CHIP.err_CHIP_UE).error none 122 3 0 d true
  let s := if code = 2 then s.journalFails (loc % 4096) else s
  (s.chipStop 3 d true).raiseEvent 0xa d

/-- A chip-level structure other than the fuses fails, at a location that it has. -/
def State.structureFails (s : State) (code : BitVec 4) (loc : BitVec 30) : State :=
  if !s.live || decide (code.toNat < 2) || !chipLocOk code.toNat loc.toNat then s else s.chipUe code.toNat loc.toNat

/-! Start-up (R425, R445, R466) -/

/-- Registers that show fused values (Table 14-8). -/
def fusedRegs : List Nat :=
  [chipPage + 0x48, chipPage + 0x4c] ++ (List.range 96).map (fun k => chPage k + 0x90)
    ++ (List.range 256).flatMap fun b => [bankPage b + 0x60, bankPage b + 0x64]

/-- A fuse block fails its parity: its values read 0 (R425). -/
def State.fuseFails (s : State) (b : BitVec 8) : State :=
  let s := s.forEach (fusedRegs.filter fun a => Config.fuseBlock a == b) fun a s => s.wr a 0
  { s with power := { s.power with badFuses := s.power.badFuses ++ [b] } }.chipUe 1 b.toNat

/-- The fused start-up trim of converter `j` of channel `k`, from which the initial calibration starts; 0 where its fuse block failed (R119, R425,
Table 14-8). -/
def State.startTrim (s : State) (k j : Nat) : BitVec 64 :=
  if s.power.badFuses.contains (Config.startTrimBlock k j) then 0 else Config.startTrim k j

/-- Start-up begins: fuses, the queen strap, the comparators, the ZQ_CAL resistor; every pool is to be calibrated (R446) and the main synthesizer is
to lock next. -/
def State.startUp (s : State) (strap : Bool) (bad : List (BitVec 8)) (levels : BitVec 96) (ohms : Option Nat) : State :=
  let c := s.fld chipPage CHIP.RESET_CAUSE_CAUSE ||| s.power.causes.toNat
  let s := { s with zq := some ⟨0, ohms⟩ }
  let s := { s with power := { s.power with startup := .waitLock, causes := 0 } }.setRc chipPage CHIP.RESET_CAUSE_CAUSE c
  let s := s.setBit swarmPage SWARM.STATE_STRAP strap
  let s := s.setQueen s.roleOf
  let s := s.forEach allChans fun k s => (s.takeLevel k (levels.getLsbD k)).setFld (chPage k) CH.POOL_STATUS_CALIBRATING 1
  bad.foldl (fun s b => s.fuseFails b) s

/-- Reset is released: a pin goes inactive, and the part starts up unless something else still holds it (R445, R457, R475). -/
def State.resetRelease (s : State) (pin : ResetPin) (strap : Bool) (bad : List (BitVec 8)) (levels : BitVec 96) (ohms : Option Nat) : State :=
  let s := match pin with
    | .none => s
    | .resetN => { s with power := { s.power with resetN := false } }
    | .testEn => { s with power := { s.power with testEn := false } }
  if s.released && s.power.startup == .held then s.startUp strap bad levels ohms else s

/-- The self-test of the store ends: pads everywhere, written poison in halves that failed (R445). -/
def State.selfTestDone (s : State) (bad : List (Fin 256 × BitVec 14 × Bool)) : State :=
  if !s.live || !s.bit tbPage TB.live_STARTED || s.power.selfTestDone then s
  else
    let s := { s with store := [] }
    let s := { s with power := { s.power with selfTestDone := true } }
    bad.foldl (fun s (x : Fin 256 × BitVec 14 × Bool) =>
      (s.writePoison x.1.val x.2.1.toNat (b2n x.2.2)).addSat (bankPage x.1.val) BANK.UE_COUNT 1) s

/-- The initial calibration of the pools ends; start-up is complete unless a chip-level error stands (R119, R425, R445). -/
def State.initialCalDone (s : State) (bad : List (Fin 96 × BitVec 17)) (tables : List (Fin 96 × Fin 17 × CalTable)) : State :=
  if !s.live || !(allChans.any fun k => (s.chan k).cal == .initial) then s
  else
    let s := s.forEach (allChans.filter fun k => (s.chan k).cal == .initial) fun k s =>
      let s := s.calDone k (maskOf k bad) tables
      if s.asleep || s.causeThermal then s.poolOff k else s
    if s.power.startup = .ready ∨ s.causeUe then s
    else
      let s := { s with power := { s.power with startup := .ready } }
      ((s.setFld chipPage CHIP.live_READY 1).post chipPage CHIP.st_READY_SET).unitEvent chipPage

/-! PERST_N and hot reset (R388, R442, R443) -/

/-- A counter that counts from power-on or RESET_N (R389, R390): CPL_TIMEOUTS of the DMA page; DESCS, the BYTES pair and REFETCHES of a DMAC page. -/
def dmaCounter (a : Nat) : Bool := a == 0x18050 || (decide (0x19000 ≤ a) && decide (0x070 ≤ a % 0x1000 ∧ a % 0x1000 ≤ 0x07c))

/-- A register that PERST_N and a hot reset take back to its reset value: the DMA and DMAC pages but for freezes and the counters that count from
power-on or RESET_N, and every page's interrupt enables. -/
def perstClears (a : Nat) : Bool :=
  (decide (0x18000 ≤ a ∧ a < 0x21000) && a % 0x1000 != 0x024 && !dmaCounter a) || ((pageOf a).isSome && (a % 0x1000 == 0x028 || a % 0x1000 == 0x02c))

/-- A request of the host window or of a DMA engine. -/
def Access.ofHost : Access → Bool
  | .line .. | .engine _ | .lent .. => false
  | .move _ | .fetch .. | .back _ | .hostRead .. | .hostWrite .. => true

/-- Requests of the host window and of the DMA engines that wait end with the link. -/
def State.dropHostWaits (s : State) : State := { s with reqs := s.reqs.filter fun q => !q.access.ofHost }

/-- The registers that PERST_N clears take their reset values, and every page is locked (Table 16-2, R399). -/
def State.clearHostPages (s : State) : State :=
  let s := { s with regs := s.regs.keep fun a => !perstClears a }
  let s := { s with rcNew := s.rcNew.keep fun a => !perstClears a }
  let s := { s with shadows := s.shadows.keep fun a => !perstClears a }
  { s with keys := [] }

/-- The DMA engines, the MSI-X structures and the endpoint are as after reset (Table 16-2). -/
def State.resetEngines (s : State) : State :=
  let s := { s with dma := [] }
  let s := { s with dmaTurn := State.reset.dmaTurn }
  let s := { s with msix := State.reset.msix }
  { s with endpoint := Endpoint.init }

/-- The endpoint is reset with cause bit `bit`; the run goes on. While another reset holds the part the bit is gathered for its end; a power-on clears
it (R421). -/
def State.endpointReset (s : State) (bit : Nat) : State :=
  if s.power.monitor then s
  else if !s.live then { s with power := { s.power with causes := s.power.causes ||| BitVec.ofNat 6 (2 ^ bit) } }
  else
    let s := s.linkLost (List.range 8)
    let s := s.setRc chipPage CHIP.RESET_CAUSE_CAUSE (s.fld chipPage CHIP.RESET_CAUSE_CAUSE ||| 2 ^ bit)
    let s := s.entry .unitEvent .internal (chipPage + 0x8c) .done (s.rd (chipPage + 0x8c)).toNat
    let s := s.clearHostPages.resetEngines.dropHostWaits
    let s := { s with power := { s.power with configReady := false } }
    if s.bit chipPage CHIP.live_LOADING then s.loadEnd (some (.at 8 0)) else s

def State.perstN (s : State) : State :=
  let s := s.endpointReset 3
  { s with power := { s.power with perst := true, configReady := false } }

def State.hotReset (s : State) : State := s.endpointReset 4

/-- A size of 128 bytes doubled `n` times. -/
def pciSize (n : Nat) : Nat := 128 * 2 ^ n

/-- Codes of the configuration fields that hold a link speed, a link width or a range of the completion timeout, as PCI Express has them. -/
def speedCode : PciSpeed → Nat
  | .gt2_5 => 1
  | .gt5 => 2
  | .gt8 => 3
  | .gt16 => 4

def widthLanes : PciWidth → Nat
  | .x1 => 1
  | .x2 => 2
  | .x4 => 4

def rangeCode : PciRange → Nat
  | .a => 1
  | .b => 2
  | .c => 4

/-- What a configuration read returns (Tables 12-1 and 14-7): sizes in bytes, 1 for D3hot, and 0 of every feature that is not implemented. -/
def State.cfgValue (s : State) (f : CfgField) : Nat :=
  let e := s.endpoint
  match f with
  | .vendor => e.ident.vendor.toNat
  | .device => e.ident.device.toNat
  | .revision => e.ident.revision.toNat
  | .classCode => e.ident.classCode.toNat
  | .headerType => e.ident.headerType.toNat
  | .subVendor => e.ident.subVendor.toNat
  | .subsystem => e.ident.subsystem.toNat
  | .serial => s.pair chipPage CHIP.DIE_ID_LO
  | .interruptPin => 0
  | .bar0Size => 0x1000000
  | .bar2Size => 0x8000000
  | .msixVectors => 64
  | .payloadSupported => 512
  | .maxPayload => e.maxPayload
  | .maxRead => e.maxRead
  | .linkSpeed => speedCode e.link.speed
  | .linkWidth => widthLanes e.link.width
  | .power => b2n e.d3hot
  | .timeoutOff => b2n e.timeoutOff
  | .timeoutRange => rangeCode e.timeoutRange
  | .aspm => b2n e.aspmL1
  | .unsupported => 0

/-- What a configuration write programs (R359, R367). -/
def State.cfgWrite (s : State) (w : CfgWrite) : State :=
  match w with
  | .maxPayload n => { s with endpoint := { s.endpoint with maxPayload := pciSize n.val } }
  | .maxRead n => { s with endpoint := { s.endpoint with maxRead := pciSize n.val } }
  | .power d3 => { s with endpoint := { s.endpoint with d3hot := d3 } }
  | .timeout off range => { s with endpoint := { s.endpoint with timeoutOff := off, timeoutRange := range } }
  | .aspm l1 => { s with endpoint := { s.endpoint with aspmL1 := l1 } }
  | .msix enable funcMask => s.msixControl enable funcMask

/-- A configuration request: Configuration Request Retry Status until the configuration space is ready (R361). -/
def State.cfgAccess (s : State) (r : CfgRequest) : State :=
  if !s.power.configReady then s.send .configRetry
  else match r with
    | .read f => s.send (.configData f (s.cfgValue f))
    | .write w => (s.cfgWrite w).send .configDone

/-- PERST_N is inactive again and the link has trained; the configuration space becomes ready. The host's configuration requests before that, and
after it those that it makes before the next command (R359, R361). -/
def State.configIsReady (s : State) (link : PciLink) (early later : List CfgRequest) : State :=
  if !s.live then s
  else
    let s := early.foldl State.cfgAccess s
    let s := { s with power := { s.power with configReady := true, perst := false } }
    let s := { s with endpoint := { s.endpoint with link := link } }
    later.foldl State.cfgAccess s

/-- The PCI Express link goes down (R388). -/
def State.pcieDown (s : State) : State := if !s.live then s else s.linkLost (List.range 8)

/-! Temperature (R419, R453, R454) -/

/-- 115.00 °C and 105.00 °C in units of 0.25 °C. -/
def thermalLimit : Int := 460
def thermalClear : Int := 420

/-- The limit is reached (R45, R454). -/
def State.thermalOn (s : State) (temp : Nat) : State :=
  let s := (s.setFld chipPage CHIP.live_CAUSE_THERMAL 1).raise chipPage CHIP.err_THERMAL
  let s := (s.chipFault 2 0 temp true).raiseEvent 9 temp
  (s.forEach allChans fun k s => s.poolOff k).synSleep

/-- The die has cooled: pools calibrate afresh, synthesizers search, unless the part sleeps (R454). -/
def State.thermalOff (s : State) : State :=
  let s := s.setFld chipPage CHIP.live_CAUSE_THERMAL 0
  if s.asleep then s else (s.forEach allChans fun k s => s.beginCal k .initial).synWake

/-- A conversion of the die temperature completes (R419, R453). -/
def State.tempUpdate (s : State) (v : BitVec 11) : State :=
  if !s.live then s
  else
    let s := (s.setFld chipPage CHIP.TEMP_VALUE v.toNat).setFld chipPage CHIP.TEMP_VALID 1
    let warm := decide (signed 11 (s.fld chipPage CHIP.THERM_WARN_LEVEL) ≤ v.toInt)
    let was := s.bit chipPage CHIP.live_THERM_WARN
    let s := s.setBit chipPage CHIP.live_THERM_WARN warm
    let s := if warm && !was then s.post chipPage CHIP.st_THERM_WARN else s
    if !s.causeThermal && decide (thermalLimit ≤ v.toInt) then s.thermalOn v.toNat
    else if s.causeThermal && decide (v.toInt < thermalClear) then s.thermalOff else s

/-- Every 100 ms while any of the seven drivers is enabled the ZQ_CAL resistor is measured, and the drivers are trimmed from the result (R469). -/
def State.zqMeasure (s : State) (ohms : Option Nat) : State :=
  if !s.live || !(allSyns.any fun i => s.bit (synPage i) SYN.CTRL_EN || s.bit (synPage i) SYN.CTRL_CAL)
      || (s.zq.any fun z => decide (s.time.tclk < z.tclk + 100000000)) then s
  else { s with zq := some ⟨s.time.tclk, ohms⟩ }

/-- The service port and the test access port, which VDD_HV and VDD_CORE power, work while those rails are good (R474). -/
def State.powered (s : State) (f : State → State) : State := if s.power.noHv || s.power.noCore then s else f s

/-! The service port (R422, R423, R455 to R457) -/

/-- An error of the port's own; while the part is held in reset only the counters count. -/
def State.svcErr (s : State) (f : Fld) : State := if s.live then s.raise svcPage f else s

/-- Every frame first shifts out the response register. -/
def State.svcShift (s : State) : State := s.send (.svcResponse s.svc.response)

def State.svcRespond (s : State) (w : Dword) : State := { s with svc := { s.svc with response := w } }

/-- A request that is accepted. -/
def State.svcAccept (s : State) : State := s.addWrap svcPage SVC.FRAMES 1

/-- A reserved request has no effect (R456). -/
def State.svcBad (s : State) : State :=
  ((s.addSat svcPage SVC.BAD_OPS 1).svcErr SVC.err_BAD_OP).svcRespond 0xffffffff

/-- A request that is served only out of reset. -/
def State.svcServe (s : State) (f : State → State) : State := if s.live then (f s.svcShift).svcAccept else s.svcShift.svcBad

def State.svcNop (s : State) : State := s.svcShift.svcAccept

/-- READ_ID (Table 16-7); 0 in reset. -/
def State.svcReadId (s : State) (index : BitVec 2) : State :=
  (s.svcShift.svcRespond (if s.live then s.rd (chipPage + (if index = 0 then 0x40 else if index = 1 then 0x44 else if index = 2 then 0x48 else 0x4c)) else 0)).svcAccept

def State.svcReadHealth (s : State) : State := (s.svcShift.svcRespond (if s.live then s.health else 0)).svcAccept

/-- READ_MBOX; with a host write in the same ACLK cycle it returns the old value and OUT_FULL stays 1 (R423). -/
def State.svcReadMbox (s : State) : State :=
  s.svcServe fun s =>
    let s := s.svcRespond (s.mailbox s.svc.outOld 0x054)
    (if s.svc.outOld.1 = s.aclk then s else s.setFld svcPage SVC.live_OUT_FULL 0).post svcPage SVC.st_MBOX_TAKEN

def State.svcMboxLo (s : State) (v : BitVec 16) : State :=
  s.svcServe fun s => { s with svc := { s.svc with response := s.health, mboxLo := v } }

/-- MBOX_HI (R423). -/
def State.svcMboxHi (s : State) (v : BitVec 16) : State :=
  s.svcServe fun s =>
    let old := s.rd (svcPage + 0x58)
    let s := { s with svc := { s.svc with inOld := s.noteOld s.svc.inOld old } }
    ((s.wr (svcPage + 0x58) (BitVec.ofNat 32 (v.toNat * 2 ^ 16 + s.svc.mboxLo.toNat))).post svcPage SVC.st_MBOX_IN).svcRespond s.health

/-- CMD (R404, R456): discarded while CMD_EN is 0. -/
def State.svcCmd (s : State) (id : BitVec 8) (wake : Bool) : State :=
  let v := cmdWord (if wake then cWake else cCluster) id
  if !s.live then s.svcShift.svcBad
  else if !s.bit svcPage SVC.CTRL_CMD_EN then s.svcShift.journalAt s.now .command .svc id.toNat (chipPage + 0x50) .refused v.toNat
  else s.svcServe fun s =>
    let s := s.judgeCmd .svc v fun s => if wake then s.acceptWake .svc v else s.acceptCluster .svc v
    s.svcRespond (s.rd (chipPage + 0x54))

def State.svcReadCmd (s : State) : State := s.svcServe fun s => s.svcRespond (s.rd (chipPage + 0x54))

/-- The entry of a HOLD or RELEASE. -/
def State.svcEntry (s : State) (o : JOut) : State := s.entry .unitEvent .svc (svcPage + 0x008) o (s.rd (svcPage + 0x008)).toNat

/-- HOLD (R442, R457): discarded while HOLD_EN is 0. -/
def State.svcHold (s : State) : State :=
  if !s.live then s.svcShift.svcBad
  else if !s.bit svcPage SVC.CTRL_HOLD_EN then s.svcShift.svcEntry .refused
  else
    let s := (s.svcShift.svcRespond s.health).svcAccept.svcEntry .done
    s.holdBy 2 true fun p => { p with svcHold := true }

/-- RELEASE (R456, R457): start-up proceeds once nothing else holds the part, and the entry is then the first of the new journal (DEDUCED,
assumption 47). -/
def State.svcRelease (s : State) : State :=
  let s := (s.svcShift.svcRespond (if s.live then s.health else 0)).svcAccept
  let s := if s.live then s else { s with power := { s.power with svcHold := false } }
  if s.released then s.svcEntry .done else s

def State.svcReserved (s : State) : State := s.svcShift.svcBad

/-- A frame of fewer than 32 clocks (R455). -/
def State.svcDiscard (s : State) : State := (s.addSat svcPage SVC.DISCARDS 1).svcErr SVC.err_DISCARD

/-! The test access port (R474 to R476) -/

/-- The identification register. -/
def idcode : Nat := 0x100967af

/-- Another instruction becomes current: one that holds the part resets it as RESET_N does; after one the part starts up (R475). -/
def State.tapInstr (s : State) (instr : BitVec 8) : State :=
  let s := { s with tap := ⟨instr, s.tap.shift, s.tap.drive⟩ }
  if holdsPart instr then s.holdBy 1 false id else s

/-- Boundary cells are captured and shifted out; the bits shifted in are their next drive values (R476). -/
def State.tapScan (s : State) (instr : BitVec 8) (pins next : BitVec 158) : State :=
  { s.tapInstr instr with tap := ⟨instr, pins, next⟩ }.send (.tdo instr pins)

/-- The bypass register shifts out 0. -/
def State.tapBypass (s : State) (instr : BitVec 8) : State := (s.tapInstr instr).send (.tdo instr 0)

/-- IDCODE, which Test-Logic-Reset selects too. -/
def State.tapIdcode (s : State) : State := (s.tapInstr 0x01).send (.tdo 0x01 (BitVec.ofNat 158 idcode))
def State.tapReset (s : State) : State := s.tapInstr 0x01

end Sys2Proof.Machine
end

