-- ==== Sys2Proof/Machine/RegWrite.lean ====
section
/-! DEFINITION. Host accesses to BAR0: what a write or a read of each register does (R17, R360 to R362, R391 to R404, R408, R412 to R423), under
the checks and with the effects that the chapters attach to single registers. -/
namespace Sys2Proof.Machine
open Sys2Proof

/-- A host access reaches the part only while its units respond and its endpoint is ready (R361, R446). -/
def State.hostAccess (s : State) (f : State → State) : State := if s.hostLive then f s else s

/-! The journal port (R408) -/

/-- Records between record `n` and the one to be written next, modulo 2^32. -/
def State.jrnlBack (s : State) (n : Nat) : Nat := (s.fld jrnlPage JRNL.WR_COUNT + 2 ^ 32 - n % 2 ^ 32) % 2 ^ 32

/-- Record `n`, while the ring holds it. -/
def State.jrnlRec (s : State) (n : Nat) : Option Rec :=
  let d := s.jrnlBack n
  let h := recsOf s.journal
  if 1 ≤ d ∧ d ≤ h then s.journal.flatten[h - d]? else none

/-- RD_COUNT takes `n`, and the port latches that record; `off` is the register accessed. -/
def State.jrnlSelect (s : State) (n off : Nat) : State :=
  let r := s.jrnlRec n
  let d := s.jrnlBack n
  let s := s.wr (jrnlPage + 0x48) (BitVec.ofNat 32 n)
  let s := if recsOf s.journal < d ∧ d < 2 ^ 31 then s.raiseAt jrnlPage JRNL.err_RD_LOST off 0 else s
  s.forEach (List.range 4) fun i s => s.wr (jrnlPage + 0x4c + 4 * i) (match r with
    | some r => BitVec.ofNat 32 ((recWord r i).toNat + 2 ^ 31)
    | none => 0)

/-! Freezes released (R402, R190, R268, R314, R387) -/

/-- The block's engine is idle after a release, and its transfer does not resume (R190). -/
def State.releaseEngine (s : State) (g : Nat) : State := (s.setFld (blkPage g) BLK.XFER_STATUS_BUSY 0).setFld (blkPage g) BLK.XFER_STATUS_FROZEN 0

/-- What becomes of the masters of a mask, released through a page (Table 13-4). -/
def State.resumeMasters (s : State) (t : PageType) (i mask : Nat) : State :=
  match t with
  | .reg =>
    let s := if bitOf mask 0 then s.releaseWriter i false else s
    if bitOf mask 1 then s.releaseWriter i true else s
  | .blk => s.releaseEngine i
  | .dma => s.releaseDma ((List.range 8).filter fun c => bitOf mask (b2n (dirWrite c)))
  | .link => s.releaseLent i
  | _ => s

/-- A keyed write of PAGE_FREEZE releases the masters that were frozen before this ACLK cycle: one that violates in it stays frozen (R400, R402,
R435). -/
def State.freezeWrite (s : State) (t : PageType) (i : Nat) (v : Dword) : State :=
  let base := pageBase t i
  let x := s.freshOf (base + 0x024)
  let mask := getBits x.stood 8 8
  if getBits v 0 1 = 0 ∨ mask = 0 then s.entry .write .pcie (base + 0x024) .done v.toNat
  else
    let s := if x.bits = 0 then s else s.setFresh (base + 0x024) { x with stood := 0 }
    let s := (s.setFld base PG.FREEZE_FROZEN (getBits x.bits 8 8)).post base PG.st_RELEASED
    (s.entry .release .pcie (base + 0x024) .done (mask * 2 ^ 8)).resumeMasters t i mask

/-! Error injection (R420, R438) -/

/-- KIND and UNIT name an error (Table 14-10). -/
def injectListed (v : Dword) : Bool :=
  let u := getBits v 4 10
  match getBits v 0 4 with
  | 0 => u == 0
  | 1 | 2 => decide (u < 256)
  | 3 => true
  | 4 => decide (u < 64)
  | 5 => decide (u < 4)
  | _ => false

/-- A keyed write of INJECT. -/
def State.injectWrite (s : State) (v : Dword) : State :=
  let row : RegRow := ⟨0x088, 1, 0, 0, 0x80003fff, 0, 0, 0⟩
  let go := getBits v 31 1 = 1
  if go ∧ s.bit chipPage CHIP.INJECT_GO then s.entry .write .pcie (chipPage + 0x088) .duplicate v.toNat
  else if go ∧ !injectListed v then s.rejectWrite .chip 0 0x088 row v .pcie CHIP.err_INJECT_ENCODING .encoding
  else s.storeValue .chip 0 0x088 row v v true .pcie false false

/-! Commands written to CHIP.CMD (R404) -/

/-- What the acceptance of a command does, by its code (Table 1-9). -/
def acceptCode (a : Agent) (v : Dword) (s : State) : State :=
  match v.toNat % 16 with
  | 1 => s.acceptLoad a v
  | 2 => s.acceptArm a v
  | 3 => s.acceptStart a v
  | 4 => s.acceptStop a v
  | 5 => s.acceptAbort a v
  | 6 => s.acceptReset a v
  | 7 => s.acceptCluster a v
  | 8 => s.acceptWake a v
  | _ => s

/-! Checks of a write, register by register (R396) -/

/-- The index polarity excludes every edge that EDGE.SEL passes (R135). -/
def accConflict (sel pol : Nat) : Bool :=
  match pol with
  | 0 => sel == 1 || sel == 3
  | 1 => sel == 0 || sel == 3
  | 2 => sel == 3
  | _ => false

/-- CH pages (R78, R85, R117, R135, R141). -/
def State.chVerdict (s : State) (k off : Nat) (v : Dword) : Verdict :=
  let p := chPage k
  if off = 0x040 then s.inputVerdict k v
  else if off = 0x044 then
    let c := clampLevel (s.modeOf k) (getBits v 0 12)
    if c = getBits v 0 12 then .accept v none else .accept (setBits v 0 12 c) (some CH.err_RANGE)
  else if off = 0x04c then
    let a := s.soon (p + 0x100)
    if getBits a 0 1 = 1 ∧ accConflict (getBits v 0 2) (getBits a 1 2) then .reject CH.err_ACC_CONFLICT .conflict else .accept v none
  else if off = 0x080 then s.poolCtrlVerdict v
  else if off = 0x100 then
    let least := s.fld p CH.GATE_MIN_KMIN_M1
    if getBits v 1 2 = 3 then .reject CH.err_ACC_ENCODING .encoding
    else if getBits v 0 1 = 1 ∧ accConflict (s.soonFld p CH.EDGE_SEL) (getBits v 1 2) then .reject CH.err_ACC_CONFLICT .conflict
    else if getBits v 3 12 < least then .accept (setBits v 3 12 least) (some CH.err_ACC_RANGE)
    else .accept v none
  else if off = 0x104 ∧ getBits v 0 2 = 3 then .reject CH.err_ACC_ENCODING .encoding
  else if off = 0x108 then
    let w := clampLen (s.soonFld p CH.GATE_CTRL_MODE) (s.soonFld p CH.GATE_CTRL_SCALE == 1) (s.fld p CH.GATE_MIN_MIN_NS) v.toNat
    if w = v.toNat then .accept v none else .accept (BitVec.ofNat 32 w) (some CH.err_ACC_RANGE)
  else .accept v none

/-- REG pages (R239, Table 7-17). -/
def State.regVerdict (s : State) (n off : Nat) (v : Dword) : Verdict :=
  if off = 0x238 then (if s.betweenRuns then .accept v none else .reject REG.CAP_EVENTS_BUSY_REJECT .busyReject)
  else if (off = 0x240 ∨ off = 0x244) ∧ s.segLen n < getBits v 0 21 then .accept (setBits v 0 21 (s.segLen n)) (some REG.CAP_EVENTS_RANGE)
  else .accept v none

/-- ESL page (R221, Table 7-20). -/
def State.eslVerdict (s : State) (off : Nat) (v : Dword) : Verdict :=
  if (off = 0x040 ∨ off = 0x044) ∧ (!s.betweenRuns ∨ (off = 0x040 ∧ getBits v 1 2 = 3)) then .reject ESL.err_BUSY_REJECT .busyReject
  else .accept v none

/-- LINK pages (R279). -/
def State.linkVerdict (s : State) (p off : Nat) (v : Dword) : Verdict :=
  if off = 0x040 ∧ getBits v 1 2 ≠ s.linkRole p ∧ !s.configOk then .reject LINK.err_BUSY_REJECT .busyReject else .accept v none

/-- SWARM page (R279, R299, R301). -/
def State.swarmVerdict (s : State) (off : Nat) (v : Dword) : Verdict :=
  if off = 0x040 ∧ getBits v 0 2 = 3 then .reject SWARM.err_ENCODING .encoding
  else if (off = 0x040 ∨ off = 0x044 ∨ off = 0x048) ∧ !s.configOk then .reject SWARM.err_BUSY_REJECT .busyReject
  else if off = 0x054 ∧ getBits v 0 16 = 0 then .accept (setBits v 0 16 1) none
  else if off = 0x058 ∧ getBits v 0 16 < 10 then .accept (setBits v 0 16 10) none
  else .accept v none

/-- DOM pages (R322, R336, Table 10-5). -/
def State.domVerdict (s : State) (d off : Nat) (v : Dword) : Verdict :=
  if s.isMember && ((off == 0x040 && getBits v 1 2 != s.soonFld (domPage d) DOM.CTRL_SRC) || [0x44, 0x48, 0x58, 0x5c, 0x60, 0x64, 0x68, 0x7c].contains off)
  then .reject DOM.err_NOT_SERVO .refused
  else if off = 0x04c then
    let m := getBits v 0 10
    if m = 0 then .accept (setBits v 0 10 1) none else if 1000 < m then .accept (setBits v 0 10 1000) none else .accept v none
  else if off = 0x074 ∧ v.toNat < 2000000 then .accept 2000000 none
  else .accept v none

/-- The judgement of a write that reaches its fields (R396). -/
def State.verdict (s : State) (t : PageType) (i off : Nat) (v : Dword) (keyed : Bool) : Verdict :=
  match t with
  | .tb => if off = 0x040 ∧ keyed then s.tbVerdict v else .accept v none
  | .chip =>
    if (off = 0x05c ∨ off = 0x060 ∨ off = 0x064) ∧ s.bit chipPage CHIP.live_LOADING then .reject CHIP.err_BUSY_REJECT .busyReject else .accept v none
  | .syn => if off = 0x05c ∨ off = 0x060 ∨ off = 0x064 then s.loopVerdict i off v else s.synVerdict i off v
  | .dom => s.domVerdict i off v
  | .link => s.linkVerdict i off v
  | .swarm => s.swarmVerdict off v
  | .esl => s.eslVerdict off v
  | .dma => if off = 0x040 ∧ !s.dmaQuiet then .reject DMA.err_BUSY_REJECT .busyReject else .accept v none
  | .dmac => if off = 0x048 ∨ off = 0x04c ∨ off = 0x050 then s.ringVerdict i off v else .accept v none
  | .ch => s.chVerdict i off v
  | .reg => s.regVerdict i off v
  | .bank => if off = 0x040 then ownerVerdict v else .accept v none
  | _ => .accept v none

/-! What an accepted write does besides its fields; `old` is the value the register held, `v` the one stored, `lv` the levels of inputs that
turn on -/

/-- CH pages (R86, R89, R120, R128, R141, R478). -/
def State.chWritten (s : State) (k off : Nat) (old v lv : Dword) : State :=
  if off = 0x040 then s.inputWritten k old v (lv.getLsbD 0) (lv.getLsbD 1)
  else if off = 0x080 then s.poolCtrlWritten k v
  else if s.pageRunning .ch k then s
  else
    let s := s.chApplied k off
    let s := if off = 0x104 ∧ getBits old 0 2 ≠ 0 then s.enterTime k s.now else s
    let s := if off = 0x104 ∧ s.rd (chPage k + 0x104) ≠ old then s.reclampGate k else s
    if (off = 0x108 ∨ (off = 0x104 ∧ getBits old 2 1 ≠ getBits v 2 1)) ∧ s.gateMode k = 0 then s.regrid k else s

/-- What must come before a CH register's new value, while the page does not run: a grid whose length changes is anchored at the write (R141), edges that
have arrived keep the settings under which they did (R398), and open no gate where the write ends chains (R140). -/
def State.chBefore (s : State) (k off : Nat) (v : Dword) : State :=
  if s.pageRunning .ch k then s
  else
    let s := s.keepOld k s.time.tclk [off]
    let ends := off = 0x088 ∨ off = 0x08c ∨ (off = 0x104 ∧ s.gateMode k ≠ getBits v 0 2)
      ∨ (off = 0x100 ∧ (s.fld (chPage k) CH.ACC_CTRL_POL ≠ getBits v 1 2 ∨ (s.bit (chPage k) CH.ACC_CTRL_EN ∧ getBits v 0 1 = 0)))
    let s := if ends then s.bar k else s
    let s := if off = 0x104 ∧ getBits v 0 2 ≠ 0 then s.leaveTime k s.now else s
    let len := off = 0x108 ∨ (off = 0x104 ∧ s.fld (chPage k) CH.GATE_CTRL_SCALE ≠ getBits v 2 1)
    if len ∧ s.gateMode k = 0 then s.anchorAt k s.now else s

/-- TB page (R60, R71, R73). -/
def State.tbAfter (s : State) (off : Nat) (old v : Dword) (keyed trimming : Bool) : State :=
  if off = 0x040 then (if keyed then s.tbWritten old v else s).altrefWritten
  else if off = 0x050 ∧ trimming ∧ !s.trimming then s.post tbPage TB.st_TRIM_DONE
  else s

/-- SYN pages: what a stopped page does at once, and the hop that a running one shows from its request until it completes (R347). -/
def State.synWritten (s : State) (i off : Nat) (old v lv : Dword) : State :=
  let p := synPage i
  if off = 0x05c ∨ off = 0x060 ∨ off = 0x064 then s.loopWritten ((off - 0x05c) / 4) old v lv
  else if s.bit p PG.CTRL_RUN then
    if off = 0x044 then s.modSyn i fun x => { x with held := false }
    else if off = 0x058 then s.setBit p SYN.PROF_CTRL_HOP (s.bit p SYN.PROF_CTRL_HOP || getBits v 8 1 == 1)
    else s
  else if off = 0x040 then (s.setBit p SYN.CTRL_SEARCH false).synCtrl i old
  else if off = 0x058 then s.setBit p SYN.PROF_CTRL_HOP false
  else s

/-- DOM pages (R321, R325, R331, R335). -/
def State.domWritten (s : State) (d off : Nat) (old v : Dword) (running : Bool) : State :=
  let p := domPage d
  if off = 0x068 then s.submit d .pcie
  else if running then (if off = 0x058 then s.setBit p DOM.SET_CTRL_GO (getBits v 31 1 == 1) else s)
  else if off = 0x058 then s.setNow d
  else if off = 0x07c then (s.setBit p DOM.ACTIVE_B (getBits old 0 1 == 1)).activeTo (getBits v 0 1 == 1)
  else s.domSettle d (if off = 0x040 then old else s.rd (p + 0x040)) (off == 0x040 || off == 0x04c || off == 0x080)

/-- Port `p` is off: its link falls silent (R287). -/
def State.linkOff (s : State) (p : Nat) : State :=
  if s.lstate p = lDown then s
  else
    let s := if decide (lUp ≤ s.lstate p) then s.linkGone p lDown else s.setLstate p lDown
    s.modLink p fun l => { l with joinedOnce := false }

/-- LINK.CTRL (R279, R287, R316). -/
def State.linkWritten (s : State) (p : Nat) (v : Dword) : State :=
  let s := s.setBit (linkPage p) LINK.CTRL_RETRAIN false
  let s :=
    if !s.bit (linkPage p) LINK.CTRL_EN || s.linkRole p == 0 then s.linkOff p
    else if s.inCluster then s
    else if s.lstate p = lDown then s.setLstate p lTraining
    else if getBits v 3 1 = 1 ∧ lUp ≤ s.lstate p then s.linkGone p lTraining
    else s
  s.showMember

/-- SWARM page (R277, R288). -/
def State.swarmWritten (s : State) (off : Nat) : State :=
  if off = 0x040 then s.setQueen s.roleOf
  else if off = 0x044 ∧ s.isQueen then s.setFld swarmPage SWARM.STATE_QUEEN_ORD s.ordinal.toNat
  else s

/-- REG pages: GO starts a debug access (R192); while one is in progress a further GO is ignored. -/
def State.regWritten (s : State) (n off : Nat) (old v : Dword) : State :=
  if off = 0x058 then
    let s := s.setFld (regPage n) REG.DBG_CTRL_GO (getBits old 0 1)
    if getBits old 0 1 = 0 ∧ getBits v 0 1 = 1 then s.dbgGo n else s
  else s

/-- MBOX_OUT has been written over `old` (R423). -/
def State.mboxOutWritten (s : State) (old : Dword) : State :=
  { s with svc := { s.svc with outOld := s.noteOld s.svc.outOld old } }.setBit svcPage SVC.live_OUT_FULL true

/-- What an accepted write does besides its fields. -/
def State.written (s : State) (t : PageType) (i off : Nat) (old v lv : Dword) (keyed running trimming : Bool) : State :=
  match t with
  | .tb => s.tbAfter off old v keyed trimming
  | .chip => if off = 0x074 ∧ !s.bit chipPage CHIP.TRIG_IO_OUT_EN then { s with trigOut := none } else s
  | .svc => if off = 0x054 then s.mboxOutWritten old else s
  | .syn => s.synWritten i off old v lv
  | .dom => s.domWritten i off old v running
  | .link => if off = 0x040 then s.linkWritten i v else s
  | .swarm => s.swarmWritten off
  | .esl =>
    if 0x070 ≤ off then s.noteMatcher off old
    else if off = 0x040 ∧ (getBits v 0 1 = 0 ∨ getBits old 1 2 ≠ getBits v 1 2) then s.eslOff else s
  | .dma => if off = 0x040 then s.post dmaPage DMA.st_MODE_CHANGED else s
  | .dmac => if off = 0x048 ∨ off = 0x04c ∨ off = 0x050 then s.setFld (dmacPage i) DMAC.INDEX_CI 0 else s
  | .ch => s.chWritten i off old v lv
  | .reg => s.regWritten i off old v
  | _ => s

/-! A write of a register -/

/-- Notes an error of a write: in PAGE_ERR, or in the RC register that its bit belongs to (CAP_EVENTS). -/
def State.noteWrite (s : State) (base : Nat) (f : Fld) (off : Nat) : State :=
  if f.off = 0x010 then s.raiseWrite base f off .pcie else s.setRc base f 1

/-- Bits of a register that a write can change. -/
def RegRow.writable (r : RegRow) : Dword := r.rw ||| r.rwk ||| r.rwb ||| r.wo

/-- A write that reaches its fields: judged, stored, and followed by what it does besides (R396). -/
def State.fieldWrite (s : State) (t : PageType) (i off : Nat) (row : RegRow) (v lv : Dword) (keyed : Bool) : State :=
  let base := pageBase t i
  match s.verdict t i off v keyed with
  | .reject e o => (s.noteWrite base e off).entry (writeKind row) .pcie (base + off) o v.toNat
  | .accept w err =>
    let s := match err with
      | some e => s.noteWrite base e off
      | none => s
    let s := if t = .ch then s.chBefore i off w else s
    let old := s.rd (base + off)
    let running := s.pageRunning t i
    let trimming := s.trimming
    -- the ACTIVE already in force applies nothing (R335)
    if t = .dom ∧ off = 0x07c ∧ running = false ∧ getBits w 0 1 = getBits old 0 1 then s.entry .shadow .pcie (base + off) .done v.toNat else
    let s := s.storeValue t i off row w v keyed .pcie (w != v) (t == .dma && off == 0x040)
    s.written t i off old w lv keyed running trimming

/-- Registers whose writes are not fields that keep a value. -/
def State.actionWrite (s : State) (t : PageType) (i off : Nat) (v : Dword) : Option State :=
  match t with
  | .chip =>
    if off = 0x050 then some (s.judgeCmd .pcie v (acceptCode .pcie v))
    else if off = 0x088 then some (s.injectWrite v) else none
  | .jrnl => if off = 0x048 then some (s.jrnlSelect v.toNat 0x048) else none
  | .dmac =>
    if off = 0x044 then some (s.ctrlWrite i v .pcie)
    else if off = 0x054 then some (s.doorbell i (getBits v 0 16)) else none
  | .dom => if off = 0x094 then some (if getBits v 0 1 = 1 then s.snap i else s) else none
  | .bank =>
    if off = 0x070 then some (if getBits v 0 1 = 1 then s.fillGo i v .pcie else s.entry .write .pcie (bankPage i + 0x070) .done v.toNat) else none
  | _ => none

/-- A write of a page-specific register. A locked page discards the write with KEYFAIL alone, whatever the run state: the key of R399 is tested
before the conditions of R85 (DESIGN CHOICE, assumption 79). -/
def State.bodyWrite (s : State) (t : PageType) (i off : Nat) (row : RegRow) (v lv : Dword) (keyed : Bool) : State :=
  if row.writable = 0 then s
  else if row.rwk ≠ 0 ∧ !keyed then
    let s := s.keyFail (pageBase t i) off v .pcie
    if row.rw = 0 ∧ row.rwb = 0 then s else s.fieldWrite t i off { row with rwk := 0 } v lv false
  else match s.actionWrite t i off v with
    | some s => s
    | none => s.fieldWrite t i off row v lv keyed

/-- A keyed write of PAGE_CTRL (R392, R393): CH under the conditions of INPUT, SYN at any time, elsewhere ignored. -/
def State.pageCtrlWrite (s : State) (t : PageType) (i : Nat) (row : RegRow) (v lv : Dword) : State :=
  let base := pageBase t i
  let was := s.bit base PG.CTRL_RUN
  match t with
  | .ch =>
    if s.betweenRuns then (s.storeValue .ch i 0x004 row v v true .pcie false false).chRunWritten i was (lv.getLsbD 0)
    else s.rejectWrite .ch i 0x004 row v .pcie CH.err_BUSY_REJECT .busyReject
  | .syn => (s.storeValue .syn i 0x004 row v v true .pcie false false).synPageCtrl i was
  | _ => s.entry .write .pcie (base + 0x004) .done v.toNat

/-- A write of a register of the common header (R391 to R402). -/
def State.headWrite (s : State) (t : PageType) (i off : Nat) (row : RegRow) (v lv : Dword) (keyed : Bool) : State :=
  let base := pageBase t i
  if off = 0x018 then s.setKey base (v == 0x5a3c)
  else if off = 0x028 ∨ off = 0x02c then s.withIrq base (·.wr (base + off) (merge row.rw (s.rd (base + off)) v))
  else if off = 0x004 ∨ off = 0x024 then
    if !keyed then s.keyFail base off v .pcie
    else if off = 0x004 then s.pageCtrlWrite t i row v lv
    else s.freezeWrite t i v
  else s

/-- A host write of the register at offset `off` of a page: it consumes the page's unlock (R399); a reserved offset is a bus error (R413). -/
def State.pageWrite (s : State) (t : PageType) (i off : Nat) (v lv : Dword) : State :=
  let keyed := s.unlocked (pageBase t i)
  let s := s.setKey (pageBase t i) false
  match pageReg t i off with
  | none => s.busError (pageBase t i + off) .write
  | some row => if off < 0x040 then s.headWrite t i off row v lv keyed else s.bodyWrite t i off row v lv keyed

/-! The MSI-X table and the pending bits (R367, Table 12-2) -/

def State.msixUnmask? (s : State) (v : Option (Fin 64)) : State :=
  match v with
  | some v => s.msixUnmask v.val
  | none => s

/-- A dword write in the range of the MSI-X structures. -/
def State.msixWrite (s : State) (addr : Nat) (v : Dword) : State :=
  let off := addr % 0x1000
  let n := off / 16
  let e := s.msixGet n
  if off < 0x400 then
    match off / 4 % 4 with
    | 0 => s.msixSet n ⟨v, e.addrHi, e.data, e.masked, e.pend⟩
    | 1 => s.msixSet n ⟨e.addrLo, v, e.data, e.masked, e.pend⟩
    | 2 => s.msixSet n ⟨e.addrLo, e.addrHi, v, e.masked, e.pend⟩
    | _ => if v.getLsbD 0 then s.msixSet n ⟨e.addrLo, e.addrHi, e.data, true, e.pend⟩ else s.msixUnmask n
  else if off = 0x800 ∨ off = 0x804 then s
  else s.busError addr .write

/-- What a dword read in that range returns; none where the offset is reserved. -/
def State.msixView (s : State) (addr : Nat) : Option Dword :=
  let off := addr % 0x1000
  let e := s.msixGet (off / 16)
  if off < 0x400 then
    some (match off / 4 % 4 with
      | 0 => e.addrLo
      | 1 => e.addrHi
      | 2 => e.data
      | _ => BitVec.ofNat 32 (b2n e.masked))
  else if off = 0x800 ∨ off = 0x804 then
    let first := (off - 0x800) * 8
    some (BitVec.ofNat 32 (((List.range 32).map fun i => b2n (s.msixGet (first + i)).pend * 2 ^ i).foldl (· + ·) 0))
  else none

/-! Any BAR0 address (R412, R413) -/

/-- A host write of one dword. -/
def State.busWrite (s : State) (addr : Nat) (v lv : Dword) : State :=
  match pageOf addr with
  | some (t, i) => s.pageWrite t i (addr % 0x1000) v lv
  | none =>
    if addr % 4 ≠ 0 then s.busError addr .write
    else if 0x400000 ≤ addr ∧ addr < 0x800000 then
      let c := (addr - 0x400000) / 0x1000
      if addr % 8 = 0 then s.imemLo c v else s.imemHi c (addr % 0x1000 / 8) v
    else if 0x800000 ≤ addr ∧ addr < 0x900000 then s.scratchAccess ((addr - 0x800000) / 0x4000) (addr % 0x4000 / 4) (some v)
    else if 0x1000 ≤ addr ∧ addr < 0x2000 then s.msixWrite addr v
    else s.busError addr .write

/-- A read of a page register: its value as the page shows it; RC bits returned as 1 clear, and a read of JRNL.RD_W3 moves the port on. -/
def State.pageRead (s : State) (t : PageType) (i off : Nat) : State :=
  let addr := pageBase t i + off
  match pageReg t i off with
  | none => s.busError addr .read
  | some _ =>
    let s := (s.send (.readData addr [s.view addr])).readClear addr
    let s := match pageOf addr with
      | some (.blk, g) => if addr % 0x1000 = 0x058 ∨ addr % 0x1000 = 0x05c ∨ addr % 0x1000 = 0x060 then s.showPeaks g else s
      | _ => s
    if t = .jrnl ∧ off = 0x058 then s.jrnlSelect (s.fld jrnlPage JRNL.RD_COUNT + 1) 0x058 else s

/-- A host read of one dword. -/
def State.busRead (s : State) (addr : Nat) : State :=
  match pageOf addr with
  | some (t, i) => s.pageRead t i (addr % 0x1000)
  | none =>
    if addr % 4 ≠ 0 then s.busError addr .read
    else if 0x400000 ≤ addr ∧ addr < 0x800000 then s.imemRead ((addr - 0x400000) / 0x1000) (addr % 0x1000 / 8) (addr % 8 == 4)
    else if 0x800000 ≤ addr ∧ addr < 0x900000 then s.scratchAccess ((addr - 0x800000) / 0x4000) (addr % 0x4000 / 4) none
    else if 0x1000 ≤ addr ∧ addr < 0x2000 then
      match s.msixView addr with
      | some v => s.send (.readData addr [v])
      | none => s.busError addr .read
    else s.busError addr .read

/-- A write request that is dropped still consumes the unlock of the page it names (R399). -/
def State.consumeKey (s : State) (addr : Nat) : State :=
  match pageOf addr with
  | some (t, i) => s.setKey (pageBase t i) false
  | none => s

/-- The page that reports an access to an address (R25, R413). -/
def errPage (addr : Nat) : Nat :=
  match pageOf addr with
  | some (t, i) => pageBase t i
  | none =>
    if 0x400000 ≤ addr ∧ addr < 0x800000 then regPage ((addr - 0x400000) / 0x1000 / 128)
    else if 0x800000 ≤ addr ∧ addr < 0x900000 then regPage ((addr - 0x800000) / 0x4000 / 8)
    else chipPage

/-- A malformed request (R362). -/
def State.malformed (s : State) (addr : Nat) (req : BusReq) : State :=
  match req with
  | .read => s.busError addr .read
  | .write => (s.consumeKey addr).busError addr .write

/-- A poisoned write request is dropped and reported (R360): one to BAR0 also consumes the page's unlock and sets its error; a store word stays. -/
def State.poisonedWrite (s : State) (target : PoisonTarget) : State :=
  match target with
  | .bar0 a => ((s.consumeKey a.toNat).send (.aer 1)).raiseAt (errPage a.toNat) PG.err_POISON_TLP (a.toNat % 0x1000) 0
  | .bar2 _ => s.send (.aer 1)

end Sys2Proof.Machine
end

