-- ==== Sys2Proof/Machine/CellCommands.lean ====
section
/-! DEFINITION. Meanings: the instructions of the cells, exchange channels, bank engines, debug accesses and patches. A cell's instruction is
executed by the cell `c` when it is the one that the cell fetches in this slot. -/
namespace Sys2Proof.Machine
open Sys2Proof

def CellOp.isLogic : CellOp → Bool
  | .logic .. => true
  | _ => false

/-- An ARITH operation of code `n` (Table 6-4). -/
def CellOp.isArith (n : Nat) : CellOp → Bool
  | .arith op .. => op == n
  | _ => false

/-- An IMM operation of code `n` (Table 6-5). -/
def CellOp.isImm (n : Nat) : CellOp → Bool
  | .imm iop .. => iop == n
  | _ => false

/-- NOP (R172). The never-executed no-op instruction. -/
def execNop (c : Fin 1024) (s : State) : Host.Outcome State Fault Refusal :=
  .next (s.cellRun c.val (fun o => o == .nop) fun _ _ s => s)

/-- OPEN (R172). A no-op that marks its slot open for host and debug access. -/
def execOpenSlot (c : Fin 1024) (s : State) : Host.Outcome State Fault Refusal :=
  .next (s.cellRun c.val (fun o => o == .openSlot) fun _ _ s => s)

/-- LOGIC (R173). Bitwise three-input function by truth table on registers or predicates. -/
def execLogicOp (c : Fin 1024) (s : State) : Host.Outcome State Fault Refusal :=
  .next (s.cellAlu c.val CellOp.isLogic)

/-- ADD (R174). GD = GA + GB with optional carry. -/
def execAdd (c : Fin 1024) (s : State) : Host.Outcome State Fault Refusal :=
  .next (s.cellAlu c.val (CellOp.isArith 0x00))

/-- SUB (R174). GD = GA − GB with optional borrow. -/
def execSubW (c : Fin 1024) (s : State) : Host.Outcome State Fault Refusal :=
  .next (s.cellAlu c.val (CellOp.isArith 0x01))

/-- MOV (R174). GD = GA. -/
def execMov (c : Fin 1024) (s : State) : Host.Outcome State Fault Refusal :=
  .next (s.cellAlu c.val (CellOp.isArith 0x02))

/-- SHL (R174). Logical shift left of GA by GB[4:0]. -/
def execShl (c : Fin 1024) (s : State) : Host.Outcome State Fault Refusal :=
  .next (s.cellAlu c.val (CellOp.isArith 0x03))

/-- SHR (R174). Logical shift right of GA by GB[4:0]. -/
def execShr (c : Fin 1024) (s : State) : Host.Outcome State Fault Refusal :=
  .next (s.cellAlu c.val (CellOp.isArith 0x04))

/-- SAR (R174). Arithmetic shift right of GA by GB[4:0]. -/
def execSar (c : Fin 1024) (s : State) : Host.Outcome State Fault Refusal :=
  .next (s.cellAlu c.val (CellOp.isArith 0x05))

/-- MULU (R174). Unsigned 18 × 18 multiply into a register pair, latency 2. -/
def execMulu (c : Fin 1024) (s : State) : Host.Outcome State Fault Refusal :=
  .next ((s.cellAlu c.val (CellOp.isArith 0x06)).settle)

/-- MULS (R174). Signed 18 × 18 multiply into a register pair, latency 2. -/
def execMuls (c : Fin 1024) (s : State) : Host.Outcome State Fault Refusal :=
  .next ((s.cellAlu c.val (CellOp.isArith 0x07)).settle)

/-- MACU (R174). Unsigned multiply-accumulate into a register pair with carry out, latency 2. -/
def execMacu (c : Fin 1024) (s : State) : Host.Outcome State Fault Refusal :=
  .next ((s.cellAlu c.val (CellOp.isArith 0x08)).settle)

/-- CMPEQ (R174). Predicate = equality of GA and GB, optionally chained with carry. -/
def execCmpeq (c : Fin 1024) (s : State) : Host.Outcome State Fault Refusal :=
  .next (s.cellAlu c.val (CellOp.isArith 0x09))

/-- CMPLTU (R174). Predicate = unsigned GA < GB, optionally chained. -/
def execCmpltu (c : Fin 1024) (s : State) : Host.Outcome State Fault Refusal :=
  .next (s.cellAlu c.val (CellOp.isArith 0x0a))

/-- CMPLTS (R174). Predicate = signed GA < GB, optionally chained. -/
def execCmplts (c : Fin 1024) (s : State) : Host.Outcome State Fault Refusal :=
  .next (s.cellAlu c.val (CellOp.isArith 0x0b))

/-- CLZ (R174). GD = leading zeros of GA. -/
def execClz (c : Fin 1024) (s : State) : Host.Outcome State Fault Refusal :=
  .next (s.cellAlu c.val (CellOp.isArith 0x0c))

/-- DSTEP (R174). One restoring division step on {GD, GA} by GB. -/
def execDstep (c : Fin 1024) (s : State) : Host.Outcome State Fault Refusal :=
  .next (s.cellAlu c.val (CellOp.isArith 0x0d))

/-- PTST (R174). Predicate = poison tag of GA. -/
def execPtst (c : Fin 1024) (s : State) : Host.Outcome State Fault Refusal :=
  .next (s.cellAlu c.val (CellOp.isArith 0x0e))

/-- PGET (R174). Copies 16 predicates into a register. -/
def execPget (c : Fin 1024) (s : State) : Host.Outcome State Fault Refusal :=
  .next (s.cellAlu c.val (CellOp.isArith 0x0f))

/-- PPUT (R174). Sets 16 predicates from a register. -/
def execPput (c : Fin 1024) (s : State) : Host.Outcome State Fault Refusal :=
  .next (s.cellAlu c.val (CellOp.isArith 0x10))

/-- RDC (R174). GD = carry. -/
def execRdc (c : Fin 1024) (s : State) : Host.Outcome State Fault Refusal :=
  .next (s.cellAlu c.val (CellOp.isArith 0x11))

/-- WRC (R174). Carry = GA[0]. -/
def execWrc (c : Fin 1024) (s : State) : Host.Outcome State Fault Refusal :=
  .next (s.cellAlu c.val (CellOp.isArith 0x12))

/-- LDI (R175). GD = immediate. -/
def execLdi (c : Fin 1024) (s : State) : Host.Outcome State Fault Refusal :=
  .next (s.cellAlu c.val (CellOp.isImm 0))

/-- ADDI (R175). GD = GD + immediate with carry out. -/
def execAddi (c : Fin 1024) (s : State) : Host.Outcome State Fault Refusal :=
  .next (s.cellAlu c.val (CellOp.isImm 1))

/-- ADCI (R175). GD = GD + immediate + carry. -/
def execAdci (c : Fin 1024) (s : State) : Host.Outcome State Fault Refusal :=
  .next (s.cellAlu c.val (CellOp.isImm 2))

/-- ANDI (R175). GD = GD AND immediate. -/
def execAndi (c : Fin 1024) (s : State) : Host.Outcome State Fault Refusal :=
  .next (s.cellAlu c.val (CellOp.isImm 3))

/-- ORI (R175). GD = GD OR immediate. -/
def execOri (c : Fin 1024) (s : State) : Host.Outcome State Fault Refusal :=
  .next (s.cellAlu c.val (CellOp.isImm 4))

/-- XORI (R175). GD = GD XOR immediate. -/
def execXori (c : Fin 1024) (s : State) : Host.Outcome State Fault Refusal :=
  .next (s.cellAlu c.val (CellOp.isImm 5))

/-- TAKE_POP (R176). Pops the oldest entry of a stamp FIFO into four registers and sets the valid predicate. -/
def execTakePop (c : Fin 1024) (s : State) : Host.Outcome State Fault Refusal :=
  .next ((s.cellTake c.val 0).settle)

/-- TAKE_COPY (R176). Copies the oldest FIFO entry without popping it. -/
def execTakeCopy (c : Fin 1024) (s : State) : Host.Outcome State Fault Refusal :=
  .next ((s.cellTake c.val 1).settle)

/-- TAKE_DISCARD (R176). Pops the oldest FIFO entry without writing registers. -/
def execTakeDiscard (c : Fin 1024) (s : State) : Host.Outcome State Fault Refusal :=
  .next ((s.cellTake c.val 2).settle)

/-- PUT (R177). Sends four registers as one record to the region's put queue with sequence and stamp handling. -/
def execPutRec (c : Fin 1024) (s : State) : Host.Outcome State Fault Refusal :=
  .next ((s.cellPut c.val).settle)

/-- TLD (R178). Loads a timer or counter from a register pair; a timer stops. -/
def execTld (c : Fin 1024) (s : State) : Host.Outcome State Fault Refusal :=
  .next ((s.cellTimer c.val 0).settle)

/-- TGO (R178). Starts a timer counting down. -/
def execTgo (c : Fin 1024) (s : State) : Host.Outcome State Fault Refusal :=
  .next ((s.cellTimer c.val 1).settle)

/-- THLT (R178). Stops a timer, holding its value. -/
def execThlt (c : Fin 1024) (s : State) : Host.Outcome State Fault Refusal :=
  .next ((s.cellTimer c.val 2).settle)

/-- TRD (R178). Reads a timer or counter into a register pair. -/
def execTrd (c : Fin 1024) (s : State) : Host.Outcome State Fault Refusal :=
  .next ((s.cellTimer c.val 3).settle)

/-- TADD (R178). Adds an immediate to a counter, saturating. -/
def execTadd (c : Fin 1024) (s : State) : Host.Outcome State Fault Refusal :=
  .next ((s.cellTimer c.val 4).settle)

/-- TSUB (R178). Subtracts an immediate from a counter, saturating at 0. -/
def execTsub (c : Fin 1024) (s : State) : Host.Outcome State Fault Refusal :=
  .next ((s.cellTimer c.val 5).settle)

/-- TZ (R178). Predicate = unit is zero. -/
def execTz (c : Fin 1024) (s : State) : Host.Outcome State Fault Refusal :=
  .next ((s.cellTimer c.val 6).settle)

/-- TGE (R178). Predicate = unit ≥ register pair. -/
def execTge (c : Fin 1024) (s : State) : Host.Outcome State Fault Refusal :=
  .next ((s.cellTimer c.val 7).settle)

/-- TCLR (R178). Clears a unit; a timer stops. -/
def execTclr (c : Fin 1024) (s : State) : Host.Outcome State Fault Refusal :=
  .next ((s.cellTimer c.val 8).settle)

/-- TLDGO (R178). Loads a timer and starts it counting down. -/
def execTldgo (c : Fin 1024) (s : State) : Host.Outcome State Fault Refusal :=
  .next ((s.cellTimer c.val 9).settle)

/-- TIMER_EXPIRE (R178). A started cell timer reaches 0 and stops. -/
def execTimerExpire (c : Fin 1024) (u : Fin 2) (s : State) : Host.Outcome State Fault Refusal :=
  .next (s.timerExpire c.val u.val)

/-- RESULT_LAND (R170). A latency-2 result lands in its registers at the end of slot k + 1. -/
def execResultLand (c : Fin 1024) (s : State) : Host.Outcome State Fault Refusal :=
  .next (s.resultLand c.val)

/-- NRD (R179). Reads a register of a neighbour cell of the block. -/
def execNrd (c : Fin 1024) (s : State) : Host.Outcome State Fault Refusal :=
  .next (s.cellNrd c.val)

/-- RSND (R180). Sends a register to a region exchange channel. -/
def execRsnd (c : Fin 1024) (s : State) : Host.Outcome State Fault Refusal :=
  .next ((s.cellSend c.val false).settle)

/-- RRCV (R180). Reads a region exchange channel. -/
def execRrcv (c : Fin 1024) (s : State) : Host.Outcome State Fault Refusal :=
  .next (s.cellRecv c.val false)

/-- CSND (R180). Sends a register to a chip exchange channel. -/
def execCsnd (c : Fin 1024) (s : State) : Host.Outcome State Fault Refusal :=
  .next ((s.cellSend c.val true).settle)

/-- CRCV (R180). Reads a chip exchange channel. -/
def execCrcv (c : Fin 1024) (s : State) : Host.Outcome State Fault Refusal :=
  .next (s.cellRecv c.val true)

/-- EXCHANGE_DELIVER (R180). A sent value becomes visible to receivers 4 (region) or 16 (chip) TCLK cycles after the send. -/
def execExchangeDeliver (id : Fin 640) (s : State) : Host.Outcome State Fault Refusal :=
  .next (s.deliverX id.val)

/-- SLD (R189). Loads a scratch word through port A or B, latency 2. -/
def execSld (c : Fin 1024) (upset : Bool) (s : State) : Host.Outcome State Fault Refusal :=
  .next ((s.cellSld c.val upset).settle)

/-- SST (R189). Stores a register into scratch through port A or B. -/
def execSst (c : Fin 1024) (s : State) : Host.Outcome State Fault Refusal :=
  .next ((s.cellSst c.val).settle)

/-- XIN (R182). Reads an input word: DTIME, step, probe, event, swarm trigger or TRIG_IN word. -/
def execXin (c : Fin 1024) (s : State) : Host.Outcome State Fault Refusal :=
  .next (s.cellXin c.val)

/-- EVT (R183). Drives a region event line for one TCLK cycle as a decision. -/
def execEvt (c : Fin 1024) (s : State) : Host.Outcome State Fault Refusal :=
  .next ((s.cellEvt c.val).settle)

/-- BXFER (R190). Starts the block's bank engine moving lines between scratch and a bank, or is discarded when busy. -/
def execBxfer (c : Fin 1024) (s : State) : Host.Outcome State Fault Refusal :=
  .next (s.cellBxfer c.val)

/-- BTST (R179). Tests the bank engine for idle and error. -/
def execBtst (c : Fin 1024) (s : State) : Host.Outcome State Fault Refusal :=
  .next (s.cellBtst c.val)

/-- BXFER_LINE (R190). The bank engine moves one line when the store switch grants a lane. -/
def execBxferLine (g : Fin 64) (s : State) : Host.Outcome State Fault Refusal :=
  .next (s.ask (.engine g.val))

/-- INSTRUCTION_PARITY_ERROR (R196). A fetched instruction fails parity and the cell stops at the end of the slot. -/
def execInstructionParityError (c : Fin 1024) (s : State) : Host.Outcome State Fault Refusal :=
  .next (s.cellParity c.val)

/-- ILLEGAL (R195). A cell executes a reserved encoding brought in by a patch, a schedule error of cause ILLEGAL that takes the region to FAULT. -/
def execIllegal (c : Fin 1024) (s : State) : Host.Outcome State Fault Refusal :=
  .next ((s.cellIllegal c.val).settle)

/-- DEBUG_GO (R192). A write of REG.DBG_CTRL.GO starts a debug access to one item of one cell. -/
def execDebugGo (n : Fin 8) (patchEn : Bool) (s : State) : Host.Outcome State Fault Refusal :=
  .next (s.hostAccess fun s => s.pageWrite .reg n.val 0x058 (BitVec.ofNat 32 (1 + 0x100 * b2n patchEn)) 0)

/-- DEBUG_ACCESS (R33). The debug access is carried out in the cell's next open slot, or fails with NO_SLOT. -/
def execDebugAccess (n : Fin 8) (s : State) : Host.Outcome State Fault Refusal :=
  .next (s.dbgAccess n.val)

/-- SCRATCH_WINDOW_ACCESS (R193). A host access through a scratch window is carried out in the first slot with a free port. -/
def execScratchWindowAccess (g : Fin 64) (w : Fin 4096) (wr : Option Dword) (s : State) : Host.Outcome State Fault Refusal :=
  .next (s.hostAccess fun s => s.scratchAccess g.val w.val wr)

/-- IMEM_LO_WRITE (R194). A write to an instruction LO dword is held in the cell's staging register. -/
def execImemLoWrite (c : Fin 1024) (v : Dword) (s : State) : Host.Outcome State Fault Refusal :=
  .next (s.hostAccess fun s => s.imemLo c.val v)

/-- IMEM_HI_COMMIT (R194). A write to an instruction HI dword commits 36 bits at once, as a pending patch, or is refused with IMEM_LOCKED. -/
def execImemHiCommit (c : Fin 1024) (a : Fin 512) (v : Dword) (s : State) : Host.Outcome State Fault Refusal :=
  .next (s.hostAccess fun s => s.imemHi c.val a.val v)

/-- PATCH_COMMIT (R194). A patch commit applies in the cell's next open slot and is journalled. -/
def execPatchCommit (c : Fin 1024) (s : State) : Host.Outcome State Fault Refusal :=
  .next (s.patchCommit c.val)

end Sys2Proof.Machine
end

