-- ==== Sys2Proof/Machine/ChannelCommands.lean ====
section
/-! DEFINITION. Meanings: edges, pools, gaps, gates and nurse duties of the channels. -/
namespace Sys2Proof.Machine
open Sys2Proof

/-- The index polarity counts an edge of this polarity (R132). -/
def State.indexEdge (s : State) (k : Nat) (rising : Bool) : Bool :=
  match s.fld (chPage k) CH.ACC_CTRL_POL with
  | 0 => rising
  | 1 => !rising
  | _ => true

/-- A transition that goes on reaches the divider, or is counted and enters the pool `fine` su into its cycle; an edge that is not stamped counts
in COUNT gates at the start of its cycle (R83, R84, R101, R106, R107, R145). -/
def State.edgeArrival (s : State) (k fine : Nat) : State :=
  let rising := s.nextRises k
  if !s.compOn k || !s.nextSelected k then s
  else
    let s := s.transition k
    if s.prescaled k then
      if (s.chan k).presc = 3 then ((s.modChan k fun c => { c with presc := 0 }).countEdges k 4).countNow k 4
      else s.modChan k fun c => { c with presc := c.presc + 1 }
    else
      let before := s.settlePool k
      let stamped := (before.unstampable k).isNone && (before.chan k).freeConv.isSome
      let s := (s.countEdges k 1).poolEdge k rising fine
      if !stamped && s.indexEdge k rising then s.countNow k 1 else s

/-- A transition that EDGE.SEL does not pass, or a falling one before the divider (R89, R91). -/
def State.otherTransition (s : State) (k : Nat) : State := if !s.compOn k || s.nextSelected k then s else s.transition k

/-- Converter `j` took an edge 12 cycles ago or more (R101). -/
def State.releaseConv (s : State) (k j : Nat) : State :=
  if ((s.chan k).conv j).busy.any fun m => decide (m + 12 ≤ s.time.tclk) then s.settlePool k else s

/-- The open gap has reached its limit (R108). -/
def State.gapLimit (s : State) (k : Nat) : State :=
  match (s.chan k).gap with
  | some g => if g.limit < s.time.tclk then s.settlePool k else s
  | none => s

/-- The recalibration of pool `k` ends (R120). -/
def State.recalDone (s : State) (k failed : Nat) (tables : List (Fin 96 × Fin 17 × CalTable)) : State :=
  if !s.live || s.asleep || (s.chan k).cal != .recal then s else s.calDone k failed tables

/-- The ready check ends on every pool that makes one (R121, R122). -/
def State.readyChecked (s : State) (failed : List (Fin 96 × BitVec 17)) : State :=
  if !s.live || s.asleep then s else s.forEach allChans fun k s => s.checkDone k (maskOf k failed)

/-- EDGE_ARRIVAL (R101). A selected comparator edge arrives; it is counted and given to the lowest free active converter. -/
def execEdgeArrival (k : Fin 96) (fine : BitVec 10) (s : State) : Host.Outcome State Fault Refusal :=
  .next (s.edgeArrival k.val fine.toNat)

/-- COMPARATOR_TRANSITION (R89). A transition of the comparator output that EDGE.SEL does not pass restarts the stuck timer, clears a stuck
condition with a STUCK_CLEAR record, and moves the window state of a pair. -/
def execComparatorTransition (k : Fin 96) (s : State) : Host.Outcome State Fault Refusal :=
  .next (s.otherTransition k.val)

/-- STUCK_EXPIRY (R90). The stuck timer reaches its timeout; STUCK and STUCK_AT are set, gates close and a STUCK record is written. -/
def execStuckExpiry (k : Fin 96) (s : State) : Host.Outcome State Fault Refusal :=
  .next (((s.stuckExpire k.val).settlePage k.val).settle)

/-- INPUT_WRITE (R85). A guarded write of CH.INPUT sets mode, termination, prescaler and pairing, or is discarded for run state or encoding. -/
def execInputWrite (k : Fin 96) (v : Dword) (level : Bool) (level2 : Bool) (s : State) : Host.Outcome State Fault Refusal :=
  .next (s.hostAccess fun s => s.pageWrite .ch k.val 0x040 v (BitVec.ofNat 32 (b2n level + 2 * b2n level2)))

/-- CONVERTER_RELEASE (R101). At the start of cycle m + 12 the converter that took an edge in cycle m becomes free. -/
def execConverterRelease (k : Fin 96) (j : Fin 17) (s : State) : Host.Outcome State Fault Refusal :=
  .next (s.releaseConv k.val j.val)

/-- GAP_LIMIT (R108). An open gap closes 262,143 ns after its start, with the split bit set. -/
def execGapLimit (k : Fin 96) (s : State) : Host.Outcome State Fault Refusal :=
  .next (s.gapLimit k.val)

/-- POOL_EMIT (R104). Sixteen cycles after arrival the pool emits the stamps and gap markers of a cycle to the accumulator, qualifier, FIFOs and
capture writer. -/
def execPoolEmit (k : Fin 96) (s : State) : Host.Outcome State Fault Refusal :=
  .next ((s.poolEmit k.val).settle)

/-- FIFO_OVF_CLOSE (R186). At a cycle start with 56 or fewer entries the FIFO_OVF gap closes, a gap pair enters the FIFO and an error record is written. -/
def execFifoOvfClose (g : Fin 64) (i : Fin 12) (s : State) : Host.Outcome State Fault Refusal :=
  .next (s.ovfClose g.val i.val)

/-- COUNT_GATE_RESULT (R145). 177 ns after a grid point, the COUNT result of the gate ending there is written. -/
def execCountGateResult (k : Fin 96) (s : State) : Host.Outcome State Fault Refusal :=
  .next (s.countResult k.val)

/-- STUCK_GRID_RESULT (R143). At each grid point while STUCK reads 1 in TIME mode, a count-0 STUCK NODATA result is written. -/
def execStuckGridResult (k : Fin 96) (s : State) : Host.Outcome State Fault Refusal :=
  .next (s.stuckGrid k.val)

/-- GRACE_EXPIRY (R144). The stop grace expires and open gates and waiting interval units end with TRUNCATED. -/
def execGraceExpiry (k : Fin 96) (s : State) : Host.Outcome State Fault Refusal :=
  .next (s.graceExpire k.val)

/-- NURSE_DUTY_END (R114). After 131,072 TCLK cycles a nurse duty ends and its table is accepted or rejected. -/
def execNurseDutyEnd (k : Fin 96) (d : Duty) (s : State) : Host.Outcome State Fault Refusal :=
  .next (s.dutyEnd k.val d)

/-- NURSE_SWAP (R115). At the first cycle start in which the outgoing converter is free, the nurse becomes active and the outgoing converter becomes
nurse. -/
def execNurseSwap (k : Fin 96) (s : State) : Host.Outcome State Fault Refusal :=
  .next (s.swap k.val)

/-- NURSE_REASSIGN (R124). After a retirement with DEGRADE 0, the next active converter becomes nurse when it is free and A falls by one. -/
def execNurseReassign (k : Fin 96) (s : State) : Host.Outcome State Fault Refusal :=
  .next (s.reassign k.val)

/-- INITIAL_CAL_DONE (R119). The 40 ms initial calibration ends; pools take their roles and READY is set. -/
def execInitialCalDone (failed : List (Fin 96 × BitVec 17)) (tables : List (Fin 96 × Fin 17 × CalTable)) (s : State) : Host.Outcome State Fault Refusal :=
  .next (s.initialCalDone failed tables)

/-- POOL_RECAL (R120). A guarded write of POOL_CTRL.RECAL starts recalibration of one pool, or is discarded with RECAL_REJECT. -/
def execPoolRecal (k : Fin 96) (v : Dword) (s : State) : Host.Outcome State Fault Refusal :=
  .next (s.hostAccess fun s => s.pageWrite .ch k.val 0x080 (v ||| 4) 0)

/-- RECAL_DONE (R120). The 40 ms recalibration ends and the pool takes its roles afresh. -/
def execRecalDone (k : Fin 96) (failed : BitVec 17) (tables : List (Fin 96 × Fin 17 × CalTable)) (s : State) : Host.Outcome State Fault Refusal :=
  .next (s.recalDone k.val failed.toNat tables)

/-- READY_CHECK_DONE (R121). The ready check after relock or wake ends and the pool stamps again. -/
def execReadyCheckDone (failed : List (Fin 96 × BitVec 17)) (s : State) : Host.Outcome State Fault Refusal :=
  .next (s.readyChecked failed)

/-- CH_PAGE_CTRL_WRITE (R393). A write of CH.PAGE_CTRL enables or disables the channel under INPUT's conditions. -/
def execChPageCtrlWrite (k : Fin 96) (run : Bool) (level : Bool) (s : State) : Host.Outcome State Fault Refusal :=
  .next (s.hostAccess fun s => s.pageWrite .ch k.val 0x004 (BitVec.ofNat 32 (b2n run)) (BitVec.ofNat 32 (b2n level)))

end Sys2Proof.Machine
end

