-- ==== Sys2Proof/Machine/DmaCommands.lean ====
section
/-! DEFINITION. Meanings: the DMA channels. -/
namespace Sys2Proof.Machine
open Sys2Proof

/-- DMA_MODE_WRITE (R370). A write of DMA.MODE applies when every channel is IDLE or HALTED, or is discarded. -/
def execDmaModeWrite (v : Dword) (s : State) : Host.Outcome State Fault Refusal :=
  .next (s.hostAccess fun s => s.pageWrite .dma 0 0x040 v 0)

/-- RING_WRITE (R371). A write of RING_LO, RING_HI or RING_SIZE sets the ring and resets CI to 0. -/
def execRingWrite (c : Fin 8) (r : Fin 3) (v : Dword) (s : State) : Host.Outcome State Fault Refusal :=
  .next (s.hostAccess fun s => s.pageWrite .dmac c.val (0x048 + 4 * r.val) v 0)

/-- DOORBELL (R375). A doorbell write records PI and starts fetching from CI, or is held. -/
def execDoorbell (c : Fin 8) (pi : BitVec 16) (s : State) : Host.Outcome State Fault Refusal :=
  .next (s.hostAccess fun s => s.pageWrite .dmac c.val 0x054 (pi.setWidth 32) 0)

/-- DESCRIPTOR_FETCH (R376). A fetched descriptor is checked and started, re-read once, or the channel becomes IDLE. -/
def execDescriptorFetch (c : Fin 8) (r : FetchResult) (s : State) : Host.Outcome State Fault Refusal :=
  .next (s.hostAccess fun s => s.ask (.fetch c.val r))

/-- DMA_DATA_MOVE (R378). A channel moves one unit of data between store and host. -/
def execDmaDataMove (c : Fin 8) (i : BitVec 6) (k : Completion) (bytes : List (BitVec 8)) (s : State) : Host.Outcome State Fault Refusal :=
  .next (s.hostAccess fun s => s.dmaData c.val i.toNat k bytes)

/-- DESCRIPTOR_COMPLETE (R381). The completion read-back returns and the descriptor is written back and CI advances. -/
def execDescriptorComplete (c : Fin 8) (k : Completion) (s : State) : Host.Outcome State Fault Refusal :=
  .next (s.hostAccess fun s => s.dmaComplete c.val k)

/-- DMA_ENABLE (R377). Setting DMAC.CTRL.EN lets a held doorbell take effect. -/
def execDmaEnable (c : Fin 8) (v : Dword) (s : State) : Host.Outcome State Fault Refusal :=
  .next (s.hostAccess fun s => s.pageWrite .dmac c.val 0x044 (v ||| 1) 0)

/-- DMA_PAUSE (R383). A write of 1 to CTRL.PAUSE moves the channel to PAUSING. -/
def execDmaPause (c : Fin 8) (v : Dword) (s : State) : Host.Outcome State Fault Refusal :=
  .next (s.hostAccess fun s => s.pageWrite .dmac c.val 0x044 (v ||| 2) 0)

/-- DMA_PAUSED (R383). Issued reads drain and the channel becomes PAUSED. -/
def execDmaPaused (c : Fin 8) (s : State) : Host.Outcome State Fault Refusal :=
  .next (s.hostAccess fun s => s.pausedCh c.val)

/-- DMA_RESUME (R383). A write of 0 to CTRL.PAUSE resumes the channel from its position. -/
def execDmaResume (c : Fin 8) (v : Dword) (s : State) : Host.Outcome State Fault Refusal :=
  .next (s.hostAccess fun s => s.pageWrite .dmac c.val 0x044 (v &&& ~~~2) 0)

/-- DMA_ABORT (R384). A write of 1 to CTRL.ABORT races with completion and aborts the descriptor or lets it complete. -/
def execDmaAbort (c : Fin 8) (v : Dword) (s : State) : Host.Outcome State Fault Refusal :=
  .next (s.hostAccess fun s => s.pageWrite .dmac c.val 0x044 (v ||| 4) 0)

/-- DMA_CLEAR (R382). A write of 1 to CTRL.CLEAR returns a HALTED channel to IDLE. -/
def execDmaClear (c : Fin 8) (v : Dword) (s : State) : Host.Outcome State Fault Refusal :=
  .next (s.hostAccess fun s => s.pageWrite .dmac c.val 0x044 (v ||| 8) 0)

/-- DMA_STALL (R385). The stall timer reaches STALL_TO and the channel halts with STALLED. -/
def execDmaStall (c : Fin 8) (s : State) : Host.Outcome State Fault Refusal :=
  .next (s.hostAccess fun s => s.stallCh c.val)

/-- COMPLETION_TIMEOUT (R385). A completion times out and the descriptor ends with PCIE_ERR. -/
def execCompletionTimeout (c : Fin 8) (fetch : Bool) (s : State) : Host.Outcome State Fault Refusal :=
  .next (s.hostAccess fun s => s.cplTimeout c.val fetch)

/-- PCIE_LINK_DOWN (R388). The PCI Express link goes down and active channels halt in place. -/
def execPcieLinkDown (s : State) : Host.Outcome State Fault Refusal :=
  .next (s.pcieDown)

end Sys2Proof.Machine
end

