-- ==== Sys2Proof/Machine/DomainCommands.lean ====
section
/-! DEFINITION. Meanings: the time domains. -/
namespace Sys2Proof.Machine
open Sys2Proof

/-- MAP_TICK (R323). At each 1 ms map tick, sets, buffered DOM writes, servo, active switch and domain-map records are done in order. -/
def execMapTick (s : State) : Host.Outcome State Fault Refusal :=
  .next (s.mapTick)

/-- SET_REQUEST (R331). A write of DOM.SET_CTRL.GO requests a set of the domain at the next tick. -/
def execSetRequest (d : Fin 2) (frac : BitVec 16) (s : State) : Host.Outcome State Fault Refusal :=
  .next (s.hostAccess fun s => s.pageWrite .dom d.val 0x058 (BitVec.ofNat 32 (frac.toNat + 2 ^ 31)) 0)

/-- PPS_EDGE (R327). A PPS edge is stamped and forms a pending sample, advancing EXPECT. -/
def execPpsEdge (i : Fin 2) (rising : Bool) (fine : BitVec 10) (s : State) : Host.Outcome State Fault Refusal :=
  .next (s.ppsEdge i.val rising fine.toNat)

/-- OFS_SUBMIT (R325). A write of DOM.OFS_AT_HI submits a host offset sample, or discards it. -/
def execOfsSubmit (d : Fin 2) (v : Dword) (s : State) : Host.Outcome State Fault Refusal :=
  .next (s.hostAccess fun s => s.pageWrite .dom d.val 0x068 v 0)

/-- DOMAIN_SNAP (R339). A write of DOM.SNAP.GO captures the domain and DTIME in the same TCLK cycle. -/
def execDomainSnap (d : Fin 2) (s : State) : Host.Outcome State Fault Refusal :=
  .next (s.hostAccess fun s => s.pageWrite .dom d.val 0x094 1 0)

/-- DOMAIN_STALE (R330). No sample is used for the stale time and the domain holds its learned frequency. -/
def execDomainStale (d : Fin 2) (s : State) : Host.Outcome State Fault Refusal :=
  .next (s.domStale d.val)

end Sys2Proof.Machine
end

