-- ==== Sys2Proof/Machine/HostCommands.lean ====
section
/-! DEFINITION. Meanings: accesses of the host to BAR0 and BAR2, keys, shadows, freezes, the journal port and error injection. -/
namespace Sys2Proof.Machine
open Sys2Proof

/-- The boundary of the page that holds an address, for the pages whose boundary is no step of its own (Table 13-3): an edge of the divided output,
an idle block of a link. Gates, major cycles, map ticks, waggles, descriptors and drains apply their own pages' shadows. -/
def State.boundaryApply (s : State) (addr : Nat) (inBand : Bool) : State :=
  if !s.live then s
  else match pageOf addr with
    | some (.syn, i) => s.synBoundary i inBand
    | some (.link, p) => if s.pageRunning .link p then s.applyPage (linkPage p) else s
    | _ => s

/-- CONFIG_READY (R361). The configuration space becomes ready and retry status ends. -/
def execConfigReady (link : PciLink) (early later : List CfgRequest) (s : State) : Host.Outcome State Fault Refusal :=
  .next (s.configIsReady link early later)

/-- BAR0_BUS_ERROR (R362). A malformed or reserved BAR0 request completes with Completer Abort or is dropped, and BUS_ERR is set. -/
def execBar0BusError (addr : BitVec 24) (req : BusReq) (s : State) : Host.Outcome State Fault Refusal :=
  .next (s.hostAccess fun s => s.malformed addr.toNat req)

/-- POISONED_WRITE (R360). A poisoned write request is dropped, reported through AER and consumes an unlock. -/
def execPoisonedWrite (target : PoisonTarget) (s : State) : Host.Outcome State Fault Refusal :=
  .next (s.hostAccess fun s => s.poisonedWrite target)

/-- BAR2_READ (R364). A BAR2 read returns store words, with poison in bit 31, as the host window master. -/
def execBar2Read (w : BitVec 25) (n : Fin 1025) (s : State) : Host.Outcome State Fault Refusal :=
  .next (s.hostAccess fun s => s.ask (.hostRead (4 * w.toNat) w.toNat n.val []))

/-- BAR2_WRITE (R365). A BAR2 write is a read-modify-write of each half, refused on uncorrectable halves. -/
def execBar2Write (w : BitVec 25) (ds : List (BitVec 4 × Dword)) (s : State) : Host.Outcome State Fault Refusal :=
  .next (s.hostAccess fun s => s.ask (.hostWrite w.toNat ds))

/-- MSIX_UNMASK (R367). Unmasking a vector with its pending bit set sends the message: the vector's own mask, or MSI-X Enable and Function Mask. -/
def execMsixUnmask (v : Option (Fin 64)) (enable : Bool) (funcMask : Bool) (s : State) : Host.Outcome State Fault Refusal :=
  .next (s.hostAccess fun s => (s.msixControl enable funcMask).msixUnmask? v)

/-- KEY_UNLOCK (R399). A write of 0x0000_5A3C to PAGE_KEY unlocks the page for the next write. -/
def execKeyUnlock (addr : BitVec 24) (s : State) : Host.Outcome State Fault Refusal :=
  .next (s.hostAccess fun s => s.busWrite (addr.toNat / 0x1000 * 0x1000 + 0x018) 0x5a3c 0)

/-- RC_READ (R394). A read of an RC register returns and clears its set bits, and a PAGE_ERR read clears ERRINFO. -/
def execRcRead (addr : BitVec 24) (s : State) : Host.Outcome State Fault Refusal :=
  .next (s.hostAccess fun s => s.busRead addr.toNat)

/-- SHADOW_WRITE (R396). A write to a register with RWB fields stores them in the shadow after the page's checks. -/
def execShadowWrite (addr : BitVec 24) (v : Dword) (levels : Dword) (s : State) : Host.Outcome State Fault Refusal :=
  .next ((s.hostAccess fun s => s.busWrite addr.toNat v levels).settleRuns.settle)

/-- SHADOW_APPLY (R397). At the page's boundary, or when it stops running, every pending shadow applies together and is journalled. -/
def execShadowApply (addr : BitVec 24) (inBand : Bool) (s : State) : Host.Outcome State Fault Refusal :=
  .next (s.boundaryApply addr.toNat inBand)

/-- FREEZE_RELEASE (R402). A guarded write of PAGE_FREEZE.RELEASE releases every master frozen on the page. -/
def execFreezeRelease (addr : BitVec 24) (s : State) : Host.Outcome State Fault Refusal :=
  .next (s.hostAccess fun s => s.busWrite (addr.toNat / 0x1000 * 0x1000 + 0x024) 1 0)

/-- REGISTER_WRITE (R17). A write to a register with no behaviour of its own takes effect under its access codes. -/
def execRegisterWrite (addr : BitVec 24) (v : Dword) (levels : Dword) (s : State) : Host.Outcome State Fault Refusal :=
  .next ((s.hostAccess fun s => s.busWrite addr.toNat v levels).settleRuns.settle)

/-- JOURNAL_SELECT (R408). A write of JRNL.RD_COUNT latches the selected journal record. -/
def execJournalSelect (n : Dword) (s : State) : Host.Outcome State Fault Refusal :=
  .next (s.hostAccess fun s => s.pageWrite .jrnl 0 0x048 n 0)

/-- JOURNAL_READ_ADVANCE (R408). A read of JRNL.RD_W3 advances RD_COUNT and latches the next record. -/
def execJournalReadAdvance (s : State) : Host.Outcome State Fault Refusal :=
  .next (s.hostAccess fun s => s.pageRead .jrnl 0 0x058)

/-- INJECT_ARM (R420). A guarded write of CHIP.INJECT with GO arms an error injection, or is discarded. -/
def execInjectArm (v : Dword) (s : State) : Host.Outcome State Fault Refusal :=
  .next (s.hostAccess fun s => s.pageWrite .chip 0 0x088 (v ||| 0x80000000) 0)

/-- INJECT_CANCEL (R438). A guarded write of GO = 0 cancels an armed injection. -/
def execInjectCancel (v : Dword) (s : State) : Host.Outcome State Fault Refusal :=
  .next (s.hostAccess fun s => s.pageWrite .chip 0 0x088 (v &&& 0x7fffffff) 0)

/-- IMG_WRITE (R418). A write to IMG_ADDR or IMG_LEN is accepted while not loading, or discarded. -/
def execImgWrite (r : Fin 3) (v : Dword) (s : State) : Host.Outcome State Fault Refusal :=
  .next (s.hostAccess fun s => s.pageWrite .chip 0 (0x05c + 4 * r.val) v 0)

/-- MBOX_OUT_WRITE (R423). A host write of SVC.MBOX_OUT sets OUT_FULL. -/
def execMboxOutWrite (v : Dword) (s : State) : Host.Outcome State Fault Refusal :=
  .next (s.hostAccess fun s => s.pageWrite .svc 0 0x054 v 0)

end Sys2Proof.Machine
end

