-- ==== Sys2Proof/Machine/PowerCommands.lean ====
section
/-! DEFINITION. Meanings: resets and start-up, the cluster state, temperature, the service port and the test access port. -/
namespace Sys2Proof.Machine
open Sys2Proof

/-- TEMP_UPDATE (R453). Every 1 ms CHIP.TEMP updates and warning and limit are compared. -/
def execTempUpdate (v : BitVec 11) (s : State) : Host.Outcome State Fault Refusal :=
  .next ((s.tempUpdate v).settle)

/-- CHIP_UE (R433). An uncorrectable error in a chip-level structure raises the chip-level fault. -/
def execChipUe (code : BitVec 4) (loc : BitVec 30) (s : State) : Host.Outcome State Fault Refusal :=
  .next ((s.structureFails code loc).settle)

/-- MONITOR_RELEASE (R441). After every rail has been good for 2 ms the power-on monitor releases reset. -/
def execMonitorRelease (s : State) : Host.Outcome State Fault Refusal :=
  .next (s.monitorRelease)

/-- RAIL_FAIL (R441). A rail fails for 1 µs or longer and the monitor asserts reset. -/
def execRailFail (rail : Rail) (good : Bool) (s : State) : Host.Outcome State Fault Refusal :=
  .next (s.railFail rail good)

/-- RESET_N_ASSERT (R442). RESET_N asserts reset at once. -/
def execResetNAssert (s : State) : Host.Outcome State Fault Refusal :=
  .next (s.resetNAssert)

/-- RESET_RELEASE (R445). Reset is released and start-up reads fuses and locks the main synthesizer. -/
def execResetRelease (pin : ResetPin) (strap : Bool) (bad : List (BitVec 8)) (levels : BitVec 96) (ohms : Option Nat) (s : State) : Host.Outcome State Fault Refusal :=
  .next (s.resetRelease pin strap bad levels ohms)

/-- SELF_TEST_DONE (R445). The store self-test ends and every line holds pads. -/
def execSelfTestDone (bad : List (Fin 256 × BitVec 14 × Bool)) (s : State) : Host.Outcome State Fault Refusal :=
  .next (s.selfTestDone bad)

/-- PERST_N (R443). PERST_N resets the endpoint and DMA while the run goes on. -/
def execPerstN (s : State) : Host.Outcome State Fault Refusal :=
  .next (s.perstN)

/-- HOT_RESET (R443). A PCI Express hot reset acts as PERST_N. -/
def execHotReset (s : State) : Host.Outcome State Fault Refusal :=
  .next (s.hotReset)

/-- CLUSTER_ENTRY_DONE (R450). Cluster-state entry completes within 10 µs. -/
def execClusterEntryDone (s : State) : Host.Outcome State Fault Refusal :=
  .next (s.clusterEntered)

/-- WAKE_COMPLETE (R451). The wake completes 200 µs after the later of acceptance and entry; CLUSTER clears. -/
def execWakeComplete (levels : BitVec 96) (s : State) : Host.Outcome State Fault Refusal :=
  .next (s.wakeComplete levels)

/-- SVC_NOP (R456). Service port NOP. -/
def execSvcNop (s : State) : Host.Outcome State Fault Refusal :=
  .next (s.powered (·.svcNop))

/-- SVC_READ_ID (R456). Service port READ_ID returns an identity word. -/
def execSvcReadId (index : BitVec 2) (s : State) : Host.Outcome State Fault Refusal :=
  .next (s.powered (·.svcReadId index))

/-- SVC_READ_HEALTH (R456). Service port READ_HEALTH returns SVC.HEALTH. -/
def execSvcReadHealth (s : State) : Host.Outcome State Fault Refusal :=
  .next (s.powered (·.svcReadHealth))

/-- SVC_READ_MBOX (R456). Service port READ_MBOX returns MBOX_OUT and clears OUT_FULL. -/
def execSvcReadMbox (s : State) : Host.Outcome State Fault Refusal :=
  .next (s.powered (·.svcReadMbox))

/-- SVC_MBOX_LO (R456). Service port MBOX_LO holds the low half of a mailbox value. -/
def execSvcMboxLo (v : BitVec 16) (s : State) : Host.Outcome State Fault Refusal :=
  .next (s.powered (·.svcMboxLo v))

/-- SVC_MBOX_HI (R456). Service port MBOX_HI writes MBOX_IN. -/
def execSvcMboxHi (v : BitVec 16) (s : State) : Host.Outcome State Fault Refusal :=
  .next (s.powered (·.svcMboxHi v))

/-- SVC_CMD (R456). Service port CMD submits CLUSTER or WAKE to be judged under R404. -/
def execSvcCmd (id : BitVec 8) (wake : Bool) (s : State) : Host.Outcome State Fault Refusal :=
  .next (s.powered (·.svcCmd id wake))

/-- SVC_READ_CMD (R456). Service port READ_CMD returns CHIP.CMD_STATUS. -/
def execSvcReadCmd (s : State) : Host.Outcome State Fault Refusal :=
  .next (s.powered (·.svcReadCmd))

/-- SVC_HOLD (R457). Service port HOLD holds the part in reset when HOLD_EN is 1. -/
def execSvcHold (s : State) : Host.Outcome State Fault Refusal :=
  .next (s.powered (·.svcHold))

/-- SVC_RELEASE (R457). Service port RELEASE ends a hold and start-up proceeds. -/
def execSvcRelease (s : State) : Host.Outcome State Fault Refusal :=
  .next (s.powered (·.svcRelease))

/-- SVC_RESERVED_OP (R456). A request with a reserved operation or field has no effect and counts in BAD_OPS. -/
def execSvcReservedOp (s : State) : Host.Outcome State Fault Refusal :=
  .next (s.powered (·.svcReserved))

/-- SVC_FRAME_DISCARD (R455). A frame with fewer than 32 clocks is discarded. -/
def execSvcFrameDiscard (s : State) : Host.Outcome State Fault Refusal :=
  .next (s.powered (·.svcDiscard))

/-- TEST_EN_HIGH (R467). TEST_EN high holds the part in reset as RESET_N. -/
def execTestEnHigh (s : State) : Host.Outcome State Fault Refusal :=
  .next (s.testEnHigh)

/-- TAP_RESET (R474). TRST_N or five TMS-high clocks reset the test access port and select IDCODE. -/
def execTapReset (s : State) : Host.Outcome State Fault Refusal :=
  .next (s.powered (·.tapReset))

/-- EXTEST (R475). JTAG EXTEST drives and observes boundary cells with the part held in reset. -/
def execExtest (pins : BitVec 158) (next : BitVec 158) (s : State) : Host.Outcome State Fault Refusal :=
  .next (s.powered (·.tapScan 0x00 pins next))

/-- IDCODE (R474). JTAG IDCODE selects the identification register. -/
def execIdcode (s : State) : Host.Outcome State Fault Refusal :=
  .next (s.powered (·.tapIdcode))

/-- SAMPLE_PRELOAD (R474). JTAG SAMPLE/PRELOAD samples boundary cells without disturbing operation. -/
def execSamplePreload (pins : BitVec 158) (next : BitVec 158) (s : State) : Host.Outcome State Fault Refusal :=
  .next (s.powered (·.tapScan 0x02 pins next))

/-- CLAMP (R475). JTAG CLAMP holds outputs with the part in reset. -/
def execClamp (s : State) : Host.Outcome State Fault Refusal :=
  .next (s.powered (·.tapBypass 0x04))

/-- HIGHZ (R475). JTAG HIGHZ puts outputs high impedance with the part in reset. -/
def execHighz (s : State) : Host.Outcome State Fault Refusal :=
  .next (s.powered (·.tapBypass 0x05))

/-- EXTEST_PULSE (R475). JTAG IEEE 1149.6 EXTEST_PULSE with the part in reset. -/
def execExtestPulse (pins : BitVec 158) (next : BitVec 158) (s : State) : Host.Outcome State Fault Refusal :=
  .next (s.powered (·.tapScan 0x06 pins next))

/-- EXTEST_TRAIN (R475). JTAG IEEE 1149.6 EXTEST_TRAIN with the part in reset. -/
def execExtestTrain (pins : BitVec 158) (next : BitVec 158) (s : State) : Host.Outcome State Fault Refusal :=
  .next (s.powered (·.tapScan 0x07 pins next))

/-- BYPASS (R474). JTAG BYPASS, and every unlisted code, selects the bypass register. -/
def execBypass (s : State) : Host.Outcome State Fault Refusal :=
  .next (s.powered (·.tapBypass 0xff))

end Sys2Proof.Machine
end

