-- ==== Sys2Proof/Machine/RunCommands.lean ====
section
/-! DEFINITION. Meanings: run-state commands, the image, slot 0, major cycles, halts and store faults. -/
namespace Sys2Proof.Machine
open Sys2Proof

/-- A host write of CHIP.CMD with command `code` and identifier `id` (R404): it consumes the page's unlock, and `accept` is what the command
does where it is accepted. -/
def State.command (s : State) (code : Nat) (id : BitVec 8) (accept : State → State) : State :=
  s.hostAccess fun s => (s.setKey chipPage false).judgeCmd .pcie (cmdWord code id) accept

/-- The control state of bank `bank` of region `n`, or of the region's switch, fails with a code of Table 8-12 (R274). For the switch the spec
states no CELL, SLOT or unit: free values. -/
def State.storeFault (s : State) (n code bank : Nat) : State :=
  if !s.live then s
  else if code < 0xb then s.regionFault n code (32 * n + bank) 0 (0x1b, 32 * n + bank, code)
  else
    let f := s.free.toNat
    s.drawn.regionFault n code (f % 2 ^ 10) (f / 2 ^ 10 % 2 ^ 9) (0x1b, f / 2 ^ 19 % 2 ^ 10, code)

/-- CMD_LOAD (R197). A LOAD command starts reading the image from host memory at CHIP.IMG_ADDR for CHIP.IMG_LEN bytes, and sets LOADING. -/
def execCmdLoad (id : BitVec 8) (s : State) : Host.Outcome State Fault Refusal :=
  .next (s.command cLoad id (·.acceptLoad .pcie (cmdWord cLoad id)))

/-- LOAD_COMPLETE (R198). The two-pass image load ends; the run state becomes LOADED on success or IDLE with a cause in LOAD_STATUS. -/
def execLoadComplete (image : List (BitVec 64)) (brk : Option LoadBreak) (insts : List Meas) (lines : List (Nat × LineUse)) (s : State) : Host.Outcome State Fault Refusal :=
  .next (s.loadComplete image brk insts lines)

/-- CMD_ARM (R43). ARM checks budgets, readiness, acquisition and ring ownership, then primes cells and channels and moves to ARMED, or refuses. -/
def execCmdArm (id : BitVec 8) (s : State) : Host.Outcome State Fault Refusal :=
  .next ((s.command cArm id (·.acceptArm .pcie (cmdWord cArm id))))

/-- CMD_START (R42). START moves an ARMED part to RUNNING; a queen sets the start time S and sends START to the swarm. -/
def execCmdStart (id : BitVec 8) (s : State) : Host.Outcome State Fault Refusal :=
  .next (s.command cStart id (·.acceptStart .pcie (cmdWord cStart id)))

/-- RUN_SLOT0 (R30). In the TCLK cycle whose DTIME is S, every region executes slot 0 and the run begins; START's DTIME is journalled. -/
def execRunSlot0 (s : State) : Host.Outcome State Fault Refusal :=
  .next (s.slot0)

/-- CMD_STOP (R144). STOP moves the run to STOPPING, starts each channel's stop grace and ends capture segments; in ARMED or FAULT it acts per Table
1-10. -/
def execCmdStop (id : BitVec 8) (s : State) : Host.Outcome State Fault Refusal :=
  .next (s.command cStop id (·.acceptStop .pcie (cmdWord cStop id)))

/-- CMD_ABORT (R43). ABORT halts every region at the end of the slot, discards records not yet in a bank and writes a loss record per region. -/
def execCmdAbort (id : BitVec 8) (s : State) : Host.Outcome State Fault Refusal :=
  .next (s.command cAbort id (·.acceptAbort .pcie (cmdWord cAbort id)))

/-- CMD_RESET_RUN (R43). RESET_RUN returns to LOADED or IDLE, re-checks instruction memory parity and clears region faults, if no fault cause remains. -/
def execCmdResetRun (id : BitVec 8) (s : State) : Host.Outcome State Fault Refusal :=
  .next (s.command cReset id (·.acceptReset .pcie (cmdWord cReset id)))

/-- CMD_CLUSTER (R450). CLUSTER starts entry to the cluster state: DORMANT is sent, outputs, pools, cells and links are turned off. -/
def execCmdCluster (id : BitVec 8) (s : State) : Host.Outcome State Fault Refusal :=
  .next (s.command cCluster id (·.acceptCluster .pcie (cmdWord cCluster id)))

/-- CMD_WAKE (R451). WAKE starts the fixed 200 µs wake from the cluster state. -/
def execCmdWake (id : BitVec 8) (s : State) : Host.Outcome State Fault Refusal :=
  .next (s.command cWake id (·.acceptWake .pcie (cmdWord cWake id)))

/-- CMD_INVALID (R404). A CHIP.CMD write with an unknown code or nonzero reserved bit is discarded with outcome ENCODING. -/
def execCmdInvalid (v : Dword) (s : State) : Host.Outcome State Fault Refusal :=
  .next (s.hostAccess fun s => s.pageWrite .chip 0 0x050 v 0)

/-- REGION_HALT (R171). A draining region halts at the end of the major cycle after its gates, FIFOs, put queue and writers are empty. -/
def execRegionHalt (n : Fin 8) (s : State) : Host.Outcome State Fault Refusal :=
  .next (s.regionHalt n.val)

/-- MAJOR_CYCLE_END (R169). A region completes its L slots; event words, sequencer states and buffered REG and BLK writes take effect. -/
def execMajorCycleEnd (n : Fin 8) (s : State) : Host.Outcome State Fault Refusal :=
  .next ((s.majorCycleEnd n.val).settle)

/-- STORE_FAULT (R274). An uncorrectable error in bank or switch control state takes the region to FAULT. -/
def execStoreFault (n : Fin 8) (code : Fin 4) (bank : Fin 32) (s : State) : Host.Outcome State Fault Refusal :=
  .next ((s.storeFault n.val (8 + code.val) bank.val).settle)

end Sys2Proof.Machine
end

