-- ==== Sys2Proof/Machine/StoreCommands.lean ====
section
/-! DEFINITION. Meanings: writers, bank owners, fills, the scrubber, demotion and loss records. -/
namespace Sys2Proof.Machine
open Sys2Proof

/-- WRITER_LINE_WRITE (R267). A capture or record writer writes a whole line into its ring when granted a lane. -/
def execWriterLineWrite (i : Fin 16) (s : State) : Host.Outcome State Fault Refusal :=
  .next (s.ask (.line i.val false))

/-- PAD_TIMEOUT (R267). A writer holding one record for 32 FCLK cycles fills the line's second half with a pad. -/
def execPadTimeout (i : Fin 16) (s : State) : Host.Outcome State Fault Refusal :=
  .next (s.ask (.line i.val true))

/-- STRIPE_GROUP_ENTER (R268). A writer enters its next stripe group once it owns every bank of it, setting FILL_NO. -/
def execStripeGroupEnter (i : Fin 16) (s : State) : Host.Outcome State Fault Refusal :=
  .next (s.writerEnter i.val)

/-- OWNER_WRITE (R262). A write of BANK.OWNER starts a handover; new grants stop until the drain ends. -/
def execOwnerWrite (b : Fin 256) (v : Dword) (s : State) : Host.Outcome State Fault Refusal :=
  .next (s.hostAccess fun s => s.pageWrite .bank b.val 0x040 v 0)

/-- HANDOVER_DONE (R262). The drain ends and OWNER_NOW takes the new owner; waiting requests are judged again. -/
def execHandoverDone (b : Fin 256) (s : State) : Host.Outcome State Fault Refusal :=
  .next ((s.handoverDone b.val).serveReqs)

/-- BANK_FILL (R265). A guarded write of BANK.FILL.GO starts filling the bank with pads, or is discarded with FILL_REJECT. -/
def execBankFill (b : Fin 256) (v : Dword) (s : State) : Host.Outcome State Fault Refusal :=
  .next (s.hostAccess fun s => s.pageWrite .bank b.val 0x070 (v ||| 1) 0)

/-- FILL_DONE (R265). The bank fill completes and FILL_DONE is set. -/
def execFillDone (b : Fin 256) (s : State) : Host.Outcome State Fault Refusal :=
  .next ((s.fillDone b.val).serveReqs)

/-- SCRUB_VISIT (R259). Every 1,024 FCLK cycles the scrubber reads the next line of the bank. -/
def execScrubVisit (b : Fin 256) (ups : List (BitVec 14 × Bool × List (BitVec 7))) (s : State) : Host.Outcome State Fault Refusal :=
  .next (s.scrubBank b.val ups)

/-- SCRUB_WRITEBACK (R259). In the next idle cycle the scrubber writes back a corrected half. -/
def execScrubWriteback (b : Fin 256) (s : State) : Host.Outcome State Fault Refusal :=
  .next (s.scrubWriteback b.val)

/-- DEMOTE (R269). While the capture buffer holds over 768 records, the lowest-priority captured channel is demoted each TCLK cycle. -/
def execDemote (n : Fin 8) (s : State) : Host.Outcome State Fault Refusal :=
  .next (s.demoteLowest n.val)

/-- RESTORE (R269). After a window of 64 FCLK cycles at 256 records or fewer, the highest-priority demoted channel is restored and a DEMOTE loss
record written. -/
def execRestore (n : Fin 8) (s : State) : Host.Outcome State Fault Refusal :=
  .next (s.restore n.val)

/-- LOSS_RECORD_WRITE (R272). A kept loss count is written as a loss record as soon as the record writer can place it. -/
def execLossRecordWrite (n : Fin 8) (s : State) : Host.Outcome State Fault Refusal :=
  .next (s.lossWrite n.val)

end Sys2Proof.Machine
end

