-- ==== Sys2Proof/Machine/SwarmCommands.lean ====
section
/-! DEFINITION. Meanings: links, joining, timing marks, commands, events and lent banks of a swarm. -/
namespace Sys2Proof.Machine
open Sys2Proof

/-- A host write of a register that R279 guards. -/
def State.swarmConfig (s : State) (r : SwarmReg) (v : Dword) : State :=
  match r with
  | .ctrl => s.pageWrite .swarm 0 0x040 v 0
  | .ordinal => s.pageWrite .swarm 0 0x044 v 0
  | .epoch => s.pageWrite .swarm 0 0x048 v 0
  | .link p => s.pageWrite .link p.val 0x040 v 0

/-- A filtered change of QUEEN_N, while the part is not held in reset (R466). -/
def State.strapChange (s : State) (high : Bool) : State := if s.live then s.strap high else s

/-- LINK_TRAINED (R287). A port reaches block lock and lane deskew and begins sending HELLO. -/
def execLinkTrained (p : Fin 4) (s : State) : Host.Outcome State Fault Refusal :=
  .next (s.linkTrained p.val)

/-- LINK_DOWN (R283). A receiver declares its link down and retrains. -/
def execLinkDown (p : Fin 4) (s : State) : Host.Outcome State Fault Refusal :=
  .next ((s.linkDown p.val).settleRuns.settle)

/-- HELLO_SEND (R287). Every 100 µs, or on a change of values, a port sends HELLO. -/
def execHelloSend (p : Fin 4) (s : State) : Host.Outcome State Fault Refusal :=
  .next (s.helloSend p.val)

/-- HELLO_RX (R287). A HELLO is received and, on a DOWN end, judged against Table 9-4. -/
def execHelloRx (p : Fin 4) (hd : Head) (h : Hello) (s : State) : Host.Outcome State Fault Refusal :=
  .next ((s.helloRx p.val hd h).settleRuns.settle)

/-- JOIN_RX (R288). The queen receives a JOIN and accepts or refuses the ordinal. -/
def execJoinRx (p : Fin 4) (hd : Head) (ordinal : BitVec 11) (parent : BitVec 11) (s : State) : Host.Outcome State Fault Refusal :=
  .next (s.joinRx p.val hd ordinal parent)

/-- JOIN_REPLY_RX (R288). A JOIN_REPLY arrives and the link becomes JOINED or quarantined with cause ORDINAL. -/
def execJoinReplyRx (p : Fin 4) (hd : Head) (ordinal : BitVec 11) (ok : Bool) (engaged : Bool) (s : State) : Host.Outcome State Fault Refusal :=
  .next (s.joinReplyRx p.val hd ordinal ok engaged)

/-- WAGGLE_SEND (R292). Every 4.096 µs a parent sends a timing mark and WAGGLE on each JOINED downstream port. -/
def execWaggleSend (p : Fin 4) (f : DTime) (s : State) : Host.Outcome State Fault Refusal :=
  .next (s.waggleSend p.val f)

/-- MARK_SEND (R292). Every 4.096 µs a child sends a timing mark and MARK upstream. -/
def execMarkSend (p : Fin 4) (f : DTime) (s : State) : Host.Outcome State Fault Refusal :=
  .next (s.markSend p.val f)

/-- WAGGLE_RX (R293). A WAGGLE is received; delay, offset and error e are formed and the filtered error updated. -/
def execWaggleRx (p : Fin 4) (hd : Head) (a : DTime) (w : Waggle) (s : State) : Host.Outcome State Fault Refusal :=
  .next ((s.waggleRx p.val hd a w).settle)

/-- MARK_RX (R293). A parent receives a child's MARK and forms A_up. -/
def execMarkRx (p : Fin 4) (hd : Head) (a : DTime) (f : DTime) (s : State) : Host.Outcome State Fault Refusal :=
  .next (s.markRx p.val hd a f)

/-- ACQUISITION_STEP (R294). After 256 delay values and 16 waggles, a member steps DTIME once its regions have halted. -/
def execAcquisitionStep (s : State) : Host.Outcome State Fault Refusal :=
  .next (s.acquisitionStep)

/-- ALIGNED_REACHED (R294). The filtered error stays within ±16 su for 256 waggles and the member becomes ALIGNED. -/
def execAlignedReached (s : State) : Host.Outcome State Fault Refusal :=
  .next (s.alignedReached)

/-- ACK_RX (R285). An acknowledgement advances the sender's window of unacknowledged reliable frames. -/
def execAckRx (p : Fin 4) (hd : Head) (s : State) : Host.Outcome State Fault Refusal :=
  .next (s.receive p.val hd false false true id)

/-- ACK_SEND (R285). A receiver that has had no other frame to send within 100 ns of receiving a reliable frame sends an ACK frame. -/
def execAckSend (p : Fin 4) (s : State) : Host.Outcome State Fault Refusal :=
  .next (s.ackSend p.val)

/-- RETRY_TIMEOUT (R285). A reliable frame unacknowledged after R_t + 300 ns is resent with all after it. -/
def execRetryTimeout (p : Fin 4) (s : State) : Host.Outcome State Fault Refusal :=
  .next (s.resend p.val)

/-- RETRY_EXHAUSTED (R285). The oldest unacknowledged frame waits R_t + 2 µs and the link is declared down. -/
def execRetryExhausted (p : Fin 4) (s : State) : Host.Outcome State Fault Refusal :=
  .next ((s.retryExhausted p.val).settleRuns.settle)

/-- TRIGGER_FRAME_RX (R303). A TRIGGER frame is forwarded cut-through, deduplicated and delivered to trigger words and latches. -/
def execTriggerFrameRx (p : Fin 4) (hd : Head) (t : SwarmTrigger) (s : State) : Host.Outcome State Fault Refusal :=
  .next ((s.triggerRx p.val hd t).settle)

/-- COMMAND_FRAME_RX (R298). A member carries out a swarm command in its own state, or resends a stored reply for a repeat. -/
def execCommandFrameRx (p : Fin 4) (hd : Head) (c : SwarmCmd) (s : State) : Host.Outcome State Fault Refusal :=
  .next ((s.commandRx p.val hd c).settle)

/-- REPLY_FRAME_RX (R298). A part aggregates a downstream REPLY and sends its own when complete. -/
def execReplyFrameRx (p : Fin 4) (hd : Head) (r : SwarmReply) (s : State) : Host.Outcome State Fault Refusal :=
  .next ((s.replyRx p.val hd r).settle)

/-- CMD_TIMEOUT (R299). A forwarded command's port timer reaches CMD_TO and the subtree counts as timed out. -/
def execCmdTimeout (p : Fin 4) (s : State) : Host.Outcome State Fault Refusal :=
  .next ((s.cmdTimeout p.val).settle)

/-- EVENT_FRAME_RX (R308). A swarm EVENT is forwarded, deduplicated and journalled as a swarm event record. -/
def execEventFrameRx (p : Fin 4) (hd : Head) (e : SwarmEvent) (s : State) : Host.Outcome State Fault Refusal :=
  .next ((s.eventRx p.val hd e).settleRuns.settle)

/-- LENT_ENTER_RX (R313). A lender receives LENT_ENTER and answers LENT_GRANT or a refusal. -/
def execLentEnterRx (p : Fin 4) (hd : Head) (bank : BitVec 8) (fill : BitVec 16) (s : State) : Host.Outcome State Fault Refusal :=
  .next (s.lentEnterRx p.val hd bank fill)

/-- LENT_GRANT_RX (R313). A borrower receives the grant or refusal for a lent bank. -/
def execLentGrantRx (p : Fin 4) (hd : Head) (bank : BitVec 8) (ok : Bool) (s : State) : Host.Outcome State Fault Refusal :=
  .next (s.lentGrantRx p.val hd bank ok)

/-- LENT_RETRY (R313). A refused borrower asks again every 1 µs. -/
def execLentRetry (n : Fin 8) (s : State) : Host.Outcome State Fault Refusal :=
  .next (s.lentRetry n.val)

/-- LENT_LINE_RX (R314). A lender writes a received line into a lent bank, or freezes the port on a violation. -/
def execLentLineRx (p : Fin 4) (hd : Head) (bank : BitVec 8) (line : BitVec 14) (r0 : Rec) (r1 : Rec) (s : State) : Host.Outcome State Fault Refusal :=
  .next (s.lentLineRx p.val hd bank line r0 r1)

/-- SWARM_CONFIG_WRITE (R279). A guarded write of SWARM.CTRL, ORDINAL, EPOCH or LINK.CTRL.ROLE is accepted or discarded with BUSY_REJECT. -/
def execSwarmConfigWrite (r : SwarmReg) (v : Dword) (s : State) : Host.Outcome State Fault Refusal :=
  .next ((s.hostAccess fun s => s.swarmConfig r v).settleRuns.settle)

/-- LINK_RETRAIN (R316). A guarded write of LINK.CTRL.RETRAIN takes the link down and retrains it. -/
def execLinkRetrain (p : Fin 4) (v : Dword) (s : State) : Host.Outcome State Fault Refusal :=
  .next ((s.hostAccess fun s => s.pageWrite .link p.val 0x040 (v ||| 8) 0).settleRuns.settle)

/-- QUEEN_STRAP_CHANGE (R466). A filtered change of QUEEN_N changes the role once R279's conditions hold. -/
def execQueenStrapChange (high : Bool) (s : State) : Host.Outcome State Fault Refusal :=
  .next (s.strapChange high)

end Sys2Proof.Machine
end

