-- ==== Sys2Proof/Machine/SynthCommands.lean ====
section
/-! DEFINITION. Meanings: the output synthesizers. -/
namespace Sys2Proof.Machine
open Sys2Proof

/-- SYN_PAGE_START (R346). Starting a SYN page powers the synthesizer and begins a band search. -/
def execSynPageStart (i : Fin 6) (s : State) : Host.Outcome State Fault Refusal :=
  .next (s.hostAccess fun s => s.pageWrite .syn i.val 0x004 1 0)

/-- SYN_PAGE_STOP (R397). A write that clears SYN.PAGE_CTRL.RUN powers the synthesizer down, disables its output, loses its profiles and applies its
pending shadows at once. -/
def execSynPageStop (i : Fin 6) (s : State) : Host.Outcome State Fault Refusal :=
  .next (s.hostAccess fun s => s.pageWrite .syn i.val 0x004 0 0)

/-- BAND_SEARCH_REQUEST (R346). A write of SYN.CTRL.SEARCH starts a band search with the output disabled. -/
def execBandSearchRequest (i : Fin 6) (v : Dword) (s : State) : Host.Outcome State Fault Refusal :=
  .next (s.hostAccess fun s => s.pageWrite .syn i.val 0x040 (v ||| 0x40) 0)

/-- BAND_SEARCH_DONE (R346). The band search locks, stores a profile entry and enables the output if EN is 1. -/
def execBandSearchDone (i : Fin 6) (band : BitVec 5) (tune : BitVec 8) (s : State) : Host.Outcome State Fault Refusal :=
  .next (s.searchDone i.val band.toNat tune.toNat)

/-- LOCK_FAIL (R346). A band search cannot lock within 200 µs and the output stays disabled. -/
def execLockFail (i : Fin 6) (s : State) : Host.Outcome State Fault Refusal :=
  .next (s.lockFail i.val)

/-- PROFILE_HOP (R347). A write of PROF_CTRL.HOP loads a stored profile at the boundary, or is discarded with PROF_EMPTY. -/
def execProfileHop (i : Fin 6) (index : BitVec 4) (slot : BitVec 4) (s : State) : Host.Outcome State Fault Refusal :=
  .next (s.hostAccess fun s => s.pageWrite .syn i.val 0x058 (BitVec.ofNat 32 (slot.toNat + 2 ^ 4 * index.toNat + 2 ^ 8)) 0)

/-- HOP_DONE (R347). The hop's loop locks and the output is enabled again. -/
def execHopDone (i : Fin 6) (s : State) : Host.Outcome State Fault Refusal :=
  .next (s.hopDone i.val)

/-- DELAY_STEP (R350). At each output rising edge the fine delay moves one step towards its target. -/
def execDelayStep (i : Fin 6) (s : State) : Host.Outcome State Fault Refusal :=
  .next (s.delayStep i.val)

/-- LOOP_WRITE (R355). A guarded write of SYN.LOOP selects channels for loopback, or is discarded. -/
def execLoopWrite (i : Fin 6) (j : Fin 3) (v : Dword) (levels : Dword) (s : State) : Host.Outcome State Fault Refusal :=
  .next (s.hostAccess fun s => s.pageWrite .syn i.val (0x05c + 4 * j.val) v levels)

/-- SYN_RELOCK (R356). After the root returns, a held synthesizer relocks within 100 µs. -/
def execSynRelock (i : Fin 6) (s : State) : Host.Outcome State Fault Refusal :=
  .next (s.synRelock i.val)

/-- ZQ_CAL_MEASURE (R469). Every 100 ms the ZQ_CAL resistor is measured and driver impedance trimmed. -/
def execZqCalMeasure (ohms : Option Nat) (s : State) : Host.Outcome State Fault Refusal :=
  .next (s.zqMeasure ohms)

end Sys2Proof.Machine
end

