-- ==== Sys2Proof/Machine/TimeCommands.lean ====
section
/-! DEFINITION. Meanings: the timebase, lock and loss of lock, bypass, and the guarded writes of TB.CTRL. -/
namespace Sys2Proof.Machine
open Sys2Proof

/-- A value of TB.CTRL (Table 2-4). -/
def tbWord (refsel altrefEn reset : Bool) : Dword := BitVec.ofNat 32 (b2n refsel + 2 * b2n altrefEn + 2 ^ 31 * b2n reset)

/-- TIMEBASE_START (R50). In the first TCLK cycle after first lock, DTIME starts at 0, the clock dividers release and initial calibration and
self-test begin. -/
def execTimebaseStart (s : State) : Host.Outcome State Fault Refusal :=
  .next (s.timebaseStart)

/-- LOCK_DECLARED (R61). The main synthesizer is declared locked when fewer than 342 of the last 1,024 reference cycles were out of window. -/
def execLockDeclared (phases : List (BitVec 12)) (refs : Refs) (s : State) : Host.Outcome State Fault Refusal :=
  .next ((s.lockDeclared phases refs).settle)

/-- HARD_LOSS (R64). A missing reference edge or two large phase errors clear LOCKED, set LOCK_LOST and TB_LOST and capture LOSS_AT. -/
def execHardLoss (c : LossCause) (refs : Refs) (s : State) : Host.Outcome State Fault Refusal :=
  .next ((s.hardLoss c refs).settle)

/-- SOFT_LOSS (R64). The out-of-window count reaches 342 of 1,024, with the same effects as a hard loss. -/
def execSoftLoss (phases : List (BitVec 12)) (refs : Refs) (s : State) : Host.Outcome State Fault Refusal :=
  .next ((s.softLoss phases refs).settle)

/-- BYPASS_SWITCH (R65). Within 20 ns of a loss the clocks switch glitch-free to ALTREF or the internal oscillator and DTIME advances in 10 ns steps. -/
def execBypassSwitch (altToggles : Bool) (s : State) : Host.Outcome State Fault Refusal :=
  .next (s.bypassSwitch altToggles)

/-- ALTREF_FAIL (R65). ALTREF fails during bypass and the clocks move to the internal oscillator within 20 ns. -/
def execAltrefFail (s : State) : Host.Outcome State Fault Refusal :=
  .next (s.altrefFail)

/-- SWITCH_BACK (R68). After lock is declared again, the clocks return to the root at the next bypass edge, COARSE clears and RELOCK_AT is captured. -/
def execSwitchBack (s : State) : Host.Outcome State Fault Refusal :=
  .next (s.switchBack)

/-- LOCK_WITHDRAWN (R477). A loss detected while still in bypass withdraws a pending lock declaration, and the clocks stay on bypass. -/
def execLockWithdrawn (c : LossCause) (refs : Refs) (s : State) : Host.Outcome State Fault Refusal :=
  .next ((s.lockWithdrawn c refs).settle)

/-- DTIME_WRAP (R53). The whole-nanosecond count wraps; WRAPPED is set, EPOCH increments and time-extension records follow. -/
def execDtimeWrap (s : State) : Host.Outcome State Fault Refusal :=
  .next (s.dtimeWrap)

/-- TRIM_SLEW_STEP (R71). Every 1,024 TCLK cycles while TRIM_LIVE differs from TARGET, one su is added to or withheld from DTIME. -/
def execTrimSlewStep (s : State) : Host.Outcome State Fault Refusal :=
  .next (s.trimSlew)

/-- TB_RESET (R73). A guarded write of TB_RESET restarts DTIME, EPOCH and TRIM_LIVE at 0 when its conditions hold, or is discarded. -/
def execTbReset (altrefEn : Bool) (s : State) : Host.Outcome State Fault Refusal :=
  .next (s.hostAccess fun s => s.pageWrite .tb 0 0x040 (tbWord (s.bit tbPage TB.CTRL_REFSEL) altrefEn true) 0)

/-- REFSEL_WRITE (R60). A guarded write of TB.CTRL.REFSEL changes the synthesizer reference through bypass, or is discarded with BUSY_REJECT. -/
def execRefselWrite (refsel : Bool) (altrefEn : Bool) (s : State) : Host.Outcome State Fault Refusal :=
  .next (s.hostAccess fun s => s.pageWrite .tb 0 0x040 (tbWord refsel altrefEn false) 0)

end Sys2Proof.Machine
end

