-- ==== Sys2Proof/Machine/TriggerCommands.lean ====
section
/-! DEFINITION. Meanings: triggers, TRIG_IN and TRIG_OUT, the step lanes, and the guarded writes of ESL and CAP_CTRL. -/
namespace Sys2Proof.Machine
open Sys2Proof

/-- TRIGGER_DELIVER (R214). A trigger reaches capture writers, TRIG_OUT and the swarm in the cycle after its put. -/
def execTriggerDeliver (s : State) : Host.Outcome State Fault Refusal :=
  .next (s.triggerDeliver.settle)

/-- TRIG_OUT_END (R216). The TRIG_OUT pulse width expires and the output returns to its inactive level. -/
def execTrigOutEnd (s : State) : Host.Outcome State Fault Refusal :=
  .next (s.pulseEnd)

/-- TRIG_IN_EDGE (R218). An edge on TRIG_IN is stamped by its converter, or counted as missed while the converter is busy. -/
def execTrigInEdge (rising : Bool) (fine : BitVec 10) (s : State) : Host.Outcome State Fault Refusal :=
  .next (s.trigInEdge rising fine.toNat)

/-- TRIG_IN_EMIT (R219). The TRIG_IN stamp is emitted 16 cycles later, latched and, if enabled, offered as a capture trigger. -/
def execTrigInEmit (s : State) : Host.Outcome State Fault Refusal :=
  .next (s.trigInEmit.settle)

/-- STEP_FRAME (R224). A step frame is received whole; its boundary is stamped, values become visible and step records are written. -/
def execStepFrame (start : DTime) (lanes : List (List StepChar)) (s : State) : Host.Outcome State Fault Refusal :=
  .next (s.stepFrame start lanes)

/-- ESL_ALIGN_LOST (R223). Lanes lose alignment by a mismatched or missing alignment character. -/
def execEslAlignLost (on : Option (BitVec 4)) (locked : BitVec 4) (estep : Bool) (s : State) : Host.Outcome State Fault Refusal :=
  .next (s.alignLost on locked.toNat estep)

/-- ESL_ALIGN_CHAR (R222). A complete alignment character on all lanes deskews them and restores reception. -/
def execEslAlignChar (estep : Bool) (s : State) : Host.Outcome State Fault Refusal :=
  .next (s.alignChar estep)

/-- ESL_CTRL_WRITE (R221). A guarded write of ESL.CTRL or ESL.SKEW is accepted between runs or discarded with BUSY_REJECT. -/
def execEslCtrlWrite (skew : Bool) (v : Dword) (s : State) : Host.Outcome State Fault Refusal :=
  .next (s.hostAccess fun s => s.pageWrite .esl 0 (if skew then 0x044 else 0x040) v 0)

/-- CAP_CTRL_WRITE (R239). A guarded write of REG.CAP_CTRL is accepted between runs or discarded with BUSY_REJECT. -/
def execCapCtrlWrite (n : Fin 8) (v : Dword) (s : State) : Host.Outcome State Fault Refusal :=
  .next (s.hostAccess fun s => s.pageWrite .reg n.val 0x238 v 0)

end Sys2Proof.Machine
end

