-- ==== Sys2Proof/Machine/Dispatch.lean ====
section
/-! DEFINITION. The dispatch: one arm for each command. -/
namespace Sys2Proof.Machine
open Sys2Proof

def exec (i : Instr) (s : State) : Host.Outcome State Fault Refusal :=
  match i with
  | .cmdLoad id => Sys2Proof.Machine.execCmdLoad id s
  | .loadComplete image brk insts lines => Sys2Proof.Machine.execLoadComplete image brk insts lines s
  | .cmdArm id => Sys2Proof.Machine.execCmdArm id s
  | .cmdStart id => Sys2Proof.Machine.execCmdStart id s
  | .runSlot0 => Sys2Proof.Machine.execRunSlot0 s
  | .cmdStop id => Sys2Proof.Machine.execCmdStop id s
  | .cmdAbort id => Sys2Proof.Machine.execCmdAbort id s
  | .cmdResetRun id => Sys2Proof.Machine.execCmdResetRun id s
  | .cmdCluster id => Sys2Proof.Machine.execCmdCluster id s
  | .cmdWake id => Sys2Proof.Machine.execCmdWake id s
  | .cmdInvalid v => Sys2Proof.Machine.execCmdInvalid v s
  | .regionHalt n => Sys2Proof.Machine.execRegionHalt n s
  | .timebaseStart => Sys2Proof.Machine.execTimebaseStart s
  | .lockDeclared phases refs => Sys2Proof.Machine.execLockDeclared phases refs s
  | .hardLoss c refs => Sys2Proof.Machine.execHardLoss c refs s
  | .softLoss phases refs => Sys2Proof.Machine.execSoftLoss phases refs s
  | .bypassSwitch altToggles => Sys2Proof.Machine.execBypassSwitch altToggles s
  | .altrefFail => Sys2Proof.Machine.execAltrefFail s
  | .switchBack => Sys2Proof.Machine.execSwitchBack s
  | .lockWithdrawn c refs => Sys2Proof.Machine.execLockWithdrawn c refs s
  | .dtimeWrap => Sys2Proof.Machine.execDtimeWrap s
  | .trimSlewStep => Sys2Proof.Machine.execTrimSlewStep s
  | .tbReset altrefEn => Sys2Proof.Machine.execTbReset altrefEn s
  | .refselWrite refsel altrefEn => Sys2Proof.Machine.execRefselWrite refsel altrefEn s
  | .edgeArrival k fine => Sys2Proof.Machine.execEdgeArrival k fine s
  | .stuckExpiry k => Sys2Proof.Machine.execStuckExpiry k s
  | .inputWrite k v level level2 => Sys2Proof.Machine.execInputWrite k v level level2 s
  | .converterRelease k j => Sys2Proof.Machine.execConverterRelease k j s
  | .gapLimit k => Sys2Proof.Machine.execGapLimit k s
  | .poolEmit k => Sys2Proof.Machine.execPoolEmit k s
  | .fifoOvfClose g j => Sys2Proof.Machine.execFifoOvfClose g j s
  | .countGateResult k => Sys2Proof.Machine.execCountGateResult k s
  | .stuckGridResult k => Sys2Proof.Machine.execStuckGridResult k s
  | .graceExpiry k => Sys2Proof.Machine.execGraceExpiry k s
  | .nurseDutyEnd k d => Sys2Proof.Machine.execNurseDutyEnd k d s
  | .nurseSwap k => Sys2Proof.Machine.execNurseSwap k s
  | .nurseReassign k => Sys2Proof.Machine.execNurseReassign k s
  | .initialCalDone failed tables => Sys2Proof.Machine.execInitialCalDone failed tables s
  | .poolRecal k v => Sys2Proof.Machine.execPoolRecal k v s
  | .recalDone k failed tables => Sys2Proof.Machine.execRecalDone k failed tables s
  | .readyCheckDone failed => Sys2Proof.Machine.execReadyCheckDone failed s
  | .majorCycleEnd n => Sys2Proof.Machine.execMajorCycleEnd n s
  | .nop c => Sys2Proof.Machine.execNop c s
  | .openSlot c => Sys2Proof.Machine.execOpenSlot c s
  | .logicOp c => Sys2Proof.Machine.execLogicOp c s
  | .add c => Sys2Proof.Machine.execAdd c s
  | .subW c => Sys2Proof.Machine.execSubW c s
  | .mov c => Sys2Proof.Machine.execMov c s
  | .shl c => Sys2Proof.Machine.execShl c s
  | .shr c => Sys2Proof.Machine.execShr c s
  | .sar c => Sys2Proof.Machine.execSar c s
  | .mulu c => Sys2Proof.Machine.execMulu c s
  | .muls c => Sys2Proof.Machine.execMuls c s
  | .macu c => Sys2Proof.Machine.execMacu c s
  | .cmpeq c => Sys2Proof.Machine.execCmpeq c s
  | .cmpltu c => Sys2Proof.Machine.execCmpltu c s
  | .cmplts c => Sys2Proof.Machine.execCmplts c s
  | .clz c => Sys2Proof.Machine.execClz c s
  | .dstep c => Sys2Proof.Machine.execDstep c s
  | .ptst c => Sys2Proof.Machine.execPtst c s
  | .pget c => Sys2Proof.Machine.execPget c s
  | .pput c => Sys2Proof.Machine.execPput c s
  | .rdc c => Sys2Proof.Machine.execRdc c s
  | .wrc c => Sys2Proof.Machine.execWrc c s
  | .ldi c => Sys2Proof.Machine.execLdi c s
  | .addi c => Sys2Proof.Machine.execAddi c s
  | .adci c => Sys2Proof.Machine.execAdci c s
  | .andi c => Sys2Proof.Machine.execAndi c s
  | .ori c => Sys2Proof.Machine.execOri c s
  | .xori c => Sys2Proof.Machine.execXori c s
  | .takePop c => Sys2Proof.Machine.execTakePop c s
  | .takeCopy c => Sys2Proof.Machine.execTakeCopy c s
  | .takeDiscard c => Sys2Proof.Machine.execTakeDiscard c s
  | .putRec c => Sys2Proof.Machine.execPutRec c s
  | .tld c => Sys2Proof.Machine.execTld c s
  | .tgo c => Sys2Proof.Machine.execTgo c s
  | .thlt c => Sys2Proof.Machine.execThlt c s
  | .trd c => Sys2Proof.Machine.execTrd c s
  | .tadd c => Sys2Proof.Machine.execTadd c s
  | .tsub c => Sys2Proof.Machine.execTsub c s
  | .tz c => Sys2Proof.Machine.execTz c s
  | .tge c => Sys2Proof.Machine.execTge c s
  | .tclr c => Sys2Proof.Machine.execTclr c s
  | .tldgo c => Sys2Proof.Machine.execTldgo c s
  | .timerExpire c u => Sys2Proof.Machine.execTimerExpire c u s
  | .resultLand c => Sys2Proof.Machine.execResultLand c s
  | .nrd c => Sys2Proof.Machine.execNrd c s
  | .rsnd c => Sys2Proof.Machine.execRsnd c s
  | .rrcv c => Sys2Proof.Machine.execRrcv c s
  | .csnd c => Sys2Proof.Machine.execCsnd c s
  | .crcv c => Sys2Proof.Machine.execCrcv c s
  | .exchangeDeliver id => Sys2Proof.Machine.execExchangeDeliver id s
  | .sld c upset => Sys2Proof.Machine.execSld c upset s
  | .sst c => Sys2Proof.Machine.execSst c s
  | .xin c => Sys2Proof.Machine.execXin c s
  | .evt c => Sys2Proof.Machine.execEvt c s
  | .bxfer c => Sys2Proof.Machine.execBxfer c s
  | .btst c => Sys2Proof.Machine.execBtst c s
  | .bxferLine g => Sys2Proof.Machine.execBxferLine g s
  | .instructionParityError c => Sys2Proof.Machine.execInstructionParityError c s
  | .debugGo n patchEn => Sys2Proof.Machine.execDebugGo n patchEn s
  | .debugAccess n => Sys2Proof.Machine.execDebugAccess n s
  | .scratchWindowAccess g w wr => Sys2Proof.Machine.execScratchWindowAccess g w wr s
  | .imemLoWrite c v => Sys2Proof.Machine.execImemLoWrite c v s
  | .imemHiCommit c a v => Sys2Proof.Machine.execImemHiCommit c a v s
  | .patchCommit c => Sys2Proof.Machine.execPatchCommit c s
  | .triggerDeliver => Sys2Proof.Machine.execTriggerDeliver s
  | .trigOutEnd => Sys2Proof.Machine.execTrigOutEnd s
  | .trigInEdge rising fine => Sys2Proof.Machine.execTrigInEdge rising fine s
  | .trigInEmit => Sys2Proof.Machine.execTrigInEmit s
  | .stepFrame start lanes => Sys2Proof.Machine.execStepFrame start lanes s
  | .eslAlignLost on locked estep => Sys2Proof.Machine.execEslAlignLost on locked estep s
  | .eslAlignChar estep => Sys2Proof.Machine.execEslAlignChar estep s
  | .eslCtrlWrite skew v => Sys2Proof.Machine.execEslCtrlWrite skew v s
  | .capCtrlWrite n v => Sys2Proof.Machine.execCapCtrlWrite n v s
  | .writerLineWrite n => Sys2Proof.Machine.execWriterLineWrite n s
  | .padTimeout n => Sys2Proof.Machine.execPadTimeout n s
  | .stripeGroupEnter n => Sys2Proof.Machine.execStripeGroupEnter n s
  | .ownerWrite b v => Sys2Proof.Machine.execOwnerWrite b v s
  | .handoverDone b => Sys2Proof.Machine.execHandoverDone b s
  | .bankFill b v => Sys2Proof.Machine.execBankFill b v s
  | .fillDone b => Sys2Proof.Machine.execFillDone b s
  | .scrubVisit b ups => Sys2Proof.Machine.execScrubVisit b ups s
  | .scrubWriteback b => Sys2Proof.Machine.execScrubWriteback b s
  | .demote n => Sys2Proof.Machine.execDemote n s
  | .restore n => Sys2Proof.Machine.execRestore n s
  | .lossRecordWrite n => Sys2Proof.Machine.execLossRecordWrite n s
  | .storeFault n code bank => Sys2Proof.Machine.execStoreFault n code bank s
  | .linkTrained p => Sys2Proof.Machine.execLinkTrained p s
  | .linkDown p => Sys2Proof.Machine.execLinkDown p s
  | .helloSend p => Sys2Proof.Machine.execHelloSend p s
  | .helloRx p hd h => Sys2Proof.Machine.execHelloRx p hd h s
  | .joinRx p hd ordinal parent => Sys2Proof.Machine.execJoinRx p hd ordinal parent s
  | .joinReplyRx p hd ordinal ok engaged => Sys2Proof.Machine.execJoinReplyRx p hd ordinal ok engaged s
  | .waggleSend p f => Sys2Proof.Machine.execWaggleSend p f s
  | .markSend p f => Sys2Proof.Machine.execMarkSend p f s
  | .waggleRx p hd a w => Sys2Proof.Machine.execWaggleRx p hd a w s
  | .markRx p hd a f => Sys2Proof.Machine.execMarkRx p hd a f s
  | .acquisitionStep => Sys2Proof.Machine.execAcquisitionStep s
  | .alignedReached => Sys2Proof.Machine.execAlignedReached s
  | .ackRx p hd => Sys2Proof.Machine.execAckRx p hd s
  | .retryTimeout p => Sys2Proof.Machine.execRetryTimeout p s
  | .retryExhausted p => Sys2Proof.Machine.execRetryExhausted p s
  | .triggerFrameRx p hd t => Sys2Proof.Machine.execTriggerFrameRx p hd t s
  | .commandFrameRx p hd c => Sys2Proof.Machine.execCommandFrameRx p hd c s
  | .replyFrameRx p hd r => Sys2Proof.Machine.execReplyFrameRx p hd r s
  | .cmdTimeout p => Sys2Proof.Machine.execCmdTimeout p s
  | .eventFrameRx p hd e => Sys2Proof.Machine.execEventFrameRx p hd e s
  | .lentEnterRx p hd bank fill => Sys2Proof.Machine.execLentEnterRx p hd bank fill s
  | .lentGrantRx p hd bank ok => Sys2Proof.Machine.execLentGrantRx p hd bank ok s
  | .lentRetry n => Sys2Proof.Machine.execLentRetry n s
  | .lentLineRx p hd bank line r0 r1 => Sys2Proof.Machine.execLentLineRx p hd bank line r0 r1 s
  | .swarmConfigWrite r v => Sys2Proof.Machine.execSwarmConfigWrite r v s
  | .linkRetrain p v => Sys2Proof.Machine.execLinkRetrain p v s
  | .queenStrapChange high => Sys2Proof.Machine.execQueenStrapChange high s
  | .mapTick => Sys2Proof.Machine.execMapTick s
  | .setRequest d frac => Sys2Proof.Machine.execSetRequest d frac s
  | .ppsEdge n rising fine => Sys2Proof.Machine.execPpsEdge n rising fine s
  | .ofsSubmit d v => Sys2Proof.Machine.execOfsSubmit d v s
  | .domainSnap d => Sys2Proof.Machine.execDomainSnap d s
  | .domainStale d => Sys2Proof.Machine.execDomainStale d s
  | .synPageStart n => Sys2Proof.Machine.execSynPageStart n s
  | .bandSearchRequest n v => Sys2Proof.Machine.execBandSearchRequest n v s
  | .bandSearchDone n band tune => Sys2Proof.Machine.execBandSearchDone n band tune s
  | .lockFail n => Sys2Proof.Machine.execLockFail n s
  | .profileHop n index slot => Sys2Proof.Machine.execProfileHop n index slot s
  | .hopDone n => Sys2Proof.Machine.execHopDone n s
  | .delayStep n => Sys2Proof.Machine.execDelayStep n s
  | .loopWrite n j v levels => Sys2Proof.Machine.execLoopWrite n j v levels s
  | .synRelock n => Sys2Proof.Machine.execSynRelock n s
  | .zqCalMeasure ohms => Sys2Proof.Machine.execZqCalMeasure ohms s
  | .configReady link early later => Sys2Proof.Machine.execConfigReady link early later s
  | .bar0BusError addr req => Sys2Proof.Machine.execBar0BusError addr req s
  | .poisonedWrite target => Sys2Proof.Machine.execPoisonedWrite target s
  | .bar2Read w n => Sys2Proof.Machine.execBar2Read w n s
  | .bar2Write w ds => Sys2Proof.Machine.execBar2Write w ds s
  | .msixUnmask v enable funcMask => Sys2Proof.Machine.execMsixUnmask v enable funcMask s
  | .dmaModeWrite v => Sys2Proof.Machine.execDmaModeWrite v s
  | .ringWrite c r v => Sys2Proof.Machine.execRingWrite c r v s
  | .doorbell c pi => Sys2Proof.Machine.execDoorbell c pi s
  | .descriptorFetch c r => Sys2Proof.Machine.execDescriptorFetch c r s
  | .dmaDataMove c j k bytes => Sys2Proof.Machine.execDmaDataMove c j k bytes s
  | .descriptorComplete c k => Sys2Proof.Machine.execDescriptorComplete c k s
  | .dmaEnable c v => Sys2Proof.Machine.execDmaEnable c v s
  | .dmaPause c v => Sys2Proof.Machine.execDmaPause c v s
  | .dmaPaused c => Sys2Proof.Machine.execDmaPaused c s
  | .dmaResume c v => Sys2Proof.Machine.execDmaResume c v s
  | .dmaAbort c v => Sys2Proof.Machine.execDmaAbort c v s
  | .dmaClear c v => Sys2Proof.Machine.execDmaClear c v s
  | .dmaStall c => Sys2Proof.Machine.execDmaStall c s
  | .completionTimeout c fetch => Sys2Proof.Machine.execCompletionTimeout c fetch s
  | .pcieLinkDown => Sys2Proof.Machine.execPcieLinkDown s
  | .keyUnlock addr => Sys2Proof.Machine.execKeyUnlock addr s
  | .rcRead addr => Sys2Proof.Machine.execRcRead addr s
  | .shadowWrite addr v levels => Sys2Proof.Machine.execShadowWrite addr v levels s
  | .shadowApply addr inBand => Sys2Proof.Machine.execShadowApply addr inBand s
  | .freezeRelease addr => Sys2Proof.Machine.execFreezeRelease addr s
  | .registerWrite addr v levels => Sys2Proof.Machine.execRegisterWrite addr v levels s
  | .chPageCtrlWrite k run level => Sys2Proof.Machine.execChPageCtrlWrite k run level s
  | .journalSelect n => Sys2Proof.Machine.execJournalSelect n s
  | .journalReadAdvance => Sys2Proof.Machine.execJournalReadAdvance s
  | .injectArm v => Sys2Proof.Machine.execInjectArm v s
  | .injectCancel v => Sys2Proof.Machine.execInjectCancel v s
  | .imgWrite r v => Sys2Proof.Machine.execImgWrite r v s
  | .mboxOutWrite v => Sys2Proof.Machine.execMboxOutWrite v s
  | .tempUpdate v => Sys2Proof.Machine.execTempUpdate v s
  | .chipUe code loc => Sys2Proof.Machine.execChipUe code loc s
  | .monitorRelease => Sys2Proof.Machine.execMonitorRelease s
  | .railFail rail good => Sys2Proof.Machine.execRailFail rail good s
  | .resetNAssert => Sys2Proof.Machine.execResetNAssert s
  | .resetRelease pin strap bad levels ohms => Sys2Proof.Machine.execResetRelease pin strap bad levels ohms s
  | .selfTestDone bad => Sys2Proof.Machine.execSelfTestDone bad s
  | .perstN => Sys2Proof.Machine.execPerstN s
  | .hotReset => Sys2Proof.Machine.execHotReset s
  | .clusterEntryDone => Sys2Proof.Machine.execClusterEntryDone s
  | .wakeComplete levels => Sys2Proof.Machine.execWakeComplete levels s
  | .svcNop => Sys2Proof.Machine.execSvcNop s
  | .svcReadId index => Sys2Proof.Machine.execSvcReadId index s
  | .svcReadHealth => Sys2Proof.Machine.execSvcReadHealth s
  | .svcReadMbox => Sys2Proof.Machine.execSvcReadMbox s
  | .svcMboxLo v => Sys2Proof.Machine.execSvcMboxLo v s
  | .svcMboxHi v => Sys2Proof.Machine.execSvcMboxHi v s
  | .svcCmd id wake => Sys2Proof.Machine.execSvcCmd id wake s
  | .svcReadCmd => Sys2Proof.Machine.execSvcReadCmd s
  | .svcHold => Sys2Proof.Machine.execSvcHold s
  | .svcRelease => Sys2Proof.Machine.execSvcRelease s
  | .svcReservedOp => Sys2Proof.Machine.execSvcReservedOp s
  | .svcFrameDiscard => Sys2Proof.Machine.execSvcFrameDiscard s
  | .testEnHigh => Sys2Proof.Machine.execTestEnHigh s
  | .tapReset => Sys2Proof.Machine.execTapReset s
  | .extest pins next => Sys2Proof.Machine.execExtest pins next s
  | .idcode => Sys2Proof.Machine.execIdcode s
  | .samplePreload pins next => Sys2Proof.Machine.execSamplePreload pins next s
  | .clamp => Sys2Proof.Machine.execClamp s
  | .highz => Sys2Proof.Machine.execHighz s
  | .extestPulse pins next => Sys2Proof.Machine.execExtestPulse pins next s
  | .extestTrain pins next => Sys2Proof.Machine.execExtestTrain pins next s
  | .bypass => Sys2Proof.Machine.execBypass s
  | .comparatorTransition k => Sys2Proof.Machine.execComparatorTransition k s
  | .illegal c => Sys2Proof.Machine.execIllegal c s
  | .ackSend p => Sys2Proof.Machine.execAckSend p s
  | .synPageStop n => Sys2Proof.Machine.execSynPageStop n s

end Sys2Proof.Machine
end

