-- ==== Sys2Proof/Machine/Tick.lean ====
section
/-! DEFINITION. The end of a TCLK cycle and the beginning of the next (R33, R47, R49, R170, R193). -/
namespace Sys2Proof.Machine
open Sys2Proof

/-- A command that was held is judged; the service port's response word shows the judgement (R456). -/
def State.judgeOne (s : State) (x : Agent × Dword) : State :=
  let s := s.judgeNow x.1 x.2 (acceptCode x.1 x.2)
  match x.1 with
  | .svc => { s with svc := { s.svc with response := s.rd (chipPage + 0x54) } }
  | _ => s

/-- At the end of an ACLK cycle the run commands that came in it are judged, against the state that its internal events leave: those of the swarm,
then those of the host, then those of the service port (R47, R405); a role that waited for R279's conditions follows (R466). -/
def State.judgeHeld (s : State) : State :=
  if !s.aclkLast then s else
  let cs := s.run.heldCmds
  let s := s.run.heldSwarm.foldl (fun s x => s.takeCommand x.1 x.2.1 x.2.2) { s with run := { s.run with heldCmds := [], heldSwarm := [] } }
  ((cs.filter (·.1 != .svc) ++ cs.filter (·.1 == .svc)).foldl State.judgeOne s).settle.strapDue

/-- The clock counts one cycle. HB_OUT counts from the release of reset on (R448), DTIME from the timebase's start. -/
def State.clock (s : State) : State :=
  let s := if s.aclkLast then s.endAclk else s
  let s := { s with power := { s.power with heart := s.power.heart + 1 } }
  if !s.bit tbPage TB.live_STARTED then s
  else
    let s := s.modTime fun x => { x with
      tclk := x.tclk + 1
      coarse := x.coarse.note s.coarse s.now
      hold := x.hold.note s.holdover s.now }
    s.countTime

/-- Jumps decided in this cycle end their segments (R233), and the capture triggers decided in it come to those that are current then (R231). -/
def State.jumpEnds (s : State) : State := (s.forEach allRegions fun n s => s.jumpEnd n).offersDue.settle

/-- One TCLK cycle passes (R49, R66): what belongs to its end happens, the clock counts, step frames checked in it become visible (R224), and
accesses and requests that waited are served in the new one (R33, R34, R36, R193). -/
def State.tick (s : State) : State :=
  if !s.live then s else s.jumpEnds.chipRecords.judgeHeld.endSlot.clock.deliverSummaries.holdWindows.showSteps.serveHeld.serveReqs

end Sys2Proof.Machine
end

