-- ==== Sys2Proof/Machine/Balls.lean ====
section
/-! DEFINITION. The ball array and the order of the boundary-scan cells (R458 to R462, R476; Tables 17-1 to 17-6, 17-13). -/
namespace Sys2Proof.Machine
open Sys2Proof

/-- A signal of the part: a pair, or a single ball (Table 17-7). -/
inductive Signal where
  | ch (k : Nat)
  | tx (p j : Nat) | rx (p j : Nat)
  | peTx (j : Nat) | peRx (j : Nat) | peRefclk | perst
  | esl (j : Nat) | estep
  | out (i : Nat) | calOut
  | refclk | altref | ppsA | ppsB
  | trigIn | trigOut
  | lock | lf | zqCal | tdiode | hbOut | alert
  | queen | resetN | ssck | ssel | smosi | smiso
  | tck | tms | tdi | tdo | trst | testEn
  deriving DecidableEq, Repr

/-- What a ball carries: the P leg of a pair or a single signal, the N leg, or a supply. -/
inductive Ball where
  | p (s : Signal)
  | n (s : Signal)
  | vss | core | sram | tdc | serdes | serdesHv | pll | hv
  deriving DecidableEq, Repr

/-- The number of channel `m` of region `n`. -/
def chanOf (n m : Nat) : Signal := .ch (12 * n + m)

/-- The five balls of a channel row or column, from the package edge inwards: the even channel's P and N, the shield, the odd channel's P and N
(R459); `i` counts pairs within region `n`. -/
def channelBalls (n i : Nat) : List Ball :=
  [.p (chanOf n (2 * i)), .n (chanOf n (2 * i)), .vss, .p (chanOf n (2 * i + 1)), .n (chanOf n (2 * i + 1))]

/-- A row of a corner, from the package edge inwards (R460): lanes 0 and 1 of port `p`, sent or received. -/
def cornerBalls (tx : Bool) (p : Nat) : List Ball :=
  let lane := fun j => if tx then Signal.tx p j else Signal.rx p j
  [.p (lane 0), .n (lane 0), .vss, .p (lane 1), .n (lane 1)]

/-- Rows A to G, columns 6 to 17 (Table 17-5). -/
def topBalls : Nat → List Ball
  | 1 => [.p (.peRx 0), .n (.peRx 0), .vss, .p (.peRx 1), .n (.peRx 1), .vss, .p (.peRx 2), .n (.peRx 2), .vss, .p (.peRx 3), .n (.peRx 3), .vss]
  | 2 => [.p (.peTx 0), .n (.peTx 0), .p (.peTx 1), .n (.peTx 1), .p .peRefclk, .n .peRefclk, .p .perst, .vss, .p (.peTx 2), .n (.peTx 2),
      .p (.peTx 3), .n (.peTx 3)]
  | 3 => [.p (.esl 0), .n (.esl 0), .p (.esl 1), .n (.esl 1), .vss, .p .estep, .n .estep, .vss, .p (.esl 2), .n (.esl 2), .p (.esl 3), .n (.esl 3)]
  | 4 => (List.range 6).flatMap fun i => [.p (.out i), .n (.out i)]
  | 5 => [.p .calOut, .n .calOut, .vss, .p .refclk, .n .refclk, .vss, .p .altref, .n .altref, .vss, .p .trigIn, .n .trigIn, .p .zqCal]
  | 6 => [.p .trigOut, .n .trigOut, .p .lock, .p .lf, .n .lf, .vss, .p .ppsA, .p .ppsB, .p .tdiode, .n .tdiode, .p .hbOut, .p .alert]
  | _ => [.p .queen, .p .resetN, .p .ssck, .p .ssel, .p .smosi, .p .smiso, .p .tck, .p .tms, .p .tdi, .p .tdo, .p .trst, .p .testEn]

/-- Rows H to V, columns 6 to 17 (Table 17-6). -/
def coreBalls : Nat → List Ball
  | 8 | 9 => [.serdesHv, .serdes, .serdes, .vss, .serdes, .pll, .pll, .serdes, .vss, .serdes, .serdes, .serdesHv]
  | 12 | 15 => [.tdc, .hv, .vss, .core, .core, .vss, .sram, .core, .vss, .core, .hv, .tdc]
  | 17 => [.tdc, .core, .vss, .core, .sram, .vss, .core, .sram, .vss, .core, .core, .tdc]
  | _ => [.tdc, .hv, .vss, .core, .sram, .vss, .core, .sram, .vss, .core, .hv, .tdc]

/-- Columns 1 to 5 of row `r`, from the edge inwards; columns 22 to 18 mirror them with regions 5 to 7 and ports L2 and L3 (R459, R460). -/
def sideBalls (r : Nat) (right : Bool) : List Ball :=
  if r ≤ 18 then let n := (r - 1) / 6; channelBalls (if right then 7 - n else n) ((r - 1) % 6)
  else cornerBalls (r % 2 == 1) ((r - 19) / 2 + (if right then 2 else 0))

/-- The ball in row `r`, 1 for A to 22 for AC, and column `c` (R458). -/
def ballAt (r c : Nat) : Ball :=
  if c ≤ 5 then (sideBalls r false).getD (c - 1) .vss
  else if 18 ≤ c then (sideBalls r true).getD (22 - c) .vss
  else if r ≤ 7 then (topBalls r).getD (c - 6) .vss
  else if r ≤ 17 then (coreBalls r).getD (c - 6) .vss
  else (channelBalls (if c ≤ 11 then 3 else 4) ((c - 6) % 6)).getD (22 - r) .vss

/-- The cells that a signal has, its data cell and a control cell that follows it (Table 17-13). -/
def Signal.cells : Signal → Nat
  | .lock | .lf | .zqCal | .tdiode | .testEn | .tck | .tms | .tdi | .tdo | .trst => 0
  | .out _ | .calOut | .trigOut | .hbOut | .smiso => 2
  | _ => 1

/-- Signals in ascending ball order, by row and then by column, a pair at its P ball (R476). -/
def ballOrder : List Signal :=
  ((List.range 22).flatMap fun r => (List.range 22).map fun c => ballAt (r + 1) (c + 1)).filterMap fun b =>
    match b with
    | .p s => some s
    | _ => none

/-- The boundary-scan register: the signal of each cell, cell 0 first, which lies nearest TDO. -/
def scanCells : List Signal := ballOrder.flatMap fun s => List.replicate s.cells s

/-- The data cell of a signal. -/
def Signal.cell (s : Signal) : Option Nat := scanCells.findIdx? (· == s)

end Sys2Proof.Machine
end

