-- ==== Sys2Proof/Machine/Pins.lean ====
section
/-! DEFINITION. What the part drives on its outputs: the LOCK ball, HB_OUT, ALERT_N, TRIG_OUT, SMISO, the synthesizers' pairs and the transmitters,
as the state gives them, and what its inputs show the lines (R62, R75, R87, R94, R216, R309, R354, R355, R357, R419, R447, R448, R455, R463, R475, R476;
Tables 3-4, 16-4, 17-7, 17-9). -/
namespace Sys2Proof.Machine
open Sys2Proof

/-- What a ball or a pair drives: a level (of a pair, that of P with N opposite), nothing, a current sink of 180 µA, a clock of a frequency in Hz,
or what its boundary cells hold, data and where it has one control (R476). -/
inductive PinDrive where
  | highZ | low | high | sink
  | clock (f : Rat)
  | boundary (data : Bool) (control : Option Bool)
  deriving DecidableEq, Repr

def levelDrive (b : Bool) : PinDrive := if b then .high else .low

/-- What the boundary cells of a signal hold: bit `k` of the scan register is cell `k`. -/
def State.cellDrive (s : State) (x : Signal) : PinDrive :=
  match x.cell with
  | none => .highZ
  | some k => .boundary (s.tap.drive.getLsbD k) (if x.cells = 2 then some (s.tap.drive.getLsbD (k + 1)) else none)

/-- A rail is below its power-good level: no ball drives (R441). -/
def State.railLow (s : State) : Bool := s.power.noHv || s.power.noCore || s.power.noOther

/-- An output of Table 16-4: without power high impedance, under the test access port's holds what Table 17-12 gives, in reset `reset`, and
otherwise what its unit drives. -/
def State.drive (s : State) (x : Signal) (reset unit : PinDrive) : PinDrive :=
  if s.railLow then .highZ
  else if s.tap.instr = 0x05 then .highZ
  else if holdsPart s.tap.instr then s.cellDrive x
  else if s.live then unit else reset

/-- The reference cycle in progress is out of window (R61). -/
def State.cycleOut (s : State) : Bool := s.time.window.head?.any outOfWindow

/-- The LOCK ball, which has no boundary cell, sinks while LOCKED is 0, so in reset, while the power-on monitor holds it, and before the first lock too,
and for every reference cycle out of window; without VDD_HV (R62), as while any rail is below its power-good level (R441), it is high impedance. -/
def State.lockBall (s : State) : PinDrive :=
  if s.railLow || (s.live && s.bit tbPage TB.live_LOCKED && !s.cycleOut) then .highZ else .sink

/-- HB_OUT is a square wave of 250 ACLK cycles of 4 ns (R448). -/
def State.hbOut (s : State) : PinDrive := s.drive .hbOut .low (levelDrive (decide (s.power.heart / 4 % 250 < 125)))

/-- ALERT_N is open drain: it is driven low under R419. -/
def State.alertN (s : State) : PinDrive := s.drive .alert .low (if s.power.alerted then .low else .highZ)

/-- TRIG_OUT (R216); in the cluster state no pulse is in progress, so it has its inactive level. -/
def State.trigOutPin (s : State) : PinDrive := s.drive .trigOut .low (levelDrive s.trigOutLevel)

/-- An output at rest (R346). -/
def restDrive (hiz : Bool) : PinDrive := if hiz then .highZ else .low

/-- What synthesizer `i` drives: a clock while its output toggles, else its rest; powered down before the first lock (R354, R357). -/
def State.synDrive (s : State) (i : Nat) : PinDrive :=
  if !s.bit tbPage TB.live_STARTED then .highZ
  else if s.bit (synPage i) SYN.live_OUT_ON then .clock (s.synNow i) else restDrive (s.bit (synPage i) SYN.CTRL_OFF_HIZ)

/-- OUTi. -/
def State.outPin (s : State) (i : Nat) : PinDrive := s.drive (.out i) .highZ (s.synDrive i)

/-- CAL_OUT follows the one synthesizer whose CAL is 1, and rests as OFF_HIZ 0 gives while there is none (R354). -/
def State.calOutPin (s : State) : PinDrive :=
  s.drive .calOut .highZ (match allSyns.find? fun i => s.bit (synPage i) SYN.live_CAL_ACTIVE with
    | some i => s.synDrive i
    | none => if !s.bit tbPage TB.live_STARTED then .highZ else .low)

/-- SMISO (R455): high impedance while SSEL_N is high; in a frame, before its first clock falls, the first bit of the response register. -/
def State.smisoPin (s : State) : PinDrive :=
  let d := if s.selected then levelDrive (s.svc.response.getLsbD 31) else .highZ
  s.drive .smiso d d

/-- What a transmitter does (Table 16-4), or what its boundary cell holds (R476). -/
inductive TxDrive where
  | unpowered | highZ | idle | off | l1 | active
  | boundary (data : Bool)
  deriving DecidableEq, Repr

/-- A transmitter of signal `x`: `unit` out of reset, electrically idle in reset; a boundary-scan instruction that holds the part drives it from its
cell, HIGHZ not at all (Tables 17-12, 17-13). -/
def State.txDrive (s : State) (x : Signal) (unit : TxDrive) : TxDrive :=
  if s.railLow then .unpowered
  else if s.tap.instr = 0x05 then .highZ
  else if holdsPart s.tap.instr then .boundary (x.cell.any fun k => s.tap.drive.getLsbD k)
  else if s.live then unit else .idle

/-- The transmitters of port `p`: off while the port is OFF, disabled or asleep (R276, R309). -/
def State.linkTx (s : State) (p j : Nat) : TxDrive :=
  s.txDrive (.tx p j) (if s.lstate p = lDown || s.lstate p = lDormant then .off else .active)

/-- The PCI Express transmitters: in the cluster state the link enters L1 when it is idle (R450). -/
def State.pcieTx (s : State) (j : Nat) : TxDrive := s.txDrive (.peTx j) (if s.inCluster then .l1 else .active)

/-! Inputs -/

/-- A pull of a ball, in kΩ (Table 17-7); a channel's holds with TERM 0. -/
inductive Pull where
  | none | toVss (k : Nat) | toHv (k : Nat)
  deriving DecidableEq, Repr

def Signal.pull : Signal → Pull
  | .ch _ | .ssck | .smosi | .tck | .testEn => .toVss 50
  | .ppsA | .ppsB => .toVss 100
  | .queen | .resetN | .ssel | .tms | .tdi | .trst => .toHv 50
  | _ => .none

/-- What an input shows its line: nothing, 100 Ω between the legs of a pair, a receiver that works or is off, a logic input, or what PCI Express asks. -/
inductive RxDrive where
  | highZ | ohms100 | receives | off | logic | standard
  deriving DecidableEq, Repr

/-- Channel `k` is in the loopback of a synthesizer (R355). -/
def State.looped (s : State) (k : Nat) : Bool :=
  allSyns.any fun i => (s.rd (synPage i + 0x05c + 4 * (k / 32))).getLsbD (k % 32)

/-- The termination of a channel's balls: the odd channel of a pair and a channel in loopback leave them high impedance (R75, R87, R355). -/
def State.chanTerm (s : State) (k : Nat) : RxDrive :=
  if !s.paired k && !s.looped k && s.bit (chPage k) CH.INPUT_TERM then .ohms100 else .highZ

/-- An input that works only out of reset: without power and in reset it is high impedance. -/
def State.rxLive (s : State) (on : RxDrive) : RxDrive := if s.railLow || !s.live then .highZ else on

/-- What input `x` shows its line; an output shows what `State.drive` tells. -/
def State.rxPin (s : State) (x : Signal) : RxDrive :=
  match x with
  | .ch k => s.rxLive (s.chanTerm k)
  | .refclk | .altref | .estep | .trigIn => s.rxLive .ohms100
  | .rx p _ => s.rxLive (if s.lstate p = lDown || s.lstate p = lDormant then .off else .receives)
  | .esl _ => s.rxLive (if s.asleep || !s.bit eslPage ESL.CTRL_EN then .off else .receives)
  | .peRefclk => s.rxLive .receives
  | .peRx _ => .standard
  | .perst | .ppsA | .ppsB | .queen | .resetN | .ssck | .ssel | .smosi | .tck | .tms | .tdi | .trst | .testEn => if s.railLow then .highZ else .logic
  | .tx .. | .peTx _ | .out _ | .calOut | .trigOut | .lock | .lf | .zqCal | .tdiode | .hbOut | .alert | .smiso | .tdo => .highZ

end Sys2Proof.Machine
end

