-- ==== Sys2Proof/Safety.lean ====
section
/-! DEFINITION. What a safe state is: every sparse table in its canonical form, so that equal contents are equal data, and the journal ring within
its 4,096 records (R407). -/
namespace Sys2Proof.Machine
open Sys2Proof

/-- Every table of the state is canonical: numbers strictly rising, no entry at its default. -/
structure State.Canonical (s : State) : Prop where
  regs : Tab.wf resetOf s.regs = true
  rcNew : Tab.wf (fun _ => none) s.rcNew = true
  shadows : Tab.wf (fun _ => none) s.shadows = true
  keys : Tab.wf (fun _ => false) s.keys = true
  streams : Tab.wf (fun _ => SrcState.init) s.streams = true
  store : Tab.wf (fun _ => Half.blank) s.store = true
  banks : Tab.wf (fun _ => BankAux.init) s.banks = true
  lanes : Tab.wf (fun _ => Lanes.init) s.lanes = true
  writers : Tab.wf (fun _ => Writer.empty) s.writers = true
  losses : Tab.wf (fun _ => []) s.losses = true
  chans : Tab.wf (fun _ => Chan.init) s.chans = true
  fifos : Tab.wf (fun _ => Fifo.empty) s.fifos = true
  cells : Tab.wf (fun _ => Cell.init) s.cells = true
  imem : Tab.wf (fun _ => IWord.init) s.imem = true
  scratch : Tab.wf (fun _ => SWord.init) s.scratch = true
  exch : Tab.wf (fun _ => ⟨Tagged.zero, false⟩) s.exch = true
  engines : Tab.wf (fun _ => ⟨false, 0, false⟩) s.engines = true
  regions : Tab.wf (fun _ => RegionRun.init) s.regions = true
  quals : Tab.wf (fun _ => Qual.init) s.quals = true
  winCur : Tab.wf (fun _ => RegWin.empty) s.winCur = true
  winShown : Tab.wf (fun _ => RegWin.empty) s.winShown = true
  caps : Tab.wf (fun _ => Cap.init) s.caps = true
  openGroups : Tab.wf (fun _ => []) s.openGroups = true
  links : Tab.wf (fun _ => LinkSt.init) s.links = true
  remotes : Tab.wf (fun _ => Remote.init) s.remotes = true
  doms : Tab.wf (fun _ => Dom.init) s.doms = true
  pps : Tab.wf (fun _ => none) s.pps = true
  syns : Tab.wf (fun _ => Syn.init) s.syns = true
  dma : Tab.wf (fun _ => DmaCh.empty) s.dma = true
  msix : Tab.wf (fun _ => MsixEntry.init) s.msix.table = true

/-- The invariant of the machine. -/
structure State.Inv (s : State) : Prop where
  canonical : s.Canonical
  journal : recsOf s.journal ≤ 4096

/-- What the outside has not yet seen stays in order: `t` has sent what `s` sent, and perhaps more. -/
def State.SentMore (s t : State) : Prop := s.out <+: t.out

end Sys2Proof.Machine
end

