-- ==== Sys2Proof/Claims.lean ====
section
/-! DEFINITION. The words that the claims use: when a unit acts in this cycle, and how one state differs from another. -/
namespace Sys2Proof.Machine
open Sys2Proof

/-! Reference cycles -/

/-- None of these reference cycles, which follow those of the count `w`, shows a loss (R64). -/
def quietCycles : List (BitVec 12) → List (BitVec 12) → Bool
  | _, [] => true
  | w, e :: l => (cycleLoss w e).isNone && quietCycles (countCycle false w e) l

/-- Reference cycles `l`, and after them one more, or the edge that is missing. -/
def lossAfter (l : List (BitVec 12)) : Option (BitVec 12) → LossCause
  | none => .noEdge l
  | some e => .phases (l ++ [e])

/-! Cells -/

/-- In this TCLK cycle cell `c` fetches instruction `i` (R169, R171, R172): its region executes, the cell runs and has not executed its instruction of
this slot, and the word at the slot's address passes parity and decodes to `i`. No capture waits to end the run. -/
structure State.Fetches (s : State) (c : Nat) (i : CellInstr) : Prop where
  canonical : s.Canonical
  live : s.live = true
  executes : s.executes (cellRegion c) = true
  runs : (s.cell c).stopAt = none
  once : (s.cell c).ranAt ≠ some s.time.tclk
  intact : (s.iword c (s.slot (cellRegion c))).bad = false
  clean : s.injectArmed 3 c = false
  decodes : decodeInstr (s.iword c (s.slot (cellRegion c))).word = some i
  calm : s.run.endRun = none

/-- It executes: its guard lets it run (`gp`: the guard is poisoned, R168), and its register fields are aligned. -/
structure State.Issues (s : State) (c : Nat) (i : CellInstr) (gp : Bool) : Prop extends s.Fetches c i where
  guard : (s.cellNow c).guardOf i = some gp
  aligned : i.op.misaligned = false

/-- A cell that has executed the instruction of cycle `t`, with the results that wait for the end of their cycles. -/
def Cell.issued (x : Cell) (t : Nat) (l : List (Nat × Item)) : Cell := { x with ranAt := some t, landing := x.landing ++ l }

/-- Only cell `c` has changed, to `x`. -/
def OnlyCell (s t : State) (c : Nat) (x : Cell) : Prop := t = { s with cells := t.cells } ∧ t.cell c = x ∧ ∀ j, j ≠ c → t.cell j = s.cell j

/-- The command that stands for the execution of an operation. -/
def CellOp.command (o : CellOp) (c : Fin 1024) : Instr :=
  match o with
  | .nop => .nop c
  | .openSlot => .openSlot c
  | .logic .. => .logicOp c
  | .arith op .. =>
    ([Instr.add, .subW, .mov, .shl, .shr, .sar, .mulu, .muls, .macu, .cmpeq, .cmpltu, .cmplts, .clz, .dstep, .ptst, .pget, .pput, .rdc, .wrc].getD op .wrc) c
  | .imm iop .. => ([Instr.ldi, .addi, .adci, .andi, .ori, .xori].getD iop .xori) c
  | .take _ _ _ mode => ([Instr.takePop, .takeCopy, .takeDiscard].getD mode .takeDiscard) c
  | .put .. => .putRec c
  | .timer top .. => ([Instr.tld, .tgo, .thlt, .trd, .tadd, .tsub, .tz, .tge, .tclr, .tldgo].getD top .tldgo) c
  | .nrd .. => .nrd c
  | .rsnd .. => .rsnd c
  | .rrcv .. => .rrcv c
  | .csnd .. => .csnd c
  | .crcv .. => .crcv c
  | .sld .. => .sld c false
  | .sst .. => .sst c
  | .xin .. => .xin c
  | .evt .. => .evt c
  | .bxfer .. => .bxfer c
  | .btst .. => .btst c

/-- Whenever cell `c` issues `op`, the command `mk c` completes: it changes that cell alone, which becomes `out` of the state, of the cell as it stands at
the start of the slot and of the guard's poison. -/
def Yields (mk : Fin 1024 → Instr) (op : CellOp) (out : State → Cell → Bool → Cell) : Prop :=
  ∀ (s : State) (c : Fin 1024) (neg : Bool) (g : Nat) (gp : Bool), s.Issues c ⟨neg, g, op⟩ gp →
    ∃ t, exec (mk c) s = .next t ∧ OnlyCell s t c (out s (s.cellNow c) gp)

/-- A take of cell `c` from local FIFO `f` is the first one of its slot, and no lower cell of the block pops that FIFO in the slot (R176, R185). -/
structure State.FirstTake (s : State) (c f : Nat) : Prop where
  enabled : bitOf (s.fld (blkPage (c / 16)) BLK.FIFO_CFG_EN) f = true
  first : ∀ x ∈ s.use.takes, x ≠ 12 * (c / 16) + f
  unseen : ∀ p ∈ s.use.oldest, p.1 ≠ 12 * (c / 16) + f
  alone : ∀ j < c % 16, s.willPop (c / 16 * 16 + j) f = false

/-- The scratch port of a block is free in this slot, and no store waits to land (R189). -/
def State.PortFree (s : State) (g port : Nat) : Prop := (2 * g + port) ∉ s.use.ports ∧ ∀ x ∈ s.stores, s.time.tclk ≤ x.cycle

/-- The record writer of region `n` takes a put of block `g` that opens no group and continues none: the region records, the writer has a ring, room and no
freeze, and the block has made no put in this slot and holds no open group (R177, R253, R254, R271). -/
structure State.TakesPut (s : State) (g : Nat) : Prop where
  recording : s.recording (g / 8) = true
  ring : s.hasRing (g / 8) = true
  unfrozen : s.recFrozen (g / 8) = false
  room : s.putHeld (g / 8) + 1 ≤ 256
  once : g ∉ s.use.puts
  closed : s.openGroup g = []

/-- A word of a tagged pair of registers, the high word in the odd one (R174, R178). -/
def Cell.wide (x : Cell) (r : Nat) : BitVec 36 := (x.reg (r + 1)).val ++ (x.reg r).val

/-- The poison tag of a pair of registers. -/
def Cell.widePoison (x : Cell) (r : Nat) : Bool := (x.reg (r + 1)).poison || (x.reg r).poison

/-- The carry that an operation with CC uses. -/
def Cell.carryIn (x : Cell) (cc : Bool) : Bool := cc && x.carry.val

/-- The results of the pair of registers {Gd+1, Gd} that land at the end of cycle `t`. -/
def pairLands (t d : Nat) (v : BitVec 36) (p : Bool) : List (Nat × Item) :=
  [(t, .reg d ⟨v.extractLsb' 0 18, p⟩), (t, .reg (d + 1) ⟨v.extractLsb' 18 18, p⟩)]

/-! Commands of the run -/

/-- A host write of command `code` with identifier `id` to CHIP.CMD is accepted at once (R47, R404, R405): the part answers, nothing that the cycle
orders before the command waits, no command is pending, the identifier is not that of the last accepted command, and the present state permits the
command. -/
structure State.Accepts (s : State) (code : Nat) (id : BitVec 8) : Prop where
  canonical : s.Canonical
  live : s.hostLive = true
  free : s.run.pendingCmd = none
  first : s.cmdWaits .pcie = false
  fresh : s.run.lastId ≠ some id
  permitted : s.permitted code = true

/-- The host's commands with their codes (Table 1-9). -/
def runCommands : List (Nat × (BitVec 8 → Instr)) :=
  [(1, .cmdLoad), (2, .cmdArm), (3, .cmdStart), (4, .cmdStop), (5, .cmdAbort), (6, .cmdResetRun), (7, .cmdCluster), (8, .cmdWake)]

/-- CMD_STATUS: code, outcome, identifier and cause (Table 13-5). -/
def statusWord (code outcome : Nat) (id : BitVec 8) (cause : Nat) : Dword := BitVec.ofNat 32 (code + 16 * outcome + 2 ^ 8 * id.toNat + 2 ^ 16 * cause)

/-! Pools -/

/-- Converter `j` of the pool of channel `k` can take an edge in this cycle: it is active, and an edge it took lies 12 cycles back or more (R101). -/
def State.canTake (s : State) (k j : Nat) : Prop :=
  ((s.chan k).conv j).role = .active ∧ ∀ m, ((s.chan k).conv j).busy = some m → m + 12 ≤ s.time.tclk

/-- Nothing that a command leaves behind ends or stops the run: no capture waits to end it, and it is not STOPPING. -/
def State.Calm (s : State) : Prop := s.run.endRun = none ∧ s.runState ≠ .stopping

/-! Frames -/

/-- A whole frame, with a good CRC word and a TYPE of Table 9-3, reaches port `p`, whose link is up (R284, R287). -/
structure State.Hears (s : State) (p : Nat) (hd : Head) : Prop where
  canonical : s.Canonical
  live : s.live = true
  awake : s.inCluster = false
  up : 2 ≤ s.lstate p
  good : hd.good = true
  known : hd.known = true

/-- The state once port `p` has taken a reliable frame: its ACK field has been acted upon, its SEQ is the last one in order, and it is to be
acknowledged (R285). -/
def State.taken (s : State) (p : Nat) (hd : Head) : State :=
  ((s.takeAck p hd.ack).modLink p fun l => { l with rx := hd.seq }).oweAck p

/-- A reliable frame reaches port `p` as the next in order, and its link is neither quarantined, held nor dormant (R285, R289, R291, R309). -/
structure State.Takes (s : State) (p : Nat) (hd : Head) : Prop extends s.Hears p hd where
  open_ : s.lstate p ≤ 4
  next : hd.seq = ((s.takeAck p hd.ack).link p).rx + 1

/-- A frame as port `p` sends it: header, payload and the CRC word over both (R284). -/
def frameOut (p : Nat) (f : Frame) : Out := .frame p f (f.words ++ [frameCrc f.words])

/-- Port `p` holds a reliable frame of this payload, sent and not acknowledged or waiting to be sent (R285). -/
def State.posts (s : State) (p : Nat) (x : Payload) : Prop :=
  (∃ u ∈ (s.link p).unacked, u.frame.payload = x) ∨ ∃ f ∈ (s.link p).waiting, f.payload = x

/-- The command that brings a reliable frame. -/
def rxCommand (p : Fin 4) (hd : Head) : Payload → Option Instr
  | .join o u => some (.joinRx p hd o u)
  | .joinReply o ok e => some (.joinReplyRx p hd o ok e)
  | .trigger t => some (.triggerFrameRx p hd t)
  | .command c => some (.commandFrameRx p hd c)
  | .reply r => some (.replyFrameRx p hd r)
  | .event e => some (.eventFrameRx p hd e)
  | .lentEnter b f => some (.lentEnterRx p hd b f)
  | .lentGrant b ok => some (.lentGrantRx p hd b ok)
  | .lentLine b l r0 r1 => some (.lentLineRx p hd b l r0 r1)
  | _ => none

/-! Registers -/

/-- The newest group of the journal of `t` is this entry, without a command's identifier, stamped with the time of `s` (R249, R407). -/
def State.Logged (t s : State) (k : JKind) (a : Agent) (addr : Nat) (o : JOut) (v : Nat) : Prop :=
  ∃ seq, t.journal.getLast? = some (headRec 8 122 o.noEffect seq s.now :: contRecs 122 seq
    [⟨k.code * 2 ^ 12 + agentCode a * 2 ^ 10 + b2n s.coarse * 2 ^ 9 + b2n s.holdover * 2 ^ 8, addr / 2 ^ 18 % 64, addr⟩, ⟨o.code * 2 ^ 14, v / 2 ^ 18 % 2 ^ 14, v⟩])

/-- A host write reaches the register `row` at `addr`, in page `i` of type `p`, past its common header; nothing waits for the run (R361, R391). -/
structure State.Reaches (s : State) (addr : Nat) (p : PageType) (i : Nat) (row : RegRow) : Prop where
  canonical : s.Canonical
  live : s.hostLive = true
  calm : s.Calm
  quiet : s.swarm.runs = []
  page : pageOf addr = some (p, i)
  reg : regAt addr = some row
  body : 0x040 ≤ addr % 0x1000
  plain : p = .reg ∨ p = .blk ∨ p = .bank

/-! DMA -/

/-- Of the DMA channels only `c` may run. -/
def State.Alone (s : State) (c : Nat) : Prop := ∀ k < 8, k ≠ c → s.dState k ≠ dRunning

/-- What follows the current descriptor of channel `c` is known, or its fetch is under way (R375). -/
def State.Fetched (s : State) (c : Nat) : Prop :=
  s.dState c = dRunning → (s.dmaCh c).cur.isSome = true ∧ ((s.dmaCh c).fetching = true ∨ (s.dmaCh c).ahead.isSome = true ∨ (s.dmaCh c).atEnd = true)

/-- A host-to-store channel has asked for its whole descriptor (R379). -/
def State.Asked (s : State) (c : Nat) : Prop := 6 ≤ c → ∀ d, (s.dmaCh c).cur = some d → getBits d.dw0 0 24 ≤ (s.dmaCh c).asked

/-- A descriptor fetch of channel `c` can be issued (assumption 85). -/
def State.mayFetch (s : State) (c : Nat) : Bool := !s.engineFrozen c && decide (s.dmaOutstanding < 57)

/-- The host writes of `bs` from address `a` on, one for each block of `m` bytes that they touch (R378). -/
def payloads (m a : Nat) (bs : List (BitVec 8)) : List Out :=
  (List.range ((a % m + bs.length + m - 1) / m)).map fun j =>
    let b := max a ((a / m + j) * m)
    .hostWrite b ((bs.drop (b - a)).take (min (a + bs.length) ((a / m + j + 1) * m) - b))

/-! Cycles -/

/-- Nothing is left over from this TCLK cycle for its end: no jump, no capture trigger, no chip-level record, no held command, no role, no summary,
no checked frame, no slot 0, no access and no request waits, and no timebase reset is under way. -/
structure State.Quiet (s : State) : Prop where
  calm : s.Calm
  jumps : ∀ n < 8, (s.cap n).jumpDue = false
  stops : s.run.chipStops = []
  commands : s.run.heldCmds = []
  swarm : s.run.heldSwarm = []
  frames : s.esl.due = []
  accesses : s.heldAcc = []
  requests : s.reqs = []
  reset : s.time.resetDue = false
  offers : s.offers = []
  summaries : s.summaries = []
  slot0 : s.run.slotDue = false
  role : s.roleOf = s.isQueen

/-! What a command can touch -/

/-- Commands that hold the part in reset, or may (Tables 16-2, 17-12). -/
def resets : Instr → Bool
  | .railFail .. | .resetNAssert | .svcHold | .testEnHigh | .extest .. | .clamp | .highz | .extestPulse .. | .extestTrain .. => true
  | _ => false

/-- Host writes of a register that an operand names. -/
def writesByAddress : Instr → Bool
  | .keyUnlock .. | .shadowWrite .. | .freezeRelease .. | .registerWrite .. => true
  | _ => false

/-- Commands that move DTIME: the start of the timebase, the switch to the bypass source, the step of a member's acquisition (R50, R66, R294). -/
def movesTime : Instr → Bool
  | .timebaseStart .. | .bypassSwitch .. | .waggleRx .. | .acquisitionStep .. => true
  | _ => false

/-- Commands that may write a half of the store: engines, writers, lent lines, fills, the scrubber, the host window, DMA, the self-test; the end of
a handover or of a fill serves the requests that waited for it. -/
def writesStore : Instr → Bool
  | .bxferLine .. | .writerLineWrite .. | .padTimeout .. | .handoverDone .. | .fillDone .. | .scrubVisit .. | .scrubWriteback .. | .lentLineRx .. | .bar2Write .. | .dmaDataMove ..
  | .selfTestDone .. => true
  | _ => false

/-- Commands that may write an instruction memory: a load, a patch, the host's window, a parity error. -/
def writesImem : Instr → Bool
  | .loadComplete .. | .instructionParityError .. | .imemHiCommit .. | .patchCommit .. => true
  | _ => false

/-- Commands that may write a scratch memory: the cells' own, the engines, the host's window; the end of a handover or of a fill serves an engine
that waited. -/
def writesScratch : Instr → Bool
  | .sld .. | .sst .. | .bxferLine .. | .scratchWindowAccess .. | .rcRead .. | .handoverDone .. | .fillDone .. => true
  | _ => false

end Sys2Proof.Machine
end

