-- ==== Sys2Proof/Certificates/Slice0/Obligations.lean ====
section
/-! DEFINITION. The statements about this model that the provers are to prove. -/
open Sys2Proof Sys2Proof.Machine

/-! Cells -/

/-- R174, R175 (Tables 6-4, 6-5): ADD, SUB, MOV, LDI, ADDI and ADCI. Sums and differences are modulo 2^18, with the carry under CC; the carry out is the
carry or the borrow; MOV and LDI leave the carry. Every result has latency 1 and is poisoned by any poisoned source that it uses (R168).
Beyond the rules' own words it rests on the model's choices: assumptions 66, 67. -/
def Obligations.CellSums : Prop :=
  (∀ (cc : Bool) (d a b : Nat), Yields .add (.arith 0x00 cc d a b) fun s x gp =>
    let p := gp || (x.reg a).poison || (x.reg b).poison || (cc && x.carry.poison)
    x.issued s.time.tclk [(s.time.tclk, .reg d ⟨(x.reg a).val + (x.reg b).val + (BitVec.ofBool (x.carryIn cc)).setWidth 18, p⟩),
      (s.time.tclk, .carry ⟨decide (2 ^ 18 ≤ (x.reg a).val.toNat + (x.reg b).val.toNat + (x.carryIn cc).toNat), p⟩)])
  ∧ (∀ (cc : Bool) (d a b : Nat), Yields .subW (.arith 0x01 cc d a b) fun s x gp =>
    let p := gp || (x.reg a).poison || (x.reg b).poison || (cc && x.carry.poison)
    x.issued s.time.tclk [(s.time.tclk, .reg d ⟨(x.reg a).val - (x.reg b).val - (BitVec.ofBool (x.carryIn cc)).setWidth 18, p⟩),
      (s.time.tclk, .carry ⟨decide ((x.reg a).val.toNat < (x.reg b).val.toNat + (x.carryIn cc).toNat), p⟩)])
  ∧ (∀ (cc : Bool) (d a b : Nat), Yields .mov (.arith 0x02 cc d a b) fun s x gp =>
    x.issued s.time.tclk [(s.time.tclk, .reg d ⟨(x.reg a).val, gp || (x.reg a).poison⟩)])
  ∧ (∀ d i : Nat, Yields .ldi (.imm 0 d i) fun s x gp => x.issued s.time.tclk [(s.time.tclk, .reg d ⟨BitVec.ofNat 18 i, gp⟩)])
  ∧ (∀ d i : Nat, i < 2 ^ 18 → Yields .addi (.imm 1 d i) fun s x gp =>
    let p := gp || (x.reg d).poison
    x.issued s.time.tclk [(s.time.tclk, .reg d ⟨(x.reg d).val + BitVec.ofNat 18 i, p⟩),
      (s.time.tclk, .carry ⟨decide (2 ^ 18 ≤ (x.reg d).val.toNat + i), p⟩)])
  ∧ (∀ d i : Nat, i < 2 ^ 18 → Yields .adci (.imm 2 d i) fun s x gp =>
    let p := gp || (x.reg d).poison || x.carry.poison
    x.issued s.time.tclk [(s.time.tclk, .reg d ⟨(x.reg d).val + BitVec.ofNat 18 i + (BitVec.ofBool x.carry.val).setWidth 18, p⟩),
      (s.time.tclk, .carry ⟨decide (2 ^ 18 ≤ (x.reg d).val.toNat + i + x.carry.val.toNat), p⟩)])

/-- R170, R174 (Table 6-4): SHL, SHR and SAR by GB[4:0]. SHL and SHR give 0 from a shift of 18 on, SAR fills with GA[17]; the carry is the last bit
shifted out, 0 for a shift of 0, and above 18 it is 0 for SHL and SHR and GA[17] for SAR. MULU, MULS and MACU write a pair of registers, which lands
at the end of slot k + 1, latency 2; the carry of MACU lands with its pair. DSTEP makes one division step on {GD, GA} by GB, with latency 1. Beyond
the rules' own words it rests on the model's choices: assumptions 66, 67. -/
def Obligations.CellShiftsAndProducts : Prop :=
  (∀ (cc : Bool) (d a b : Nat), Yields .shl (.arith 0x03 cc d a b) fun s x gp =>
    let p := gp || (x.reg a).poison || (x.reg b).poison
    let n := (x.reg b).val.toNat % 32
    x.issued s.time.tclk [(s.time.tclk, .reg d ⟨(x.reg a).val <<< n, p⟩),
      (s.time.tclk, .carry ⟨decide (1 ≤ n ∧ n ≤ 18) && (x.reg a).val.getLsbD (18 - n), p⟩)])
  ∧ (∀ (cc : Bool) (d a b : Nat), Yields .shr (.arith 0x04 cc d a b) fun s x gp =>
    let p := gp || (x.reg a).poison || (x.reg b).poison
    let n := (x.reg b).val.toNat % 32
    x.issued s.time.tclk [(s.time.tclk, .reg d ⟨(x.reg a).val >>> n, p⟩),
      (s.time.tclk, .carry ⟨decide (1 ≤ n ∧ n ≤ 18) && (x.reg a).val.getLsbD (n - 1), p⟩)])
  ∧ (∀ (cc : Bool) (d a b : Nat), Yields .sar (.arith 0x05 cc d a b) fun s x gp =>
    let p := gp || (x.reg a).poison || (x.reg b).poison
    let n := (x.reg b).val.toNat % 32
    x.issued s.time.tclk [(s.time.tclk, .reg d ⟨(x.reg a).val.sshiftRight n, p⟩),
      (s.time.tclk, .carry ⟨if 18 < n then (x.reg a).val.msb else decide (1 ≤ n) && (x.reg a).val.getLsbD (n - 1), p⟩)])
  ∧ (∀ (cc : Bool) (d a b : Nat), Yields .mulu (.arith 0x06 cc d a b) fun s x gp =>
    x.issued s.time.tclk (pairLands (s.time.tclk + 1) d ((x.reg a).val.setWidth 36 * (x.reg b).val.setWidth 36)
      (gp || (x.reg a).poison || (x.reg b).poison)))
  ∧ (∀ (cc : Bool) (d a b : Nat), Yields .muls (.arith 0x07 cc d a b) fun s x gp =>
    x.issued s.time.tclk (pairLands (s.time.tclk + 1) d ((x.reg a).val.signExtend 36 * (x.reg b).val.signExtend 36)
      (gp || (x.reg a).poison || (x.reg b).poison)))
  ∧ (∀ (cc : Bool) (d a b : Nat), Yields .macu (.arith 0x08 cc d a b) fun s x gp =>
    let p := gp || (x.reg a).poison || (x.reg b).poison || (cc && x.carry.poison) || x.widePoison d
    let v := (x.wide d).toNat + (x.reg a).val.toNat * (x.reg b).val.toNat + (x.carryIn cc).toNat
    x.issued s.time.tclk (pairLands (s.time.tclk + 1) d (BitVec.ofNat 36 v) p ++ [(s.time.tclk + 1, .carry ⟨decide (2 ^ 36 ≤ v), p⟩)]))
  ∧ (∀ (cc : Bool) (d a b : Nat), Yields .dstep (.arith 0x0d cc d a b) fun s x gp =>
    let p := gp || (x.reg a).poison || (x.reg b).poison || (x.reg d).poison
    let v := 2 * (x.reg d).val.toNat + (x.reg a).val.msb.toNat
    let q := decide ((x.reg b).val.toNat ≤ v)
    x.issued s.time.tclk [(s.time.tclk, .reg d ⟨BitVec.ofNat 18 (v - q.toNat * (x.reg b).val.toNat), p⟩),
      (s.time.tclk, .reg a ⟨(x.reg a).val <<< 1 + (BitVec.ofBool q).setWidth 18, p⟩), (s.time.tclk, .carry ⟨q, p⟩)])

/-- R174 (Table 6-4): CMPEQ, CMPLTU and CMPLTS write their verdict to a predicate and to the carry, chained with the carry under CC; PTST reads the
poison tag of GA, which does not poison the result. Beyond the rules' own words it rests on the model's choices: assumptions 66, 67. -/
def Obligations.CellCompares : Prop :=
  (∀ (cc : Bool) (d a b : Nat), Yields .cmpeq (.arith 0x09 cc d a b) fun s x gp =>
    let p := gp || (x.reg a).poison || (x.reg b).poison || (cc && x.carry.poison)
    let r := decide ((x.reg a).val = (x.reg b).val) && (!cc || x.carry.val)
    x.issued s.time.tclk [(s.time.tclk, .pred d ⟨r, p⟩), (s.time.tclk, .carry ⟨r, p⟩)])
  ∧ (∀ (cc : Bool) (d a b : Nat), Yields .cmpltu (.arith 0x0a cc d a b) fun s x gp =>
    let p := gp || (x.reg a).poison || (x.reg b).poison || (cc && x.carry.poison)
    let r := (x.reg a).val.ult (x.reg b).val || (x.carryIn cc && decide ((x.reg a).val = (x.reg b).val))
    x.issued s.time.tclk [(s.time.tclk, .pred d ⟨r, p⟩), (s.time.tclk, .carry ⟨r, p⟩)])
  ∧ (∀ (cc : Bool) (d a b : Nat), Yields .cmplts (.arith 0x0b cc d a b) fun s x gp =>
    let p := gp || (x.reg a).poison || (x.reg b).poison || (cc && x.carry.poison)
    let r := (x.reg a).val.slt (x.reg b).val || (x.carryIn cc && decide ((x.reg a).val = (x.reg b).val))
    x.issued s.time.tclk [(s.time.tclk, .pred d ⟨r, p⟩), (s.time.tclk, .carry ⟨r, p⟩)])
  ∧ (∀ (cc : Bool) (d a b : Nat), Yields .ptst (.arith 0x0e cc d a b) fun s x gp =>
    x.issued s.time.tclk [(s.time.tclk, .pred d ⟨(x.reg a).poison, gp⟩)])

/-- R173, R174, R175: LOGIC takes bit TT[4a + 2b + c] of its truth table at every bit position, on registers or on predicates; ANDI, ORI and XORI
combine GD with the immediate; CLZ counts leading zeros; PGET and PPUT move sixteen predicates; RDC and WRC move the carry. Beyond the rules' own
words it rests on the model's choices: assumptions 66, 67. -/
def Obligations.CellLogic : Prop :=
  (∀ tt d a b : Nat, ∀ (s : State) (c : Fin 1024) (neg : Bool) (g : Nat) (gp : Bool), s.Issues c ⟨neg, g, .logic tt false d a b⟩ gp →
    let x := s.cellNow c
    ∃ t v, exec (.logicOp c) s = .next t
      ∧ OnlyCell s t c (x.issued s.time.tclk [(s.time.tclk, .reg d ⟨v, gp || (x.reg a).poison || (x.reg b).poison || (x.reg d).poison⟩)])
      ∧ ∀ i < 18, v.getLsbD i = tt.testBit (4 * ((x.reg a).val.getLsbD i).toNat + 2 * ((x.reg b).val.getLsbD i).toNat + ((x.reg d).val.getLsbD i).toNat))
  ∧ (∀ tt d a b : Nat, Yields .logicOp (.logic tt true d a b) fun s x gp =>
    x.issued s.time.tclk [(s.time.tclk, .pred d ⟨tt.testBit (4 * (x.pred a).val.toNat + 2 * (x.pred b).val.toNat + (x.pred d).val.toNat),
      gp || (x.pred a).poison || (x.pred b).poison || (x.pred d).poison⟩)])
  ∧ (∀ d i : Nat, Yields .andi (.imm 3 d i) fun s x gp =>
    x.issued s.time.tclk [(s.time.tclk, .reg d ⟨(x.reg d).val &&& BitVec.ofNat 18 i, gp || (x.reg d).poison⟩)])
  ∧ (∀ d i : Nat, Yields .ori (.imm 4 d i) fun s x gp =>
    x.issued s.time.tclk [(s.time.tclk, .reg d ⟨(x.reg d).val ||| BitVec.ofNat 18 i, gp || (x.reg d).poison⟩)])
  ∧ (∀ d i : Nat, Yields .xori (.imm 5 d i) fun s x gp =>
    x.issued s.time.tclk [(s.time.tclk, .reg d ⟨(x.reg d).val ^^^ BitVec.ofNat 18 i, gp || (x.reg d).poison⟩)])
  ∧ (∀ (cc : Bool) (d a b : Nat) (s : State) (c : Fin 1024) (neg : Bool) (g : Nat) (gp : Bool), s.Issues c ⟨neg, g, .arith 0x0c cc d a b⟩ gp →
    let x := s.cellNow c
    ∃ t r, exec (.clz c) s = .next t ∧ r ≤ 18
      ∧ OnlyCell s t c (x.issued s.time.tclk [(s.time.tclk, .reg d ⟨BitVec.ofNat 18 r, gp || (x.reg a).poison⟩)])
      ∧ (∀ i < 18, 18 - r ≤ i → (x.reg a).val.getLsbD i = false) ∧ (r < 18 → (x.reg a).val.getLsbD (17 - r) = true))
  ∧ (∀ (cc : Bool) (d a b : Nat) (s : State) (c : Fin 1024) (neg : Bool) (g : Nat) (gp : Bool), s.Issues c ⟨neg, g, .arith 0x0f cc d a b⟩ gp →
    let x := s.cellNow c
    ∃ t v, exec (.pget c) s = .next t
      ∧ OnlyCell s t c (x.issued s.time.tclk [(s.time.tclk, .reg d ⟨v, gp || (List.range 16).any fun i => (x.pred (16 * b + i)).poison⟩)])
      ∧ ∀ i < 18, v.getLsbD i = (decide (i < 16) && (x.pred (16 * b + i)).val))
  ∧ (∀ (cc : Bool) (d a b : Nat), Yields .pput (.arith 0x10 cc d a b) fun s x gp =>
    x.issued s.time.tclk ((List.range 16).map fun i => (s.time.tclk, .pred (16 * d + i) ⟨(x.reg a).val.getLsbD i, gp || (x.reg a).poison⟩)))
  ∧ (∀ (cc : Bool) (d a b : Nat), Yields .rdc (.arith 0x11 cc d a b) fun s x gp =>
    x.issued s.time.tclk [(s.time.tclk, .reg d ⟨(BitVec.ofBool x.carry.val).setWidth 18, gp || x.carry.poison⟩)])
  ∧ (∀ (cc : Bool) (d a b : Nat), Yields .wrc (.arith 0x12 cc d a b) fun s x gp =>
    x.issued s.time.tclk [(s.time.tclk, .carry ⟨(x.reg a).val.getLsbD 0, gp || (x.reg a).poison⟩)])

/-- R172: an instruction whose guard is false is a no-op, whatever its operation: it takes its slot and nothing else changes. NOP and OPEN are the
encodings whose guard is never true. Beyond the rules' own words it rests on the model's choices: assumption 67. -/
def Obligations.CellGuards : Prop :=
  (∀ (s : State) (c : Fin 1024) (i : CellInstr), s.Fetches c i → (s.cellNow c).guardOf i = none →
    ∃ t, exec (i.op.command c) s = .next t ∧ OnlyCell s t c ((s.cellNow c).issued s.time.tclk []))
  ∧ (∀ (s : State) (c : Fin 1024) (i : CellInstr), s.Fetches c i → i.op = .nop →
    ∃ t, exec (.nop c) s = .next t ∧ OnlyCell s t c ((s.cellNow c).issued s.time.tclk []))
  ∧ (∀ (s : State) (c : Fin 1024) (i : CellInstr), s.Fetches c i → i.op = .openSlot →
    ∃ t, exec (.openSlot c) s = .next t ∧ OnlyCell s t c ((s.cellNow c).issued s.time.tclk []))

/-- R178 (Table 6-6): the ten TIMER operations on a unit whose value in this slot is `v`. TLD, TCLR and THLT stop a timer, TGO and TLDGO start it
(TGO leaves one alone that is counting), TADD and TSUB saturate and say so in PP, TZ and TGE compare, TRD reads into a pair. A timer that a TLDGO of
cycle k loads with v has the value v - j in cycle k + 1 + j: it reads 0 from cycle k + v + 1 on. R170, R178: a started timer that reads 0 stops. A
result whose cycle has come lands in its register, in its predicate (but a result for P31 is discarded) or in the carry; one whose cycle is yet to
come waits. Nothing else changes. Beyond the rules' own words it rests on the model's choices: assumptions 2, 51, 67. -/
def Obligations.CellTimers : Prop :=
  (∀ u p g i : Nat, Yields .tld (.timer 0 u p g i) fun s x gp => (x.setUnit u ⟨x.wide g, gp || x.widePoison g, false, 0⟩).issued s.time.tclk [])
  ∧ (∀ u p g i : Nat, Yields .tgo (.timer 1 u p g i) fun s x gp =>
    let v := (x.unit u).at s.time.tclk
    let z := gp || (x.unit u).poison
    if (x.unit u).started ∧ v ≠ 0 then (x.setUnit u ⟨(x.unit u).val, z, true, (x.unit u).since⟩).issued s.time.tclk []
    else (x.setUnit u ⟨BitVec.ofNat 36 v, z, v != 0, s.time.tclk + 1⟩).issued s.time.tclk [])
  ∧ (∀ u p g i : Nat, Yields .thlt (.timer 2 u p g i) fun s x gp =>
    (x.setUnit u ⟨BitVec.ofNat 36 ((x.unit u).at s.time.tclk), gp || (x.unit u).poison, false, 0⟩).issued s.time.tclk [])
  ∧ (∀ u p g i : Nat, Yields .trd (.timer 3 u p g i) fun s x gp =>
    (x.setUnit u (x.unit u)).issued s.time.tclk (pairLands s.time.tclk g (BitVec.ofNat 36 ((x.unit u).at s.time.tclk)) (gp || (x.unit u).poison)))
  ∧ (∀ u p g i : Nat, Yields .tadd (.timer 4 u p g i) fun s x gp =>
    let v := (x.unit u).at s.time.tclk + i
    let z := gp || (x.unit u).poison
    (x.setUnit u ⟨BitVec.ofNat 36 (min v (2 ^ 36 - 1)), z, false, 0⟩).issued s.time.tclk [(s.time.tclk, .pred p ⟨decide (2 ^ 36 ≤ v), z⟩)])
  ∧ (∀ u p g i : Nat, Yields .tsub (.timer 5 u p g i) fun s x gp =>
    let v := (x.unit u).at s.time.tclk
    let z := gp || (x.unit u).poison
    (x.setUnit u ⟨BitVec.ofNat 36 (v - i), z, false, 0⟩).issued s.time.tclk [(s.time.tclk, .pred p ⟨decide (v < i), z⟩)])
  ∧ (∀ u p g i : Nat, Yields .tz (.timer 6 u p g i) fun s x gp =>
    (x.setUnit u (x.unit u)).issued s.time.tclk [(s.time.tclk, .pred p ⟨decide ((x.unit u).at s.time.tclk = 0), gp || (x.unit u).poison⟩)])
  ∧ (∀ u p g i : Nat, Yields .tge (.timer 7 u p g i) fun s x gp =>
    (x.setUnit u (x.unit u)).issued s.time.tclk
      [(s.time.tclk, .pred p ⟨decide ((x.wide g).toNat ≤ (x.unit u).at s.time.tclk), gp || (x.unit u).poison || x.widePoison g⟩)])
  ∧ (∀ u p g i : Nat, Yields .tclr (.timer 8 u p g i) fun s x gp => (x.setUnit u ⟨0, gp, false, 0⟩).issued s.time.tclk [])
  ∧ (∀ u p g i : Nat, Yields .tldgo (.timer 9 u p g i) fun s x gp =>
    (x.setUnit u ⟨x.wide g, gp || x.widePoison g, x.wide g != 0, s.time.tclk + 1⟩).issued s.time.tclk [])
  ∧ (∀ (w : BitVec 36) (p : Bool) (k j : Nat), (⟨w, p, w != 0, k + 1⟩ : CellUnit).at (k + 1 + j) = w.toNat - j)
  ∧ (∀ (s : State) (c : Fin 1024) (u : Fin 2), s.Canonical → ((s.cell c).unit u).started = true → ((s.cell c).unit u).at s.time.tclk = 0 →
    ∃ t, exec (.timerExpire c u) s = .next t ∧ OnlyCell s t c ((s.cell c).setUnit u ⟨0, ((s.cell c).unit u).poison, false, 0⟩))
  ∧ (∀ (s : State) (c : Fin 1024) (n r : Nat) (v : Tagged), s.Canonical → (s.cell c).landing = [(n, .reg r v)] → n < s.time.tclk →
    ∃ t, exec (.resultLand c) s = .next t
      ∧ OnlyCell s t c { s.cell c with regs := Tab.set (fun _ => Tagged.zero) (s.cell c).regs r v, landing := [] })
  ∧ (∀ (s : State) (c : Fin 1024) (n r : Nat) (v : TaggedBit), s.Canonical → (s.cell c).landing = [(n, .pred r v)] → n < s.time.tclk →
    ∃ t, exec (.resultLand c) s = .next t
      ∧ OnlyCell s t c { s.cell c with preds := if r = 31 then (s.cell c).preds else Tab.set (fun _ => TaggedBit.zero) (s.cell c).preds r v, landing := [] })
  ∧ (∀ (s : State) (c : Fin 1024) (n : Nat) (v : TaggedBit), s.Canonical → (s.cell c).landing = [(n, .carry v)] → n < s.time.tclk →
    ∃ t, exec (.resultLand c) s = .next t ∧ OnlyCell s t c { s.cell c with carry := v, landing := [] })
  ∧ (∀ (s : State) (c : Fin 1024), s.Canonical → (∀ p ∈ (s.cell c).landing, s.time.tclk ≤ p.1) →
    ∃ t, exec (.resultLand c) s = .next t ∧ OnlyCell s t c (s.cell c))

/-- R179 to R182, Table 6-7: NRD reads a neighbour's register as it stood at the start of the slot, poisoned where the neighbour has stopped. RSND and CSND
send a register on a region or a chip channel, to be seen from cycle c + 4 or c + 16 on. RRCV and CRCV read a channel, poisoned where a stopped cell has
poisoned it. EXCHANGE_DELIVER makes the values due visible, the latest one last; of sends that met on a channel in one cycle it delivers none.
Beyond the rules' own words it rests on the model's choices: assumptions 66, 67. -/
def Obligations.CellExchange : Prop :=
  (∀ (s : State) (c : Fin 1024) (neg gp : Bool) (g nb a d : Nat), nb < 16 → s.Issues c ⟨neg, g, .nrd nb a d⟩ gp →
    let y := s.cellNow (c / 16 * 16 + nb)
    ∃ t, exec (.nrd c) s = .next t ∧ OnlyCell s t c ((s.cellNow c).issued s.time.tclk
      [(s.time.tclk, .reg d ⟨(y.reg a).val, (y.reg a).poison || gp || y.stopAt.any fun k => decide (k < s.time.tclk)⟩)]))
  ∧ (∀ (s : State) (c : Fin 1024) (neg gp : Bool) (g ch a : Nat), s.Issues c ⟨neg, g, .rsnd ch a⟩ gp →
    (∀ x ∈ s.sent, ¬ (x.ch = 64 * (c / 128) + ch ∧ x.due = s.time.tclk + 4)) →
    let v := (s.cellNow c).reg a
    ∃ t, exec (.rsnd c) s = .next t ∧ OnlyCell { s with sent := s.sent ++ [⟨s.time.tclk + 4, 64 * (c / 128) + ch, c, ⟨v.val, v.poison || gp⟩, false⟩] } t c
      ((s.cellNow c).issued s.time.tclk []))
  ∧ (∀ (s : State) (c : Fin 1024) (neg gp : Bool) (g ch a : Nat), s.Issues c ⟨neg, g, .csnd ch a⟩ gp →
    (∀ x ∈ s.sent, ¬ (x.ch = 512 + ch ∧ x.due = s.time.tclk + 16)) →
    let v := (s.cellNow c).reg a
    ∃ t, exec (.csnd c) s = .next t ∧ OnlyCell { s with sent := s.sent ++ [⟨s.time.tclk + 16, 512 + ch, c, ⟨v.val, v.poison || gp⟩, false⟩] } t c
      ((s.cellNow c).issued s.time.tclk []))
  ∧ (∀ (s : State) (c : Fin 1024) (neg gp : Bool) (g ch d : Nat), s.Issues c ⟨neg, g, .rrcv ch d⟩ gp →
    (∀ x ∈ s.sent, x.ch = 64 * (c / 128) + ch → s.time.tclk < x.due) →
    let v := s.xchan (64 * (c / 128) + ch)
    ∃ t, exec (.rrcv c) s = .next t ∧ OnlyCell s t c ((s.cellNow c).issued s.time.tclk [(s.time.tclk, .reg d ⟨v.cur.val, v.cur.poison || v.dead || gp⟩)]))
  ∧ (∀ (s : State) (c : Fin 1024) (neg gp : Bool) (g ch d : Nat), s.Issues c ⟨neg, g, .crcv ch d⟩ gp →
    (∀ x ∈ s.sent, x.ch = 512 + ch → s.time.tclk < x.due) →
    let v := s.xchan (512 + ch)
    ∃ t, exec (.crcv c) s = .next t ∧ OnlyCell s t c ((s.cellNow c).issued s.time.tclk [(s.time.tclk, .reg d ⟨v.cur.val, v.cur.poison || v.dead || gp⟩)]))
  ∧ (∀ (s : State) (i : Fin 640) (pre rest : List Sent) (x : Sent), s.Canonical → s.sent = pre ++ x :: rest → x.ch = i → x.due ≤ s.time.tclk →
    x.collided = false → (∀ y ∈ rest, ¬ (y.ch = i ∧ y.due ≤ s.time.tclk ∧ y.collided = false)) →
    ∃ t, exec (.exchangeDeliver i) s = .next t ∧ t = { s with sent := t.sent, exch := t.exch }
      ∧ t.sent = s.sent.filter (fun y => !(y.ch == i.val && decide (y.due ≤ s.time.tclk)))
      ∧ t.xchan i = ⟨x.val, (s.xchan i).dead⟩ ∧ ∀ j, j ≠ i.val → t.xchan j = s.xchan j)
  ∧ (∀ (s : State) (i : Fin 640), s.Canonical → (∀ x ∈ s.sent, x.ch = i → x.due ≤ s.time.tclk → x.collided = true) →
    ∃ t, exec (.exchangeDeliver i) s = .next t ∧ t = { s with sent := s.sent.filter fun y => !(y.ch == i.val && decide (y.due ≤ s.time.tclk)) })

/-- R182 (Table 6-8), R183: XIN reads an input word as it stands at the start of the slot; words 0 to 2 are DTIME bits [53:36], [35:18] and [17:0],
word 3 bits [63:54] under TB.EPOCH, words 4 to 10 the latest step number and probe. EVT with PP = 1 drives its line: a line bound to a STATE bit
sets that bit in the region's window; an EVT whose PP is 0 or poisoned, or whose guard is poisoned, drives nothing. BTST tells whether the bank
engine is idle with its transfer completed, and whether it ended in error or is frozen. Beyond the rules' own words it rests on the model's choices:
assumptions 5, 67. -/
def Obligations.CellInputs : Prop :=
  (∀ (s : State) (c : Fin 1024) (neg gp : Bool) (g sel d : Nat), s.Issues c ⟨neg, g, .xin sel d⟩ gp →
    let st := s.stepView
    let n := (c : Nat) / 128
    ∃ t v, exec (.xin c) s = .next t ∧ OnlyCell s t c ((s.cellNow c).issued s.time.tclk [(s.time.tclk, .reg d ⟨v, gp⟩)])
      ∧ (sel = 0 → v = s.now.extractLsb' 36 18) ∧ (sel = 1 → v = s.now.extractLsb' 18 18) ∧ (sel = 2 → v = s.now.extractLsb' 0 18)
      ∧ (sel = 3 → v = BitVec.ofNat 18 (s.fld tbPage TB.EPOCH_VALUE * 2 ^ 10 + s.now.toNat / 2 ^ 54))
      ∧ (st.num < 2 ^ 48 → (sel = 4 → v = BitVec.ofNat 18 (st.num / 2 ^ 36)) ∧ (sel = 5 → v = BitVec.ofNat 18 (st.num / 2 ^ 18)) ∧ (sel = 6 → v = BitVec.ofNat 18 st.num))
      ∧ (sel = 7 → v = (st.probe.extractLsb' 54 10).setWidth 18) ∧ (sel = 8 → v = st.probe.extractLsb' 36 18)
      ∧ (sel = 9 → v = st.probe.extractLsb' 18 18) ∧ (sel = 10 → v = st.probe.extractLsb' 0 18)
      ∧ (sel = 11 → v = BitVec.ofNat 18 (s.winShow n).stepWord)
      ∧ (∀ i < 12, sel = 0x10 + i → v = BitVec.ofNat 18 (s.qual (12 * n + i)).shown.bits)
      ∧ (∀ i < 4, sel = 0x20 + i → v = BitVec.ofNat 18 ((s.winShow n).swarm / 2 ^ (8 * i) % 2 ^ 8))
      ∧ (sel = 0x24 → v = BitVec.ofNat 18 (s.winShow n).trigInWord))
  ∧ (∀ (s : State) (c : Fin 1024) (neg : Bool) (g line p a : Nat), s.Issues c ⟨neg, g, .evt line p⟩ false →
    (s.cellNow c).pred p = ⟨true, false⟩ → (64 * (c / 128) + line) ∉ s.use.lines → s.lineUses = [] → s.binding (c / 128) line = (2, a) →
    let n := (c : Nat) / 128
    ∃ t, exec (.evt c) s = .next t
      ∧ OnlyCell ((s.setUse { s.use with lines := (64 * n + line) :: s.use.lines }).setWin n { s.winOf n with states := (s.winOf n).states ||| 2 ^ a }) t c
        ((s.cellNow c).issued s.time.tclk []))
  ∧ (∀ (s : State) (c : Fin 1024) (neg gp : Bool) (g line p : Nat), s.Issues c ⟨neg, g, .evt line p⟩ gp →
    (gp = true ∨ ((s.cellNow c).pred p).poison = true ∨ ((s.cellNow c).pred p).val = false) →
    ∃ t, exec (.evt c) s = .next t ∧ OnlyCell s t c ((s.cellNow c).issued s.time.tclk []))
  ∧ (∀ (s : State) (c : Fin 1024) (neg gp : Bool) (g q p : Nat), s.Issues c ⟨neg, g, .btst q p⟩ gp →
    let b := blkPage (c / 16)
    ∃ t, exec (.btst c) s = .next t ∧ OnlyCell s t c ((s.cellNow c).issued s.time.tclk
      [(s.time.tclk, .pred p ⟨!s.bit b BLK.XFER_STATUS_BUSY && s.fld b BLK.XFER_STATUS_LEFT == 0, gp⟩),
       (s.time.tclk, .pred q ⟨s.bit b BLK.XFER_STATUS_ERR || s.bit b BLK.XFER_STATUS_FROZEN, gp⟩)]))

/-- R176, R177, R185, R244: the first take of a FIFO in a slot. TAKE_POP and TAKE_DISCARD remove its oldest entry, TAKE_COPY removes nothing; pop
and copy write the entry's four words, a discard writes none, and PV tells that an entry was there. From an empty FIFO the registers receive 0, and
PV is 0. PUT sends GS to GS+3 to the region's record writer. ASSIGN (SEQ 0) writes the source's next sequence into W0[5:0] and advances its counter,
FOLLOW (SEQ 1) writes the sequence of the cell's latest ASSIGN, AS_IS keeps W0[5:0] and leaves the counter. With STAMP the writer replaces W1 to W3
by DTIME bits [53:0] of the slot. The clause on PUT is about a record that is no pad, time extension, trigger or continuation and opens no group,
whose source needs no time extension. Beyond the rules' own words it rests on the model's choices: assumptions 38, 66, 67. -/
def Obligations.CellTakesAndPut : Prop :=
  (∀ (s : State) (c : Fin 1024) (neg gp : Bool) (g f v d mode : Nat), mode < 3 → s.Issues c ⟨neg, g, .take f v d mode⟩ gp → s.FirstTake c f →
    let i := 12 * (c / 16) + f
    let mk : Instr := if mode = 0 then .takePop c else if mode = 1 then .takeCopy c else .takeDiscard c
    ∃ t, exec mk s = .next t ∧ (∀ j, j ≠ i → t.fifo j = s.fifo j) ∧ (∀ j, j ≠ c.val → t.cell j = s.cell j)
      ∧ t.store = s.store ∧ t.writers = s.writers ∧ t.journal = s.journal
      ∧ (t.fifo i).entries = (if mode = 1 then (s.fifo i).entries else if s.takeable i = [] then (s.fifo i).entries else (s.fifo i).entries.tail)
      ∧ t.cell c = (s.cellNow c).issued s.time.tclk ((s.time.tclk, .pred v ⟨!(s.takeable i).isEmpty, gp⟩) ::
        (if mode = 2 then [] else
          let r := (s.takeable i).head?.getD Rec.pad
          [(s.time.tclk, .reg d ⟨r.w0, gp⟩), (s.time.tclk, .reg (d + 1) ⟨r.w1, gp⟩), (s.time.tclk, .reg (d + 2) ⟨r.w2, gp⟩), (s.time.tclk, .reg (d + 3) ⟨r.w3, gp⟩)])))
  ∧ (∀ (s : State) (c : Fin 1024) (neg : Bool) (g sq a : Nat) (stamp : Bool) (e : Ext), sq < 3 → s.Issues c ⟨neg, g, .put sq stamp a⟩ false → s.TakesPut (c / 16) →
    let x := s.cellNow c
    let n := (c : Nat) / 128
    let w := (x.reg a).val
    let ty := w.toNat / 2 ^ 14
    let src := w.toNat / 2 ^ 7 % 2 ^ 7
    let q : BitVec 6 := if sq = 0 then (s.src (8 + n) src).seq else if sq = 1 then x.lastSeq else w.setWidth 6
    (∀ i < 4, (x.reg (a + i)).poison = false) → ty ∉ [0, 1, 5, 15] → opensGroup ⟨w, (x.reg (a + 1)).val, (x.reg (a + 2)).val, (x.reg (a + 3)).val⟩ = false →
    (s.src (8 + n) src).ext = some e → e.coarse = s.coarse → e.holdover = s.holdover → (stamp = true → e.bit54 = some (bitOf s.now.toNat 54)) →
    ∃ t, exec (.putRec c) s = .next t
      ∧ (t.writer (8 + n)).queue = (s.writer (8 + n)).queue ++ [⟨s.time.tclk, [if stamp then
          ⟨w.extractLsb' 6 12 ++ q, s.now.extractLsb' 36 18, s.now.extractLsb' 18 18, s.now.extractLsb' 0 18⟩
        else ⟨w.extractLsb' 6 12 ++ q, (x.reg (a + 1)).val, (x.reg (a + 2)).val, (x.reg (a + 3)).val⟩]⟩]
      ∧ (t.src (8 + n) src).seq = (if sq = 0 then (s.src (8 + n) src).seq + 1 else (s.src (8 + n) src).seq)
      ∧ (t.cell c).lastSeq = (if sq = 0 then (s.src (8 + n) src).seq else x.lastSeq)
      ∧ (∀ j, j ≠ c.val → t.cell j = s.cell j) ∧ (∀ i, i ≠ 8 + n → t.writer i = s.writer i) ∧ t.journal = s.journal ∧ t.store = s.store)

/-- R189, R190: SLD reads the scratch word at (GA + I) mod 4,096 with latency 2; SST stores a register there at the end of its slot, and a store of
an earlier slot has landed when the word is next read. BXFER starts the block's bank engine, or is discarded while it is busy. Beyond the rules' own
words it rests on the model's choices: assumptions 50, 66, 67. -/
def Obligations.CellScratch : Prop :=
  (∀ (s : State) (c : Fin 1024) (neg gp : Bool) (g port i a d : Nat), s.Issues c ⟨neg, g, .sld port i a d⟩ gp → s.PortFree (c / 16) port →
    let ga := (s.cellNow c).reg a
    let w := s.sword (c / 16) ((ga.val.toNat + i) % 4096)
    w.bad = false → s.injectArmed 4 (c / 16) = false →
    ∃ t, exec (.sld c false) s = .next t ∧ OnlyCell (s.setUse { s.use with ports := (2 * (c / 16) + port) :: s.use.ports }) t c
      ((s.cellNow c).issued s.time.tclk [(s.time.tclk + 1, .reg d ⟨w.val, w.poison || gp || ga.poison⟩)]))
  ∧ (∀ (s : State) (c : Fin 1024) (neg gp : Bool) (g port i a r : Nat), s.Issues c ⟨neg, g, .sst port i a r⟩ gp → s.PortFree (c / 16) port →
    let ga := (s.cellNow c).reg a
    let v := (s.cellNow c).reg r
    ∃ t, exec (.sst c) s = .next t ∧ OnlyCell { s.setUse { s.use with ports := (2 * (c / 16) + port) :: s.use.ports } with
        stores := s.stores ++ [⟨s.time.tclk, c / 16, (ga.val.toNat + i) % 4096, port, ⟨v.val, v.poison || gp || ga.poison⟩⟩] } t c
      ((s.cellNow c).issued s.time.tclk []))
  ∧ (∀ (s : State) (x : Stored), s.Canonical → s.stores = [x] → x.cycle < s.time.tclk →
    s.landStores.sword x.blk x.addr = ⟨x.val.val, x.val.poison, false⟩ ∧ s.landStores.stores = [])
  ∧ (∀ (s : State) (c : Fin 1024) (neg gp : Bool) (g : Nat) (dir : Bool) (bank n a b : Nat), s.Issues c ⟨neg, g, .bxfer dir bank n a b⟩ gp →
    let ga := (s.cellNow c).reg a
    let gb := (s.cellNow c).reg b
    s.bit (blkPage (c / 16)) BLK.XFER_STATUS_BUSY = false → s.bit (blkPage (c / 16)) BLK.XFER_STATUS_FROZEN = false →
    ∃ t, exec (.bxfer c) s = .next t
      ∧ OnlyCell ((s.setEngine (c / 16) ⟨dir, ga.val.toNat / 8 % 512 * 8, gp || ga.poison || gb.poison⟩).wr (blkPage (c / 16) + 0x06c)
          (BitVec.ofNat 32 (1 + 2 ^ 3 * bank + 2 ^ 8 * (n + 1) + 2 ^ 14 * (gb.val.toNat % 2 ^ 14)))) t c
        ((s.cellNow c).issued s.time.tclk []))
  ∧ (∀ (s : State) (c : Fin 1024) (neg gp : Bool) (g : Nat) (dir : Bool) (bank n a b : Nat), s.Issues c ⟨neg, g, .bxfer dir bank n a b⟩ gp →
    s.bit (blkPage (c / 16)) BLK.XFER_STATUS_BUSY = true →
    ∃ t, exec (.bxfer c) s = .next t ∧ t.bit (blkPage (c / 16)) BLK.err_XFER_BUSY = true ∧ t.engines = s.engines
      ∧ t.fld (blkPage (c / 16)) BLK.XFER_DROPS = min (s.fld (blkPage (c / 16)) BLK.XFER_DROPS + 1) (2 ^ 32 - 1)
      ∧ t.rd (blkPage (c / 16) + 0x06c) = s.rd (blkPage (c / 16) + 0x06c))

/-- R34, R190: when the engine's request is granted a lane and its class owns the bank, the engine of block `g` moves one line between scratch and
the bank, goes on by eight words and one line, and with the last line it becomes idle under XFER_DONE. Towards the bank both halves of the line take
the records that the scratch words form; from the bank the eight words take the line's records. Beyond the rules' own words it rests on the model's
choices: assumptions 50, 66, 83. -/
def Obligations.BankEngine : Prop :=
  ∀ (s : State) (g : Fin 64), s.Canonical →
    let p := blkPage g
    let e := s.engine g
    let b := 32 * (g / 8) + s.fld p BLK.XFER_STATUS_BANK
    let line := s.fld p BLK.XFER_STATUS_LINE
    s.bit p BLK.XFER_STATUS_BUSY = true → s.bit p BLK.XFER_STATUS_FROZEN = false → s.bit p BLK.live_HALTED = false → 0 < s.fld p BLK.XFER_STATUS_LEFT →
    s.granted s.aclk s.others (.engine g) = true → s.gate b 3 (g % 8) = .granted → (∀ x ∈ s.stores, s.time.tclk ≤ x.cycle) →
    e.poison = false → s.bit chipPage CHIP.INJECT_GO = false → (e.toBank = true → ∀ i < 8, (s.sword g ((e.addr + i) % 4096)).bad = false) →
    (e.toBank = false → (s.half (halfIdx b line 0)).integ = .ok ∧ (s.half (halfIdx b line 1)).integ = .ok) →
    ∃ t, exec (.bxferLine g) s = .next t
      ∧ (t.engine g).addr = (e.addr + 8) % 4096 ∧ t.fld p BLK.XFER_STATUS_LEFT = s.fld p BLK.XFER_STATUS_LEFT - 1
      ∧ t.bit p BLK.XFER_STATUS_BUSY = decide (s.fld p BLK.XFER_STATUS_LEFT ≠ 1)
      ∧ (s.fld p BLK.XFER_STATUS_LEFT = 1 → t.bit p BLK.st_XFER_DONE = true)
      ∧ (∀ r0 r1, e.toBank = true → s.scratchRec g e.addr = some r0 → s.scratchRec g (e.addr + 4) = some r1 →
        t.half (halfIdx b line 0) = Half.fresh r0 ∧ t.half (halfIdx b line 1) = Half.fresh r1
        ∧ (∀ i, i ≠ halfIdx b line 0 → i ≠ halfIdx b line 1 → t.half i = s.half i) ∧ t.scratch = s.scratch)
      ∧ (e.toBank = false → e.addr % 8 = 0 → e.addr < 4096 →
        (∀ i < 4, t.sword g (e.addr + i) = ⟨recWord (s.half (halfIdx b line 0)).data i, false, false⟩)
        ∧ (∀ i < 4, t.sword g (e.addr + 4 + i) = ⟨recWord (s.half (halfIdx b line 1)).data i, false, false⟩) ∧ t.store = s.store)

/-- R195, R196, R181: a cell whose fetched instruction fails parity stops at the end of its slot, its stored parity stays bad, every exchange
channel that it sends to is poisoned, and the journal holds an error record of cause 0x10. A reserved encoding that executes takes the region to
FAULT: the region halts at the end of the slot and its writers take no more. R274, R195: an uncorrectable error in the control state of a bank or of
the switch takes the region to FAULT, the region halts at the end of the slot and its writers take no more. Beyond the rules' own words it rests on
the model's choices: assumptions 19, 70. -/
def Obligations.RegionFaults : Prop :=
  (∀ (s : State) (c : Fin 1024) (w : IWord), s.Canonical → s.fetchCell c = some w →
    let n := (c : Nat) / 128
    ∃ t, exec (.instructionParityError c) s = .next t ∧ (t.cell c).stopAt = some s.time.tclk ∧ (t.cell c).landing = []
      ∧ (t.iword c (s.slot n)).bad = true ∧ (t.iword c (s.slot n)).word = w.word ∧ (∀ i ∈ s.sends c, (t.xchan i).dead = true)
      ∧ t.bit (regPage n) REG.err_IPARITY = true ∧ (∀ j, j ≠ c.val → t.cell j = s.cell j)
      ∧ ∃ seq, t.journal.getLast? = some (headRec 9 (104 + n) true seq s.now ::
          contRecs (104 + n) seq [errCont 0x10 c (s.slot n) s.coarse s.holdover]))
  ∧ (∀ (s : State) (c : Fin 1024) (w : IWord), s.Canonical → s.run.endRun = none → s.fetchCell c = some w → w.bad = false → s.injectArmed 3 c = false →
    decodeInstr w.word = none → (s.cellNow c).pred (bitsOf w.word.toNat 30 5) = ⟨!bitOf w.word.toNat 35, false⟩ →
    s.bit (regPage (c / 128)) REG.live_FAULT = false →
    ∃ t, exec (.illegal c) s = .next t ∧ (t.region (c / 128)).haltAt = some s.time.tclk ∧ t.executes (c / 128) = false
      ∧ t.bit (regPage (c / 128)) REG.live_FAULT = true ∧ t.recording (c / 128) = false)
  ∧ (∀ (s : State) (n : Fin 8) (code : Fin 4) (bank : Fin 32), s.Canonical → s.live = true → s.run.endRun = none →
    s.bit (regPage n) REG.live_FAULT = false →
    ∃ t, exec (.storeFault n code bank) s = .next t ∧ (t.region n).haltAt = some s.time.tclk ∧ t.executes n = false
      ∧ t.bit (regPage n) REG.live_FAULT = true ∧ t.recording n = false ∧ t.store = s.store
      ∧ t.freeCtr = (if code = 3 then s.freeCtr + 1 else s.freeCtr))

/-- R192, R33: DBG_CTRL.GO starts an access, which is carried out when the cell stands in an open slot: a write sets the register that DBG_SEL
names, a read brings it into DBG_DATA; DONE is set and GO cleared. R193, R194: the scratch and instruction windows of the host. A scratch access of
a region that does not execute writes the word or returns it with its poison in bit 31. A LO dword is staged; the HI dword commits the 36 bits at
once between runs, joins the cell's patches while its region executes with PATCH_EN and an open slot, and is refused under IMEM_LOCKED without
PATCH_EN. A patch applies in the cell's open slot and marks the region PATCHED. Beyond the rules' own words it rests on the model's choices:
assumptions 22, 23, 51. -/
def Obligations.CellWindows : Prop :=
  (∀ (s : State) (n : Fin 8) (pe : Bool), s.Canonical → s.hostLive = true → s.bit (regPage n) REG.DBG_CTRL_GO = false →
    s.fld (regPage n) REG.DBG_SEL_SPACE = 0 → s.executes n = true → s.hasOpen (128 * n + s.fld (regPage n) REG.DBG_SEL_CELL) = true →
    ∃ t, exec (.debugGo n pe) s = .next t ∧ t.bit (regPage n) REG.DBG_CTRL_GO = true ∧ t.bit (regPage n) REG.DBG_CTRL_DONE = false
      ∧ t.bit (regPage n) REG.DBG_CTRL_FAIL = false ∧ t.cells = s.cells
      ∧ t.bit (regPage n) REG.DBG_CTRL_PATCH_EN = (if s.unlocked (regPage n) then pe else s.bit (regPage n) REG.DBG_CTRL_PATCH_EN))
  ∧ (∀ (s : State) (n : Fin 8), s.Canonical → s.bit (regPage n) REG.DBG_CTRL_GO = true → s.fld (regPage n) REG.DBG_SEL_SPACE = 0 →
    let c := 128 * n + s.fld (regPage n) REG.DBG_SEL_CELL
    let r := s.fld (regPage n) REG.DBG_SEL_INDEX
    s.openNow c = true →
    ∃ t, exec (.debugAccess n) s = .next t ∧ t.bit (regPage n) REG.DBG_CTRL_GO = false ∧ t.bit (regPage n) REG.DBG_CTRL_DONE = true
      ∧ t.bit (regPage n) REG.st_DBG_DONE = true ∧ (∀ j, j ≠ c → t.cell j = s.cell j)
      ∧ (s.bit (regPage n) REG.DBG_SEL_WRITE = true → t.cell c = (s.cellNow c).item
          (.reg r ⟨BitVec.ofNat 18 (s.fld (regPage n) REG.DBG_DATA_VALUE), s.bit (regPage n) REG.DBG_DATA_POISON⟩))
      ∧ (s.bit (regPage n) REG.DBG_SEL_WRITE = false → t.cells = s.cells
          ∧ t.fld (regPage n) REG.DBG_DATA_VALUE = ((s.cellNow c).reg r).val.toNat ∧ t.bit (regPage n) REG.DBG_DATA_POISON = ((s.cellNow c).reg r).poison))
  ∧ (∀ (s : State) (g : Fin 64) (w : Fin 4096) (v : Dword), s.Canonical → s.hostLive = true → s.executes (g / 8) = false → s.stores = [] →
    ∃ t, exec (.scratchWindowAccess g w (some v)) s = .next t ∧ t = { s with scratch := t.scratch } ∧ t.sword g w = ⟨v.setWidth 18, false, false⟩
      ∧ ∀ h x, 4096 * h + x ≠ 4096 * g.val + w.val → t.sword h x = s.sword h x)
  ∧ (∀ (s : State) (g : Fin 64) (w : Fin 4096), s.hostLive = true → s.executes (g / 8) = false → s.stores = [] →
    ((s.sword g w).bad = true → s.bit (blkPage g) BLK.live_HALTED = true) →
    let x := s.sword g w
    let p := x.poison || x.bad || s.bit (blkPage g) BLK.live_HALTED
    ∃ t, exec (.scratchWindowAccess g w none) s = .next t ∧ t = { s with out := s.out ++ [.readData (0x800000 + 0x4000 * g + 4 * w)
      [x.val.setWidth 32 ||| (if p then 0x80000000 else 0)]] })
  ∧ (∀ (s : State) (c : Fin 1024) (v : Dword), s.Canonical → s.hostLive = true →
    ∃ t, exec (.imemLoWrite c v) s = .next t ∧ OnlyCell s t c { s.cell c with staged := v })
  ∧ (∀ (s : State) (c : Fin 1024) (a : Fin 512) (v : Dword), s.Canonical → s.hostLive = true → s.betweenRuns = true → s.executes (c / 128) = false →
    ∃ t, exec (.imemHiCommit c a v) s = .next t ∧ t = { s with imem := t.imem } ∧ t.iword c a = ⟨v.setWidth 4 ++ (s.cell c).staged, false⟩
      ∧ ∀ d b, 512 * d + b ≠ 512 * c.val + a.val → t.iword d b = s.iword d b)
  ∧ (∀ (s : State) (c : Fin 1024) (a : Fin 512) (v : Dword), s.Canonical → s.hostLive = true → s.executes (c / 128) = true →
    s.bit (regPage (c / 128)) REG.DBG_CTRL_PATCH_EN = true → s.hasOpen c = true →
    ∃ t, exec (.imemHiCommit c a v) s = .next t
      ∧ OnlyCell s t c { s.cell c with patch := (s.cell c).patch ++ [(a.val, v.setWidth 4 ++ (s.cell c).staged)] })
  ∧ (∀ (s : State) (c : Fin 1024) (a : Fin 512) (v : Dword), s.Canonical → s.hostLive = true → s.executes (c / 128) = true →
    s.bit (regPage (c / 128)) REG.DBG_CTRL_PATCH_EN = false →
    ∃ t, exec (.imemHiCommit c a v) s = .next t ∧ t.bit (regPage (c / 128)) REG.err_IMEM_LOCKED = true ∧ t.imem = s.imem ∧ t.cells = s.cells)
  ∧ (∀ (s : State) (c : Fin 1024) (a : Nat) (w : BitVec 36) (rest : List (Nat × BitVec 36)), s.Canonical → (s.cell c).patch = (a, w) :: rest →
    s.executes (c / 128) = true → s.openNow c = true →
    ∃ t, exec (.patchCommit c) s = .next t ∧ t.iword c a = ⟨w, false⟩ ∧ (∀ d b, 512 * d + b ≠ 512 * c.val + a → t.iword d b = s.iword d b)
      ∧ (∀ j, t.cell j = if j = c.val then { s.cell c with patch := rest } else s.cell j) ∧ t.bit (regPage (c / 128)) REG.live_PATCHED = true)

/-! The run -/

/-- R42, R43, R197, R198, R405, R418 (Table 1-9): what an accepted LOAD, ARM or START does on a part that is not a queen. LOAD is pending, shows
LOADING and reads the image at IMG_ADDR. ARM moves to ARMED with every region recording, the exchange channels at 0 and nothing under way; where the
part refuses to arm, the run state stays and CMD_STATUS gives the cause. START moves to RUNNING with slot 0 due and the edge counters at 0. When
both passes of a LOAD succeed the image is held with its measurement instances, LOAD_STATUS is 0 and the run state becomes LOADED; when the first
pass fails, nothing of the image is written, LOAD_STATUS gives the cause and the run state becomes IDLE. In FAULT the state stays. LOADING ends
either way. Beyond the rules' own words it rests on the model's choices: assumptions 15, 16, 18, 40, 41. -/
def Obligations.RunBegins : Prop :=
  (∀ (s : State) (id : BitVec 8), s.Accepts 1 id →
    ∃ t, exec (.cmdLoad id) s = .next t ∧ t.bit chipPage CHIP.live_LOADING = true ∧ t.runState = s.runState
      ∧ t.rd 0x54 = statusWord 1 1 id 0 ∧ t.run.pendingCmd = some (1, id.toNat) ∧ t.run.lastId = some id
      ∧ t.run.loadAddr = s.pair chipPage CHIP.IMG_ADDR_LO ∧ t.run.loadLen = s.fld chipPage CHIP.IMG_LEN_BYTES
      ∧ t.out.getLast? = some (.hostRead (s.pair chipPage CHIP.IMG_ADDR_LO) (s.fld chipPage CHIP.IMG_LEN_BYTES)))
  ∧ (∀ (s : State) (id : BitVec 8), s.Accepts 2 id → s.isQueen = false → s.armRefusal = none →
    ∃ t, exec (.cmdArm id) s = .next t ∧ t.runState = .armed ∧ t.rd 0x54 = statusWord 2 2 id 0 ∧ t.run.lastId = some id ∧ t.recordingRegions = 0xff
      ∧ t.exch = [] ∧ t.sent = [] ∧ t.stores = [] ∧ t.trigs = [])
  ∧ (∀ (s : State) (id : BitVec 8) (cause : Nat), s.Accepts 2 id → s.armRefusal = some cause →
    ∃ t, exec (.cmdArm id) s = .next t ∧ t.runState = s.runState ∧ t.rd 0x54 = statusWord 2 5 id cause ∧ t.bit chipPage CHIP.err_ARM_REFUSED = true
      ∧ t.recordingRegions = s.recordingRegions ∧ t.cells = s.cells)
  ∧ (∀ (s : State) (id : BitVec 8), s.Accepts 3 id → s.isQueen = false →
    ∃ t, exec (.cmdStart id) s = .next t ∧ t.runState = .running ∧ t.rd 0x54 = statusWord 3 2 id 0 ∧ t.run.lastId = some id
      ∧ t.run.slotDue = true ∧ t.run.startAt = none ∧ ∀ k < 96, t.pair (chPage k) CH.ECOUNT_LO = 0)
  ∧ (∀ (s : State) (image : List (BitVec 64)) (insts : List Meas) (lines : List (Nat × LineUse)) (l : List (Nat × Item2)), s.Canonical →
    s.bit chipPage CHIP.live_LOADING = true →
    let ws := (image ++ List.replicate (s.run.loadLen / 8 - image.length) 0).take (s.run.loadLen / 8)
    s.firstPass s.run.loadLen ws = .ok l →
    ∃ t, exec (.loadComplete image none insts lines) s = .next t ∧ t.bit chipPage CHIP.live_LOADING = false ∧ t.rd 0x70 = 0
      ∧ t.run.imageHeld = true ∧ t.run.pendingCmd = none ∧ t.insts = insts.map Inst.init ∧ t.lineUses = lines ∧ t.cellInit = initsOf l
      ∧ t.runState = (if s.runState = .fault then .fault else .loaded))
  ∧ (∀ (s : State) (image : List (BitVec 64)) (insts : List Meas) (lines : List (Nat × LineUse)) (e : LoadFail), s.Canonical →
    s.bit chipPage CHIP.live_LOADING = true →
    let ws := (image ++ List.replicate (s.run.loadLen / 8 - image.length) 0).take (s.run.loadLen / 8)
    s.firstPass s.run.loadLen ws = .error e →
    ∃ t, exec (.loadComplete image none insts lines) s = .next t ∧ t.bit chipPage CHIP.live_LOADING = false ∧ t.rd 0x70 = e.word
      ∧ t.bit chipPage CHIP.err_LOAD_FAIL = true ∧ t.run.imageHeld = false ∧ t.run.pendingCmd = none ∧ t.imem = s.imem ∧ t.insts = s.insts
      ∧ t.runState = (if s.runState = .fault then .fault else .idle))

/-- R42, R43, R144, R405 (Table 1-10): what an accepted STOP, ABORT or RESET_RUN does on a part that is neither a queen nor in holdover. STOP of a
run moves to STOPPING while its regions drain; in ARMED it moves to STOPPED; in FAULT the state stays. ABORT ends the run with no region recording.
RESET_RUN returns to LOADED when an image is held and every instruction memory passes its parity check, else to IDLE, and clears the region faults.
Beyond the rules' own words it rests on the model's choices: assumption 42. -/
def Obligations.RunEnds : Prop :=
  (∀ (s : State) (id : BitVec 8), s.Accepts 4 id → s.isQueen = false → s.holdover = false →
    ∃ t, exec (.cmdStop id) s = .next t ∧ t.rd 0x54 = statusWord 4 2 id 0 ∧ t.run.lastId = some id
      ∧ (s.runState = .running → (∃ n < 8, s.executes n = true) →
        t.runState = .stopping ∧ (∀ n < 8, s.executes n = true → (t.region n).draining = true) ∧ t.run.slotDue = false)
      ∧ (s.runState = .armed → t.runState = .stopped ∧ t.recordingRegions = 0)
      ∧ (s.runState = .fault → t.runState = .fault ∧ t.run.slotDue = false))
  ∧ (∀ (s : State) (id : BitVec 8), s.Accepts 5 id → s.isQueen = false → s.holdover = false →
    ∃ t, exec (.cmdAbort id) s = .next t ∧ t.rd 0x54 = statusWord 5 2 id 0 ∧ t.run.lastId = some id
      ∧ t.runState = (if s.runState = .fault then .fault else .stopped) ∧ t.recordingRegions = 0 ∧ t.run.slotDue = false ∧ t.run.endRun = none)
  ∧ (∀ (s : State) (id : BitVec 8), s.Accepts 6 id →
    ∃ t, exec (.cmdResetRun id) s = .next t ∧ t.rd 0x54 = statusWord 6 2 id 0
      ∧ t.runState = (if s.run.imageHeld = true ∧ (∀ p ∈ s.imem, p.2.bad = false) then .loaded else .idle)
      ∧ ∀ n < 8, t.bit (regPage n) REG.live_FAULT = false)

/-- R404, R405: the order of the judgement of a write of CHIP.CMD. An unknown code or a nonzero reserved bit is ENCODING; then the identifier of the
last accepted command is a duplicate, which counts in CMD_DUPS and leaves CMD_STATUS; then a command that the present state does not permit is
STATE_ERR. None of them has another effect on the run. R47: while what the cycle orders before the host's command waits, the command waits too,
unjudged. Beyond the rules' own words it rests on the model's choices: assumptions 43, 66. -/
def Obligations.CommandJudgement : Prop :=
  (∀ (s : State) (v : Dword), s.Canonical → s.hostLive = true → s.cmdWaits .pcie = false → wellFormedCmd v = false →
    ∃ t, exec (.cmdInvalid v) s = .next t ∧ t.rd 0x54 = statusWord (v.toNat % 16) 4 (v.extractLsb' 8 8) 0 ∧ t.bit chipPage CHIP.err_CMD_ENCODING = true
      ∧ t.run = s.run ∧ t.runState = s.runState ∧ t.recordingRegions = s.recordingRegions)
  ∧ (∀ (s : State) (id : BitVec 8), ∀ x ∈ runCommands, s.Canonical → s.hostLive = true → s.cmdWaits .pcie = false → s.run.lastId = some id →
    ∃ t, exec (x.2 id) s = .next t ∧ t.rd 0x58 = BitVec.ofNat 32 (min ((s.rd 0x58).toNat + 1) (2 ^ 32 - 1)) ∧ t.rd 0x54 = s.rd 0x54
      ∧ t.run = s.run ∧ t.runState = s.runState ∧ t.recordingRegions = s.recordingRegions)
  ∧ (∀ (s : State) (id : BitVec 8), ∀ x ∈ runCommands, s.Canonical → s.hostLive = true → s.cmdWaits .pcie = false → s.run.lastId ≠ some id → s.permitted x.1 = false →
    ∃ t, exec (x.2 id) s = .next t ∧ t.bit chipPage CHIP.err_STATE_ERR = true ∧ t.run = s.run ∧ t.runState = s.runState
      ∧ t.recordingRegions = s.recordingRegions ∧ t.rd 0x54 = (if s.run.pendingCmd.isSome then s.rd 0x54 else statusWord x.1 3 id 0))
  ∧ (∀ (s : State) (id : BitVec 8), ∀ x ∈ runCommands, s.hostLive = true → s.cmdWaits .pcie = true →
    ∃ t, exec (x.2 id) s = .next t ∧ t.run = { s.run with heldCmds := s.run.heldCmds ++ [(.pcie, BitVec.ofNat 32 (x.1 + 2 ^ 8 * id.toNat))] } ∧ t.runState = s.runState
      ∧ t.recordingRegions = s.recordingRegions ∧ t.rd 0x54 = s.rd 0x54)

/-- R30, R169, R171: in the cycle of slot 0 every region without a fault begins its first major cycle; a region that completes its L slots adds one
to CYCLES and makes its event words visible; a drained region halts at the end of its major cycle and records no more. Beyond the rules' own words
it rests on the model's choices: assumption 41. -/
def Obligations.MajorCycles : Prop :=
  (∀ s : State, s.Canonical → s.live = true → s.runState = .running → s.run.slotDue = true →
    (∀ u, s.run.startAt = some u → 0 ≤ dt u s.now ∧ dt u s.now < 1024) →
    ∃ t, exec .runSlot0 s = .next t ∧ t.run.slotDue = false ∧ t.runState = .running
      ∧ ∀ n < 8, s.bit (regPage n) REG.live_FAULT = false → t.executes n = true ∧ t.region n = ⟨s.time.tclk, false, none, none, none⟩)
  ∧ (∀ (s : State) (n : Fin 8), s.Canonical → s.live = true → s.executes n = true → s.slot n = s.majorLen n - 1 → s.run.endRun = none →
    (s.region n).draining = false → (s.region n).endedAt ≠ some s.time.tclk →
    ∃ t, exec (.majorCycleEnd n) s = .next t ∧ t.executes n = true ∧ t.region n = { s.region n with endedAt := some s.time.tclk }
      ∧ t.pair (regPage n) REG.CYCLES_LO = (s.pair (regPage n) REG.CYCLES_LO + 1) % 2 ^ 64
      ∧ (t.winShow n).swarm = (s.winOf n).swarm ∧ (t.winShow n).states = (s.winOf n).states ∧ t.winOf n = RegWin.empty
      ∧ ∀ k ∈ chansOf n, (t.qual k).cur = Window.empty)
  ∧ (∀ (s : State) (n : Fin 8) (c : Nat), s.Canonical → s.live = true → s.executes n = true → (s.region n).draining = true → (s.region n).emptyAt = some c →
    s.slot n = s.majorLen n - 1 → c < s.pair (regPage n) REG.CYCLES_LO → s.quiet n = true → s.writersEmpty n = true →
    ∃ t, exec (.regionHalt n) s = .next t ∧ (t.region n).haltAt = some s.time.tclk ∧ t.executes n = false ∧ (t.region n).draining = false
      ∧ t.recording n = false)

/-! Device time -/

/-- R50, R58, R61: lock is declared once the count holds 1,024 reference cycles of which fewer than 342 are out of window, before the first start
or, from bypass, while a root is to return; PHASE_ERR shows the last of them. In the first TCLK cycle after the first lock the timebase starts:
DTIME is 0, the clocks run from the main synthesizer, the trim is 0 and every pool begins its initial calibration. R64, R67, R45: a hard loss (a
missing reference edge, or two reference cycles in a row beyond ±256 su) and a soft loss (the cycle with which 342 of the last 1,024 are out of
window) both clear LOCKED, set LOCK_LOST and TB_LOST, capture DTIME in LOSS_AT, count in LOSS_COUNT, which saturates, and take the run state to
FAULT. DTIME does not step; the count begins anew after a hard loss and goes on after a soft one. Beyond the rules' own words it rests on the
model's choices: assumptions 3, 28, 78. -/
def Obligations.LockAndLoss : Prop :=
  (∀ (s : State) (l : List (BitVec 12)) (e : BitVec 12) (refs : Refs), s.Canonical → s.live = true → s.bit tbPage TB.live_LOCKED = false →
    (l = [] ∨ s.time.window.length + l.length < 1024) →
    let w := (l ++ [e]).foldl (countCycle s.inBypass) s.time.window
    w.length = 1024 → outCount w < 342 →
    (if s.bit tbPage TB.live_STARTED then s.onRoot = false else s.power.startup = .waitLock) →
    ∃ t, exec (.lockDeclared (l ++ [e]) refs) s = .next t ∧ t = { s with regs := t.regs, time := { s.time with window := w } } ∧ t.bit tbPage TB.live_LOCKED = true
      ∧ t.fld tbPage TB.PHASE_ERR_VALUE = phaseField e ∧ t.bit tbPage TB.live_REF_PRESENT = refs.refclk ∧ t.bit tbPage TB.live_ALT_PRESENT = refs.altref
      ∧ t.fld tbPage TB.live_SOURCE = s.fld tbPage TB.live_SOURCE ∧ t.coarse = s.coarse)
  ∧ (∀ (l : List (BitVec 12)) (e : BitVec 12), l.length < 1024 → (∀ d ∈ l, d.toInt.natAbs ≤ 16) → e.toInt.natAbs ≤ 16 →
    (l.foldl (countCycle false) [e]).length = 1 + l.length ∧ outCount (l.foldl (countCycle false) [e]) = 0)
  ∧ (∀ s : State, s.Canonical → s.live = true → s.bit tbPage TB.live_STARTED = false → s.bit tbPage TB.live_LOCKED = true →
    ∃ t, exec .timebaseStart s = .next t ∧ t.now = 0 ∧ t.time.tclk = 0 ∧ t.bit tbPage TB.live_STARTED = true ∧ t.onRoot = true
      ∧ t.fld tbPage TB.TRIM_LIVE_VALUE = 0 ∧ t.power.startup = .calibrating ∧ t.time.window = s.time.window
      ∧ (∀ k < 96, (t.chan k).cal = .initial ∧ t.bit (chPage k) CH.POOL_STATUS_READY = false)
      ∧ t.runState = s.runState ∧ t.cells = s.cells ∧ t.store = s.store)
  ∧ (∀ (s : State) (l : List (BitVec 12)) (last : Option (BitVec 12)) (refs : Refs), s.Canonical → s.canLose = true → quietCycles s.time.window l = true →
    (∀ e, last = some e → cycleLoss (l.foldl (countCycle false) s.time.window) e = some 0) →
    ∃ t, exec (.hardLoss (lossAfter l last) refs) s = .next t ∧ t.bit tbPage TB.live_LOCKED = false ∧ t.bit tbPage TB.st_LOCK_LOST = true
      ∧ t.bit tbPage TB.err_TB_LOST = true ∧ t.pair tbPage TB.LOSS_AT_LO = s.now.toNat
      ∧ t.fld tbPage TB.LOSS_COUNT_VALUE = min (s.fld tbPage TB.LOSS_COUNT_VALUE + 1) 65535
      ∧ t.runState = .fault ∧ t.time = { s.time with window := [] } ∧ t.cells = s.cells ∧ t.store = s.store)
  ∧ (∀ (w : List (BitVec 12)) (d e : BitVec 12), 256 < d.toInt.natAbs → 256 < e.toInt.natAbs → cycleLoss (d :: w) e = some 0)
  ∧ (∀ (s : State) (l : List (BitVec 12)) (e : BitVec 12) (refs : Refs), s.Canonical → s.canLose = true → quietCycles s.time.window l = true →
    let w := l.foldl (countCycle false) s.time.window
    cycleLoss w e = some 1 →
    ∃ t, exec (.softLoss (l ++ [e]) refs) s = .next t ∧ t.bit tbPage TB.live_LOCKED = false ∧ t.bit tbPage TB.st_LOCK_LOST = true
      ∧ t.bit tbPage TB.err_TB_LOST = true ∧ t.pair tbPage TB.LOSS_AT_LO = s.now.toNat
      ∧ t.fld tbPage TB.LOSS_COUNT_VALUE = min (s.fld tbPage TB.LOSS_COUNT_VALUE + 1) 65535
      ∧ t.runState = .fault ∧ t.time = { s.time with window := (e :: w).take 1024 } ∧ t.cells = s.cells ∧ t.store = s.store)
  ∧ (∀ (w : List (BitVec 12)) (e : BitVec 12), w.length < 1024 → outCount w = 341 → 16 < e.toInt.natAbs → e.toInt.natAbs ≤ 256 → cycleLoss w e = some 1)

/-- R65, R66, R477: the switch to the bypass source takes ALTREF where it toggles and ALTREF_EN is 1, else the internal oscillator; DTIME takes the
value of the last main TCLK cycle plus 1,024 su and COARSE reads 1. Where ALTREF fails, the part moves to the internal oscillator. A loss during
bypass withdraws a declaration of lock, begins the count of reference cycles anew and changes no loss register and no run state. R68, R60: once the
selected reference is locked again, the clocks return to the root at a rising edge of the bypass source, whose increment of 10,240 su DTIME has
taken with that edge: COARSE reads 0, SOURCE MAIN, RELOCKED is set and RELOCK_AT captures that DTIME. The run state stays. After a change of
reference SRC_CHANGE is set as well. Beyond the rules' own words it rests on the model's choices: assumptions 28, 78. -/
def Obligations.BypassSwitches : Prop :=
  (∀ (s : State) (alt : Bool), s.Canonical → s.live = true → s.bit tbPage TB.live_STARTED = true → s.bit tbPage TB.live_LOCKED = false → s.onRoot = true →
    ∃ t, exec (.bypassSwitch alt) s = .next t ∧ t.fld tbPage TB.live_SOURCE = (if alt && s.bit tbPage TB.CTRL_ALTREF_EN then 1 else 2) ∧ t.coarse = true
      ∧ t.bit tbPage TB.live_ALT_PRESENT = alt ∧ t.now = s.now + 1024 ∧ t.time.bypassPhase = 0 ∧ t.time.bypassEdge = false ∧ t.time.tclk = s.time.tclk
      ∧ t.bit tbPage TB.live_LOCKED = false ∧ t.runState = s.runState)
  ∧ (∀ s : State, s.Canonical → s.live = true → s.fld tbPage TB.live_SOURCE = 1 →
    ∃ t, exec .altrefFail s = .next t ∧ t = { s with regs := t.regs } ∧ t.fld tbPage TB.live_SOURCE = 2 ∧ t.bit tbPage TB.live_ALT_PRESENT = false
      ∧ ∀ a, a ≠ tbPage + 0x00c → t.rd a = s.rd a)
  ∧ (∀ (s : State) (l : List (BitVec 12)) (last : Option (BitVec 12)) (refs : Refs), s.Canonical → s.live = true → s.bit tbPage TB.live_STARTED = true →
    s.onRoot = false → (∀ e, last = some e → cycleLoss (l.foldl (countCycle true) s.time.window) e ≠ none) →
    ∃ t, exec (.lockWithdrawn (lossAfter l last) refs) s = .next t ∧ t.bit tbPage TB.live_LOCKED = false ∧ t.onRoot = false ∧ t.time = { s.time with window := [] }
      ∧ t.runState = s.runState ∧ ∀ a ∈ [0x008, 0x010, 0x05c, 0x060, 0x064], t.rd (tbPage + a) = s.rd (tbPage + a))
  ∧ (∀ s : State, s.Canonical → s.live = true → s.coarse = true → s.onRoot = false → s.bit tbPage TB.live_LOCKED = true → s.time.bypassEdge = true →
    ∃ t, exec .switchBack s = .next t ∧ t.now = s.now ∧ t.time.tclk = s.time.tclk ∧ t.coarse = false ∧ t.onRoot = true
      ∧ t.bit tbPage TB.live_LOCKED = true ∧ t.bit tbPage TB.st_RELOCKED = true ∧ t.pair tbPage TB.RELOCK_AT_LO = s.now.toNat
      ∧ (s.time.refChange = true → t.bit tbPage TB.st_SRC_CHANGE = true) ∧ t.time.refChange = false ∧ t.runState = s.runState)
  ∧ (∀ s : State, s.bit tbPage TB.live_STARTED = true → s.onRoot = false → s.time.resetDue = false → s.time.bypassPhase < 10 →
    s.clock.now = (if s.time.bypassPhase = 9 then s.now + 10240 else s.now) ∧ s.clock.time.bypassPhase = (s.time.bypassPhase + 1) % 10
      ∧ s.clock.time.bypassEdge = decide (s.time.bypassPhase = 9) ∧ s.clock.time.tclk = s.time.tclk + 1)

/-- R53, R71, R49: the wrap sets WRAPPED and its status bit and adds one to EPOCH modulo 256. Every 1,024 TCLK cycles on the root the trim moves one
su towards its target in TRIM_LIVE and in the next increment of DTIME, and TRIM_DONE is set when the two meet; the next TCLK cycle adds 1,024 su and
what the slews owe. Beyond the rules' own words it rests on the model's choices: assumptions 3, 4, 78. -/
def Obligations.WrapAndTrim : Prop :=
  (∀ s : State, s.Canonical → s.time.wrapDue = true →
    ∃ t, exec .dtimeWrap s = .next t ∧ t.bit tbPage TB.live_WRAPPED = true ∧ t.bit tbPage TB.st_WRAP = true
      ∧ t.fld tbPage TB.EPOCH_VALUE = (s.fld tbPage TB.EPOCH_VALUE + 1) % 256 ∧ t.time = { s.time with wrapDue := false }
      ∧ ∀ a, a ≠ tbPage + 0x008 → a ≠ tbPage + 0x00c → a ≠ tbPage + 0x044 → t.rd a = s.rd a)
  ∧ (∀ s : State, s.Canonical → s.live = true → s.bit tbPage TB.live_STARTED = true → s.onRoot = true → s.time.lastSlew + 1024 ≤ s.time.tclk →
    s.alignOwed = 0 →
    let v := signed 16 (s.fld tbPage TB.TRIM_LIVE_VALUE)
    let g := signed 16 (s.fld tbPage TB.TRIM_TARGET)
    v ≠ g →
    let d : Int := if v < g then 1 else -1
    ∃ t, exec .trimSlewStep s = .next t ∧ t.now = s.now ∧ signed 16 (t.fld tbPage TB.TRIM_LIVE_VALUE) = v + d
      ∧ t.time = { s.time with slew := s.time.slew + d, lastSlew := s.time.tclk } ∧ t.fld tbPage TB.TRIM_TARGET = s.fld tbPage TB.TRIM_TARGET
      ∧ t.bit tbPage TB.st_TRIM_DONE = (s.bit tbPage TB.st_TRIM_DONE || decide (v + d = g)))
  ∧ (∀ s : State, s.bit tbPage TB.live_STARTED = true → s.onRoot = true → s.time.resetDue = false →
    s.clock.now = s.now + BitVec.ofNat 64 (1024 + s.time.slew).toNat ∧ s.clock.time.slew = 0 ∧ s.clock.time.tclk = s.time.tclk + 1
      ∧ (s.time.wrapDue = false → (s.clock.time.wrapDue = true ↔ 2 ^ 64 ≤ s.now.toNat + (1024 + s.time.slew).toNat)))

/-- R73, R60, R399: a keyed write of TB_RESET whose conditions hold sets the timebase's bit of RESET_CAUSE and restarts the timebase with the next
TCLK cycle, in which DTIME, EPOCH and TRIM_LIVE are 0, WRAPPED is clear and TB_RESET_DONE is set; where they do not hold it is discarded with
BUSY_REJECT, and without the key with KEYFAIL. An accepted change of REFSEL leaves the main synthesizer unlocked on the way through bypass, raises
no TB_LOST and leaves the run state; a refused one is discarded with BUSY_REJECT. Beyond the rules' own words it rests on the model's choices:
assumptions 29, 78. -/
def Obligations.TimebaseWrites : Prop :=
  (∀ (s : State) (a : Bool), s.Canonical → s.hostLive = true → s.unlocked tbPage = true → s.refOk (s.bit tbPage TB.CTRL_REFSEL) = true → s.resetOk = true →
    ∃ t, exec (.tbReset a) s = .next t ∧ t.time = { s.time with resetDue := true } ∧ bitOf (t.fld chipPage CHIP.RESET_CAUSE_CAUSE) 5 = true
      ∧ t.bit tbPage TB.live_LOCKED = true ∧ t.bit tbPage TB.CTRL_TB_RESET = false ∧ t.runState = s.runState ∧ t.unlocked tbPage = false)
  ∧ (∀ s : State, s.Canonical → s.bit tbPage TB.live_STARTED = true → s.time.resetDue = true →
    let t := s.clock
    t.now = 0 ∧ t.fld tbPage TB.EPOCH_VALUE = 0 ∧ t.fld tbPage TB.TRIM_LIVE_VALUE = 0 ∧ t.time.resetDue = false
      ∧ t.bit tbPage TB.live_WRAPPED = false ∧ t.bit tbPage TB.st_TB_RESET_DONE = true ∧ t.time.tclk = s.time.tclk + 1)
  ∧ (∀ (s : State) (a : Bool), s.Canonical → s.hostLive = true → s.unlocked tbPage = true → s.resetOk = false →
    ∃ t, exec (.tbReset a) s = .next t ∧ t.bit tbPage TB.err_BUSY_REJECT = true ∧ t.time = s.time ∧ t.rd (tbPage + 0x040) = s.rd (tbPage + 0x040)
      ∧ t.rd (tbPage + 0x044) = s.rd (tbPage + 0x044) ∧ t.rd (tbPage + 0x054) = s.rd (tbPage + 0x054) ∧ t.runState = s.runState)
  ∧ (∀ (s : State) (a : Bool), s.Canonical → s.hostLive = true → s.unlocked tbPage = false →
    ∃ t, exec (.tbReset a) s = .next t ∧ t.bit tbPage PG.err_KEYFAIL = true ∧ t.time = s.time ∧ t.bit tbPage TB.CTRL_REFSEL = s.bit tbPage TB.CTRL_REFSEL
      ∧ t.rd (tbPage + 0x044) = s.rd (tbPage + 0x044) ∧ t.runState = s.runState)
  ∧ (∀ (s : State) (r a : Bool), s.Canonical → s.hostLive = true → s.unlocked tbPage = true → s.bit tbPage TB.live_STARTED = true →
    r ≠ s.bit tbPage TB.CTRL_REFSEL → s.refOk r = true →
    ∃ t, exec (.refselWrite r a) s = .next t ∧ t.bit tbPage TB.CTRL_REFSEL = r ∧ t.bit tbPage TB.CTRL_ALTREF_EN = a ∧ t.bit tbPage TB.live_LOCKED = false
      ∧ t.time = { s.time with refChange := true, window := [] } ∧ t.rd (tbPage + 0x010) = s.rd (tbPage + 0x010) ∧ t.rd (tbPage + 0x008) = s.rd (tbPage + 0x008)
      ∧ t.runState = s.runState)
  ∧ (∀ (s : State) (r a : Bool), s.Canonical → s.hostLive = true → s.unlocked tbPage = true → s.refOk r = false →
    ∃ t, exec (.refselWrite r a) s = .next t ∧ t.bit tbPage TB.err_BUSY_REJECT = true ∧ t.rd (tbPage + 0x040) = s.rd (tbPage + 0x040) ∧ t.time = s.time
      ∧ t.runState = s.runState)

/-! Channels -/

/-- R101: a selected edge of cycle m goes to the lowest-numbered active converter that is free, one that took its last edge in cycle m - 12 or
before, and makes it busy. R104, R106: the edge is counted, and the pool holds its stamp under its cycle, with the correction of that converter's
table; an open POOL_DRY gap ends. R84: behind the divider the edge counter advances by 4 at every fourth rising edge, and the pool takes nothing.
Beyond the rules' own words it rests on the model's choices: assumptions 14, 30. -/
def Obligations.EdgesEnterPool : Prop :=
  (∀ (s : State) (k : Fin 96) (fine : BitVec 10) (j : Nat), s.Canonical → s.compOn k = true → s.prescaled k = false → s.passes k (s.nextRises k) = true →
    s.unstampable k = none → j < (s.chan k).convs.length → s.canTake k j → (∀ i < j, ¬ s.canTake k i) →
    let c := ((s.chan k).conv j).table
    let stamp := Entry.stamp s.time.tclk s.now (Config.correction c.starts c.pdiff c.offset fine.toNat) (s.nextRises k)
    ∃ t, exec (.edgeArrival k fine) s = .next t ∧ (t.chan k).pipe.getLast? = some stamp
      ∧ ((s.chan k).gap = none → (t.chan k).pipe = (s.chan k).pipe ++ [stamp] ∧ (t.chan k).gap = none)
      ∧ (∀ g, (s.chan k).gap = some g → g.cause = 1 → (t.chan k).gap = none)
      ∧ ((t.chan k).conv j).busy = some s.time.tclk ∧ t.bit (chPage k) CH.LEVEL_COMP = s.nextRises k
      ∧ t.pair (chPage k) CH.ECOUNT_LO = (if (s.chan k).held then s.pair (chPage k) CH.ECOUNT_LO else min (s.pair (chPage k) CH.ECOUNT_LO + 1) (2 ^ 64 - 1))
      ∧ (t.chan k).timerFrom = s.time.tclk ∧ t.bit (chPage k) CH.live_STUCK = false ∧ ∀ i, i ≠ k.val → t.chan i = s.chan i)
  ∧ (∀ (s : State) (k : Fin 96) (fine : BitVec 10), s.Canonical → s.compOn k = true → s.prescaled k = true → s.nextRises k = true →
    ∃ t, exec (.edgeArrival k fine) s = .next t ∧ (t.chan k).pipe = (s.chan k).pipe ∧ (t.chan k).gap = (s.chan k).gap
      ∧ t.bit (chPage k) CH.LEVEL_COMP = true ∧ (t.chan k).presc = (if (s.chan k).presc = 3 then 0 else (s.chan k).presc + 1)
      ∧ t.pair (chPage k) CH.ECOUNT_LO = (if (s.chan k).presc = 3 ∧ (s.chan k).held = false then min (s.pair (chPage k) CH.ECOUNT_LO + 4) (2 ^ 64 - 1)
          else s.pair (chPage k) CH.ECOUNT_LO))

/-- R101, R107, R108 (Table 4-2): a selected edge that is not stamped is counted and opens a gap of its cause, POOL_DRY where no converter is free,
or joins the open one. A converter is free from the start of cycle m + 12, which closes a POOL_DRY gap with its marker. A gap that has reached its
limit closes with the split bit. R186: at a cycle start with 56 entries or fewer the FIFO_OVF gap of a stamp FIFO closes, and its gap pair enters
the FIFO behind the entries it holds. Beyond the rules' own words it rests on the model's choices: assumptions 30, 32, 79. -/
def Obligations.PoolGaps : Prop :=
  (∀ (s : State) (k : Fin 96) (fine : BitVec 10) (cause : Nat), s.Canonical → s.compOn k = true → s.prescaled k = false → s.passes k (s.nextRises k) = true →
    (s.chan k).gap = none → (s.unstampable k = some cause ∨ s.unstampable k = none ∧ cause = 1 ∧ ∀ i < (s.chan k).convs.length, ¬ s.canTake k i) →
    ∃ t, exec (.edgeArrival k fine) s = .next t ∧ (t.chan k).pipe = (s.chan k).pipe
      ∧ (t.chan k).gap = some ⟨cause, s.now, s.time.tclk, 1, s.time.tclk, s.coarse⟩ ∧ t.bit (chPage k) CH.live_GAP_OPEN = true
      ∧ t.pair (chPage k) CH.ECOUNT_LO = (if (s.chan k).held then s.pair (chPage k) CH.ECOUNT_LO else min (s.pair (chPage k) CH.ECOUNT_LO + 1) (2 ^ 64 - 1)))
  ∧ (∀ (s : State) (k : Fin 96) (fine : BitVec 10) (cause : Nat) (g : Gap), s.Canonical → s.compOn k = true → s.prescaled k = false →
    s.passes k (s.nextRises k) = true → (s.chan k).gap = some g → g.cause ≠ 1 → s.time.tclk ≤ g.first + 262142 → s.unstampable k = some cause →
    ∃ t, exec (.edgeArrival k fine) s = .next t ∧ (t.chan k).pipe = (s.chan k).pipe
      ∧ (t.chan k).gap = some { g with count := g.count + 1, last := s.time.tclk, coarse := g.coarse || s.coarse })
  ∧ (∀ (s : State) (k : Fin 96) (j : Fin 17) (m : Nat), s.Canonical → ((s.chan k).conv j).busy = some m → m + 12 ≤ s.time.tclk →
    ∃ t, exec (.converterRelease k j) s = .next t ∧ ((t.chan k).conv j).busy = none ∧ ((t.chan k).conv j).role = ((s.chan k).conv j).role
      ∧ (∀ g, (s.chan k).gap = some g → g.cause = 1 → ((s.chan k).conv j).role = .active → (t.chan k).gap = none ∧ t.bit (chPage k) CH.live_GAP_OPEN = false
        ∧ (t.chan k).pipe = (s.chan k).pipe ++ [.marker g.last 1 g.count (min (g.last + 1 - g.first) 262143) g.start false (g.coarse || s.coarse)])
      ∧ ((s.chan k).gap = none → (t.chan k).pipe = (s.chan k).pipe ∧ t.regs = s.regs))
  ∧ (∀ (s : State) (k : Fin 96) (g : Gap), s.Canonical → (s.chan k).gap = some g → g.cause ≠ 1 → g.first + 262142 < s.time.tclk →
    ∃ t, exec (.gapLimit k) s = .next t ∧ (t.chan k).gap = none ∧ t.bit (chPage k) CH.live_GAP_OPEN = false
      ∧ (t.chan k).pipe = (s.chan k).pipe
        ++ [.marker (g.first + 262142) g.cause g.count (min (g.last + 1 - g.first) 262143) g.start true (g.coarse || s.coarse)])
  ∧ (∀ (s : State) (g : Fin 64) (i : Fin 12) (x : FifoGap), s.Canonical → (s.fifo (12 * g + i)).gap = some x → (s.fifo (12 * g + i)).closed = [] →
    (s.fifo (12 * g + i)).heldExt = none → (s.fifo (12 * g + i)).entries.length ≤ 56 → x.last < s.time.tclk → s.time.tclk < x.first + 262143 →
    s.bit (blkPage g) BLK.live_HALTED = false →
    ∃ t, exec (.fifoOvfClose g i) s = .next t ∧ (t.fifo (12 * g + i)).gap = none
      ∧ (t.fifo (12 * g + i)).entries = (s.fifo (12 * g + i)).entries
        ++ gapPair (12 * (g.val / 8) + i) 4 x.count (min 262143 (x.last + 1 - x.first)) x.start false (x.coarse || s.coarseSince x.start)
      ∧ (∀ j, j ≠ 12 * g.val + i.val → t.fifo j = s.fifo j) ∧ t.cells = s.cells ∧ t.chans = s.chans)

/-- R89 to R92: a transition that is not passed on changes the level, restarts the stuck timer and ends a stuck condition, and no edge is counted or
stamped. The stuck timer that reaches its timeout sets STUCK with the level and the time of the last transition, and the open gate ends; a
transition that waits in the same TCLK cycle comes before it. Beyond the rules' own words it rests on the model's choices: assumption 63. -/
def Obligations.StuckDetector : Prop :=
  (∀ (s : State) (k : Fin 96), s.Canonical → s.compOn k = true → s.nextSelected k = false →
    ∃ t, exec (.comparatorTransition k) s = .next t ∧ t.bit (chPage k) CH.LEVEL_COMP = s.nextRises k ∧ t.bit (chPage k) CH.live_STUCK = false
      ∧ (t.chan k).timerFrom = s.time.tclk ∧ (t.chan k).lastAt = s.now ∧ (t.chan k).pipe = (s.chan k).pipe ∧ (t.chan k).gap = (s.chan k).gap
      ∧ t.pair (chPage k) CH.ECOUNT_LO = s.pair (chPage k) CH.ECOUNT_LO
      ∧ (s.bit (chPage k) CH.live_STUCK = true → t.bit (chPage k) CH.st_STUCK_CLEAR = true))
  ∧ (∀ (s : State) (k : Fin 96), s.Canonical → s.Calm → s.compOn k = true → s.fld (chPage k) CH.STUCK_TO_COUNT ≠ 0 → (s.chan k).expired = false →
    s.crosses k = false → (s.chan k).timerFrom + 1024 * s.fld (chPage k) CH.STUCK_TO_COUNT ≤ s.time.tclk →
    ∃ t, exec (.stuckExpiry k) s = .next t ∧ t.bit (chPage k) CH.live_STUCK = true
      ∧ t.bit (chPage k) CH.live_STUCK_LEVEL = s.bit (chPage k) CH.LEVEL_COMP ∧ t.pair (chPage k) CH.STUCK_AT_LO = (s.chan k).lastAt.toNat
      ∧ t.bit (chPage k) CH.st_STUCK_SET = true ∧ (t.acc k).gate = none ∧ (t.acc k).sub = none ∧ (t.chan k).expired = true
      ∧ (s.pendingOf (chPage k) = [] → (t.chan k).pipe = (s.chan k).pipe))
  ∧ (∀ (s : State) (k : Fin 96), s.Canonical → s.Calm → s.crosses k = true →
    ∃ t, exec (.stuckExpiry k) s = .next t ∧ t.bit (chPage k) CH.live_STUCK = s.bit (chPage k) CH.live_STUCK ∧ (t.acc k).gate = (s.acc k).gate)

/-- R104, R97, R26, R137 to R139, R184: the stamp of an edge leaves the pool 16 cycles after the edge, at the edge's cycle with the correction and
the channel's offsets added (those that stood when the edge was selected, where an apply outside a gate has replaced them, R128); the qualifier
takes it, every enabled stamp FIFO of a recording region takes its record, and in the accumulator a rising index edge opens a gate, or ends the gate
whose grid point it has reached and opens the next one. Beyond the rules' own words it rests on the model's choices: assumptions 2, 33, 68. -/
def Obligations.PoolEmits : Prop :=
  ∀ (s : State) (k : Fin 96) (m : Nat) (tc : DTime) (corr : Int) (rising : Bool), s.Canonical → s.Calm → s.insts = [] → m + 16 ≤ s.time.tclk →
    s.capturing (chRegion k) = false → (s.chan k).pipe = [.stamp m tc corr rising] → (s.acc k).early = [] →
    let u := tc + BitVec.ofInt 64 corr + BitVec.ofInt 64 (s.delayAt k m rising)
    ∃ t, exec (.poolEmit k) s = .next t ∧ (t.chan k).pipe = [] ∧ (t.qual k).last = some (u, rising)
      ∧ (t.qual k).cur.bits.testBit (if rising then 0 else 1) = true
      ∧ (∀ g, g / 8 = chRegion k → s.recording (chRegion k) = true → s.fifoOn g (k % 12) false = true → s.bit (blkPage g) BLK.live_HALTED = false →
          s.fldAt k m CH.ACC_CTRL_EN = 0 →
          (s.fifo (12 * g + k % 12)).gap = none → (s.fifo (12 * g + k % 12)).entries.length ≤ 60 → (s.fifo (12 * g + k % 12)).bit54 = some (bitOf u.toNat 54) →
          (t.fifo (12 * g + k % 12)).entries = (s.fifo (12 * g + k % 12)).entries ++ [headRec 2 k rising 0 u])
      ∧ (s.fldAt k m CH.ACC_CTRL_EN ≠ 0 → s.fldAt k m CH.ACC_CTRL_POL = 0 → rising = true → s.mayOpen k m u = true → s.recording (chRegion k) = false →
          ((s.acc k).gate = none → (∃ g, (t.acc k).gate = some g ∧ g.start = u ∧ g.idx = 0) ∧ t.bit (chPage k) CH.live_GATE_OPEN = true
            ∧ t.pair (chPage k) CH.GATE_START_LO = u.toNat)
          ∧ (∀ g, (s.acc k).gate = some g → s.gateMode k = 0 → 0 ≤ dt u g.grid → s.pendingOf (chPage k) = [] →
            (∃ g', (t.acc k).gate = some g' ∧ g'.start = u) ∧ (t.acc k).past = (g.num, g.start, u) :: (s.acc k).past
            ∧ t.fld (chPage k) CH.GATES_DONE = min (s.fld (chPage k) CH.GATES_DONE + 1) (2 ^ 32 - 1)))

/-- R143, R144, R145: a COUNT gate is reported 177 ns after the grid point that ends it, once the pool has emitted every entry of an edge before the
grid point plus 161 ns, by every instance that counts the channel, and the next gate follows; a stuck channel in TIME mode writes one result for
each grid point that passes; a grace that expires ends the open gate. Beyond the rules' own words it rests on the model's choices: assumptions 15,
31, 80. -/
def Obligations.GridResults : Prop :=
  (∀ (s : State) (k : Fin 96) (b : Bucket), s.Canonical → (s.acc k).origin.isSome = true → (s.acc k).stopped = none → s.gateMode k = 0 → s.gateLen k ≠ 0 →
    (s.acc k).buckets = [b] → b.trunc = false → 0 ≤ dt s.now (b.hi + ns 177) → 0 ≤ dt s.now b.hi →
    s.emittedTo k (b.hi + ns 161) = true →
    ∃ t, exec (.countGateResult k) s = .next t ∧ (∃ r, (t.acc k).buckets = ⟨b.num + 1, b.hi, b.hi + BitVec.ofNat 64 (s.gateLen k), false⟩ :: r)
      ∧ (t.acc k).times = (s.acc k).times.filter (fun e => decide (0 ≤ dt e.1 b.hi)) ∧ t.freeCtr = s.freeCtr + 1
      ∧ ∀ i x, s.inst i = some x → t.inst i = some (if isCount x.meas k then { x with results := x.results + 1 } else x))
  ∧ (∀ (s : State) (k : Fin 96) (j : Nat), s.Canonical → (s.acc k).stuckNext = some j → s.bit (chPage k) CH.live_STUCK = true → s.gateMode k = 0 →
    0 ≤ dt s.now (s.gridPoint k j) →
    ∃ t, exec (.stuckGridResult k) s = .next t ∧ (t.acc k).stuckNext = some (j + 1)
      ∧ ∀ i x, s.inst i = some x → x.meas.ch.val = k.val → x.meas.kind = .recip → t.inst i = some { x with results := x.results + 1 })
  ∧ (∀ (s : State) (k : Fin 96) (u : DTime), s.Canonical → (s.acc k).stopped = some u → (s.acc k).graceOver = false →
    0 ≤ dt s.now (u + ns (1024 * s.fld (chPage k) CH.GATE_GRACE_COUNT)) →
    ∃ t, exec (.graceExpiry k) s = .next t ∧ (t.acc k).graceOver = true ∧ (t.acc k).gate = none)

/-- R147, R148, R158: results are rounded once, to the nearest value of their field, ties to even. A frequency lies within half a unit of its field,
which saturates; the line of a regression solves the normal equations of its sums; a deviation is the nearest root; statistics hold count, sum,
extremes and squares of their samples. Beyond the rules' own words it rests on the model's choices: assumptions 20, 76. -/
def Obligations.MeasurementArithmetic : Prop :=
  (∀ r : Rat, |(roundEven r : Rat) - r| ≤ 1 / 2 ∧ (|(roundEven r : Rat) - r| = 1 / 2 → roundEven r % 2 = 0))
  ∧ (∀ (n : Nat) (d : Int) (free : Nat), 0 < d →
    let x : Rat := (n : Rat) * 1024000000000 / d * 2 ^ 36
    (x + 1 / 2 < 2 ^ 72 → (freqField n d free).2 = false ∧ |((freqField n d free).1 : Rat) - x| ≤ 1 / 2)
      ∧ ((2 : Rat) ^ 72 ≤ x → freqField n d free = (2 ^ 72 - 1, true)))
  ∧ (∀ (g : Gate) (b a : Rat), gateFit g = some (b, a) →
    a * g.m + b * g.si = g.st ∨ g.m = 0)
  ∧ (∀ (g : Gate) (b a : Rat), gateFit g = some (b, a) → g.m ≠ 0 → a * g.si + b * g.sii = g.sit)
  ∧ (∀ v : Rat, 0 ≤ v → v < 2 ^ 200 → 4 * v ≤ ((2 * sqrtEven v + 1 : Nat) : Rat) ^ 2 ∧ (sqrtEven v ≠ 0 → ((2 * sqrtEven v - 1 : Nat) : Rat) ^ 2 ≤ 4 * v))
  ∧ (∀ l : List Int, l ≠ [] →
    let u := l.foldl Sums.add Sums.empty
    u.n = l.length ∧ u.sum = l.sum ∧ u.sumSq = (l.map fun x => x * x).sum ∧ u.min ∈ l ∧ u.max ∈ l ∧ ∀ x ∈ l, u.min ≤ x ∧ x ≤ u.max)

/-- R114 to R117, R123, R124: a nurse duty of 131,072 cycles within the limits moves every entry of the table by one quarter of the difference; one
beyond them keeps the table, and the third in a row retires the converter. After an accepted duty the nurse and the next active converter change
roles, which keeps the number of active ones; after a retirement with DEGRADE 0 the next active converter becomes nurse. Beyond the rules' own words
it rests on the model's choices: assumptions 14, 62. -/
def Obligations.NurseDuties : Prop :=
  (∀ (s : State) (k : Fin 96) (d : Duty) (u j : Nat), s.Canonical → (s.chan k).convs.length = 17 → (s.chan k).duty = some u → (s.chan k).nurse = some j → s.rotationOk k = true →
    u + 131072 ≤ s.time.tclk → s.bit (chPage k) CH.POOL_CTRL_NURSE_EN = true →
    let v := (s.chan k).conv j
    (dutyOk d v.table = true →
      ∃ t, exec (.nurseDutyEnd k d) s = .next t ∧ (t.chan k).accepted = true ∧ (t.chan k).duty = none
        ∧ ((t.chan k).conv j).table.offset = v.table.offset + (d.offset - v.table.offset) / 4
        ∧ ((t.chan k).conv j).table.pdiff = v.table.pdiff + (ringDiff d - v.table.pdiff) / 4 ∧ ((t.chan k).conv j).rejects = 0
        ∧ (∀ i, i ≠ j → (t.chan k).conv i = (s.chan k).conv i) ∧ t.fld (chPage k) CH.CAL_LAST_CONV = j % 32 ∧ t.bit (chPage k) CH.CAL_LAST_ACCEPTED = true
        ∧ t.fld (chPage k) CH.ROTATIONS = (s.fld (chPage k) CH.ROTATIONS + 1) % 2 ^ 32)
    ∧ (dutyOk d v.table = false →
      ∃ t, exec (.nurseDutyEnd k d) s = .next t ∧ ((t.chan k).conv j).table = v.table ∧ ((t.chan k).conv j).rejects = min 3 (v.rejects + 1)
        ∧ t.bit (chPage k) CH.st_CAL_REJECT = true ∧ (v.rejects < 2 → ((t.chan k).conv j).role = .nurse ∧ (t.chan k).duty = some s.time.tclk)
        ∧ (2 ≤ v.rejects → ((t.chan k).conv j).role = .retired ∧ t.bit (chPage k) CH.st_RETIRE = true ∧ t.bit (chPage k) CH.err_CONV_RETIRED = true)))
  ∧ (∀ (s : State) (k : Fin 96) (n o : Nat), s.Canonical → (s.chan k).convs.length = 17 → (s.chan k).accepted = true → (s.chan k).nurse = some n →
    (s.chan k).nextActive n = some o → s.canTake k o →
    ∃ t, exec (.nurseSwap k) s = .next t ∧ ((t.chan k).conv n).role = .active ∧ ((t.chan k).conv n).busy = none ∧ ((t.chan k).conv o).role = .nurse
      ∧ (t.chan k).active = (s.chan k).active ∧ (t.chan k).accepted = false)
  ∧ (∀ (s : State) (k : Fin 96) (o : Nat), s.Canonical → (s.chan k).convs.length = 17 → (s.chan k).nurse = none → (s.chan k).failed = false →
    (s.chan k).awaitNurse = true → s.bit (chPage k) CH.POOL_STATUS_READY = true → (s.chan k).nextActive (s.chan k).lastNurse = some o →
    s.canTake k o →
    ∃ t, exec (.nurseReassign k) s = .next t ∧ ((t.chan k).conv o).role = .nurse ∧ (t.chan k).active + 1 = (s.chan k).active)

/-- R119 to R122, R399: the initial calibration of healthy pools leaves C16 nurse and C0 to C15 active and makes every pool and the part READY; a
keyed RECAL between runs takes its pool out until it ends, and a converter that failed it is retired; a ready check that finds nothing returns the
pool as it was. A RECAL at another time is discarded with RECAL_REJECT, and one without the key with KEYFAIL. Beyond the rules' own words it rests
on the model's choices: assumption 62. -/
def Obligations.Calibrations : Prop :=
  (∀ (s : State) (tables : List (Fin 96 × Fin 17 × CalTable)), s.Canonical → s.live = true → s.asleep = false → s.causeThermal = false → s.causeUe = false →
    s.power.startup ≠ .ready → (∀ k < 96, (s.chan k).cal = .initial ∧ (s.chan k).convs.length = 17) →
    ∃ t, exec (.initialCalDone [] tables) s = .next t ∧ t.power.startup = .ready ∧ t.bit chipPage CHIP.live_READY = true
      ∧ ∀ k < 96, t.bit (chPage k) CH.POOL_STATUS_READY = true ∧ (t.chan k).cal = .none
        ∧ ∀ j < 17, ((t.chan k).conv j).role = (if j = 16 then .nurse else .active))
  ∧ (∀ (s : State) (k : Fin 96) (v : Dword), s.Canonical → s.hostLive = true → s.unlocked (chPage k) = true →
    (s.betweenRuns = true → ∃ t, exec (.poolRecal k v) s = .next t ∧ (t.chan k).cal = .recal ∧ t.bit (chPage k) CH.POOL_STATUS_READY = false
      ∧ t.bit (chPage k) CH.POOL_STATUS_CALIBRATING = true)
    ∧ (s.betweenRuns = false → ∃ t, exec (.poolRecal k v) s = .next t ∧ t.chans = s.chans ∧ t.bit (chPage k) CH.err_RECAL_REJECT = true
      ∧ t.rd (chPage k + 0x080) = s.rd (chPage k + 0x080)))
  ∧ (∀ (s : State) (k : Fin 96) (v : Dword), s.Canonical → s.hostLive = true → s.unlocked (chPage k) = false →
    ∃ t, exec (.poolRecal k v) s = .next t ∧ t.chans = s.chans ∧ t.bit (chPage k) PG.err_KEYFAIL = true ∧ t.rd (chPage k + 0x080) = s.rd (chPage k + 0x080))
  ∧ (∀ (s : State) (k : Fin 96) (failed : BitVec 17) (tables : List (Fin 96 × Fin 17 × CalTable)), s.Canonical → s.live = true → s.asleep = false →
    (s.chan k).cal = .recal → (s.chan k).convs.length = 17 →
    ∃ t, exec (.recalDone k failed tables) s = .next t ∧ (t.chan k).cal = .none ∧ t.bit (chPage k) CH.POOL_STATUS_READY = true
      ∧ t.bit (chPage k) CH.POOL_STATUS_CALIBRATING = false
      ∧ ∀ j < 17, (failed.getLsbD j = true ↔ ((t.chan k).conv j).role = .retired) ∧ (failed = 0 → ((t.chan k).conv j).role = (if j = 16 then .nurse else .active)))
  ∧ (∀ (s : State) (k : Fin 96), s.Canonical → s.live = true → s.asleep = false → (s.chan k).cal = .check →
    ∃ t, exec (.readyCheckDone []) s = .next t ∧ (t.chan k).cal = .none ∧ t.bit (chPage k) CH.POOL_STATUS_READY = true ∧ (t.chan k).convs = (s.chan k).convs)

/-- R85, R87, R393, R399: a keyed write of CH.INPUT or of CH.PAGE_CTRL.RUN between runs takes effect; during a run it is discarded with BUSY_REJECT;
a reserved mode, PAIRED on an even channel and PRESCALE in a pair are discarded with ENCODING; without the key the write is discarded with KEYFAIL.
R221, R239, R399: keyed writes of ESL.CTRL, ESL.SKEW and REG.CAP_CTRL between runs take effect; during a run they are discarded with BUSY_REJECT,
and without the key with KEYFAIL. Beyond the rules' own words it rests on the model's choices: assumption 21. -/
def Obligations.RunGuardedWrites : Prop :=
  (∀ (s : State) (k : Fin 96) (v : Dword) (a b : Bool), s.Canonical → s.hostLive = true → s.unlocked (chPage k) = true →
    (s.betweenRuns = true → getBits v 0 2 < 2 →
      (if k.val % 2 = 0 then getBits v 4 1 = 0 ∧ (getBits v 3 1 = 0 ∨ s.paired (k + 1) = false) else getBits v 4 1 = 0 ∨ getBits v 3 1 = 0 ∧ s.prescaled (k - 1) = false) →
      ∃ t, exec (.inputWrite k v a b) s = .next t ∧ t.fld (chPage k) ⟨0x040, 0, 4⟩ = getBits v 0 4
        ∧ (k.val % 2 = 1 → t.bit (chPage k) CH.INPUT_PAIRED = (getBits v 4 1 == 1)) ∧ t.unlocked (chPage k) = false)
    ∧ (s.betweenRuns = false → ∃ t, exec (.inputWrite k v a b) s = .next t ∧ t.bit (chPage k) CH.err_BUSY_REJECT = true
      ∧ t.rd (chPage k + 0x040) = s.rd (chPage k + 0x040) ∧ t.chans = s.chans)
    ∧ (s.betweenRuns = true → (2 ≤ getBits v 0 2 ∨ k.val % 2 = 0 ∧ getBits v 4 1 = 1 ∨ k.val % 2 = 1 ∧ getBits v 4 1 = 1 ∧ getBits v 3 1 = 1) →
      ∃ t, exec (.inputWrite k v a b) s = .next t ∧ t.bit (chPage k) CH.err_ENCODING = true ∧ t.rd (chPage k + 0x040) = s.rd (chPage k + 0x040)
        ∧ t.chans = s.chans))
  ∧ (∀ (s : State) (k : Fin 96) (v : Dword) (a b : Bool), s.Canonical → s.hostLive = true → s.unlocked (chPage k) = false →
    ∃ t, exec (.inputWrite k v a b) s = .next t ∧ t.bit (chPage k) PG.err_KEYFAIL = true ∧ t.rd (chPage k + 0x040) = s.rd (chPage k + 0x040)
      ∧ t.chans = s.chans)
  ∧ (∀ (s : State) (k : Fin 96) (run level : Bool), s.Canonical → s.hostLive = true → s.unlocked (chPage k) = true →
    (s.betweenRuns = true → ∃ t, exec (.chPageCtrlWrite k run level) s = .next t ∧ t.bit (chPage k) PG.CTRL_RUN = run ∧ t.unlocked (chPage k) = false
      ∧ (run = false → s.bit (chPage k) PG.CTRL_RUN = true → t.bit (chPage k) CH.live_STUCK = false))
    ∧ (s.betweenRuns = false → ∃ t, exec (.chPageCtrlWrite k run level) s = .next t ∧ t.rd (chPage k + 0x004) = s.rd (chPage k + 0x004)
      ∧ t.bit (chPage k) CH.err_BUSY_REJECT = true ∧ t.chans = s.chans))
  ∧ (∀ (s : State) (skew : Bool) (v : Dword), s.Canonical → s.hostLive = true →
    let a := eslPage + (if skew then 0x044 else 0x040)
    (s.unlocked eslPage = true → s.betweenRuns = true → (skew = true ∨ getBits v 1 2 ≠ 3) →
      ∃ t, exec (.eslCtrlWrite skew v) s = .next t ∧ (if skew then t.fld eslPage ESL.SKEW_VALUE = getBits v 0 20
          else t.fld eslPage ⟨0x040, 0, 3⟩ = getBits v 0 3) ∧ t.unlocked eslPage = false
        ∧ (skew = false → getBits v 0 1 = 0 → t.bit eslPage ESL.STATUS_ALIGNED = false))
    ∧ (s.unlocked eslPage = true → s.betweenRuns = false →
      ∃ t, exec (.eslCtrlWrite skew v) s = .next t ∧ t.rd a = s.rd a ∧ t.bit eslPage ESL.err_BUSY_REJECT = true ∧ t.esl = s.esl)
    ∧ (s.unlocked eslPage = false →
      ∃ t, exec (.eslCtrlWrite skew v) s = .next t ∧ t.rd a = s.rd a ∧ t.bit eslPage PG.err_KEYFAIL = true ∧ t.esl = s.esl))
  ∧ (∀ (s : State) (n : Fin 8) (v : Dword), s.Canonical → s.hostLive = true →
    (s.unlocked (regPage n) = true → s.betweenRuns = true →
      ∃ t, exec (.capCtrlWrite n v) s = .next t ∧ t.capMode n = getBits v 0 2 ∧ t.unlocked (regPage n) = false ∧ t.caps = s.caps)
    ∧ (s.unlocked (regPage n) = true → s.betweenRuns = false →
      ∃ t, exec (.capCtrlWrite n v) s = .next t ∧ t.rd (regPage n + 0x238) = s.rd (regPage n + 0x238) ∧ t.bit (regPage n) REG.CAP_EVENTS_BUSY_REJECT = true)
    ∧ (s.unlocked (regPage n) = false →
      ∃ t, exec (.capCtrlWrite n v) s = .next t ∧ t.rd (regPage n + 0x238) = s.rd (regPage n + 0x238) ∧ t.bit (regPage n) PG.err_KEYFAIL = true))

/-! Triggers and step lanes -/

/-- R213 to R219, R230: in the cycle after its put slot a trigger counts in TRIG_COUNT and LAST_TRIG of its region, pulses TRIG_OUT where its
configuration and OUT_EN ask for it, and reaches the capture writers that its configuration names: a segment in its PRE phase with PRE records
accepts it, one with fewer refuses it. The pulse ends after its width. A selected edge of TRIG_IN is stamped while its converter is free, and 16
cycles after it its count and its time stand in the window of every region. Beyond the rules' own words it rests on the model's choices: assumptions
36, 37. -/
def Obligations.TriggersAct : Prop :=
  (∀ (s : State) (g : Trig), s.Canonical → s.live = true → s.Calm → s.trigs = [g] → g.cycle < s.time.tclk → g.region < 8 →
    let v := (s.trigCfg g).toNat
    bitOf v 21 = false →
    ((∀ n < 8, bitOf v (12 + n) = false) →
      ∃ t, exec .triggerDeliver s = .next t ∧ t.trigs = []
        ∧ t.fld (regPage g.region) REG.TRIG_COUNT = min (s.fld (regPage g.region) REG.TRIG_COUNT + 1) (2 ^ 32 - 1)
        ∧ t.pair (regPage g.region) REG.LAST_TRIG_LO = g.time.toNat ∧ t.runState = s.runState
        ∧ (∀ n < 8, t.cap n = { s.cap n with lossAt := (t.cap n).lossAt } ∧ t.capPhase n = s.capPhase n)
        ∧ t.trigOut = (if bitOf v 20 ∧ s.bit chipPage CHIP.TRIG_IO_OUT_EN = true then some s.time.tclk else s.trigOut))
    ∧ ∀ n < 8, (∀ m < 8, bitOf v (12 + m) = decide (m = n)) → s.capturing n = true → s.segMode n = true → s.capPhase n = 1 → (s.cap n).stopped = false →
      (s.fld (regPage n) REG.CAP_PRE_VALUE ≤ min (s.cap n).count (s.segLen n) → s.fld (regPage n) REG.CAP_POST_VALUE ≠ 0 → (s.cap n).began ≤ g.cycle →
        (∀ p ∈ (s.cap n).memory, p.1 < (s.cycleOf g.time).toNat) →
        ∃ t, exec .triggerDeliver s = .next t ∧ t.capPhase n = 2 ∧ ∃ x, (t.cap n).trig = some x ∧ x.time = g.time ∧ x.src = g.src ∧ x.region = g.region
          ∧ x.sq = g.sq ∧ x.late = false ∧ x.first = none ∧ x.post = s.fld (regPage n) REG.CAP_POST_VALUE)
      ∧ (min (s.cap n).count (s.segLen n) < s.fld (regPage n) REG.CAP_PRE_VALUE →
        ∃ t, exec .triggerDeliver s = .next t ∧ t.capPhase n = 1 ∧ t.cap n = { s.cap n with lossAt := (t.cap n).lossAt }
          ∧ t.fld (regPage n) REG.TRIG_IGNORED = min (s.fld (regPage n) REG.TRIG_IGNORED + 1) (2 ^ 32 - 1)))
  ∧ (∀ (s : State) (m : Nat), s.trigOut = some m → m + max 1 (s.fld chipPage CHIP.TRIG_IO_OUT_WIDTH) ≤ s.time.tclk →
    ∃ t, exec .trigOutEnd s = .next t ∧ t = { s with trigOut := none } ∧ t.trigOutLevel = s.bit chipPage CHIP.TRIG_IO_OUT_POL)
  ∧ (∀ (s : State) (rising : Bool) (fine : BitVec 10), s.live = true → s.bit chipPage CHIP.TRIG_IO_IN_EN = true →
    rising ≠ s.bit chipPage CHIP.TRIG_IO_IN_POL →
    ∃ t, exec (.trigInEdge rising fine) s = .next t ∧ t = { s with trigIn := t.trigIn } ∧ t.trigIn.level = rising
      ∧ ((∀ m, s.trigIn.busy = some m → m + 12 ≤ s.time.tclk) → t.trigIn.busy = some s.time.tclk
        ∧ t.trigIn.pipe = s.trigIn.pipe ++ [(s.time.tclk, some (s.now + fine.setWidth 64))])
      ∧ (∀ m, s.trigIn.busy = some m → s.time.tclk < m + 12 → t.trigIn.busy = some m ∧ t.trigIn.pipe = s.trigIn.pipe ++ [(s.time.tclk, none)]))
  ∧ (∀ (s : State) (m : Nat) (u : Option DTime) (r : List (Nat × Option DTime)), s.Canonical → s.trigIn.pipe = (m, u) :: r → m + 16 ≤ s.time.tclk →
    ∃ t, exec .trigInEmit s = .next t ∧ t.trigIn.pipe = r
      ∧ ∀ n < 8, (t.winOf n).edges = (s.winOf n).edges + 1 ∧ (t.winOf n).missed = ((s.winOf n).missed || u.isNone)
        ∧ (t.winOf n).trigT = (match (s.winOf n).trigT with | some x => some x | none => u))

/-- R221 to R227: the 20 bytes of a frame travel striped over the lanes in use. A whole frame steps STEPS, its boundary is stamped at the arrival of
its first bit plus SKEW, and its number, its probe bits and the matchers that they satisfy become visible in the next cycle; a frame that fails its
check counts in CRC_ERRS or CODE_ERRS, and its number is the one after the last. A loss of alignment stops reception and counts in ALIGN_LOSSES; an
alignment character restores it. Beyond the rules' own words it rests on the model's choices: assumptions 75, 82. -/
def Obligations.StepFrames : Prop :=
  (∀ (w : Nat) (bs : List (BitVec 8)), (w = 1 ∨ w = 2 ∨ w = 4) → bs.length = 20 →
    frameBytes w ((List.range w).map fun l => (StepChar.start :: (List.range (20 / w)).map fun j => StepChar.data (bs.getD (w * j + l) 0)) ++ [StepChar.stop]) = some bs)
  ∧ (∀ (s : State) (start : DTime) (lanes : List (List StepChar)) (num : Nat) (probe : BitVec 64), s.Canonical → s.live = true → s.inCluster = false →
    s.bit eslPage ESL.CTRL_EN = true → s.alignedAt start = (true, false) →
    let u := start + BitVec.ofInt 64 (signed 20 (s.fld eslPage ESL.SKEW_VALUE))
    let disc := !s.esl.first && s.esl.prev.any fun p => decide ((p + 1) % 2 ^ 48 ≠ num)
    let next := match s.esl.prev with | some p => (p + 1) % 2 ^ 48 | none => s.free.toNat % 2 ^ 48
    (frameCheck s.laneCount lanes = (.good, num, probe) →
      ∃ t, exec (.stepFrame start lanes) s = .next t ∧ t.pair eslPage ESL.STEPS_LO = min (s.pair eslPage ESL.STEPS_LO + 1) (2 ^ 64 - 1)
        ∧ t.rd (eslPage + 0x058) = BitVec.ofNat 32 num ∧ t.fld eslPage ESL.LAST_STEP_HI_VALUE_HI = num / 2 ^ 32 % 2 ^ 16
        ∧ t.esl.prev = some num ∧ t.esl.lastStart = some start ∧ t.esl.due = s.esl.due ++ [⟨some (num, probe), u, disc, s.hits start probe⟩]
        ∧ t.esl.view = s.esl.view ∧ t.fld eslPage ESL.CRC_ERRS = s.fld eslPage ESL.CRC_ERRS ∧ t.fld eslPage ESL.CODE_ERRS = s.fld eslPage ESL.CODE_ERRS
        ∧ (disc = true → t.bit eslPage ESL.err_DISCONT = true)
        ∧ t.fld eslPage ESL.DISCONTS = min (s.fld eslPage ESL.DISCONTS + (if disc then 1 else 0)) (2 ^ 32 - 1))
    ∧ (frameCheck s.laneCount lanes = (.crc, num, probe) →
      ∃ t, exec (.stepFrame start lanes) s = .next t ∧ t.bit eslPage ESL.err_CRC = true
        ∧ t.fld eslPage ESL.CRC_ERRS = min (s.fld eslPage ESL.CRC_ERRS + 1) (2 ^ 32 - 1) ∧ t.rd (eslPage + 0x058) = s.rd (eslPage + 0x058)
        ∧ t.esl.prev = some next ∧ t.esl.due = s.esl.due ++ [⟨none, u, false, 0⟩])
    ∧ (frameCheck s.laneCount lanes = (.code, num, probe) →
      ∃ t, exec (.stepFrame start lanes) s = .next t ∧ t.bit eslPage ESL.err_CODE = true
        ∧ t.fld eslPage ESL.CODE_ERRS = min (s.fld eslPage ESL.CODE_ERRS + 1) (2 ^ 32 - 1) ∧ t.fld eslPage ESL.CRC_ERRS = s.fld eslPage ESL.CRC_ERRS
        ∧ t.esl.prev = some next ∧ t.esl.due = s.esl.due ++ [⟨none, u, false, 0⟩]))
  ∧ (∀ (s : State) (d : StepDue) (num : Nat) (probe : BitVec 64), s.Canonical → s.esl.due = [d] →
    let t := s.showSteps
    t.esl.due = [] ∧ (d.good = some (num, probe) → t.stepView = ⟨num, probe, some d.boundary⟩)
    ∧ (d.good = none → t.stepView = ⟨s.stepView.num, s.stepView.probe, some d.boundary⟩)
    ∧ ∀ n < 8, (t.winOf n).frames = (s.winOf n).frames + 1 ∧ (t.winOf n).err = ((s.winOf n).err || d.good.isNone)
      ∧ (t.winOf n).discont = ((s.winOf n).discont || d.discont) ∧ (t.winOf n).hits = (s.winOf n).hits ||| d.hits)
  ∧ (∀ (s : State) (on : Option (BitVec 4)) (locked : BitVec 4) (estep : Bool), s.Canonical → s.live = true → s.asleep = false →
    s.bit eslPage ESL.CTRL_EN = true → s.bit eslPage ESL.STATUS_ALIGNED = true →
    (s.alignBroken on = true →
      ∃ t, exec (.eslAlignLost on locked estep) s = .next t ∧ t.bit eslPage ESL.STATUS_ALIGNED = false
        ∧ t.fld eslPage ESL.STATUS_LANE_LOCK = locked.toNat &&& s.laneMask ∧ t.bit eslPage ESL.STATUS_ESTEP = estep
        ∧ t.bit eslPage ESL.st_ALIGN_LOST = true ∧ t.fld eslPage ESL.ALIGN_LOSSES = min (s.fld eslPage ESL.ALIGN_LOSSES + 1) (2 ^ 32 - 1)
        ∧ t.esl.first = true ∧ t.esl.prev = s.esl.prev ∧ t.esl.view = s.esl.view)
    ∧ (s.alignBroken on = false →
      ∃ t, exec (.eslAlignLost on locked estep) s = .next t ∧ t.bit eslPage ESL.STATUS_ALIGNED = true
        ∧ t.fld eslPage ESL.STATUS_LANE_LOCK = locked.toNat &&& s.laneMask ∧ t.bit eslPage ESL.STATUS_ESTEP = estep ∧ t.esl = s.esl))
  ∧ (∀ (s : State) (estep : Bool), s.Canonical → s.live = true → s.asleep = false → s.bit eslPage ESL.CTRL_EN = true → s.bit eslPage ESL.STATUS_ALIGNED = false →
    ∃ t, exec (.eslAlignChar estep) s = .next t ∧ t.bit eslPage ESL.STATUS_ALIGNED = true ∧ t.bit eslPage ESL.st_ALIGN_GAINED = true
      ∧ t.fld eslPage ESL.STATUS_LANE_LOCK = (match s.fld eslPage ESL.CTRL_WIDTH with | 0 => 1 | 1 => 3 | _ => 15) ∧ t.bit eslPage ESL.STATUS_ESTEP = estep
      ∧ t.esl.charAt = some s.now ∧ t.fld eslPage ESL.ALIGN_LOSSES = s.fld eslPage ESL.ALIGN_LOSSES)

/-! Writers and banks -/

/-- R255, R258, R267: a writer whose input holds two records or more writes them as the two halves of the next line of its stripe group, each with
fresh check bits; a lone record is completed with a pad after 64 TCLK cycles; each line is granted a lane. In a segment the records take the next
two places. No other half of the store changes. Beyond the rules' own words it rests on the model's choices: assumptions 8, 74, 83. -/
def Obligations.WritersWrite : Prop :=
  (∀ (s : State) (i : Fin 16) (a : Nat) (r0 r1 : Rec) (q : List Batch), s.Canonical → s.Calm → s.live = true → s.inCluster = false →
    (i.val < 8 → s.segMode i = false) → (8 ≤ i.val → s.remote (i - 8) = false) →
    let w := s.writer i
    let p := s.place i w.group w.line
    w.queue = ⟨a, [r0, r1]⟩ :: q → w.inGroup = false → w.line < groupLines (s.ring i).2.2 → s.canWrite i = true →
    s.gate p.1 (if i.val < 8 then 1 else 2) 0 = .granted → s.granted s.aclk s.others (.line i false) = true →
    s.injectArmed 1 p.1 = false → s.injectArmed 2 p.1 = false →
    ∃ t, exec (.writerLineWrite i) s = .next t ∧ t.half (halfIdx p.1 p.2 0) = Half.fresh r0 ∧ t.half (halfIdx p.1 p.2 1) = Half.fresh r1
      ∧ (∀ j, j ≠ halfIdx p.1 p.2 0 → j ≠ halfIdx p.1 p.2 1 → t.half j = s.half j) ∧ (t.writer i).queue = q ∧ (t.writer i).line = w.line + 1
      ∧ (t.writer i).group = w.group ∧ (t.writer i).fills = w.fills ∧ (t.writer i).entered = decide (w.line + 1 ≠ groupLines (s.ring i).2.2)
      ∧ t.fld (bankPage p.1) BANK.WPTR_LINE = (p.2 + 1) % 16384 ∧ t.cells = s.cells)
  ∧ (∀ (s : State) (i : Fin 16) (a : Nat) (r0 : Rec), s.Canonical → s.Calm → s.live = true → s.inCluster = false →
    (i.val < 8 → s.segMode i = false) → (8 ≤ i.val → s.remote (i - 8) = false) →
    let w := s.writer i
    let p := s.place i w.group w.line
    w.queue = [⟨a, [r0]⟩] → w.since + 64 ≤ s.time.tclk → w.line < groupLines (s.ring i).2.2 → s.canWrite i = true →
    s.gate p.1 (if i.val < 8 then 1 else 2) 0 = .granted → s.granted s.aclk s.others (.line i true) = true →
    s.injectArmed 1 p.1 = false → s.injectArmed 2 p.1 = false →
    ∃ t, exec (.padTimeout i) s = .next t ∧ t.half (halfIdx p.1 p.2 0) = Half.fresh r0 ∧ t.half (halfIdx p.1 p.2 1) = Half.fresh Rec.pad
      ∧ (∀ j, j ≠ halfIdx p.1 p.2 0 → j ≠ halfIdx p.1 p.2 1 → t.half j = s.half j) ∧ (t.writer i).queue = [] ∧ (t.writer i).line = w.line + 1)
  ∧ (∀ (s : State) (n : Fin 8) (a : Nat) (r0 r1 : Rec) (q : List Batch), s.Canonical → s.Calm → s.live = true → s.inCluster = false → s.segMode n = true →
    s.capPhase n = 1 → (s.cap n).stopEnd = false →
    let l := s.nextLine n
    let p := s.place n l.1 l.2
    (s.writer n).queue = ⟨a, [r0, r1]⟩ :: q → (s.writer n).inGroup = false → s.canWrite n = true → s.gate p.1 1 0 = .granted →
    s.granted s.aclk s.others (.line n false) = true → s.injectArmed 1 p.1 = false → s.injectArmed 2 p.1 = false →
    ∃ t, exec (.writerLineWrite (n.castLE (by decide))) s = .next t ∧ t.half (halfIdx p.1 p.2 0) = Half.fresh r0 ∧ t.half (halfIdx p.1 p.2 1) = Half.fresh r1
      ∧ (∀ j, j ≠ halfIdx p.1 p.2 0 → j ≠ halfIdx p.1 p.2 1 → t.half j = s.half j) ∧ (t.cap n).count = (s.cap n).count + 2 ∧ t.capPhase n = 1
      ∧ (t.writer n).queue = q)

/-- R268, R269, R272: a writer enters its next stripe group once it owns every bank of it, and is stalled until then. While the buffer holds more
than 768 records the captured channel of the lowest rank is demoted; after 128 TCLK cycles at 256 records or fewer the demoted one of the highest
rank is restored and its loss interval closes. A closed loss is written as a loss record as soon as the put queue has room for it. Beyond the rules'
own words it rests on the model's choices: assumptions 39, 81. -/
def Obligations.WritersYield : Prop :=
  (∀ (s : State) (i : Fin 16), s.Canonical → s.live = true → s.inCluster = false → (i.val < 8 → s.segMode i = false) →
    (8 ≤ i.val → s.remote (i - 8) = false) → (s.ring i).2.1 ≠ 0 → (s.writer i).entered = false →
    s.isFrozen (regPage (i % 8)) (if i.val < 8 then 8 else 9) = false →
    let g := s.nextGroup i
    ((∀ b ∈ s.groupBanks i g, s.ownerNow b = (if i.val < 8 then 1 else 2) ∧ s.draining b = false) →
      ∃ t, exec (.stripeGroupEnter i) s = .next t ∧ t.writer i = { s.writer i with line := 0, group := g, entered := true, fills := (s.writer i).fills + 1 }
        ∧ t.bit (regPage (i % 8)) REG.st_RING_ADVANCE = true
        ∧ t.bit (regPage (i % 8)) (if i.val < 8 then REG.live_CAP_STALLED else REG.live_REC_STALLED) = false
        ∧ ∀ b ∈ s.groupBanks i g, t.fld (bankPage b) BANK.WPTR_FILL_NO = ((s.writer i).fills + 1) % 65536 ∧ t.fld (bankPage b) BANK.WPTR_LINE = 0
          ∧ t.bit (bankPage b) BANK.live_WRITER_IN = true)
    ∧ ((∃ b ∈ s.groupBanks i g, s.ownerNow b ≠ (if i.val < 8 then 1 else 2) ∨ s.draining b = true) →
      ∃ t, exec (.stripeGroupEnter i) s = .next t ∧ t.writer i = s.writer i
        ∧ t.bit (regPage (i % 8)) (if i.val < 8 then REG.live_CAP_STALLED else REG.live_REC_STALLED) = true))
  ∧ (∀ (s : State) (n : Fin 8), s.Canonical → s.capturing n = true → 768 < (s.writer n).held → (s.cap n).demotedAt ≠ some s.time.tclk →
    s.captured n false ≠ [] →
    ∃ t i, exec (.demote n) s = .next t ∧ i ∈ s.captured n false ∧ (∀ j ∈ s.captured n false, s.rank n i ≤ s.rank n j)
      ∧ i ∈ t.captured n true ∧ t.bit (regPage n) REG.st_DEMOTE = true ∧ (t.cap n).demotedAt = some s.time.tclk
      ∧ ∀ j < 12, j ≠ i → bitOf (t.fld (regPage n) REG.DEMOTED_CH) j = bitOf (s.fld (regPage n) REG.DEMOTED_CH) j)
  ∧ (∀ (s : State) (n : Fin 8) (u : Nat), s.Canonical → s.capturing n = true → (s.cap n).low = some u → u + 128 ≤ s.time.tclk →
    (∃ i < 12, bitOf (s.fld (regPage n) REG.DEMOTED_CH) i = true) →
    ∃ t i, exec (.restore n) s = .next t ∧ i < 12 ∧ bitOf (s.fld (regPage n) REG.DEMOTED_CH) i = true
      ∧ (∀ j < 12, bitOf (s.fld (regPage n) REG.DEMOTED_CH) j = true → s.rank n j ≤ s.rank n i)
      ∧ bitOf (t.fld (regPage n) REG.DEMOTED_CH) i = false ∧ t.bit (regPage n) REG.st_RESTORE = true ∧ (t.cap n).low = some s.time.tclk
      ∧ ∀ l ∈ t.lossesOf n, l.cause = 1 → l.src = 12 * n + i → l.closed = true)
  ∧ (∀ (s : State) (n : Fin 8) (l : Loss) (r : List Loss), s.Canonical → s.lossesOf n = l :: r → l.closed = true → s.recFrozen n = false → s.hasRing n = true →
    s.bit (regPage n) REG.live_REC_STALLED = false → s.putHeld n + s.extNeed (streamRec n) l.src l.first + 3 ≤ 256 →
    ∃ t seq, exec (.lossRecordWrite n) s = .next t ∧ t.lossesOf n = r ∧ t.bit (regPage n) REG.st_LOSS = true
      ∧ t.fld (regPage n) REG.LOSS_RECS = min (s.fld (regPage n) REG.LOSS_RECS + 1) (2 ^ 32 - 1)
      ∧ (t.writer (8 + n)).queue.getLast? = some ⟨s.time.tclk, headRec 0xc l.src l.byStop seq l.first :: contRecs l.src seq (s.lossConts l)⟩)

/-- R259, R261 to R263, R265, R399: a write of BANK.OWNER waits in the shadow until the drain ends; then OWNER_NOW takes the new owner. A reserved
owner is discarded with OWNER_REJECT. A keyed fill of a bank of owner NONE or HOST runs and leaves pads in every line; any other is discarded with
FILL_REJECT, or KEYFAIL. The scrubber corrects a correctable half in place. Beyond the rules' own words it rests on the model's choices: assumptions
49, 73, 74. -/
def Obligations.BanksChangeHands : Prop :=
  (∀ (s : State) (b : Fin 256) (v : Dword), s.Canonical → s.hostLive = true →
    let c := getBits v 0 4
    let g := getBits v 4 3
    (c < 8 → (c = 3 ∨ c = 7 ∧ g < 4 ∨ g = 0) → ∃ t, exec (.ownerWrite b v) s = .next t ∧ t.shadow (bankPage b + 0x040) = some v ∧ t.draining b = true
      ∧ t.ownerNow b = s.ownerNow b ∧ ∀ cls arg, t.gate b cls arg = .waits)
    ∧ (¬ (c < 8 ∧ (c = 3 ∨ c = 7 ∧ g < 4 ∨ g = 0)) → ∃ t, exec (.ownerWrite b v) s = .next t ∧ t.shadows = s.shadows
      ∧ t.ownerNow b = s.ownerNow b ∧ t.bit (bankPage b) BANK.err_OWNER_REJECT = true))
  ∧ (∀ (s : State) (b : Fin 256) (v : Dword), s.Canonical → s.shadow (bankPage b + 0x040) = some v → s.filling b = false → s.reqs = [] →
    ∃ t, exec (.handoverDone b) s = .next t ∧ t.ownerNow b = v.toNat % 128 ∧ t.draining b = false ∧ t.bit (bankPage b) BANK.st_HANDOVER_DONE = true
      ∧ t.store = s.store ∧ t.fld (bankPage b) BANK.VIOL_COUNT = s.fld (bankPage b) BANK.VIOL_COUNT)
  ∧ (∀ (s : State) (b : Fin 256) (v : Dword), s.Canonical → s.hostLive = true →
    (s.unlocked (bankPage b) = true → (s.ownerNow b = 0 ∨ s.ownerNow b = 6) → s.draining b = false → s.filling b = false →
      ∃ t, exec (.bankFill b v) s = .next t ∧ t.filling b = true ∧ t.store = s.store ∧ t.unlocked (bankPage b) = false)
    ∧ (s.unlocked (bankPage b) = true → (s.ownerNow b ≠ 0 ∧ s.ownerNow b ≠ 6 ∨ s.draining b = true ∨ s.filling b = true) →
      ∃ t, exec (.bankFill b v) s = .next t ∧ t.filling b = s.filling b ∧ t.bit (bankPage b) BANK.err_FILL_REJECT = true)
    ∧ (s.unlocked (bankPage b) = false →
      ∃ t, exec (.bankFill b v) s = .next t ∧ t.filling b = s.filling b ∧ t.bit (bankPage b) PG.err_KEYFAIL = true))
  ∧ (∀ (s : State) (b : Fin 256), s.Canonical → s.filling b = true → s.reqs = [] →
    s.injectArmed 1 b = false → s.injectArmed 2 b = false →
    ∃ t, exec (.fillDone b) s = .next t ∧ t.filling b = false ∧ t.bit (bankPage b) BANK.st_FILL_DONE = true
      ∧ ∀ j, t.half j = (if j / 32768 = b.val then Half.blank else s.half j))
  ∧ (∀ (s : State) (b : Fin 256) (ups : List (BitVec 14 × Bool × List (BitVec 7))), s.Canonical → s.live = true → s.bit (bankPage b) BANK.SCRUB_EN = true →
    let u := s.upsetHalves b ups
    let l := (s.bank b).scrubLine
    let h := u.half (halfIdx b l 0)
    let next := if l = 16383 then 0 else l + 1
    (u.half (halfIdx b l 1)).integ = .ok →
    (h.integ = .ok →
      ∃ t, exec (.scrubVisit b ups) s = .next t ∧ t.store = u.store ∧ (t.bank b).scrubLine = next ∧ (t.bank b).scrubFix = (s.bank b).scrubFix
        ∧ t.fld (bankPage b) BANK.SCRUB_PASSES = (if l = 16383 then min (s.fld (bankPage b) BANK.SCRUB_PASSES + 1) (2 ^ 32 - 1)
            else s.fld (bankPage b) BANK.SCRUB_PASSES))
    ∧ (h.integ = .ce →
      ∃ t, exec (.scrubVisit b ups) s = .next t ∧ t.store = u.store ∧ (t.bank b).scrubLine = next ∧ (t.bank b).scrubFix = some (l, true, false)
        ∧ t.bit (bankPage b) BANK.st_CE = true ∧ t.fld (bankPage b) BANK.CE_COUNT = min (s.fld (bankPage b) BANK.CE_COUNT + 1) (2 ^ 32 - 1))
    ∧ (h.integ = .ue false →
      ∃ t, exec (.scrubVisit b ups) s = .next t ∧ (t.bank b).scrubLine = next ∧ t.bit (bankPage b) BANK.st_UE = true
        ∧ t.bit (bankPage b) BANK.err_UE_READ = true ∧ t.half (halfIdx b l 0) = ⟨h.data, h.flips, true⟩))
  ∧ (∀ (s : State) (b : Fin 256) (l : Nat) (f0 f1 : Bool), s.Canonical → (s.bank b).scrubFix = some (l, f0, f1) →
    s.injectArmed 1 b = false → s.injectArmed 2 b = false →
    ∃ t, exec (.scrubWriteback b) s = .next t ∧ t = { s with store := t.store, banks := t.banks } ∧ (t.bank b).scrubFix = none
      ∧ t.half (halfIdx b l 0) = (if f0 then Half.fresh (s.half (halfIdx b l 0)).data else s.half (halfIdx b l 0))
      ∧ t.half (halfIdx b l 1) = (if f1 then Half.fresh (s.half (halfIdx b l 1)).data else s.half (halfIdx b l 1)))
  ∧ (∀ (r : Rec) (a c : BitVec 7), ((Half.fresh r).upset [a]).integ = .ce ∧ ((Half.fresh r).upset [a, a]).integ = .ok
    ∧ (a ≠ c → ((Half.fresh r).upset [a, c]).integ = .ue false ∨ ((Half.fresh r).upset [a, c]).integ = .poison))

/-! Links and the swarm -/

/-- R283, R285, R287, R306, R316: a port that trains becomes UP and reports it. A link that goes down, whether its receiver declares it, its retries
are exhausted or the host retrains it, is TRAINING with no frame outstanding and counts in DOWNS. Where it was the active upstream and no other one
is JOINED, the part enters holdover: HOLD_AT, QUEEN_LOST, and the run state becomes FAULT. R284, R285: a frame with a bad CRC word is discarded and
counted. An acknowledgement frees the frames up to the one it names; a reliable frame out of order has no effect but its ACK and a count in
DUP_FRAMES. A link that is down, quarantined, held or dormant takes and carries no reliable frame: those to be sent wait. An ACK frame answers a
reliable frame after 100 ns; the oldest unacknowledged frame and all after it go out again R_t + 300 ns after they were sent. Beyond the rules' own
words it rests on the model's choices: assumptions 4, 53, 54, 84. -/
def Obligations.LinksAndDelivery : Prop :=
  (∀ (s : State) (p : Fin 4), s.Canonical → s.live = true → s.asleep = false → s.bit (linkPage p) LINK.CTRL_EN = true → s.linkRole p ≠ 0 →
    (s.lstate p = 1 ∨ s.lstate p = 7) →
    ∃ t, exec (.linkTrained p) s = .next t ∧ t.lstate p = (if s.lstate p = 1 then 2 else 7) ∧ t.fld (linkPage p) LINK.STATE_LANES = 3
      ∧ t.bit (linkPage p) LINK.st_LINK_UP = true ∧ (s.linkRole p = 1 → t.bit tbPage TB.live_UPREF_PRESENT = true)
      ∧ ((s.link p).waiting = [] → t.links = s.links))
  ∧ (∀ (s : State) (p : Fin 4) (i : Instr), s.Canonical → s.Calm → s.swarm.runs = [] → 2 ≤ s.lstate p →
    (i = .linkDown p ∧ s.live = true ∧ s.asleep = false ∧ s.lstate p ≠ 7
      ∨ i = .retryExhausted p ∧ s.live = true ∧ s.inCluster = false ∧ (∃ u r, (s.link p).unacked = u :: r ∧ s.roundTrip p + 2000 * 1024 ≤ s.elapsed u.first)
      ∨ (∃ v, i = .linkRetrain p v ∧ s.hostLive = true ∧ s.inCluster = false ∧ s.unlocked (linkPage p) = true ∧ getBits v 0 1 = 1 ∧ getBits v 1 2 = s.linkRole p
        ∧ s.linkRole p ≠ 0)) →
    ∃ t, exec i s = .next t ∧ t.lstate p = 1 ∧ t.fld (linkPage p) LINK.STATE_LANES = 0 ∧ t.bit (linkPage p) LINK.st_LINK_DOWN = true
      ∧ t.fld (linkPage p) LINK.DOWNS = min (s.fld (linkPage p) LINK.DOWNS + 1) (2 ^ 32 - 1)
      ∧ (t.link p).tx = 0 ∧ (t.link p).rx = 0xfff ∧ (t.link p).unacked = [] ∧ (t.link p).waiting = [] ∧ (t.link p).counted = none
      ∧ (s.lstate p = 4 → s.isUp p = true → s.isQueen = false → s.align ≠ aHoldover →
        (∀ q < 4, q ≠ p.val → ¬ ((s.linkRole q = 1 ∨ s.linkRole q = 2) ∧ s.lstate q = 4)) →
        t.align = aHoldover ∧ t.upValid = false ∧ t.bit swarmPage SWARM.st_HOLDOVER_SET = true ∧ t.bit swarmPage SWARM.err_QUEEN_LOST = true
          ∧ t.pair swarmPage SWARM.HOLD_AT_LO = s.now.toNat ∧ t.runState = .fault ∧ t.isMember = false ∧ t.now = s.now))
  ∧ (∀ (s : State) (p : Fin 4), s.Canonical → s.Calm → s.swarm.runs = [] → s.live = true → s.asleep = false → s.lstate p = 4 → s.isUp p = true →
    ∀ q < 4, q ≠ p.val → (s.linkRole q = 1 ∨ s.linkRole q = 2) → s.lstate q = 4 → (∀ r < q, r ≠ p.val → ¬ ((s.linkRole r = 1 ∨ s.linkRole r = 2) ∧ s.lstate r = 4)) →
    ∃ t, exec (.linkDown p) s = .next t ∧ t.upPort = q ∧ t.upValid = true ∧ t.bit swarmPage SWARM.st_UPSTREAM_SWITCH = true ∧ t.align = s.align
      ∧ t.runState = s.runState)
  ∧ (∀ (s : State) (p : Fin 4) (v : Dword), s.Canonical → s.Calm → s.swarm.runs = [] → s.hostLive = true → s.unlocked (linkPage p) = false →
    ∃ t, exec (.linkRetrain p v) s = .next t ∧ t.lstate p = s.lstate p ∧ t.bit (linkPage p) PG.err_KEYFAIL = true ∧ t.links = s.links)
  ∧ (∀ (s : State) (p : Fin 4) (hd : Head) (pre r : List Unacked) (u : Unacked), s.Hears p hd → s.lstate p ≤ 5 → (s.link p).waiting = [] →
    (s.link p).unacked = pre ++ u :: r → (∀ v ∈ pre, v.frame.seq ≠ hd.ack) → u.frame.seq = hd.ack →
    ∃ t, exec (.ackRx p hd) s = .next t ∧ t = { s with links := t.links, swarm := t.swarm } ∧ t.link p = { s.link p with unacked := r }
      ∧ ∀ q, q ≠ p.val → t.link q = s.link q)
  ∧ (∀ (s : State) (p : Fin 4) (u : Nat), s.Canonical → s.live = true → s.inCluster = false → 2 ≤ s.lstate p → s.lstate p ≤ 5 → (s.link p).ackDue = some u → u + 100 ≤ s.time.tclk →
    let f : Frame := ⟨0, (s.link p).rx, 0, s.ordinal, .ack⟩
    ∃ t, exec (.ackSend p) s = .next t ∧ t = { s with links := t.links, out := s.out ++ [frameOut p f] }
      ∧ t.link p = { s.link p with ackDue := none, line := (s.link p).line ++ layBlocks (s.nextBlock p) (frameBlocks (f.words ++ [frameCrc f.words])) })
  ∧ (∀ (s : State) (p : Fin 4) (u : Unacked) (r : List Unacked), s.Canonical → 2 ≤ s.lstate p → s.lstate p ≤ 4 → (s.link p).unacked = u :: r →
    s.roundTrip p + 300 * 1024 ≤ s.elapsed u.sent → s.injectArmed 5 p = false →
    ∃ t, exec (.retryTimeout p) s = .next t
      ∧ t.out = s.out ++ (u :: r).map (fun v => frameOut p ⟨v.frame.seq, (s.link p).rx, v.frame.hops, v.frame.origin, v.frame.payload⟩)
      ∧ (t.link p).unacked = (u :: r).map (fun v => ⟨v.frame, v.first, s.time.tclk⟩)
      ∧ t.fld (linkPage p) LINK.RETRIES = min (s.fld (linkPage p) LINK.RETRIES + (u :: r).length) (2 ^ 32 - 1))
  ∧ (∀ (s : State) (p : Fin 4) (hd : Head) (x : Payload) (i : Instr), rxCommand p hd x = some i → s.Canonical → s.Calm → s.swarm.runs = [] → s.live = true →
    s.inCluster = false → 2 ≤ s.lstate p →
    ((hd.good = false ∨ hd.known = false) → ∃ t, exec i s = .next t ∧ t = { s with regs := t.regs, out := t.out } ∧ (∀ a, a ≠ linkPage p + 0x058 → t.rd a = s.rd a)
      ∧ t.fld (linkPage p) LINK.CRC_ERRS = min (s.fld (linkPage p) LINK.CRC_ERRS + 1) (2 ^ 32 - 1)
      ∧ ((isTrigger x = false ∨ hd.known = false ∨ s.lstate p ≠ 4 ∨ s.activePorts = [p.val]) → t.out = s.out))
    ∧ (hd.good = true → hd.known = true → s.lstate p ≤ 4 → hd.seq ≠ (s.link p).rx + 1 → (s.link p).unacked = [] →
      ∃ t, exec i s = .next t ∧ t = { s with regs := t.regs, links := t.links } ∧ (∀ a, a ≠ linkPage p + 0x064 → t.rd a = s.rd a)
        ∧ t.fld (linkPage p) LINK.DUP_FRAMES = min (s.fld (linkPage p) LINK.DUP_FRAMES + 1) (2 ^ 32 - 1)
        ∧ t.link p = { s.link p with ackDue := some ((s.link p).ackDue.getD s.time.tclk) })
    ∧ (hd.good = true → hd.known = true → 5 ≤ s.lstate p → exec i s = .next s))
  ∧ (∀ (s : State) (p : Nat) (o : BitVec 11) (h : BitVec 5) (x : Payload), s.talks p = false → isTrigger x = false →
    s.sendReliable p o h x = s.setLink p { s.link p with waiting := (s.link p).waiting ++ [⟨0, 0, h, o, x⟩] })

/-- R287 to R289, R291: a port sends HELLO with what it knows. The far end of a DOWN port of the queen is quarantined with the first cause of Table
9-4 that it fails; a new ordinal makes the link JOINED and is counted, a taken one quarantines it with cause ORDINAL. Two queens hold the link. An
upstream end that is told JOINED takes the swarm's place and queen. A JOIN from below is answered by the queen and passed on by any other part.
Beyond the rules' own words it rests on the model's choices: assumptions 53, 54, 84. -/
def Obligations.Joining : Prop :=
  (∀ (s : State) (p : Fin 4), s.Canonical → s.live = true → s.inCluster = false → 2 ≤ s.lstate p →
    ∃ t, exec (.helloSend p) s = .next t ∧ t.out = s.out ++ [frameOut p ⟨0, (s.link p).rx, 0, s.ordinal, .hello (s.hello p)⟩] ∧ t.regs = s.regs)
  ∧ (∀ (s : State) (p : Fin 4) (hd : Head) (h : Hello), s.Hears p hd → s.Calm → s.swarm.runs = [] →
    let u := s.takeAck p hd.ack
    u.lstate p ≤ 3 →
    (u.twoQueens h = true → ∃ t, exec (.helloRx p hd h) s = .next t ∧ t.lstate p = 6 ∧ t.bit (linkPage p) LINK.err_DUAL_QUEEN = true
      ∧ t.bit swarmPage SWARM.err_DUAL_QUEEN = true)
    ∧ (u.twoQueens h = false → u.linkRole p = 3 → u.isQueen = true →
      (∀ c, u.judgeHello h = some c → ∃ t, exec (.helloRx p hd h) s = .next t ∧ t.lstate p = 5 ∧ t.fld (linkPage p) LINK.STATE_QCAUSE = c
        ∧ t.bit (linkPage p) LINK.st_QUARANTINE = true ∧ t.swarm.taken = u.swarm.taken)
      ∧ (u.judgeHello h = none → h.role = 1 → u.lstate p ≠ 3 → (u.link p).counted ≠ some h.ordinal →
        (h.ordinal ≠ u.ordinal → h.ordinal ∉ u.swarm.taken →
          ∃ t, exec (.helloRx p hd h) s = .next t ∧ t.lstate p = 4 ∧ (t.link p).counted = some h.ordinal ∧ t.swarm.taken = u.swarm.taken ++ [h.ordinal]
            ∧ t.bit (linkPage p) LINK.st_JOIN_DONE = true ∧ t.bit swarmPage SWARM.st_MEMBER_JOINED = true ∧ t.posts p (.joinReply h.ordinal true u.engaged))
        ∧ ((h.ordinal = u.ordinal ∨ h.ordinal ∈ u.swarm.taken) →
          ∃ t, exec (.helloRx p hd h) s = .next t ∧ t.lstate p = 5 ∧ t.fld (linkPage p) LINK.STATE_QCAUSE = 9 ∧ t.swarm.taken = u.swarm.taken
            ∧ t.posts p (.joinReply h.ordinal false false))))
    ∧ (u.twoQueens h = false → u.linkRole p = 1 → u.isQueen = false → u.upValid = false → h.link = 4 →
      ∃ t, exec (.helloRx p hd h) s = .next t ∧ t.lstate p = 4 ∧ t.isUp p = true ∧ t.fld swarmPage SWARM.STATE_DEPTH = (h.depth.toNat + 1) % 16
        ∧ t.fld swarmPage SWARM.STATE_QUEEN_ORD = h.queenOrd.toNat ∧ t.fld swarmPage SWARM.STATE_MEMBER = 2 ∧ t.swarm.queenDie = h.queenDie
        ∧ (u.bit tbPage TB.CTRL_REFSEL = true → u.bit tbPage TB.live_LOCKED = true → u.swarm.woke = false → t.align = aAcquiring)))
  ∧ (∀ (s : State) (p : Fin 4) (hd : Head) (ordinal parent : BitVec 11), s.Takes p hd →
    let u := s.taken p hd
    u.activeDown p = true →
    (u.isQueen = true → ordinal ≠ u.ordinal → ordinal ∉ u.swarm.taken →
      ∃ t, exec (.joinRx p hd ordinal parent) s = .next t ∧ t.swarm.taken = u.swarm.taken ++ [ordinal] ∧ t.bit swarmPage SWARM.st_MEMBER_JOINED = true
        ∧ t.fld swarmPage SWARM.MEMBERS_COUNT = (u.swarm.taken.length + 1) % 4096 ∧ t.posts p (.joinReply ordinal true u.engaged))
    ∧ (u.isQueen = true → (ordinal = u.ordinal ∨ ordinal ∈ u.swarm.taken) →
      ∃ t, exec (.joinRx p hd ordinal parent) s = .next t ∧ t.swarm.taken = u.swarm.taken ∧ t.posts p (.joinReply ordinal false false))
    ∧ (u.isQueen = false → u.joined = true →
      ∃ t, exec (.joinRx p hd ordinal parent) s = .next t ∧ t.posts u.upPort (.join ordinal parent) ∧ (ordinal, p.val) ∈ t.swarm.routes))
  ∧ (∀ (s : State) (p : Fin 4) (hd : Head) (ok engaged : Bool), s.Takes p hd →
    let u := s.taken p hd
    (u.linkRole p = 1 → u.lstate p ≠ 4 → u.upValid = false → ∀ h, (u.link p).peer = some h →
      ∃ t, exec (.joinReplyRx p hd u.ordinal ok engaged) s = .next t ∧ (ok = true → t.lstate p = 4 ∧ t.isUp p = true ∧ t.swarm.engaged = engaged)
        ∧ (ok = false → t.lstate p = 5 ∧ t.fld (linkPage p) LINK.STATE_QCAUSE = 9 ∧ t.fld swarmPage SWARM.STATE_MEMBER = 4))
    ∧ (u.linkRole p = 1 → ∀ (o : BitVec 11) (q : Nat) (h : Hello), o ≠ u.ordinal → q < 4 → u.swarm.routes = [(o, q)] → (u.link q).peer = some h →
      (h.ordinal = o → (u.link q).counted ≠ some o → u.lstate q ≠ 4 →
        ∃ t, exec (.joinReplyRx p hd o true engaged) s = .next t ∧ t.lstate q = 4 ∧ (t.link q).counted = some o ∧ t.posts q (.joinReply o true engaged)
          ∧ t.swarm.routes = [])
      ∧ (h.ordinal ≠ o →
        ∃ t, exec (.joinReplyRx p hd o ok engaged) s = .next t ∧ t.posts q (.joinReply o ok engaged) ∧ t.lstate q = u.lstate q ∧ t.swarm.routes = [])))

/-- R292 to R295, R52: a parent's WAGGLE and a child's MARK carry the time their mark left. A MARK gives the parent A_up. A WAGGLE gives the child a
value of d and, on its active upstream, the error, its trim left out, by which an aligned member moves its filtered error one sixty-fourth of the
way. After 16 waggles a member whose regions have halted steps DTIME by their mean error; after 256 waggles in a row within ±16 su it is ALIGNED.
Beyond the rules' own words it rests on the model's choices: assumptions 2, 56, 78. -/
def Obligations.SharedTime : Prop :=
  (∀ (s : State) (p : Fin 4) (f : DTime) (a : BitVec 64), s.Canonical → s.carries p = true → s.linkRole p = 3 → (s.link p).aUp = some a →
    ∃ t w, exec (.waggleSend p f) s = .next t ∧ t.out.getLast? = some (frameOut p ⟨0, (s.link p).rx, 0, s.ordinal, .waggle w⟩) ∧ w.f = f ∧ w.aUp = a
      ∧ w.number = s.waggleCount ∧ w.holdover = s.holdover ∧ w.coarse = s.coarse ∧ w.tbEpoch.toNat = s.fld tbPage TB.EPOCH_VALUE
      ∧ w.epoch.toNat = s.fld swarmPage SWARM.EPOCH_VALUE ∧ w.depth.toNat = s.fld swarmPage SWARM.STATE_DEPTH ∧ t.time = s.time)
  ∧ (∀ (s : State) (p : Fin 4) (f : DTime), s.Canonical → s.carries p = true → (s.linkRole p = 1 ∨ s.linkRole p = 2) →
    ∃ t, exec (.markSend p f) s = .next t ∧ t.out = s.out ++ [frameOut p ⟨0, (s.link p).rx, 0, s.ordinal, .mark f⟩])
  ∧ (∀ (s : State) (p : Fin 4) (hd : Head) (a f : DTime), s.Hears p hd → s.lstate p ≤ 4 →
    let u := s.takeAck p hd.ack
    u.linkRole p = 3 → ∃ t, exec (.markRx p hd a f) s = .next t ∧ t = { u with links := t.links } ∧ t.link p = { u.link p with aUp := some (a - f) })
  ∧ (∀ (s : State) (p : Fin 4) (hd : Head) (a : DTime) (w : Waggle), s.Hears p hd → s.Calm → s.lstate p = 4 →
    let u := s.takeAck p hd.ack
    (u.linkRole p = 1 ∨ u.linkRole p = 2) →
    let ds := (((a - w.f + w.aUp).toInt / 2) :: (u.link p).ds).take 256
    ∃ t, exec (.waggleRx p hd a w) s = .next t ∧ (t.link p).ds = ds ∧ (u.isUp p = false → t.swarm = u.swarm ∧ t.time = u.time)
      ∧ (u.isUp p = true → u.align = aAligned → u.swarm.woke = false → w.holdover = false →
        let e := (w.f + BitVec.ofInt 64 (t.link p).delay - a).toInt + signed 16 (s.fld tbPage TB.TRIM_LIVE_VALUE)
        let x := u.swarm.filtered + ((e : Rat) - u.swarm.filtered) / 64
        t.swarm.filtered = x ∧ t.swarm.within = (if -16 ≤ x ∧ x ≤ 16 then u.swarm.within + 1 else 0) ∧ t.swarm.waggleNo = w.number ∧ t.now = s.now
          ∧ t.align = aAligned ∧ t.fld swarmPage SWARM.STATE_DEPTH = (w.depth.toNat + 1) % 16)
      ∧ (u.isUp p = true → w.holdover = true → u.isQueen = false → t.align = aHoldover))
  ∧ (∀ s : State, s.Canonical → s.live = true → s.inCluster = false → s.align = aAcquiring → s.swarm.stepped = false → s.swarm.errs.length = 16 →
    (∀ n < 8, s.executes n = false) →
    let e := roundEven ((s.swarm.errs.sum : Rat) / 16)
    ∃ t, exec .acquisitionStep s = .next t ∧ t.now = s.now + BitVec.ofInt 64 e ∧ t.swarm.stepped = true ∧ t.bit swarmPage SWARM.st_STEPPED = true
      ∧ t.pair swarmPage SWARM.STEP_LO = unsigned 64 e ∧ t.fld tbPage TB.EPOCH_VALUE = s.swarm.epochUp.toNat ∧ t.align = aAcquiring)
  ∧ (∀ s : State, s.Canonical → s.live = true → s.inCluster = false → s.align = aAcquiring → s.swarm.stepped = true → 256 ≤ s.swarm.within →
    ∃ t, exec .alignedReached s = .next t ∧ t.align = aAligned ∧ t.bit swarmPage SWARM.st_ALIGNED_SET = true ∧ t.time = s.time
      ∧ (s.swarm.engaged = true → t.fld swarmPage SWARM.STATE_MEMBER = 3))

/-- R298 to R303, R308: a member carries out a new command of its upstream in its own state and replies, after the internal events of the cycle; a
repeat only brings its reply again. Replies and timeouts from below are added up. A queen whose ARM is answered without a refusal arms. A trigger
and an event of the swarm act once, and a member's loss frees its ordinal at the queen. Beyond the rules' own words it rests on the model's choices:
assumptions 53, 55. -/
def Obligations.SwarmCommands : Prop :=
  (∀ (s : State) (p : Fin 4) (hd : Head) (c : SwarmCmd), s.Takes p hd → s.Calm →
    let u := s.taken p hd
    u.isUp p = true → u.lstate p = 4 → (∀ x ∈ u.run.heldSwarm, x.2.2.id ≠ c.id) →
    (∀ r, u.swarm.history.find? (fun x => x.1 == c.id) = some (c.id, some r) →
      ∃ t, exec (.commandFrameRx p hd c) s = .next t ∧ t.posts p (.reply r) ∧ t.runState = u.runState ∧ t.recordingRegions = u.recordingRegions
        ∧ t.fld swarmPage SWARM.DUP_CMDS = min (u.fld swarmPage SWARM.DUP_CMDS + 1) (2 ^ 32 - 1))
    ∧ ((∀ x ∈ u.swarm.history, x.1 ≠ c.id) → u.fld swarmPage SWARM.STATE_MEMBER ≠ 3 → u.eventWaits = true →
      ∃ t, exec (.commandFrameRx p hd c) s = .next t ∧ t = { u with run := { u.run with heldSwarm := u.run.heldSwarm ++ [(hd.origin, hd.hops, c)] } })
    ∧ ((∀ x ∈ u.swarm.history, x.1 ≠ c.id) → u.fld swarmPage SWARM.STATE_MEMBER ≠ 3 → u.eventWaits = false → u.swarm.runs = [] → (∀ q < 4, u.activeDown q = false) → u.unreached = [] →
      (u.cmdRefusal c = none → u.startLate c = false →
        ∃ t, exec (.commandFrameRx p hd c) s = .next t ∧ t.posts p (.reply ⟨c.id, 1, 0, 0, 0, none⟩)
          ∧ (c.code = 2 → t.runState = .armed ∧ t.recordingRegions = 0xff) ∧ (c.code = 3 → t.runState = .running ∧ t.run.startAt = some c.start)
          ∧ (c.code = 5 → t.recordingRegions = 0 ∧ t.runState = (if u.runState = .fault then .fault else .stopped)))
      ∧ (∀ cause, u.cmdRefusal c = some cause →
        ∃ t, exec (.commandFrameRx p hd c) s = .next t ∧ t.posts p (.reply ⟨c.id, 0, 1, 0, 0, some (u.ordinal, BitVec.ofNat 8 cause)⟩)
          ∧ t.runState = u.runState ∧ t.recordingRegions = u.recordingRegions)))
  ∧ (∀ (s : State) (p : Fin 4) (hd : Head) (r : SwarmReply) (x : CmdRun) (w : PortWait) (ws : List PortWait), s.Takes p hd → s.Calm →
    let u := s.taken p hd
    let sum : SwarmReply := ⟨x.reply.id, x.reply.done + r.done, x.reply.refused + r.refused, x.reply.timedOut + r.timedOut, x.reply.notReached + r.notReached,
      if x.reply.first.isSome then x.reply.first else r.first⟩
    u.swarm.runs = [x] → x.cmd.id = r.id → x.waits = w :: ws → w.port = p.val → (∀ v ∈ ws, v.port ≠ p.val) → r.first = none →
    (ws ≠ [] → ∃ t, exec (.replyFrameRx p hd r) s = .next t ∧ t.swarm.runs = [{ x with waits := ws, reply := sum }] ∧ t.runState = u.runState)
    ∧ (ws = [] → x.up = true → u.joined = true → ∃ t, exec (.replyFrameRx p hd r) s = .next t ∧ t.swarm.runs = [] ∧ t.posts u.upPort (.reply sum))
    ∧ (ws = [] → x.up = false → x.cmd.code = 2 → u.swarm.armId = some x.cmd.id → replyOutcome sum = 1 → u.armRefusal = none → ∀ id : BitVec 8,
      u.run.pendingCmd = some (2, id.toNat) →
      ∃ t, exec (.replyFrameRx p hd r) s = .next t ∧ t.runState = .armed ∧ t.rd 0x54 = statusWord 2 2 id 0 ∧ t.recordingRegions = 0xff ∧ t.run.pendingCmd = none))
  ∧ (∀ (s : State) (p : Fin 4) (x : CmdRun) (w : PortWait), s.Canonical → s.Calm → s.live = true → s.inCluster = false → s.swarm.runs = [x] → x.waits = [w] →
    w.port = p.val → s.fld swarmPage SWARM.CMD_TO_US * 1000 ≤ w.total s.time.tclk → x.up = true → s.joined = true →
    ∃ t, exec (.cmdTimeout p) s = .next t ∧ t.bit swarmPage SWARM.err_CMD_TIMEOUT = true ∧ t.swarm.runs = []
      ∧ t.fld swarmPage SWARM.CMD_TIMEOUTS = min (s.fld swarmPage SWARM.CMD_TIMEOUTS + 1) (2 ^ 32 - 1)
      ∧ t.posts s.upPort (.reply { x.reply with timedOut := x.reply.timedOut + 1 }))
  ∧ (∀ (s : State) (p : Fin 4) (hd : Head) (g : SwarmTrigger), s.Takes p hd →
    let u := s.taken p hd
    let old := seen hd.origin g.id (fresh u.time.tclk u.swarm.seenTriggers)
    ∃ t, exec (.triggerFrameRx p hd g) s = .next t ∧ (old = true → t.winCur = u.winCur)
      ∧ (old = false → ∀ n < 8, (t.winOf n).swarm = (u.winOf n).swarm ||| 2 ^ g.code.toNat))
  ∧ (∀ (s : State) (p : Fin 4) (hd : Head) (e : SwarmEvent), s.Takes p hd → s.Calm →
    let u := s.taken p hd
    u.swarm.runs = [] → seen hd.origin e.id (fresh u.time.tclk u.swarm.seenEvents) = false →
    (e.code = 3 → ∃ t, exec (.eventFrameRx p hd e) s = .next t ∧ t.bit swarmPage SWARM.st_MEMBER_LOST = true
      ∧ (u.isQueen = true → BitVec.ofNat 11 e.detail.toNat ∉ t.swarm.taken) ∧ (hd.origin, e.id, u.time.tclk) ∈ t.swarm.seenEvents)
    ∧ (e.code = 0x11 → hd.origin.toNat = u.fld (linkPage p) LINK.PEER_ORDINAL →
      ∃ t, exec (.eventFrameRx p hd e) s = .next t ∧ t.lstate p = 7 ∧ (t.link p).unacked = [] ∧ (t.link p).waiting = []))

/-- R268, R312 to R314: a record writer with a remote ring asks its lender for the next bank and is stalled until the grant, a refused one asks
again after 1 µs; its lines go over the port. The lender grants a bank that the port owns and writes the lines that arrive; a line for another bank
freezes the port and is told to the borrower. Beyond the rules' own words it rests on the model's choices: assumptions 57, 83. -/
def Obligations.LentBanks : Prop :=
  (∀ (s : State) (n : Fin 8), s.Canonical → s.remote n = true → s.recFrozen n = false → s.remLink n = true →
    let b := s.remBank n (s.remNext n)
    ((s.writer (8 + n)).entered = false → (s.rem n).asked = none → s.recording n = true →
      ∃ t, exec (.stripeGroupEnter ⟨8 + n, by omega⟩) s = .next t ∧ t.rem n = ⟨some b, none, false⟩ ∧ t.bit (regPage n) REG.live_REC_STALLED = true
        ∧ t.posts (s.remPort n) (.lentEnter (BitVec.ofNat 8 b) (BitVec.ofNat 16 ((s.writer (8 + n)).fills + 1))))
    ∧ (∀ c r, s.rem n = ⟨some c, some r, false⟩ → r + 1000 ≤ s.time.tclk →
      ∃ t, exec (.lentRetry n) s = .next t ∧ t.rem n = ⟨some b, none, false⟩
        ∧ t.posts (s.remPort n) (.lentEnter (BitVec.ofNat 8 b) (BitVec.ofNat 16 ((s.writer (8 + n)).fills + 1))))
    ∧ (∀ (i : Fin 16) (a : Nat) (r0 r1 : Rec) (q : List Batch), i.val = 8 + n.val → s.Calm → (s.writer i).entered = true → (s.writer i).line < 16384 →
      (s.writer i).queue = ⟨a, [r0, r1]⟩ :: q → (s.writer i).inGroup = false → s.lentSent (s.remPort n) < 16 →
      s.granted s.aclk s.others (.line i false) = true →
      ∃ t, exec (.writerLineWrite i) s = .next t ∧ (t.writer i).queue = q ∧ (t.writer i).line = (s.writer i).line + 1 ∧ t.store = s.store
        ∧ t.posts (s.remPort n) (.lentLine (BitVec.ofNat 8 (s.remBank n (s.writer i).group)) (BitVec.ofNat 14 (s.writer i).line) r0 r1)
        ∧ t.fld (linkPage (s.remPort n)) LINK.LENT_LINES = min (s.fld (linkPage (s.remPort n)) LINK.LENT_LINES + 1) (2 ^ 32 - 1)))
  ∧ (∀ (s : State) (p : Fin 4) (hd : Head) (bank : BitVec 8) (ok : Bool) (n : Fin 8), s.Takes p hd →
    let u := s.taken p hd
    (∀ m < 8, (u.remote m = true ∧ u.remPort m = p.val) ↔ m = n.val) → (u.rem n).frozen = false →
    ((u.rem n).asked = some bank.toNat →
      ∃ t, exec (.lentGrantRx p hd bank ok) s = .next t
        ∧ (ok = true → t.rem n = Remote.init ∧ t.bit (regPage n) REG.live_REC_STALLED = false ∧ t.bit (regPage n) REG.st_RING_ADVANCE = true
          ∧ t.writer (8 + n) = { u.writer (8 + n) with line := 0, group := u.remNext n, entered := true, fills := (u.writer (8 + n)).fills + 1 })
        ∧ (ok = false → t.rem n = ⟨some bank.toNat, some u.time.tclk, false⟩ ∧ t.writers = u.writers))
    ∧ ((u.rem n).asked = none → ok = false → u.remBank n (u.writer (8 + n)).group = bank.toNat →
      ∃ t, exec (.lentGrantRx p hd bank ok) s = .next t ∧ t.recFrozen n = true ∧ (t.writer (8 + n)).frozenAt = u.now))
  ∧ (∀ (s : State) (p : Fin 4) (hd : Head) (bank : BitVec 8) (fill : BitVec 16), s.Takes p hd →
    let u := s.taken p hd
    let b := bank.toNat
    (u.ownerNow b = 7 + 16 * p.val → u.draining b = false → u.isFrozen (linkPage p) 8 = false →
      ∃ t, exec (.lentEnterRx p hd bank fill) s = .next t ∧ t.posts p (.lentGrant bank true) ∧ t.fld (bankPage b) BANK.WPTR_FILL_NO = fill.toNat
        ∧ t.fld (bankPage b) BANK.WPTR_LINE = 0 ∧ t.bit (bankPage b) BANK.live_WRITER_IN = true)
    ∧ ((u.ownerNow b ≠ 7 + 16 * p.val ∨ u.draining b = true ∨ u.isFrozen (linkPage p) 8 = true) →
      ∃ t, exec (.lentEnterRx p hd bank fill) s = .next t ∧ t.posts p (.lentGrant bank false) ∧ t.rd (bankPage b + 0x048) = u.rd (bankPage b + 0x048)))
  ∧ (∀ (s : State) (p : Fin 4) (hd : Head) (bank : BitVec 8) (line : BitVec 14) (r0 r1 : Rec), s.Takes p hd →
    let u := s.taken p hd
    let b := bank.toNat
    u.granted u.aclk u.others (.lent p.val b line.toNat r0 r1) = true → u.isFrozen (linkPage p) 8 = false →
    (u.gate b 7 p = .granted → u.injectArmed 1 b = false → u.injectArmed 2 b = false →
      ∃ t, exec (.lentLineRx p hd bank line r0 r1) s = .next t ∧ t.half (halfIdx b line.toNat 0) = Half.fresh r0 ∧ t.half (halfIdx b line.toNat 1) = Half.fresh r1
        ∧ (∀ j, j ≠ halfIdx b line.toNat 0 → j ≠ halfIdx b line.toNat 1 → t.half j = u.half j)
        ∧ t.fld (linkPage p) LINK.LENT_LINES = min (u.fld (linkPage p) LINK.LENT_LINES + 1) (2 ^ 32 - 1))
    ∧ (u.gate b 7 p = .violation →
      ∃ t, exec (.lentLineRx p hd bank line r0 r1) s = .next t ∧ t.store = u.store ∧ t.isFrozen (linkPage p) 8 = true
        ∧ t.bit (bankPage b) BANK.err_VIOLATION = true ∧ t.bit (linkPage p) LINK.err_VIOLATION = true ∧ t.posts p (.lentGrant bank false)))

/-- R277, R279, R399, R466: keyed writes of SWARM.CTRL, ORDINAL and EPOCH and of a new LINK.CTRL.ROLE take effect between runs while no link is
joining, joined or quarantined; otherwise they are discarded with BUSY_REJECT, without the key with KEYFAIL, and QUEEN_OVR 3 with ENCODING. The
filtered level of QUEEN_N gives the role under the same conditions. Beyond the rules' own words it rests on the model's choices: assumptions 26,
58. -/
def Obligations.SwarmRoles : Prop :=
  (∀ (s : State) (v : Dword), s.Canonical → s.Calm → s.swarm.runs = [] → s.hostLive = true →
    (s.unlocked swarmPage = true → s.configOk = true →
      (getBits v 0 2 ≠ 3 → ∃ t, exec (.swarmConfigWrite .ctrl v) s = .next t ∧ t.fld swarmPage SWARM.CTRL_QUEEN_OVR = getBits v 0 2
        ∧ t.isQueen = (match getBits v 0 2 with | 0 => !s.bit swarmPage SWARM.STATE_STRAP | 1 => true | _ => false))
      ∧ (∃ t, exec (.swarmConfigWrite .ordinal v) s = .next t ∧ t.fld swarmPage SWARM.ORDINAL_VALUE = getBits v 0 11 ∧ t.isQueen = s.isQueen)
      ∧ (∃ t, exec (.swarmConfigWrite .epoch v) s = .next t ∧ t.fld swarmPage SWARM.EPOCH_VALUE = getBits v 0 16))
    ∧ (s.unlocked swarmPage = true → s.configOk = false → ∀ r ∈ [SwarmReg.ctrl, .ordinal, .epoch], (r = .ctrl → getBits v 0 2 ≠ 3) →
      ∃ t, exec (.swarmConfigWrite r v) s = .next t ∧ t.bit swarmPage SWARM.err_BUSY_REJECT = true ∧ t.isQueen = s.isQueen
        ∧ (∀ a ∈ [0x040, 0x044, 0x048], t.rd (swarmPage + a) = s.rd (swarmPage + a)) ∧ t.swarm = s.swarm)
    ∧ (s.unlocked swarmPage = true → getBits v 0 2 = 3 →
      ∃ t, exec (.swarmConfigWrite .ctrl v) s = .next t ∧ t.bit swarmPage SWARM.err_ENCODING = true ∧ t.rd (swarmPage + 0x040) = s.rd (swarmPage + 0x040))
    ∧ (s.unlocked swarmPage = false → ∀ r ∈ [SwarmReg.ctrl, .ordinal, .epoch],
      ∃ t, exec (.swarmConfigWrite r v) s = .next t ∧ t.bit swarmPage PG.err_KEYFAIL = true ∧ t.isQueen = s.isQueen
        ∧ (∀ a ∈ [0x040, 0x044, 0x048], t.rd (swarmPage + a) = s.rd (swarmPage + a)))
    ∧ ∀ p : Fin 4, s.unlocked (linkPage p) = true → getBits v 1 2 ≠ s.linkRole p →
      (s.configOk = true → s.inCluster = false → getBits v 3 1 = 0 → s.lstate p = 0 →
        ∃ t, exec (.swarmConfigWrite (.link p) v) s = .next t ∧ t.linkRole p = getBits v 1 2
          ∧ t.lstate p = (if getBits v 0 1 = 1 ∧ getBits v 1 2 ≠ 0 then 1 else 0))
      ∧ (s.configOk = false → ∃ t, exec (.swarmConfigWrite (.link p) v) s = .next t ∧ t.rd (linkPage p + 0x040) = s.rd (linkPage p + 0x040)
        ∧ t.bit (linkPage p) LINK.err_BUSY_REJECT = true ∧ t.links = s.links))
  ∧ (∀ (s : State) (high : Bool), s.Canonical → s.live = true → s.fld swarmPage SWARM.CTRL_QUEEN_OVR = 0 →
    ∃ t, exec (.queenStrapChange high) s = .next t ∧ t.bit swarmPage SWARM.STATE_STRAP = high ∧ (s.configOk = true → t.isQueen = !high)
      ∧ (s.configOk = false → t.isQueen = s.isQueen))

/-! Network time and synthesizers -/

/-- R320 to R331, R336, R339: at a map tick a requested set takes effect and discards the pending sample; the first sample of a domain only begins
its history, one beyond the step limit steps the domain by -θ, and any other moves the integrator by KI θ/τ and the rate to -(KP θ/τ + integrator).
A PPS edge gives a sample by the nearest whole period, and EXPECT advances. A host sample is submitted, or discarded when it is stale or not asked
for. SNAP captures the domain and DTIME. A stale domain holds its learned rate. Beyond the rules' own words it rests on the model's choices:
assumption 59. -/
def Obligations.Domains : Prop :=
  (∀ (s : State) (d : Fin 2), s.Canonical → s.live = true → s.bit tbPage TB.live_STARTED = true → s.mapTicks < ticksOf s.now → s.shadows = [] →
    s.isMember = false → s.domEn d = true →
    let p := domPage d
    (s.bit p DOM.SET_CTRL_GO = true →
      ∃ t, exec .mapTick s = .next t ∧ t.mapTicks = ticksOf s.now ∧ (t.dom d).d = (s.rd (p + 0x54)).toNat * 2 ^ 48 + s.fld p DOM.SET_CTRL_FRAC * 2 ^ 32
        ∧ t.bit p DOM.SET_CTRL_GO = false ∧ t.bit p DOM.st_SET_DONE = true ∧ (t.dom d).pending = none ∧ (t.dom d).lastUsed = none)
    ∧ ∀ o, (s.dom d).pending = some o → s.bit p DOM.SET_CTRL_GO = false → s.domSrc d ≠ 0 → (s.domSrc d = 1 ↔ o.host = true) →
      let limit := (s.rd (p + 0x50)).toNat * 2 ^ 48
      (limit ≠ 0 → limit < o.θ.natAbs →
        ∃ t, exec .mapTick s = .next t ∧ (t.dom d).d = (((s.dom d).d - o.θ) % 2 ^ 80 : Int).toNat ∧ (t.dom d).pending = none ∧ t.bit p DOM.st_STEPPED = true
          ∧ t.fld p DOM.STEPS = min (s.fld p DOM.STEPS + 1) (2 ^ 32 - 1) ∧ t.domY d = s.domY d)
      ∧ ((limit = 0 ∨ o.θ.natAbs ≤ limit) → (s.dom d).lastUsed = none →
        ∃ t, exec .mapTick s = .next t ∧ (t.dom d).d = (s.dom d).d ∧ (t.dom d).pending = none ∧ (t.dom d).lastUsed = some o.time ∧ t.domY d = s.domY d
          ∧ t.bit p DOM.st_SAMPLE = true ∧ t.fld p DOM.SAMPLES = min (s.fld p DOM.SAMPLES + 1) (2 ^ 32 - 1))
      ∧ (∀ u, (limit = 0 ∨ o.θ.natAbs ≤ limit) → (s.dom d).lastUsed = some u → 0 < dt o.time u →
        let r : Rat := 4 * (o.θ : Rat) / (dt o.time u : Rat)
        let i : Rat := (s.dom d).integ + (s.fld p DOM.KI_GAIN : Rat) / 65536 * r
        let y : Rat := -((s.fld p DOM.KP_GAIN : Rat) / 65536 * r + i)
        |i| ≤ s.domLimit d → |y| ≤ ((s.domLimit d).floor : Rat) →
        ∃ t, exec .mapTick s = .next t ∧ (t.dom d).integ = i ∧ t.domY d = roundEven y ∧ (t.dom d).d = (s.dom d).d ∧ (t.dom d).lastUsed = some o.time))
  ∧ (∀ (s : State) (d : Fin 2) (frac : BitVec 16), s.Canonical → s.hostLive = true → s.isMember = false →
    let p := domPage d
    (s.domEn d = true → ∃ t, exec (.setRequest d frac) s = .next t ∧ t.shadow (p + 0x58) = some (BitVec.ofNat 32 (frac.toNat + 2 ^ 31))
      ∧ t.bit p DOM.SET_CTRL_GO = true ∧ t.doms = s.doms)
    ∧ (s.domEn d = false → ∃ t, exec (.setRequest d frac) s = .next t ∧ (t.dom d).d = (s.rd (p + 0x54)).toNat * 2 ^ 48 + frac.toNat * 2 ^ 32
      ∧ t.bit p DOM.SET_CTRL_GO = false ∧ t.bit p DOM.st_SET_DONE = true))
  ∧ (∀ (s : State) (d : Fin 2) (frac : BitVec 16), s.Canonical → s.hostLive = true → s.isMember = true →
    ∃ t, exec (.setRequest d frac) s = .next t ∧ t.doms = s.doms ∧ t.shadows = s.shadows ∧ t.bit (domPage d) DOM.err_NOT_SERVO = true)
  ∧ (∀ (s : State) (d i : Fin 2) (rising : Bool) (fine : BitVec 10), s.Canonical → s.live = true → s.coarse = false → s.inCluster = false →
    s.bit tbPage TB.live_STARTED = true → s.domSrc d = 2 + i → rising ≠ s.bit (domPage d) DOM.CTRL_PPS_POL → s.domEn d = true → s.isMember = false →
    Tab.get (fun _ => none) s.pps (2 * d + i) = none →
    let p := domPage d
    let period := (s.rd (p + 0x74)).toNat
    period ≠ 0 → s.rd (p + 0x78) = 0 →
    ∃ t θ k, exec (.ppsEdge i rising fine) s = .next t ∧ (t.dom d).pending = some ⟨θ, s.now + fine.setWidth 64, false⟩ ∧ 2 * |θ| ≤ period * 2 ^ 48
      ∧ (2 ^ 80 : Int) ∣ (s.dom d).d + fine.toNat * (2 ^ 40 + s.domY d) / 4 - ((s.rd (p + 0x6c)).toNat * 2 ^ 48 + s.fld p DOM.EXPECT_FRAC_FRAC * 2 ^ 32 : Nat)
          - θ - k * (period * 2 ^ 48 : Nat)
      ∧ t.rd (p + 0x6c) = BitVec.ofInt 32 ((s.rd (p + 0x6c)).toNat + (k + 1) * period) ∧ t.pair p DOM.PPS_AT_LO = (s.now + fine.setWidth 64).toNat)
  ∧ (∀ (s : State) (d : Fin 2) (v : Dword), s.Canonical → s.hostLive = true → s.isMember = false →
    let p := domPage d
    let u : DTime := v ++ s.rd (p + 0x64)
    let θ : Int := signed 32 (s.rd (p + 0x5c)).toNat * 2 ^ 48 + (s.fld p DOM.OFS_FRAC_FRAC * 2 ^ 32 : Nat)
    (s.domSrc d ≠ 1 → ∃ t, exec (.ofsSubmit d v) s = .next t ∧ t.bit p DOM.err_SRC_REJECT = true ∧ t.doms = s.doms)
    ∧ (s.domSrc d = 1 → 0 < dt u s.now → ∃ t, exec (.ofsSubmit d v) s = .next t ∧ t.bit p DOM.err_OFS_STALE = true ∧ t.doms = s.doms)
    ∧ (s.domSrc d = 1 → dt u s.now ≤ 0 → (∀ x, (s.dom d).lastHost = some x → 0 < dt u x) →
      ∃ t, exec (.ofsSubmit d v) s = .next t ∧ (t.dom d).pending = some ⟨θ, u, true⟩))
  ∧ (∀ (s : State) (d : Fin 2), s.Canonical → s.hostLive = true →
    let p := domPage d
    ∃ t, exec (.domainSnap d) s = .next t ∧ t.rd (p + 0x98) = BitVec.ofNat 32 (domNs (s.dom d).d) ∧ t.rd (p + 0x9c) = BitVec.ofNat 32 (domFrac (s.dom d).d)
      ∧ t.pair p DOM.SNAP_AT_LO = s.now.toNat ∧ t.doms = s.doms)
  ∧ (∀ (s : State) (d : Fin 2), s.Canonical → s.live = true → s.isMember = false → s.domEn d = true → s.domSrc d ≠ 0 →
    let p := domPage d
    s.bit p DOM.live_STALE = false →
    (if s.domSrc d = 1 then 2000000000 * 1024 else 2 * (s.rd (p + 0x74)).toNat * 1024 : Int) ≤ dt s.now (s.dom d).freshAt →
    |(s.dom d).integ| ≤ ((s.domLimit d).floor : Rat) →
    ∃ t, exec (.domainStale d) s = .next t ∧ t.bit p DOM.live_STALE = true ∧ t.domY d = roundEven (-(s.dom d).integ) ∧ t.bit p DOM.live_LOCKED = false
      ∧ t.doms = s.doms)

/-- R345 to R350, R355, R356, R397, R399, R469: a keyed start of a SYN page begins a band search with the output off; its end locks the loop and
stores the profile, its failure leaves the output off. A requested search and a hop to a stored profile begin at the boundary; a hop to an empty one
is discarded. A stop loses the profiles. A held synthesizer relocks with its root. The fine delay moves one step at a time. LOOP selects channels
between runs. Beyond the rules' own words it rests on the model's choices: assumptions 24, 60. -/
def Obligations.Synthesizers : Prop :=
  (∀ (s : State) (i : Fin 6), s.Canonical → s.hostLive = true →
    let p := synPage i
    (s.unlocked p = true → s.bit p PG.CTRL_RUN = false → s.rootOk = true → s.asleep = false → s.causeThermal = false →
      ∃ t, exec (.synPageStart i) s = .next t ∧ t.bit p PG.CTRL_RUN = true ∧ t.bit p SYN.live_SEARCHING = true ∧ t.bit p SYN.live_OUT_ON = false
        ∧ (t.syn i).search = some s.time.tclk ∧ t.unlocked p = false)
    ∧ (s.unlocked p = true → s.bit p PG.CTRL_RUN = true →
      ∃ t, exec (.synPageStop i) s = .next t ∧ t.bit p PG.CTRL_RUN = false ∧ t.bit p SYN.live_OUT_ON = false ∧ t.bit p SYN.live_LOCKED = false
        ∧ (t.syn i).search = none ∧ t.pendingOf p = [] ∧ ∀ k < 16, t.fld p (profFreq k) = 0 ∧ t.fld p (profAux k) = 0)
    ∧ (s.unlocked p = false → ∀ c ∈ [Instr.synPageStart i, .synPageStop i],
      ∃ t, exec c s = .next t ∧ t.bit p PG.err_KEYFAIL = true ∧ t.bit p PG.CTRL_RUN = s.bit p PG.CTRL_RUN ∧ t.syns = s.syns))
  ∧ (∀ (s : State) (i : Fin 6) (v : Dword), s.Canonical → s.hostLive = true → (getBits v 4 1 = 1 → s.calTaken i = false) →
    let p := synPage i
    (s.bit p PG.CTRL_RUN = true → ∃ t, exec (.bandSearchRequest i v) s = .next t ∧ t.shadow (p + 0x40) = some (v ||| 0x40) ∧ t.bit p SYN.CTRL_SEARCH = s.bit p SYN.CTRL_SEARCH
      ∧ t.bit p SYN.live_SEARCHING = s.bit p SYN.live_SEARCHING ∧ t.bit p SYN.live_OUT_ON = s.bit p SYN.live_OUT_ON ∧ t.syns = s.syns)
    ∧ (s.bit p PG.CTRL_RUN = false → ∃ t, exec (.bandSearchRequest i v) s = .next t ∧ t.bit p SYN.CTRL_SEARCH = false ∧ t.bit p SYN.CTRL_EN = (getBits v 0 1 == 1)
      ∧ t.syns = s.syns))
  ∧ (∀ (s : State) (i : Fin 6) (v : Dword) (b : Bool), s.Canonical → s.live = true →
    let p := synPage i
    s.bit p PG.CTRL_RUN = true → s.asleep = false → s.causeThermal = false → s.shadows = [(p + 0x40, some v)] → getBits v 6 1 = 1 → s.rootOk = true →
    ∃ t, exec (.shadowApply (BitVec.ofNat 24 p) b) s = .next t ∧ (t.syn i).search = some s.time.tclk ∧ t.bit p SYN.live_SEARCHING = true
      ∧ t.bit p SYN.live_OUT_ON = false ∧ t.shadows = [])
  ∧ (∀ (s : State) (i : Fin 6) (t0 : Nat), s.Canonical → s.live = true → s.synOn i = true → (s.syn i).search = some t0 →
    let p := synPage i
    (∀ (band : BitVec 5) (tune : BitVec 8), t0 + 40000 ≤ s.time.tclk → (s.syn i).fill = none →
      ∃ t, exec (.bandSearchDone i band tune) s = .next t ∧ t.bit p SYN.live_LOCKED = true ∧ t.bit p SYN.live_SEARCHING = false ∧ (t.syn i).search = none
        ∧ (t.syn i).locked = s.synMult i ∧ t.fld p SYN.STATUS_BAND = band.toNat ∧ t.fld p SYN.STATUS_TUNE = tune.toNat
        ∧ t.fld p (profFreq (s.fld p SYN.PROF_CTRL_SLOT)) = s.synMult i + 2 ^ 31 ∧ t.bit p SYN.st_SEARCH_DONE = true
        ∧ t.bit p SYN.live_OUT_ON = s.bit p SYN.CTRL_EN)
    ∧ (t0 + 200000 ≤ s.time.tclk →
      ∃ t, exec (.lockFail i) s = .next t ∧ t.bit p SYN.err_LOCK_FAIL = true ∧ (t.syn i).search = none ∧ t.bit p SYN.live_SEARCHING = false
        ∧ t.bit p SYN.live_OUT_ON = s.bit p SYN.live_OUT_ON))
  ∧ (∀ (s : State) (i : Fin 6) (index slot : BitVec 4), s.Canonical → s.hostLive = true →
    let p := synPage i
    let v : Dword := BitVec.ofNat 32 (slot.toNat + 2 ^ 4 * index.toNat + 2 ^ 8)
    (bitOf (s.fld p (profFreq index.toNat)) 31 = true → s.bit p PG.CTRL_RUN = true →
      ∃ t, exec (.profileHop i index slot) s = .next t ∧ t.shadow (p + 0x58) = some v ∧ t.bit p SYN.PROF_CTRL_HOP = true ∧ t.syns = s.syns)
    ∧ (bitOf (s.fld p (profFreq index.toNat)) 31 = false →
      ∃ t, exec (.profileHop i index slot) s = .next t ∧ t.shadows = s.shadows ∧ t.bit p SYN.err_PROF_EMPTY = true ∧ t.syns = s.syns)
    ∧ ∀ b, s.synOn i = true → s.rootOk = true → s.shadows = [(p + 0x58, some v)] →
      let aux := s.fld p (profAux index.toNat)
      (signed 11 (s.fld chipPage CHIP.TEMP_VALUE) - 4 * signed 8 (bitsOf aux 24 8)).natAbs ≤ 80 →
      ∃ t, exec (.shadowApply (BitVec.ofNat 24 p) b) s = .next t ∧ (t.syn i).hop = some (index.toNat, s.time.tclk) ∧ t.bit p SYN.live_OUT_ON = false
        ∧ t.fld p SYN.FREQ = s.fld p (profFreq index.toNat) % 2 ^ 29 ∧ t.fld p SYN.DIV_DIV_M1 = bitsOf aux 0 10 ∧ t.fld p SYN.STATUS_BAND = bitsOf aux 10 5
        ∧ t.fld p SYN.STATUS_TUNE = bitsOf aux 16 8)
  ∧ (∀ (s : State) (i : Fin 6), s.Canonical → s.live = true →
    let p := synPage i
    (s.synOn i = true → (s.syn i).hop.isSome = true →
      ∃ t, exec (.hopDone i) s = .next t ∧ (t.syn i).hop = none ∧ t.bit p SYN.live_LOCKED = true ∧ t.bit p SYN.st_HOP_DONE = true
        ∧ t.fld p SYN.HOPS = min (s.fld p SYN.HOPS + 1) (2 ^ 32 - 1) ∧ t.bit p SYN.live_OUT_ON = s.bit p SYN.CTRL_EN)
    ∧ (s.bit p SYN.live_OUT_ON = true → s.fld p SYN.STATUS_DELAY_NOW ≠ s.fld p SYN.DELAY_TARGET →
      let next := if s.fld p SYN.STATUS_DELAY_NOW < s.fld p SYN.DELAY_TARGET then s.fld p SYN.STATUS_DELAY_NOW + 1 else s.fld p SYN.STATUS_DELAY_NOW - 1
      ∃ t, exec (.delayStep i) s = .next t ∧ t.fld p SYN.STATUS_DELAY_NOW = next
        ∧ (next = s.fld p SYN.DELAY_TARGET → t.bit p SYN.st_DELAY_DONE = true) ∧ t.syns = s.syns)
    ∧ (s.synOn i = true → s.rootOk = true → (s.syn i).lost = true → (s.syn i).relock = true →
      (s.bit p SYN.live_HOLD = true → ∃ t, exec (.synRelock i) s = .next t ∧ t.bit p SYN.live_LOCKED = true ∧ t.bit p SYN.live_HOLD = false
        ∧ t.bit p SYN.st_RELOCKED = true ∧ (t.syn i).lost = false ∧ t.bit p SYN.live_OUT_ON = s.bit p SYN.live_OUT_ON)
      ∧ (s.bit p SYN.live_HOLD = false → ∃ t, exec (.synRelock i) s = .next t ∧ t.bit p SYN.live_SEARCHING = true ∧ (t.syn i).search = some s.time.tclk
        ∧ t.bit p SYN.live_OUT_ON = false)))
  ∧ (∀ (s : State) (i : Fin 6) (j : Fin 3) (v levels : Dword), s.Canonical → s.hostLive = true →
    let p := synPage i
    let a := 0x05c + 4 * j.val
    (s.unlocked p = true → s.betweenRuns = true → (∀ k < 6, k ≠ i.val → s.rd (synPage k + a) &&& v = 0) →
      ∃ t, exec (.loopWrite i j v levels) s = .next t ∧ t.rd (p + a) = v ∧ t.unlocked p = false)
    ∧ (s.unlocked p = true → (s.betweenRuns = false ∨ ∃ k < 6, k ≠ i.val ∧ s.rd (synPage k + a) &&& v ≠ 0) →
      ∃ t, exec (.loopWrite i j v levels) s = .next t ∧ t.rd (p + a) = s.rd (p + a) ∧ t.chans = s.chans
        ∧ t.bit p (if s.betweenRuns = true then SYN.err_LOOP_CONFLICT else SYN.err_BUSY_REJECT) = true)
    ∧ (s.unlocked p = false →
      ∃ t, exec (.loopWrite i j v levels) s = .next t ∧ t.rd (p + a) = s.rd (p + a) ∧ t.bit p PG.err_KEYFAIL = true ∧ t.chans = s.chans))
  ∧ (∀ (s : State) (i : Fin 6) (ohms : Option Nat), s.live = true → (s.bit (synPage i) SYN.CTRL_EN = true ∨ s.bit (synPage i) SYN.CTRL_CAL = true) →
    (∀ z, s.zq = some z → z.tclk + 100000000 ≤ s.time.tclk) →
    ∃ t, exec (.zqCalMeasure ohms) s = .next t ∧ t = { s with zq := some ⟨s.time.tclk, ohms⟩ })

/-! Host accesses -/

/-- R359 to R362, R364 to R367: configuration requests get Retry Status until the configuration space is ready; from then on it reads back what
Table 12-1 gives and takes the sizes that the host programs, and the part answers the host, but in D3hot (assumption 86). A malformed or poisoned
request is dropped or aborted, reported through AER and on the page it reached, and consumes an unlock when it is a write. BAR2 reads and writes the
words of the store as the host window master, bank by bank, and reads as poison while that master is frozen. A vector that is unmasked with its
pending bit set sends its message, and so does every unmasked one when messages resume. Beyond the rules' own words it rests on the model's choices:
assumptions 5, 10, 72, 83, 86. -/
def Obligations.HostRequests : Prop :=
  (∀ (s : State) (link : PciLink) (early later : List CfgRequest), s.live = true → s.power.configReady = false →
    let retries := s.out ++ List.replicate early.length .configRetry
    let e := { s.endpoint with link := link }
    ∃ t, exec (.configReady link early later) s = .next t ∧ t = { s with power := { s.power with configReady := true, perst := false }, endpoint := t.endpoint, msix := t.msix, out := t.out }
      ∧ retries <+: t.out ∧ t.endpoint.ident = s.endpoint.ident ∧ t.endpoint.link = link
      ∧ (later = [] → t.endpoint = e ∧ t.msix = s.msix ∧ t.out = retries ∧ (s.endpoint.d3hot = false → t.hostLive = true))
      ∧ (∀ f, later = [.read f] → t.endpoint = e ∧ t.out = retries ++ [.configData f ({ s with endpoint := e }.cfgValue f)])
      ∧ (∀ n, later = [.write (.maxPayload n)] → t.endpoint = { e with maxPayload := 128 * 2 ^ n.val } ∧ t.out = retries ++ [.configDone])
      ∧ (∀ n, later = [.write (.maxRead n)] → t.endpoint = { e with maxRead := 128 * 2 ^ n.val } ∧ t.out = retries ++ [.configDone])
      ∧ (∀ d3, later = [.write (.power d3)] → t.endpoint = { e with d3hot := d3 } ∧ t.hostLive = !d3)
      ∧ (∀ off range, later = [.write (.timeout off range)] → t.endpoint = { e with timeoutOff := off, timeoutRange := range }))
  ∧ (∀ (s : State) (addr : BitVec 24) (req : BusReq), s.Canonical → s.hostLive = true →
    let p := errPage addr.toNat
    ∃ t, exec (.bar0BusError addr req) s = .next t ∧ t = { s with regs := t.regs, rcNew := t.rcNew, keys := t.keys, msix := t.msix, out := t.out }
      ∧ (s.out ++ (match req with | .read => [.completerAbort addr.toNat] | .write => []) ++ [.aer 0]) <+: t.out
      ∧ t.bit p PG.err_BUS_ERR = true
      ∧ (s.bit p PG.ERRINFO_VALID = false → t.bit p PG.ERRINFO_VALID = true ∧ t.fld p PG.ERRINFO_BIT = 16 ∧ t.fld p PG.ERRINFO_OFFSET = addr.toNat % 0x1000
        ∧ t.fld p PG.ERRINFO_AGENT = 0)
      ∧ (s.bit p PG.ERRINFO_VALID = true → t.bit p PG.ERRINFO_MORE = true ∧ t.fld p PG.ERRINFO_OFFSET = s.fld p PG.ERRINFO_OFFSET)
      ∧ (∀ k i, req = .write → pageOf addr.toNat = some (k, i) → t.unlocked (pageBase k i) = false)
      ∧ ∀ a, a ≠ p + 0x010 → a ≠ p + 0x014 → t.rd a = s.rd a)
  ∧ (∀ (s : State) (addr : BitVec 24), s.Canonical → s.hostLive = true →
    ∃ t, exec (.poisonedWrite (.bar0 addr)) s = .next t ∧ t = { s with regs := t.regs, rcNew := t.rcNew, keys := t.keys, msix := t.msix, out := t.out }
      ∧ (s.out ++ [.aer 1]) <+: t.out ∧ t.bit (errPage addr.toNat) PG.err_POISON_TLP = true
      ∧ (∀ k i, pageOf addr.toNat = some (k, i) → t.unlocked (pageBase k i) = false)
      ∧ ∀ a, a ≠ errPage addr.toNat + 0x010 → a ≠ errPage addr.toNat + 0x014 → t.rd a = s.rd a)
  ∧ (∀ (s : State) (w : BitVec 25), s.hostLive = true → exec (.poisonedWrite (.bar2 w)) s = .next { s with out := s.out ++ [.aer 1] })
  ∧ (∀ (s : State) (w : BitVec 25) (n : Fin 1025), s.hostLive = true →
    let a := Access.hostRead (4 * w.toNat) w.toNat n.val []
    s.granted s.aclk s.others a = true →
    (s.windowFrozen = true →
      ∃ t, exec (.bar2Read w n) s = .next t ∧ t = { s with out := s.out ++ [.readData (4 * w.toNat) (List.replicate n.val 0x80000000)] })
    ∧ (s.windowFrozen = false →
      (∀ h, w.toNat / 4 ≤ h → 4 * h < w.toNat + n.val → s.gate (h / 32768) 6 0 = .granted ∧ ((s.half h).integ = .ok ∨ (s.half h).integ = .poison)) →
      let words := fun m => (List.range m).map fun j =>
        let h := s.half ((w.toNat + j) / 4)
        if h.integ = .ok then (recWord h.data ((w.toNat + j) % 4)).setWidth 32 else 0x80000000
      let k := inBank w.toNat n.val
      let b := Access.hostRead (4 * w.toNat) (w.toNat + k) (n.val - k) (words k)
      ((k = n.val ∨ (s.takeLanes a).granted s.aclk s.others b = true) →
        ∃ t, exec (.bar2Read w n) s = .next t ∧ t = { s with lanes := t.lanes, out := s.out ++ [.readData (4 * w.toNat) (words n.val)] })
      ∧ (k < n.val → (s.takeLanes a).granted s.aclk s.others b = false →
        ∃ t, exec (.bar2Read w n) s = .next t ∧ t = { s with lanes := t.lanes, reqs := s.reqs ++ [⟨s.aclk, b⟩] })))
  ∧ (∀ (s : State) (w : BitVec 25) (ds : List (BitVec 4 × Dword)), s.Canonical → s.hostLive = true → s.windowFrozen = false → w.toNat + ds.length ≤ 2 ^ 25 →
    ds.length ≤ 1024 →
    let a := Access.hostWrite w.toNat ds
    s.granted s.aclk s.others a = true →
    (∀ h, w.toNat / 4 ≤ h → 4 * h < w.toNat + ds.length → s.gate (h / 32768) 6 0 = .granted ∧ (s.half h).integ = .ok) →
    let k := inBank w.toNat ds.length
    let next := ((s.takeLanes a).bar2Write w.toNat (ds.take k)).granted s.aclk s.others (.hostWrite (w.toNat + k) (ds.drop k))
    let holds := fun (t : State) (l : List (BitVec 4 × Dword)) => ∀ v < 2 ^ 25, recWord (t.half (v / 4)).data (v % 4) =
        (match l[v - w.toNat]? with
        | some d => if w.toNat ≤ v ∧ d.1 &&& 7 = 7 then d.2.setWidth 18 else recWord (s.half (v / 4)).data (v % 4)
        | none => recWord (s.half (v / 4)).data (v % 4))
    ((k = ds.length ∨ next = true) →
      ∃ t, exec (.bar2Write w ds) s = .next t ∧ t = { s with store := t.store, banks := t.banks, lanes := t.lanes } ∧ holds t ds)
    ∧ (k < ds.length → next = false →
      ∃ t, exec (.bar2Write w ds) s = .next t
        ∧ t = { s with store := t.store, banks := t.banks, lanes := t.lanes, reqs := s.reqs ++ [⟨s.aclk, .hostWrite (w.toNat + k) (ds.drop k)⟩] } ∧ holds t (ds.take k)))
  ∧ (∀ (s : State) (v : Option (Fin 64)) (enable mask : Bool), s.Canonical → s.hostLive = true →
    let shown := fun (u : Fin 64) => { s.msixGet u with masked := (s.msixGet u).masked && decide (v ≠ some u) }
    let sends := fun (u : Fin 64) => (shown u).pend && !(shown u).masked && enable && !mask
    let message := fun (u : Fin 64) => Out.msix u.val ((shown u).addrHi.toNat * 2 ^ 32 + (shown u).addrLo.toNat) (shown u).data
    ∃ t, exec (.msixUnmask v enable mask) s = .next t ∧ t = { s with msix := t.msix, out := t.out } ∧ t.msix.enable = enable ∧ t.msix.funcMask = mask
      ∧ (∀ u : Fin 64, t.msixGet u = { shown u with pend := (shown u).pend && !sends u })
      ∧ s.out <+: t.out ∧ (∀ u : Fin 64, sends u = true → message u ∈ t.out) ∧ ((∀ u : Fin 64, sends u = false) → t.out = s.out)
      ∧ (∀ u : Fin 64, sends u = true → (∀ x : Fin 64, x ≠ u → sends x = false) → t.out = s.out ++ [message u]))

/-- R391, R394 to R397, R399, R402: PAGE_KEY unlocks its page for the next write. A read returns a register's view and clears the RC bits it
returned; what the register took in this ACLK cycle stays for the next read. A plain field changes at once; a guarded register needs the key, and a
locked write is a KEYFAIL. A buffered field waits in its shadow while its page runs and applies at the boundary, at once otherwise, with APPLIED and
an entry. RELEASE frees every master of the page that was frozen before this ACLK cycle; a page's message goes out when its request becomes active.
Beyond the rules' own words it rests on the model's choices: assumptions 21, 22, 24, 71. -/
def Obligations.RegisterProtocol : Prop :=
  (∀ (s : State) (addr : BitVec 24) (p : PageType) (i : Nat), s.Canonical → s.hostLive = true → pageOf addr.toNat = some (p, i) →
    ∃ t, exec (.keyUnlock addr) s = .next t ∧ t = { s with keys := t.keys } ∧ t.unlocked (pageBase p i) = true
      ∧ ∀ b, b ≠ pageBase p i → t.unlocked b = s.unlocked b)
  ∧ (∀ (s : State) (addr : BitVec 24) (row : RegRow), s.Canonical → s.hostLive = true → regAt addr.toNat = some row → addr.toNat ≠ jrnlPage + 0x058 →
    let x := s.freshOf addr.toNat
    ∃ t, exec (.rcRead addr) s = .next t ∧ t = { s with regs := t.regs, rcNew := t.rcNew, out := s.out ++ [.readData addr.toNat [s.view addr.toNat]] }
      ∧ (addr.toNat % 0x1000 = 0x010 → s.view addr.toNat = x.stood)
      ∧ t.rd addr.toNat = (s.rd addr.toNat &&& ~~~row.rc) ||| (x.bits &&& row.rc)
      ∧ (addr.toNat % 0x1000 = 0x010 → x.stood ≠ 0 → t.rd (addr.toNat + 4) = x.info)
      ∧ ∀ a, a ≠ addr.toNat → ¬ (addr.toNat % 0x1000 = 0x010 ∧ a = addr.toNat + 4) → t.rd a = s.rd a)
  ∧ (∀ (s : State) (addr : BitVec 24) (p : PageType) (i : Nat) (row : RegRow) (v lv : Dword), s.Reaches addr.toNat p i row →
    row.rw ≠ 0 → row.rwk = 0 → row.rwb = 0 →
    ∃ t, exec (.registerWrite addr v lv) s = .next t ∧ t = { s with regs := t.regs, keys := t.keys } ∧ t.rd addr.toNat = merge row.rw (s.rd addr.toNat) v
      ∧ t.unlocked (pageBase p i) = false ∧ ∀ a, a ≠ addr.toNat → t.rd a = s.rd a)
  ∧ (∀ (s : State) (addr : BitVec 24) (p : PageType) (i : Nat) (row : RegRow) (v lv : Dword), s.Reaches addr.toNat p i row →
    row.rwk ≠ 0 → row.rw = 0 → row.rwb = 0 → s.unlocked (pageBase p i) = false →
    ∃ t, exec (.registerWrite addr v lv) s = .next t ∧ t.rd addr.toNat = s.rd addr.toNat ∧ t.bit (pageBase p i) PG.err_KEYFAIL = true
      ∧ t.Logged s .write .pcie addr.toNat .keyfail v.toNat ∧ t.shadows = s.shadows)
  ∧ (∀ (s : State) (addr : BitVec 24) (p : PageType) (i : Nat) (row : RegRow) (v lv : Dword), s.Reaches addr.toNat p i row →
    row.rwb ≠ 0 → row.rwk = 0 → s.verdict p i (addr.toNat % 0x1000) v false = .accept v none →
    (s.pageRunning p i = true →
      ∃ t, exec (.shadowWrite addr v lv) s = .next t ∧ t.shadow addr.toNat = some v ∧ t.rd addr.toNat = merge row.rw (s.rd addr.toNat) v
        ∧ t.Logged s .shadow .pcie addr.toNat .shadowed v.toNat ∧ ∀ a, a ≠ addr.toNat → t.shadow a = s.shadow a)
    ∧ (s.pageRunning p i = false →
      ∃ t, exec (.shadowWrite addr v lv) s = .next t ∧ t.shadows = s.shadows ∧ t.rd addr.toNat = merge (row.rw ||| row.rwb) (s.rd addr.toNat) v
        ∧ t.bit (pageBase p i) PG.st_APPLIED = true ∧ t.fld (pageBase p i) PG.APPLY_APPLIES = (s.fld (pageBase p i) PG.APPLY_APPLIES + 1) % 2 ^ 16
        ∧ t.Logged s .shadow .pcie addr.toNat .done v.toNat))
  ∧ (∀ (s : State) (p : Fin 4) (addr : BitVec 24) (inBand : Bool) (v : Dword), s.Canonical → s.live = true → addr.toNat / 0x1000 = 0x10 + p.val →
    s.pageRunning .link p = true → s.pendingOf (linkPage p) = [linkPage p + 0x044] → s.shadow (linkPage p + 0x044) = some v →
    ∃ t, exec (.shadowApply addr inBand) s = .next t ∧ t.pendingOf (linkPage p) = []
      ∧ t.rd (linkPage p + 0x044) = merge 0x7f (s.rd (linkPage p + 0x044)) v ∧ t.bit (linkPage p) PG.st_APPLIED = true
      ∧ t.Logged s .apply .internal (linkPage p + 0x044) .done (merge 0x7f (s.rd (linkPage p + 0x044)) v).toNat)
  ∧ (∀ (s : State) (g : Fin 64) (addr : BitVec 24), s.Canonical → s.hostLive = true → addr.toNat / 0x1000 = 0x210 + g.val →
    let x := s.freshOf (blkPage g + 0x024)
    let mask := getBits x.stood 8 8
    mask ≠ 0 →
    (s.unlocked (blkPage g) = true →
      ∃ t, exec (.freezeRelease addr) s = .next t ∧ t.fld (blkPage g) PG.FREEZE_FROZEN = getBits x.bits 8 8 ∧ t.bit (blkPage g) PG.st_RELEASED = true
        ∧ t.bit (blkPage g) BLK.XFER_STATUS_BUSY = false ∧ t.bit (blkPage g) BLK.XFER_STATUS_FROZEN = false
        ∧ t.Logged s .release .pcie (blkPage g + 0x024) .done (mask * 2 ^ 8))
    ∧ (s.unlocked (blkPage g) = false →
      ∃ t, exec (.freezeRelease addr) s = .next t ∧ t.rd (blkPage g + 0x024) = s.rd (blkPage g + 0x024) ∧ t.bit (blkPage g) PG.err_KEYFAIL = true
        ∧ t.Logged s .write .pcie (blkPage g + 0x024) .keyfail 1))
  ∧ (∀ (s : State) (addr : BitVec 24) (p : PageType) (i : Nat) (v lv : Dword), s.Canonical → s.hostLive = true → s.Calm → s.swarm.runs = [] →
    addr.toNat % 0x1000 = 0x028 → pageOf addr.toNat = some (p, i) → s.irqReq (pageBase p i) = false →
    let e := s.msixGet (s.fld (pageBase p i) PG.IRQ_VEC_VECTOR)
    e.masked = false → s.msix.enable = true → s.msix.funcMask = false →
    ∃ t, exec (.registerWrite addr v lv) s = .next t ∧ t.rd addr.toNat = v
      ∧ t.out = s.out ++ (if t.irqReq (pageBase p i) then [.msix (s.fld (pageBase p i) PG.IRQ_VEC_VECTOR) (e.addrHi.toNat * 2 ^ 32 + e.addrLo.toNat) e.data] else []))

/-- R408, R418, R420, R423, R438: selecting a journal record latches it, and reading its last word moves to the next. A guarded INJECT with GO arms
an injection that Table 14-10 names and is discarded for any other; GO = 0 cancels one. The image registers take writes while nothing is loading.
MBOX_OUT takes a value and sets OUT_FULL. Beyond the rules' own words it rests on the model's choices: assumption 21. -/
def Obligations.ChipPorts : Prop :=
  (∀ (s : State) (n : Dword), s.Canonical → s.hostLive = true →
    let wr := s.fld jrnlPage JRNL.WR_COUNT
    let d := (wr + 2 ^ 32 - n.toNat) % 2 ^ 32
    let h := (s.journal.map List.length).sum
    ∃ t, exec (.journalSelect n) s = .next t ∧ t.fld jrnlPage JRNL.RD_COUNT = n.toNat ∧ t.journal = s.journal
      ∧ (∀ r, 1 ≤ d → d ≤ h → s.journal.flatten[h - d]? = some r →
        ∀ i < 4, t.rd (jrnlPage + 0x4c + 4 * i) = (recWord r i).setWidth 32 ||| 0x80000000)
      ∧ ((d = 0 ∨ h < d) → ∀ i < 4, t.rd (jrnlPage + 0x4c + 4 * i) = 0)
      ∧ (h < d → d < 2 ^ 31 → t.bit jrnlPage JRNL.err_RD_LOST = true)
      ∧ (d ≤ h → t.bit jrnlPage JRNL.err_RD_LOST = s.bit jrnlPage JRNL.err_RD_LOST))
  ∧ (∀ s : State, s.Canonical → s.hostLive = true →
    let rd := s.fld jrnlPage JRNL.RD_COUNT
    let d := (s.fld jrnlPage JRNL.WR_COUNT + 2 ^ 32 - (rd + 1)) % 2 ^ 32
    let h := (s.journal.map List.length).sum
    ∃ t, exec .journalReadAdvance s = .next t ∧ (s.out ++ [.readData (jrnlPage + 0x058) [s.view (jrnlPage + 0x058)]]) <+: t.out
      ∧ t.fld jrnlPage JRNL.RD_COUNT = (rd + 1) % 2 ^ 32
      ∧ (∀ r, 1 ≤ d → d ≤ h → s.journal.flatten[h - d]? = some r →
        ∀ i < 4, t.rd (jrnlPage + 0x4c + 4 * i) = (recWord r i).setWidth 32 ||| 0x80000000)
      ∧ ((d = 0 ∨ h < d) → ∀ i < 4, t.rd (jrnlPage + 0x4c + 4 * i) = 0))
  ∧ (∀ (s : State) (v : Dword), s.Canonical → s.hostLive = true →
    let go := v ||| 0x80000000
    let a := chipPage + 0x088
    let kind := go.toNat % 16
    let unit := go.toNat / 16 % 1024
    let listed := (kind = 0 ∧ unit = 0) ∨ ((kind = 1 ∨ kind = 2) ∧ unit < 256) ∨ kind = 3 ∨ (kind = 4 ∧ unit < 64) ∨ (kind = 5 ∧ unit < 4)
    (s.unlocked chipPage = true → s.bit chipPage CHIP.INJECT_GO = false →
      (listed → ∃ t, exec (.injectArm v) s = .next t ∧ t.rd a = merge 0x80003fff (s.rd a) go ∧ t.bit chipPage CHIP.INJECT_GO = true
        ∧ t.Logged s .write .pcie a .done go.toNat)
      ∧ (¬ listed → ∃ t, exec (.injectArm v) s = .next t ∧ t.rd a = s.rd a ∧ t.bit chipPage CHIP.err_INJECT_ENCODING = true
        ∧ t.Logged s .write .pcie a .encoding go.toNat))
    ∧ (s.unlocked chipPage = true → s.bit chipPage CHIP.INJECT_GO = true → ∃ t, exec (.injectArm v) s = .next t ∧ t.rd a = s.rd a)
    ∧ (s.unlocked chipPage = true → s.bit chipPage CHIP.INJECT_GO = true →
      ∃ t, exec (.injectCancel v) s = .next t ∧ t.bit chipPage CHIP.INJECT_GO = false ∧ t.Logged s .write .pcie a .done (v &&& 0x7fffffff).toNat)
    ∧ (s.unlocked chipPage = false →
      (∃ t, exec (.injectArm v) s = .next t ∧ t.rd a = s.rd a ∧ t.bit chipPage PG.err_KEYFAIL = true)
      ∧ (∃ t, exec (.injectCancel v) s = .next t ∧ t.rd a = s.rd a ∧ t.bit chipPage PG.err_KEYFAIL = true)))
  ∧ (∀ (s : State) (r : Fin 3) (v : Dword), s.Canonical → s.hostLive = true →
    let a := chipPage + 0x05c + 4 * r.val
    (s.bit chipPage CHIP.live_LOADING = false →
      ∃ t, exec (.imgWrite r v) s = .next t ∧ t = { s with regs := t.regs, keys := t.keys }
        ∧ t.rd a = merge ([0xfffffff8, 0xffffffff, 0x00ffffff].getD r.val 0) (s.rd a) v ∧ ∀ b, b ≠ a → t.rd b = s.rd b)
    ∧ (s.bit chipPage CHIP.live_LOADING = true →
      ∃ t, exec (.imgWrite r v) s = .next t ∧ t.rd a = s.rd a ∧ t.bit chipPage CHIP.err_BUSY_REJECT = true
        ∧ t.Logged s .write .pcie a .busyReject v.toNat))
  ∧ (∀ (s : State) (v : Dword), s.Canonical → s.hostLive = true →
    ∃ t, exec (.mboxOutWrite v) s = .next t ∧ t = { s with regs := t.regs, keys := t.keys, svc := { s.svc with outOld := t.svc.outOld } } ∧ t.rd (svcPage + 0x054) = v ∧ t.bit svcPage SVC.live_OUT_FULL = true
      ∧ ∀ a, a ≠ svcPage + 0x054 → a ≠ svcPage + 0x00c → t.rd a = s.rd a)

/-! DMA -/

/-- R371, R373 to R381, R384, R386, R387: a ring is written while its channel is off. A doorbell starts fetching at CI; while the channel is PAUSING
it marks the fetch, and while it is ABORTING it is held (assumption 52). An owned descriptor that passes its checks becomes the current one and the
next is fetched ahead; a bad one is written back with DESC_ERR and halts; an unowned one ends the work or is read once more; what a fetch brings for
a frozen engine waits for the release, and what an ABORT discarded has no effect. Data move in the descriptor's format, poison as the poison
pattern: at most one unit of 512 bytes of host writes, split at every multiple of the Max Payload Size, or the whole halves of the host data that
have come in order; a violation freezes the engine, and a failed completion ends the descriptor with PCIE_ERR. The read-back, of host memory or of
the last store line, ends a descriptor: its status is written back, then OWN is cleared. Beyond the rules' own words it rests on the model's
choices: assumptions 4, 5, 49, 52, 83, 85. -/
def Obligations.DmaTransfers : Prop :=
  (∀ (s : State) (c : Fin 8) (r : Fin 3) (v : Dword), s.Canonical → s.hostLive = true →
    let p := dmacPage c
    (s.bit p DMAC.CTRL_EN = false →
      ∃ t, exec (.ringWrite c r v) s = .next t ∧ t.fld p DMAC.INDEX_CI = 0
        ∧ t.rd (p + 0x048) = (if r = 0 then merge 0xffffffe0 (s.rd (p + 0x048)) v else s.rd (p + 0x048))
        ∧ t.rd (p + 0x04c) = (if r = 1 then v else s.rd (p + 0x04c))
        ∧ t.fld p DMAC.RING_SIZE_SIZE_M1 = (if r = 2 then max 15 (getBits v 0 16) else s.fld p DMAC.RING_SIZE_SIZE_M1)
        ∧ (r = 2 → getBits v 0 16 < 15 → t.bit p DMAC.err_RANGE = true))
    ∧ (s.bit p DMAC.CTRL_EN = true →
      ∃ t, exec (.ringWrite c r v) s = .next t ∧ t.bit p DMAC.err_BUSY_REJECT = true ∧ t.fld p DMAC.INDEX_CI = s.fld p DMAC.INDEX_CI
        ∧ (∀ a, p + 0x048 ≤ a → a ≤ p + 0x050 → t.rd a = s.rd a) ∧ t.Logged s .write .pcie (p + 0x048 + 4 * r.val) .busyReject v.toNat))
  ∧ (∀ (s : State) (c : Fin 8) (pi : BitVec 16), s.Canonical → s.hostLive = true →
    let p := dmacPage c
    let x := s.dmaCh c
    let run := Instr.doorbell c pi
    (s.bit p DMAC.CTRL_EN = true → s.dState c = 0 → x.cur = none →
      (s.mayFetch c = true →
        ∃ t, exec run s = .next t ∧ t.dState c = 1 ∧ t.fld p DMAC.INDEX_LAST_PI = pi.toNat ∧ (t.dmaCh c).fetching = true
          ∧ t.out = s.out ++ [.hostRead (s.ringAddr c + 32 * s.ci c) 16])
      ∧ (s.mayFetch c = false → ∃ t, exec run s = .next t ∧ t.dState c = 1 ∧ (t.dmaCh c).fetching = x.fetching ∧ (t.dmaCh c).atEnd = false ∧ t.out = s.out))
    ∧ (s.bit p DMAC.CTRL_EN = true → s.dState c = 2 → ∃ t, exec run s = .next t ∧ t.dState c = 2 ∧ t.dmaCh c = { x with dbSince := true } ∧ t.out = s.out)
    ∧ (s.dState c = 4 → ∃ t, exec run s = .next t ∧ t.dState c = 4 ∧ t.bit p DMAC.STATE_DB_PENDING = true ∧ t.dma = s.dma ∧ t.out = s.out))
  ∧ (∀ (s : State) (c : Fin 8) (d : Desc), s.Canonical → s.hostLive = true → (s.dmaCh c).fetching = true → (s.dmaCh c).lostFetch = 0 → s.engineFrozen c = false →
    s.granted s.aclk s.others (.fetch c (.words d.dw0 d.dw1 d.dw2 d.dw3)) = true → s.dmaOutstanding ≤ 57 → s.Alone c →
    let p := dmacPage c
    let x := s.dmaCh c
    let i := s.ringAddr c + 32 * s.ci c
    let next := if s.fld p DMAC.RING_SIZE_SIZE_M1 ≤ s.ci c then 0 else s.ci c + 1
    let run := Instr.descriptorFetch c (.words d.dw0 d.dw1 d.dw2 d.dw3)
    (getBits d.dw0 31 1 = 1 → x.cur = none → s.dState c = 1 → s.modeServes c = true → x.atEnd = false →
      (d.ok = true → getBits d.dw0 0 24 ≠ 0 →
        ∃ t, exec run s = .next t ∧ (t.dmaCh c).cur = some d ∧ t.fld p DMAC.CUR_WORD_WORD = getBits d.dw1 0 25
          ∧ t.pair p DMAC.CUR_HOST_LO = d.dw3.toNat * 2 ^ 32 + d.dw2.toNat ∧ t.fld p DMAC.CUR_LEFT_BYTES = getBits d.dw0 0 24
          ∧ (t.dmaCh c).fetching = true ∧ (s.shadow (p + 0x044) = none → (s.out ++ [.hostRead (s.ringAddr c + 32 * next) 16]) <+: t.out))
      ∧ (d.ok = false →
        ∃ t, exec run s = .next t ∧ t.dState c = 5 ∧ t.fld p DMAC.STATE_LAST_STATUS = 8 ∧ t.bit p DMAC.err_DESC_ERR = true ∧ t.bit p DMAC.st_HALT = true
          ∧ t.fld p DMAC.INDEX_CI = next % 2 ^ 16 ∧ .hostWrite i (leBytes 4 (d.dw0.toNat % 2 ^ 31)) ∈ t.out))
    ∧ (getBits d.dw0 31 1 = 1 → x.cur.isSome = true → s.Asked c →
      ∃ t, exec run s = .next t ∧ (t.dmaCh c).ahead = some d ∧ (t.dmaCh c).fetching = false ∧ (∀ a, a ≠ dmaPage + 0x00c → t.rd a = s.rd a) ∧ t.out = s.out)
    ∧ (getBits d.dw0 31 1 = 0 → x.cur = none → x.ahead = none → s.dState c = 1 → s.shadow (p + 0x044) = none →
      (x.dbSince = true → x.second = false →
        ∃ t, exec run s = .next t ∧ t.dState c = 1 ∧ t.fld p DMAC.REFETCHES = (s.fld p DMAC.REFETCHES + 1) % 2 ^ 32 ∧ (t.dmaCh c).fetching = true
          ∧ t.out = s.out ++ [.hostRead i 16])
      ∧ (x.dbSince = false ∨ x.second = true → ∃ t, exec run s = .next t ∧ t.dState c = 0 ∧ t.ci c = s.ci c ∧ t.out = s.out)))
  ∧ (∀ (s : State) (c : Fin 8) (r : FetchResult), s.Canonical → s.hostLive = true → s.granted s.aclk s.others (.fetch c r) = true → s.Alone c → s.Asked c →
    let x := s.dmaCh c
    (∀ d : Desc, r = .words d.dw0 d.dw1 d.dw2 d.dw3 → 0 < x.lostFetch → (x.fetching = true ∨ s.dState c ≠ 1) →
      ∃ t, exec (.descriptorFetch c r) s = .next t ∧ t.dmaCh c = { x with lostFetch := x.lostFetch - 1 } ∧ t.out = s.out)
    ∧ (x.fetching = true → x.lostFetch = 0 → s.engineFrozen c = true →
      ∃ t, exec (.descriptorFetch c r) s = .next t ∧ t.dmaCh c = { x with fetching := false, fetched := some r } ∧ t.dState c = s.dState c)
    ∧ (∀ k, r = .failed k → x.fetching = true → x.lostFetch = 0 → s.engineFrozen c = false →
      ∃ t, exec (.descriptorFetch c r) s = .next t ∧ t.dState c = 5 ∧ t.fld (dmacPage c) DMAC.STATE_LAST_STATUS = 9 ∧ t.ci c = s.ci c
        ∧ t.bit (dmacPage c) DMAC.err_PCIE_ERR = true ∧ (k = .timeout → t.bit dmaPage DMA.err_CPL_TIMEOUT = true)
        ∧ (k = .error ∨ k = .poisoned → t.bit dmaPage DMA.err_CPL_ERROR = true)))
  ∧ (∀ (s : State) (c : Fin 8) (d : Desc) (j : BitVec 6) (k : Completion) (bytes : List (BitVec 8)), s.Canonical → s.hostLive = true → (s.dmaCh c).cur = some d →
    s.readTurn = some c.val → (s.issueReq c).granted s.aclk (s.issueReq c).others (.move c) = true → s.Alone c → s.Fetched c →
    (∃ n < 3, s.endpoint.maxPayload = 128 * 2 ^ n) →
    let p := dmacPage c
    let x := s.dmaCh c
    let fmt := getBits d.dw0 24 4
    let left := s.fld p DMAC.CUR_LEFT_BYTES
    let addr := s.pair p DMAC.CUR_HOST_LO
    let data := x.buf ++ (s.moveHalves c d).flatMap fun h =>
      hostBytes fmt (if (s.half h.1).integ = .ok then some (s.half h.1).data else none) h.2.1 h.2.2
    let bs := data.take (min left (512 - addr % 512))
    bs ≠ [] →
    ((∀ h ∈ s.moveHalves c d, s.gate (h.1 / 32768) 4 0 = .granted ∧ ((s.half h.1).integ = .ok ∨ (s.half h.1).integ = .poison)) →
      ∃ t, exec (.dmaDataMove c j k bytes) s = .next t
        ∧ t.out = s.out ++ payloads s.endpoint.maxPayload addr bs ++ (if bs.length = left then [.hostRead ((d.host + getBits d.dw0 0 24 - 1) / 4 * 4) 4] else [])
        ∧ t.fld p DMAC.CUR_WORD_WORD = (getBits d.dw1 0 25 + wordOfByte fmt (x.count + bs.length)) % 2 ^ 25
        ∧ t.pair p DMAC.CUR_HOST_LO = (addr + bs.length) % 2 ^ 64 ∧ t.fld p DMAC.CUR_LEFT_BYTES = left - bs.length
        ∧ (t.dmaCh c).count = x.count + bs.length ∧ (t.dmaCh c).buf = data.drop bs.length ∧ (t.dmaCh c).readback = decide (bs.length = left)
        ∧ t.store = s.store)
    ∧ (∀ h r, s.moveHalves c d = h :: r → x.buf = [] → s.gate (h.1 / 32768) 4 0 = .violation →
      ∃ t, exec (.dmaDataMove c j k bytes) s = .next t ∧ (t.dmaCh c).violated = true ∧ t.engineFrozen c = true ∧ t.fld p DMAC.CUR_LEFT_BYTES = left
        ∧ t.bit dmaPage DMA.err_VIOLATION = true ∧ t.store = s.store))
  ∧ (∀ (s : State) (c : Fin 8) (d : Desc) (k : Nat) (bytes : List (BitVec 8)), s.Canonical → s.hostLive = true → 6 ≤ c.val → (s.dmaCh c).cur = some d →
    s.mayMove c = true → s.bit chipPage CHIP.INJECT_GO = false → 0 < k → (s.dmaCh c).buf = [] → (s.dmaCh c).reads = [⟨bytes.length, [], false⟩] →
    (∀ q ∈ s.reqs, q.access ≠ .move c) → s.Alone c → s.Fetched c → s.Asked c →
    let u := (s.dataArrives c 0 .good bytes).dmaServe
    u.writeTurn = some c.val → (u.issueReq c).granted u.aclk (u.issueReq c).others (.move c) = true →
    let p := dmacPage c
    let size := if getBits d.dw0 24 4 = 0 then 9 else 16
    let w := s.fld p DMAC.CUR_WORD_WORD
    let left := s.fld p DMAC.CUR_LEFT_BYTES
    let ws := hostWords (getBits d.dw0 24 4) bytes
    getBits d.dw0 24 4 ≤ 1 → bytes.length = size * k → size * k ≤ 512 → size * k ≤ left → w % 4 = 0 →
    (∀ h, w / 4 ≤ h → h < w / 4 + k → s.gate (h / 32768) 5 0 = .granted) →
    ∃ t, exec (.dmaDataMove c 0 .good bytes) s = .next t
      ∧ (∀ j < k, t.half (w / 4 + j) = Half.fresh ⟨ws.getD (4 * j) 0, ws.getD (4 * j + 1) 0, ws.getD (4 * j + 2) 0, ws.getD (4 * j + 3) 0⟩)
      ∧ (∀ h, (h < w / 4 ∨ w / 4 + k ≤ h) → t.half h = s.half h) ∧ (t.dmaCh c).count = (s.dmaCh c).count + size * k
      ∧ t.fld p DMAC.CUR_LEFT_BYTES = left - size * k ∧ (t.dmaCh c).readback = decide (size * k = left) ∧ (t.dmaCh c).buf = [] ∧ t.out = s.out)
  ∧ (∀ (s : State) (c : Fin 8) (d : Desc) (l₁ l₂ : List HostRead) (r : HostRead) (i : BitVec 6) (k : Completion) (bytes : List (BitVec 8)), s.Canonical → s.hostLive = true →
    6 ≤ c.val → (s.dmaCh c).cur = some d → (s.dmaCh c).reads = l₁ ++ r :: l₂ → i.toNat = l₁.length →
    let x := s.dmaCh c
    (k = .good → bytes ≠ [] → bytes.length ≤ r.left → r.lost = false → x.buf = [] → (l₁.head?.any fun o => decide (0 < o.left) && !o.lost && o.got.isEmpty) = true →
      s.Alone c → s.Fetched c → s.Asked c → (s.dataArrives c i.toNat k bytes).dmaServe.writeTurn ≠ some c.val →
      ∃ t, exec (.dmaDataMove c i k bytes) s = .next t ∧ (t.dmaCh c).reads = l₁ ++ ⟨r.left - bytes.length, r.got ++ bytes, false⟩ :: l₂ ∧ (t.dmaCh c).buf = []
        ∧ t.store = s.store ∧ t.out = s.out)
    ∧ (k ≠ .good → 0 < r.left → r.lost = false → s.engineFrozen c = false →
      ∃ t, exec (.dmaDataMove c i k []) s = .next t ∧ t.dState c = 5 ∧ t.fld (dmacPage c) DMAC.STATE_LAST_STATUS = 9 ∧ t.bit (dmacPage c) DMAC.err_PCIE_ERR = true
        ∧ t.store = s.store)
    ∧ (k ≠ .good → 0 < r.left → r.lost = false → s.engineFrozen c = true → (s.dataArrives c i.toNat k []).dmaServe.writeTurn ≠ some c.val →
      ∃ t, exec (.dmaDataMove c i k []) s = .next t ∧ (t.dmaCh c).failed = true ∧ t.dState c = s.dState c ∧ t.ci c = s.ci c ∧ t.store = s.store))
  ∧ (∀ (s : State) (c : Fin 8) (k : Completion) (d : Desc), s.Canonical → s.hostLive = true → (s.dmaCh c).cur = some d → (s.dmaCh c).readback = true →
    s.engineFrozen c = false →
    let p := dmacPage c
    let x := s.dmaCh c
    let next := if s.fld p DMAC.RING_SIZE_SIZE_M1 ≤ s.ci c then 0 else s.ci c + 1
    let last := halfIdx d.lastLine.1 d.lastLine.2 0
    let returns := (c.val < 6 ∧ k = .good ∧ x.backAt = none ∧ x.lostBack = 0)
      ∨ (6 ≤ c.val ∧ (∀ q ∈ s.reqs, q.access ≠ .back c) ∧ (s.issueReq c).granted s.aclk (s.issueReq c).others (.back c) = true
        ∧ s.gate d.lastLine.1 5 0 = .granted ∧ ∀ h ∈ [last, last + 1], (s.half h).integ = .ok ∨ (s.half h).integ = .poison)
    let wrote := fun (status : Nat) => [Out.hostWrite (s.ringAddr c + 32 * s.ci c + 16)
        (leBytes 4 (x.count + 2 ^ 24 * status) ++ leBytes 4 (min x.poisoned 65535 + 2 ^ 16 * min x.ueRefused 65535) ++ leBytes 8 s.now.toNat),
      .hostWrite (s.ringAddr c + 32 * s.ci c) (leBytes 4 (d.dw0.toNat % 2 ^ 31))]
    let status := if x.ueRefused = 0 then 1 else 3
    (returns → x.ahead = none → x.fetching = true → s.dState c ≠ 4 →
      ∃ t, exec (.descriptorComplete c k) s = .next t ∧ (s.out ++ wrote status) <+: t.out ∧ t.ci c = next % 2 ^ 16
        ∧ t.fld p DMAC.STATE_LAST_STATUS = status ∧ t.fld p DMAC.DESCS = (s.fld p DMAC.DESCS + 1) % 2 ^ 32
        ∧ t.pair p DMAC.BYTES_LO = (s.pair p DMAC.BYTES_LO + x.count) % 2 ^ 64 ∧ t.bit p DMAC.st_DESC_DONE = true
        ∧ (getBits d.dw0 30 1 = 1 → t.bit p DMAC.st_DESC_IRQ = true) ∧ (t.dmaCh c).cur = none ∧ t.dState c = s.dState c)
    ∧ (returns → s.dState c = 4 → (s.bit p DMAC.STATE_DB_PENDING = false ∨ s.bit p DMAC.CTRL_EN = false) →
      ∃ t, exec (.descriptorComplete c k) s = .next t ∧ (s.out ++ wrote status) <+: t.out ∧ t.dState c = 0
        ∧ t.bit p DMAC.CTRL_ABORT = false ∧ t.bit p DMAC.st_ABORT_DONE = true)
    ∧ (k ≠ .good → c.val < 6 → x.backAt = none → x.lostBack = 0 →
      ∃ t, exec (.descriptorComplete c k) s = .next t ∧ t.dState c = 5 ∧ t.fld p DMAC.STATE_LAST_STATUS = 9 ∧ t.ci c = next % 2 ^ 16
        ∧ t.bit p DMAC.err_PCIE_ERR = true)
    ∧ (6 ≤ c.val → (∀ q ∈ s.reqs, q.access ≠ .back c) → (s.issueReq c).granted s.aclk (s.issueReq c).others (.back c) = true → s.gate d.lastLine.1 5 0 = .violation →
      ∃ t, exec (.descriptorComplete c k) s = .next t ∧ (t.dmaCh c).violated = true ∧ t.engineFrozen c = true ∧ t.ci c = s.ci c ∧ t.bit dmaPage DMA.err_VIOLATION = true))

/-- R369, R370, R382 to R385, R387, R388, R390: MODE changes while every channel is IDLE or HALTED. EN is set, and cannot be cleared while the
channel works. PAUSE stops a running channel once its reads have returned and their data is written, and resuming goes on from its position. ABORT
ends the descriptor with ABORTED, unless its read-back is already under way; of a frozen engine it waits for the release. A stall, a completion
timeout and the loss of the PCI Express link halt a channel; CLEAR makes it IDLE again. Beyond the rules' own words it rests on the model's choices:
assumptions 4, 52, 85, 86. -/
def Obligations.DmaControl : Prop :=
  (∀ (s : State) (v : Dword), s.Canonical → s.hostLive = true →
    ((∀ c < 8, s.dState c = 0 ∨ s.dState c = 5) →
      ∃ t, exec (.dmaModeWrite v) s = .next t ∧ t.bit dmaPage DMA.MODE_SERIAL = v.getLsbD 0 ∧ t.bit dmaPage DMA.st_MODE_CHANGED = true
        ∧ t.Logged s .write .pcie (dmaPage + 0x040) .done v.toNat)
    ∧ (∀ c < 8, s.dState c ≠ 0 → s.dState c ≠ 5 →
      ∃ t, exec (.dmaModeWrite v) s = .next t ∧ t.rd (dmaPage + 0x040) = s.rd (dmaPage + 0x040) ∧ t.bit dmaPage DMA.err_BUSY_REJECT = true
        ∧ t.Logged s .write .pcie (dmaPage + 0x040) .busyReject v.toNat))
  ∧ (∀ (s : State) (c : Fin 8) (v : Dword), s.Canonical → s.hostLive = true → s.bit (dmacPage c) DMAC.CTRL_PAUSE = false →
    getBits v 2 2 = 0 → s.Alone c → s.Fetched c → s.Asked c →
    let p := dmacPage c
    (getBits v 1 1 = 0 → (s.bit p DMAC.STATE_DB_PENDING = false ∨ s.dState c ≠ 0) →
      ∃ t, exec (.dmaEnable c v) s = .next t ∧ t.bit p DMAC.CTRL_EN = true ∧ t.dState c = s.dState c ∧ t.dma = s.dma)
    ∧ (getBits v 0 1 = 1 → s.bit p DMAC.STATE_DB_PENDING = false →
      (s.dState c = 1 → ∃ t, exec (.dmaPause c v) s = .next t ∧ t.dState c = 2 ∧ t.bit p DMAC.CTRL_PAUSE = true ∧ t.dma = s.dma)
      ∧ (s.dState c = 0 → ∃ t, exec (.dmaPause c v) s = .next t ∧ t.dState c = 3 ∧ t.bit p DMAC.st_PAUSED_SET = true))
    ∧ (getBits v 0 1 = 0 → s.bit p DMAC.CTRL_EN = true → s.dState c ≠ 0 → s.dState c ≠ 5 →
      ∃ t, exec (.dmaPause c v) s = .next t ∧ t.bit p DMAC.err_BUSY_REJECT = true ∧ t.dState c = s.dState c ∧ t.dma = s.dma ∧ t.bit p DMAC.CTRL_EN = true))
  ∧ (∀ (s : State) (c : Fin 8), s.Canonical → s.hostLive = true → s.dState c = 2 →
    let p := dmacPage c
    let x := s.dmaCh c
    x.readback = false → s.waits c = false → x.fetched = none → x.failed = false →
    (x.buf = [] → ∃ t, exec (.dmaPaused c) s = .next t ∧ t.dState c = 3 ∧ t.bit p DMAC.st_PAUSED_SET = true ∧ t.dma = s.dma)
    ∧ (∀ d, c.val < 6 → x.cur = some d → x.buf ≠ [] → x.buf.length ≤ 512 → x.buf.length < s.fld p DMAC.CUR_LEFT_BYTES → s.engineFrozen c = false →
      (∃ n < 3, s.endpoint.maxPayload = 128 * 2 ^ n) →
      ∃ t, exec (.dmaPaused c) s = .next t ∧ t.dState c = 3 ∧ t.bit p DMAC.st_PAUSED_SET = true ∧ (t.dmaCh c).buf = []
        ∧ (s.out ++ payloads s.endpoint.maxPayload (s.pair p DMAC.CUR_HOST_LO) x.buf) <+: t.out ∧ (t.dmaCh c).count = x.count + x.buf.length
        ∧ t.fld p DMAC.CUR_LEFT_BYTES = s.fld p DMAC.CUR_LEFT_BYTES - x.buf.length))
  ∧ (∀ (s : State) (c : Fin 8) (v : Dword), s.Canonical → s.hostLive = true → s.bit (dmacPage c) DMAC.CTRL_PAUSE = true → getBits v 0 1 = 1 → getBits v 2 2 = 0 →
    s.bit (dmacPage c) DMAC.STATE_DB_PENDING = false →
    let p := dmacPage c
    let x := s.dmaCh c
    (s.dState c = 3 → x.cur.isSome = true → ∃ t, exec (.dmaResume c v) s = .next t ∧ t.dState c = 1 ∧ t.bit p DMAC.CTRL_PAUSE = false
      ∧ (t.dmaCh c).cur = x.cur ∧ (t.dmaCh c).ahead = x.ahead ∧ t.fld p DMAC.CUR_LEFT_BYTES = s.fld p DMAC.CUR_LEFT_BYTES)
    ∧ ((s.dState c = 2 ∨ s.dState c = 3) → x.cur = none → x.ahead = none → x.atEnd = true → x.dbSince = false → ∃ t, exec (.dmaResume c v) s = .next t ∧ t.dState c = 0)
    ∧ ((s.dState c = 2 ∨ s.dState c = 3) → x.cur = none → x.ahead = none → x.atEnd = false → x.fetching = false → x.fetched = none → s.mayFetch c = true →
      ∃ t, exec (.dmaResume c v) s = .next t ∧ t.dState c = 1 ∧ (t.dmaCh c).fetching = true ∧ .hostRead (s.ringAddr c + 32 * s.ci c) 16 ∈ t.out)
    ∧ (s.dState c = 2 → x.cur.isSome = true → (x.fetching = true ∨ x.ahead.isSome = true ∨ x.atEnd = true) → s.Alone c → s.Asked c →
      ∃ t, exec (.dmaResume c v) s = .next t ∧ t.dState c = 1 ∧ t.dmaCh c = { x with since := s.time.tclk }))
  ∧ (∀ (s : State) (c : Fin 8) (v : Dword), s.Canonical → s.hostLive = true → s.bit (dmacPage c) DMAC.CTRL_PAUSE = false → getBits v 1 1 = 0 →
    s.bit (dmacPage c) DMAC.STATE_DB_PENDING = false → getBits v 3 1 = 0 → s.Alone c →
    let p := dmacPage c
    let x := s.dmaCh c
    ((s.dState c = 0 ∨ s.dState c = 5) → ∃ t, exec (.dmaAbort c v) s = .next t ∧ t.dState c = s.dState c ∧ t.bit p DMAC.st_ABORT_DONE = true ∧ t.dma = s.dma)
    ∧ (s.dState c = 1 → getBits v 0 1 = 1 →
      ((x.readback = true ∨ x.cur.isSome = true ∧ s.engineFrozen c = true) →
        ∃ t, exec (.dmaAbort c v) s = .next t ∧ t.dState c = 4 ∧ t.bit p DMAC.CTRL_ABORT = true ∧ t.dma = s.dma)
      ∧ (∀ d, x.readback = false → s.engineFrozen c = false → x.cur = some d →
        ∃ t, exec (.dmaAbort c v) s = .next t ∧ t.dState c = 0 ∧ t.fld p DMAC.STATE_LAST_STATUS = 2 ∧ t.bit p DMAC.st_ABORT_DONE = true
          ∧ (t.dmaCh c).cur = none ∧ .hostWrite (s.ringAddr c + 32 * s.ci c) (leBytes 4 (d.dw0.toNat % 2 ^ 31)) ∈ t.out)
      ∧ (x.readback = false → x.cur = none →
        ∃ t, exec (.dmaAbort c v) s = .next t ∧ t.dState c = 0 ∧ t.bit p DMAC.st_ABORT_DONE = true ∧ t.ci c = s.ci c ∧ (t.dmaCh c).ahead = none)))
  ∧ (∀ (s : State) (c : Fin 8) (v : Dword), s.Canonical → s.hostLive = true → s.bit (dmacPage c) DMAC.CTRL_PAUSE = false → getBits v 1 2 = 0 →
    s.bit (dmacPage c) DMAC.STATE_DB_PENDING = false → s.dState c = 5 → ∃ t, exec (.dmaClear c v) s = .next t ∧ t.dState c = 0)
  ∧ (∀ (s : State) (c : Fin 8), s.Canonical → s.hostLive = true →
    let p := dmacPage c
    let x := s.dmaCh c
    let limit := s.fld dmaPage DMA.STALL_TO_US * 1000
    (s.dState c = 1 → limit ≠ 0 → s.engineFrozen c = false → s.dmaStalled c = true → x.since + limit ≤ s.time.tclk →
      ∃ t, exec (.dmaStall c) s = .next t ∧ t.dState c = 5 ∧ t.bit p DMAC.err_STALLED = true ∧ t.bit p DMAC.st_HALT = true
        ∧ (t.dmaCh c).cur = none ∧ (x.cur.isSome = true → t.fld p DMAC.STATE_LAST_STATUS = 0xb))
    ∧ ((limit = 0 ∨ s.time.tclk < x.since + limit ∨ s.dmaStalled c = false ∨ s.engineFrozen c = true) → exec (.dmaStall c) s = .next s)
    ∧ (s.endpoint.timeoutOff = true → ∀ fetch, exec (.completionTimeout c fetch) s = .next s)
    ∧ (s.endpoint.timeoutOff = false → s.engineFrozen c = false → ∀ fetch : Bool,
      (if fetch = true then x.fetching = true ∧ x.lostFetch = 0
      else x.cur.isSome = true ∧ ((x.reads.head?.any fun r => decide (0 < r.left) && !r.lost) = true
        ∨ ((∀ r ∈ x.reads, r.left = 0) ∧ x.lostBack = 0 ∧ x.readback = true ∧ x.backAt = none ∧ c.val < 6))) →
      ∃ t, exec (.completionTimeout c fetch) s = .next t ∧ t.dState c = 5 ∧ t.fld p DMAC.STATE_LAST_STATUS = 9 ∧ t.bit p DMAC.err_PCIE_ERR = true
        ∧ t.bit dmaPage DMA.err_CPL_TIMEOUT = true ∧ t.fld dmaPage DMA.CPL_TIMEOUTS = min (s.fld dmaPage DMA.CPL_TIMEOUTS + 1) (2 ^ 32 - 1)))
  ∧ (∀ s : State, s.Canonical → s.live = true →
    ∃ t, exec .pcieLinkDown s = .next t ∧ ∀ c < 8,
      (1 ≤ s.dState c → s.dState c ≤ 4 → t.dState c = 5 ∧ t.fld (dmacPage c) DMAC.STATE_LAST_STATUS = 9 ∧ t.bit (dmacPage c) DMAC.err_PCIE_ERR = true
        ∧ t.ci c = s.ci c ∧ (t.dmaCh c).cur = none)
      ∧ ((s.dState c = 0 ∨ s.dState c = 5) → t.dState c = s.dState c ∧ t.ci c = s.ci c
        ∧ t.dmaCh c = { s.dmaCh c with fetching := false, reads := [], readback := false, lostFetch := 0, lostBack := 0 }))

/-- R377: a doorbell that arrives while EN is 0, or while the channel is HALTED or PAUSED, is held and DB_PENDING reads 1. It takes effect when EN
is set, at CLEAR, or at resume. A doorbell to a RUNNING channel only marks its current fetch. -/
def Obligations.HeldDoorbells : Prop :=
  (∀ (s : State) (c : Fin 8) (pi : BitVec 16), s.Canonical → s.hostLive = true →
    let p := dmacPage c
    ((s.bit p DMAC.CTRL_EN = false ∨ s.dState c = 5 ∨ s.dState c = 3) →
      ∃ t, exec (.doorbell c pi) s = .next t ∧ t.bit p DMAC.STATE_DB_PENDING = true ∧ t.fld p DMAC.INDEX_LAST_PI = pi.toNat ∧ t.dState c = s.dState c
        ∧ t.dma = s.dma ∧ t.out = s.out)
    ∧ (s.bit p DMAC.CTRL_EN = true → s.dState c = 1 →
      ∃ t, exec (.doorbell c pi) s = .next t ∧ t = { s with regs := t.regs, dma := t.dma } ∧ t.dmaCh c = { s.dmaCh c with dbSince := true }
        ∧ (∀ i, i ≠ c.val → t.dmaCh i = s.dmaCh i) ∧ t.fld p DMAC.INDEX_LAST_PI = pi.toNat ∧ t.fld p DMAC.INDEX_CI = s.fld p DMAC.INDEX_CI
        ∧ ∀ a, a ≠ p + 0x058 → t.rd a = s.rd a))
  ∧ (∀ (s : State) (c : Fin 8) (v : Dword), s.Canonical → s.hostLive = true → s.bit (dmacPage c) DMAC.STATE_DB_PENDING = true → getBits v 2 1 = 0 →
    let p := dmacPage c
    (s.bit p DMAC.CTRL_EN = false → s.bit p DMAC.CTRL_PAUSE = false → s.dState c = 0 → getBits v 1 3 = 0 →
      ∃ t, exec (.dmaEnable c v) s = .next t ∧ t.bit p DMAC.STATE_DB_PENDING = false)
    ∧ (s.bit p DMAC.CTRL_EN = true → s.bit p DMAC.CTRL_PAUSE = false → s.dState c = 5 → getBits v 0 3 = 1 →
      ∃ t, exec (.dmaClear c v) s = .next t ∧ t.bit p DMAC.STATE_DB_PENDING = false)
    ∧ (s.bit p DMAC.CTRL_PAUSE = true → s.dState c = 3 → getBits v 0 1 = 1 → getBits v 3 1 = 0 →
      ∃ t, exec (.dmaResume c v) s = .next t ∧ t.bit p DMAC.STATE_DB_PENDING = false))
  ∧ (∀ (s : State) (c : Fin 8) (v : Dword), s.Canonical → s.hostLive = true → s.bit (dmacPage c) DMAC.STATE_DB_PENDING = true → getBits v 2 1 = 0 →
    s.Alone c → s.Asked c → s.mayFetch c = true →
    let p := dmacPage c
    let x := s.dmaCh c
    let taken := fun t : State => t.dState c = 1 ∧ t.bit p DMAC.STATE_DB_PENDING = false
    let next := if s.fld p DMAC.RING_SIZE_SIZE_M1 ≤ s.ci c then 0 else s.ci c + 1
    (s.bit p DMAC.CTRL_EN = false → s.bit p DMAC.CTRL_PAUSE = false → s.dState c = 0 → x.cur = none → getBits v 1 3 = 0 →
      ∃ t, exec (.dmaEnable c v) s = .next t ∧ taken t ∧ t.bit p DMAC.CTRL_EN = true ∧ t.out.getLast? = some (.hostRead (s.ringAddr c + 32 * s.ci c) 16))
    ∧ (s.bit p DMAC.CTRL_EN = true → s.bit p DMAC.CTRL_PAUSE = false → s.dState c = 5 → x.cur = none → getBits v 0 3 = 1 →
      ∃ t, exec (.dmaClear c v) s = .next t ∧ taken t ∧ t.out.getLast? = some (.hostRead (s.ringAddr c + 32 * s.ci c) 16))
    ∧ (s.bit p DMAC.CTRL_PAUSE = true → s.dState c = 3 → getBits v 0 1 = 1 → getBits v 3 1 = 0 → x.fetching = false → x.fetched = none →
      (x.cur = none → x.ahead = none →
        ∃ t, exec (.dmaResume c v) s = .next t ∧ taken t ∧ t.out.getLast? = some (.hostRead (s.ringAddr c + 32 * s.ci c) 16))
      ∧ (x.cur.isSome = true → x.ahead = none → x.atEnd = false →
        ∃ t, exec (.dmaResume c v) s = .next t ∧ taken t ∧ (t.dmaCh c).cur = x.cur ∧ t.out.getLast? = some (.hostRead (s.ringAddr c + 32 * next) 16))
      ∧ (x.cur.isSome = true → (x.ahead.isSome = true ∨ x.atEnd = true) →
        ∃ t, exec (.dmaResume c v) s = .next t ∧ taken t ∧ t.dmaCh c = { x with dbSince := true, since := s.time.tclk })))

/-! Resets, start-up, heat and the ports -/

/-- R421, R425, R441 to R445, R467: a failed rail, RESET_N and TEST_EN hold the part with everything at reset but RESET_CAUSE; once nothing holds
it, its units respond, the causes show, and the strap gives the role. A fuse block that fails is a chip-level error. The self-test leaves pads and
poison. PERST_N and a hot reset take back the endpoint and the DMA pages while the run goes on. Beyond the rules' own words it rests on the model's
choices: assumptions 7, 8, 9, 12, 13, 46. -/
def Obligations.Resets : Prop :=
  (∀ (s : State) (i : Instr), s.Canonical → (i = .resetNAssert ∨ i = .testEnHigh) →
    ∃ t, exec i s = .next t ∧ t.live = false
      ∧ t = { State.reset with pending := s.pending, regs := t.regs, power := t.power, tap := s.tap, out := s.out, freeCtr := s.freeCtr }
      ∧ (∀ a, t.rd a = if a = chipPage + 0x08c then s.rd a else resetOf a) ∧ t.power.causes = s.power.causes ||| 2
      ∧ (i = .resetNAssert → t.power.resetN = true) ∧ (i = .testEnHigh → t.power.testEn = true))
  ∧ (∀ (s : State) (rail : Rail) (good : Bool),
    ∃ t, exec (.railFail rail good) s = .next t ∧ t.live = false
      ∧ t = { State.reset with pending := s.pending, power := t.power, tap := if rail = .other then s.tap else ⟨1, 0, 0⟩, out := s.out, freeCtr := s.freeCtr }
      ∧ t.power.monitor = true ∧ t.power.svcHold = false ∧ t.power.causes = 1 ∧ (good = false → t.railLow = true)
      ∧ t.power.noHv = (if rail = .hv then !good else s.power.noHv) ∧ t.power.noCore = (if rail = .core then !good else s.power.noCore)
      ∧ ∃ u, exec .monitorRelease t = .next u ∧ u = { t with power := { t.power with monitor := false, noHv := false, noCore := false, noOther := false } } ∧ u.railLow = false)
  ∧ (∀ (s : State) (pin : ResetPin) (strap : Bool) (bad : List (BitVec 8)) (levels : BitVec 96) (ohms : Option Nat), s.Canonical →
    let p := match pin with
      | .none => s.power
      | .resetN => { s.power with resetN := false }
      | .testEn => { s.power with testEn := false }
    (p.monitor = false → p.resetN = false → p.svcHold = false → p.testEn = false → holdsPart s.tap.instr = false → s.power.startup = .held →
      ∃ t, exec (.resetRelease pin strap bad levels ohms) s = .next t ∧ t.live = true ∧ t.power.startup = .waitLock ∧ t.zq = some ⟨0, ohms⟩
        ∧ t.fld chipPage CHIP.RESET_CAUSE_CAUSE = s.fld chipPage CHIP.RESET_CAUSE_CAUSE ||| s.power.causes.toNat ∧ t.power.causes = 0
        ∧ t.bit swarmPage SWARM.STATE_STRAP = strap ∧ t.isQueen = t.roleOf
        ∧ (bad = [] → t.runState = s.runState ∧ t.causeUe = s.causeUe ∧ ∀ k < 96, s.bit (chPage k) PG.CTRL_RUN = true → s.inCluster = false → t.bit (chPage k) CH.LEVEL_COMP = levels.getLsbD k)
        ∧ (bad ≠ [] → t.causeUe = true ∧ t.bit chipPage CHIP.err_CHIP_UE = true ∧ t.runState = .fault
          ∧ ∀ a ∈ fusedRegs, Config.fuseBlock a ∈ bad → t.rd a = 0))
    ∧ ((p.monitor || p.resetN || p.svcHold || p.testEn || holdsPart s.tap.instr) = true →
      ∃ t, exec (.resetRelease pin strap bad levels ohms) s = .next t ∧ t = { s with power := p } ∧ t.live = false))
  ∧ (∀ (s : State) (bad : List (Fin 256 × BitVec 14 × Bool)), s.live = true → s.bit tbPage TB.live_STARTED = true → s.power.selfTestDone = false →
    ∃ t, exec (.selfTestDone bad) s = .next t ∧ t.power = { s.power with selfTestDone := true } ∧ t.journal = s.journal
      ∧ (∀ x ∈ bad, t.half (halfIdx x.1 x.2.1.toNat x.2.2.toNat) = Half.poisoned)
      ∧ ∀ i, (∀ x ∈ bad, halfIdx x.1 x.2.1.toNat x.2.2.toNat ≠ i) → t.half i = Half.fresh Rec.pad)
  ∧ (∀ (s : State) (i : Instr) (bit : Nat), s.Canonical → s.live = true → s.bit chipPage CHIP.live_LOADING = false →
    (i = .perstN ∧ bit = 3 ∨ i = .hotReset ∧ bit = 4) →
    ∃ t, exec i s = .next t ∧ t.live = true ∧ t.hostLive = false ∧ t.dma = [] ∧ t.msix = ⟨false, false, []⟩ ∧ t.keys = []
      ∧ (∀ a, 0x18000 ≤ a → a < 0x21000 → a % 0x1000 ≠ 0x024 → dmaCounter a = false → t.rd a = resetOf a)
      ∧ (∀ a, (pageOf a).isSome = true → (a % 0x1000 = 0x028 ∨ a % 0x1000 = 0x02c) → t.rd a = resetOf a)
      ∧ t.fld chipPage CHIP.RESET_CAUSE_CAUSE = s.fld chipPage CHIP.RESET_CAUSE_CAUSE ||| 2 ^ bit
      ∧ t.Logged s .unitEvent .internal (chipPage + 0x08c) .done (t.rd (chipPage + 0x08c)).toNat
      ∧ t.runState = s.runState ∧ t.time = s.time ∧ t.cells = s.cells ∧ t.imem = s.imem ∧ t.store = s.store ∧ t.links = s.links ∧ t.regions = s.regions)

/-- R419, R433, R450 to R454: the entry into the cluster state completes, and the wake completes 200,000 TCLK cycles after the later of its
acceptance and that completion. A conversion shows the temperature and its warning; 115 °C is a chip-level fault, which stops every region, and
clears below 105 °C, when the pools calibrate again. An uncorrectable error of a chip-level structure is such a fault too. R450, R451: an accepted
CLUSTER turns the part to the cluster state, its entry under way, with TRIG_OUT at its inactive level; an accepted WAKE starts the wake at the
present TCLK cycle and leaves CLUSTER at 1. Beyond the rules' own words it rests on the model's choices: assumptions 12, 44, 45, 70. -/
def Obligations.ClusterAndHeat : Prop :=
  (∀ s : State, s.live = true → s.inCluster = true → s.power.clusterEntered = false →
    ∃ t, exec .clusterEntryDone s = .next t ∧ t = { s with power := t.power } ∧ t.power.clusterEntered = true
      ∧ t.power.wakeFrom = (if s.power.waking then s.power.heart else s.power.wakeFrom))
  ∧ (∀ (s : State) (levels : BitVec 96), s.Canonical → s.live = true → s.inCluster = true → s.power.waking = true → s.power.clusterEntered = true →
    (s.power.heart / 4 = (s.power.wakeFrom + 200000) / 4 →
      ∃ t, exec (.wakeComplete levels) s = .next t ∧ t.inCluster = false ∧ t.power.waking = false ∧ t.runState = s.runState ∧ t.time = s.time
        ∧ t.align = (if s.swarm.woke = true ∧ s.joined = false then aAcquiring else s.align))
    ∧ (s.power.heart / 4 ≠ (s.power.wakeFrom + 200000) / 4 → exec (.wakeComplete levels) s = .next s))
  ∧ (∀ (s : State) (v : BitVec 11), s.Canonical → s.Calm → s.live = true →
    let level := signed 11 (s.fld chipPage CHIP.THERM_WARN_LEVEL)
    ∃ t, exec (.tempUpdate v) s = .next t ∧ t.fld chipPage CHIP.TEMP_VALUE = v.toNat ∧ t.bit chipPage CHIP.TEMP_VALID = true
      ∧ t.bit chipPage CHIP.live_THERM_WARN = decide (level ≤ v.toInt)
      ∧ (level ≤ v.toInt → s.bit chipPage CHIP.live_THERM_WARN = false → t.bit chipPage CHIP.st_THERM_WARN = true)
      ∧ (s.causeThermal = false → v.toInt < 460 → t.causeThermal = false ∧ t.runState = s.runState)
      ∧ (s.causeThermal = false → 460 ≤ v.toInt → t.causeThermal = true ∧ t.bit chipPage CHIP.err_THERMAL = true ∧ t.runState = .fault
        ∧ ∀ n < 8, (s.executes n = true → (t.region n).haltAt = some s.time.tclk ∧ t.executes n = false) ∧ (s.recording n = true → ∃ x ∈ t.run.chipStops, x.1 = n))
      ∧ (s.causeThermal = true → 420 ≤ v.toInt → t.causeThermal = true ∧ t.runState = s.runState)
      ∧ (s.causeThermal = true → v.toInt < 420 → t.causeThermal = false ∧ t.runState = s.runState ∧ (s.asleep = false → ∀ k < 96, (t.chan k).cal = .initial)))
  ∧ (∀ (s : State) (code : BitVec 4) (loc : BitVec 30), s.Canonical → s.Calm → s.live = true →
    (2 ≤ code.toNat → code.toNat ≤ 6 →
      ∃ t, exec (.chipUe code loc) s = .next t ∧ t.causeUe = true ∧ t.bit chipPage CHIP.err_CHIP_UE = true ∧ t.runState = .fault ∧ t.run.slotDue = false
        ∧ ∀ n < 8, (s.executes n = true → (t.region n).haltAt = some s.time.tclk ∧ t.executes n = false) ∧ (s.recording n = true → ∃ x ∈ t.run.chipStops, x.1 = n)))
  ∧ (∀ (s : State) (id : BitVec 8), s.Accepts 7 id →
    ∃ t, exec (.cmdCluster id) s = .next t ∧ t.inCluster = true ∧ t.power.clusterEntered = false ∧ t.power.waking = false ∧ t.trigOut = none
      ∧ t.rd 0x54 = statusWord 7 2 id 0)
  ∧ (∀ (s : State) (id : BitVec 8), s.Accepts 8 id →
    ∃ t, exec (.cmdWake id) s = .next t ∧ t.inCluster = true ∧ t.power.waking = true ∧ t.power.wakeFrom = s.power.heart
      ∧ t.rd 0x54 = statusWord 8 2 id 0)

/-- R455 to R457 (Table 16-7): each request of the service port first shifts out the response to the one before it. An accepted one counts in FRAMES
and sets the response; a reserved one counts in BAD_OPS, a short frame in DISCARDS. READ_ID, READ_HEALTH, READ_MBOX and READ_CMD read; MBOX_LO and
MBOX_HI write MBOX_IN; CMD is judged as a command, while CMD_EN is 1; HOLD resets the part, while HOLD_EN is 1, and RELEASE ends it. R474 to R476
(Table 17-12): Test-Logic-Reset selects IDCODE, which shifts out 0x100967AF. SAMPLE/PRELOAD captures the boundary cells and takes their next drive
values, BYPASS shifts out 0, and these leave the part's operation undisturbed. EXTEST and its 1149.6 forms, CLAMP and HIGHZ hold the part in reset.
Beyond the rules' own words it rests on the model's choices: assumptions 11, 12, 21, 47, 80. -/
def Obligations.ServiceAndTestPorts : Prop :=
  (∀ (s : State) (i : Instr) (w : Dword), s.Canonical → s.live = true → s.power.noHv = false → s.power.noCore = false →
    ((i = .svcNop ∧ w = s.svc.response)
      ∨ (∃ j : BitVec 2, i = .svcReadId j ∧ w = s.rd (chipPage + 0x040 + 4 * j.toNat))
      ∨ (i = .svcReadHealth ∧ w = s.health)
      ∨ (i = .svcReadMbox ∧ w = s.mailbox s.svc.outOld 0x054)
      ∨ (∃ v, (i = .svcMboxLo v ∨ i = .svcMboxHi v) ∧ w = s.health)
      ∨ (i = .svcReadCmd ∧ w = s.rd (chipPage + 0x054))) →
    ∃ t, exec i s = .next t ∧ t.svc.response = w ∧ (s.out ++ [.svcResponse s.svc.response]) <+: t.out
      ∧ t.fld svcPage SVC.FRAMES = (s.fld svcPage SVC.FRAMES + 1) % 2 ^ 32
      ∧ (i = .svcReadMbox → (s.svc.outOld.1 ≠ s.aclk → t.bit svcPage SVC.live_OUT_FULL = false) ∧ t.bit svcPage SVC.st_MBOX_TAKEN = true)
      ∧ (∀ v, i = .svcMboxLo v → t.svc.mboxLo = v)
      ∧ (∀ v, i = .svcMboxHi v → t.rd (svcPage + 0x058) = v ++ s.svc.mboxLo ∧ t.bit svcPage SVC.st_MBOX_IN = true))
  ∧ (∀ (s : State) (id : BitVec 8) (wake : Bool), s.Canonical → s.live = true → s.power.noHv = false → s.power.noCore = false →
    (s.bit svcPage SVC.CTRL_CMD_EN = true → s.cmdWaits .svc = false → s.run.pendingCmd = none → s.run.lastId ≠ some id → s.permitted (if wake then 8 else 7) = true →
      ∃ t, exec (.svcCmd id wake) s = .next t ∧ t.svc.response = statusWord (if wake then 8 else 7) 2 id 0 ∧ t.run.lastId = some id ∧ t.inCluster = true
        ∧ t.power.waking = wake)
    ∧ (s.bit svcPage SVC.CTRL_CMD_EN = false →
      ∃ t, exec (.svcCmd id wake) s = .next t ∧ t.svc = s.svc ∧ t.run = s.run ∧ t.power = s.power ∧ t.rd (chipPage + 0x054) = s.rd (chipPage + 0x054)
        ∧ t.fld svcPage SVC.FRAMES = s.fld svcPage SVC.FRAMES))
  ∧ (∀ s : State, s.Canonical → s.live = true → s.power.noHv = false → s.power.noCore = false →
    (s.bit svcPage SVC.CTRL_HOLD_EN = true →
      ∃ t, exec .svcHold s = .next t ∧ t.live = false ∧ t.power.svcHold = true ∧ t.power.causes = s.power.causes ||| 4 ∧ t.svc.response = s.health
        ∧ t.fld svcPage SVC.FRAMES = (s.fld svcPage SVC.FRAMES + 1) % 2 ^ 32 ∧ t.store = [] ∧ t.cells = [] ∧ t.journal = [])
    ∧ (s.bit svcPage SVC.CTRL_HOLD_EN = false → ∃ t, exec .svcHold s = .next t ∧ t.live = true ∧ t.power = s.power ∧ t.store = s.store))
  ∧ (∀ s : State, s.Canonical → s.live = false → s.power.noHv = false → s.power.noCore = false →
    ∃ t, exec .svcRelease s = .next t ∧ t.power = { s.power with svcHold := false } ∧ t.svc.response = 0
      ∧ t.fld svcPage SVC.FRAMES = (s.fld svcPage SVC.FRAMES + 1) % 2 ^ 32)
  ∧ (∀ s : State, s.Canonical → s.power.noHv = false → s.power.noCore = false →
    (∃ t, exec .svcReservedOp s = .next t ∧ t.svc.response = 0xffffffff ∧ t.fld svcPage SVC.FRAMES = s.fld svcPage SVC.FRAMES
      ∧ t.fld svcPage SVC.BAD_OPS = min (s.fld svcPage SVC.BAD_OPS + 1) (2 ^ 32 - 1) ∧ (s.live = true → t.bit svcPage SVC.err_BAD_OP = true))
    ∧ (∃ t, exec .svcFrameDiscard s = .next t ∧ t.svc = s.svc ∧ t.fld svcPage SVC.DISCARDS = min (s.fld svcPage SVC.DISCARDS + 1) (2 ^ 32 - 1)
      ∧ (s.live = true → t.bit svcPage SVC.err_DISCARD = true)))
  ∧ (∀ s : State, s.power.noHv = false → s.power.noCore = false → exec .tapReset s = .next { s with tap := ⟨0x01, s.tap.shift, s.tap.drive⟩ }
    ∧ exec .idcode s = .next { s with tap := ⟨0x01, s.tap.shift, s.tap.drive⟩, out := s.out ++ [.tdo 0x01 0x100967af] }
    ∧ exec .bypass s = .next { s with tap := ⟨0xff, s.tap.shift, s.tap.drive⟩, out := s.out ++ [.tdo 0xff 0] })
  ∧ (∀ (s : State) (pins next : BitVec 158), s.power.noHv = false → s.power.noCore = false →
    exec (.samplePreload pins next) s = .next { s with tap := ⟨0x02, pins, next⟩, out := s.out ++ [.tdo 0x02 pins] })
  ∧ (∀ (s : State) (pins next : BitVec 158) (i : Instr) (code : BitVec 8) (captured drive : BitVec 158), s.Canonical → s.power.noHv = false → s.power.noCore = false →
    ((i = .extest pins next ∧ code = 0x00 ∨ i = .extestPulse pins next ∧ code = 0x06 ∨ i = .extestTrain pins next ∧ code = 0x07) ∧ captured = pins ∧ drive = next
      ∨ (i = .clamp ∧ code = 0x04 ∨ i = .highz ∧ code = 0x05) ∧ captured = s.tap.shift ∧ drive = s.tap.drive) →
    ∃ t, exec i s = .next t ∧ t.live = false ∧ t.tap = ⟨code, captured, drive⟩
      ∧ t = { State.reset with pending := s.pending, regs := t.regs, power := t.power, tap := t.tap, out := t.out, freeCtr := s.freeCtr }
      ∧ t.out = s.out ++ [.tdo code (if i = .clamp ∨ i = .highz then 0 else pins)]
      ∧ (∀ a, t.rd a = if a = chipPage + 0x08c then s.rd a else resetOf a) ∧ t.power.causes = s.power.causes ||| 2)

/-- R475: while EXTEST, one of its 1149.6 forms, CLAMP or HIGHZ is current, the part is held in reset as by RESET_N, and nothing starts it. When
another instruction becomes current, start-up proceeds and RESET_CAUSE bit [1] is set. SAMPLE/PRELOAD, IDCODE and BYPASS leave the part's operation
undisturbed. -/
def Obligations.TestInstructionsHold : Prop :=
  ∀ (s : State) (j : Instr) (p₁ n₁ : BitVec 158), s.Canonical → s.power.noHv = false → s.power.noCore = false → (j = .tapReset ∨ j = .idcode ∨ j = .bypass ∨ j = .samplePreload p₁ n₁) →
    (∀ (i : Instr) (p₂ n₂ : BitVec 158), (i = .extest p₂ n₂ ∨ i = .extestPulse p₂ n₂ ∨ i = .extestTrain p₂ n₂ ∨ i = .clamp ∨ i = .highz) →
      ∃ t, exec i s = .next t ∧ t.live = false
        ∧ (∃ r, exec .resetNAssert s = .next r ∧ t = { r with power := { r.power with resetN := s.power.resetN }, tap := t.tap, out := t.out })
        ∧ (∀ (pin : ResetPin) (strap : Bool) (bad : List (BitVec 8)) (levels : BitVec 96) (ohms : Option Nat),
            ∃ u, exec (.resetRelease pin strap bad levels ohms) t = .next u ∧ u.live = false ∧ u = { t with power := u.power })
        ∧ (s.power.monitor = false → s.power.resetN = false → s.power.svcHold = false → s.power.testEn = false →
            ∃ u, exec j t = .next u ∧ u = { t with tap := u.tap, out := u.out }
              ∧ ∀ (strap : Bool) (levels : BitVec 96) (ohms : Option Nat), ∃ v, exec (.resetRelease .none strap [] levels ohms) u = .next v ∧ v.live = true ∧ v.power.startup = .waitLock
                ∧ (v.fld chipPage CHIP.RESET_CAUSE_CAUSE).testBit 1 = true))
    ∧ (∃ u, exec j s = .next u ∧ u = { s with tap := u.tap, out := u.out })

/-! The machine -/

/-- A step carries out the command at the front of the queue on the state with the queue's rest. With no command waiting one TCLK cycle passes,
which is the model's choice (assumption 2): a stopped timebase stays; DTIME grows by 1,024 su, and what a slew adds to or withholds, in each cycle
on the root and by 10,240 su in every tenth cycle of the bypass (R49, R66, R71, R295). Beyond the rules' own words it rests on the model's choices:
assumption 2. -/
def Obligations.StepRunsFront : Prop :=
  (∀ (s : State) (c : Instr) (rest : List Instr), s.pending = c :: rest → step s = exec c { s with pending := rest })
  ∧ (∀ s : State, s.pending = [] → s.live = false → step s = .next s)
  ∧ (∀ s : State, s.pending = [] → s.live = true → s.Quiet →
    ∃ t, step s = .next t ∧ t = { s with time := t.time, doms := t.doms, power := t.power, rcNew := t.rcNew, cells := t.cells }
      ∧ t.power.heart = s.power.heart + 1 ∧ (s.bit tbPage TB.live_STARTED = false → t.time = s.time)
      ∧ (s.bit tbPage TB.live_STARTED = true → t.time.tclk = s.time.tclk + 1
        ∧ (s.onRoot = true → t.now = s.now + BitVec.ofNat 64 (1024 + s.time.slew).toNat ∧ t.time.slew = 0)
        ∧ (s.onRoot = false → s.time.bypassPhase < 9 → t.now = s.now ∧ t.time.bypassPhase = s.time.bypassPhase + 1)
        ∧ (s.onRoot = false → 9 ≤ s.time.bypassPhase → t.now = s.now + 10240 ∧ t.time.bypassPhase = 0)))

/-- R49, R62, R216, R233, R394, R419, R430, R448: at the end of a TCLK cycle the jumps decided in it end their segments, or are absorbed by a
natural end in the same cycle, and regions that a chip-level error stopped take no more records. Every fourth cycle ends an ACLK cycle: reads then
return what RC registers took in it, and ALERT_N follows its alarms. The LOCK ball sinks in reset, while LOCKED is 0 and for a reference cycle out
of window; HB_OUT is a square wave of 250 ACLK cycles out of reset and low in reset. Beyond the rules' own words it rests on the model's choices:
assumptions 2, 45, 66, 80, 87. -/
def Obligations.CyclesEnd : Prop :=
  (∀ (s : State) (n : Nat), s.Canonical → n < 8 → (s.cap n).jumpDue = true →
    (∀ seg, (s.cap n).natural = some (s.time.tclk, seg) →
      let t := s.jumpEnd n
      (t.cap n).jumpDue = false ∧ t.bit (regPage n) REG.CAP_EVENTS_JUMP_ABSORBED = true ∧ t.fld (regPage n) REG.SEGS_DONE = s.fld (regPage n) REG.SEGS_DONE
        ∧ t.fld (regPage n) REG.JUMPS_ABSORBED = min (s.fld (regPage n) REG.JUMPS_ABSORBED + 1) (2 ^ 32 - 1))
    ∧ ((∀ p, (s.cap n).natural = some p → p.1 ≠ s.time.tclk) → s.capPhase n ≠ 3 → (s.cap n).stopped = false → s.capSeg n + 1 < s.segments n →
      let t := s.jumpEnd n
      (t.cap n).jumpDue = false ∧ t.fld (regPage n) REG.SEGS_DONE = min (s.fld (regPage n) REG.SEGS_DONE + b2n (s.markFits n)) (2 ^ 32 - 1) ∧ t.capPhase n = 1
        ∧ (t.cap n).count = 0 ∧ (t.cap n).trig = none ∧ (t.cap n).began = s.time.tclk))
  ∧ (∀ (s : State) (n cause detail : Nat) (at_ : DTime), s.Canonical → n < 8 → s.run.chipStops = [(n, cause, detail, at_)] →
    let t := s.chipRecords
    t.run.chipStops = [] ∧ t.recording n = false ∧ ∀ m < 8, m ≠ n → t.recording m = s.recording m)
  ∧ (∀ s : State, s.Canonical →
    let t := s.clock
    t.power.heart = s.power.heart + 1
    ∧ (s.power.heart % 4 = 3 → t.rcNew = [] ∧ t.power.alerted = s.alarmOn)
    ∧ (s.power.heart % 4 ≠ 3 → t.rcNew = s.rcNew ∧ t.power.alerted = s.power.alerted))
  ∧ (∀ s : State, s.railLow = true → s.lockBall = .highZ ∧ s.hbOut = .highZ ∧ s.alertN = .highZ ∧ s.trigOutPin = .highZ ∧ s.smisoPin = .highZ ∧ s.calOutPin = .highZ
    ∧ ∀ i, s.outPin i = .highZ)
  ∧ (∀ s : State, s.railLow = false → holdsPart s.tap.instr = false →
    (s.live = false → s.lockBall = .sink ∧ s.hbOut = .low ∧ s.alertN = .low ∧ s.trigOutPin = .low)
    ∧ (s.live = true →
      (s.lockBall = .highZ ↔ s.bit tbPage TB.live_LOCKED = true ∧ s.cycleOut = false) ∧ (s.lockBall ≠ .highZ → s.lockBall = .sink)
      ∧ s.hbOut = (if s.power.heart / 4 % 250 < 125 then .high else .low) ∧ s.alertN = (if s.power.alerted then .low else .highZ)
      ∧ s.trigOutPin = (if s.trigOutLevel then .high else .low)))

/-- R34, R36, R262, R265: a region's store switch carries at most 32 lines in an FCLK cycle. A transfer over the chip interconnect waits for every
older one, and of those of one ACLK cycle for the ones that come first in the order L0 to L3, DMA write engine, DMA read engine, PCI Express
endpoint, regions 0 to 7. A request waits while a bank it needs has a handover or a fill under way. A request that is not granted joins the queue of
those that wait and changes nothing else; one that is granted later is then carried out. Beyond the rules' own words it rests on the model's
choices: assumption 83. -/
def Obligations.RequestsWait : Prop :=
  (∀ (s : State) (others : List Request) (a : Access) (raised n : Nat), s.laneRegion a = some n → 32 ≤ (s.lanesNow n).used → s.granted raised others a = false)
  ∧ (∀ (s : State) (others : List Request) (a : Access) (raised b line : Nat), (b, line) ∈ s.linesOf a → (s.draining b = true ∨ s.filling b = true) →
    s.granted raised others a = false)
  ∧ (∀ (s : State) (others : List Request) (a : Access) (q : Request) (raised r k : Nat), s.chipRank a = some r → q ∈ others → s.chipRank q.access = some k →
    s.bankWaits q.access = false → (q.raised < raised ∨ q.raised = raised ∧ k < r) → s.granted raised others a = false)
  ∧ (∀ (s : State) (c at_ w n : Nat) (got : List Dword) (r : FetchResult) (ds : List (BitVec 4 × Dword)) (p bank line : Nat) (r0 r1 : Rec),
    s.chipRank (.lent p bank line r0 r1) = some p ∧ s.chipRank (.move c) = some (if 6 ≤ c then 4 else 5) ∧ s.chipRank (.fetch c r) = some (if 6 ≤ c then 4 else 5)
    ∧ s.chipRank (.hostRead at_ w n got) = some 6 ∧ s.chipRank (.hostWrite w ds) = some 6
    ∧ ∀ i pad, 8 ≤ i → s.remote (i - 8) = true → s.chipRank (.line i pad) = some (7 + i % 8))
  ∧ (∀ (s : State) (i : Fin 16), s.granted s.aclk s.others (.line i false) = false →
    exec (.writerLineWrite i) s = .next { s with reqs := s.reqs ++ [⟨s.aclk, .line i false⟩] })
  ∧ (∀ (s : State) (i : Fin 16), s.granted s.aclk s.others (.line i true) = false →
    exec (.padTimeout i) s = .next { s with reqs := s.reqs ++ [⟨s.aclk, .line i true⟩] })
  ∧ (∀ (s : State) (g : Fin 64), s.granted s.aclk s.others (.engine g) = false →
    exec (.bxferLine g) s = .next { s with reqs := s.reqs ++ [⟨s.aclk, .engine g⟩] })
  ∧ (∀ (s : State) (w : BitVec 25) (n : Fin 1025), s.hostLive = true → s.granted s.aclk s.others (.hostRead (4 * w.toNat) w.toNat n []) = false →
    exec (.bar2Read w n) s = .next { s with reqs := s.reqs ++ [⟨s.aclk, .hostRead (4 * w.toNat) w.toNat n []⟩] })
  ∧ (∀ (s : State) (w : BitVec 25) (ds : List (BitVec 4 × Dword)), s.hostLive = true → s.granted s.aclk s.others (.hostWrite w.toNat ds) = false →
    exec (.bar2Write w ds) s = .next { s with reqs := s.reqs ++ [⟨s.aclk, .hostWrite w.toNat ds⟩] })
  ∧ (∀ (s : State) (q : Request), s.reqs = [q] → s.granted q.raised [] q.access = true →
    let u := (({ s with reqs := [] }).takeLanes q.access).perform q.access
    (u.1 = none → s.serveReqs = u.2) ∧ (∀ a, u.1 = some a → u.2.granted q.raised [] a = false → s.serveReqs = { u.2 with reqs := u.2.reqs ++ [⟨q.raised, a⟩] }))

/-- Each of these commands completes with its own effect, in every state in which the rules let it act: R114, R115, R124 (nurse duties), R185
(takes), R190 (a line of a bank engine), R346, R347, R350, R355, R356, R469 (pages of synthesizers, searches, hops, delays, relocks, loops, the
measurement of ZQ_CAL), R195, R196, R274 (a fetched word that fails parity, a reserved encoding that executes, a fault of the store's control:
stopping the cell or the region is the command's effect), R285 (retries exhausted), R443 (PERST_N, hot reset), R456 (the service port), R467
(TEST_EN), R475 (the test instructions that hold the part). Beyond the rules' own words it rests on the model's choices: assumptions 19, 47, 70, 80,
83. -/
def Obligations.OwnEffects : Prop :=
  (∀ (s : State) (k : Fin 96) (d : Duty) (u j : Nat), s.Canonical → (s.chan k).convs.length = 17 → (s.chan k).duty = some u → (s.chan k).nurse = some j →
    s.rotationOk k = true → u + 131072 ≤ s.time.tclk → s.bit (chPage k) CH.POOL_CTRL_NURSE_EN = true → dutyOk d ((s.chan k).conv j).table = true →
    ∃ t, exec (.nurseDutyEnd k d) s = .next t ∧ (t.chan k).accepted = true ∧ (t.chan k).duty = none)
  ∧ (∀ (s : State) (k : Fin 96) (n o : Nat), s.Canonical → (s.chan k).convs.length = 17 → (s.chan k).accepted = true → (s.chan k).nurse = some n →
    (s.chan k).nextActive n = some o → s.canTake k o →
    ∃ t, exec (.nurseSwap k) s = .next t ∧ ((t.chan k).conv n).role = .active ∧ ((t.chan k).conv o).role = .nurse)
  ∧ (∀ (s : State) (k : Fin 96) (o : Nat), s.Canonical → (s.chan k).convs.length = 17 → (s.chan k).nurse = none → (s.chan k).failed = false →
    (s.chan k).awaitNurse = true → s.bit (chPage k) CH.POOL_STATUS_READY = true → (s.chan k).nextActive (s.chan k).lastNurse = some o → s.canTake k o →
    ∃ t, exec (.nurseReassign k) s = .next t ∧ ((t.chan k).conv o).role = .nurse)
  ∧ (∀ (s : State) (i : Fin 6) (j : Fin 3) (v levels : Dword) (index slot : BitVec 4), s.Canonical → s.hostLive = true →
    let p := synPage i
    (s.unlocked p = true → s.bit p PG.CTRL_RUN = false → ∃ t, exec (.synPageStart i) s = .next t ∧ t.bit p PG.CTRL_RUN = true)
    ∧ (s.unlocked p = true → s.bit p PG.CTRL_RUN = true →
      ∃ t, exec (.synPageStop i) s = .next t ∧ t.bit p PG.CTRL_RUN = false ∧ t.bit p SYN.live_OUT_ON = false)
    ∧ (s.bit p PG.CTRL_RUN = true → (getBits v 4 1 = 1 → s.calTaken i = false) →
      ∃ t, exec (.bandSearchRequest i v) s = .next t ∧ t.shadow (p + 0x40) = some (v ||| 0x40))
    ∧ (s.bit p PG.CTRL_RUN = true → bitOf (s.fld p (profFreq index.toNat)) 31 = true →
      ∃ t, exec (.profileHop i index slot) s = .next t ∧ t.shadow (p + 0x58) = some (BitVec.ofNat 32 (slot.toNat + 2 ^ 4 * index.toNat + 2 ^ 8)))
    ∧ (s.unlocked p = true → s.betweenRuns = true → (∀ k < 6, k ≠ i.val → s.rd (synPage k + (0x05c + 4 * j.val)) &&& v = 0) →
      ∃ t, exec (.loopWrite i j v levels) s = .next t ∧ t.rd (p + (0x05c + 4 * j.val)) = v))
  ∧ (∀ (s : State) (i : Fin 6) (band : BitVec 5) (tune : BitVec 8) (ohms : Option Nat), s.Canonical → s.live = true → s.synOn i = true →
    let p := synPage i
    let x := s.syn i
    (∀ t0, x.search = some t0 → t0 + 40000 ≤ s.time.tclk → ∃ t, exec (.bandSearchDone i band tune) s = .next t ∧ t.bit p SYN.live_LOCKED = true ∧ (t.syn i).search = none)
    ∧ (∀ t0, x.search = some t0 → t0 + 200000 ≤ s.time.tclk → ∃ t, exec (.lockFail i) s = .next t ∧ t.bit p SYN.err_LOCK_FAIL = true ∧ (t.syn i).search = none)
    ∧ (x.hop.isSome = true → ∃ t, exec (.hopDone i) s = .next t ∧ t.bit p SYN.live_LOCKED = true ∧ t.bit p SYN.st_HOP_DONE = true ∧ (t.syn i).hop = none)
    ∧ (s.bit p SYN.live_OUT_ON = true → s.fld p SYN.STATUS_DELAY_NOW < s.fld p SYN.DELAY_TARGET →
      ∃ t, exec (.delayStep i) s = .next t ∧ t.fld p SYN.STATUS_DELAY_NOW = s.fld p SYN.STATUS_DELAY_NOW + 1)
    ∧ (s.rootOk = true → x.lost = true → s.bit p SYN.live_HOLD = true →
      ∃ t, exec (.synRelock i) s = .next t ∧ t.bit p SYN.live_LOCKED = true ∧ t.bit p SYN.live_HOLD = false ∧ (t.syn i).lost = false)
    ∧ (s.bit p SYN.CTRL_EN = true → s.zq = none → ∃ t, exec (.zqCalMeasure ohms) s = .next t ∧ t.zq = some ⟨s.time.tclk, ohms⟩))
  ∧ (∀ (s : State) (g : Fin 64), s.Canonical → s.bit (blkPage g) BLK.XFER_STATUS_BUSY = true → s.bit (blkPage g) BLK.XFER_STATUS_FROZEN = false →
    s.bit (blkPage g) BLK.live_HALTED = false → 0 < s.fld (blkPage g) BLK.XFER_STATUS_LEFT → s.granted s.aclk s.others (.engine g) = true →
    s.gate (32 * (g / 8) + s.fld (blkPage g) BLK.XFER_STATUS_BANK) 3 (g % 8) = .granted →
    ∃ t, exec (.bxferLine g) s = .next t ∧ t.fld (blkPage g) BLK.XFER_STATUS_LEFT = s.fld (blkPage g) BLK.XFER_STATUS_LEFT - 1)
  ∧ (∀ (s : State) (c : Fin 1024) (w : IWord), s.Canonical → s.fetchCell c = some w →
    ∃ t, exec (.instructionParityError c) s = .next t ∧ (t.cell c).stopAt = some s.time.tclk)
  ∧ (∀ (s : State) (c : Fin 1024) (w : IWord), s.Canonical → s.run.endRun = none → s.fetchCell c = some w → w.bad = false → s.injectArmed 3 c = false →
    decodeInstr w.word = none → (s.cellNow c).pred (bitsOf w.word.toNat 30 5) = ⟨!bitOf w.word.toNat 35, false⟩ →
    s.bit (regPage (c / 128)) REG.live_FAULT = false →
    ∃ t, exec (.illegal c) s = .next t ∧ t.bit (regPage (c / 128)) REG.live_FAULT = true)
  ∧ (∀ (s : State) (n : Fin 8) (code : Fin 4) (bank : Fin 32), s.Canonical → s.live = true → s.run.endRun = none → s.bit (regPage n) REG.live_FAULT = false →
    ∃ t, exec (.storeFault n code bank) s = .next t ∧ t.bit (regPage n) REG.live_FAULT = true ∧ t.store = s.store)
  ∧ (∀ (s : State) (c : Fin 1024) (neg gp : Bool) (g f v d : Nat) (r : Rec) (l : List Rec), s.FirstTake c f → s.takeable (12 * (c / 16) + f) = r :: l →
    (s.Issues c ⟨neg, g, .take f v d 0⟩ gp →
      ∃ t, exec (.takePop c) s = .next t ∧ (t.fifo (12 * (c / 16) + f)).entries = (s.fifo (12 * (c / 16) + f)).entries.tail
        ∧ (s.time.tclk, Item.reg d ⟨r.w0, gp⟩) ∈ (t.cell c).landing)
    ∧ (s.Issues c ⟨neg, g, .take f v d 1⟩ gp →
      ∃ t, exec (.takeCopy c) s = .next t ∧ (t.fifo (12 * (c / 16) + f)).entries = (s.fifo (12 * (c / 16) + f)).entries
        ∧ (s.time.tclk, Item.reg d ⟨r.w0, gp⟩) ∈ (t.cell c).landing)
    ∧ (s.Issues c ⟨neg, g, .take f v d 2⟩ gp →
      ∃ t, exec (.takeDiscard c) s = .next t ∧ (t.fifo (12 * (c / 16) + f)).entries = (s.fifo (12 * (c / 16) + f)).entries.tail
        ∧ (s.time.tclk, Item.pred v ⟨true, gp⟩) ∈ (t.cell c).landing))
  ∧ (∀ (s : State) (p : Fin 4) (u : Unacked) (r : List Unacked), s.Canonical → s.Calm → s.swarm.runs = [] → s.live = true → s.inCluster = false →
    2 ≤ s.lstate p → (s.link p).unacked = u :: r → s.roundTrip p + 2000 * 1024 ≤ s.elapsed u.first →
    ∃ t, exec (.retryExhausted p) s = .next t ∧ t.lstate p = 1 ∧ (t.link p).unacked = [] ∧ t.bit (linkPage p) LINK.err_RETRY_EXHAUSTED = true)
  ∧ (∀ s : State, s.Canonical → s.live = true → s.bit chipPage CHIP.live_LOADING = false →
    (∃ t, exec .perstN s = .next t ∧ t.hostLive = false ∧ t.dma = []
      ∧ t.fld chipPage CHIP.RESET_CAUSE_CAUSE = s.fld chipPage CHIP.RESET_CAUSE_CAUSE ||| 8)
    ∧ (∃ t, exec .hotReset s = .next t ∧ t.hostLive = false ∧ t.dma = []
      ∧ t.fld chipPage CHIP.RESET_CAUSE_CAUSE = s.fld chipPage CHIP.RESET_CAUSE_CAUSE ||| 16))
  ∧ (∀ (s : State) (j : BitVec 2) (v : BitVec 16), s.Canonical → s.live = true → s.power.noHv = false → s.power.noCore = false →
    (∃ t, exec .svcNop s = .next t ∧ t.svc = s.svc ∧ t.out = s.out ++ [.svcResponse s.svc.response])
    ∧ (∃ t, exec (.svcReadId j) s = .next t ∧ t.svc.response = s.rd (chipPage + 0x040 + 4 * j.toNat))
    ∧ (∃ t, exec .svcReadHealth s = .next t ∧ t.svc.response = s.health)
    ∧ (∃ t, exec .svcReadMbox s = .next t ∧ t.svc.response = s.mailbox s.svc.outOld 0x054)
    ∧ (∃ t, exec (.svcMboxLo v) s = .next t ∧ t.svc.mboxLo = v ∧ t.svc.response = s.health)
    ∧ (∃ t, exec (.svcMboxHi v) s = .next t ∧ t.rd (svcPage + 0x058) = v ++ s.svc.mboxLo)
    ∧ (∃ t, exec .svcReadCmd s = .next t ∧ t.svc.response = s.rd (chipPage + 0x054)))
  ∧ (∀ (s : State) (pins next : BitVec 158), s.Canonical →
    (∃ t, exec .testEnHigh s = .next t ∧ t.live = false ∧ t.power.testEn = true)
    ∧ (s.power.noHv = false → s.power.noCore = false →
      (∃ t, exec (.extest pins next) s = .next t ∧ t.live = false ∧ t.tap = ⟨0x00, pins, next⟩ ∧ t.out = s.out ++ [.tdo 0x00 pins])
      ∧ (∃ t, exec (.extestPulse pins next) s = .next t ∧ t.live = false ∧ t.tap = ⟨0x06, pins, next⟩ ∧ t.out = s.out ++ [.tdo 0x06 pins])
      ∧ (∃ t, exec (.extestTrain pins next) s = .next t ∧ t.live = false ∧ t.tap = ⟨0x07, pins, next⟩ ∧ t.out = s.out ++ [.tdo 0x07 pins])
      ∧ (∃ t, exec .clamp s = .next t ∧ t.live = false ∧ t.tap = ⟨0x04, s.tap.shift, s.tap.drive⟩ ∧ t.out = s.out ++ [.tdo 0x04 0])
      ∧ (∃ t, exec .highz s = .next t ∧ t.live = false ∧ t.tap = ⟨0x05, s.tap.shift, s.tap.drive⟩ ∧ t.out = s.out ++ [.tdo 0x05 0])))

/-- At reset every table is canonical and the journal is empty, so the invariant holds; no command waits, the units do not respond, the run state is
IDLE, the LOCK ball sinks and HB_OUT is low (R62, R448), and the endpoint identifies itself as R424 says. Beyond the rules' own words it rests on
the model's choices: assumptions 12, 87. -/
def Obligations.ResetIsSafe : Prop :=
  State.reset.Inv ∧ State.reset.pending = [] ∧ State.reset.live = false ∧ State.reset.runState = .idle
    ∧ State.reset.lockBall = .sink ∧ State.reset.hbOut = .low ∧ State.reset.endpoint.ident = ⟨0x1f5b, 0x0096, 0xb1, 0x118000, 0x00, 0x1f5b, 0x00f4⟩
    ∧ State.reset.store = [] ∧ State.reset.journal = []
    ∧ (∀ a, State.reset.rd a = resetOf a)

/-- Every step from a state that meets the invariant answers a next state, which meets it too: no command stops the part, the tables stay canonical
and the journal within its 4,096 records. What was sent to the outside stays sent, in order. Beyond the rules' own words it rests on the model's
choices: assumption 3. -/
def Obligations.StepsKeepInvariant : Prop :=
  ∀ s : State, s.Inv → ∃ t, step s = .next t ∧ t.Inv ∧ s.SentMore t

/-- What commands leave alone: none touches the queue of those that wait. But for the resets and the host writes by address, only the commands that
the rules name move DTIME, write the store, an instruction memory or a scratch memory; only a LOAD sets the line uses and the cells' start values;
only its own instructions change the test access port. Beyond the rules' own words it rests on the model's choices: assumption 5. -/
def Obligations.CommandFrames : Prop :=
  ∀ (c : Instr) (s t : State), exec c s = .next t →
    t.pending = s.pending
    ∧ (resets c = false → writesByAddress c = false → movesTime c = false → t.now = s.now)
    ∧ (resets c = false → writesStore c = false → t.store = s.store)
    ∧ (resets c = false → writesByAddress c = false → writesImem c = false → t.imem = s.imem)
    ∧ (resets c = false → writesByAddress c = false → writesScratch c = false → t.scratch = s.scratch)
    ∧ (resets c = false → (∀ image brk insts lines, c ≠ .loadComplete image brk insts lines) → t.cellInit = s.cellInit ∧ t.lineUses = s.lineUses)
    ∧ (resets c = false → c ≠ .tapReset → c ≠ .idcode → c ≠ .bypass → (∀ pins next, c ≠ .samplePreload pins next) → t.tap = s.tap)
end

