-- ==== Sys2Proof/Laws/Tab.lean ====
section
/-! SUPPORT. Laws of sparse tables: a read after a write, and that every operation keeps the canonical form. -/
namespace Sys2Proof.Machine

variable {α : Type} [DecidableEq α] {d : Nat → α}

omit [DecidableEq α] in
theorem Tab.get_nil (k : Nat) : Tab.get d [] k = d k := rfl

theorem Tab.get_below {t : Tab α} {b k : Nat} (h : Tab.wfFrom d b t = true) (hk : k < b) : Tab.get d t k = d k := by
  cases t with
  | nil => rfl
  | cons p r =>
    obtain ⟨j, v⟩ := p
    simp only [Tab.wfFrom, Bool.and_eq_true, decide_eq_true_eq] at h
    have h1 : ¬ j = k := by omega
    have h2 : k < j := by omega
    simp [Tab.get, h1, h2]

/-- A read after a write: the value written at that number, and every other number as before. -/
theorem Tab.get_set (t : Tab α) (k : Nat) (v : α) (i : Nat) (h : Tab.wf d t = true) :
    Tab.get d (Tab.set d t k v) i = if i = k then v else Tab.get d t i := by
  suffices H : ∀ (t : Tab α) (b : Nat), Tab.wfFrom d b t = true →
      Tab.get d (Tab.set d t k v) i = if i = k then v else Tab.get d t i from H t 0 h
  intro t
  induction t with
  | nil =>
    intro b _
    by_cases hv : v = d k <;> by_cases hi : i = k <;> simp [Tab.set, Tab.get, hv, hi]
    omega
  | cons p r ih =>
    intro b hb
    obtain ⟨j, w⟩ := p
    simp only [Tab.wfFrom, Bool.and_eq_true, decide_eq_true_eq] at hb
    obtain ⟨⟨hbj, hw⟩, hr⟩ := hb
    have ih' := ih (j + 1) hr
    unfold Tab.set
    split
    · next hkj =>
      split
      · next hv =>
        by_cases hi : i = k
        · subst hi; have : ¬ j = i := by omega
          simp [Tab.get, this, hkj, hv]
        · simp [hi]
      · by_cases hi : i = k
        · subst hi; simp [Tab.get]
        · have h1 : ¬ k = i := fun e => hi e.symm
          by_cases hik : i < k
          · have h2 : ¬ j = i := by omega
            have h3 : i < j := by omega
            simp [Tab.get, h1, hik, hi, h2, h3]
          · simp [Tab.get, h1, hik, hi]
    · next hkj =>
      split
      · next hjk =>
        subst hjk
        split
        · next hv =>
          by_cases hi : i = j
          · subst hi
            rw [Tab.get_below hr (by omega)]; simp [hv]
          · have h1 : ¬ j = i := fun e => hi e.symm
            by_cases hij : i < j
            · rw [Tab.get_below hr (by omega)]; simp [Tab.get, h1, hij, hi]
            · simp [Tab.get, h1, hij, hi]
        · by_cases hi : i = j
          · subst hi; simp [Tab.get]
          · have h1 : ¬ j = i := fun e => hi e.symm
            simp [Tab.get, h1, hi]
      · next hjk =>
        by_cases hij : j = i
        · subst hij; have : ¬ j = k := hjk
          simp [Tab.get, this]
        · by_cases hi : i < j
          · have : ¬ i = k := by omega
            simp [Tab.get, hij, hi, this]
          · simp only [Tab.get, hij, hi, if_false]
            exact ih'

theorem Tab.wfFrom_mono {t : Tab α} {b c : Nat} (h : Tab.wfFrom d b t = true) (hc : c ≤ b) : Tab.wfFrom d c t = true := by
  cases t with
  | nil => rfl
  | cons p r =>
    obtain ⟨j, v⟩ := p
    simp only [Tab.wfFrom, Bool.and_eq_true, decide_eq_true_eq] at h ⊢
    exact ⟨⟨by omega, h.1.2⟩, h.2⟩

/-- A write keeps the canonical form. -/
theorem Tab.set_wf (t : Tab α) (k : Nat) (v : α) (h : Tab.wf d t = true) : Tab.wf d (Tab.set d t k v) = true := by
  suffices H : ∀ (t : Tab α) (b : Nat), Tab.wfFrom d b t = true → ∀ c, c ≤ b → c ≤ k → Tab.wfFrom d c (Tab.set d t k v) = true from
    H t 0 h 0 (le_refl _) (Nat.zero_le _)
  intro t
  induction t with
  | nil =>
    intro b _ c _ hck
    by_cases hv : v = d k <;> simp [Tab.set, Tab.wfFrom, hv, hck]
  | cons p r ih =>
    intro b hb c hcb hck
    obtain ⟨j, w⟩ := p
    have hb' := hb
    simp only [Tab.wfFrom, Bool.and_eq_true, decide_eq_true_eq] at hb
    obtain ⟨⟨hbj, hw⟩, hr⟩ := hb
    unfold Tab.set
    split
    · next hkj =>
      split
      · exact Tab.wfFrom_mono hb' hcb
      · next hv =>
        have : Tab.wfFrom d (k + 1) ((j, w) :: r) = true := by
          simp only [Tab.wfFrom, Bool.and_eq_true, decide_eq_true_eq]; exact ⟨⟨by omega, hw⟩, hr⟩
        simp only [Tab.wfFrom, Bool.and_eq_true, decide_eq_true_eq] at this ⊢
        exact ⟨⟨hck, hv⟩, this⟩
    · next hkj =>
      split
      · next hjk =>
        subst hjk
        split
        · exact Tab.wfFrom_mono hr (by omega)
        · next hv =>
          simp only [Tab.wfFrom, Bool.and_eq_true, decide_eq_true_eq]
          exact ⟨⟨by omega, hv⟩, hr⟩
      · next hjk =>
        simp only [Tab.wfFrom, Bool.and_eq_true, decide_eq_true_eq]
        exact ⟨⟨by omega, hw⟩, ih (j + 1) hr (j + 1) (le_refl _) (by omega)⟩

theorem Tab.filter_wfFrom (p : Nat × α → Bool) (t : Tab α) (b : Nat) (h : Tab.wfFrom d b t = true) :
    Tab.wfFrom d b (t.filter p) = true := by
  induction t generalizing b with
  | nil => rfl
  | cons x r ih =>
    obtain ⟨j, v⟩ := x
    simp only [Tab.wfFrom, Bool.and_eq_true, decide_eq_true_eq] at h
    have hr := ih (j + 1) h.2
    by_cases hp : p (j, v) = true
    · simp only [List.filter_cons, hp, if_true, Tab.wfFrom, Bool.and_eq_true, decide_eq_true_eq]
      exact ⟨h.1, hr⟩
    · simp only [List.filter_cons, hp]
      exact Tab.wfFrom_mono hr (by omega)

/-- Taking entries away keeps the canonical form. -/
theorem Tab.filter_wf (p : Nat × α → Bool) (t : Tab α) (h : Tab.wf d t = true) : Tab.wf d (t.filter p) = true :=
  Tab.filter_wfFrom p t 0 h

theorem Tab.keep_wf (p : Nat → Bool) (t : Tab α) (h : Tab.wf d t = true) : Tab.wf d (t.keep p) = true :=
  Tab.filter_wfFrom _ t 0 h

/-- Replacing values keeps the canonical form. -/
theorem Tab.update_wf (f : Nat → α → α) (t : Tab α) (h : Tab.wf d t = true) : Tab.wf d (Tab.update d f t) = true := by
  suffices H : ∀ (t : Tab α) (b : Nat), Tab.wfFrom d b t = true → Tab.wfFrom d b (Tab.update d f t) = true from H t 0 h
  intro t
  induction t with
  | nil => intro b _; rfl
  | cons x r ih =>
    intro b hb
    obtain ⟨j, v⟩ := x
    simp only [Tab.wfFrom, Bool.and_eq_true, decide_eq_true_eq] at hb
    have hr : Tab.wfFrom d (j + 1) (Tab.update d f r) = true := ih (j + 1) hb.2
    unfold Tab.update at hr ⊢
    by_cases hv : f j v = d j
    · simp only [List.map_cons, List.filter_cons, hv, ne_eq, not_true_eq_false, decide_false]
      exact Tab.wfFrom_mono hr (by omega)
    · simp only [List.map_cons, List.filter_cons, hv, ne_eq, not_false_eq_true, decide_true, if_true, Tab.wfFrom,
        Bool.and_eq_true, decide_eq_true_eq]
      exact ⟨⟨hb.1.1, trivial⟩, hr⟩

theorem Tab.wf_nil : Tab.wf d ([] : Tab α) = true := rfl

/-- Canonical tables that read the same everywhere are the same data. -/
theorem Tab.ext_wf {t u : Tab α} (ht : Tab.wf d t = true) (hu : Tab.wf d u = true)
    (h : ∀ k, Tab.get d t k = Tab.get d u k) : t = u := by
  suffices H : ∀ (t u : Tab α) (b : Nat), Tab.wfFrom d b t = true → Tab.wfFrom d b u = true →
      (∀ k, Tab.get d t k = Tab.get d u k) → t = u from H t u 0 ht hu h
  intro t
  induction t with
  | nil =>
    intro u b _ hu h
    cases u with
    | nil => rfl
    | cons y s =>
      obtain ⟨j, v⟩ := y
      simp only [Tab.wfFrom, Bool.and_eq_true, decide_eq_true_eq] at hu
      have := h j
      simp only [Tab.get, if_true] at this
      exact absurd this.symm hu.1.2
  | cons x r ih =>
    intro u b ht hu h
    obtain ⟨i, v⟩ := x
    simp only [Tab.wfFrom, Bool.and_eq_true, decide_eq_true_eq] at ht
    cases u with
    | nil =>
      have := h i
      simp only [Tab.get, if_true] at this
      exact absurd this ht.1.2
    | cons y s =>
      obtain ⟨j, w⟩ := y
      simp only [Tab.wfFrom, Bool.and_eq_true, decide_eq_true_eq] at hu
      have hij : i = j := by
        by_contra hne
        rcases Nat.lt_or_ge i j with hlt | hge
        · have := h i
          have h1 : ¬ j = i := by omega
          simp only [Tab.get, if_true, h1, if_false, hlt] at this
          exact ht.1.2 this
        · have := h j
          have h1 : j < i := by omega
          have h2 : ¬ i = j := hne
          simp only [Tab.get, if_true, h2, if_false, h1] at this
          exact hu.1.2 this.symm
      subst hij
      have hv : v = w := by have := h i; simpa [Tab.get] using this
      subst hv
      have : r = s := by
        apply ih s (i + 1) ht.2 hu.2
        intro k
        rcases Nat.lt_or_ge k (i + 1) with hk | hk
        · rw [Tab.get_below ht.2 hk, Tab.get_below hu.2 hk]
        · have := h k
          have h1 : ¬ i = k := by omega
          have h2 : ¬ k < i := by omega
          simpa [Tab.get, h1, h2] using this
      rw [this]

end Sys2Proof.Machine
end

