-- ==== Sys2Proof/Laws/Effects.lean ====
section
/-! SUPPORT. What an operation can do, said once. Every operation is built of primitive changes, each numbered by a bit; the lemma `<operation>_keeps`
says by a mask which ones it may make: a property that those keep is kept by the operation. The frames at the end turn a mask into what the operation
leaves unchanged. -/
namespace Sys2Proof.Machine
open Sys2Proof

/-- Every bit of `m` is a bit of `A`. -/
def Sub (m A : Nat) : Prop := m &&& A = m

theorem Sub.mono {m n A : Nat} (h : Sub n A) (hmn : m &&& n = m) : Sub m A := by
  have : m &&& A = m := by
    calc m &&& A = (m &&& n) &&& A := by rw [hmn]
      _ = m &&& (n &&& A) := Nat.and_assoc _ _ _
      _ = m &&& n := by rw [show n &&& A = n from h]
      _ = m := hmn
  exact this

theorem no_bits {m A n : Nat} (h : Sub m A) (hA : A &&& n = 0) : m &&& n = 0 := by
  calc m &&& n = (m &&& A) &&& n := by rw [show m &&& A = m from h]
    _ = m &&& (A &&& n) := Nat.and_assoc _ _ _
    _ = 0 := by rw [hA, Nat.and_zero]

theorem Sub.refl (m : Nat) : Sub m m := Nat.and_self m

/-- The property `P` is kept by the primitive changes of the mask `A`. -/
structure Keeps (A : Nat) (P : State → Prop) : Prop where
  wr : Sub 0x1 A → ∀ s a v, 0x1000 ≤ a → P s → P (s.wr a v)
  wrChip : Sub 0x2 A → ∀ s a v, a < 0x1000 → P s → P (s.wr a v)
  regsKeep : Sub 0x3 A → ∀ s (p : Nat → Bool), P s → P { s with regs := s.regs.keep p }
  regsNone : Sub 0x3 A → ∀ s, P s → P { s with regs := [] }
  ringOver : Sub 0x200 A → ∀ s l, l.map List.length = s.journal.map List.length → P s → P { s with journal := l }
  ring : Sub 0x200 A → ∀ s g, g.length ≤ 4096 → P s → P { s with journal := dropGroups (4096 - g.length) s.journal ++ [g] }
  drawn : Sub 0x4 A → ∀ s, P s → P (State.drawn s)
  send : Sub 0x8 A → ∀ s a, P s → P (State.send s a)
  dma : Sub 0x10 A → ∀ s a b, P s → P (State.setDmaCh s a b)
  msix : Sub 0x20 A → ∀ s a b, P s → P (State.msixSet s a b)
  src : Sub 0x40 A → ∀ s a b c, P s → P (State.setSrc s a b c)
  losses : Sub 0x80 A → ∀ s a b, P s → P (State.setLosses s a b)
  writer : Sub 0x100 A → ∀ s a b, P s → P (State.setWriter s a b)
  shadow : Sub 0x400 A → ∀ s a b, P s → P (State.setShadow s a b)
  key : Sub 0x800 A → ∀ s a b, P s → P (State.setKey s a b)
  half : Sub 0x1000 A → ∀ s a b, P s → P (State.setHalf s a b)
  bank : Sub 0x2000 A → ∀ s a b, P s → P (State.setBank s a b)
  chan : Sub 0x4000 A → ∀ s a b, P s → P (State.setChan s a b)
  qual : Sub 0x8000 A → ∀ s a b, P s → P (State.setQual s a b)
  cell : Sub 0x20000 A → ∀ s a b, P s → P (State.setCell s a b)
  iword : Sub 0x40000 A → ∀ s a b c, P s → P (State.setIword s a b c)
  region : Sub 0x80000 A → ∀ s a b, P s → P (State.setRegion s a b)
  xchan : Sub 0x100000 A → ∀ s a b, P s → P (State.setXchan s a b)
  sword : Sub 0x200000 A → ∀ s a b c, P s → P (State.setSword s a b c)
  engine : Sub 0x400000 A → ∀ s a b, P s → P (State.setEngine s a b)
  cap : Sub 0x800000 A → ∀ s a b, P s → P (State.setCap s a b)
  win : Sub 0x1000000 A → ∀ s a b, P s → P (State.setWin s a b)
  opened : Sub 0x4000000 A → ∀ s a b, P s → P (State.setOpen s a b)
  link : Sub 0x8000000 A → ∀ s a b, P s → P (State.setLink s a b)
  remote : Sub 0x10000000 A → ∀ s a b, P s → P (State.setRem s a b)
  dom : Sub 0x20000000 A → ∀ s a b, P s → P (State.setDom s a b)
  syn : Sub 0x80000000 A → ∀ s a b, P s → P (State.setSyn s a b)
  fresh : Sub 0x200000000000000 A → ∀ s a b, P s → P (State.setFresh s a b)
  lane : Sub 0x40000000000000 A → ∀ s a b, P s → P (State.setLanes s a b)
  fifo : Sub 0x10000 A → ∀ s i x, P s → P { s with fifos := Tab.set (fun _ => Fifo.empty) s.fifos i x }
  shown : Sub 0x2000000 A → ∀ s n w, P s → P { s with winShown := Tab.set (fun _ => RegWin.empty) s.winShown n w }
  pps : Sub 0x40000000 A → ∀ s i x, P s → P { s with pps := Tab.set (fun _ => none) s.pps i x }
  qualsUpd : Sub 0x8000 A → ∀ s f, P s → P { s with quals := Tab.update (fun _ => Qual.init) f s.quals }
  cellsUpd : Sub 0x20000 A → ∀ s f, P s → P { s with cells := Tab.update (fun _ => Cell.init) f s.cells }
  streamsUpd : Sub 0x40 A → ∀ s f, P s → P { s with streams := Tab.update (fun _ => SrcState.init) f s.streams }
  banksUpd : Sub 0x2000 A → ∀ s f, P s → P { s with banks := Tab.update (fun _ => BankAux.init) f s.banks }
  storeKeep : Sub 0x1000 A → ∀ s (p : Nat → Bool), P s → P { s with store := s.store.keep p }
  streamsKeep : Sub 0x40 A → ∀ s (p : Nat → Bool), P s → P { s with streams := s.streams.keep p }
  openedKeep : Sub 0x4000000 A → ∀ s (p : Nat → Bool), P s → P { s with openGroups := s.openGroups.keep p }
  shadowsKeep : Sub 0x400 A → ∀ s (p : Nat → Bool), P s → P { s with shadows := s.shadows.keep p }
  freshKeep : Sub 0x200000000000000 A → ∀ s (p : Nat → Bool), P s → P { s with rcNew := s.rcNew.keep p }
  remotesKeep : Sub 0x10000000 A → ∀ s p, P s → P { s with remotes := s.remotes.filter p }
  storeNone : Sub 0x1000 A → ∀ s, P s → P { s with store := [] }
  fifosNone : Sub 0x10000 A → ∀ s, P s → P { s with fifos := [] }
  streamsNone : Sub 0x40 A → ∀ s, P s → P { s with streams := [] }
  exchNone : Sub 0x100000 A → ∀ s, P s → P { s with exch := [] }
  winNone : Sub 0x1000000 A → ∀ s, P s → P { s with winCur := [] }
  shownNone : Sub 0x2000000 A → ∀ s, P s → P { s with winShown := [] }
  keysNone : Sub 0x800 A → ∀ s, P s → P { s with keys := [] }
  dmaNone : Sub 0x10 A → ∀ s, P s → P { s with dma := [] }
  freshNone : Sub 0x200000000000000 A → ∀ s, P s → P { s with rcNew := [] }
  msixNone : Sub 0x20 A → ∀ s, P s → P { s with msix := State.reset.msix }
  msixCtl : Sub 0x20 A → ∀ s e m, P s → P { s with msix := ⟨e, m, s.msix.table⟩ }
  powerPut : Sub 0x400000000 A → ∀ s (x : Power), P s → P { s with power := x }
  runPut : Sub 0x800000000 A → ∀ s (x : RunCtl), P s → P { s with run := x }
  recordingRegionsPut : Sub 0x1000000000 A → ∀ s (x : BitVec 8), P s → P { s with recordingRegions := x }
  storesPut : Sub 0x2000000000 A → ∀ s (x : List Stored), P s → P { s with stores := x }
  sentPut : Sub 0x4000000000 A → ∀ s (x : List Sent), P s → P { s with sent := x }
  slotUsePut : Sub 0x8000000000 A → ∀ s (x : SlotUse), P s → P { s with slotUse := x }
  cellInitPut : Sub 0x10000000000 A → ∀ s (x : List (Nat × List (BitVec 18) × BitVec 32)), P s → P { s with cellInit := x }
  instsPut : Sub 0x20000000000 A → ∀ s (x : List Inst), P s → P { s with insts := x }
  lineUsesPut : Sub 0x40000000000 A → ∀ s (x : List (Nat × LineUse)), P s → P { s with lineUses := x }
  trigInPut : Sub 0x80000000000 A → ∀ s (x : TrigIn), P s → P { s with trigIn := x }
  trigOutPut : Sub 0x100000000000 A → ∀ s (x : Option Nat), P s → P { s with trigOut := x }
  trigsPut : Sub 0x200000000000 A → ∀ s (x : List Trig), P s → P { s with trigs := x }
  eslPut : Sub 0x400000000000 A → ∀ s (x : Esl), P s → P { s with esl := x }
  swarmPut : Sub 0x800000000000 A → ∀ s (x : Swarm), P s → P { s with swarm := x }
  mapTicksPut : Sub 0x1000000000000 A → ∀ s (x : Nat), P s → P { s with mapTicks := x }
  zqPut : Sub 0x2000000000000 A → ∀ s (x : Option Zq), P s → P { s with zq := x }
  tapPut : Sub 0x4000000000000 A → ∀ s (x : Tap), P s → P { s with tap := x }
  svcPut : Sub 0x8000000000000 A → ∀ s (x : Svc), P s → P { s with svc := x }
  heldAccPut : Sub 0x10000000000000 A → ∀ s (x : List HeldAccess), P s → P { s with heldAcc := x }
  reqsPut : Sub 0x20000000000000 A → ∀ s (x : List Request), P s → P { s with reqs := x }
  endpointPut : Sub 0x80000000000000 A → ∀ s (x : Endpoint), P s → P { s with endpoint := x }
  dmaTurnPut : Sub 0x100000000000000 A → ∀ s (x : List Nat), P s → P { s with dmaTurn := x }
  summariesPut : Sub 0x800000000000000 A → ∀ s (x : List (Nat × SubGate)), P s → P { s with summaries := x }
  offersPut : Sub 0x1000000000000000 A → ∀ s (x : List (Nat × Offer)), P s → P { s with offers := x }
  timePut : Sub 0x100000000 A → ∀ s (x : Timebase), x.dtime = s.time.dtime → P s → P { s with time := x }
  dtimePut : Sub 0x200000000 A → ∀ s (x : Timebase), P s → P { s with time := x }
  wiped : Sub 0x400000000000000 A → ∀ s k, P s → P (s.wiped k)

section
variable {A : Nat} {P : State → Prop}

theorem Keeps.wrAny (hP : Keeps A P) (h : Sub 0x3 A) (s : State) (a : Nat) (v : Dword) (hs : P s) : P (s.wr a v) := by
  rcases Nat.lt_or_ge a 0x1000 with ha | ha
  · exact hP.wrChip (h.mono (by decide)) s a v ha hs
  · exact hP.wr (h.mono (by decide)) s a v ha hs

theorem Keeps.modTime (hP : Keeps A P) (h : Sub 0x100000000 A) {s : State} {f : Timebase → Timebase} (hf : ∀ x, (f x).dtime = x.dtime) (hs : P s) :
    P (s.modTime f) := hP.timePut h s _ (hf _) hs

theorem Keeps.modTimeAny (hP : Keeps A P) (h : Sub 0x200000000 A) {s : State} {f : Timebase → Timebase} (hs : P s) : P (s.modTime f) :=
  hP.dtimePut h s _ hs

/-- The state with another `power`. -/
def State.putPower (s : State) (x : Power) : State := { s with power := x }

theorem State.mk_power (s : State) (x : Power) : State.mk s.pending s.time x s.run s.regs s.rcNew s.shadows s.keys s.journal s.streams s.store s.banks s.reqs s.lanes s.writers s.losses s.recordingRegions s.chans s.fifos s.cells s.imem s.scratch s.stores s.exch s.sent s.slotUse s.heldAcc s.engines s.regions s.cellInit s.insts s.lineUses s.summaries s.quals s.winCur s.winShown s.trigIn s.trigOut s.trigs s.offers s.esl s.caps s.openGroups s.links s.remotes s.swarm s.doms s.pps s.mapTicks s.syns s.zq s.tap s.msix s.endpoint s.dma s.dmaTurn s.svc s.out s.freeCtr = s.putPower x := rfl

theorem Keeps.power (hP : Keeps A P) (h : Sub 0x400000000 A) {s : State} {x : Power} (hs : P s) : P (s.putPower x) := hP.powerPut h s x hs

/-- The state with another `run`. -/
def State.putRun (s : State) (x : RunCtl) : State := { s with run := x }

theorem State.mk_run (s : State) (x : RunCtl) : State.mk s.pending s.time s.power x s.regs s.rcNew s.shadows s.keys s.journal s.streams s.store s.banks s.reqs s.lanes s.writers s.losses s.recordingRegions s.chans s.fifos s.cells s.imem s.scratch s.stores s.exch s.sent s.slotUse s.heldAcc s.engines s.regions s.cellInit s.insts s.lineUses s.summaries s.quals s.winCur s.winShown s.trigIn s.trigOut s.trigs s.offers s.esl s.caps s.openGroups s.links s.remotes s.swarm s.doms s.pps s.mapTicks s.syns s.zq s.tap s.msix s.endpoint s.dma s.dmaTurn s.svc s.out s.freeCtr = s.putRun x := rfl

theorem Keeps.run (hP : Keeps A P) (h : Sub 0x800000000 A) {s : State} {x : RunCtl} (hs : P s) : P (s.putRun x) := hP.runPut h s x hs

/-- The state with another `recordingRegions`. -/
def State.putRecordingRegions (s : State) (x : BitVec 8) : State := { s with recordingRegions := x }

theorem State.mk_recordingRegions (s : State) (x : BitVec 8) : State.mk s.pending s.time s.power s.run s.regs s.rcNew s.shadows s.keys s.journal s.streams s.store s.banks s.reqs s.lanes s.writers s.losses x s.chans s.fifos s.cells s.imem s.scratch s.stores s.exch s.sent s.slotUse s.heldAcc s.engines s.regions s.cellInit s.insts s.lineUses s.summaries s.quals s.winCur s.winShown s.trigIn s.trigOut s.trigs s.offers s.esl s.caps s.openGroups s.links s.remotes s.swarm s.doms s.pps s.mapTicks s.syns s.zq s.tap s.msix s.endpoint s.dma s.dmaTurn s.svc s.out s.freeCtr = s.putRecordingRegions x := rfl

theorem Keeps.recordingRegions (hP : Keeps A P) (h : Sub 0x1000000000 A) {s : State} {x : BitVec 8} (hs : P s) : P (s.putRecordingRegions x) := hP.recordingRegionsPut h s x hs

/-- The state with another `stores`. -/
def State.putStores (s : State) (x : List Stored) : State := { s with stores := x }

theorem State.mk_stores (s : State) (x : List Stored) : State.mk s.pending s.time s.power s.run s.regs s.rcNew s.shadows s.keys s.journal s.streams s.store s.banks s.reqs s.lanes s.writers s.losses s.recordingRegions s.chans s.fifos s.cells s.imem s.scratch x s.exch s.sent s.slotUse s.heldAcc s.engines s.regions s.cellInit s.insts s.lineUses s.summaries s.quals s.winCur s.winShown s.trigIn s.trigOut s.trigs s.offers s.esl s.caps s.openGroups s.links s.remotes s.swarm s.doms s.pps s.mapTicks s.syns s.zq s.tap s.msix s.endpoint s.dma s.dmaTurn s.svc s.out s.freeCtr = s.putStores x := rfl

theorem Keeps.stores (hP : Keeps A P) (h : Sub 0x2000000000 A) {s : State} {x : List Stored} (hs : P s) : P (s.putStores x) := hP.storesPut h s x hs

/-- The state with another `sent`. -/
def State.putSent (s : State) (x : List Sent) : State := { s with sent := x }

theorem State.mk_sent (s : State) (x : List Sent) : State.mk s.pending s.time s.power s.run s.regs s.rcNew s.shadows s.keys s.journal s.streams s.store s.banks s.reqs s.lanes s.writers s.losses s.recordingRegions s.chans s.fifos s.cells s.imem s.scratch s.stores s.exch x s.slotUse s.heldAcc s.engines s.regions s.cellInit s.insts s.lineUses s.summaries s.quals s.winCur s.winShown s.trigIn s.trigOut s.trigs s.offers s.esl s.caps s.openGroups s.links s.remotes s.swarm s.doms s.pps s.mapTicks s.syns s.zq s.tap s.msix s.endpoint s.dma s.dmaTurn s.svc s.out s.freeCtr = s.putSent x := rfl

theorem Keeps.sent (hP : Keeps A P) (h : Sub 0x4000000000 A) {s : State} {x : List Sent} (hs : P s) : P (s.putSent x) := hP.sentPut h s x hs

/-- The state with another `slotUse`. -/
def State.putSlotUse (s : State) (x : SlotUse) : State := { s with slotUse := x }

theorem State.mk_slotUse (s : State) (x : SlotUse) : State.mk s.pending s.time s.power s.run s.regs s.rcNew s.shadows s.keys s.journal s.streams s.store s.banks s.reqs s.lanes s.writers s.losses s.recordingRegions s.chans s.fifos s.cells s.imem s.scratch s.stores s.exch s.sent x s.heldAcc s.engines s.regions s.cellInit s.insts s.lineUses s.summaries s.quals s.winCur s.winShown s.trigIn s.trigOut s.trigs s.offers s.esl s.caps s.openGroups s.links s.remotes s.swarm s.doms s.pps s.mapTicks s.syns s.zq s.tap s.msix s.endpoint s.dma s.dmaTurn s.svc s.out s.freeCtr = s.putSlotUse x := rfl

theorem Keeps.slotUse (hP : Keeps A P) (h : Sub 0x8000000000 A) {s : State} {x : SlotUse} (hs : P s) : P (s.putSlotUse x) := hP.slotUsePut h s x hs

/-- The state with another `cellInit`. -/
def State.putCellInit (s : State) (x : List (Nat × List (BitVec 18) × BitVec 32)) : State := { s with cellInit := x }

theorem State.mk_cellInit (s : State) (x : List (Nat × List (BitVec 18) × BitVec 32)) : State.mk s.pending s.time s.power s.run s.regs s.rcNew s.shadows s.keys s.journal s.streams s.store s.banks s.reqs s.lanes s.writers s.losses s.recordingRegions s.chans s.fifos s.cells s.imem s.scratch s.stores s.exch s.sent s.slotUse s.heldAcc s.engines s.regions x s.insts s.lineUses s.summaries s.quals s.winCur s.winShown s.trigIn s.trigOut s.trigs s.offers s.esl s.caps s.openGroups s.links s.remotes s.swarm s.doms s.pps s.mapTicks s.syns s.zq s.tap s.msix s.endpoint s.dma s.dmaTurn s.svc s.out s.freeCtr = s.putCellInit x := rfl

theorem Keeps.cellInit (hP : Keeps A P) (h : Sub 0x10000000000 A) {s : State} {x : List (Nat × List (BitVec 18) × BitVec 32)} (hs : P s) : P (s.putCellInit x) := hP.cellInitPut h s x hs

/-- The state with another `insts`. -/
def State.putInsts (s : State) (x : List Inst) : State := { s with insts := x }

theorem State.mk_insts (s : State) (x : List Inst) : State.mk s.pending s.time s.power s.run s.regs s.rcNew s.shadows s.keys s.journal s.streams s.store s.banks s.reqs s.lanes s.writers s.losses s.recordingRegions s.chans s.fifos s.cells s.imem s.scratch s.stores s.exch s.sent s.slotUse s.heldAcc s.engines s.regions s.cellInit x s.lineUses s.summaries s.quals s.winCur s.winShown s.trigIn s.trigOut s.trigs s.offers s.esl s.caps s.openGroups s.links s.remotes s.swarm s.doms s.pps s.mapTicks s.syns s.zq s.tap s.msix s.endpoint s.dma s.dmaTurn s.svc s.out s.freeCtr = s.putInsts x := rfl

theorem Keeps.insts (hP : Keeps A P) (h : Sub 0x20000000000 A) {s : State} {x : List Inst} (hs : P s) : P (s.putInsts x) := hP.instsPut h s x hs

/-- The state with another `lineUses`. -/
def State.putLineUses (s : State) (x : List (Nat × LineUse)) : State := { s with lineUses := x }

theorem State.mk_lineUses (s : State) (x : List (Nat × LineUse)) : State.mk s.pending s.time s.power s.run s.regs s.rcNew s.shadows s.keys s.journal s.streams s.store s.banks s.reqs s.lanes s.writers s.losses s.recordingRegions s.chans s.fifos s.cells s.imem s.scratch s.stores s.exch s.sent s.slotUse s.heldAcc s.engines s.regions s.cellInit s.insts x s.summaries s.quals s.winCur s.winShown s.trigIn s.trigOut s.trigs s.offers s.esl s.caps s.openGroups s.links s.remotes s.swarm s.doms s.pps s.mapTicks s.syns s.zq s.tap s.msix s.endpoint s.dma s.dmaTurn s.svc s.out s.freeCtr = s.putLineUses x := rfl

theorem Keeps.lineUses (hP : Keeps A P) (h : Sub 0x40000000000 A) {s : State} {x : List (Nat × LineUse)} (hs : P s) : P (s.putLineUses x) := hP.lineUsesPut h s x hs

/-- The state with another `trigIn`. -/
def State.putTrigIn (s : State) (x : TrigIn) : State := { s with trigIn := x }

theorem State.mk_trigIn (s : State) (x : TrigIn) : State.mk s.pending s.time s.power s.run s.regs s.rcNew s.shadows s.keys s.journal s.streams s.store s.banks s.reqs s.lanes s.writers s.losses s.recordingRegions s.chans s.fifos s.cells s.imem s.scratch s.stores s.exch s.sent s.slotUse s.heldAcc s.engines s.regions s.cellInit s.insts s.lineUses s.summaries s.quals s.winCur s.winShown x s.trigOut s.trigs s.offers s.esl s.caps s.openGroups s.links s.remotes s.swarm s.doms s.pps s.mapTicks s.syns s.zq s.tap s.msix s.endpoint s.dma s.dmaTurn s.svc s.out s.freeCtr = s.putTrigIn x := rfl

theorem Keeps.trigIn (hP : Keeps A P) (h : Sub 0x80000000000 A) {s : State} {x : TrigIn} (hs : P s) : P (s.putTrigIn x) := hP.trigInPut h s x hs

/-- The state with another `trigOut`. -/
def State.putTrigOut (s : State) (x : Option Nat) : State := { s with trigOut := x }

theorem State.mk_trigOut (s : State) (x : Option Nat) : State.mk s.pending s.time s.power s.run s.regs s.rcNew s.shadows s.keys s.journal s.streams s.store s.banks s.reqs s.lanes s.writers s.losses s.recordingRegions s.chans s.fifos s.cells s.imem s.scratch s.stores s.exch s.sent s.slotUse s.heldAcc s.engines s.regions s.cellInit s.insts s.lineUses s.summaries s.quals s.winCur s.winShown s.trigIn x s.trigs s.offers s.esl s.caps s.openGroups s.links s.remotes s.swarm s.doms s.pps s.mapTicks s.syns s.zq s.tap s.msix s.endpoint s.dma s.dmaTurn s.svc s.out s.freeCtr = s.putTrigOut x := rfl

theorem Keeps.trigOut (hP : Keeps A P) (h : Sub 0x100000000000 A) {s : State} {x : Option Nat} (hs : P s) : P (s.putTrigOut x) := hP.trigOutPut h s x hs

/-- The state with another `trigs`. -/
def State.putTrigs (s : State) (x : List Trig) : State := { s with trigs := x }

theorem State.mk_trigs (s : State) (x : List Trig) : State.mk s.pending s.time s.power s.run s.regs s.rcNew s.shadows s.keys s.journal s.streams s.store s.banks s.reqs s.lanes s.writers s.losses s.recordingRegions s.chans s.fifos s.cells s.imem s.scratch s.stores s.exch s.sent s.slotUse s.heldAcc s.engines s.regions s.cellInit s.insts s.lineUses s.summaries s.quals s.winCur s.winShown s.trigIn s.trigOut x s.offers s.esl s.caps s.openGroups s.links s.remotes s.swarm s.doms s.pps s.mapTicks s.syns s.zq s.tap s.msix s.endpoint s.dma s.dmaTurn s.svc s.out s.freeCtr = s.putTrigs x := rfl

theorem Keeps.trigs (hP : Keeps A P) (h : Sub 0x200000000000 A) {s : State} {x : List Trig} (hs : P s) : P (s.putTrigs x) := hP.trigsPut h s x hs

/-- The state with another `esl`. -/
def State.putEsl (s : State) (x : Esl) : State := { s with esl := x }

theorem State.mk_esl (s : State) (x : Esl) : State.mk s.pending s.time s.power s.run s.regs s.rcNew s.shadows s.keys s.journal s.streams s.store s.banks s.reqs s.lanes s.writers s.losses s.recordingRegions s.chans s.fifos s.cells s.imem s.scratch s.stores s.exch s.sent s.slotUse s.heldAcc s.engines s.regions s.cellInit s.insts s.lineUses s.summaries s.quals s.winCur s.winShown s.trigIn s.trigOut s.trigs s.offers x s.caps s.openGroups s.links s.remotes s.swarm s.doms s.pps s.mapTicks s.syns s.zq s.tap s.msix s.endpoint s.dma s.dmaTurn s.svc s.out s.freeCtr = s.putEsl x := rfl

theorem Keeps.esl (hP : Keeps A P) (h : Sub 0x400000000000 A) {s : State} {x : Esl} (hs : P s) : P (s.putEsl x) := hP.eslPut h s x hs

/-- The state with another `swarm`. -/
def State.putSwarm (s : State) (x : Swarm) : State := { s with swarm := x }

theorem State.mk_swarm (s : State) (x : Swarm) : State.mk s.pending s.time s.power s.run s.regs s.rcNew s.shadows s.keys s.journal s.streams s.store s.banks s.reqs s.lanes s.writers s.losses s.recordingRegions s.chans s.fifos s.cells s.imem s.scratch s.stores s.exch s.sent s.slotUse s.heldAcc s.engines s.regions s.cellInit s.insts s.lineUses s.summaries s.quals s.winCur s.winShown s.trigIn s.trigOut s.trigs s.offers s.esl s.caps s.openGroups s.links s.remotes x s.doms s.pps s.mapTicks s.syns s.zq s.tap s.msix s.endpoint s.dma s.dmaTurn s.svc s.out s.freeCtr = s.putSwarm x := rfl

theorem Keeps.swarm (hP : Keeps A P) (h : Sub 0x800000000000 A) {s : State} {x : Swarm} (hs : P s) : P (s.putSwarm x) := hP.swarmPut h s x hs

/-- The state with another `mapTicks`. -/
def State.putMapTicks (s : State) (x : Nat) : State := { s with mapTicks := x }

theorem State.mk_mapTicks (s : State) (x : Nat) : State.mk s.pending s.time s.power s.run s.regs s.rcNew s.shadows s.keys s.journal s.streams s.store s.banks s.reqs s.lanes s.writers s.losses s.recordingRegions s.chans s.fifos s.cells s.imem s.scratch s.stores s.exch s.sent s.slotUse s.heldAcc s.engines s.regions s.cellInit s.insts s.lineUses s.summaries s.quals s.winCur s.winShown s.trigIn s.trigOut s.trigs s.offers s.esl s.caps s.openGroups s.links s.remotes s.swarm s.doms s.pps x s.syns s.zq s.tap s.msix s.endpoint s.dma s.dmaTurn s.svc s.out s.freeCtr = s.putMapTicks x := rfl

theorem Keeps.mapTicks (hP : Keeps A P) (h : Sub 0x1000000000000 A) {s : State} {x : Nat} (hs : P s) : P (s.putMapTicks x) := hP.mapTicksPut h s x hs

/-- The state with another `zq`. -/
def State.putZq (s : State) (x : Option Zq) : State := { s with zq := x }

theorem State.mk_zq (s : State) (x : Option Zq) : State.mk s.pending s.time s.power s.run s.regs s.rcNew s.shadows s.keys s.journal s.streams s.store s.banks s.reqs s.lanes s.writers s.losses s.recordingRegions s.chans s.fifos s.cells s.imem s.scratch s.stores s.exch s.sent s.slotUse s.heldAcc s.engines s.regions s.cellInit s.insts s.lineUses s.summaries s.quals s.winCur s.winShown s.trigIn s.trigOut s.trigs s.offers s.esl s.caps s.openGroups s.links s.remotes s.swarm s.doms s.pps s.mapTicks s.syns x s.tap s.msix s.endpoint s.dma s.dmaTurn s.svc s.out s.freeCtr = s.putZq x := rfl

theorem Keeps.zq (hP : Keeps A P) (h : Sub 0x2000000000000 A) {s : State} {x : Option Zq} (hs : P s) : P (s.putZq x) := hP.zqPut h s x hs

/-- The state with another `tap`. -/
def State.putTap (s : State) (x : Tap) : State := { s with tap := x }

theorem State.mk_tap (s : State) (x : Tap) : State.mk s.pending s.time s.power s.run s.regs s.rcNew s.shadows s.keys s.journal s.streams s.store s.banks s.reqs s.lanes s.writers s.losses s.recordingRegions s.chans s.fifos s.cells s.imem s.scratch s.stores s.exch s.sent s.slotUse s.heldAcc s.engines s.regions s.cellInit s.insts s.lineUses s.summaries s.quals s.winCur s.winShown s.trigIn s.trigOut s.trigs s.offers s.esl s.caps s.openGroups s.links s.remotes s.swarm s.doms s.pps s.mapTicks s.syns s.zq x s.msix s.endpoint s.dma s.dmaTurn s.svc s.out s.freeCtr = s.putTap x := rfl

theorem Keeps.tap (hP : Keeps A P) (h : Sub 0x4000000000000 A) {s : State} {x : Tap} (hs : P s) : P (s.putTap x) := hP.tapPut h s x hs

/-- The state with another `svc`. -/
def State.putSvc (s : State) (x : Svc) : State := { s with svc := x }

theorem State.mk_svc (s : State) (x : Svc) : State.mk s.pending s.time s.power s.run s.regs s.rcNew s.shadows s.keys s.journal s.streams s.store s.banks s.reqs s.lanes s.writers s.losses s.recordingRegions s.chans s.fifos s.cells s.imem s.scratch s.stores s.exch s.sent s.slotUse s.heldAcc s.engines s.regions s.cellInit s.insts s.lineUses s.summaries s.quals s.winCur s.winShown s.trigIn s.trigOut s.trigs s.offers s.esl s.caps s.openGroups s.links s.remotes s.swarm s.doms s.pps s.mapTicks s.syns s.zq s.tap s.msix s.endpoint s.dma s.dmaTurn x s.out s.freeCtr = s.putSvc x := rfl

theorem Keeps.svc (hP : Keeps A P) (h : Sub 0x8000000000000 A) {s : State} {x : Svc} (hs : P s) : P (s.putSvc x) := hP.svcPut h s x hs

/-- The state with another `heldAcc`. -/
def State.putHeldAcc (s : State) (x : List HeldAccess) : State := { s with heldAcc := x }

theorem State.mk_heldAcc (s : State) (x : List HeldAccess) : State.mk s.pending s.time s.power s.run s.regs s.rcNew s.shadows s.keys s.journal s.streams s.store s.banks s.reqs s.lanes s.writers s.losses s.recordingRegions s.chans s.fifos s.cells s.imem s.scratch s.stores s.exch s.sent s.slotUse x s.engines s.regions s.cellInit s.insts s.lineUses s.summaries s.quals s.winCur s.winShown s.trigIn s.trigOut s.trigs s.offers s.esl s.caps s.openGroups s.links s.remotes s.swarm s.doms s.pps s.mapTicks s.syns s.zq s.tap s.msix s.endpoint s.dma s.dmaTurn s.svc s.out s.freeCtr = s.putHeldAcc x := rfl

theorem Keeps.heldAcc (hP : Keeps A P) (h : Sub 0x10000000000000 A) {s : State} {x : List HeldAccess} (hs : P s) : P (s.putHeldAcc x) := hP.heldAccPut h s x hs

/-- The state with another `reqs`. -/
def State.putReqs (s : State) (x : List Request) : State := { s with reqs := x }

theorem State.mk_reqs (s : State) (x : List Request) : State.mk s.pending s.time s.power s.run s.regs s.rcNew s.shadows s.keys s.journal s.streams s.store s.banks x s.lanes s.writers s.losses s.recordingRegions s.chans s.fifos s.cells s.imem s.scratch s.stores s.exch s.sent s.slotUse s.heldAcc s.engines s.regions s.cellInit s.insts s.lineUses s.summaries s.quals s.winCur s.winShown s.trigIn s.trigOut s.trigs s.offers s.esl s.caps s.openGroups s.links s.remotes s.swarm s.doms s.pps s.mapTicks s.syns s.zq s.tap s.msix s.endpoint s.dma s.dmaTurn s.svc s.out s.freeCtr = s.putReqs x := rfl

theorem Keeps.reqs (hP : Keeps A P) (h : Sub 0x20000000000000 A) {s : State} {x : List Request} (hs : P s) : P (s.putReqs x) := hP.reqsPut h s x hs

/-- The state with another `endpoint`. -/
def State.putEndpoint (s : State) (x : Endpoint) : State := { s with endpoint := x }

theorem State.mk_endpoint (s : State) (x : Endpoint) : State.mk s.pending s.time s.power s.run s.regs s.rcNew s.shadows s.keys s.journal s.streams s.store s.banks s.reqs s.lanes s.writers s.losses s.recordingRegions s.chans s.fifos s.cells s.imem s.scratch s.stores s.exch s.sent s.slotUse s.heldAcc s.engines s.regions s.cellInit s.insts s.lineUses s.summaries s.quals s.winCur s.winShown s.trigIn s.trigOut s.trigs s.offers s.esl s.caps s.openGroups s.links s.remotes s.swarm s.doms s.pps s.mapTicks s.syns s.zq s.tap s.msix x s.dma s.dmaTurn s.svc s.out s.freeCtr = s.putEndpoint x := rfl

theorem Keeps.endpoint (hP : Keeps A P) (h : Sub 0x80000000000000 A) {s : State} {x : Endpoint} (hs : P s) : P (s.putEndpoint x) := hP.endpointPut h s x hs

/-- The state with another `dmaTurn`. -/
def State.putDmaTurn (s : State) (x : List Nat) : State := { s with dmaTurn := x }

theorem State.mk_dmaTurn (s : State) (x : List Nat) : State.mk s.pending s.time s.power s.run s.regs s.rcNew s.shadows s.keys s.journal s.streams s.store s.banks s.reqs s.lanes s.writers s.losses s.recordingRegions s.chans s.fifos s.cells s.imem s.scratch s.stores s.exch s.sent s.slotUse s.heldAcc s.engines s.regions s.cellInit s.insts s.lineUses s.summaries s.quals s.winCur s.winShown s.trigIn s.trigOut s.trigs s.offers s.esl s.caps s.openGroups s.links s.remotes s.swarm s.doms s.pps s.mapTicks s.syns s.zq s.tap s.msix s.endpoint s.dma x s.svc s.out s.freeCtr = s.putDmaTurn x := rfl

theorem Keeps.dmaTurn (hP : Keeps A P) (h : Sub 0x100000000000000 A) {s : State} {x : List Nat} (hs : P s) : P (s.putDmaTurn x) := hP.dmaTurnPut h s x hs

/-- The state with another `summaries`. -/
def State.putSummaries (s : State) (x : List (Nat × SubGate)) : State := { s with summaries := x }

theorem State.mk_summaries (s : State) (x : List (Nat × SubGate)) : State.mk s.pending s.time s.power s.run s.regs s.rcNew s.shadows s.keys s.journal s.streams s.store s.banks s.reqs s.lanes s.writers s.losses s.recordingRegions s.chans s.fifos s.cells s.imem s.scratch s.stores s.exch s.sent s.slotUse s.heldAcc s.engines s.regions s.cellInit s.insts s.lineUses x s.quals s.winCur s.winShown s.trigIn s.trigOut s.trigs s.offers s.esl s.caps s.openGroups s.links s.remotes s.swarm s.doms s.pps s.mapTicks s.syns s.zq s.tap s.msix s.endpoint s.dma s.dmaTurn s.svc s.out s.freeCtr = s.putSummaries x := rfl

theorem Keeps.summaries (hP : Keeps A P) (h : Sub 0x800000000000000 A) {s : State} {x : List (Nat × SubGate)} (hs : P s) : P (s.putSummaries x) := hP.summariesPut h s x hs

/-- The state with another `offers`. -/
def State.putOffers (s : State) (x : List (Nat × Offer)) : State := { s with offers := x }

theorem State.mk_offers (s : State) (x : List (Nat × Offer)) : State.mk s.pending s.time s.power s.run s.regs s.rcNew s.shadows s.keys s.journal s.streams s.store s.banks s.reqs s.lanes s.writers s.losses s.recordingRegions s.chans s.fifos s.cells s.imem s.scratch s.stores s.exch s.sent s.slotUse s.heldAcc s.engines s.regions s.cellInit s.insts s.lineUses s.summaries s.quals s.winCur s.winShown s.trigIn s.trigOut s.trigs x s.esl s.caps s.openGroups s.links s.remotes s.swarm s.doms s.pps s.mapTicks s.syns s.zq s.tap s.msix s.endpoint s.dma s.dmaTurn s.svc s.out s.freeCtr = s.putOffers x := rfl

theorem Keeps.offers (hP : Keeps A P) (h : Sub 0x1000000000000000 A) {s : State} {x : List (Nat × Offer)} (hs : P s) : P (s.putOffers x) := hP.offersPut h s x hs

theorem keeps_let (P : State → Prop) {Q : State → Prop} {a : State} (ha : P a) (h : ∀ x, P x → Q x) : let x := a; Q x := h _ ha

theorem keeps_ite {c : Prop} [Decidable c] {a b : State} (ha : P a) (hb : P b) : P (if c then a else b) := by split <;> assumption

theorem keeps_pair {α : Type*} {p : α × State} {a : α} {t : State} (e : p = (a, t)) (h : P p.2) : P t := by subst e; exact h

theorem keeps_pair₂ {α β : Type*} {p : α × β × State} {a : α} {b : β} {t : State} (e : p = (a, b, t)) (h : P p.2.2) : P t := by subst e; exact h

theorem keeps_foldl {β : Type*} {f : State → β → State} (l : List β) {s : State} (hf : ∀ t x, P t → P (f t x)) (h : P s) : P (l.foldl f s) := by
  induction l generalizing s with
  | nil => exact h
  | cons x r ih => exact ih (hf s x h)

theorem keeps_foldr {β : Type*} {f : β → State → State} (l : List β) {s : State} (hf : ∀ x t, P t → P (f x t)) (h : P s) : P (l.foldr f s) := by
  induction l with
  | nil => exact h
  | cons x r ih => exact hf x _ ih

end

/-! Frames: a component whose bits a mask lacks is left as it is. -/

theorem Keeps.same_pending {A : Nat} (hA : A &&& 0x0 = 0) (x : List Instr) : Keeps A (fun t => t.pending = x) := by
  constructor <;> intro h <;> first
    | (intros; assumption)
    | (exfalso; exact absurd (no_bits h hA) (by decide))

theorem Keeps.same_time {A : Nat} (hA : A &&& 0x400000300000000 = 0) (x : Timebase) : Keeps A (fun t => t.time = x) := by
  constructor <;> intro h <;> first
    | (intros; assumption)
    | (exfalso; exact absurd (no_bits h hA) (by decide))

theorem Keeps.same_power {A : Nat} (hA : A &&& 0x400000400000000 = 0) (x : Power) : Keeps A (fun t => t.power = x) := by
  constructor <;> intro h <;> first
    | (intros; assumption)
    | (exfalso; exact absurd (no_bits h hA) (by decide))

theorem Keeps.same_run {A : Nat} (hA : A &&& 0x400000800000000 = 0) (x : RunCtl) : Keeps A (fun t => t.run = x) := by
  constructor <;> intro h <;> first
    | (intros; assumption)
    | (exfalso; exact absurd (no_bits h hA) (by decide))

theorem Keeps.same_regs {A : Nat} (hA : A &&& 0x400000000000003 = 0) (x : Tab Dword) : Keeps A (fun t => t.regs = x) := by
  constructor <;> intro h <;> first
    | (intros; assumption)
    | (exfalso; exact absurd (no_bits h hA) (by decide))

theorem Keeps.same_rcNew {A : Nat} (hA : A &&& 0x600000000000000 = 0) (x : Tab (Option Fresh)) : Keeps A (fun t => t.rcNew = x) := by
  constructor <;> intro h <;> first
    | (intros; assumption)
    | (exfalso; exact absurd (no_bits h hA) (by decide))

theorem Keeps.same_shadows {A : Nat} (hA : A &&& 0x400000000000400 = 0) (x : Tab (Option Dword)) : Keeps A (fun t => t.shadows = x) := by
  constructor <;> intro h <;> first
    | (intros; assumption)
    | (exfalso; exact absurd (no_bits h hA) (by decide))

theorem Keeps.same_keys {A : Nat} (hA : A &&& 0x400000000000800 = 0) (x : Tab Bool) : Keeps A (fun t => t.keys = x) := by
  constructor <;> intro h <;> first
    | (intros; assumption)
    | (exfalso; exact absurd (no_bits h hA) (by decide))

theorem Keeps.same_journal {A : Nat} (hA : A &&& 0x400000000000200 = 0) (x : List (List Rec)) : Keeps A (fun t => t.journal = x) := by
  constructor <;> intro h <;> first
    | (intros; assumption)
    | (exfalso; exact absurd (no_bits h hA) (by decide))

theorem Keeps.same_streams {A : Nat} (hA : A &&& 0x400000000000040 = 0) (x : Tab SrcState) : Keeps A (fun t => t.streams = x) := by
  constructor <;> intro h <;> first
    | (intros; assumption)
    | (exfalso; exact absurd (no_bits h hA) (by decide))

theorem Keeps.same_store {A : Nat} (hA : A &&& 0x400000000001000 = 0) (x : Tab Half) : Keeps A (fun t => t.store = x) := by
  constructor <;> intro h <;> first
    | (intros; assumption)
    | (exfalso; exact absurd (no_bits h hA) (by decide))

theorem Keeps.same_banks {A : Nat} (hA : A &&& 0x400000000002000 = 0) (x : Tab BankAux) : Keeps A (fun t => t.banks = x) := by
  constructor <;> intro h <;> first
    | (intros; assumption)
    | (exfalso; exact absurd (no_bits h hA) (by decide))

theorem Keeps.same_reqs {A : Nat} (hA : A &&& 0x420000000000000 = 0) (x : List Request) : Keeps A (fun t => t.reqs = x) := by
  constructor <;> intro h <;> first
    | (intros; assumption)
    | (exfalso; exact absurd (no_bits h hA) (by decide))

theorem Keeps.same_lanes {A : Nat} (hA : A &&& 0x440000000000000 = 0) (x : Tab Lanes) : Keeps A (fun t => t.lanes = x) := by
  constructor <;> intro h <;> first
    | (intros; assumption)
    | (exfalso; exact absurd (no_bits h hA) (by decide))

theorem Keeps.same_writers {A : Nat} (hA : A &&& 0x400000000000100 = 0) (x : Tab Writer) : Keeps A (fun t => t.writers = x) := by
  constructor <;> intro h <;> first
    | (intros; assumption)
    | (exfalso; exact absurd (no_bits h hA) (by decide))

theorem Keeps.same_losses {A : Nat} (hA : A &&& 0x400000000000080 = 0) (x : Tab (List Loss)) : Keeps A (fun t => t.losses = x) := by
  constructor <;> intro h <;> first
    | (intros; assumption)
    | (exfalso; exact absurd (no_bits h hA) (by decide))

theorem Keeps.same_recordingRegions {A : Nat} (hA : A &&& 0x400001000000000 = 0) (x : BitVec 8) : Keeps A (fun t => t.recordingRegions = x) := by
  constructor <;> intro h <;> first
    | (intros; assumption)
    | (exfalso; exact absurd (no_bits h hA) (by decide))

theorem Keeps.same_chans {A : Nat} (hA : A &&& 0x400000000004000 = 0) (x : Tab Chan) : Keeps A (fun t => t.chans = x) := by
  constructor <;> intro h <;> first
    | (intros; assumption)
    | (exfalso; exact absurd (no_bits h hA) (by decide))

theorem Keeps.same_fifos {A : Nat} (hA : A &&& 0x400000000010000 = 0) (x : Tab Fifo) : Keeps A (fun t => t.fifos = x) := by
  constructor <;> intro h <;> first
    | (intros; assumption)
    | (exfalso; exact absurd (no_bits h hA) (by decide))

theorem Keeps.same_cells {A : Nat} (hA : A &&& 0x400000000020000 = 0) (x : Tab Cell) : Keeps A (fun t => t.cells = x) := by
  constructor <;> intro h <;> first
    | (intros; assumption)
    | (exfalso; exact absurd (no_bits h hA) (by decide))

theorem Keeps.same_imem {A : Nat} (hA : A &&& 0x400000000040000 = 0) (x : Tab IWord) : Keeps A (fun t => t.imem = x) := by
  constructor <;> intro h <;> first
    | (intros; assumption)
    | (exfalso; exact absurd (no_bits h hA) (by decide))

theorem Keeps.same_scratch {A : Nat} (hA : A &&& 0x400000000200000 = 0) (x : Tab SWord) : Keeps A (fun t => t.scratch = x) := by
  constructor <;> intro h <;> first
    | (intros; assumption)
    | (exfalso; exact absurd (no_bits h hA) (by decide))

theorem Keeps.same_stores {A : Nat} (hA : A &&& 0x400002000000000 = 0) (x : List Stored) : Keeps A (fun t => t.stores = x) := by
  constructor <;> intro h <;> first
    | (intros; assumption)
    | (exfalso; exact absurd (no_bits h hA) (by decide))

theorem Keeps.same_exch {A : Nat} (hA : A &&& 0x400000000100000 = 0) (x : Tab XChan) : Keeps A (fun t => t.exch = x) := by
  constructor <;> intro h <;> first
    | (intros; assumption)
    | (exfalso; exact absurd (no_bits h hA) (by decide))

theorem Keeps.same_sent {A : Nat} (hA : A &&& 0x400004000000000 = 0) (x : List Sent) : Keeps A (fun t => t.sent = x) := by
  constructor <;> intro h <;> first
    | (intros; assumption)
    | (exfalso; exact absurd (no_bits h hA) (by decide))

theorem Keeps.same_slotUse {A : Nat} (hA : A &&& 0x400008000000000 = 0) (x : SlotUse) : Keeps A (fun t => t.slotUse = x) := by
  constructor <;> intro h <;> first
    | (intros; assumption)
    | (exfalso; exact absurd (no_bits h hA) (by decide))

theorem Keeps.same_heldAcc {A : Nat} (hA : A &&& 0x410000000000000 = 0) (x : List HeldAccess) : Keeps A (fun t => t.heldAcc = x) := by
  constructor <;> intro h <;> first
    | (intros; assumption)
    | (exfalso; exact absurd (no_bits h hA) (by decide))

theorem Keeps.same_engines {A : Nat} (hA : A &&& 0x400000000400000 = 0) (x : Tab Engine) : Keeps A (fun t => t.engines = x) := by
  constructor <;> intro h <;> first
    | (intros; assumption)
    | (exfalso; exact absurd (no_bits h hA) (by decide))

theorem Keeps.same_regions {A : Nat} (hA : A &&& 0x400000000080000 = 0) (x : Tab RegionRun) : Keeps A (fun t => t.regions = x) := by
  constructor <;> intro h <;> first
    | (intros; assumption)
    | (exfalso; exact absurd (no_bits h hA) (by decide))

theorem Keeps.same_cellInit {A : Nat} (hA : A &&& 0x400010000000000 = 0) (x : List (Nat × List (BitVec 18) × BitVec 32)) : Keeps A (fun t => t.cellInit = x) := by
  constructor <;> intro h <;> first
    | (intros; assumption)
    | (exfalso; exact absurd (no_bits h hA) (by decide))

theorem Keeps.same_insts {A : Nat} (hA : A &&& 0x400020000000000 = 0) (x : List Inst) : Keeps A (fun t => t.insts = x) := by
  constructor <;> intro h <;> first
    | (intros; assumption)
    | (exfalso; exact absurd (no_bits h hA) (by decide))

theorem Keeps.same_lineUses {A : Nat} (hA : A &&& 0x400040000000000 = 0) (x : List (Nat × LineUse)) : Keeps A (fun t => t.lineUses = x) := by
  constructor <;> intro h <;> first
    | (intros; assumption)
    | (exfalso; exact absurd (no_bits h hA) (by decide))

theorem Keeps.same_summaries {A : Nat} (hA : A &&& 0xc00000000000000 = 0) (x : List (Nat × SubGate)) : Keeps A (fun t => t.summaries = x) := by
  constructor <;> intro h <;> first
    | (intros; assumption)
    | (exfalso; exact absurd (no_bits h hA) (by decide))

theorem Keeps.same_quals {A : Nat} (hA : A &&& 0x400000000008000 = 0) (x : Tab Qual) : Keeps A (fun t => t.quals = x) := by
  constructor <;> intro h <;> first
    | (intros; assumption)
    | (exfalso; exact absurd (no_bits h hA) (by decide))

theorem Keeps.same_winCur {A : Nat} (hA : A &&& 0x400000001000000 = 0) (x : Tab RegWin) : Keeps A (fun t => t.winCur = x) := by
  constructor <;> intro h <;> first
    | (intros; assumption)
    | (exfalso; exact absurd (no_bits h hA) (by decide))

theorem Keeps.same_winShown {A : Nat} (hA : A &&& 0x400000002000000 = 0) (x : Tab RegWin) : Keeps A (fun t => t.winShown = x) := by
  constructor <;> intro h <;> first
    | (intros; assumption)
    | (exfalso; exact absurd (no_bits h hA) (by decide))

theorem Keeps.same_trigIn {A : Nat} (hA : A &&& 0x400080000000000 = 0) (x : TrigIn) : Keeps A (fun t => t.trigIn = x) := by
  constructor <;> intro h <;> first
    | (intros; assumption)
    | (exfalso; exact absurd (no_bits h hA) (by decide))

theorem Keeps.same_trigOut {A : Nat} (hA : A &&& 0x400100000000000 = 0) (x : Option Nat) : Keeps A (fun t => t.trigOut = x) := by
  constructor <;> intro h <;> first
    | (intros; assumption)
    | (exfalso; exact absurd (no_bits h hA) (by decide))

theorem Keeps.same_trigs {A : Nat} (hA : A &&& 0x400200000000000 = 0) (x : List Trig) : Keeps A (fun t => t.trigs = x) := by
  constructor <;> intro h <;> first
    | (intros; assumption)
    | (exfalso; exact absurd (no_bits h hA) (by decide))

theorem Keeps.same_offers {A : Nat} (hA : A &&& 0x1400000000000000 = 0) (x : List (Nat × Offer)) : Keeps A (fun t => t.offers = x) := by
  constructor <;> intro h <;> first
    | (intros; assumption)
    | (exfalso; exact absurd (no_bits h hA) (by decide))

theorem Keeps.same_esl {A : Nat} (hA : A &&& 0x400400000000000 = 0) (x : Esl) : Keeps A (fun t => t.esl = x) := by
  constructor <;> intro h <;> first
    | (intros; assumption)
    | (exfalso; exact absurd (no_bits h hA) (by decide))

theorem Keeps.same_caps {A : Nat} (hA : A &&& 0x400000000800000 = 0) (x : Tab Cap) : Keeps A (fun t => t.caps = x) := by
  constructor <;> intro h <;> first
    | (intros; assumption)
    | (exfalso; exact absurd (no_bits h hA) (by decide))

theorem Keeps.same_openGroups {A : Nat} (hA : A &&& 0x400000004000000 = 0) (x : Tab (List Rec)) : Keeps A (fun t => t.openGroups = x) := by
  constructor <;> intro h <;> first
    | (intros; assumption)
    | (exfalso; exact absurd (no_bits h hA) (by decide))

theorem Keeps.same_links {A : Nat} (hA : A &&& 0x400000008000000 = 0) (x : Tab LinkSt) : Keeps A (fun t => t.links = x) := by
  constructor <;> intro h <;> first
    | (intros; assumption)
    | (exfalso; exact absurd (no_bits h hA) (by decide))

theorem Keeps.same_remotes {A : Nat} (hA : A &&& 0x400000010000000 = 0) (x : Tab Remote) : Keeps A (fun t => t.remotes = x) := by
  constructor <;> intro h <;> first
    | (intros; assumption)
    | (exfalso; exact absurd (no_bits h hA) (by decide))

theorem Keeps.same_swarm {A : Nat} (hA : A &&& 0x400800000000000 = 0) (x : Swarm) : Keeps A (fun t => t.swarm = x) := by
  constructor <;> intro h <;> first
    | (intros; assumption)
    | (exfalso; exact absurd (no_bits h hA) (by decide))

theorem Keeps.same_doms {A : Nat} (hA : A &&& 0x400000020000000 = 0) (x : Tab Dom) : Keeps A (fun t => t.doms = x) := by
  constructor <;> intro h <;> first
    | (intros; assumption)
    | (exfalso; exact absurd (no_bits h hA) (by decide))

theorem Keeps.same_pps {A : Nat} (hA : A &&& 0x400000040000000 = 0) (x : Tab (Option DTime)) : Keeps A (fun t => t.pps = x) := by
  constructor <;> intro h <;> first
    | (intros; assumption)
    | (exfalso; exact absurd (no_bits h hA) (by decide))

theorem Keeps.same_mapTicks {A : Nat} (hA : A &&& 0x401000000000000 = 0) (x : Nat) : Keeps A (fun t => t.mapTicks = x) := by
  constructor <;> intro h <;> first
    | (intros; assumption)
    | (exfalso; exact absurd (no_bits h hA) (by decide))

theorem Keeps.same_syns {A : Nat} (hA : A &&& 0x400000080000000 = 0) (x : Tab Syn) : Keeps A (fun t => t.syns = x) := by
  constructor <;> intro h <;> first
    | (intros; assumption)
    | (exfalso; exact absurd (no_bits h hA) (by decide))

theorem Keeps.same_zq {A : Nat} (hA : A &&& 0x402000000000000 = 0) (x : Option Zq) : Keeps A (fun t => t.zq = x) := by
  constructor <;> intro h <;> first
    | (intros; assumption)
    | (exfalso; exact absurd (no_bits h hA) (by decide))

theorem Keeps.same_tap {A : Nat} (hA : A &&& 0x4000000000000 = 0) (x : Tap) : Keeps A (fun t => t.tap = x) := by
  constructor <;> intro h <;> first
    | (intros; assumption)
    | (exfalso; exact absurd (no_bits h hA) (by decide))

theorem Keeps.same_msix {A : Nat} (hA : A &&& 0x400000000000020 = 0) (x : Msix) : Keeps A (fun t => t.msix = x) := by
  constructor <;> intro h <;> first
    | (intros; assumption)
    | (exfalso; exact absurd (no_bits h hA) (by decide))

theorem Keeps.same_endpoint {A : Nat} (hA : A &&& 0x480000000000000 = 0) (x : Endpoint) : Keeps A (fun t => t.endpoint = x) := by
  constructor <;> intro h <;> first
    | (intros; assumption)
    | (exfalso; exact absurd (no_bits h hA) (by decide))

theorem Keeps.same_dma {A : Nat} (hA : A &&& 0x400000000000010 = 0) (x : Tab DmaCh) : Keeps A (fun t => t.dma = x) := by
  constructor <;> intro h <;> first
    | (intros; assumption)
    | (exfalso; exact absurd (no_bits h hA) (by decide))

theorem Keeps.same_dmaTurn {A : Nat} (hA : A &&& 0x500000000000000 = 0) (x : List Nat) : Keeps A (fun t => t.dmaTurn = x) := by
  constructor <;> intro h <;> first
    | (intros; assumption)
    | (exfalso; exact absurd (no_bits h hA) (by decide))

theorem Keeps.same_svc {A : Nat} (hA : A &&& 0x408000000000000 = 0) (x : Svc) : Keeps A (fun t => t.svc = x) := by
  constructor <;> intro h <;> first
    | (intros; assumption)
    | (exfalso; exact absurd (no_bits h hA) (by decide))

theorem Keeps.same_out {A : Nat} (hA : A &&& 0x8 = 0) (x : List Out) : Keeps A (fun t => t.out = x) := by
  constructor <;> intro h <;> first
    | (intros; assumption)
    | (exfalso; exact absurd (no_bits h hA) (by decide))

theorem Keeps.same_freeCtr {A : Nat} (hA : A &&& 0x4 = 0) (x : Nat) : Keeps A (fun t => t.freeCtr = x) := by
  constructor <;> intro h <;> first
    | (intros; assumption)
    | (exfalso; exact absurd (no_bits h hA) (by decide))

theorem Keeps.same_dtime {A : Nat} (hA : A &&& 0x400000200000000 = 0) (x : DTime) : Keeps A (fun t => t.time.dtime = x) := by
  constructor <;> intro h <;> first
    | (intros; assumption)
    | (intro s y hy hs; show y.dtime = x; rw [hy]; exact hs)
    | (exfalso; exact absurd (no_bits h hA) (by decide))

end Sys2Proof.Machine
end

