-- ==== Sys2Proof/Laws/EffectsOps.lean ====
section
/-! SUPPORT. The effects of each operation of Machine/ (Ops.lean, Ring.lean, Pages.lean): the primitive changes it may make, as a mask. -/
namespace Sys2Proof.Machine
open Sys2Proof
set_option linter.unusedTactic false
set_option linter.unreachableTactic false
set_option linter.unusedVariables false
set_option linter.unusedSimpArgs false
variable {A : Nat} {P : State → Prop}

theorem State.setFld_unit (hP : Keeps A P) (hA : Sub 0x1 A) {s : State} {base : Nat} {f : Fld} {v : Nat} (hb : 0x1000 ≤ base) (hs : P s) : P (State.setFld s base f v) := by
  unfold State.setFld
  repeat' first
    | with_reducible assumption
    | with_reducible refine hP.wr (hA.mono (by decide)) _ _ _ (by first | omega | (simp only [tbPage, jrnlPage, svcPage, swarmPage, eslPage, dmaPage, synPage, domPage, linkPage, dmacPage, chPage, regPage, blkPage, bankPage]; omega)) ?_

theorem State.setFld_keeps (hP : Keeps A P) (hA : Sub 0x3 A) {s : State} {base : Nat} {f : Fld} {v : Nat} (hs : P s) : P (State.setFld s base f v) := by
  unfold State.setFld
  repeat' first
    | with_reducible assumption
    | with_reducible refine hP.wrAny (hA.mono (by decide)) _ _ _ ?_

theorem State.setBit_unit (hP : Keeps A P) (hA : Sub 0x1 A) {s : State} {base : Nat} {f : Fld} {b : Bool} (hb : 0x1000 ≤ base) (hs : P s) : P (State.setBit s base f b) := by
  unfold State.setBit
  repeat' first
    | with_reducible assumption
    | with_reducible refine State.setFld_unit hP (hA.mono (by decide)) (by first | omega | (simp only [tbPage, jrnlPage, svcPage, swarmPage, eslPage, dmaPage, synPage, domPage, linkPage, dmacPage, chPage, regPage, blkPage, bankPage]; omega)) ?_

theorem State.setBit_keeps (hP : Keeps A P) (hA : Sub 0x3 A) {s : State} {base : Nat} {f : Fld} {b : Bool} (hs : P s) : P (State.setBit s base f b) := by
  unfold State.setBit
  repeat' first
    | with_reducible assumption
    | with_reducible refine State.setFld_keeps hP (hA.mono (by decide)) ?_

theorem State.addSat_unit (hP : Keeps A P) (hA : Sub 0x1 A) {s : State} {base : Nat} {f : Fld} {n : Nat} (hb : 0x1000 ≤ base) (hs : P s) : P (State.addSat s base f n) := by
  unfold State.addSat
  repeat' first
    | with_reducible assumption
    | with_reducible refine State.setFld_unit hP (hA.mono (by decide)) (by first | omega | (simp only [tbPage, jrnlPage, svcPage, swarmPage, eslPage, dmaPage, synPage, domPage, linkPage, dmacPage, chPage, regPage, blkPage, bankPage]; omega)) ?_

theorem State.addSat_keeps (hP : Keeps A P) (hA : Sub 0x3 A) {s : State} {base : Nat} {f : Fld} {n : Nat} (hs : P s) : P (State.addSat s base f n) := by
  unfold State.addSat
  repeat' first
    | with_reducible assumption
    | with_reducible refine State.setFld_keeps hP (hA.mono (by decide)) ?_

theorem State.addWrap_unit (hP : Keeps A P) (hA : Sub 0x1 A) {s : State} {base : Nat} {f : Fld} {n : Nat} (hb : 0x1000 ≤ base) (hs : P s) : P (State.addWrap s base f n) := by
  unfold State.addWrap
  repeat' first
    | with_reducible assumption
    | with_reducible refine State.setFld_unit hP (hA.mono (by decide)) (by first | omega | (simp only [tbPage, jrnlPage, svcPage, swarmPage, eslPage, dmaPage, synPage, domPage, linkPage, dmacPage, chPage, regPage, blkPage, bankPage]; omega)) ?_

theorem State.addWrap_keeps (hP : Keeps A P) (hA : Sub 0x3 A) {s : State} {base : Nat} {f : Fld} {n : Nat} (hs : P s) : P (State.addWrap s base f n) := by
  unfold State.addWrap
  repeat' first
    | with_reducible assumption
    | with_reducible refine State.setFld_keeps hP (hA.mono (by decide)) ?_

theorem State.setPair_unit (hP : Keeps A P) (hA : Sub 0x1 A) {s : State} {base : Nat} {f : Fld} {v : Nat} (hb : 0x1000 ≤ base) (hs : P s) : P (State.setPair s base f v) := by
  unfold State.setPair
  repeat' first
    | with_reducible assumption
    | with_reducible refine hP.wr (hA.mono (by decide)) _ _ _ (by first | omega | (simp only [tbPage, jrnlPage, svcPage, swarmPage, eslPage, dmaPage, synPage, domPage, linkPage, dmacPage, chPage, regPage, blkPage, bankPage]; omega)) ?_

theorem State.setPair_keeps (hP : Keeps A P) (hA : Sub 0x3 A) {s : State} {base : Nat} {f : Fld} {v : Nat} (hs : P s) : P (State.setPair s base f v) := by
  unfold State.setPair
  repeat' first
    | with_reducible assumption
    | with_reducible refine hP.wrAny (hA.mono (by decide)) _ _ _ ?_

theorem State.setCoarse_keeps (hP : Keeps A P) (hA : Sub 0x100000001 A) {s : State} {b : Bool} (hs : P s) : P (State.setCoarse s b) := by
  unfold State.setCoarse
  repeat' first
    | with_reducible assumption
    | with_reducible refine hP.modTime (hA.mono (by decide)) (fun _ => rfl) ?_
    | with_reducible refine State.setBit_unit hP (hA.mono (by decide)) (by first | omega | (simp only [tbPage, jrnlPage, svcPage, swarmPage, eslPage, dmaPage, synPage, domPage, linkPage, dmacPage, chPage, regPage, blkPage, bankPage]; omega)) ?_

theorem State.setAlign_keeps (hP : Keeps A P) (hA : Sub 0x100000001 A) {s : State} {v : Nat} (hs : P s) : P (State.setAlign s v) := by
  unfold State.setAlign
  repeat' first
    | with_reducible assumption
    | lift_lets -underBinder
    | (intro x; revert x; refine keeps_let P ?_ (fun _ _ => ?_))
    | (intro x; clear_value x)
    | with_reducible refine State.setFld_unit hP (hA.mono (by decide)) (by first | omega | (simp only [tbPage, jrnlPage, svcPage, swarmPage, eslPage, dmaPage, synPage, domPage, linkPage, dmacPage, chPage, regPage, blkPage, bankPage]; omega)) ?_
    | with_reducible refine hP.modTime (hA.mono (by decide)) (fun _ => rfl) ?_
    | fail_if_no_progress beta_reduce

theorem State.signal_keeps (hP : Keeps A P) (hA : Sub 0x28 A) {s : State} {v : Nat} (hs : P s) : P (State.signal s v) := by
  unfold State.signal
  repeat' first
    | with_reducible assumption
    | lift_lets -underBinder
    | (intro x; revert x; refine keeps_let P ?_ (fun _ _ => ?_))
    | (intro x; clear_value x)
    | with_reducible refine hP.msix (hA.mono (by decide)) _ _ _ ?_
    | with_reducible refine hP.send (hA.mono (by decide)) _ _ ?_
    | fail_if_no_progress beta_reduce
    | with_reducible refine keeps_ite ?_ ?_
    | split

theorem State.msixSend_keeps (hP : Keeps A P) (hA : Sub 0x28 A) {s : State} {v : Nat} (hs : P s) : P (State.msixSend s v) := by
  unfold State.msixSend
  repeat' first
    | with_reducible assumption
    | lift_lets -underBinder
    | (intro x; revert x; refine keeps_let P ?_ (fun _ _ => ?_))
    | (intro x; clear_value x)
    | with_reducible refine hP.send (hA.mono (by decide)) _ _ ?_
    | with_reducible refine hP.msix (hA.mono (by decide)) _ _ _ ?_
    | fail_if_no_progress beta_reduce
    | with_reducible refine keeps_ite ?_ ?_
    | split

theorem State.msixUnmask_keeps (hP : Keeps A P) (hA : Sub 0x28 A) {s : State} {v : Nat} (hs : P s) : P (State.msixUnmask s v) := by
  unfold State.msixUnmask
  repeat' first
    | with_reducible assumption
    | with_reducible refine State.msixSend_keeps hP (hA.mono (by decide)) ?_
    | with_reducible refine hP.msix (hA.mono (by decide)) _ _ _ ?_

theorem State.msixControl_keeps (hP : Keeps A P) (hA : Sub 0x28 A) {s : State} {enable funcMask : Bool} (hs : P s) : P (State.msixControl s enable funcMask) :=
  keeps_foldl _ (fun _ _ h => State.msixSend_keeps hP (hA.mono (by decide)) h) (hP.msixCtl (hA.mono (by decide)) s _ _ hs)

theorem State.withIrq_keeps (hP : Keeps A P) (hA : Sub 0x28 A) {s : State} {base : Nat} {g : State → State} (hs : P s) (hg : ∀ (x0 : State), P x0 → P (g x0)) : P (State.withIrq s base g) := by
  unfold State.withIrq
  repeat' first
    | with_reducible assumption
    | lift_lets -underBinder
    | (intro x; revert x; refine keeps_let P ?_ (fun _ _ => ?_))
    | (intro x; clear_value x)
    | with_reducible refine State.signal_keeps hP (hA.mono (by decide)) ?_
    | with_reducible refine hg _ ?_
    | with_reducible refine keeps_ite ?_ ?_
    | split

theorem State.setRc_unit (hP : Keeps A P) (hA : Sub 0x200000000000001 A) {s : State} {base : Nat} {f : Fld} {v : Nat} (hb : 0x1000 ≤ base) (hs : P s) : P (State.setRc s base f v) := by
  unfold State.setRc
  repeat' first
    | with_reducible assumption
    | lift_lets -underBinder
    | (intro x; revert x; refine keeps_let P ?_ (fun _ _ => ?_))
    | (intro x; clear_value x)
    | with_reducible refine State.setFld_unit hP (hA.mono (by decide)) (by first | omega | (simp only [tbPage, jrnlPage, svcPage, swarmPage, eslPage, dmaPage, synPage, domPage, linkPage, dmacPage, chPage, regPage, blkPage, bankPage]; omega)) ?_
    | with_reducible refine hP.fresh (hA.mono (by decide)) _ _ _ ?_

theorem State.setRc_keeps (hP : Keeps A P) (hA : Sub 0x200000000000003 A) {s : State} {base : Nat} {f : Fld} {v : Nat} (hs : P s) : P (State.setRc s base f v) := by
  unfold State.setRc
  repeat' first
    | with_reducible assumption
    | lift_lets -underBinder
    | (intro x; revert x; refine keeps_let P ?_ (fun _ _ => ?_))
    | (intro x; clear_value x)
    | with_reducible refine State.setFld_keeps hP (hA.mono (by decide)) ?_
    | with_reducible refine hP.fresh (hA.mono (by decide)) _ _ _ ?_

theorem State.post_unit (hP : Keeps A P) (hA : Sub 0x200000000000029 A) {s : State} {base : Nat} {f : Fld} (hb : 0x1000 ≤ base) (hs : P s) : P (State.post s base f) := by
  unfold State.post
  repeat' first
    | with_reducible assumption
    | with_reducible refine State.withIrq_keeps hP (hA.mono (by decide)) ?_ (fun _ _ => ?_)
    | with_reducible refine State.setRc_unit hP (hA.mono (by decide)) (by first | omega | (simp only [tbPage, jrnlPage, svcPage, swarmPage, eslPage, dmaPage, synPage, domPage, linkPage, dmacPage, chPage, regPage, blkPage, bankPage]; omega)) ?_

theorem State.post_keeps (hP : Keeps A P) (hA : Sub 0x20000000000002b A) {s : State} {base : Nat} {f : Fld} (hs : P s) : P (State.post s base f) := by
  unfold State.post
  repeat' first
    | with_reducible assumption
    | with_reducible refine State.withIrq_keeps hP (hA.mono (by decide)) ?_ (fun _ _ => ?_)
    | with_reducible refine State.setRc_keeps hP (hA.mono (by decide)) ?_

theorem State.raiseAt_unit (hP : Keeps A P) (hA : Sub 0x200000000000029 A) {s : State} {base : Nat} {f : Fld} {off : Nat} {agent : Nat} (hb : 0x1000 ≤ base) (hs : P s) : P (State.raiseAt s base f off agent) := by
  unfold State.raiseAt
  repeat' first
    | with_reducible assumption
    | lift_lets -underBinder
    | (intro x; revert x; refine keeps_let P ?_ (fun _ _ => ?_))
    | (intro x; clear_value x)
    | with_reducible refine State.withIrq_keeps hP (hA.mono (by decide)) ?_ (fun _ _ => ?_)
    | with_reducible refine State.setRc_unit hP (hA.mono (by decide)) (by first | omega | (simp only [tbPage, jrnlPage, svcPage, swarmPage, eslPage, dmaPage, synPage, domPage, linkPage, dmacPage, chPage, regPage, blkPage, bankPage]; omega)) ?_
    | with_reducible refine hP.fresh (hA.mono (by decide)) _ _ _ ?_
    | with_reducible refine hP.wr (hA.mono (by decide)) _ _ _ (by first | omega | (simp only [tbPage, jrnlPage, svcPage, swarmPage, eslPage, dmaPage, synPage, domPage, linkPage, dmacPage, chPage, regPage, blkPage, bankPage]; omega)) ?_
    | fail_if_no_progress beta_reduce

theorem State.raiseAt_keeps (hP : Keeps A P) (hA : Sub 0x20000000000002b A) {s : State} {base : Nat} {f : Fld} {off : Nat} {agent : Nat} (hs : P s) : P (State.raiseAt s base f off agent) := by
  unfold State.raiseAt
  repeat' first
    | with_reducible assumption
    | lift_lets -underBinder
    | (intro x; revert x; refine keeps_let P ?_ (fun _ _ => ?_))
    | (intro x; clear_value x)
    | with_reducible refine State.withIrq_keeps hP (hA.mono (by decide)) ?_ (fun _ _ => ?_)
    | with_reducible refine State.setRc_keeps hP (hA.mono (by decide)) ?_
    | with_reducible refine hP.fresh (hA.mono (by decide)) _ _ _ ?_
    | with_reducible refine hP.wrAny (hA.mono (by decide)) _ _ _ ?_
    | fail_if_no_progress beta_reduce

theorem State.raise_unit (hP : Keeps A P) (hA : Sub 0x200000000000029 A) {s : State} {base : Nat} {f : Fld} (hb : 0x1000 ≤ base) (hs : P s) : P (State.raise s base f) := by
  unfold State.raise
  repeat' first
    | with_reducible assumption
    | with_reducible refine State.raiseAt_unit hP (hA.mono (by decide)) (by first | omega | (simp only [tbPage, jrnlPage, svcPage, swarmPage, eslPage, dmaPage, synPage, domPage, linkPage, dmacPage, chPage, regPage, blkPage, bankPage]; omega)) ?_

theorem State.raise_keeps (hP : Keeps A P) (hA : Sub 0x20000000000002b A) {s : State} {base : Nat} {f : Fld} (hs : P s) : P (State.raise s base f) := by
  unfold State.raise
  repeat' first
    | with_reducible assumption
    | with_reducible refine State.raiseAt_keeps hP (hA.mono (by decide)) ?_

theorem State.raiseWrite_unit (hP : Keeps A P) (hA : Sub 0x200000000000029 A) {s : State} {base : Nat} {f : Fld} {off : Nat} {a : Agent} (hb : 0x1000 ≤ base) (hs : P s) : P (State.raiseWrite s base f off a) := by
  unfold State.raiseWrite
  repeat' first
    | with_reducible assumption
    | with_reducible refine State.raiseAt_unit hP (hA.mono (by decide)) (by first | omega | (simp only [tbPage, jrnlPage, svcPage, swarmPage, eslPage, dmaPage, synPage, domPage, linkPage, dmacPage, chPage, regPage, blkPage, bankPage]; omega)) ?_

theorem State.raiseWrite_keeps (hP : Keeps A P) (hA : Sub 0x20000000000002b A) {s : State} {base : Nat} {f : Fld} {off : Nat} {a : Agent} (hs : P s) : P (State.raiseWrite s base f off a) := by
  unfold State.raiseWrite
  repeat' first
    | with_reducible assumption
    | with_reducible refine State.raiseAt_keeps hP (hA.mono (by decide)) ?_

theorem State.extBefore_keeps (hP : Keeps A P) (hA : Sub 0x40 A) {s : State} {st src : Nat} {t : DTime} (hs : P s) : P (State.extBefore s st src t).2 := by
  unfold State.extBefore
  repeat' first
    | with_reducible assumption
    | lift_lets -underBinder
    | (intro x; revert x; refine keeps_let P ?_ (fun _ _ => ?_))
    | (intro x; clear_value x)
    | with_reducible refine hP.src (hA.mono (by decide)) _ _ _ _ ?_
    | split
    | with_reducible refine keeps_pair (by assumption) ?_
    | with_reducible refine keeps_pair₂ (by assumption) ?_

theorem State.takeSeq_keeps (hP : Keeps A P) (hA : Sub 0x40 A) {s : State} {st src : Nat} {t : DTime} (hs : P s) : P (State.takeSeq s st src t).2.2 := by
  unfold State.takeSeq
  repeat' first
    | with_reducible assumption
    | lift_lets -underBinder
    | (intro x; revert x; refine keeps_let P ?_ (fun _ _ => ?_))
    | (intro x; clear_value x)
    | with_reducible refine hP.src (hA.mono (by decide)) _ _ _ _ ?_
    | split
    | with_reducible refine keeps_pair (by assumption) ?_
    | with_reducible refine keeps_pair₂ (by assumption) ?_

theorem State.formGroup_keeps (hP : Keeps A P) (hA : Sub 0x40 A) {s : State} {st ty src : Nat} {flag : Bool} {t : DTime} {cs : List Cont} (hs : P s) : P (State.formGroup s st ty src flag t cs).2 := by
  unfold State.formGroup
  repeat' first
    | with_reducible assumption
    | with_reducible refine State.takeSeq_keeps hP (hA.mono (by decide)) ?_
    | split
    | with_reducible refine keeps_pair (by assumption) ?_
    | with_reducible refine keeps_pair₂ (by assumption) ?_

theorem State.markLoss_keeps (hP : Keeps A P) (hA : Sub 0x800000 A) {s : State} {n : Nat} (hs : P s) : P (State.markLoss s n) := by
  unfold State.markLoss
  repeat' first
    | with_reducible assumption
    | with_reducible refine hP.cap (hA.mono (by decide)) _ _ _ ?_

theorem State.lose_keeps (hP : Keeps A P) (hA : Sub 0x800081 A) {s : State} {n cause kind src count : Nat} (hs : P s) : P (State.lose s n cause kind src count) := by
  unfold State.lose
  repeat' first
    | with_reducible assumption
    | lift_lets -underBinder
    | (intro x; revert x; refine keeps_let P ?_ (fun _ _ => ?_))
    | (intro x; clear_value x)
    | with_reducible refine State.setPair_unit hP (hA.mono (by decide)) (by first | omega | (simp only [tbPage, jrnlPage, svcPage, swarmPage, eslPage, dmaPage, synPage, domPage, linkPage, dmacPage, chPage, regPage, blkPage, bankPage]; omega)) ?_
    | with_reducible refine hP.losses (hA.mono (by decide)) _ _ _ ?_
    | with_reducible refine State.markLoss_keeps hP (hA.mono (by decide)) ?_
    | with_reducible refine State.setBit_unit hP (hA.mono (by decide)) (by first | omega | (simp only [tbPage, jrnlPage, svcPage, swarmPage, eslPage, dmaPage, synPage, domPage, linkPage, dmacPage, chPage, regPage, blkPage, bankPage]; omega)) ?_
    | with_reducible refine keeps_ite ?_ ?_
    | split

theorem State.closeLosses_keeps (hP : Keeps A P) (hA : Sub 0x800080 A) {s : State} {n : Nat} {byStop : Bool} {p : Loss → Bool} (hs : P s) : P (State.closeLosses s n byStop p) := by
  unfold State.closeLosses
  repeat' first
    | with_reducible assumption
    | with_reducible refine State.markLoss_keeps hP (hA.mono (by decide)) ?_
    | with_reducible refine hP.losses (hA.mono (by decide)) _ _ _ ?_
    | with_reducible refine keeps_ite ?_ ?_
    | split

theorem State.showLevels_keeps (hP : Keeps A P) (hA : Sub 0x1 A) {s : State} {n : Nat} (hs : P s) : P (State.showLevels s n) := by
  unfold State.showLevels
  repeat' first
    | with_reducible assumption
    | with_reducible refine State.setFld_unit hP (hA.mono (by decide)) (by first | omega | (simp only [tbPage, jrnlPage, svcPage, swarmPage, eslPage, dmaPage, synPage, domPage, linkPage, dmacPage, chPage, regPage, blkPage, bankPage]; omega)) ?_

theorem State.pushWriter_keeps (hP : Keeps A P) (hA : Sub 0x100 A) {s : State} {i arrival : Nat} {g : List (List Rec)} (hs : P s) : P (State.pushWriter s i arrival g) := by
  unfold State.pushWriter
  repeat' first
    | with_reducible assumption
    | lift_lets -underBinder
    | (intro x; revert x; refine keeps_let P ?_ (fun _ _ => ?_))
    | (intro x; clear_value x)
    | with_reducible refine hP.writer (hA.mono (by decide)) _ _ _ ?_

theorem State.enqueueRec_keeps (hP : Keeps A P) (hA : Sub 0x101 A) {s : State} {n : Nat} {g : List (List Rec)} (hs : P s) : P (State.enqueueRec s n g) := by
  unfold State.enqueueRec
  repeat' first
    | with_reducible assumption
    | with_reducible refine State.showLevels_keeps hP (hA.mono (by decide)) ?_
    | with_reducible refine State.pushWriter_keeps hP (hA.mono (by decide)) ?_

theorem State.unitGroup_keeps (hP : Keeps A P) (hA : Sub 0x8001c1 A) {s : State} {n ty src : Nat} {flag : Bool} {t : DTime} {cs : List Cont} (hs : P s) : P (State.unitGroup s n ty src flag t cs) := by
  unfold State.unitGroup
  repeat' first
    | with_reducible assumption
    | with_reducible refine State.lose_keeps hP (hA.mono (by decide)) ?_
    | with_reducible refine State.formGroup_keeps hP (hA.mono (by decide)) ?_
    | with_reducible refine State.enqueueRec_keeps hP (hA.mono (by decide)) ?_
    | with_reducible refine keeps_ite ?_ ?_
    | split
    | with_reducible refine keeps_pair (by assumption) ?_
    | with_reducible refine keeps_pair₂ (by assumption) ?_

theorem State.journalAppend_keeps (hP : Keeps A P) (hA : Sub 0x200000000000229 A) {s : State} {g : List Rec} (hg : g.length ≤ 4096) (hs : P s) : P (State.journalAppend s g) := by
  unfold State.journalAppend
  lift_lets
  intro kept ov s₁ s₂ s₃
  have h₁ : P s₁ := hP.ring (hA.mono (by decide)) s g hg hs
  have h₃ : P s₃ := State.setFld_unit hP (hA.mono (by decide)) (by decide) (State.addWrap_unit hP (hA.mono (by decide)) (by decide) h₁)
  split
  · exact State.post_unit hP (hA.mono (by decide)) (by decide) h₃
  · exact h₃

theorem State.journalGroups_keeps (hP : Keeps A P) (hA : Sub 0x200000000000229 A) {s : State} {pre g : List Rec} (hp : pre.length ≤ 4096) (hg : g.length ≤ 4096) (hs : P s) :
    P (State.journalGroups s pre g) := by
  unfold State.journalGroups
  split
  · exact State.journalAppend_keeps hP (hA.mono (by decide)) hg hs
  · exact State.journalAppend_keeps hP (hA.mono (by decide)) hg (State.journalAppend_keeps hP (hA.mono (by decide)) hp hs)

theorem contRecs_length (src seq : Nat) (cs : List Cont) : (contRecs src seq cs).length = cs.length := by
  induction cs with
  | nil => rfl
  | cons c r ih => simp [contRecs, ih]

theorem State.takeSeq_pre (s : State) (st src : Nat) (t : DTime) : (s.takeSeq st src t).1.length ≤ 1 := by
  unfold State.takeSeq
  simp only []
  split <;> simp

theorem State.journalGroup_keeps (hP : Keeps A P) (hA : Sub 0x2000000008003e9 A) {s : State} {ty src : Nat} {flag : Bool} {t : DTime} {cs : List Cont} (hc : cs.length ≤ 16)
    (hs : P s) : P (State.journalGroup s ty src flag t cs) := by
  unfold State.journalGroup
  have hpre := s.takeSeq_pre streamJournal src t
  split
  next pre seq s' e =>
    have h' : P s' := keeps_pair₂ e (State.takeSeq_keeps hP (hA.mono (by decide)) hs)
    rw [e] at hpre
    have h₂ : P (s'.journalGroups pre (headRec ty src flag seq t :: contRecs src seq cs)) :=
      State.journalGroups_keeps hP (hA.mono (by decide)) (le_trans hpre (by decide)) (by simp only [List.length_cons, contRecs_length]; omega) h'
    lift_lets
    intro s₂
    split
    · exact State.unitGroup_keeps hP (hA.mono (by decide)) h₂
    · exact h₂

theorem State.journalAt_keeps (hP : Keeps A P) (hA : Sub 0x2000000008003e9 A) {s : State} {t : DTime} {k : JKind} {a : Agent} {id off : Nat} {o : JOut} {v : Nat} (hs : P s) : P (State.journalAt s t k a id off o v) := by
  unfold State.journalAt
  repeat' first
    | with_reducible assumption
    | with_reducible refine State.journalGroup_keeps hP (hA.mono (by decide)) (by simp) ?_

theorem State.entry_keeps (hP : Keeps A P) (hA : Sub 0x2000000008003e9 A) {s : State} {k : JKind} {a : Agent} {off : Nat} {o : JOut} {v : Nat} (hs : P s) : P (State.entry s k a off o v) := by
  unfold State.entry
  repeat' first
    | with_reducible assumption
    | with_reducible refine State.journalAt_keeps hP (hA.mono (by decide)) ?_

theorem State.unitEvent_keeps (hP : Keeps A P) (hA : Sub 0x2000000008003e9 A) {s : State} {base : Nat} (hs : P s) : P (State.unitEvent s base) := by
  unfold State.unitEvent
  repeat' first
    | with_reducible assumption
    | with_reducible refine State.entry_keeps hP (hA.mono (by decide)) ?_

theorem State.errorAt_keeps (hP : Keeps A P) (hA : Sub 0x2000000008003e9 A) {s : State} {t : DTime} {n : Option Nat} {src cause unit detail : Nat} {stopped : Bool} (hs : P s) : P (State.errorAt s t n src cause unit detail stopped) := by
  unfold State.errorAt
  repeat' first
    | with_reducible assumption
    | lift_lets -underBinder
    | (intro x; revert x; refine keeps_let P ?_ (fun _ _ => ?_))
    | (intro x; clear_value x)
    | with_reducible refine State.journalGroup_keeps hP (hA.mono (by decide)) (by simp) ?_
    | with_reducible refine State.unitGroup_keeps hP (hA.mono (by decide)) ?_
    | split
    | with_reducible refine keeps_pair (by assumption) ?_
    | with_reducible refine keeps_pair₂ (by assumption) ?_

theorem State.error_keeps (hP : Keeps A P) (hA : Sub 0x2000000008003e9 A) {s : State} {n : Option Nat} {src cause unit detail : Nat} {stopped : Bool} (hs : P s) : P (State.error s n src cause unit detail stopped) := by
  unfold State.error
  repeat' first
    | with_reducible assumption
    | with_reducible refine State.errorAt_keeps hP (hA.mono (by decide)) ?_

theorem State.freeze_unit (hP : Keeps A P) (hA : Sub 0x2000000008003e9 A) {s : State} {base bit : Nat} (hb : 0x1000 ≤ base) (hs : P s) : P (State.freeze s base bit) := by
  unfold State.freeze
  repeat' first
    | with_reducible assumption
    | with_reducible refine State.entry_keeps hP (hA.mono (by decide)) ?_
    | with_reducible refine State.setRc_unit hP (hA.mono (by decide)) (by first | omega | (simp only [tbPage, jrnlPage, svcPage, swarmPage, eslPage, dmaPage, synPage, domPage, linkPage, dmacPage, chPage, regPage, blkPage, bankPage]; omega)) ?_
    | with_reducible refine keeps_ite ?_ ?_
    | split

theorem State.freeze_keeps (hP : Keeps A P) (hA : Sub 0x2000000008003eb A) {s : State} {base bit : Nat} (hs : P s) : P (State.freeze s base bit) := by
  unfold State.freeze
  repeat' first
    | with_reducible assumption
    | with_reducible refine State.entry_keeps hP (hA.mono (by decide)) ?_
    | with_reducible refine State.setRc_keeps hP (hA.mono (by decide)) ?_
    | with_reducible refine keeps_ite ?_ ?_
    | split

theorem State.setPhase_keeps (hP : Keeps A P) (hA : Sub 0x1 A) {s : State} {n v : Nat} (hs : P s) : P (State.setPhase s n v) := by
  unfold State.setPhase
  repeat' first
    | with_reducible assumption
    | with_reducible refine State.setFld_unit hP (hA.mono (by decide)) (by first | omega | (simp only [tbPage, jrnlPage, svcPage, swarmPage, eslPage, dmaPage, synPage, domPage, linkPage, dmacPage, chPage, regPage, blkPage, bankPage]; omega)) ?_

theorem State.applyValue_unit (hP : Keeps A P) (hA : Sub 0x200000000000029 A) {s : State} {base off : Nat} {row : RegRow} {v : Dword} (hb : 0x1000 ≤ base) (hs : P s) : P (State.applyValue s base off row v) := by
  unfold State.applyValue
  repeat' first
    | with_reducible assumption
    | with_reducible refine State.post_unit hP (hA.mono (by decide)) (by first | omega | (simp only [tbPage, jrnlPage, svcPage, swarmPage, eslPage, dmaPage, synPage, domPage, linkPage, dmacPage, chPage, regPage, blkPage, bankPage]; omega)) ?_
    | with_reducible refine State.addWrap_unit hP (hA.mono (by decide)) (by first | omega | (simp only [tbPage, jrnlPage, svcPage, swarmPage, eslPage, dmaPage, synPage, domPage, linkPage, dmacPage, chPage, regPage, blkPage, bankPage]; omega)) ?_
    | with_reducible refine hP.wr (hA.mono (by decide)) _ _ _ (by first | omega | (simp only [tbPage, jrnlPage, svcPage, swarmPage, eslPage, dmaPage, synPage, domPage, linkPage, dmacPage, chPage, regPage, blkPage, bankPage]; omega)) ?_

theorem State.applyValue_keeps (hP : Keeps A P) (hA : Sub 0x20000000000002b A) {s : State} {base off : Nat} {row : RegRow} {v : Dword} (hs : P s) : P (State.applyValue s base off row v) := by
  unfold State.applyValue
  repeat' first
    | with_reducible assumption
    | with_reducible refine State.post_keeps hP (hA.mono (by decide)) ?_
    | with_reducible refine State.addWrap_keeps hP (hA.mono (by decide)) ?_
    | with_reducible refine hP.wrAny (hA.mono (by decide)) _ _ _ ?_

theorem State.applyPage_unit (hP : Keeps A P) (hA : Sub 0x2000000008007e9 A) {s : State} {base : Nat} (hb : 0x1000 ≤ base) (hs : P s) : P (State.applyPage s base) := by
  unfold State.applyPage
  repeat' first
    | with_reducible assumption
    | lift_lets -underBinder
    | (intro x; revert x; refine keeps_let P ?_ (fun _ _ => ?_))
    | (intro x; clear_value x)
    | with_reducible refine State.applyValue_unit hP (hA.mono (by decide)) (by first | omega | (simp only [tbPage, jrnlPage, svcPage, swarmPage, eslPage, dmaPage, synPage, domPage, linkPage, dmacPage, chPage, regPage, blkPage, bankPage]; omega)) ?_
    | with_reducible refine hP.shadow (hA.mono (by decide)) _ _ _ ?_
    | with_reducible refine State.entry_keeps hP (hA.mono (by decide)) ?_
    | with_reducible refine keeps_foldl _ (fun _ _ _ => ?_) ?_
    | fail_if_no_progress beta_reduce
    | split
    | with_reducible refine keeps_pair (by assumption) ?_
    | with_reducible refine keeps_pair₂ (by assumption) ?_

theorem State.applyPage_keeps (hP : Keeps A P) (hA : Sub 0x2000000008007eb A) {s : State} {base : Nat} (hs : P s) : P (State.applyPage s base) := by
  unfold State.applyPage
  repeat' first
    | with_reducible assumption
    | lift_lets -underBinder
    | (intro x; revert x; refine keeps_let P ?_ (fun _ _ => ?_))
    | (intro x; clear_value x)
    | with_reducible refine State.applyValue_keeps hP (hA.mono (by decide)) ?_
    | with_reducible refine hP.shadow (hA.mono (by decide)) _ _ _ ?_
    | with_reducible refine State.entry_keeps hP (hA.mono (by decide)) ?_
    | with_reducible refine keeps_foldl _ (fun _ _ _ => ?_) ?_
    | fail_if_no_progress beta_reduce
    | split
    | with_reducible refine keeps_pair (by assumption) ?_
    | with_reducible refine keeps_pair₂ (by assumption) ?_

theorem State.applyRegion_keeps (hP : Keeps A P) (hA : Sub 0x2000000008007e9 A) {s : State} {n : Nat} (hs : P s) : P (State.applyRegion s n) := by
  unfold State.applyRegion
  repeat' first
    | with_reducible assumption
    | with_reducible refine State.applyPage_unit hP (hA.mono (by decide)) (by first | omega | (simp only [tbPage, jrnlPage, svcPage, swarmPage, eslPage, dmaPage, synPage, domPage, linkPage, dmacPage, chPage, regPage, blkPage, bankPage]; omega)) ?_
    | with_reducible refine keeps_foldl _ (fun _ _ _ => ?_) ?_

theorem State.storeValue_keeps (hP : Keeps A P) (hA : Sub 0x2000000008007eb A) {s : State} {t : PageType} {i off : Nat} {row : RegRow} {v written : Dword} {keyed : Bool} {a : Agent} {clamped journal : Bool} (hs : P s) : P (State.storeValue s t i off row v written keyed a clamped journal) := by
  unfold State.storeValue
  repeat' first
    | with_reducible assumption
    | lift_lets -underBinder
    | (intro x; revert x; refine keeps_let P ?_ (fun _ _ => ?_))
    | (intro x; first | (have _h : Nat := x; clear _h; subst x) | clear_value x)
    | with_reducible refine hP.wrAny (hA.mono (by decide)) _ _ _ ?_
    | with_reducible refine State.entry_keeps hP (hA.mono (by decide)) ?_
    | with_reducible refine hP.shadow (hA.mono (by decide)) _ _ _ ?_
    | with_reducible refine State.applyValue_keeps hP (hA.mono (by decide)) ?_
    | with_reducible refine keeps_ite ?_ ?_
    | split

theorem State.rejectWrite_keeps (hP : Keeps A P) (hA : Sub 0x2000000008003eb A) {s : State} {t : PageType} {i off : Nat} {row : RegRow} {v : Dword} {a : Agent} {err : Fld} {o : JOut} (hs : P s) : P (State.rejectWrite s t i off row v a err o) := by
  unfold State.rejectWrite
  repeat' first
    | with_reducible assumption
    | with_reducible refine State.entry_keeps hP (hA.mono (by decide)) ?_
    | with_reducible refine State.raiseWrite_keeps hP (hA.mono (by decide)) ?_

theorem State.keyFail_unit (hP : Keeps A P) (hA : Sub 0x2000000008003e9 A) {s : State} {base off : Nat} {v : Dword} {a : Agent} (hb : 0x1000 ≤ base) (hs : P s) : P (State.keyFail s base off v a) := by
  unfold State.keyFail
  repeat' first
    | with_reducible assumption
    | with_reducible refine State.entry_keeps hP (hA.mono (by decide)) ?_
    | with_reducible refine State.raiseWrite_unit hP (hA.mono (by decide)) (by first | omega | (simp only [tbPage, jrnlPage, svcPage, swarmPage, eslPage, dmaPage, synPage, domPage, linkPage, dmacPage, chPage, regPage, blkPage, bankPage]; omega)) ?_

theorem State.keyFail_keeps (hP : Keeps A P) (hA : Sub 0x2000000008003eb A) {s : State} {base off : Nat} {v : Dword} {a : Agent} (hs : P s) : P (State.keyFail s base off v a) := by
  unfold State.keyFail
  repeat' first
    | with_reducible assumption
    | with_reducible refine State.entry_keeps hP (hA.mono (by decide)) ?_
    | with_reducible refine State.raiseWrite_keeps hP (hA.mono (by decide)) ?_

theorem State.busError_keeps (hP : Keeps A P) (hA : Sub 0x20000000000002b A) {s : State} {addr : Nat} {req : BusReq} (hs : P s) : P (State.busError s addr req) := by
  unfold State.busError
  repeat' first
    | with_reducible assumption
    | lift_lets -underBinder
    | (intro x; revert x; refine keeps_let P ?_ (fun _ _ => ?_))
    | (intro x; clear_value x)
    | with_reducible refine hP.send (hA.mono (by decide)) _ _ ?_
    | with_reducible refine State.raiseAt_keeps hP (hA.mono (by decide)) ?_
    | with_reducible refine keeps_ite ?_ ?_
    | split
    | with_reducible refine keeps_pair (by assumption) ?_
    | with_reducible refine keeps_pair₂ (by assumption) ?_

theorem State.readClear_keeps (hP : Keeps A P) (hA : Sub 0x200000000000003 A) {s : State} {a : Nat} (hs : P s) : P (State.readClear s a) := by
  unfold State.readClear
  repeat' first
    | with_reducible assumption
    | lift_lets -underBinder
    | (intro x; revert x; refine keeps_let P ?_ (fun _ _ => ?_))
    | (intro x; clear_value x)
    | with_reducible refine hP.wrAny (hA.mono (by decide)) _ _ _ ?_
    | with_reducible refine hP.fresh (hA.mono (by decide)) _ _ _ ?_
    | with_reducible refine keeps_ite ?_ ?_
    | split
    | with_reducible refine keeps_pair (by assumption) ?_
    | with_reducible refine keeps_pair₂ (by assumption) ?_

theorem State.badCompletion_keeps (hP : Keeps A P) (hA : Sub 0x200000000000029 A) {s : State} {k : Completion} (hs : P s) : P (State.badCompletion s k) := by
  unfold State.badCompletion
  repeat' first
    | with_reducible assumption
    | with_reducible refine hP.send (hA.mono (by decide)) _ _ ?_
    | with_reducible refine State.raise_unit hP (hA.mono (by decide)) (by first | omega | (simp only [tbPage, jrnlPage, svcPage, swarmPage, eslPage, dmaPage, synPage, domPage, linkPage, dmacPage, chPage, regPage, blkPage, bankPage]; omega)) ?_
    | with_reducible refine State.addSat_unit hP (hA.mono (by decide)) (by first | omega | (simp only [tbPage, jrnlPage, svcPage, swarmPage, eslPage, dmaPage, synPage, domPage, linkPage, dmacPage, chPage, regPage, blkPage, bankPage]; omega)) ?_
    | split
    | with_reducible refine keeps_pair (by assumption) ?_
    | with_reducible refine keeps_pair₂ (by assumption) ?_

theorem State.unexpected_keeps (hP : Keeps A P) (hA : Sub 0x8 A) {s : State} (hs : P s) : P (State.unexpected s) := by
  unfold State.unexpected
  repeat' first
    | with_reducible assumption
    | with_reducible refine hP.send (hA.mono (by decide)) _ _ ?_

end Sys2Proof.Machine
end

