-- ==== Sys2Proof/Laws/EffectsStore.lean ====
section
/-! SUPPORT. The effects of each operation of Machine/ (Store.lean, Dma.lean): the primitive changes it may make, as a mask. -/
namespace Sys2Proof.Machine
open Sys2Proof
set_option linter.unusedTactic false
set_option linter.unreachableTactic false
set_option linter.unusedVariables false
set_option linter.unusedSimpArgs false
variable {A : Nat} {P : State → Prop}

theorem State.markFrozen_keeps (hP : Keeps A P) (hA : Sub 0x100 A) {s : State} {i bit : Nat} (hs : P s) : P (State.markFrozen s i bit) := by
  unfold State.markFrozen
  repeat' first
    | with_reducible assumption
    | with_reducible refine hP.writer (hA.mono (by decide)) _ _ _ ?_
    | with_reducible refine keeps_ite ?_ ?_
    | split

theorem State.freezeMaster_keeps (hP : Keeps A P) (hA : Sub 0x2000000008003e9 A) {s : State} {b cls arg : Nat} (hs : P s) : P (State.freezeMaster s b cls arg) := by
  unfold State.freezeMaster
  repeat' first
    | with_reducible assumption
    | lift_lets -underBinder
    | (intro x; revert x; refine keeps_let P ?_ (fun _ _ => ?_))
    | (intro x; clear_value x)
    | with_reducible refine State.raise_unit hP (hA.mono (by decide)) (by first | omega | (simp only [tbPage, jrnlPage, svcPage, swarmPage, eslPage, dmaPage, synPage, domPage, linkPage, dmacPage, chPage, regPage, blkPage, bankPage]; omega)) ?_
    | with_reducible refine State.freeze_unit hP (hA.mono (by decide)) (by first | omega | (simp only [tbPage, jrnlPage, svcPage, swarmPage, eslPage, dmaPage, synPage, domPage, linkPage, dmacPage, chPage, regPage, blkPage, bankPage]; omega)) ?_
    | with_reducible refine State.markFrozen_keeps hP (hA.mono (by decide)) ?_
    | with_reducible refine State.setFld_unit hP (hA.mono (by decide)) (by first | omega | (simp only [tbPage, jrnlPage, svcPage, swarmPage, eslPage, dmaPage, synPage, domPage, linkPage, dmacPage, chPage, regPage, blkPage, bankPage]; omega)) ?_
    | with_reducible refine keeps_ite ?_ ?_
    | split

theorem State.violate_keeps (hP : Keeps A P) (hA : Sub 0x2000000008003e9 A) {s : State} {b cls arg : Nat} {write : Bool} {line : Nat} (hs : P s) : P (State.violate s b cls arg write line) := by
  unfold State.violate
  repeat' first
    | with_reducible assumption
    | lift_lets -underBinder
    | (intro x; revert x; refine keeps_let P ?_ (fun _ _ => ?_))
    | (intro x; clear_value x)
    | with_reducible refine hP.wr (hA.mono (by decide)) _ _ _ (by first | omega | (simp only [tbPage, jrnlPage, svcPage, swarmPage, eslPage, dmaPage, synPage, domPage, linkPage, dmacPage, chPage, regPage, blkPage, bankPage]; omega)) ?_
    | with_reducible refine State.raise_unit hP (hA.mono (by decide)) (by first | omega | (simp only [tbPage, jrnlPage, svcPage, swarmPage, eslPage, dmaPage, synPage, domPage, linkPage, dmacPage, chPage, regPage, blkPage, bankPage]; omega)) ?_
    | with_reducible refine State.addSat_unit hP (hA.mono (by decide)) (by first | omega | (simp only [tbPage, jrnlPage, svcPage, swarmPage, eslPage, dmaPage, synPage, domPage, linkPage, dmacPage, chPage, regPage, blkPage, bankPage]; omega)) ?_
    | with_reducible refine State.error_keeps hP (hA.mono (by decide)) ?_
    | with_reducible refine State.freezeMaster_keeps hP (hA.mono (by decide)) ?_

theorem State.errAddr_keeps (hP : Keeps A P) (hA : Sub 0x1 A) {s : State} {b line half : Nat} {ue : Bool} {det : Nat} (hs : P s) : P (State.errAddr s b line half ue det) := by
  unfold State.errAddr
  repeat' first
    | with_reducible assumption
    | with_reducible refine hP.wr (hA.mono (by decide)) _ _ _ (by first | omega | (simp only [tbPage, jrnlPage, svcPage, swarmPage, eslPage, dmaPage, synPage, domPage, linkPage, dmacPage, chPage, regPage, blkPage, bankPage]; omega)) ?_

theorem State.countCe_keeps (hP : Keeps A P) (hA : Sub 0x200000000000029 A) {s : State} {b line half det : Nat} (hs : P s) : P (State.countCe s b line half det) := by
  unfold State.countCe
  repeat' first
    | with_reducible assumption
    | with_reducible refine State.post_unit hP (hA.mono (by decide)) (by first | omega | (simp only [tbPage, jrnlPage, svcPage, swarmPage, eslPage, dmaPage, synPage, domPage, linkPage, dmacPage, chPage, regPage, blkPage, bankPage]; omega)) ?_
    | with_reducible refine State.errAddr_keeps hP (hA.mono (by decide)) ?_
    | with_reducible refine State.addSat_unit hP (hA.mono (by decide)) (by first | omega | (simp only [tbPage, jrnlPage, svcPage, swarmPage, eslPage, dmaPage, synPage, domPage, linkPage, dmacPage, chPage, regPage, blkPage, bankPage]; omega)) ?_

theorem State.countUe_keeps (hP : Keeps A P) (hA : Sub 0x200000000000029 A) {s : State} {b line half det : Nat} (hs : P s) : P (State.countUe s b line half det) := by
  unfold State.countUe
  repeat' first
    | with_reducible assumption
    | with_reducible refine State.post_unit hP (hA.mono (by decide)) (by first | omega | (simp only [tbPage, jrnlPage, svcPage, swarmPage, eslPage, dmaPage, synPage, domPage, linkPage, dmacPage, chPage, regPage, blkPage, bankPage]; omega)) ?_
    | with_reducible refine State.errAddr_keeps hP (hA.mono (by decide)) ?_
    | with_reducible refine State.addSat_unit hP (hA.mono (by decide)) (by first | omega | (simp only [tbPage, jrnlPage, svcPage, swarmPage, eslPage, dmaPage, synPage, domPage, linkPage, dmacPage, chPage, regPage, blkPage, bankPage]; omega)) ?_

theorem State.bankUeRecord_keeps (hP : Keeps A P) (hA : Sub 0x2000000008003e9 A) {s : State} {b line half det : Nat} (hs : P s) : P (State.bankUeRecord s b line half det) := by
  unfold State.bankUeRecord
  repeat' first
    | with_reducible assumption
    | with_reducible refine State.error_keeps hP (hA.mono (by decide)) ?_

theorem State.readHalf_keeps (hP : Keeps A P) (hA : Sub 0x2000000008023e9 A) {s : State} {b line half : Nat} (hs : P s) : P (State.readHalf s b line half).2 := by
  unfold State.readHalf
  repeat' first
    | with_reducible assumption
    | lift_lets -underBinder
    | (intro x; revert x; refine keeps_let P ?_ (fun _ _ => ?_))
    | (intro x; clear_value x)
    | with_reducible refine State.countCe_keeps hP (hA.mono (by decide)) ?_
    | with_reducible refine State.raise_unit hP (hA.mono (by decide)) (by first | omega | (simp only [tbPage, jrnlPage, svcPage, swarmPage, eslPage, dmaPage, synPage, domPage, linkPage, dmacPage, chPage, regPage, blkPage, bankPage]; omega)) ?_
    | with_reducible refine State.countUe_keeps hP (hA.mono (by decide)) ?_
    | with_reducible refine State.bankUeRecord_keeps hP (hA.mono (by decide)) ?_
    | with_reducible refine hP.bank (hA.mono (by decide)) _ _ _ ?_
    | with_reducible refine keeps_ite ?_ ?_
    | split
    | with_reducible refine keeps_pair (by assumption) ?_
    | with_reducible refine keeps_pair₂ (by assumption) ?_

theorem State.dropFix_keeps (hP : Keeps A P) (hA : Sub 0x2000 A) {s : State} {b line : Nat} (hs : P s) : P (State.dropFix s b line) := by
  unfold State.dropFix
  repeat' first
    | with_reducible assumption
    | lift_lets -underBinder
    | (intro x; revert x; refine keeps_let P ?_ (fun _ _ => ?_))
    | (intro x; clear_value x)
    | with_reducible refine hP.bank (hA.mono (by decide)) _ _ _ ?_
    | with_reducible refine keeps_ite ?_ ?_
    | split
    | with_reducible refine keeps_pair (by assumption) ?_
    | with_reducible refine keeps_pair₂ (by assumption) ?_

theorem State.writeHalf_keeps (hP : Keeps A P) (hA : Sub 0x3000 A) {s : State} {b line half : Nat} {r : Rec} (hs : P s) : P (State.writeHalf s b line half r) := by
  unfold State.writeHalf
  repeat' first
    | with_reducible assumption
    | with_reducible refine State.dropFix_keeps hP (hA.mono (by decide)) ?_
    | with_reducible refine hP.half (hA.mono (by decide)) _ _ _ ?_

theorem State.writePoison_keeps (hP : Keeps A P) (hA : Sub 0x3000 A) {s : State} {b line half : Nat} (hs : P s) : P (State.writePoison s b line half) := by
  unfold State.writePoison
  repeat' first
    | with_reducible assumption
    | with_reducible refine State.dropFix_keeps hP (hA.mono (by decide)) ?_
    | with_reducible refine hP.half (hA.mono (by decide)) _ _ _ ?_

theorem State.injected_keeps (hP : Keeps A P) (hA : Sub 0x2000000008003eb A) {s : State} (hs : P s) : P (State.injected s) := by
  unfold State.injected
  repeat' first
    | with_reducible assumption
    | lift_lets -underBinder
    | (intro x; revert x; refine keeps_let P ?_ (fun _ _ => ?_))
    | (intro x; clear_value x)
    | with_reducible refine State.entry_keeps hP (hA.mono (by decide)) ?_
    | with_reducible refine State.setFld_keeps hP (hA.mono (by decide)) ?_

theorem State.injectHalf_keeps (hP : Keeps A P) (hA : Sub 0x2000000008013eb A) {s : State} {b line half : Nat} (hs : P s) : P (State.injectHalf s b line half) := by
  unfold State.injectHalf
  repeat' first
    | with_reducible assumption
    | lift_lets -underBinder
    | (intro x; revert x; refine keeps_let P ?_ (fun _ _ => ?_))
    | (intro x; clear_value x)
    | with_reducible refine State.injected_keeps hP (hA.mono (by decide)) ?_
    | with_reducible refine hP.half (hA.mono (by decide)) _ _ _ ?_
    | with_reducible refine keeps_ite ?_ ?_
    | split

theorem State.writeLine_keeps (hP : Keeps A P) (hA : Sub 0x2000000008033eb A) {s : State} {b line : Nat} {r0 r1 : Rec} (hs : P s) : P (State.writeLine s b line r0 r1) := by
  unfold State.writeLine
  repeat' first
    | with_reducible assumption
    | with_reducible refine State.injectHalf_keeps hP (hA.mono (by decide)) ?_
    | with_reducible refine State.writeHalf_keeps hP (hA.mono (by decide)) ?_

theorem State.partialWrite_keeps (hP : Keeps A P) (hA : Sub 0x2000000008033e9 A) {s : State} {b line half cls : Nat} {f : Rec → Rec} (hs : P s) : P (State.partialWrite s b line half cls f).2 := by
  unfold State.partialWrite
  dsimp only
  repeat' first
    | with_reducible assumption
    | lift_lets -underBinder
    | (intro x; revert x; refine keeps_let P ?_ (fun _ _ => ?_))
    | (intro x; clear_value x)
    | with_reducible refine State.error_keeps hP (hA.mono (by decide)) ?_
    | with_reducible refine State.raise_unit hP (hA.mono (by decide)) (by first | omega | (simp only [tbPage, jrnlPage, svcPage, swarmPage, eslPage, dmaPage, synPage, domPage, linkPage, dmacPage, chPage, regPage, blkPage, bankPage]; omega)) ?_
    | with_reducible refine State.writeHalf_keeps hP (hA.mono (by decide)) ?_
    | with_reducible refine State.countCe_keeps hP (hA.mono (by decide)) ?_
    | with_reducible refine State.countUe_keeps hP (hA.mono (by decide)) ?_
    | with_reducible refine State.errAddr_keeps hP (hA.mono (by decide)) ?_
    | fail_if_no_progress beta_reduce
    | split
    | with_reducible refine keeps_pair (by assumption) ?_
    | with_reducible refine keeps_pair₂ (by assumption) ?_

theorem State.bar2ReadHalves_keeps (hP : Keeps A P) (hA : Sub 0x2000000008023e9 A) {s : State} {l0 : List (Nat × Nat × Nat)} {l1 : List Dword} (hs : P s) : P (State.bar2ReadHalves s l0 l1).2 := by
  induction l0 generalizing s l1 with
  | nil =>
    unfold State.bar2ReadHalves
    repeat' first
      | with_reducible assumption
      | lift_lets -underBinder
      | (intro x; revert x; refine keeps_let P ?_ (fun _ _ => ?_))
      | (intro x; clear_value x)
      | with_reducible refine State.readHalf_keeps hP (hA.mono (by decide)) ?_
      | with_reducible refine State.violate_keeps hP (hA.mono (by decide)) ?_
      | fail_if_no_progress beta_reduce
      | with_reducible refine keeps_ite ?_ ?_
      | split
      | with_reducible refine keeps_pair (by assumption) ?_
      | with_reducible refine keeps_pair₂ (by assumption) ?_
  | cons x r ih =>
    unfold State.bar2ReadHalves
    repeat' first
      | with_reducible assumption
      | lift_lets -underBinder
      | (intro x; revert x; refine keeps_let P ?_ (fun _ _ => ?_))
      | (intro x; clear_value x)
      | with_reducible refine ih ?_
      | with_reducible refine State.readHalf_keeps hP (hA.mono (by decide)) ?_
      | with_reducible refine State.violate_keeps hP (hA.mono (by decide)) ?_
      | fail_if_no_progress beta_reduce
      | with_reducible refine keeps_ite ?_ ?_
      | split
      | with_reducible refine keeps_pair (by assumption) ?_
      | with_reducible refine keeps_pair₂ (by assumption) ?_

theorem State.bar2WriteHalves_keeps (hP : Keeps A P) (hA : Sub 0x2000000008033e9 A) {s : State} {l0 : List (Nat × Nat × Nat)} {l1 : List (BitVec 4 × Dword)} (hs : P s) : P (State.bar2WriteHalves s l0 l1) := by
  induction l0 generalizing s l1 with
  | nil =>
    unfold State.bar2WriteHalves
    repeat' first
      | with_reducible assumption
      | lift_lets -underBinder
      | (intro x; revert x; refine keeps_let P ?_ (fun _ _ => ?_))
      | (intro x; clear_value x)
      | with_reducible refine State.partialWrite_keeps hP (hA.mono (by decide)) ?_
      | with_reducible refine State.violate_keeps hP (hA.mono (by decide)) ?_
      | fail_if_no_progress beta_reduce
      | with_reducible refine keeps_ite ?_ ?_
      | split
  | cons x r ih =>
    unfold State.bar2WriteHalves
    repeat' first
      | with_reducible assumption
      | lift_lets -underBinder
      | (intro x; revert x; refine keeps_let P ?_ (fun _ _ => ?_))
      | (intro x; clear_value x)
      | with_reducible refine ih ?_
      | with_reducible refine State.partialWrite_keeps hP (hA.mono (by decide)) ?_
      | with_reducible refine State.violate_keeps hP (hA.mono (by decide)) ?_
      | fail_if_no_progress beta_reduce
      | with_reducible refine keeps_ite ?_ ?_
      | split

theorem State.bar2Write_keeps (hP : Keeps A P) (hA : Sub 0x2000000008033e9 A) {s : State} {w : Nat} {ds : List (BitVec 4 × Dword)} (hs : P s) : P (State.bar2Write s w ds) := by
  unfold State.bar2Write
  repeat' first
    | with_reducible assumption
    | with_reducible refine State.bar2WriteHalves_keeps hP (hA.mono (by decide)) ?_

theorem State.handoverDone_keeps (hP : Keeps A P) (hA : Sub 0x2000000008007e9 A) {s : State} {b : Nat} (hs : P s) : P (State.handoverDone s b) := by
  unfold State.handoverDone
  repeat' first
    | with_reducible assumption
    | lift_lets -underBinder
    | (intro x; revert x; refine keeps_let P ?_ (fun _ _ => ?_))
    | (intro x; clear_value x)
    | with_reducible refine hP.shadow (hA.mono (by decide)) _ _ _ ?_
    | with_reducible refine State.applyValue_unit hP (hA.mono (by decide)) (by first | omega | (simp only [tbPage, jrnlPage, svcPage, swarmPage, eslPage, dmaPage, synPage, domPage, linkPage, dmacPage, chPage, regPage, blkPage, bankPage]; omega)) ?_
    | with_reducible refine State.setFld_unit hP (hA.mono (by decide)) (by first | omega | (simp only [tbPage, jrnlPage, svcPage, swarmPage, eslPage, dmaPage, synPage, domPage, linkPage, dmacPage, chPage, regPage, blkPage, bankPage]; omega)) ?_
    | with_reducible refine State.post_unit hP (hA.mono (by decide)) (by first | omega | (simp only [tbPage, jrnlPage, svcPage, swarmPage, eslPage, dmaPage, synPage, domPage, linkPage, dmacPage, chPage, regPage, blkPage, bankPage]; omega)) ?_
    | with_reducible refine State.entry_keeps hP (hA.mono (by decide)) ?_
    | with_reducible refine keeps_ite ?_ ?_
    | split
    | with_reducible refine keeps_pair (by assumption) ?_
    | with_reducible refine keeps_pair₂ (by assumption) ?_

theorem State.fillGo_keeps (hP : Keeps A P) (hA : Sub 0x2000000008003e9 A) {s : State} {b : Nat} {v : Dword} {a : Agent} (hs : P s) : P (State.fillGo s b v a) := by
  unfold State.fillGo
  repeat' first
    | with_reducible assumption
    | with_reducible refine State.entry_keeps hP (hA.mono (by decide)) ?_
    | with_reducible refine State.setFld_unit hP (hA.mono (by decide)) (by first | omega | (simp only [tbPage, jrnlPage, svcPage, swarmPage, eslPage, dmaPage, synPage, domPage, linkPage, dmacPage, chPage, regPage, blkPage, bankPage]; omega)) ?_
    | with_reducible refine State.raiseWrite_unit hP (hA.mono (by decide)) (by first | omega | (simp only [tbPage, jrnlPage, svcPage, swarmPage, eslPage, dmaPage, synPage, domPage, linkPage, dmacPage, chPage, regPage, blkPage, bankPage]; omega)) ?_
    | with_reducible refine keeps_ite ?_ ?_
    | split

theorem State.fillDone_keeps (hP : Keeps A P) (hA : Sub 0x2000000008033eb A) {s : State} {b : Nat} (hs : P s) : P (State.fillDone s b) := by
  unfold State.fillDone
  repeat' first
    | with_reducible assumption
    | lift_lets -underBinder
    | (intro x; revert x; refine keeps_let P ?_ (fun _ _ => ?_))
    | (intro x; clear_value x)
    | with_reducible refine State.injectHalf_keeps hP (hA.mono (by decide)) ?_
    | with_reducible refine hP.bank (hA.mono (by decide)) _ _ _ ?_
    | with_reducible refine State.post_unit hP (hA.mono (by decide)) (by first | omega | (simp only [tbPage, jrnlPage, svcPage, swarmPage, eslPage, dmaPage, synPage, domPage, linkPage, dmacPage, chPage, regPage, blkPage, bankPage]; omega)) ?_
    | with_reducible refine State.setFld_unit hP (hA.mono (by decide)) (by first | omega | (simp only [tbPage, jrnlPage, svcPage, swarmPage, eslPage, dmaPage, synPage, domPage, linkPage, dmacPage, chPage, regPage, blkPage, bankPage]; omega)) ?_
    | with_reducible refine hP.storeKeep (hA.mono (by decide)) _ _ ?_
    | with_reducible refine hP.storeNone (hA.mono (by decide)) _ ?_
    | with_reducible refine keeps_ite ?_ ?_
    | split

theorem State.scrubHalf_keeps (hP : Keeps A P) (hA : Sub 0x2000000008013e9 A) {s : State} {b line half : Nat} (hs : P s) : P (State.scrubHalf s b line half).2 := by
  unfold State.scrubHalf
  repeat' first
    | with_reducible assumption
    | lift_lets -underBinder
    | (intro x; revert x; refine keeps_let P ?_ (fun _ _ => ?_))
    | (intro x; clear_value x)
    | with_reducible refine State.countCe_keeps hP (hA.mono (by decide)) ?_
    | with_reducible refine State.raise_unit hP (hA.mono (by decide)) (by first | omega | (simp only [tbPage, jrnlPage, svcPage, swarmPage, eslPage, dmaPage, synPage, domPage, linkPage, dmacPage, chPage, regPage, blkPage, bankPage]; omega)) ?_
    | with_reducible refine State.countUe_keeps hP (hA.mono (by decide)) ?_
    | with_reducible refine State.bankUeRecord_keeps hP (hA.mono (by decide)) ?_
    | with_reducible refine hP.half (hA.mono (by decide)) _ _ _ ?_
    | with_reducible refine keeps_ite ?_ ?_
    | split
    | with_reducible refine keeps_pair (by assumption) ?_
    | with_reducible refine keeps_pair₂ (by assumption) ?_

theorem State.scrubVisit_keeps (hP : Keeps A P) (hA : Sub 0x2000000008033e9 A) {s : State} {b : Nat} (hs : P s) : P (State.scrubVisit s b) := by
  unfold State.scrubVisit
  repeat' first
    | with_reducible assumption
    | lift_lets -underBinder
    | (intro x; revert x; refine keeps_let P ?_ (fun _ _ => ?_))
    | (intro x; clear_value x)
    | with_reducible refine State.scrubHalf_keeps hP (hA.mono (by decide)) ?_
    | with_reducible refine hP.bank (hA.mono (by decide)) _ _ _ ?_
    | with_reducible refine State.post_unit hP (hA.mono (by decide)) (by first | omega | (simp only [tbPage, jrnlPage, svcPage, swarmPage, eslPage, dmaPage, synPage, domPage, linkPage, dmacPage, chPage, regPage, blkPage, bankPage]; omega)) ?_
    | with_reducible refine State.addSat_unit hP (hA.mono (by decide)) (by first | omega | (simp only [tbPage, jrnlPage, svcPage, swarmPage, eslPage, dmaPage, synPage, domPage, linkPage, dmacPage, chPage, regPage, blkPage, bankPage]; omega)) ?_
    | with_reducible refine keeps_ite ?_ ?_
    | split
    | with_reducible refine keeps_pair (by assumption) ?_
    | with_reducible refine keeps_pair₂ (by assumption) ?_

theorem State.upsetHalves_keeps (hP : Keeps A P) (hA : Sub 0x1000 A) {s : State} {b : Nat} {l : List (BitVec 14 × Bool × List (BitVec 7))} (hs : P s) : P (State.upsetHalves s b l) := by
  unfold State.upsetHalves
  repeat' first
    | with_reducible assumption
    | lift_lets -underBinder
    | (intro x; revert x; refine keeps_let P ?_ (fun _ _ => ?_))
    | (intro x; clear_value x)
    | with_reducible refine hP.half (hA.mono (by decide)) _ _ _ ?_
    | with_reducible refine keeps_foldl _ (fun _ _ _ => ?_) ?_
    | fail_if_no_progress beta_reduce

theorem State.scrubBank_keeps (hP : Keeps A P) (hA : Sub 0x2000000008033e9 A) {s : State} {b : Nat} {l : List (BitVec 14 × Bool × List (BitVec 7))} (hs : P s) : P (State.scrubBank s b l) := by
  unfold State.scrubBank
  repeat' first
    | with_reducible assumption
    | with_reducible refine State.scrubVisit_keeps hP (hA.mono (by decide)) ?_
    | with_reducible refine State.upsetHalves_keeps hP (hA.mono (by decide)) ?_
    | with_reducible refine keeps_ite ?_ ?_
    | split

theorem State.scrubWriteback_keeps (hP : Keeps A P) (hA : Sub 0x2000000008033eb A) {s : State} {b : Nat} (hs : P s) : P (State.scrubWriteback s b) := by
  unfold State.scrubWriteback
  dsimp only
  repeat' first
    | with_reducible assumption
    | lift_lets -underBinder
    | (intro x; revert x; refine keeps_let P ?_ (fun _ _ => ?_))
    | (intro x; clear_value x)
    | with_reducible refine State.injectHalf_keeps hP (hA.mono (by decide)) ?_
    | with_reducible refine hP.half (hA.mono (by decide)) _ _ _ ?_
    | with_reducible refine hP.bank (hA.mono (by decide)) _ _ _ ?_
    | fail_if_no_progress beta_reduce
    | with_reducible refine keeps_ite ?_ ?_
    | split
    | with_reducible refine keeps_pair (by assumption) ?_
    | with_reducible refine keeps_pair₂ (by assumption) ?_

theorem State.leaveSerial_keeps (hP : Keeps A P) (hA : Sub 0x1 A) {s : State} {c : Nat} (hs : P s) : P (State.leaveSerial s c) := by
  unfold State.leaveSerial
  repeat' first
    | with_reducible assumption
    | with_reducible refine State.setFld_unit hP (hA.mono (by decide)) (by first | omega | (simp only [tbPage, jrnlPage, svcPage, swarmPage, eslPage, dmaPage, synPage, domPage, linkPage, dmacPage, chPage, regPage, blkPage, bankPage]; omega)) ?_
    | with_reducible refine keeps_ite ?_ ?_
    | split

theorem State.applyDmac_keeps (hP : Keeps A P) (hA : Sub 0x2000000008007e9 A) {s : State} {c : Nat} (hs : P s) : P (State.applyDmac s c) := by
  unfold State.applyDmac
  repeat' first
    | with_reducible assumption
    | lift_lets -underBinder
    | (intro x; revert x; refine keeps_let P ?_ (fun _ _ => ?_))
    | (intro x; clear_value x)
    | with_reducible refine State.applyValue_unit hP (hA.mono (by decide)) (by first | omega | (simp only [tbPage, jrnlPage, svcPage, swarmPage, eslPage, dmaPage, synPage, domPage, linkPage, dmacPage, chPage, regPage, blkPage, bankPage]; omega)) ?_
    | with_reducible refine hP.shadow (hA.mono (by decide)) _ _ _ ?_
    | with_reducible refine State.entry_keeps hP (hA.mono (by decide)) ?_
    | split
    | with_reducible refine keeps_pair (by assumption) ?_
    | with_reducible refine keeps_pair₂ (by assumption) ?_

theorem State.satisfied_keeps (hP : Keeps A P) (hA : Sub 0x10 A) {s : State} {c : Nat} (hs : P s) : P (State.satisfied s c) := by
  unfold State.satisfied
  repeat' first
    | with_reducible assumption
    | with_reducible refine hP.dma (hA.mono (by decide)) _ _ _ ?_

theorem State.dropMoves_keeps (hP : Keeps A P) (hA : Sub 0x20000000000000 A) {s : State} {c : Nat} (hs : P s) : P (State.dropMoves s c) := by
  unfold State.dropMoves
  repeat' first
    | with_reducible assumption
    | (rw [State.mk_reqs]; apply hP.reqs (hA.mono (by decide)))

theorem State.dropAll_keeps (hP : Keeps A P) (hA : Sub 0x20000000000000 A) {s : State} {c : Nat} (hs : P s) : P (State.dropAll s c) := by
  unfold State.dropAll
  repeat' first
    | with_reducible assumption
    | (rw [State.mk_reqs]; apply hP.reqs (hA.mono (by decide)))

theorem State.issueReq_keeps (hP : Keeps A P) (hA : Sub 0x10 A) {s : State} {c : Nat} (hs : P s) : P (State.issueReq s c) := by
  unfold State.issueReq
  repeat' first
    | with_reducible assumption
    | with_reducible refine State.satisfied_keeps hP (hA.mono (by decide)) ?_
    | with_reducible refine keeps_ite ?_ ?_
    | split

theorem State.setDState_keeps (hP : Keeps A P) (hA : Sub 0x2000000008007f9 A) {s : State} {c x : Nat} (hs : P s) : P (State.setDState s c x) := by
  unfold State.setDState
  repeat' first
    | with_reducible assumption
    | lift_lets -underBinder
    | (intro x; revert x; refine keeps_let P ?_ (fun _ _ => ?_))
    | (intro x; clear_value x)
    | with_reducible refine State.setFld_unit hP (hA.mono (by decide)) (by first | omega | (simp only [tbPage, jrnlPage, svcPage, swarmPage, eslPage, dmaPage, synPage, domPage, linkPage, dmacPage, chPage, regPage, blkPage, bankPage]; omega)) ?_
    | with_reducible refine State.satisfied_keeps hP (hA.mono (by decide)) ?_
    | with_reducible refine State.applyDmac_keeps hP (hA.mono (by decide)) ?_
    | with_reducible refine State.leaveSerial_keeps hP (hA.mono (by decide)) ?_
    | with_reducible refine keeps_ite ?_ ?_
    | split

theorem State.startFetch_keeps (hP : Keeps A P) (hA : Sub 0x18 A) {s : State} {c : Nat} {second : Bool} (hs : P s) : P (State.startFetch s c second) := by
  unfold State.startFetch
  repeat' first
    | with_reducible assumption
    | lift_lets -underBinder
    | (intro x; revert x; refine keeps_let P ?_ (fun _ _ => ?_))
    | (intro x; clear_value x)
    | with_reducible refine hP.dma (hA.mono (by decide)) _ _ _ ?_
    | with_reducible refine hP.send (hA.mono (by decide)) _ _ ?_
    | with_reducible refine State.issueReq_keeps hP (hA.mono (by decide)) ?_
    | with_reducible refine keeps_ite ?_ ?_
    | split

theorem State.writeBack_keeps (hP : Keeps A P) (hA : Sub 0x220000000000039 A) {s : State} {c : Nat} {d : Desc} {status : Nat} {t : DTime} (hs : P s) : P (State.writeBack s c d status t) := by
  unfold State.writeBack
  repeat' first
    | with_reducible assumption
    | lift_lets -underBinder
    | (intro x; revert x; refine keeps_let P ?_ (fun _ _ => ?_))
    | (intro x; clear_value x)
    | with_reducible refine hP.send (hA.mono (by decide)) _ _ ?_
    | with_reducible refine State.setFld_unit hP (hA.mono (by decide)) (by first | omega | (simp only [tbPage, jrnlPage, svcPage, swarmPage, eslPage, dmaPage, synPage, domPage, linkPage, dmacPage, chPage, regPage, blkPage, bankPage]; omega)) ?_
    | with_reducible refine State.addWrap_unit hP (hA.mono (by decide)) (by first | omega | (simp only [tbPage, jrnlPage, svcPage, swarmPage, eslPage, dmaPage, synPage, domPage, linkPage, dmacPage, chPage, regPage, blkPage, bankPage]; omega)) ?_
    | with_reducible refine State.setPair_unit hP (hA.mono (by decide)) (by first | omega | (simp only [tbPage, jrnlPage, svcPage, swarmPage, eslPage, dmaPage, synPage, domPage, linkPage, dmacPage, chPage, regPage, blkPage, bankPage]; omega)) ?_
    | with_reducible refine hP.dma (hA.mono (by decide)) _ _ _ ?_
    | with_reducible refine State.dropMoves_keeps hP (hA.mono (by decide)) ?_
    | with_reducible refine State.post_unit hP (hA.mono (by decide)) (by first | omega | (simp only [tbPage, jrnlPage, svcPage, swarmPage, eslPage, dmaPage, synPage, domPage, linkPage, dmacPage, chPage, regPage, blkPage, bankPage]; omega)) ?_
    | with_reducible refine keeps_ite ?_ ?_
    | split

theorem State.abortEnds_keeps (hP : Keeps A P) (hA : Sub 0x2000000008003e9 A) {s : State} {c : Nat} (hs : P s) : P (State.abortEnds s c) := by
  unfold State.abortEnds
  repeat' first
    | with_reducible assumption
    | with_reducible refine State.unitEvent_keeps hP (hA.mono (by decide)) ?_
    | with_reducible refine State.post_unit hP (hA.mono (by decide)) (by first | omega | (simp only [tbPage, jrnlPage, svcPage, swarmPage, eslPage, dmaPage, synPage, domPage, linkPage, dmacPage, chPage, regPage, blkPage, bankPage]; omega)) ?_
    | with_reducible refine State.setFld_unit hP (hA.mono (by decide)) (by first | omega | (simp only [tbPage, jrnlPage, svcPage, swarmPage, eslPage, dmaPage, synPage, domPage, linkPage, dmacPage, chPage, regPage, blkPage, bankPage]; omega)) ?_

theorem State.haltCh_keeps (hP : Keeps A P) (hA : Sub 0x2200000008007f9 A) {s : State} {c : Nat} {err : Fld} (hs : P s) : P (State.haltCh s c err) := by
  unfold State.haltCh
  repeat' first
    | with_reducible assumption
    | lift_lets -underBinder
    | (intro x; revert x; refine keeps_let P ?_ (fun _ _ => ?_))
    | (intro x; clear_value x)
    | with_reducible refine State.dropAll_keeps hP (hA.mono (by decide)) ?_
    | with_reducible refine hP.dma (hA.mono (by decide)) _ _ _ ?_
    | with_reducible refine State.abortEnds_keeps hP (hA.mono (by decide)) ?_
    | with_reducible refine State.post_unit hP (hA.mono (by decide)) (by first | omega | (simp only [tbPage, jrnlPage, svcPage, swarmPage, eslPage, dmaPage, synPage, domPage, linkPage, dmacPage, chPage, regPage, blkPage, bankPage]; omega)) ?_
    | with_reducible refine State.raise_unit hP (hA.mono (by decide)) (by first | omega | (simp only [tbPage, jrnlPage, svcPage, swarmPage, eslPage, dmaPage, synPage, domPage, linkPage, dmacPage, chPage, regPage, blkPage, bankPage]; omega)) ?_
    | with_reducible refine State.setDState_keeps hP (hA.mono (by decide)) ?_
    | with_reducible refine keeps_ite ?_ ?_
    | split

theorem State.takeDoorbell_keeps (hP : Keeps A P) (hA : Sub 0x2000000008007f9 A) {s : State} {c : Nat} (hs : P s) : P (State.takeDoorbell s c) := by
  unfold State.takeDoorbell
  repeat' first
    | with_reducible assumption
    | with_reducible refine State.startFetch_keeps hP (hA.mono (by decide)) ?_
    | with_reducible refine State.setDState_keeps hP (hA.mono (by decide)) ?_
    | with_reducible refine State.setFld_unit hP (hA.mono (by decide)) (by first | omega | (simp only [tbPage, jrnlPage, svcPage, swarmPage, eslPage, dmaPage, synPage, domPage, linkPage, dmacPage, chPage, regPage, blkPage, bankPage]; omega)) ?_
    | with_reducible refine keeps_ite ?_ ?_
    | split

theorem State.idleCh_keeps (hP : Keeps A P) (hA : Sub 0x2200000008007f9 A) {s : State} {c : Nat} (hs : P s) : P (State.idleCh s c) := by
  unfold State.idleCh
  repeat' first
    | with_reducible assumption
    | lift_lets -underBinder
    | (intro x; revert x; refine keeps_let P ?_ (fun _ _ => ?_))
    | (intro x; clear_value x)
    | with_reducible refine State.setDState_keeps hP (hA.mono (by decide)) ?_
    | with_reducible refine State.dropAll_keeps hP (hA.mono (by decide)) ?_
    | with_reducible refine hP.dma (hA.mono (by decide)) _ _ _ ?_

theorem State.nextDesc_keeps (hP : Keeps A P) (hA : Sub 0x2200000008007f9 A) {s : State} {c : Nat} {begin : Desc → State → State} (hs : P s) (hbegin : ∀ (x0 : Desc) (x1 : State), P x1 → P (begin x0 x1)) : P (State.nextDesc s c begin) := by
  unfold State.nextDesc
  repeat' first
    | with_reducible assumption
    | lift_lets -underBinder
    | (intro x; revert x; refine keeps_let P ?_ (fun _ _ => ?_))
    | (intro x; clear_value x)
    | with_reducible refine State.applyDmac_keeps hP (hA.mono (by decide)) ?_
    | with_reducible refine hP.dma (hA.mono (by decide)) _ _ _ ?_
    | with_reducible refine State.startFetch_keeps hP (hA.mono (by decide)) ?_
    | with_reducible refine State.idleCh_keeps hP (hA.mono (by decide)) ?_
    | with_reducible refine State.addWrap_unit hP (hA.mono (by decide)) (by first | omega | (simp only [tbPage, jrnlPage, svcPage, swarmPage, eslPage, dmaPage, synPage, domPage, linkPage, dmacPage, chPage, regPage, blkPage, bankPage]; omega)) ?_
    | with_reducible refine hbegin _ _ ?_
    | with_reducible refine keeps_ite ?_ ?_
    | split
    | with_reducible refine keeps_pair (by assumption) ?_
    | with_reducible refine keeps_pair₂ (by assumption) ?_

theorem State.beginDesc_keeps (hP : Keeps A P) (hA : Sub 0x2200000008007f9 A) {s : State} {c : Nat} {l0 : Nat} {l1 : Desc} (hs : P s) : P (State.beginDesc s c l0 l1) := by
  induction l0 generalizing s l1 with
  | zero =>
    unfold State.beginDesc
    repeat' first
      | with_reducible assumption
      | lift_lets -underBinder
      | (intro x; revert x; refine keeps_let P ?_ (fun _ _ => ?_))
      | (intro x; clear_value x)
      | with_reducible refine State.haltCh_keeps hP (hA.mono (by decide)) ?_
      | with_reducible refine State.writeBack_keeps hP (hA.mono (by decide)) ?_
      | with_reducible refine State.nextDesc_keeps hP (hA.mono (by decide)) ?_ (fun _ _ _ => ?_)
      | with_reducible refine hP.dma (hA.mono (by decide)) _ _ _ ?_
      | with_reducible refine hP.wr (hA.mono (by decide)) _ _ _ (by first | omega | (simp only [tbPage, jrnlPage, svcPage, swarmPage, eslPage, dmaPage, synPage, domPage, linkPage, dmacPage, chPage, regPage, blkPage, bankPage]; omega)) ?_
      | with_reducible refine State.setPair_unit hP (hA.mono (by decide)) (by first | omega | (simp only [tbPage, jrnlPage, svcPage, swarmPage, eslPage, dmaPage, synPage, domPage, linkPage, dmacPage, chPage, regPage, blkPage, bankPage]; omega)) ?_
      | with_reducible refine State.startFetch_keeps hP (hA.mono (by decide)) ?_
      | fail_if_no_progress beta_reduce
      | with_reducible refine keeps_ite ?_ ?_
      | split
  | succ m ih =>
    unfold State.beginDesc
    repeat' first
      | with_reducible assumption
      | lift_lets -underBinder
      | (intro x; revert x; refine keeps_let P ?_ (fun _ _ => ?_))
      | (intro x; clear_value x)
      | with_reducible refine ih ?_
      | with_reducible refine State.haltCh_keeps hP (hA.mono (by decide)) ?_
      | with_reducible refine State.writeBack_keeps hP (hA.mono (by decide)) ?_
      | with_reducible refine State.nextDesc_keeps hP (hA.mono (by decide)) ?_ (fun _ _ _ => ?_)
      | with_reducible refine hP.dma (hA.mono (by decide)) _ _ _ ?_
      | with_reducible refine hP.wr (hA.mono (by decide)) _ _ _ (by first | omega | (simp only [tbPage, jrnlPage, svcPage, swarmPage, eslPage, dmaPage, synPage, domPage, linkPage, dmacPage, chPage, regPage, blkPage, bankPage]; omega)) ?_
      | with_reducible refine State.setPair_unit hP (hA.mono (by decide)) (by first | omega | (simp only [tbPage, jrnlPage, svcPage, swarmPage, eslPage, dmaPage, synPage, domPage, linkPage, dmacPage, chPage, regPage, blkPage, bankPage]; omega)) ?_
      | with_reducible refine State.startFetch_keeps hP (hA.mono (by decide)) ?_
      | fail_if_no_progress beta_reduce
      | with_reducible refine keeps_ite ?_ ?_
      | split

theorem State.begin_keeps (hP : Keeps A P) (hA : Sub 0x2200000008007f9 A) {s : State} {c : Nat} {d : Desc} (hs : P s) : P (State.begin s c d) := by
  unfold State.begin
  repeat' first
    | with_reducible assumption
    | with_reducible refine State.beginDesc_keeps hP (hA.mono (by decide)) ?_

theorem State.nextOf_keeps (hP : Keeps A P) (hA : Sub 0x2200000008007f9 A) {s : State} {c : Nat} (hs : P s) : P (State.nextOf s c) := by
  unfold State.nextOf
  repeat' first
    | with_reducible assumption
    | with_reducible refine State.nextDesc_keeps hP (hA.mono (by decide)) ?_ (fun _ _ _ => ?_)
    | with_reducible refine State.begin_keeps hP (hA.mono (by decide)) ?_

theorem State.goOn_keeps (hP : Keeps A P) (hA : Sub 0x2200000008007f9 A) {s : State} {c : Nat} (hs : P s) : P (State.goOn s c) := by
  unfold State.goOn
  repeat' first
    | with_reducible assumption
    | lift_lets -underBinder
    | (intro x; revert x; refine keeps_let P ?_ (fun _ _ => ?_))
    | (intro x; clear_value x)
    | with_reducible refine State.nextOf_keeps hP (hA.mono (by decide)) ?_
    | with_reducible refine State.startFetch_keeps hP (hA.mono (by decide)) ?_
    | with_reducible refine keeps_ite ?_ ?_
    | split
    | with_reducible refine keeps_pair (by assumption) ?_
    | with_reducible refine keeps_pair₂ (by assumption) ?_

theorem State.fetchUse_keeps (hP : Keeps A P) (hA : Sub 0x2200000008007f9 A) {s : State} {c : Nat} {r : FetchResult} (hs : P s) : P (State.fetchUse s c r) := by
  unfold State.fetchUse
  repeat' first
    | with_reducible assumption
    | lift_lets -underBinder
    | (intro x; revert x; refine keeps_let P ?_ (fun _ _ => ?_))
    | (intro x; clear_value x)
    | with_reducible refine State.satisfied_keeps hP (hA.mono (by decide)) ?_
    | with_reducible refine hP.dma (hA.mono (by decide)) _ _ _ ?_
    | with_reducible refine State.setFld_unit hP (hA.mono (by decide)) (by first | omega | (simp only [tbPage, jrnlPage, svcPage, swarmPage, eslPage, dmaPage, synPage, domPage, linkPage, dmacPage, chPage, regPage, blkPage, bankPage]; omega)) ?_
    | with_reducible refine State.haltCh_keeps hP (hA.mono (by decide)) ?_
    | with_reducible refine State.nextOf_keeps hP (hA.mono (by decide)) ?_
    | with_reducible refine keeps_ite ?_ ?_
    | split
    | with_reducible refine keeps_pair (by assumption) ?_
    | with_reducible refine keeps_pair₂ (by assumption) ?_

theorem State.fetchReport_keeps (hP : Keeps A P) (hA : Sub 0x200000000000029 A) {s : State} {r : FetchResult} (hs : P s) : P (State.fetchReport s r) := by
  unfold State.fetchReport
  repeat' first
    | with_reducible assumption
    | with_reducible refine State.badCompletion_keeps hP (hA.mono (by decide)) ?_
    | split
    | with_reducible refine keeps_pair (by assumption) ?_
    | with_reducible refine keeps_pair₂ (by assumption) ?_

theorem State.fetchDone_keeps (hP : Keeps A P) (hA : Sub 0x2200000008007f9 A) {s : State} {c : Nat} {r : FetchResult} (hs : P s) : P (State.fetchDone s c r) := by
  unfold State.fetchDone
  repeat' first
    | with_reducible assumption
    | lift_lets -underBinder
    | (intro x; revert x; refine keeps_let P ?_ (fun _ _ => ?_))
    | (intro x; clear_value x)
    | with_reducible refine hP.dma (hA.mono (by decide)) _ _ _ ?_
    | with_reducible refine State.fetchReport_keeps hP (hA.mono (by decide)) ?_
    | with_reducible refine State.unexpected_keeps hP (hA.mono (by decide)) ?_
    | with_reducible refine State.fetchUse_keeps hP (hA.mono (by decide)) ?_
    | with_reducible refine keeps_ite ?_ ?_
    | split

theorem State.doorbell_keeps (hP : Keeps A P) (hA : Sub 0x2000000008007f9 A) {s : State} {c : Nat} {pi : Nat} (hs : P s) : P (State.doorbell s c pi) := by
  unfold State.doorbell
  repeat' first
    | with_reducible assumption
    | lift_lets -underBinder
    | (intro x; revert x; refine keeps_let P ?_ (fun _ _ => ?_))
    | (intro x; clear_value x)
    | with_reducible refine State.setFld_unit hP (hA.mono (by decide)) (by first | omega | (simp only [tbPage, jrnlPage, svcPage, swarmPage, eslPage, dmaPage, synPage, domPage, linkPage, dmacPage, chPage, regPage, blkPage, bankPage]; omega)) ?_
    | with_reducible refine State.startFetch_keeps hP (hA.mono (by decide)) ?_
    | with_reducible refine State.setDState_keeps hP (hA.mono (by decide)) ?_
    | with_reducible refine hP.dma (hA.mono (by decide)) _ _ _ ?_
    | with_reducible refine keeps_ite ?_ ?_
    | split

theorem State.moveOut_keeps (hP : Keeps A P) (hA : Sub 0x2000000008023e9 A) {s : State} {c fmt : Nat} {l0 : List (Nat × Nat × Nat)} {l1 : List (BitVec 8)} {l2 : Nat} {l3 : Nat} (hs : P s) : P (State.moveOut s c fmt l0 l1 l2 l3).2.2.2.2 := by
  induction l0 generalizing s l1 l2 l3 with
  | nil =>
    unfold State.moveOut
    repeat' first
      | with_reducible assumption
      | lift_lets -underBinder
      | (intro x; revert x; refine keeps_let P ?_ (fun _ _ => ?_))
      | (intro x; clear_value x)
      | with_reducible refine State.violate_keeps hP (hA.mono (by decide)) ?_
      | with_reducible refine State.readHalf_keeps hP (hA.mono (by decide)) ?_
      | split
      | with_reducible refine keeps_pair (by assumption) ?_
      | with_reducible refine keeps_pair₂ (by assumption) ?_
  | cons x r ih =>
    unfold State.moveOut
    repeat' first
      | with_reducible assumption
      | lift_lets -underBinder
      | (intro x; revert x; refine keeps_let P ?_ (fun _ _ => ?_))
      | (intro x; clear_value x)
      | with_reducible refine ih ?_
      | with_reducible refine State.violate_keeps hP (hA.mono (by decide)) ?_
      | with_reducible refine State.readHalf_keeps hP (hA.mono (by decide)) ?_
      | split
      | with_reducible refine keeps_pair (by assumption) ?_
      | with_reducible refine keeps_pair₂ (by assumption) ?_

theorem State.moveIn_keeps (hP : Keeps A P) (hA : Sub 0x2000000008033eb A) {s : State} {l0 : List (Nat × Nat × Nat)} {l1 : List Word} {l2 : Nat} {l3 : Nat} (hs : P s) : P (State.moveIn s l0 l1 l2 l3).2.2.2 := by
  induction l0 generalizing s l1 l2 l3 with
  | nil =>
    unfold State.moveIn
    repeat' first
      | with_reducible assumption
      | lift_lets -underBinder
      | (intro x; revert x; refine keeps_let P ?_ (fun _ _ => ?_))
      | (intro x; clear_value x)
      | with_reducible refine State.violate_keeps hP (hA.mono (by decide)) ?_
      | with_reducible refine State.injectHalf_keeps hP (hA.mono (by decide)) ?_
      | with_reducible refine State.writeHalf_keeps hP (hA.mono (by decide)) ?_
      | with_reducible refine State.partialWrite_keeps hP (hA.mono (by decide)) ?_
      | with_reducible refine keeps_ite ?_ ?_
      | split
      | with_reducible refine keeps_pair (by assumption) ?_
      | with_reducible refine keeps_pair₂ (by assumption) ?_
  | cons x r ih =>
    unfold State.moveIn
    repeat' first
      | with_reducible assumption
      | lift_lets -underBinder
      | (intro x; revert x; refine keeps_let P ?_ (fun _ _ => ?_))
      | (intro x; clear_value x)
      | with_reducible refine ih ?_
      | with_reducible refine State.violate_keeps hP (hA.mono (by decide)) ?_
      | with_reducible refine State.injectHalf_keeps hP (hA.mono (by decide)) ?_
      | with_reducible refine State.writeHalf_keeps hP (hA.mono (by decide)) ?_
      | with_reducible refine State.partialWrite_keeps hP (hA.mono (by decide)) ?_
      | with_reducible refine keeps_ite ?_ ?_
      | split
      | with_reducible refine keeps_pair (by assumption) ?_
      | with_reducible refine keeps_pair₂ (by assumption) ?_

theorem State.dmaServed_keeps (hP : Keeps A P) (hA : Sub 0x100000000000000 A) {s : State} {c : Nat} (hs : P s) : P (State.dmaServed s c) := by
  unfold State.dmaServed
  repeat' first
    | with_reducible assumption
    | (rw [State.mk_dmaTurn]; apply hP.dmaTurn (hA.mono (by decide)))

theorem State.chooseSerial_keeps (hP : Keeps A P) (hA : Sub 0x3200000008007f9 A) {s : State} {l0 : Nat} (hs : P s) : P (State.chooseSerial s l0) := by
  induction l0 generalizing s with
  | zero =>
    unfold State.chooseSerial
    repeat' first
      | with_reducible assumption
      | with_reducible refine State.goOn_keeps hP (hA.mono (by decide)) ?_
      | with_reducible refine State.setFld_unit hP (hA.mono (by decide)) (by first | omega | (simp only [tbPage, jrnlPage, svcPage, swarmPage, eslPage, dmaPage, synPage, domPage, linkPage, dmacPage, chPage, regPage, blkPage, bankPage]; omega)) ?_
      | with_reducible refine keeps_ite ?_ ?_
      | split
      | (rw [State.mk_dmaTurn]; apply hP.dmaTurn (hA.mono (by decide)))
      | with_reducible refine keeps_pair (by assumption) ?_
      | with_reducible refine keeps_pair₂ (by assumption) ?_
  | succ m ih =>
    unfold State.chooseSerial
    repeat' first
      | with_reducible assumption
      | with_reducible refine ih ?_
      | with_reducible refine State.goOn_keeps hP (hA.mono (by decide)) ?_
      | with_reducible refine State.setFld_unit hP (hA.mono (by decide)) (by first | omega | (simp only [tbPage, jrnlPage, svcPage, swarmPage, eslPage, dmaPage, synPage, domPage, linkPage, dmacPage, chPage, regPage, blkPage, bankPage]; omega)) ?_
      | with_reducible refine keeps_ite ?_ ?_
      | split
      | (rw [State.mk_dmaTurn]; apply hP.dmaTurn (hA.mono (by decide)))
      | with_reducible refine keeps_pair (by assumption) ?_
      | with_reducible refine keeps_pair₂ (by assumption) ?_

theorem State.askHost_keeps (hP : Keeps A P) (hA : Sub 0x100000000000018 A) {s : State} {c : Nat} (hs : P s) : P (State.askHost s c) := by
  unfold State.askHost
  repeat' first
    | with_reducible assumption
    | lift_lets -underBinder
    | (intro x; revert x; refine keeps_let P ?_ (fun _ _ => ?_))
    | (intro x; clear_value x)
    | with_reducible refine State.issueReq_keeps hP (hA.mono (by decide)) ?_
    | with_reducible refine State.dmaServed_keeps hP (hA.mono (by decide)) ?_
    | with_reducible refine hP.send (hA.mono (by decide)) _ _ ?_
    | with_reducible refine hP.dma (hA.mono (by decide)) _ _ _ ?_
    | split
    | with_reducible refine keeps_pair (by assumption) ?_
    | with_reducible refine keeps_pair₂ (by assumption) ?_

theorem State.askReads_keeps (hP : Keeps A P) (hA : Sub 0x100000000000018 A) {s : State} {l0 : Nat} (hs : P s) : P (State.askReads s l0) := by
  induction l0 generalizing s with
  | zero =>
    unfold State.askReads
    repeat' first
      | with_reducible assumption
      | with_reducible refine State.askHost_keeps hP (hA.mono (by decide)) ?_
      | split
      | with_reducible refine keeps_pair (by assumption) ?_
      | with_reducible refine keeps_pair₂ (by assumption) ?_
  | succ m ih =>
    unfold State.askReads
    repeat' first
      | with_reducible assumption
      | with_reducible refine ih ?_
      | with_reducible refine State.askHost_keeps hP (hA.mono (by decide)) ?_
      | split
      | with_reducible refine keeps_pair (by assumption) ?_
      | with_reducible refine keeps_pair₂ (by assumption) ?_

theorem State.dmaServe_keeps (hP : Keeps A P) (hA : Sub 0x3200000008007f9 A) {s : State} (hs : P s) : P (State.dmaServe s) := by
  unfold State.dmaServe
  repeat' first
    | with_reducible assumption
    | with_reducible refine State.askReads_keeps hP (hA.mono (by decide)) ?_
    | with_reducible refine State.chooseSerial_keeps hP (hA.mono (by decide)) ?_
    | with_reducible refine State.goOn_keeps hP (hA.mono (by decide)) ?_
    | with_reducible refine keeps_foldl _ (fun _ _ _ => ?_) ?_

theorem State.moved_keeps (hP : Keeps A P) (hA : Sub 0x200000000000039 A) {s : State} {c : Nat} {d : Desc} {bytes poisoned refused : Nat} {buf : List (BitVec 8)} (hs : P s) : P (State.moved s c d bytes poisoned refused buf) := by
  unfold State.moved
  repeat' first
    | with_reducible assumption
    | lift_lets -underBinder
    | (intro x; revert x; refine keeps_let P ?_ (fun _ _ => ?_))
    | (intro x; clear_value x)
    | with_reducible refine State.setFld_unit hP (hA.mono (by decide)) (by first | omega | (simp only [tbPage, jrnlPage, svcPage, swarmPage, eslPage, dmaPage, synPage, domPage, linkPage, dmacPage, chPage, regPage, blkPage, bankPage]; omega)) ?_
    | with_reducible refine State.setPair_unit hP (hA.mono (by decide)) (by first | omega | (simp only [tbPage, jrnlPage, svcPage, swarmPage, eslPage, dmaPage, synPage, domPage, linkPage, dmacPage, chPage, regPage, blkPage, bankPage]; omega)) ?_
    | with_reducible refine State.addSat_unit hP (hA.mono (by decide)) (by first | omega | (simp only [tbPage, jrnlPage, svcPage, swarmPage, eslPage, dmaPage, synPage, domPage, linkPage, dmacPage, chPage, regPage, blkPage, bankPage]; omega)) ?_
    | with_reducible refine State.satisfied_keeps hP (hA.mono (by decide)) ?_
    | with_reducible refine hP.dma (hA.mono (by decide)) _ _ _ ?_
    | with_reducible refine State.raise_unit hP (hA.mono (by decide)) (by first | omega | (simp only [tbPage, jrnlPage, svcPage, swarmPage, eslPage, dmaPage, synPage, domPage, linkPage, dmacPage, chPage, regPage, blkPage, bankPage]; omega)) ?_
    | with_reducible refine hP.send (hA.mono (by decide)) _ _ ?_
    | with_reducible refine keeps_ite ?_ ?_
    | split

theorem State.writeHost_keeps (hP : Keeps A P) (hA : Sub 0x8 A) {s : State} {m : Nat} {l0 : Nat} {l1 : Nat} {l2 : List (BitVec 8)} (hs : P s) : P (State.writeHost s m l0 l1 l2) := by
  induction l0 generalizing s l1 l2 with
  | zero =>
    unfold State.writeHost
    repeat' first
      | with_reducible assumption
      | lift_lets -underBinder
      | (intro x; revert x; refine keeps_let P ?_ (fun _ _ => ?_))
      | (intro x; clear_value x)
      | with_reducible refine hP.send (hA.mono (by decide)) _ _ ?_
      | with_reducible refine keeps_ite ?_ ?_
      | split
  | succ m ih =>
    unfold State.writeHost
    repeat' first
      | with_reducible assumption
      | lift_lets -underBinder
      | (intro x; revert x; refine keeps_let P ?_ (fun _ _ => ?_))
      | (intro x; clear_value x)
      | with_reducible refine ih ?_
      | with_reducible refine hP.send (hA.mono (by decide)) _ _ ?_
      | with_reducible refine keeps_ite ?_ ?_
      | split

theorem State.markViolated_keeps (hP : Keeps A P) (hA : Sub 0x10 A) {s : State} {c : Nat} {e : MoveEnd} (hs : P s) : P (State.markViolated s c e) := by
  unfold State.markViolated
  repeat' first
    | with_reducible assumption
    | lift_lets -underBinder
    | (intro x; revert x; refine keeps_let P ?_ (fun _ _ => ?_))
    | (intro x; clear_value x)
    | with_reducible refine hP.dma (hA.mono (by decide)) _ _ _ ?_
    | with_reducible refine keeps_foldl _ (fun _ _ _ => ?_) ?_
    | fail_if_no_progress beta_reduce
    | with_reducible refine keeps_ite ?_ ?_
    | split

theorem State.bufToHost_keeps (hP : Keeps A P) (hA : Sub 0x200000000000039 A) {s : State} {c : Nat} {d : Desc} {data : List (BitVec 8)} {n poisoned : Nat} (hs : P s) : P (State.bufToHost s c d data n poisoned) := by
  unfold State.bufToHost
  repeat' first
    | with_reducible assumption
    | lift_lets -underBinder
    | (intro x; revert x; refine keeps_let P ?_ (fun _ _ => ?_))
    | (intro x; clear_value x)
    | with_reducible refine State.moved_keeps hP (hA.mono (by decide)) ?_
    | with_reducible refine State.writeHost_keeps hP (hA.mono (by decide)) ?_

theorem State.moveToHost_keeps (hP : Keeps A P) (hA : Sub 0x3000000008023f9 A) {s : State} {c : Nat} {d : Desc} (hs : P s) : P (State.moveToHost s c d) := by
  unfold State.moveToHost
  repeat' first
    | with_reducible assumption
    | lift_lets -underBinder
    | (intro x; revert x; refine keeps_let P ?_ (fun _ _ => ?_))
    | (intro x; clear_value x)
    | with_reducible refine State.moveOut_keeps hP (hA.mono (by decide)) ?_
    | with_reducible refine State.dmaServed_keeps hP (hA.mono (by decide)) ?_
    | with_reducible refine State.markViolated_keeps hP (hA.mono (by decide)) ?_
    | with_reducible refine State.bufToHost_keeps hP (hA.mono (by decide)) ?_
    | split
    | with_reducible refine keeps_pair (by assumption) ?_
    | with_reducible refine keeps_pair₂ (by assumption) ?_

theorem State.moveToStore_keeps (hP : Keeps A P) (hA : Sub 0x3000000008033fb A) {s : State} {c : Nat} {d : Desc} (hs : P s) : P (State.moveToStore s c d) := by
  unfold State.moveToStore
  repeat' first
    | with_reducible assumption
    | lift_lets -underBinder
    | (intro x; revert x; refine keeps_let P ?_ (fun _ _ => ?_))
    | (intro x; clear_value x)
    | with_reducible refine State.moveIn_keeps hP (hA.mono (by decide)) ?_
    | with_reducible refine State.dmaServed_keeps hP (hA.mono (by decide)) ?_
    | with_reducible refine State.markViolated_keeps hP (hA.mono (by decide)) ?_
    | with_reducible refine State.moved_keeps hP (hA.mono (by decide)) ?_
    | with_reducible refine keeps_ite ?_ ?_
    | split
    | with_reducible refine keeps_pair (by assumption) ?_
    | with_reducible refine keeps_pair₂ (by assumption) ?_

theorem State.dmaMove_keeps (hP : Keeps A P) (hA : Sub 0x3000000008033fb A) {s : State} {c : Nat} (hs : P s) : P (State.dmaMove s c) := by
  unfold State.dmaMove
  repeat' first
    | with_reducible assumption
    | with_reducible refine State.moveToStore_keeps hP (hA.mono (by decide)) ?_
    | with_reducible refine State.moveToHost_keeps hP (hA.mono (by decide)) ?_
    | with_reducible refine keeps_ite ?_ ?_
    | split
    | with_reducible refine keeps_pair (by assumption) ?_
    | with_reducible refine keeps_pair₂ (by assumption) ?_

theorem State.failDesc_keeps (hP : Keeps A P) (hA : Sub 0x2200000008007f9 A) {s : State} {c status : Nat} {err : Fld} (hs : P s) : P (State.failDesc s c status err) := by
  unfold State.failDesc
  repeat' first
    | with_reducible assumption
    | with_reducible refine State.haltCh_keeps hP (hA.mono (by decide)) ?_
    | with_reducible refine State.writeBack_keeps hP (hA.mono (by decide)) ?_
    | split
    | with_reducible refine keeps_pair (by assumption) ?_
    | with_reducible refine keeps_pair₂ (by assumption) ?_

theorem State.dataArrives_keeps (hP : Keeps A P) (hA : Sub 0x2200000008007f9 A) {s : State} {c i : Nat} {k : Completion} {bytes : List (BitVec 8)} (hs : P s) : P (State.dataArrives s c i k bytes) := by
  unfold State.dataArrives
  repeat' first
    | with_reducible assumption
    | lift_lets -underBinder
    | (intro x; revert x; refine keeps_let P ?_ (fun _ _ => ?_))
    | (intro x; clear_value x)
    | with_reducible refine State.unexpected_keeps hP (hA.mono (by decide)) ?_
    | with_reducible refine hP.dma (hA.mono (by decide)) _ _ _ ?_
    | with_reducible refine State.badCompletion_keeps hP (hA.mono (by decide)) ?_
    | with_reducible refine State.failDesc_keeps hP (hA.mono (by decide)) ?_
    | with_reducible refine State.satisfied_keeps hP (hA.mono (by decide)) ?_
    | fail_if_no_progress beta_reduce
    | with_reducible refine keeps_ite ?_ ?_
    | split
    | with_reducible refine keeps_pair (by assumption) ?_
    | with_reducible refine keeps_pair₂ (by assumption) ?_

theorem State.backUse_keeps (hP : Keeps A P) (hA : Sub 0x2200000008007f9 A) {s : State} {c : Nat} {k : Completion} {t : DTime} (hs : P s) : P (State.backUse s c k t) := by
  unfold State.backUse
  repeat' first
    | with_reducible assumption
    | lift_lets -underBinder
    | (intro x; revert x; refine keeps_let P ?_ (fun _ _ => ?_))
    | (intro x; clear_value x)
    | with_reducible refine hP.dma (hA.mono (by decide)) _ _ _ ?_
    | with_reducible refine State.failDesc_keeps hP (hA.mono (by decide)) ?_
    | with_reducible refine State.writeBack_keeps hP (hA.mono (by decide)) ?_
    | with_reducible refine State.takeDoorbell_keeps hP (hA.mono (by decide)) ?_
    | with_reducible refine State.abortEnds_keeps hP (hA.mono (by decide)) ?_
    | with_reducible refine State.idleCh_keeps hP (hA.mono (by decide)) ?_
    | with_reducible refine State.nextOf_keeps hP (hA.mono (by decide)) ?_
    | with_reducible refine State.satisfied_keeps hP (hA.mono (by decide)) ?_
    | with_reducible refine keeps_ite ?_ ?_
    | split
    | with_reducible refine keeps_pair (by assumption) ?_
    | with_reducible refine keeps_pair₂ (by assumption) ?_

theorem State.readbackDone_keeps (hP : Keeps A P) (hA : Sub 0x2200000008007f9 A) {s : State} {c : Nat} {k : Completion} (hs : P s) : P (State.readbackDone s c k) := by
  unfold State.readbackDone
  repeat' first
    | with_reducible assumption
    | lift_lets -underBinder
    | (intro x; revert x; refine keeps_let P ?_ (fun _ _ => ?_))
    | (intro x; clear_value x)
    | with_reducible refine hP.dma (hA.mono (by decide)) _ _ _ ?_
    | with_reducible refine State.badCompletion_keeps hP (hA.mono (by decide)) ?_
    | with_reducible refine State.unexpected_keeps hP (hA.mono (by decide)) ?_
    | with_reducible refine State.backUse_keeps hP (hA.mono (by decide)) ?_
    | with_reducible refine keeps_ite ?_ ?_
    | split

theorem State.readLast_keeps (hP : Keeps A P) (hA : Sub 0x2200000008027f9 A) {s : State} {c : Nat} (hs : P s) : P (State.readLast s c) := by
  unfold State.readLast
  repeat' first
    | with_reducible assumption
    | with_reducible refine State.markViolated_keeps hP (hA.mono (by decide)) ?_
    | with_reducible refine State.violate_keeps hP (hA.mono (by decide)) ?_
    | with_reducible refine State.backUse_keeps hP (hA.mono (by decide)) ?_
    | with_reducible refine State.readHalf_keeps hP (hA.mono (by decide)) ?_
    | split
    | with_reducible refine keeps_pair (by assumption) ?_
    | with_reducible refine keeps_pair₂ (by assumption) ?_

theorem State.pauseCh_keeps (hP : Keeps A P) (hA : Sub 0x2000000008007f9 A) {s : State} {c : Nat} (hs : P s) : P (State.pauseCh s c) := by
  unfold State.pauseCh
  repeat' first
    | with_reducible assumption
    | with_reducible refine State.setDState_keeps hP (hA.mono (by decide)) ?_
    | with_reducible refine State.post_unit hP (hA.mono (by decide)) (by first | omega | (simp only [tbPage, jrnlPage, svcPage, swarmPage, eslPage, dmaPage, synPage, domPage, linkPage, dmacPage, chPage, regPage, blkPage, bankPage]; omega)) ?_
    | with_reducible refine hP.dma (hA.mono (by decide)) _ _ _ ?_
    | with_reducible refine keeps_ite ?_ ?_
    | split

theorem State.flushBuf_keeps (hP : Keeps A P) (hA : Sub 0x200000000000039 A) {s : State} {c : Nat} (hs : P s) : P (State.flushBuf s c) := by
  unfold State.flushBuf
  repeat' first
    | with_reducible assumption
    | lift_lets -underBinder
    | (intro x; revert x; refine keeps_let P ?_ (fun _ _ => ?_))
    | (intro x; clear_value x)
    | with_reducible refine State.bufToHost_keeps hP (hA.mono (by decide)) ?_
    | fail_if_no_progress beta_reduce
    | with_reducible refine keeps_ite ?_ ?_
    | split
    | with_reducible refine keeps_pair (by assumption) ?_
    | with_reducible refine keeps_pair₂ (by assumption) ?_

theorem State.pausedCh_keeps (hP : Keeps A P) (hA : Sub 0x2000000008007f9 A) {s : State} {c : Nat} (hs : P s) : P (State.pausedCh s c) := by
  unfold State.pausedCh
  repeat' first
    | with_reducible assumption
    | lift_lets -underBinder
    | (intro x; revert x; refine keeps_let P ?_ (fun _ _ => ?_))
    | (intro x; clear_value x)
    | with_reducible refine State.flushBuf_keeps hP (hA.mono (by decide)) ?_
    | with_reducible refine State.post_unit hP (hA.mono (by decide)) (by first | omega | (simp only [tbPage, jrnlPage, svcPage, swarmPage, eslPage, dmaPage, synPage, domPage, linkPage, dmacPage, chPage, regPage, blkPage, bankPage]; omega)) ?_
    | with_reducible refine State.setDState_keeps hP (hA.mono (by decide)) ?_
    | with_reducible refine keeps_ite ?_ ?_
    | split

theorem State.resumeCh_keeps (hP : Keeps A P) (hA : Sub 0x2200000008007f9 A) {s : State} {c : Nat} (hs : P s) : P (State.resumeCh s c) := by
  unfold State.resumeCh
  repeat' first
    | with_reducible assumption
    | lift_lets -underBinder
    | (intro x; revert x; refine keeps_let P ?_ (fun _ _ => ?_))
    | (intro x; clear_value x)
    | with_reducible refine State.takeDoorbell_keeps hP (hA.mono (by decide)) ?_
    | with_reducible refine State.idleCh_keeps hP (hA.mono (by decide)) ?_
    | with_reducible refine State.setDState_keeps hP (hA.mono (by decide)) ?_
    | with_reducible refine hP.dma (hA.mono (by decide)) _ _ _ ?_
    | with_reducible refine State.setFld_unit hP (hA.mono (by decide)) (by first | omega | (simp only [tbPage, jrnlPage, svcPage, swarmPage, eslPage, dmaPage, synPage, domPage, linkPage, dmacPage, chPage, regPage, blkPage, bankPage]; omega)) ?_
    | with_reducible refine State.goOn_keeps hP (hA.mono (by decide)) ?_
    | with_reducible refine keeps_ite ?_ ?_
    | split

theorem State.abortNow_keeps (hP : Keeps A P) (hA : Sub 0x2200000008007f9 A) {s : State} {c : Nat} (hs : P s) : P (State.abortNow s c) := by
  unfold State.abortNow
  repeat' first
    | with_reducible assumption
    | lift_lets -underBinder
    | (intro x; revert x; refine keeps_let P ?_ (fun _ _ => ?_))
    | (intro x; clear_value x)
    | with_reducible refine State.writeBack_keeps hP (hA.mono (by decide)) ?_
    | with_reducible refine State.abortEnds_keeps hP (hA.mono (by decide)) ?_
    | with_reducible refine State.idleCh_keeps hP (hA.mono (by decide)) ?_
    | split
    | with_reducible refine keeps_pair (by assumption) ?_
    | with_reducible refine keeps_pair₂ (by assumption) ?_

theorem State.abortCh_keeps (hP : Keeps A P) (hA : Sub 0x2200000008007f9 A) {s : State} {c : Nat} (hs : P s) : P (State.abortCh s c) := by
  unfold State.abortCh
  repeat' first
    | with_reducible assumption
    | lift_lets -underBinder
    | (intro x; revert x; refine keeps_let P ?_ (fun _ _ => ?_))
    | (intro x; clear_value x)
    | with_reducible refine State.unitEvent_keeps hP (hA.mono (by decide)) ?_
    | with_reducible refine State.post_unit hP (hA.mono (by decide)) (by first | omega | (simp only [tbPage, jrnlPage, svcPage, swarmPage, eslPage, dmaPage, synPage, domPage, linkPage, dmacPage, chPage, regPage, blkPage, bankPage]; omega)) ?_
    | with_reducible refine State.setFld_unit hP (hA.mono (by decide)) (by first | omega | (simp only [tbPage, jrnlPage, svcPage, swarmPage, eslPage, dmaPage, synPage, domPage, linkPage, dmacPage, chPage, regPage, blkPage, bankPage]; omega)) ?_
    | with_reducible refine State.setDState_keeps hP (hA.mono (by decide)) ?_
    | with_reducible refine State.abortNow_keeps hP (hA.mono (by decide)) ?_
    | with_reducible refine keeps_ite ?_ ?_
    | split

theorem State.clearCh_keeps (hP : Keeps A P) (hA : Sub 0x2200000008007f9 A) {s : State} {c : Nat} (hs : P s) : P (State.clearCh s c) := by
  unfold State.clearCh
  repeat' first
    | with_reducible assumption
    | with_reducible refine State.takeDoorbell_keeps hP (hA.mono (by decide)) ?_
    | with_reducible refine State.idleCh_keeps hP (hA.mono (by decide)) ?_
    | with_reducible refine keeps_ite ?_ ?_
    | split

theorem State.ctrlWrite_keeps (hP : Keeps A P) (hA : Sub 0x3200000008007fb A) {s : State} {c : Nat} {v : Dword} {a : Agent} (hs : P s) : P (State.ctrlWrite s c v a) := by
  unfold State.ctrlWrite
  repeat' first
    | with_reducible assumption
    | lift_lets -underBinder
    | (intro x; revert x; refine keeps_let P ?_ (fun _ _ => ?_))
    | (intro x; first | (have _h : Nat := x; clear _h; subst x) | clear_value x)
    | with_reducible refine State.entry_keeps hP (hA.mono (by decide)) ?_
    | with_reducible refine State.raiseWrite_keeps hP (hA.mono (by decide)) ?_
    | with_reducible refine State.storeValue_keeps hP (hA.mono (by decide)) ?_
    | with_reducible refine State.takeDoorbell_keeps hP (hA.mono (by decide)) ?_
    | with_reducible refine State.pauseCh_keeps hP (hA.mono (by decide)) ?_
    | with_reducible refine State.resumeCh_keeps hP (hA.mono (by decide)) ?_
    | with_reducible refine State.abortCh_keeps hP (hA.mono (by decide)) ?_
    | with_reducible refine State.dmaServe_keeps hP (hA.mono (by decide)) ?_
    | with_reducible refine State.clearCh_keeps hP (hA.mono (by decide)) ?_
    | with_reducible refine keeps_ite ?_ ?_
    | split

theorem State.stallCh_keeps (hP : Keeps A P) (hA : Sub 0x3200000008007f9 A) {s : State} {c : Nat} (hs : P s) : P (State.stallCh s c) := by
  unfold State.stallCh
  repeat' first
    | with_reducible assumption
    | lift_lets -underBinder
    | (intro x; revert x; refine keeps_let P ?_ (fun _ _ => ?_))
    | (intro x; clear_value x)
    | with_reducible refine State.dmaServe_keeps hP (hA.mono (by decide)) ?_
    | with_reducible refine State.failDesc_keeps hP (hA.mono (by decide)) ?_
    | with_reducible refine State.haltCh_keeps hP (hA.mono (by decide)) ?_
    | with_reducible refine keeps_ite ?_ ?_
    | split

theorem State.cplTimeout_keeps (hP : Keeps A P) (hA : Sub 0x3200000008007f9 A) {s : State} {c : Nat} {fetch : Bool} (hs : P s) : P (State.cplTimeout s c fetch) := by
  unfold State.cplTimeout
  repeat' first
    | with_reducible assumption
    | lift_lets -underBinder
    | (intro x; revert x; refine keeps_let P ?_ (fun _ _ => ?_))
    | (intro x; clear_value x)
    | with_reducible refine State.dmaServe_keeps hP (hA.mono (by decide)) ?_
    | with_reducible refine State.fetchDone_keeps hP (hA.mono (by decide)) ?_
    | with_reducible refine State.dataArrives_keeps hP (hA.mono (by decide)) ?_
    | with_reducible refine State.readbackDone_keeps hP (hA.mono (by decide)) ?_
    | fail_if_no_progress beta_reduce
    | with_reducible refine keeps_ite ?_ ?_
    | split

theorem State.linkLost_keeps (hP : Keeps A P) (hA : Sub 0x2200000008007f9 A) {s : State} {l0 : List Nat} (hs : P s) : P (State.linkLost s l0) := by
  induction l0 generalizing s with
  | nil =>
    unfold State.linkLost
    repeat' first
      | with_reducible assumption
      | lift_lets -underBinder
      | (intro x; revert x; refine keeps_let P ?_ (fun _ _ => ?_))
      | (intro x; clear_value x)
      | with_reducible refine hP.dma (hA.mono (by decide)) _ _ _ ?_
      | with_reducible refine State.setFld_unit hP (hA.mono (by decide)) (by first | omega | (simp only [tbPage, jrnlPage, svcPage, swarmPage, eslPage, dmaPage, synPage, domPage, linkPage, dmacPage, chPage, regPage, blkPage, bankPage]; omega)) ?_
      | with_reducible refine State.haltCh_keeps hP (hA.mono (by decide)) ?_
      | with_reducible refine keeps_ite ?_ ?_
      | split
  | cons x r ih =>
    unfold State.linkLost
    repeat' first
      | with_reducible assumption
      | lift_lets -underBinder
      | (intro x; revert x; refine keeps_let P ?_ (fun _ _ => ?_))
      | (intro x; clear_value x)
      | with_reducible refine ih ?_
      | with_reducible refine hP.dma (hA.mono (by decide)) _ _ _ ?_
      | with_reducible refine State.setFld_unit hP (hA.mono (by decide)) (by first | omega | (simp only [tbPage, jrnlPage, svcPage, swarmPage, eslPage, dmaPage, synPage, domPage, linkPage, dmacPage, chPage, regPage, blkPage, bankPage]; omega)) ?_
      | with_reducible refine State.haltCh_keeps hP (hA.mono (by decide)) ?_
      | with_reducible refine keeps_ite ?_ ?_
      | split

theorem State.unfreeze_keeps (hP : Keeps A P) (hA : Sub 0x10 A) {s : State} {c : Nat} (hs : P s) : P (State.unfreeze s c) := by
  unfold State.unfreeze
  repeat' first
    | with_reducible assumption
    | lift_lets -underBinder
    | (intro x; revert x; refine keeps_let P ?_ (fun _ _ => ?_))
    | (intro x; clear_value x)
    | with_reducible refine hP.dma (hA.mono (by decide)) _ _ _ ?_
    | with_reducible refine keeps_ite ?_ ?_
    | split
    | with_reducible refine keeps_pair (by assumption) ?_
    | with_reducible refine keeps_pair₂ (by assumption) ?_

theorem State.released1_keeps (hP : Keeps A P) (hA : Sub 0x2200000008007f9 A) {s : State} {c : Nat} (hs : P s) : P (State.released1 s c) := by
  unfold State.released1
  repeat' first
    | with_reducible assumption
    | lift_lets -underBinder
    | (intro x; revert x; refine keeps_let P ?_ (fun _ _ => ?_))
    | (intro x; clear_value x)
    | with_reducible refine State.failDesc_keeps hP (hA.mono (by decide)) ?_
    | with_reducible refine State.abortNow_keeps hP (hA.mono (by decide)) ?_
    | with_reducible refine State.backUse_keeps hP (hA.mono (by decide)) ?_
    | with_reducible refine State.fetchUse_keeps hP (hA.mono (by decide)) ?_
    | with_reducible refine keeps_ite ?_ ?_
    | split
    | with_reducible refine keeps_pair (by assumption) ?_
    | with_reducible refine keeps_pair₂ (by assumption) ?_

theorem State.releaseDma_keeps (hP : Keeps A P) (hA : Sub 0x3200000008007f9 A) {s : State} {l0 : List Nat} (hs : P s) : P (State.releaseDma s l0) := by
  induction l0 generalizing s with
  | nil =>
    unfold State.releaseDma
    repeat' first
      | with_reducible assumption
      | with_reducible refine State.dmaServe_keeps hP (hA.mono (by decide)) ?_
      | with_reducible refine State.released1_keeps hP (hA.mono (by decide)) ?_
      | with_reducible refine State.unfreeze_keeps hP (hA.mono (by decide)) ?_
      | with_reducible refine keeps_ite ?_ ?_
      | split
  | cons x r ih =>
    unfold State.releaseDma
    repeat' first
      | with_reducible assumption
      | with_reducible refine ih ?_
      | with_reducible refine State.dmaServe_keeps hP (hA.mono (by decide)) ?_
      | with_reducible refine State.released1_keeps hP (hA.mono (by decide)) ?_
      | with_reducible refine State.unfreeze_keeps hP (hA.mono (by decide)) ?_
      | with_reducible refine keeps_ite ?_ ?_
      | split

end Sys2Proof.Machine
end

