-- ==== Sys2Proof/Laws/EffectsChan.lean ====
section
/-! SUPPORT. The effects of each operation of Machine/ (Chan.lean, Fifo.lean, Measure.lean): the primitive changes it may make, as a mask. -/
namespace Sys2Proof.Machine
open Sys2Proof
set_option linter.unusedTactic false
set_option linter.unreachableTactic false
set_option linter.unusedVariables false
set_option linter.unusedSimpArgs false
variable {A : Nat} {P : State → Prop}

theorem State.modChan_keeps (hP : Keeps A P) (hA : Sub 0x4000 A) {s : State} {k : Nat} {f : Chan → Chan} (hs : P s) : P (State.modChan s k f) := by
  unfold State.modChan
  repeat' first
    | with_reducible assumption
    | with_reducible refine hP.chan (hA.mono (by decide)) _ _ _ ?_

theorem State.keepOld_keeps (hP : Keeps A P) (hA : Sub 0x4000 A) {s : State} {k limit : Nat} {offs : List Nat} (hs : P s) : P (State.keepOld s k limit offs) := by
  unfold State.keepOld
  repeat' first
    | with_reducible assumption
    | lift_lets -underBinder
    | (intro x; revert x; refine keeps_let P ?_ (fun _ _ => ?_))
    | (intro x; clear_value x)
    | with_reducible refine State.modChan_keeps hP (hA.mono (by decide)) ?_
    | fail_if_no_progress beta_reduce

theorem State.markEvent_keeps (hP : Keeps A P) (hA : Sub 0x8000 A) {s : State} {k bit : Nat} {t : DTime} (hs : P s) : P (State.markEvent s k bit t) := by
  unfold State.markEvent
  repeat' first
    | with_reducible assumption
    | with_reducible refine hP.qual (hA.mono (by decide)) _ _ _ ?_

theorem State.forEach_keeps (hP : Keeps A P) (hA : Sub 0x0 A) {s : State} {l : List Nat} {f : Nat → State → State} (hs : P s) (hf : ∀ (x0 : Nat) (x1 : State), P x1 → P (f x0 x1)) : P (State.forEach s l f) := by
  unfold State.forEach
  repeat' first
    | with_reducible assumption
    | with_reducible refine hf _ _ ?_
    | with_reducible refine keeps_foldl _ (fun _ _ _ => ?_) ?_

theorem State.showWin_keeps (hP : Keeps A P) (hA : Sub 0x1 A) {s : State} {k : Nat} (hs : P s) : P (State.showWin s k) := by
  unfold State.showWin
  repeat' first
    | with_reducible assumption
    | lift_lets -underBinder
    | (intro x; revert x; refine keeps_let P ?_ (fun _ _ => ?_))
    | (intro x; clear_value x)
    | with_reducible refine State.setFld_unit hP (hA.mono (by decide)) (by first | omega | (simp only [tbPage, jrnlPage, svcPage, swarmPage, eslPage, dmaPage, synPage, domPage, linkPage, dmacPage, chPage, regPage, blkPage, bankPage]; omega)) ?_
    | with_reducible refine keeps_ite ?_ ?_
    | split

theorem State.restartTimer_keeps (hP : Keeps A P) (hA : Sub 0x4000 A) {s : State} {k : Nat} (hs : P s) : P (State.restartTimer s k) := by
  unfold State.restartTimer
  repeat' first
    | with_reducible assumption
    | with_reducible refine State.modChan_keeps hP (hA.mono (by decide)) ?_

theorem State.takeLevel_keeps (hP : Keeps A P) (hA : Sub 0x4001 A) {s : State} {k : Nat} {level : Bool} (hs : P s) : P (State.takeLevel s k level) := by
  unfold State.takeLevel
  repeat' first
    | with_reducible assumption
    | with_reducible refine State.restartTimer_keeps hP (hA.mono (by decide)) ?_
    | with_reducible refine State.showWin_keeps hP (hA.mono (by decide)) ?_
    | with_reducible refine State.setBit_unit hP (hA.mono (by decide)) (by first | omega | (simp only [tbPage, jrnlPage, svcPage, swarmPage, eslPage, dmaPage, synPage, domPage, linkPage, dmacPage, chPage, regPage, blkPage, bankPage]; omega)) ?_
    | with_reducible refine keeps_ite ?_ ?_
    | split

theorem State.setStuck_keeps (hP : Keeps A P) (hA : Sub 0x4001 A) {s : State} {k : Nat} {b : Bool} (hs : P s) : P (State.setStuck s k b) := by
  unfold State.setStuck
  repeat' first
    | with_reducible assumption
    | with_reducible refine State.modChan_keeps hP (hA.mono (by decide)) ?_
    | with_reducible refine State.setBit_unit hP (hA.mono (by decide)) (by first | omega | (simp only [tbPage, jrnlPage, svcPage, swarmPage, eslPage, dmaPage, synPage, domPage, linkPage, dmacPage, chPage, regPage, blkPage, bankPage]; omega)) ?_

theorem State.transition_keeps (hP : Keeps A P) (hA : Sub 0x20000000080c3e9 A) {s : State} {k : Nat} (hs : P s) : P (State.transition s k) := by
  unfold State.transition
  repeat' first
    | with_reducible assumption
    | lift_lets -underBinder
    | (intro x; revert x; refine keeps_let P ?_ (fun _ _ => ?_))
    | (intro x; first | (have _h : Nat := x; clear _h; subst x) | clear_value x)
    | with_reducible refine State.showWin_keeps hP (hA.mono (by decide)) ?_
    | with_reducible refine State.setBit_unit hP (hA.mono (by decide)) (by first | omega | (simp only [tbPage, jrnlPage, svcPage, swarmPage, eslPage, dmaPage, synPage, domPage, linkPage, dmacPage, chPage, regPage, blkPage, bankPage]; omega)) ?_
    | with_reducible refine State.markEvent_keeps hP (hA.mono (by decide)) ?_
    | with_reducible refine State.post_unit hP (hA.mono (by decide)) (by first | omega | (simp only [tbPage, jrnlPage, svcPage, swarmPage, eslPage, dmaPage, synPage, domPage, linkPage, dmacPage, chPage, regPage, blkPage, bankPage]; omega)) ?_
    | with_reducible refine State.setStuck_keeps hP (hA.mono (by decide)) ?_
    | with_reducible refine State.error_keeps hP (hA.mono (by decide)) ?_
    | with_reducible refine State.restartTimer_keeps hP (hA.mono (by decide)) ?_
    | with_reducible refine keeps_ite ?_ ?_
    | split

theorem State.showPool_keeps (hP : Keeps A P) (hA : Sub 0x4001 A) {s : State} {k : Nat} (hs : P s) : P (State.showPool s k) := by
  unfold State.showPool
  repeat' first
    | with_reducible assumption
    | lift_lets -underBinder
    | (intro x; revert x; refine keeps_let P ?_ (fun _ _ => ?_))
    | (intro x; first | (have _h : Nat := x; clear _h; subst x) | clear_value x)
    | with_reducible refine State.setFld_unit hP (hA.mono (by decide)) (by first | omega | (simp only [tbPage, jrnlPage, svcPage, swarmPage, eslPage, dmaPage, synPage, domPage, linkPage, dmacPage, chPage, regPage, blkPage, bankPage]; omega)) ?_
    | with_reducible refine State.setBit_unit hP (hA.mono (by decide)) (by first | omega | (simp only [tbPage, jrnlPage, svcPage, swarmPage, eslPage, dmaPage, synPage, domPage, linkPage, dmacPage, chPage, regPage, blkPage, bankPage]; omega)) ?_
    | with_reducible refine State.modChan_keeps hP (hA.mono (by decide)) ?_
    | fail_if_no_progress beta_reduce
    | with_reducible refine keeps_ite ?_ ?_
    | split

theorem State.rotation_keeps (hP : Keeps A P) (hA : Sub 0x4001 A) {s : State} {k : Nat} (hs : P s) : P (State.rotation s k) := by
  unfold State.rotation
  repeat' first
    | with_reducible assumption
    | lift_lets -underBinder
    | (intro x; revert x; refine keeps_let P ?_ (fun _ _ => ?_))
    | (intro x; clear_value x)
    | with_reducible refine hP.chan (hA.mono (by decide)) _ _ _ ?_
    | with_reducible refine State.showPool_keeps hP (hA.mono (by decide)) ?_
    | with_reducible refine keeps_ite ?_ ?_
    | split

theorem State.closeGap_keeps (hP : Keeps A P) (hA : Sub 0x4001 A) {s : State} {k : Nat} {limit : Option Nat} (hs : P s) : P (State.closeGap s k limit) := by
  unfold State.closeGap
  repeat' first
    | with_reducible assumption
    | lift_lets -underBinder
    | (intro x; revert x; refine keeps_let P ?_ (fun _ _ => ?_))
    | (intro x; clear_value x)
    | with_reducible refine State.setFld_unit hP (hA.mono (by decide)) (by first | omega | (simp only [tbPage, jrnlPage, svcPage, swarmPage, eslPage, dmaPage, synPage, domPage, linkPage, dmacPage, chPage, regPage, blkPage, bankPage]; omega)) ?_
    | with_reducible refine hP.chan (hA.mono (by decide)) _ _ _ ?_
    | split
    | with_reducible refine keeps_pair (by assumption) ?_
    | with_reducible refine keeps_pair₂ (by assumption) ?_

theorem State.closeGapOf_keeps (hP : Keeps A P) (hA : Sub 0x4001 A) {s : State} {k cause : Nat} (hs : P s) : P (State.closeGapOf s k cause) := by
  unfold State.closeGapOf
  repeat' first
    | with_reducible assumption
    | with_reducible refine State.closeGap_keeps hP (hA.mono (by decide)) ?_
    | with_reducible refine keeps_ite ?_ ?_
    | split
    | with_reducible refine keeps_pair (by assumption) ?_
    | with_reducible refine keeps_pair₂ (by assumption) ?_

theorem State.closeDry_keeps (hP : Keeps A P) (hA : Sub 0x4001 A) {s : State} {k : Nat} (hs : P s) : P (State.closeDry s k) := by
  unfold State.closeDry
  repeat' first
    | with_reducible assumption
    | with_reducible refine State.closeGapOf_keeps hP (hA.mono (by decide)) ?_
    | with_reducible refine keeps_ite ?_ ?_
    | split

theorem State.settlePool_keeps (hP : Keeps A P) (hA : Sub 0x4001 A) {s : State} {k : Nat} (hs : P s) : P (State.settlePool s k) := by
  unfold State.settlePool
  repeat' first
    | with_reducible assumption
    | lift_lets -underBinder
    | (intro x; revert x; refine keeps_let P ?_ (fun _ _ => ?_))
    | (intro x; clear_value x)
    | with_reducible refine State.closeDry_keeps hP (hA.mono (by decide)) ?_
    | with_reducible refine hP.chan (hA.mono (by decide)) _ _ _ ?_
    | with_reducible refine State.closeGap_keeps hP (hA.mono (by decide)) ?_
    | fail_if_no_progress beta_reduce
    | with_reducible refine keeps_ite ?_ ?_
    | split
    | with_reducible refine keeps_pair (by assumption) ?_
    | with_reducible refine keeps_pair₂ (by assumption) ?_

theorem State.intoGap_keeps (hP : Keeps A P) (hA : Sub 0x4001 A) {s : State} {k cause : Nat} (hs : P s) : P (State.intoGap s k cause) := by
  unfold State.intoGap
  repeat' first
    | with_reducible assumption
    | lift_lets -underBinder
    | (intro x; revert x; refine keeps_let P ?_ (fun _ _ => ?_))
    | (intro x; clear_value x)
    | with_reducible refine State.modChan_keeps hP (hA.mono (by decide)) ?_
    | with_reducible refine State.setFld_unit hP (hA.mono (by decide)) (by first | omega | (simp only [tbPage, jrnlPage, svcPage, swarmPage, eslPage, dmaPage, synPage, domPage, linkPage, dmacPage, chPage, regPage, blkPage, bankPage]; omega)) ?_
    | fail_if_no_progress beta_reduce
    | split
    | with_reducible refine keeps_pair (by assumption) ?_
    | with_reducible refine keeps_pair₂ (by assumption) ?_

theorem State.poolEdge_keeps (hP : Keeps A P) (hA : Sub 0x4001 A) {s : State} {k : Nat} {rising : Bool} {f : Nat} (hs : P s) : P (State.poolEdge s k rising f) := by
  unfold State.poolEdge
  repeat' first
    | with_reducible assumption
    | lift_lets -underBinder
    | (intro x; revert x; refine keeps_let P ?_ (fun _ _ => ?_))
    | (intro x; clear_value x)
    | with_reducible refine State.settlePool_keeps hP (hA.mono (by decide)) ?_
    | with_reducible refine State.intoGap_keeps hP (hA.mono (by decide)) ?_
    | with_reducible refine State.closeGapOf_keeps hP (hA.mono (by decide)) ?_
    | with_reducible refine hP.chan (hA.mono (by decide)) _ _ _ ?_
    | split
    | with_reducible refine keeps_pair (by assumption) ?_
    | with_reducible refine keeps_pair₂ (by assumption) ?_

theorem State.addGap_keeps (hP : Keeps A P) (hA : Sub 0x200000000000029 A) {s : State} {k count : Nat} (hs : P s) : P (State.addGap s k count) := by
  unfold State.addGap
  repeat' first
    | with_reducible assumption
    | with_reducible refine State.post_unit hP (hA.mono (by decide)) (by first | omega | (simp only [tbPage, jrnlPage, svcPage, swarmPage, eslPage, dmaPage, synPage, domPage, linkPage, dmacPage, chPage, regPage, blkPage, bankPage]; omega)) ?_
    | with_reducible refine State.addSat_unit hP (hA.mono (by decide)) (by first | omega | (simp only [tbPage, jrnlPage, svcPage, swarmPage, eslPage, dmaPage, synPage, domPage, linkPage, dmacPage, chPage, regPage, blkPage, bankPage]; omega)) ?_
    | with_reducible refine State.setPair_unit hP (hA.mono (by decide)) (by first | omega | (simp only [tbPage, jrnlPage, svcPage, swarmPage, eslPage, dmaPage, synPage, domPage, linkPage, dmacPage, chPage, regPage, blkPage, bankPage]; omega)) ?_

theorem State.gapCounted_keeps (hP : Keeps A P) (hA : Sub 0x200000000000029 A) {s : State} {k count : Nat} (hs : P s) : P (State.gapCounted s k count) := by
  unfold State.gapCounted
  repeat' first
    | with_reducible assumption
    | with_reducible refine State.addGap_keeps hP (hA.mono (by decide)) ?_
    | with_reducible refine keeps_ite ?_ ?_
    | split

theorem State.leftPool_keeps (hP : Keeps A P) (hA : Sub 0x4000 A) {s : State} {k : Nat} (hs : P s) : P (State.leftPool s k) := by
  unfold State.leftPool
  repeat' first
    | with_reducible assumption
    | with_reducible refine State.modChan_keeps hP (hA.mono (by decide)) ?_

theorem State.startCounts_keeps (hP : Keeps A P) (hA : Sub 0x4001 A) {s : State} {k : Nat} (hs : P s) : P (State.startCounts s k) := by
  unfold State.startCounts
  repeat' first
    | with_reducible assumption
    | lift_lets -underBinder
    | (intro x; revert x; refine keeps_let P ?_ (fun _ _ => ?_))
    | (intro x; clear_value x)
    | with_reducible refine State.closeGap_keeps hP (hA.mono (by decide)) ?_
    | with_reducible refine State.modChan_keeps hP (hA.mono (by decide)) ?_
    | fail_if_no_progress beta_reduce

theorem State.holdCounts_keeps (hP : Keeps A P) (hA : Sub 0x200000000004029 A) {s : State} {k : Nat} (hs : P s) : P (State.holdCounts s k) := by
  unfold State.holdCounts
  repeat' first
    | with_reducible assumption
    | lift_lets -underBinder
    | (intro x; revert x; refine keeps_let P ?_ (fun _ _ => ?_))
    | (intro x; clear_value x)
    | with_reducible refine State.closeGap_keeps hP (hA.mono (by decide)) ?_
    | with_reducible refine State.addGap_keeps hP (hA.mono (by decide)) ?_
    | with_reducible refine State.modChan_keeps hP (hA.mono (by decide)) ?_
    | with_reducible refine keeps_foldl _ (fun _ _ _ => ?_) ?_
    | fail_if_no_progress beta_reduce
    | split
    | with_reducible refine keeps_pair (by assumption) ?_
    | with_reducible refine keeps_pair₂ (by assumption) ?_

theorem State.countEdges_keeps (hP : Keeps A P) (hA : Sub 0x1 A) {s : State} {k n : Nat} (hs : P s) : P (State.countEdges s k n) := by
  unfold State.countEdges
  repeat' first
    | with_reducible assumption
    | with_reducible refine State.setPair_unit hP (hA.mono (by decide)) (by first | omega | (simp only [tbPage, jrnlPage, svcPage, swarmPage, eslPage, dmaPage, synPage, domPage, linkPage, dmacPage, chPage, regPage, blkPage, bankPage]; omega)) ?_
    | with_reducible refine keeps_ite ?_ ?_
    | split

theorem State.poolFailed_keeps (hP : Keeps A P) (hA : Sub 0x2000000008003e9 A) {s : State} {k : Nat} (hs : P s) : P (State.poolFailed s k) := by
  unfold State.poolFailed
  repeat' first
    | with_reducible assumption
    | with_reducible refine State.error_keeps hP (hA.mono (by decide)) ?_
    | with_reducible refine State.raise_unit hP (hA.mono (by decide)) (by first | omega | (simp only [tbPage, jrnlPage, svcPage, swarmPage, eslPage, dmaPage, synPage, domPage, linkPage, dmacPage, chPage, regPage, blkPage, bankPage]; omega)) ?_

theorem State.retire_keeps (hP : Keeps A P) (hA : Sub 0x2000000008043e9 A) {s : State} {k j : Nat} (hs : P s) : P (State.retire s k j) := by
  unfold State.retire
  repeat' first
    | with_reducible assumption
    | lift_lets -underBinder
    | (intro x; revert x; refine keeps_let P ?_ (fun _ _ => ?_))
    | (intro x; clear_value x)
    | with_reducible refine hP.chan (hA.mono (by decide)) _ _ _ ?_
    | with_reducible refine State.post_unit hP (hA.mono (by decide)) (by first | omega | (simp only [tbPage, jrnlPage, svcPage, swarmPage, eslPage, dmaPage, synPage, domPage, linkPage, dmacPage, chPage, regPage, blkPage, bankPage]; omega)) ?_
    | with_reducible refine State.raise_unit hP (hA.mono (by decide)) (by first | omega | (simp only [tbPage, jrnlPage, svcPage, swarmPage, eslPage, dmaPage, synPage, domPage, linkPage, dmacPage, chPage, regPage, blkPage, bankPage]; omega)) ?_
    | with_reducible refine State.error_keeps hP (hA.mono (by decide)) ?_
    | with_reducible refine State.unitEvent_keeps hP (hA.mono (by decide)) ?_
    | with_reducible refine State.showPool_keeps hP (hA.mono (by decide)) ?_
    | with_reducible refine State.poolFailed_keeps hP (hA.mono (by decide)) ?_
    | with_reducible refine keeps_ite ?_ ?_
    | split
    | with_reducible refine keeps_pair (by assumption) ?_
    | with_reducible refine keeps_pair₂ (by assumption) ?_

theorem State.calLast_keeps (hP : Keeps A P) (hA : Sub 0x1 A) {s : State} {k j : Nat} {ok : Bool} {shift : Int} {rejects : Nat} (hs : P s) : P (State.calLast s k j ok shift rejects) := by
  unfold State.calLast
  repeat' first
    | with_reducible assumption
    | lift_lets -underBinder
    | (intro x; revert x; refine keeps_let P ?_ (fun _ _ => ?_))
    | (intro x; clear_value x)
    | with_reducible refine hP.wr (hA.mono (by decide)) _ _ _ (by first | omega | (simp only [tbPage, jrnlPage, svcPage, swarmPage, eslPage, dmaPage, synPage, domPage, linkPage, dmacPage, chPage, regPage, blkPage, bankPage]; omega)) ?_
    | with_reducible refine keeps_ite ?_ ?_
    | split

theorem State.dutyEnd_keeps (hP : Keeps A P) (hA : Sub 0x2000000008043e9 A) {s : State} {k : Nat} {d : Duty} (hs : P s) : P (State.dutyEnd s k d) := by
  unfold State.dutyEnd
  repeat' first
    | with_reducible assumption
    | lift_lets -underBinder
    | (intro x; revert x; refine keeps_let P ?_ (fun _ _ => ?_))
    | (intro x; clear_value x)
    | with_reducible refine State.showPool_keeps hP (hA.mono (by decide)) ?_
    | with_reducible refine hP.chan (hA.mono (by decide)) _ _ _ ?_
    | with_reducible refine State.addWrap_unit hP (hA.mono (by decide)) (by first | omega | (simp only [tbPage, jrnlPage, svcPage, swarmPage, eslPage, dmaPage, synPage, domPage, linkPage, dmacPage, chPage, regPage, blkPage, bankPage]; omega)) ?_
    | with_reducible refine State.calLast_keeps hP (hA.mono (by decide)) ?_
    | with_reducible refine State.post_unit hP (hA.mono (by decide)) (by first | omega | (simp only [tbPage, jrnlPage, svcPage, swarmPage, eslPage, dmaPage, synPage, domPage, linkPage, dmacPage, chPage, regPage, blkPage, bankPage]; omega)) ?_
    | with_reducible refine State.retire_keeps hP (hA.mono (by decide)) ?_
    | with_reducible refine keeps_ite ?_ ?_
    | split
    | with_reducible refine keeps_pair (by assumption) ?_
    | with_reducible refine keeps_pair₂ (by assumption) ?_

theorem State.swap_keeps (hP : Keeps A P) (hA : Sub 0x4001 A) {s : State} {k : Nat} (hs : P s) : P (State.swap s k) := by
  unfold State.swap
  repeat' first
    | with_reducible assumption
    | lift_lets -underBinder
    | (intro x; revert x; refine keeps_let P ?_ (fun _ _ => ?_))
    | (intro x; clear_value x)
    | with_reducible refine State.settlePool_keeps hP (hA.mono (by decide)) ?_
    | with_reducible refine State.rotation_keeps hP (hA.mono (by decide)) ?_
    | with_reducible refine hP.chan (hA.mono (by decide)) _ _ _ ?_
    | with_reducible refine keeps_ite ?_ ?_
    | split
    | with_reducible refine keeps_pair (by assumption) ?_
    | with_reducible refine keeps_pair₂ (by assumption) ?_

theorem State.reassign_keeps (hP : Keeps A P) (hA : Sub 0x4001 A) {s : State} {k : Nat} (hs : P s) : P (State.reassign s k) := by
  unfold State.reassign
  repeat' first
    | with_reducible assumption
    | lift_lets -underBinder
    | (intro x; revert x; refine keeps_let P ?_ (fun _ _ => ?_))
    | (intro x; clear_value x)
    | with_reducible refine State.settlePool_keeps hP (hA.mono (by decide)) ?_
    | with_reducible refine State.rotation_keeps hP (hA.mono (by decide)) ?_
    | with_reducible refine hP.chan (hA.mono (by decide)) _ _ _ ?_
    | with_reducible refine keeps_ite ?_ ?_
    | split
    | with_reducible refine keeps_pair (by assumption) ?_
    | with_reducible refine keeps_pair₂ (by assumption) ?_

theorem State.setReady_keeps (hP : Keeps A P) (hA : Sub 0x1 A) {s : State} {k : Nat} {b : Bool} (hs : P s) : P (State.setReady s k b) := by
  unfold State.setReady
  repeat' first
    | with_reducible assumption
    | with_reducible refine State.setBit_unit hP (hA.mono (by decide)) (by first | omega | (simp only [tbPage, jrnlPage, svcPage, swarmPage, eslPage, dmaPage, synPage, domPage, linkPage, dmacPage, chPage, regPage, blkPage, bankPage]; omega)) ?_

theorem State.reportRetired_keeps (hP : Keeps A P) (hA : Sub 0x2000000008003e9 A) {s : State} {k : Nat} {l0 : List Nat} (hs : P s) : P (State.reportRetired s k l0) := by
  induction l0 generalizing s with
  | nil =>
    unfold State.reportRetired
    repeat' first
      | with_reducible assumption
      | lift_lets -underBinder
      | (intro x; revert x; refine keeps_let P ?_ (fun _ _ => ?_))
      | (intro x; clear_value x)
      | with_reducible refine State.post_unit hP (hA.mono (by decide)) (by first | omega | (simp only [tbPage, jrnlPage, svcPage, swarmPage, eslPage, dmaPage, synPage, domPage, linkPage, dmacPage, chPage, regPage, blkPage, bankPage]; omega)) ?_
      | with_reducible refine State.raise_unit hP (hA.mono (by decide)) (by first | omega | (simp only [tbPage, jrnlPage, svcPage, swarmPage, eslPage, dmaPage, synPage, domPage, linkPage, dmacPage, chPage, regPage, blkPage, bankPage]; omega)) ?_
      | with_reducible refine State.error_keeps hP (hA.mono (by decide)) ?_
      | with_reducible refine State.unitEvent_keeps hP (hA.mono (by decide)) ?_
      | with_reducible refine keeps_ite ?_ ?_
      | split
  | cons x r ih =>
    unfold State.reportRetired
    repeat' first
      | with_reducible assumption
      | lift_lets -underBinder
      | (intro x; revert x; refine keeps_let P ?_ (fun _ _ => ?_))
      | (intro x; clear_value x)
      | with_reducible refine ih ?_
      | with_reducible refine State.post_unit hP (hA.mono (by decide)) (by first | omega | (simp only [tbPage, jrnlPage, svcPage, swarmPage, eslPage, dmaPage, synPage, domPage, linkPage, dmacPage, chPage, regPage, blkPage, bankPage]; omega)) ?_
      | with_reducible refine State.raise_unit hP (hA.mono (by decide)) (by first | omega | (simp only [tbPage, jrnlPage, svcPage, swarmPage, eslPage, dmaPage, synPage, domPage, linkPage, dmacPage, chPage, regPage, blkPage, bankPage]; omega)) ?_
      | with_reducible refine State.error_keeps hP (hA.mono (by decide)) ?_
      | with_reducible refine State.unitEvent_keeps hP (hA.mono (by decide)) ?_
      | with_reducible refine keeps_ite ?_ ?_
      | split

theorem State.calDone_keeps (hP : Keeps A P) (hA : Sub 0x2000000008043e9 A) {s : State} {k bad : Nat} {ts : List (Fin 96 × Fin 17 × CalTable)} (hs : P s) : P (State.calDone s k bad ts) := by
  unfold State.calDone
  repeat' first
    | with_reducible assumption
    | lift_lets -underBinder
    | (intro x; revert x; refine keeps_let P ?_ (fun _ _ => ?_))
    | (intro x; clear_value x)
    | with_reducible refine State.setFld_unit hP (hA.mono (by decide)) (by first | omega | (simp only [tbPage, jrnlPage, svcPage, swarmPage, eslPage, dmaPage, synPage, domPage, linkPage, dmacPage, chPage, regPage, blkPage, bankPage]; omega)) ?_
    | with_reducible refine hP.chan (hA.mono (by decide)) _ _ _ ?_
    | with_reducible refine State.setReady_keeps hP (hA.mono (by decide)) ?_
    | with_reducible refine State.closeGapOf_keeps hP (hA.mono (by decide)) ?_
    | with_reducible refine State.reportRetired_keeps hP (hA.mono (by decide)) ?_
    | with_reducible refine State.rotation_keeps hP (hA.mono (by decide)) ?_
    | with_reducible refine State.poolFailed_keeps hP (hA.mono (by decide)) ?_
    | fail_if_no_progress beta_reduce
    | with_reducible refine keeps_ite ?_ ?_
    | split

theorem State.beginCal_keeps (hP : Keeps A P) (hA : Sub 0x4001 A) {s : State} {k : Nat} {r : CalRun} (hs : P s) : P (State.beginCal s k r) := by
  unfold State.beginCal
  repeat' first
    | with_reducible assumption
    | lift_lets -underBinder
    | (intro x; revert x; refine keeps_let P ?_ (fun _ _ => ?_))
    | (intro x; clear_value x)
    | with_reducible refine hP.chan (hA.mono (by decide)) _ _ _ ?_
    | with_reducible refine State.setReady_keeps hP (hA.mono (by decide)) ?_
    | with_reducible refine State.showPool_keeps hP (hA.mono (by decide)) ?_
    | with_reducible refine State.setBit_unit hP (hA.mono (by decide)) (by first | omega | (simp only [tbPage, jrnlPage, svcPage, swarmPage, eslPage, dmaPage, synPage, domPage, linkPage, dmacPage, chPage, regPage, blkPage, bankPage]; omega)) ?_

theorem State.checkDone_keeps (hP : Keeps A P) (hA : Sub 0x2000000008043e9 A) {s : State} {k bad : Nat} (hs : P s) : P (State.checkDone s k bad) := by
  unfold State.checkDone
  repeat' first
    | with_reducible assumption
    | lift_lets -underBinder
    | (intro x; revert x; refine keeps_let P ?_ (fun _ _ => ?_))
    | (intro x; clear_value x)
    | with_reducible refine State.modChan_keeps hP (hA.mono (by decide)) ?_
    | with_reducible refine State.retire_keeps hP (hA.mono (by decide)) ?_
    | with_reducible refine State.setReady_keeps hP (hA.mono (by decide)) ?_
    | with_reducible refine State.rotation_keeps hP (hA.mono (by decide)) ?_
    | with_reducible refine State.closeGapOf_keeps hP (hA.mono (by decide)) ?_
    | with_reducible refine keeps_foldl _ (fun _ _ _ => ?_) ?_
    | fail_if_no_progress beta_reduce
    | with_reducible refine keeps_ite ?_ ?_
    | split

theorem State.poolCtrlWritten_keeps (hP : Keeps A P) (hA : Sub 0x4001 A) {s : State} {k : Nat} {v : Dword} (hs : P s) : P (State.poolCtrlWritten s k v) := by
  unfold State.poolCtrlWritten
  repeat' first
    | with_reducible assumption
    | lift_lets -underBinder
    | (intro x; revert x; refine keeps_let P ?_ (fun _ _ => ?_))
    | (intro x; clear_value x)
    | with_reducible refine State.setFld_unit hP (hA.mono (by decide)) (by first | omega | (simp only [tbPage, jrnlPage, svcPage, swarmPage, eslPage, dmaPage, synPage, domPage, linkPage, dmacPage, chPage, regPage, blkPage, bankPage]; omega)) ?_
    | with_reducible refine State.beginCal_keeps hP (hA.mono (by decide)) ?_
    | with_reducible refine State.rotation_keeps hP (hA.mono (by decide)) ?_
    | with_reducible refine keeps_ite ?_ ?_
    | split

theorem State.reclamp_keeps (hP : Keeps A P) (hA : Sub 0x2000000008003e9 A) {s : State} {k : Nat} (hs : P s) : P (State.reclamp s k) := by
  unfold State.reclamp
  repeat' first
    | with_reducible assumption
    | lift_lets -underBinder
    | (intro x; revert x; refine keeps_let P ?_ (fun _ _ => ?_))
    | (intro x; clear_value x)
    | with_reducible refine State.entry_keeps hP (hA.mono (by decide)) ?_
    | with_reducible refine State.raise_unit hP (hA.mono (by decide)) (by first | omega | (simp only [tbPage, jrnlPage, svcPage, swarmPage, eslPage, dmaPage, synPage, domPage, linkPage, dmacPage, chPage, regPage, blkPage, bankPage]; omega)) ?_
    | with_reducible refine State.setFld_unit hP (hA.mono (by decide)) (by first | omega | (simp only [tbPage, jrnlPage, svcPage, swarmPage, eslPage, dmaPage, synPage, domPage, linkPage, dmacPage, chPage, regPage, blkPage, bankPage]; omega)) ?_
    | with_reducible refine keeps_ite ?_ ?_
    | split

theorem State.inputWritten_keeps (hP : Keeps A P) (hA : Sub 0x2000000008043e9 A) {s : State} {k : Nat} {old v : Dword} {level level2 : Bool} (hs : P s) : P (State.inputWritten s k old v level level2) := by
  unfold State.inputWritten
  repeat' first
    | with_reducible assumption
    | lift_lets -underBinder
    | (intro x; revert x; refine keeps_let P ?_ (fun _ _ => ?_))
    | (intro x; clear_value x)
    | with_reducible refine State.setBit_unit hP (hA.mono (by decide)) (by first | omega | (simp only [tbPage, jrnlPage, svcPage, swarmPage, eslPage, dmaPage, synPage, domPage, linkPage, dmacPage, chPage, regPage, blkPage, bankPage]; omega)) ?_
    | with_reducible refine State.reclamp_keeps hP (hA.mono (by decide)) ?_
    | with_reducible refine State.takeLevel_keeps hP (hA.mono (by decide)) ?_
    | with_reducible refine State.showWin_keeps hP (hA.mono (by decide)) ?_
    | with_reducible refine keeps_ite ?_ ?_
    | split

theorem State.chRunWritten_keeps (hP : Keeps A P) (hA : Sub 0x4001 A) {s : State} {k : Nat} {was : Bool} {level : Bool} (hs : P s) : P (State.chRunWritten s k was level) := by
  unfold State.chRunWritten
  repeat' first
    | with_reducible assumption
    | lift_lets -underBinder
    | (intro x; revert x; refine keeps_let P ?_ (fun _ _ => ?_))
    | (intro x; clear_value x)
    | with_reducible refine State.takeLevel_keeps hP (hA.mono (by decide)) ?_
    | with_reducible refine State.setStuck_keeps hP (hA.mono (by decide)) ?_
    | with_reducible refine State.rotation_keeps hP (hA.mono (by decide)) ?_
    | with_reducible refine keeps_ite ?_ ?_
    | split

theorem State.setFifo_keeps (hP : Keeps A P) (hA : Sub 0x200000000010001 A) {s : State} {g i : Nat} {f : Fifo} (hs : P s) : P (State.setFifo s g i f) := by
  unfold State.setFifo
  repeat' first
    | with_reducible assumption
    | lift_lets -underBinder
    | (intro x; revert x; refine keeps_let P ?_ (fun _ _ => ?_))
    | (intro x; clear_value x)
    | with_reducible refine State.setFld_unit hP (hA.mono (by decide)) (by first | omega | (simp only [tbPage, jrnlPage, svcPage, swarmPage, eslPage, dmaPage, synPage, domPage, linkPage, dmacPage, chPage, regPage, blkPage, bankPage]; omega)) ?_
    | with_reducible refine State.setRc_unit hP (hA.mono (by decide)) (by first | omega | (simp only [tbPage, jrnlPage, svcPage, swarmPage, eslPage, dmaPage, synPage, domPage, linkPage, dmacPage, chPage, regPage, blkPage, bankPage]; omega)) ?_
    | with_reducible refine State.setBit_unit hP (hA.mono (by decide)) (by first | omega | (simp only [tbPage, jrnlPage, svcPage, swarmPage, eslPage, dmaPage, synPage, domPage, linkPage, dmacPage, chPage, regPage, blkPage, bankPage]; omega)) ?_
    | with_reducible refine hP.fifo (hA.mono (by decide)) _ _ _ ?_
    | with_reducible refine hP.fifosNone (hA.mono (by decide)) _ ?_
    | fail_if_no_progress beta_reduce
    | with_reducible refine keeps_ite ?_ ?_
    | split

theorem State.showPeaks_keeps (hP : Keeps A P) (hA : Sub 0x1 A) {s : State} {g : Nat} (hs : P s) : P (State.showPeaks s g) := by
  unfold State.showPeaks
  repeat' first
    | with_reducible assumption
    | lift_lets -underBinder
    | (intro x; revert x; refine keeps_let P ?_ (fun _ _ => ?_))
    | (intro x; clear_value x)
    | with_reducible refine State.forEach_keeps hP (hA.mono (by decide)) ?_ (fun _ _ _ => ?_)
    | with_reducible refine State.setFld_unit hP (hA.mono (by decide)) (by first | omega | (simp only [tbPage, jrnlPage, svcPage, swarmPage, eslPage, dmaPage, synPage, domPage, linkPage, dmacPage, chPage, regPage, blkPage, bankPage]; omega)) ?_
    | fail_if_no_progress beta_reduce
    | with_reducible refine keeps_ite ?_ ?_
    | split

theorem State.noteOvf_keeps (hP : Keeps A P) (hA : Sub 0x200000000000029 A) {s : State} {g i : Nat} (hs : P s) : P (State.noteOvf s g i) := by
  unfold State.noteOvf
  repeat' first
    | with_reducible assumption
    | with_reducible refine State.post_unit hP (hA.mono (by decide)) (by first | omega | (simp only [tbPage, jrnlPage, svcPage, swarmPage, eslPage, dmaPage, synPage, domPage, linkPage, dmacPage, chPage, regPage, blkPage, bankPage]; omega)) ?_
    | with_reducible refine State.setRc_unit hP (hA.mono (by decide)) (by first | omega | (simp only [tbPage, jrnlPage, svcPage, swarmPage, eslPage, dmaPage, synPage, domPage, linkPage, dmacPage, chPage, regPage, blkPage, bankPage]; omega)) ?_

theorem State.closeOvf_keeps (hP : Keeps A P) (hA : Sub 0x2000000008103e9 A) {s : State} {g i : Nat} {split : Bool} (hs : P s) : P (State.closeOvf s g i split) := by
  unfold State.closeOvf
  repeat' first
    | with_reducible assumption
    | lift_lets -underBinder
    | (intro x; revert x; refine keeps_let P ?_ (fun _ _ => ?_))
    | (intro x; clear_value x)
    | with_reducible refine State.setFifo_keeps hP (hA.mono (by decide)) ?_
    | with_reducible refine State.errorAt_keeps hP (hA.mono (by decide)) ?_
    | split
    | with_reducible refine keeps_pair (by assumption) ?_
    | with_reducible refine keeps_pair₂ (by assumption) ?_

theorem State.limitOvf_keeps (hP : Keeps A P) (hA : Sub 0x2000000008103e9 A) {s : State} {g i : Nat} (hs : P s) : P (State.limitOvf s g i) := by
  unfold State.limitOvf
  repeat' first
    | with_reducible assumption
    | with_reducible refine State.closeOvf_keeps hP (hA.mono (by decide)) ?_
    | with_reducible refine keeps_ite ?_ ?_
    | split

theorem State.refuseItem_keeps (hP : Keeps A P) (hA : Sub 0x200000000010029 A) {s : State} {g i n : Nat} {f : Fifo} (hs : P s) : P (State.refuseItem s g i n f) := by
  unfold State.refuseItem
  repeat' first
    | with_reducible assumption
    | lift_lets -underBinder
    | (intro x; revert x; refine keeps_let P ?_ (fun _ _ => ?_))
    | (intro x; clear_value x)
    | with_reducible refine State.setFifo_keeps hP (hA.mono (by decide)) ?_
    | with_reducible refine State.noteOvf_keeps hP (hA.mono (by decide)) ?_
    | with_reducible refine keeps_ite ?_ ?_
    | split

theorem State.offer_keeps (hP : Keeps A P) (hA : Sub 0x2000000008103e9 A) {s : State} {g i n : Nat} {item : List Rec} (hs : P s) : P (State.offer s g i n item) := by
  unfold State.offer
  repeat' first
    | with_reducible assumption
    | lift_lets -underBinder
    | (intro x; revert x; refine keeps_let P ?_ (fun _ _ => ?_))
    | (intro x; clear_value x)
    | with_reducible refine State.limitOvf_keeps hP (hA.mono (by decide)) ?_
    | with_reducible refine State.setFifo_keeps hP (hA.mono (by decide)) ?_
    | with_reducible refine State.refuseItem_keeps hP (hA.mono (by decide)) ?_
    | with_reducible refine keeps_ite ?_ ?_
    | split

theorem State.offerExt_keeps (hP : Keeps A P) (hA : Sub 0x2000000008103e9 A) {s : State} {g i k : Nat} {t : DTime} {cause : Nat} (hs : P s) : P (State.offerExt s g i k t cause) := by
  unfold State.offerExt
  repeat' first
    | with_reducible assumption
    | lift_lets -underBinder
    | (intro x; revert x; refine keeps_let P ?_ (fun _ _ => ?_))
    | (intro x; clear_value x)
    | with_reducible refine State.limitOvf_keeps hP (hA.mono (by decide)) ?_
    | with_reducible refine State.setFifo_keeps hP (hA.mono (by decide)) ?_
    | with_reducible refine State.refuseItem_keeps hP (hA.mono (by decide)) ?_
    | with_reducible refine keeps_ite ?_ ?_
    | split

theorem State.deliver_keeps (hP : Keeps A P) (hA : Sub 0x0 A) {s : State} {k : Nat} {summary : Bool} {put : Nat → State → State} (hs : P s) (hput : ∀ (x0 : Nat) (x1 : State), P x1 → P (put x0 x1)) : P (State.deliver s k summary put) := by
  unfold State.deliver
  repeat' first
    | with_reducible assumption
    | lift_lets -underBinder
    | (intro x; revert x; refine keeps_let P ?_ (fun _ _ => ?_))
    | (intro x; clear_value x)
    | with_reducible refine hput _ _ ?_
    | with_reducible refine keeps_foldl _ (fun _ _ _ => ?_) ?_
    | fail_if_no_progress beta_reduce
    | with_reducible refine keeps_ite ?_ ?_
    | split

theorem State.stampEntry_keeps (hP : Keeps A P) (hA : Sub 0x2000000008103e9 A) {s : State} {g k : Nat} {rising : Bool} {t : DTime} (hs : P s) : P (State.stampEntry s g k rising t) := by
  unfold State.stampEntry
  repeat' first
    | with_reducible assumption
    | lift_lets -underBinder
    | (intro x; revert x; refine keeps_let P ?_ (fun _ _ => ?_))
    | (intro x; clear_value x)
    | with_reducible refine State.offerExt_keeps hP (hA.mono (by decide)) ?_
    | with_reducible refine State.offer_keeps hP (hA.mono (by decide)) ?_
    | with_reducible refine keeps_ite ?_ ?_
    | split

theorem State.summaryRunEnds_keeps (hP : Keeps A P) (hA : Sub 0x2000000008003e9 A) {s : State} {g k : Nat} {f : Fifo} (hs : P s) : P (State.summaryRunEnds s g k f) := by
  unfold State.summaryRunEnds
  repeat' first
    | with_reducible assumption
    | with_reducible refine State.errorAt_keeps hP (hA.mono (by decide)) ?_

theorem State.summaryRunsEnd_keeps (hP : Keeps A P) (hA : Sub 0x2000000008103e9 A) {s : State} {n : Nat} (hs : P s) : P (State.summaryRunsEnd s n) := by
  unfold State.summaryRunsEnd
  repeat' first
    | with_reducible assumption
    | lift_lets -underBinder
    | (intro x; revert x; refine keeps_let P ?_ (fun _ _ => ?_))
    | (intro x; clear_value x)
    | with_reducible refine State.forEach_keeps hP (hA.mono (by decide)) ?_ (fun _ _ _ => ?_)
    | with_reducible refine State.summaryRunEnds_keeps hP (hA.mono (by decide)) ?_
    | with_reducible refine State.setFifo_keeps hP (hA.mono (by decide)) ?_
    | fail_if_no_progress beta_reduce
    | with_reducible refine keeps_ite ?_ ?_
    | split

theorem State.summaryEntry_keeps (hP : Keeps A P) (hA : Sub 0x2000000008103e9 A) {s : State} {g k : Nat} {b : SubGate} (hs : P s) : P (State.summaryEntry s g k b) := by
  unfold State.summaryEntry
  repeat' first
    | with_reducible assumption
    | lift_lets -underBinder
    | (intro x; revert x; refine keeps_let P ?_ (fun _ _ => ?_))
    | (intro x; clear_value x)
    | with_reducible refine State.setFifo_keeps hP (hA.mono (by decide)) ?_
    | with_reducible refine State.summaryRunEnds_keeps hP (hA.mono (by decide)) ?_
    | with_reducible refine State.noteOvf_keeps hP (hA.mono (by decide)) ?_
    | with_reducible refine keeps_ite ?_ ?_
    | split

theorem State.ovfClose_keeps (hP : Keeps A P) (hA : Sub 0x2000000008103e9 A) {s : State} {g i : Nat} (hs : P s) : P (State.ovfClose s g i) := by
  unfold State.ovfClose
  repeat' first
    | with_reducible assumption
    | lift_lets -underBinder
    | (intro x; revert x; refine keeps_let P ?_ (fun _ _ => ?_))
    | (intro x; first | (have _h : Nat := x; clear _h; subst x) | clear_value x)
    | with_reducible refine State.limitOvf_keeps hP (hA.mono (by decide)) ?_
    | with_reducible refine State.closeOvf_keeps hP (hA.mono (by decide)) ?_
    | with_reducible refine State.setFifo_keeps hP (hA.mono (by decide)) ?_
    | fail_if_no_progress beta_reduce
    | with_reducible refine keeps_ite ?_ ?_
    | split

theorem State.setAcc_keeps (hP : Keeps A P) (hA : Sub 0x4000 A) {s : State} {k : Nat} {a : Acc} (hs : P s) : P (State.setAcc s k a) := by
  unfold State.setAcc
  repeat' first
    | with_reducible assumption
    | with_reducible refine State.modChan_keeps hP (hA.mono (by decide)) ?_

theorem State.result_keeps (hP : Keeps A P) (hA : Sub 0x8001c1 A) {s : State} {m : Meas} {head : DTime} {flags idx : Nat} {vals : List Cont} (hs : P s) : P (State.result s m head flags idx vals) := by
  unfold State.result
  repeat' first
    | with_reducible assumption
    | lift_lets -underBinder
    | (intro x; revert x; refine keeps_let P ?_ (fun _ _ => ?_))
    | (intro x; clear_value x)
    | with_reducible refine State.unitGroup_keeps hP (hA.mono (by decide)) ?_
    | fail_if_no_progress beta_reduce
    | with_reducible refine keeps_ite ?_ ?_
    | split

theorem State.setInst_keeps (hP : Keeps A P) (hA : Sub 0x20000000000 A) {s : State} {i : Nat} {x : Inst} (hs : P s) : P (State.setInst s i x) := by
  unfold State.setInst
  repeat' first
    | with_reducible assumption
    | (rw [State.mk_insts]; apply hP.insts (hA.mono (by decide)))

theorem State.eachInst_keeps (hP : Keeps A P) (hA : Sub 0x0 A) {s : State} {f : Nat → Inst → State → State} (hs : P s) (hf : ∀ (x0 : Nat) (x1 : Inst) (x2 : State), P x2 → P (f x0 x1 x2)) : P (State.eachInst s f) := by
  unfold State.eachInst
  repeat' first
    | with_reducible assumption
    | with_reducible refine hf _ _ _ ?_
    | with_reducible refine keeps_foldl _ (fun _ _ _ => ?_) ?_
    | split
    | with_reducible refine keeps_pair (by assumption) ?_
    | with_reducible refine keeps_pair₂ (by assumption) ?_

theorem State.report_keeps (hP : Keeps A P) (hA : Sub 0x200008001c1 A) {s : State} {i : Nat} {head : DTime} {flags idx : Nat} {vals : List Cont} (hs : P s) : P (State.report s i head flags idx vals) := by
  unfold State.report
  repeat' first
    | with_reducible assumption
    | with_reducible refine State.setInst_keeps hP (hA.mono (by decide)) ?_
    | with_reducible refine State.result_keeps hP (hA.mono (by decide)) ?_
    | split
    | with_reducible refine keeps_pair (by assumption) ?_
    | with_reducible refine keeps_pair₂ (by assumption) ?_

theorem State.closeWindow_keeps (hP : Keeps A P) (hA : Sub 0x200008001c5 A) {s : State} {i : Nat} {x : Inst} {octaves : Nat} {g : Gate} (hs : P s) : P (State.closeWindow s i x octaves g) := by
  unfold State.closeWindow
  repeat' first
    | with_reducible assumption
    | lift_lets -underBinder
    | (intro x; revert x; refine keeps_let P ?_ (fun _ _ => ?_))
    | (intro x; clear_value x)
    | with_reducible refine State.setInst_keeps hP (hA.mono (by decide)) ?_
    | with_reducible refine hP.drawn (hA.mono (by decide)) _ ?_
    | with_reducible refine State.report_keeps hP (hA.mono (by decide)) ?_
    | with_reducible refine keeps_ite ?_ ?_
    | split

theorem State.sample_keeps (hP : Keeps A P) (hA : Sub 0x200008001c1 A) {s : State} {k : Nat} {src : Sample} {x : Option Int} {t : DTime} {inGate : Bool} (hs : P s) : P (State.sample s k src x t inGate) := by
  unfold State.sample
  repeat' first
    | with_reducible assumption
    | lift_lets -underBinder
    | (intro x; revert x; refine keeps_let P ?_ (fun _ _ => ?_))
    | (intro x; clear_value x)
    | with_reducible refine State.eachInst_keeps hP (hA.mono (by decide)) ?_ (fun _ _ _ _ => ?_)
    | with_reducible refine State.report_keeps hP (hA.mono (by decide)) ?_
    | with_reducible refine State.setInst_keeps hP (hA.mono (by decide)) ?_
    | fail_if_no_progress beta_reduce
    | with_reducible refine keeps_ite ?_ ?_
    | split
    | with_reducible refine keeps_pair (by assumption) ?_
    | with_reducible refine keeps_pair₂ (by assumption) ?_

theorem State.reportEnded_keeps (hP : Keeps A P) (hA : Sub 0x200008001c1 A) {s : State} {i : Nat} {x : Inst} {src : Sample} {g : EndedGate} {l : List (Option Int)} (hs : P s) : P (State.reportEnded s i x src g l) := by
  unfold State.reportEnded
  repeat' first
    | with_reducible assumption
    | lift_lets -underBinder
    | (intro x; revert x; refine keeps_let P ?_ (fun _ _ => ?_))
    | (intro x; clear_value x)
    | with_reducible refine State.report_keeps hP (hA.mono (by decide)) ?_
    | with_reducible refine State.eachInst_keeps hP (hA.mono (by decide)) ?_ (fun _ _ _ _ => ?_)
    | fail_if_no_progress beta_reduce
    | with_reducible refine keeps_ite ?_ ?_
    | split

theorem State.settleGate_keeps (hP : Keeps A P) (hA : Sub 0x200008001c1 A) {s : State} {i w : Nat} {x : Inst} {g : EndedGate} {r : List EndedGate} (hs : P s) : P (State.settleGate s i w x g r) := by
  unfold State.settleGate
  repeat' first
    | with_reducible assumption
    | lift_lets -underBinder
    | (intro x; revert x; refine keeps_let P ?_ (fun _ _ => ?_))
    | (intro x; clear_value x)
    | with_reducible refine State.setInst_keeps hP (hA.mono (by decide)) ?_
    | with_reducible refine State.sample_keeps hP (hA.mono (by decide)) ?_
    | with_reducible refine State.reportEnded_keeps hP (hA.mono (by decide)) ?_
    | with_reducible refine keeps_foldl _ (fun _ _ _ => ?_) ?_
    | fail_if_no_progress beta_reduce
    | with_reducible refine keeps_ite ?_ ?_
    | split
    | with_reducible refine keeps_pair (by assumption) ?_
    | with_reducible refine keeps_pair₂ (by assumption) ?_

theorem State.settleEnded_keeps (hP : Keeps A P) (hA : Sub 0x200008001c1 A) {s : State} {i w : Nat} {all : Bool} {l0 : Nat} (hs : P s) : P (State.settleEnded s i w all l0) := by
  induction l0 generalizing s with
  | zero =>
    unfold State.settleEnded
    repeat' first
      | with_reducible assumption
      | with_reducible refine State.settleGate_keeps hP (hA.mono (by decide)) ?_
      | with_reducible refine keeps_ite ?_ ?_
      | split
      | with_reducible refine keeps_pair (by assumption) ?_
      | with_reducible refine keeps_pair₂ (by assumption) ?_
  | succ m ih =>
    unfold State.settleEnded
    repeat' first
      | with_reducible assumption
      | with_reducible refine ih ?_
      | with_reducible refine State.settleGate_keeps hP (hA.mono (by decide)) ?_
      | with_reducible refine keeps_ite ?_ ?_
      | split
      | with_reducible refine keeps_pair (by assumption) ?_
      | with_reducible refine keeps_pair₂ (by assumption) ?_

theorem State.settlePhase_keeps (hP : Keeps A P) (hA : Sub 0x200008001c5 A) {s : State} {i : Nat} {all : Bool} {l0 : Nat} (hs : P s) : P (State.settlePhase s i all l0) := by
  induction l0 generalizing s with
  | zero =>
    unfold State.settlePhase
    repeat' first
      | with_reducible assumption
      | lift_lets -underBinder
      | (intro x; revert x; refine keeps_let P ?_ (fun _ _ => ?_))
      | (intro x; clear_value x)
      | with_reducible refine State.report_keeps hP (hA.mono (by decide)) ?_
      | with_reducible refine State.setInst_keeps hP (hA.mono (by decide)) ?_
      | with_reducible refine hP.drawn (hA.mono (by decide)) _ ?_
      | fail_if_no_progress beta_reduce
      | with_reducible refine keeps_ite ?_ ?_
      | split
      | with_reducible refine keeps_pair (by assumption) ?_
      | with_reducible refine keeps_pair₂ (by assumption) ?_
  | succ m ih =>
    unfold State.settlePhase
    repeat' first
      | with_reducible assumption
      | lift_lets -underBinder
      | (intro x; revert x; refine keeps_let P ?_ (fun _ _ => ?_))
      | (intro x; clear_value x)
      | with_reducible refine ih ?_
      | with_reducible refine State.report_keeps hP (hA.mono (by decide)) ?_
      | with_reducible refine State.setInst_keeps hP (hA.mono (by decide)) ?_
      | with_reducible refine hP.drawn (hA.mono (by decide)) _ ?_
      | fail_if_no_progress beta_reduce
      | with_reducible refine keeps_ite ?_ ?_
      | split
      | with_reducible refine keeps_pair (by assumption) ?_
      | with_reducible refine keeps_pair₂ (by assumption) ?_

theorem State.gateReport_keeps (hP : Keeps A P) (hA : Sub 0x200008001c5 A) {s : State} {k : Nat} {g : Gate} {extra : Nat} {early empty : Bool} {i : Nat} {x : Inst} (hs : P s) : P (State.gateReport s k g extra early empty i x) := by
  unfold State.gateReport
  repeat' first
    | with_reducible assumption
    | lift_lets -underBinder
    | (intro x; revert x; refine keeps_let P ?_ (fun _ _ => ?_))
    | (intro x; clear_value x)
    | with_reducible refine State.setInst_keeps hP (hA.mono (by decide)) ?_
    | with_reducible refine State.report_keeps hP (hA.mono (by decide)) ?_
    | with_reducible refine hP.drawn (hA.mono (by decide)) _ ?_
    | with_reducible refine State.closeWindow_keeps hP (hA.mono (by decide)) ?_
    | fail_if_no_progress beta_reduce
    | with_reducible refine keeps_ite ?_ ?_
    | split
    | with_reducible refine keeps_pair (by assumption) ?_
    | with_reducible refine keeps_pair₂ (by assumption) ?_

theorem State.settleWaiting_keeps (hP : Keeps A P) (hA : Sub 0x200008001c5 A) {s : State} {k : Nat} (hs : P s) : P (State.settleWaiting s k) := by
  unfold State.settleWaiting
  dsimp only
  repeat' first
    | with_reducible assumption
    | lift_lets -underBinder
    | (intro x; revert x; refine keeps_let P ?_ (fun _ _ => ?_))
    | (intro x; clear_value x)
    | with_reducible refine State.eachInst_keeps hP (hA.mono (by decide)) ?_ (fun _ _ _ _ => ?_)
    | with_reducible refine State.settleEnded_keeps hP (hA.mono (by decide)) ?_
    | with_reducible refine State.settlePhase_keeps hP (hA.mono (by decide)) ?_
    | fail_if_no_progress beta_reduce
    | with_reducible refine keeps_ite ?_ ?_
    | split
    | with_reducible refine keeps_pair (by assumption) ?_
    | with_reducible refine keeps_pair₂ (by assumption) ?_

theorem State.closeGate_keeps (hP : Keeps A P) (hA : Sub 0x2000200008041ed A) {s : State} {k : Nat} {g : Gate} {extra : Nat} {early : Bool} (hs : P s) : P (State.closeGate s k g extra early) := by
  unfold State.closeGate
  repeat' first
    | with_reducible assumption
    | lift_lets -underBinder
    | (intro x; revert x; refine keeps_let P ?_ (fun _ _ => ?_))
    | (intro x; clear_value x)
    | with_reducible refine State.eachInst_keeps hP (hA.mono (by decide)) ?_ (fun _ _ _ _ => ?_)
    | with_reducible refine State.gateReport_keeps hP (hA.mono (by decide)) ?_
    | with_reducible refine State.setAcc_keeps hP (hA.mono (by decide)) ?_
    | with_reducible refine State.setFld_unit hP (hA.mono (by decide)) (by first | omega | (simp only [tbPage, jrnlPage, svcPage, swarmPage, eslPage, dmaPage, synPage, domPage, linkPage, dmacPage, chPage, regPage, blkPage, bankPage]; omega)) ?_
    | with_reducible refine State.addSat_unit hP (hA.mono (by decide)) (by first | omega | (simp only [tbPage, jrnlPage, svcPage, swarmPage, eslPage, dmaPage, synPage, domPage, linkPage, dmacPage, chPage, regPage, blkPage, bankPage]; omega)) ?_
    | with_reducible refine State.settleWaiting_keeps hP (hA.mono (by decide)) ?_
    | with_reducible refine State.post_unit hP (hA.mono (by decide)) (by first | omega | (simp only [tbPage, jrnlPage, svcPage, swarmPage, eslPage, dmaPage, synPage, domPage, linkPage, dmacPage, chPage, regPage, blkPage, bankPage]; omega)) ?_
    | fail_if_no_progress beta_reduce
    | with_reducible refine keeps_ite ?_ ?_
    | split

theorem State.endChain_keeps (hP : Keeps A P) (hA : Sub 0x2000200008041ed A) {s : State} {k : Nat} {g : Option Gate} (hs : P s) : P (State.endChain s k g) := by
  unfold State.endChain
  repeat' first
    | with_reducible assumption
    | lift_lets -underBinder
    | (intro x; revert x; refine keeps_let P ?_ (fun _ _ => ?_))
    | (intro x; clear_value x)
    | with_reducible refine State.eachInst_keeps hP (hA.mono (by decide)) ?_ (fun _ _ _ _ => ?_)
    | with_reducible refine State.closeWindow_keeps hP (hA.mono (by decide)) ?_
    | with_reducible refine State.setInst_keeps hP (hA.mono (by decide)) ?_
    | with_reducible refine State.setAcc_keeps hP (hA.mono (by decide)) ?_
    | with_reducible refine State.post_unit hP (hA.mono (by decide)) (by first | omega | (simp only [tbPage, jrnlPage, svcPage, swarmPage, eslPage, dmaPage, synPage, domPage, linkPage, dmacPage, chPage, regPage, blkPage, bankPage]; omega)) ?_
    | with_reducible refine State.setFld_unit hP (hA.mono (by decide)) (by first | omega | (simp only [tbPage, jrnlPage, svcPage, swarmPage, eslPage, dmaPage, synPage, domPage, linkPage, dmacPage, chPage, regPage, blkPage, bankPage]; omega)) ?_
    | with_reducible refine State.addSat_unit hP (hA.mono (by decide)) (by first | omega | (simp only [tbPage, jrnlPage, svcPage, swarmPage, eslPage, dmaPage, synPage, domPage, linkPage, dmacPage, chPage, regPage, blkPage, bankPage]; omega)) ?_
    | fail_if_no_progress beta_reduce
    | with_reducible refine keeps_ite ?_ ?_
    | split
    | with_reducible refine keeps_pair (by assumption) ?_
    | with_reducible refine keeps_pair₂ (by assumption) ?_

theorem State.anchorGrid_keeps (hP : Keeps A P) (hA : Sub 0x4000 A) {s : State} {k j : Nat} {b : DTime} (hs : P s) : P (State.anchorGrid s k j b) := by
  unfold State.anchorGrid
  repeat' first
    | with_reducible assumption
    | with_reducible refine State.setAcc_keeps hP (hA.mono (by decide)) ?_

theorem State.anchorAt_keeps (hP : Keeps A P) (hA : Sub 0x4000 A) {s : State} {k : Nat} {t : DTime} (hs : P s) : P (State.anchorAt s k t) := by
  unfold State.anchorAt
  repeat' first
    | with_reducible assumption
    | lift_lets -underBinder
    | (intro x; revert x; refine keeps_let P ?_ (fun _ _ => ?_))
    | (intro x; first | (have _h : Nat := x; clear _h; subst x) | clear_value x)
    | with_reducible refine State.anchorGrid_keeps hP (hA.mono (by decide)) ?_
    | with_reducible refine keeps_ite ?_ ?_
    | split

theorem State.reclampGate_keeps (hP : Keeps A P) (hA : Sub 0x2000000008003e9 A) {s : State} {k : Nat} (hs : P s) : P (State.reclampGate s k) := by
  unfold State.reclampGate
  repeat' first
    | with_reducible assumption
    | lift_lets -underBinder
    | (intro x; revert x; refine keeps_let P ?_ (fun _ _ => ?_))
    | (intro x; first | (have _h : Nat := x; clear _h; subst x) | clear_value x)
    | with_reducible refine State.entry_keeps hP (hA.mono (by decide)) ?_
    | with_reducible refine State.raise_unit hP (hA.mono (by decide)) (by first | omega | (simp only [tbPage, jrnlPage, svcPage, swarmPage, eslPage, dmaPage, synPage, domPage, linkPage, dmacPage, chPage, regPage, blkPage, bankPage]; omega)) ?_
    | with_reducible refine hP.wr (hA.mono (by decide)) _ _ _ (by first | omega | (simp only [tbPage, jrnlPage, svcPage, swarmPage, eslPage, dmaPage, synPage, domPage, linkPage, dmacPage, chPage, regPage, blkPage, bankPage]; omega)) ?_
    | with_reducible refine State.setFld_unit hP (hA.mono (by decide)) (by first | omega | (simp only [tbPage, jrnlPage, svcPage, swarmPage, eslPage, dmaPage, synPage, domPage, linkPage, dmacPage, chPage, regPage, blkPage, bankPage]; omega)) ?_
    | with_reducible refine keeps_ite ?_ ?_
    | split

theorem State.intervalResult_keeps (hP : Keeps A P) (hA : Sub 0x200008001c1 A) {s : State} {i : Nat} {x : Inst} {arming : Arming} {ta : DTime} {ign : Nat} {flags : Nat} {head : DTime} {gapSpan : Nat} (hs : P s) : P (State.intervalResult s i x arming ta ign flags head gapSpan) := by
  unfold State.intervalResult
  repeat' first
    | with_reducible assumption
    | lift_lets -underBinder
    | (intro x; revert x; refine keeps_let P ?_ (fun _ _ => ?_))
    | (intro x; clear_value x)
    | with_reducible refine State.setInst_keeps hP (hA.mono (by decide)) ?_
    | with_reducible refine State.report_keeps hP (hA.mono (by decide)) ?_
    | with_reducible refine State.sample_keeps hP (hA.mono (by decide)) ?_
    | with_reducible refine keeps_ite ?_ ?_
    | split

theorem State.tryStops_keeps (hP : Keeps A P) (hA : Sub 0x200008001c1 A) {s : State} {i : Nat} {arming : Arming} {holdoff : Nat} {l0 : List (Nat × DTime)} (hs : P s) : P (State.tryStops s i arming holdoff l0) := by
  induction l0 generalizing s with
  | nil =>
    unfold State.tryStops
    repeat' first
      | with_reducible assumption
      | with_reducible refine State.intervalResult_keeps hP (hA.mono (by decide)) ?_
      | with_reducible refine keeps_ite ?_ ?_
      | split
      | with_reducible refine keeps_pair (by assumption) ?_
      | with_reducible refine keeps_pair₂ (by assumption) ?_
  | cons x r ih =>
    unfold State.tryStops
    repeat' first
      | with_reducible assumption
      | with_reducible refine ih ?_
      | with_reducible refine State.intervalResult_keeps hP (hA.mono (by decide)) ?_
      | with_reducible refine keeps_ite ?_ ?_
      | split
      | with_reducible refine keeps_pair (by assumption) ?_
      | with_reducible refine keeps_pair₂ (by assumption) ?_

theorem State.intervalEdge_keeps (hP : Keeps A P) (hA : Sub 0x200008001c1 A) {s : State} {k m : Nat} {t : DTime} {rising : Bool} {i : Nat} {x : Inst} (hs : P s) : P (State.intervalEdge s k m t rising i x) := by
  unfold State.intervalEdge
  repeat' first
    | with_reducible assumption
    | lift_lets -underBinder
    | (intro x; revert x; refine keeps_let P ?_ (fun _ _ => ?_))
    | (intro x; clear_value x)
    | with_reducible refine State.setInst_keeps hP (hA.mono (by decide)) ?_
    | with_reducible refine State.tryStops_keeps hP (hA.mono (by decide)) ?_
    | fail_if_no_progress beta_reduce
    | with_reducible refine keeps_ite ?_ ?_
    | split
    | with_reducible refine keeps_pair (by assumption) ?_
    | with_reducible refine keeps_pair₂ (by assumption) ?_

theorem State.intervalGap_keeps (hP : Keeps A P) (hA : Sub 0x200008001c1 A) {s : State} {k : Nat} {start : DTime} {span : Nat} {i : Nat} {x : Inst} (hs : P s) : P (State.intervalGap s k start span i x) := by
  unfold State.intervalGap
  repeat' first
    | with_reducible assumption
    | with_reducible refine State.intervalResult_keeps hP (hA.mono (by decide)) ?_
    | with_reducible refine State.setInst_keeps hP (hA.mono (by decide)) ?_
    | with_reducible refine keeps_ite ?_ ?_
    | split
    | with_reducible refine keeps_pair (by assumption) ?_
    | with_reducible refine keeps_pair₂ (by assumption) ?_

theorem State.intervalEnd_keeps (hP : Keeps A P) (hA : Sub 0x200008001c1 A) {s : State} {k flags : Nat} {byStop : Bool} (hs : P s) : P (State.intervalEnd s k flags byStop) := by
  unfold State.intervalEnd
  repeat' first
    | with_reducible assumption
    | with_reducible refine State.eachInst_keeps hP (hA.mono (by decide)) ?_ (fun _ _ _ _ => ?_)
    | with_reducible refine State.intervalResult_keeps hP (hA.mono (by decide)) ?_
    | with_reducible refine keeps_ite ?_ ?_
    | split
    | with_reducible refine keeps_pair (by assumption) ?_
    | with_reducible refine keeps_pair₂ (by assumption) ?_

theorem State.startInsts_keeps (hP : Keeps A P) (hA : Sub 0x20000000000 A) {s : State} (hs : P s) : P (State.startInsts s) := by
  unfold State.startInsts
  repeat' first
    | with_reducible assumption
    | lift_lets -underBinder
    | (intro x; revert x; refine keeps_let P ?_ (fun _ _ => ?_))
    | (intro x; clear_value x)
    | fail_if_no_progress beta_reduce
    | split
    | (rw [State.mk_insts]; apply hP.insts (hA.mono (by decide)))
    | with_reducible refine keeps_pair (by assumption) ?_
    | with_reducible refine keeps_pair₂ (by assumption) ?_

theorem State.armDecision_keeps (hP : Keeps A P) (hA : Sub 0x20000000000 A) {s : State} {ch : Nat} {num : BitVec 6} {t : DTime} (hs : P s) : P (State.armDecision s ch num t) := by
  unfold State.armDecision
  repeat' first
    | with_reducible assumption
    | with_reducible refine State.eachInst_keeps hP (hA.mono (by decide)) ?_ (fun _ _ _ _ => ?_)
    | with_reducible refine State.setInst_keeps hP (hA.mono (by decide)) ?_
    | with_reducible refine keeps_ite ?_ ?_
    | split
    | with_reducible refine keeps_pair (by assumption) ?_
    | with_reducible refine keeps_pair₂ (by assumption) ?_

theorem State.gateDecision_keeps (hP : Keeps A P) (hA : Sub 0x4000 A) {s : State} {k : Nat} {t : DTime} (hs : P s) : P (State.gateDecision s k t) := by
  unfold State.gateDecision
  repeat' first
    | with_reducible assumption
    | lift_lets -underBinder
    | (intro x; revert x; refine keeps_let P ?_ (fun _ _ => ?_))
    | (intro x; clear_value x)
    | with_reducible refine State.setAcc_keeps hP (hA.mono (by decide)) ?_
    | with_reducible refine keeps_ite ?_ ?_
    | split
    | with_reducible refine keeps_pair (by assumption) ?_
    | with_reducible refine keeps_pair₂ (by assumption) ?_

theorem State.reachBucket_keeps (hP : Keeps A P) (hA : Sub 0x4000 A) {s : State} {k : Nat} {t : DTime} (hs : P s) : P (State.reachBucket s k t) := by
  unfold State.reachBucket
  repeat' first
    | with_reducible assumption
    | lift_lets -underBinder
    | (intro x; revert x; refine keeps_let P ?_ (fun _ _ => ?_))
    | (intro x; clear_value x)
    | with_reducible refine State.setAcc_keeps hP (hA.mono (by decide)) ?_
    | with_reducible refine keeps_ite ?_ ?_
    | split
    | with_reducible refine keeps_pair (by assumption) ?_
    | with_reducible refine keeps_pair₂ (by assumption) ?_

theorem State.countAt_keeps (hP : Keeps A P) (hA : Sub 0x4000 A) {s : State} {k n : Nat} {t : DTime} (hs : P s) : P (State.countAt s k n t) := by
  unfold State.countAt
  repeat' first
    | with_reducible assumption
    | lift_lets -underBinder
    | (intro x; revert x; refine keeps_let P ?_ (fun _ _ => ?_))
    | (intro x; clear_value x)
    | with_reducible refine State.setAcc_keeps hP (hA.mono (by decide)) ?_
    | with_reducible refine keeps_ite ?_ ?_
    | split

theorem State.countNow_keeps (hP : Keeps A P) (hA : Sub 0x4000 A) {s : State} {k n : Nat} (hs : P s) : P (State.countNow s k n) := by
  unfold State.countNow
  repeat' first
    | with_reducible assumption
    | with_reducible refine State.countAt_keeps hP (hA.mono (by decide)) ?_
    | with_reducible refine keeps_ite ?_ ?_
    | split

theorem State.leaveTime_keeps (hP : Keeps A P) (hA : Sub 0x4000 A) {s : State} {k : Nat} {t : DTime} (hs : P s) : P (State.leaveTime s k t) := by
  unfold State.leaveTime
  repeat' first
    | with_reducible assumption
    | lift_lets -underBinder
    | (intro x; revert x; refine keeps_let P ?_ (fun _ _ => ?_))
    | (intro x; clear_value x)
    | with_reducible refine State.anchorAt_keeps hP (hA.mono (by decide)) ?_
    | with_reducible refine State.reachBucket_keeps hP (hA.mono (by decide)) ?_
    | with_reducible refine State.setAcc_keeps hP (hA.mono (by decide)) ?_
    | fail_if_no_progress beta_reduce
    | with_reducible refine keeps_ite ?_ ?_
    | split

theorem State.enterTime_keeps (hP : Keeps A P) (hA : Sub 0x4000 A) {s : State} {k : Nat} {t : DTime} (hs : P s) : P (State.enterTime s k t) := by
  unfold State.enterTime
  repeat' first
    | with_reducible assumption
    | lift_lets -underBinder
    | (intro x; revert x; refine keeps_let P ?_ (fun _ _ => ?_))
    | (intro x; first | (have _h : Nat := x; clear _h; subst x) | clear_value x)
    | with_reducible refine State.setAcc_keeps hP (hA.mono (by decide)) ?_
    | with_reducible refine keeps_ite ?_ ?_
    | split

theorem State.countGap_keeps (hP : Keeps A P) (hA : Sub 0x4000 A) {s : State} {k : Nat} {t0 t1 : DTime} (hs : P s) : P (State.countGap s k t0 t1) := by
  unfold State.countGap
  repeat' first
    | with_reducible assumption
    | lift_lets -underBinder
    | (intro x; revert x; refine keeps_let P ?_ (fun _ _ => ?_))
    | (intro x; clear_value x)
    | with_reducible refine State.setAcc_keeps hP (hA.mono (by decide)) ?_
    | with_reducible refine keeps_ite ?_ ?_
    | split

theorem State.regrid_keeps (hP : Keeps A P) (hA : Sub 0x4000 A) {s : State} {k : Nat} (hs : P s) : P (State.regrid s k) := by
  unfold State.regrid
  repeat' first
    | with_reducible assumption
    | lift_lets -underBinder
    | (intro x; revert x; refine keeps_let P ?_ (fun _ _ => ?_))
    | (intro x; clear_value x)
    | with_reducible refine State.setAcc_keeps hP (hA.mono (by decide)) ?_
    | fail_if_no_progress beta_reduce
    | with_reducible refine keeps_ite ?_ ?_
    | split

theorem State.countResult_keeps (hP : Keeps A P) (hA : Sub 0x200008041c5 A) {s : State} {k : Nat} (hs : P s) : P (State.countResult s k) := by
  unfold State.countResult
  repeat' first
    | with_reducible assumption
    | lift_lets -underBinder
    | (intro x; revert x; refine keeps_let P ?_ (fun _ _ => ?_))
    | (intro x; clear_value x)
    | with_reducible refine State.reachBucket_keeps hP (hA.mono (by decide)) ?_
    | with_reducible refine State.setAcc_keeps hP (hA.mono (by decide)) ?_
    | with_reducible refine hP.drawn (hA.mono (by decide)) _ ?_
    | with_reducible refine State.eachInst_keeps hP (hA.mono (by decide)) ?_ (fun _ _ _ _ => ?_)
    | with_reducible refine State.report_keeps hP (hA.mono (by decide)) ?_
    | with_reducible refine keeps_foldl _ (fun _ _ _ => ?_) ?_
    | fail_if_no_progress beta_reduce
    | with_reducible refine keeps_ite ?_ ?_
    | split
    | with_reducible refine keeps_pair (by assumption) ?_
    | with_reducible refine keeps_pair₂ (by assumption) ?_

theorem State.stuckResult_keeps (hP : Keeps A P) (hA : Sub 0x200008001c1 A) {s : State} {k j : Nat} {b : DTime} (hs : P s) : P (State.stuckResult s k j b) := by
  unfold State.stuckResult
  repeat' first
    | with_reducible assumption
    | lift_lets -underBinder
    | (intro x; revert x; refine keeps_let P ?_ (fun _ _ => ?_))
    | (intro x; clear_value x)
    | with_reducible refine State.eachInst_keeps hP (hA.mono (by decide)) ?_ (fun _ _ _ _ => ?_)
    | with_reducible refine State.report_keeps hP (hA.mono (by decide)) ?_
    | with_reducible refine State.setInst_keeps hP (hA.mono (by decide)) ?_
    | fail_if_no_progress beta_reduce
    | with_reducible refine keeps_ite ?_ ?_
    | split
    | with_reducible refine keeps_pair (by assumption) ?_
    | with_reducible refine keeps_pair₂ (by assumption) ?_

theorem State.stuckRun_keeps (hP : Keeps A P) (hA : Sub 0x200008001c1 A) {s : State} {k : Nat} {l0 : Nat} {l1 : Nat} (hs : P s) : P (State.stuckRun s k l0 l1) := by
  induction l0 generalizing s l1 with
  | zero =>
    unfold State.stuckRun
    repeat' first
      | with_reducible assumption
      | with_reducible refine State.stuckResult_keeps hP (hA.mono (by decide)) ?_
  | succ m ih =>
    unfold State.stuckRun
    repeat' first
      | with_reducible assumption
      | with_reducible refine ih ?_
      | with_reducible refine State.stuckResult_keeps hP (hA.mono (by decide)) ?_

theorem State.deliverSummary_keeps (hP : Keeps A P) (hA : Sub 0x2000000008103e9 A) {s : State} {k : Nat} {b : SubGate} (hs : P s) : P (State.deliverSummary s k b) := by
  unfold State.deliverSummary
  repeat' first
    | with_reducible assumption
    | with_reducible refine State.deliver_keeps hP (hA.mono (by decide)) ?_ (fun _ _ _ => ?_)
    | with_reducible refine State.addWrap_unit hP (hA.mono (by decide)) (by first | omega | (simp only [tbPage, jrnlPage, svcPage, swarmPage, eslPage, dmaPage, synPage, domPage, linkPage, dmacPage, chPage, regPage, blkPage, bankPage]; omega)) ?_
    | with_reducible refine State.summaryEntry_keeps hP (hA.mono (by decide)) ?_

theorem State.deliverSummaries_keeps (hP : Keeps A P) (hA : Sub 0xa000000008103e9 A) {s : State} (hs : P s) : P (State.deliverSummaries s) := by
  unfold State.deliverSummaries
  repeat' first
    | with_reducible assumption
    | with_reducible refine State.deliverSummary_keeps hP (hA.mono (by decide)) ?_
    | with_reducible refine keeps_foldl _ (fun _ _ _ => ?_) ?_
    | (rw [State.mk_summaries]; apply hP.summaries (hA.mono (by decide)))

theorem State.closeSub_keeps (hP : Keeps A P) (hA : Sub 0x800000000004000 A) {s : State} {k : Nat} {boundary : Bool} (hs : P s) : P (State.closeSub s k boundary) := by
  unfold State.closeSub
  repeat' first
    | with_reducible assumption
    | lift_lets -underBinder
    | (intro x; revert x; refine keeps_let P ?_ (fun _ _ => ?_))
    | (intro x; clear_value x)
    | with_reducible refine State.setAcc_keeps hP (hA.mono (by decide)) ?_
    | split
    | (rw [State.mk_summaries]; apply hP.summaries (hA.mono (by decide)))
    | with_reducible refine keeps_pair (by assumption) ?_
    | with_reducible refine keeps_pair₂ (by assumption) ?_

theorem State.disarm_keeps (hP : Keeps A P) (hA : Sub 0x20000000000 A) {s : State} {k : Nat} (hs : P s) : P (State.disarm s k) := by
  unfold State.disarm
  repeat' first
    | with_reducible assumption
    | with_reducible refine State.eachInst_keeps hP (hA.mono (by decide)) ?_ (fun _ _ _ _ => ?_)
    | with_reducible refine State.setInst_keeps hP (hA.mono (by decide)) ?_
    | with_reducible refine keeps_ite ?_ ?_
    | split
    | with_reducible refine keeps_pair (by assumption) ?_
    | with_reducible refine keeps_pair₂ (by assumption) ?_

theorem State.endGateEarly_keeps (hP : Keeps A P) (hA : Sub 0xa000200008041ed A) {s : State} {k extra : Nat} (hs : P s) : P (State.endGateEarly s k extra) := by
  unfold State.endGateEarly
  repeat' first
    | with_reducible assumption
    | lift_lets -underBinder
    | (intro x; revert x; refine keeps_let P ?_ (fun _ _ => ?_))
    | (intro x; clear_value x)
    | with_reducible refine State.closeSub_keeps hP (hA.mono (by decide)) ?_
    | with_reducible refine State.disarm_keeps hP (hA.mono (by decide)) ?_
    | with_reducible refine State.endChain_keeps hP (hA.mono (by decide)) ?_
    | with_reducible refine State.closeGate_keeps hP (hA.mono (by decide)) ?_
    | split
    | with_reducible refine keeps_pair (by assumption) ?_
    | with_reducible refine keeps_pair₂ (by assumption) ?_

theorem State.stuckMeasure_keeps (hP : Keeps A P) (hA : Sub 0xa000200008041ed A) {s : State} {k : Nat} (hs : P s) : P (State.stuckMeasure s k) := by
  unfold State.stuckMeasure
  repeat' first
    | with_reducible assumption
    | lift_lets -underBinder
    | (intro x; revert x; refine keeps_let P ?_ (fun _ _ => ?_))
    | (intro x; first | (have _h : Nat := x; clear _h; subst x) | clear_value x)
    | with_reducible refine State.endGateEarly_keeps hP (hA.mono (by decide)) ?_
    | with_reducible refine State.intervalEnd_keeps hP (hA.mono (by decide)) ?_
    | with_reducible refine State.settleWaiting_keeps hP (hA.mono (by decide)) ?_
    | with_reducible refine State.stuckRun_keeps hP (hA.mono (by decide)) ?_
    | with_reducible refine State.setAcc_keeps hP (hA.mono (by decide)) ?_
    | with_reducible refine keeps_ite ?_ ?_
    | split
    | with_reducible refine keeps_pair (by assumption) ?_
    | with_reducible refine keeps_pair₂ (by assumption) ?_

theorem State.stuckGrid_keeps (hP : Keeps A P) (hA : Sub 0x200008041c5 A) {s : State} {k : Nat} (hs : P s) : P (State.stuckGrid s k) := by
  unfold State.stuckGrid
  repeat' first
    | with_reducible assumption
    | with_reducible refine State.settleWaiting_keeps hP (hA.mono (by decide)) ?_
    | with_reducible refine State.setAcc_keeps hP (hA.mono (by decide)) ?_
    | with_reducible refine State.stuckResult_keeps hP (hA.mono (by decide)) ?_
    | with_reducible refine keeps_ite ?_ ?_
    | split
    | with_reducible refine keeps_pair (by assumption) ?_
    | with_reducible refine keeps_pair₂ (by assumption) ?_

theorem State.stuckExpire_keeps (hP : Keeps A P) (hA : Sub 0xa000200008043ed A) {s : State} {k : Nat} (hs : P s) : P (State.stuckExpire s k) := by
  unfold State.stuckExpire
  repeat' first
    | with_reducible assumption
    | lift_lets -underBinder
    | (intro x; revert x; refine keeps_let P ?_ (fun _ _ => ?_))
    | (intro x; first | (have _h : Nat := x; clear _h; subst x) | clear_value x)
    | with_reducible refine State.setStuck_keeps hP (hA.mono (by decide)) ?_
    | with_reducible refine State.modChan_keeps hP (hA.mono (by decide)) ?_
    | with_reducible refine State.setBit_unit hP (hA.mono (by decide)) (by first | omega | (simp only [tbPage, jrnlPage, svcPage, swarmPage, eslPage, dmaPage, synPage, domPage, linkPage, dmacPage, chPage, regPage, blkPage, bankPage]; omega)) ?_
    | with_reducible refine State.post_unit hP (hA.mono (by decide)) (by first | omega | (simp only [tbPage, jrnlPage, svcPage, swarmPage, eslPage, dmaPage, synPage, domPage, linkPage, dmacPage, chPage, regPage, blkPage, bankPage]; omega)) ?_
    | with_reducible refine State.setPair_unit hP (hA.mono (by decide)) (by first | omega | (simp only [tbPage, jrnlPage, svcPage, swarmPage, eslPage, dmaPage, synPage, domPage, linkPage, dmacPage, chPage, regPage, blkPage, bankPage]; omega)) ?_
    | with_reducible refine State.errorAt_keeps hP (hA.mono (by decide)) ?_
    | with_reducible refine State.stuckMeasure_keeps hP (hA.mono (by decide)) ?_
    | fail_if_no_progress beta_reduce
    | with_reducible refine keeps_ite ?_ ?_
    | split

theorem State.chApplied_keeps (hP : Keeps A P) (hA : Sub 0xa000200008043ed A) {s : State} {k off : Nat} (hs : P s) : P (State.chApplied s k off) := by
  unfold State.chApplied
  repeat' first
    | with_reducible assumption
    | lift_lets -underBinder
    | (intro x; revert x; refine keeps_let P ?_ (fun _ _ => ?_))
    | (intro x; first | (have _h : Nat := x; clear _h; subst x) | clear_value x)
    | with_reducible refine State.post_unit hP (hA.mono (by decide)) (by first | omega | (simp only [tbPage, jrnlPage, svcPage, swarmPage, eslPage, dmaPage, synPage, domPage, linkPage, dmacPage, chPage, regPage, blkPage, bankPage]; omega)) ?_
    | with_reducible refine State.showWin_keeps hP (hA.mono (by decide)) ?_
    | with_reducible refine State.stuckExpire_keeps hP (hA.mono (by decide)) ?_
    | with_reducible refine keeps_ite ?_ ?_
    | split

theorem State.applyChan_keeps (hP : Keeps A P) (hA : Sub 0xa000200008047ed A) {s : State} {k : Nat} {t : DTime} (hs : P s) : P (State.applyChan s k t) := by
  unfold State.applyChan
  repeat' first
    | with_reducible assumption
    | lift_lets -underBinder
    | (intro x; revert x; refine keeps_let P ?_ (fun _ _ => ?_))
    | (intro x; clear_value x)
    | with_reducible refine State.applyValue_unit hP (hA.mono (by decide)) (by first | omega | (simp only [tbPage, jrnlPage, svcPage, swarmPage, eslPage, dmaPage, synPage, domPage, linkPage, dmacPage, chPage, regPage, blkPage, bankPage]; omega)) ?_
    | with_reducible refine hP.shadow (hA.mono (by decide)) _ _ _ ?_
    | with_reducible refine State.chApplied_keeps hP (hA.mono (by decide)) ?_
    | with_reducible refine State.journalAt_keeps hP (hA.mono (by decide)) ?_
    | with_reducible refine State.reclampGate_keeps hP (hA.mono (by decide)) ?_
    | with_reducible refine keeps_foldl _ (fun _ _ _ => ?_) ?_
    | fail_if_no_progress beta_reduce
    | with_reducible refine keeps_ite ?_ ?_
    | split
    | with_reducible refine keeps_pair (by assumption) ?_
    | with_reducible refine keeps_pair₂ (by assumption) ?_

theorem State.closeFull_keeps (hP : Keeps A P) (hA : Sub 0x800000000004000 A) {s : State} {k : Nat} (hs : P s) : P (State.closeFull s k) := by
  unfold State.closeFull
  repeat' first
    | with_reducible assumption
    | with_reducible refine State.closeSub_keeps hP (hA.mono (by decide)) ?_
    | with_reducible refine keeps_ite ?_ ?_
    | split

theorem State.openGate_keeps (hP : Keeps A P) (hA : Sub 0x800020000004001 A) {s : State} {k m : Nat} {t : DTime} {newChain : Bool} (hs : P s) : P (State.openGate s k m t newChain) := by
  unfold State.openGate
  repeat' first
    | with_reducible assumption
    | lift_lets -underBinder
    | (intro x; revert x; refine keeps_let P ?_ (fun _ _ => ?_))
    | (intro x; clear_value x)
    | with_reducible refine State.setAcc_keeps hP (hA.mono (by decide)) ?_
    | with_reducible refine State.setPair_unit hP (hA.mono (by decide)) (by first | omega | (simp only [tbPage, jrnlPage, svcPage, swarmPage, eslPage, dmaPage, synPage, domPage, linkPage, dmacPage, chPage, regPage, blkPage, bankPage]; omega)) ?_
    | with_reducible refine State.setFld_unit hP (hA.mono (by decide)) (by first | omega | (simp only [tbPage, jrnlPage, svcPage, swarmPage, eslPage, dmaPage, synPage, domPage, linkPage, dmacPage, chPage, regPage, blkPage, bankPage]; omega)) ?_
    | with_reducible refine State.closeFull_keeps hP (hA.mono (by decide)) ?_
    | with_reducible refine State.eachInst_keeps hP (hA.mono (by decide)) ?_ (fun _ _ _ _ => ?_)
    | with_reducible refine State.setInst_keeps hP (hA.mono (by decide)) ?_
    | fail_if_no_progress beta_reduce
    | with_reducible refine keeps_ite ?_ ?_
    | split

theorem State.pairEdge_keeps (hP : Keeps A P) (hA : Sub 0x200008041c1 A) {s : State} {k : Nat} {t : DTime} {c : PairSums} (hs : P s) : P (State.pairEdge s k t c) := by
  unfold State.pairEdge
  repeat' first
    | with_reducible assumption
    | lift_lets -underBinder
    | (intro x; revert x; refine keeps_let P ?_ (fun _ _ => ?_))
    | (intro x; clear_value x)
    | with_reducible refine State.setAcc_keeps hP (hA.mono (by decide)) ?_
    | with_reducible refine State.sample_keeps hP (hA.mono (by decide)) ?_
    | with_reducible refine keeps_ite ?_ ?_
    | split

theorem State.pairSub_keeps (hP : Keeps A P) (hA : Sub 0x4000 A) {s : State} {k : Nat} {c : PairSums} (hs : P s) : P (State.pairSub s k c) := by
  unfold State.pairSub
  repeat' first
    | with_reducible assumption
    | lift_lets -underBinder
    | (intro x; revert x; refine keeps_let P ?_ (fun _ _ => ?_))
    | (intro x; clear_value x)
    | with_reducible refine State.setAcc_keeps hP (hA.mono (by decide)) ?_
    | split
    | with_reducible refine keeps_pair (by assumption) ?_
    | with_reducible refine keeps_pair₂ (by assumption) ?_

theorem State.subEdge_keeps (hP : Keeps A P) (hA : Sub 0x800000000004000 A) {s : State} {k : Nat} {t : DTime} {idx : Nat} {c : PairSums} {boundary : Bool} (hs : P s) : P (State.subEdge s k t idx c boundary) := by
  unfold State.subEdge
  repeat' first
    | with_reducible assumption
    | lift_lets -underBinder
    | (intro x; revert x; refine keeps_let P ?_ (fun _ _ => ?_))
    | (intro x; clear_value x)
    | with_reducible refine State.closeSub_keeps hP (hA.mono (by decide)) ?_
    | with_reducible refine State.setAcc_keeps hP (hA.mono (by decide)) ?_
    | with_reducible refine State.closeFull_keeps hP (hA.mono (by decide)) ?_
    | with_reducible refine keeps_ite ?_ ?_
    | split
    | with_reducible refine keeps_pair (by assumption) ?_
    | with_reducible refine keeps_pair₂ (by assumption) ?_

theorem State.bar_keeps (hP : Keeps A P) (hA : Sub 0x4000 A) {s : State} {k : Nat} (hs : P s) : P (State.bar s k) := by
  unfold State.bar
  repeat' first
    | with_reducible assumption
    | with_reducible refine State.setAcc_keeps hP (hA.mono (by decide)) ?_

theorem State.applyIdle_keeps (hP : Keeps A P) (hA : Sub 0xa000200008047ed A) {s : State} {k : Nat} {t : DTime} (hs : P s) : P (State.applyIdle s k t) := by
  unfold State.applyIdle
  repeat' first
    | with_reducible assumption
    | lift_lets -underBinder
    | (intro x; revert x; refine keeps_let P ?_ (fun _ _ => ?_))
    | (intro x; clear_value x)
    | with_reducible refine State.bar_keeps hP (hA.mono (by decide)) ?_
    | with_reducible refine State.keepOld_keeps hP (hA.mono (by decide)) ?_
    | with_reducible refine State.leaveTime_keeps hP (hA.mono (by decide)) ?_
    | with_reducible refine State.anchorAt_keeps hP (hA.mono (by decide)) ?_
    | with_reducible refine State.applyChan_keeps hP (hA.mono (by decide)) ?_
    | with_reducible refine State.enterTime_keeps hP (hA.mono (by decide)) ?_
    | with_reducible refine State.regrid_keeps hP (hA.mono (by decide)) ?_
    | with_reducible refine keeps_ite ?_ ?_
    | split

theorem State.settlePage_keeps (hP : Keeps A P) (hA : Sub 0xa000200008047ed A) {s : State} {k : Nat} (hs : P s) : P (State.settlePage s k) := by
  unfold State.settlePage
  repeat' first
    | with_reducible assumption
    | with_reducible refine State.applyIdle_keeps hP (hA.mono (by decide)) ?_
    | with_reducible refine keeps_ite ?_ ?_
    | split

theorem State.skipGrid_keeps (hP : Keeps A P) (hA : Sub 0x20000000000 A) {s : State} {k j n : Nat} (hs : P s) : P (State.skipGrid s k j n) := by
  unfold State.skipGrid
  repeat' first
    | with_reducible assumption
    | with_reducible refine State.eachInst_keeps hP (hA.mono (by decide)) ?_ (fun _ _ _ _ => ?_)
    | with_reducible refine State.setInst_keeps hP (hA.mono (by decide)) ?_
    | with_reducible refine keeps_ite ?_ ?_
    | split
    | with_reducible refine keeps_pair (by assumption) ?_
    | with_reducible refine keeps_pair₂ (by assumption) ?_

theorem State.boundary_keeps (hP : Keeps A P) (hA : Sub 0xa000200008047ed A) {s : State} {k : Nat} {g : Gate} {m : Nat} {t tc : DTime} {raw : DTime} {rising : Bool} (hs : P s) : P (State.boundary s k g m t tc raw rising) := by
  unfold State.boundary
  repeat' first
    | with_reducible assumption
    | lift_lets -underBinder
    | (intro x; revert x; refine keeps_let P ?_ (fun _ _ => ?_))
    | (intro x; clear_value x)
    | with_reducible refine State.skipGrid_keeps hP (hA.mono (by decide)) ?_
    | with_reducible refine State.leaveTime_keeps hP (hA.mono (by decide)) ?_
    | with_reducible refine State.anchorGrid_keeps hP (hA.mono (by decide)) ?_
    | with_reducible refine State.keepOld_keeps hP (hA.mono (by decide)) ?_
    | with_reducible refine State.applyChan_keeps hP (hA.mono (by decide)) ?_
    | with_reducible refine State.enterTime_keeps hP (hA.mono (by decide)) ?_
    | with_reducible refine State.regrid_keeps hP (hA.mono (by decide)) ?_
    | with_reducible refine State.endChain_keeps hP (hA.mono (by decide)) ?_
    | with_reducible refine State.setAcc_keeps hP (hA.mono (by decide)) ?_
    | with_reducible refine State.openGate_keeps hP (hA.mono (by decide)) ?_
    | with_reducible refine keeps_ite ?_ ?_
    | split

theorem State.indexStamp_keeps (hP : Keeps A P) (hA : Sub 0xa000200008047ed A) {s : State} {k m : Nat} {t tc raw : DTime} {rising : Bool} {c : PairSums} (hs : P s) : P (State.indexStamp s k m t tc raw rising c) := by
  unfold State.indexStamp
  repeat' first
    | with_reducible assumption
    | lift_lets -underBinder
    | (intro x; revert x; refine keeps_let P ?_ (fun _ _ => ?_))
    | (intro x; clear_value x)
    | with_reducible refine State.countAt_keeps hP (hA.mono (by decide)) ?_
    | with_reducible refine State.sample_keeps hP (hA.mono (by decide)) ?_
    | with_reducible refine State.setAcc_keeps hP (hA.mono (by decide)) ?_
    | with_reducible refine State.subEdge_keeps hP (hA.mono (by decide)) ?_
    | with_reducible refine State.eachInst_keeps hP (hA.mono (by decide)) ?_ (fun _ _ _ _ => ?_)
    | with_reducible refine State.setInst_keeps hP (hA.mono (by decide)) ?_
    | with_reducible refine State.boundary_keeps hP (hA.mono (by decide)) ?_
    | with_reducible refine State.closeGate_keeps hP (hA.mono (by decide)) ?_
    | with_reducible refine State.openGate_keeps hP (hA.mono (by decide)) ?_
    | fail_if_no_progress beta_reduce
    | with_reducible refine keeps_ite ?_ ?_
    | split
    | with_reducible refine keeps_pair (by assumption) ?_
    | with_reducible refine keeps_pair₂ (by assumption) ?_

theorem State.accEdge_keeps (hP : Keeps A P) (hA : Sub 0xa000200008047ed A) {s : State} {k m : Nat} {t tc raw : DTime} {rising : Bool} (hs : P s) : P (State.accEdge s k m t tc raw rising) := by
  unfold State.accEdge
  repeat' first
    | with_reducible assumption
    | lift_lets -underBinder
    | (intro x; revert x; refine keeps_let P ?_ (fun _ _ => ?_))
    | (intro x; clear_value x)
    | with_reducible refine State.setAcc_keeps hP (hA.mono (by decide)) ?_
    | with_reducible refine State.pairEdge_keeps hP (hA.mono (by decide)) ?_
    | with_reducible refine State.indexStamp_keeps hP (hA.mono (by decide)) ?_
    | with_reducible refine State.pairSub_keeps hP (hA.mono (by decide)) ?_
    | with_reducible refine State.eachInst_keeps hP (hA.mono (by decide)) ?_ (fun _ _ _ _ => ?_)
    | with_reducible refine State.setInst_keeps hP (hA.mono (by decide)) ?_
    | fail_if_no_progress beta_reduce
    | with_reducible refine keeps_ite ?_ ?_
    | split
    | with_reducible refine keeps_pair (by assumption) ?_
    | with_reducible refine keeps_pair₂ (by assumption) ?_

theorem State.gapInsts_keeps (hP : Keeps A P) (hA : Sub 0x20000000000 A) {s : State} {k : Nat} {start : DTime} {span : Nat} (hs : P s) : P (State.gapInsts s k start span) := by
  unfold State.gapInsts
  repeat' first
    | with_reducible assumption
    | with_reducible refine State.eachInst_keeps hP (hA.mono (by decide)) ?_ (fun _ _ _ _ => ?_)
    | with_reducible refine State.setInst_keeps hP (hA.mono (by decide)) ?_
    | with_reducible refine keeps_ite ?_ ?_
    | split

theorem State.accGap_keeps (hP : Keeps A P) (hA : Sub 0x800000000004000 A) {s : State} {k m count : Nat} {start : DTime} {span : Nat} (hs : P s) : P (State.accGap s k m count start span) := by
  unfold State.accGap
  repeat' first
    | with_reducible assumption
    | lift_lets -underBinder
    | (intro x; revert x; refine keeps_let P ?_ (fun _ _ => ?_))
    | (intro x; clear_value x)
    | with_reducible refine State.countGap_keeps hP (hA.mono (by decide)) ?_
    | with_reducible refine State.setAcc_keeps hP (hA.mono (by decide)) ?_
    | with_reducible refine State.closeSub_keeps hP (hA.mono (by decide)) ?_
    | fail_if_no_progress beta_reduce
    | with_reducible refine keeps_ite ?_ ?_
    | split

theorem State.accOne_keeps (hP : Keeps A P) (hA : Sub 0xa000200008047ed A) {s : State} {k : Nat} {e : Early} (hs : P s) : P (State.accOne s k e) := by
  unfold State.accOne
  repeat' first
    | with_reducible assumption
    | with_reducible refine State.accEdge_keeps hP (hA.mono (by decide)) ?_
    | with_reducible refine State.accGap_keeps hP (hA.mono (by decide)) ?_
    | split
    | with_reducible refine keeps_pair (by assumption) ?_
    | with_reducible refine keeps_pair₂ (by assumption) ?_

theorem State.passEarly_keeps (hP : Keeps A P) (hA : Sub 0xa000200008047ed A) {s : State} {k : Nat} {l0 : List Early} (hs : P s) : P (State.passEarly s k l0).2 := by
  induction l0 generalizing s with
  | nil =>
    unfold State.passEarly
    repeat' first
      | with_reducible assumption
      | with_reducible refine State.accOne_keeps hP (hA.mono (by decide)) ?_
      | with_reducible refine keeps_ite ?_ ?_
      | split
  | cons x r ih =>
    unfold State.passEarly
    repeat' first
      | with_reducible assumption
      | with_reducible refine ih ?_
      | with_reducible refine State.accOne_keeps hP (hA.mono (by decide)) ?_
      | with_reducible refine keeps_ite ?_ ?_
      | split

theorem State.accInput_keeps (hP : Keeps A P) (hA : Sub 0xa000200008047ed A) {s : State} {k : Nat} {e : Early} (hs : P s) : P (State.accInput s k e) := by
  unfold State.accInput
  repeat' first
    | with_reducible assumption
    | lift_lets -underBinder
    | (intro x; revert x; refine keeps_let P ?_ (fun _ _ => ?_))
    | (intro x; first | (have _h : Nat := x; clear _h; subst x) | clear_value x)
    | with_reducible refine State.passEarly_keeps hP (hA.mono (by decide)) ?_
    | with_reducible refine State.setAcc_keeps hP (hA.mono (by decide)) ?_

theorem State.addSample_keeps (hP : Keeps A P) (hA : Sub 0x200008001c1 A) {s : State} {i : Nat} {x : Inst} {e : Nat} {src : Sample} {v : Option Int} {t : DTime} (hs : P s) : P (State.addSample s i x e src v t) := by
  unfold State.addSample
  repeat' first
    | with_reducible assumption
    | lift_lets -underBinder
    | (intro x; revert x; refine keeps_let P ?_ (fun _ _ => ?_))
    | (intro x; clear_value x)
    | with_reducible refine State.sample_keeps hP (hA.mono (by decide)) ?_
    | with_reducible refine State.setInst_keeps hP (hA.mono (by decide)) ?_
    | fail_if_no_progress beta_reduce
    | with_reducible refine keeps_ite ?_ ?_
    | split

theorem State.pairSample_keeps (hP : Keeps A P) (hA : Sub 0x200008001c1 A) {s : State} {c : Nat} {t : DTime} {rising : Bool} (hs : P s) : P (State.pairSample s c t rising) := by
  unfold State.pairSample
  dsimp only
  repeat' first
    | with_reducible assumption
    | lift_lets -underBinder
    | (intro x; revert x; refine keeps_let P ?_ (fun _ _ => ?_))
    | (intro x; clear_value x)
    | with_reducible refine State.eachInst_keeps hP (hA.mono (by decide)) ?_ (fun _ _ _ _ => ?_)
    | with_reducible refine State.setInst_keeps hP (hA.mono (by decide)) ?_
    | with_reducible refine State.addSample_keeps hP (hA.mono (by decide)) ?_
    | fail_if_no_progress beta_reduce
    | with_reducible refine keeps_ite ?_ ?_
    | split
    | with_reducible refine keeps_pair (by assumption) ?_
    | with_reducible refine keeps_pair₂ (by assumption) ?_

theorem State.measureStamp_keeps (hP : Keeps A P) (hA : Sub 0xa000200008047ed A) {s : State} {k m : Nat} {t tc raw : DTime} {rising : Bool} (hs : P s) : P (State.measureStamp s k m t tc raw rising) := by
  unfold State.measureStamp
  repeat' first
    | with_reducible assumption
    | lift_lets -underBinder
    | (intro x; revert x; refine keeps_let P ?_ (fun _ _ => ?_))
    | (intro x; clear_value x)
    | with_reducible refine State.accInput_keeps hP (hA.mono (by decide)) ?_
    | with_reducible refine State.pairSample_keeps hP (hA.mono (by decide)) ?_
    | with_reducible refine State.eachInst_keeps hP (hA.mono (by decide)) ?_ (fun _ _ _ _ => ?_)
    | with_reducible refine State.intervalEdge_keeps hP (hA.mono (by decide)) ?_
    | fail_if_no_progress beta_reduce

theorem State.measureGap_keeps (hP : Keeps A P) (hA : Sub 0xa000200008047ed A) {s : State} {k m count : Nat} {start : DTime} {span : Nat} (hs : P s) : P (State.measureGap s k m count start span) := by
  unfold State.measureGap
  repeat' first
    | with_reducible assumption
    | lift_lets -underBinder
    | (intro x; revert x; refine keeps_let P ?_ (fun _ _ => ?_))
    | (intro x; clear_value x)
    | with_reducible refine State.eachInst_keeps hP (hA.mono (by decide)) ?_ (fun _ _ _ _ => ?_)
    | with_reducible refine State.intervalGap_keeps hP (hA.mono (by decide)) ?_
    | with_reducible refine State.accInput_keeps hP (hA.mono (by decide)) ?_
    | with_reducible refine State.gapInsts_keeps hP (hA.mono (by decide)) ?_
    | fail_if_no_progress beta_reduce

theorem State.graceExpire_keeps (hP : Keeps A P) (hA : Sub 0xa000200008047ed A) {s : State} {k : Nat} (hs : P s) : P (State.graceExpire s k) := by
  unfold State.graceExpire
  repeat' first
    | with_reducible assumption
    | lift_lets -underBinder
    | (intro x; revert x; refine keeps_let P ?_ (fun _ _ => ?_))
    | (intro x; clear_value x)
    | with_reducible refine State.endGateEarly_keeps hP (hA.mono (by decide)) ?_
    | with_reducible refine State.intervalEnd_keeps hP (hA.mono (by decide)) ?_
    | with_reducible refine State.reachBucket_keeps hP (hA.mono (by decide)) ?_
    | with_reducible refine State.settlePage_keeps hP (hA.mono (by decide)) ?_
    | with_reducible refine State.settleWaiting_keeps hP (hA.mono (by decide)) ?_
    | with_reducible refine State.setAcc_keeps hP (hA.mono (by decide)) ?_
    | fail_if_no_progress beta_reduce
    | with_reducible refine keeps_ite ?_ ?_
    | split
    | with_reducible refine keeps_pair (by assumption) ?_
    | with_reducible refine keeps_pair₂ (by assumption) ?_

theorem State.startAcc_keeps (hP : Keeps A P) (hA : Sub 0x4001 A) {s : State} {k : Nat} (hs : P s) : P (State.startAcc s k) := by
  unfold State.startAcc
  repeat' first
    | with_reducible assumption
    | lift_lets -underBinder
    | (intro x; revert x; refine keeps_let P ?_ (fun _ _ => ?_))
    | (intro x; first | (have _h : Nat := x; clear _h; subst x) | clear_value x)
    | with_reducible refine State.setAcc_keeps hP (hA.mono (by decide)) ?_
    | with_reducible refine State.setPair_unit hP (hA.mono (by decide)) (by first | omega | (simp only [tbPage, jrnlPage, svcPage, swarmPage, eslPage, dmaPage, synPage, domPage, linkPage, dmacPage, chPage, regPage, blkPage, bankPage]; omega)) ?_
    | with_reducible refine hP.wr (hA.mono (by decide)) _ _ _ (by first | omega | (simp only [tbPage, jrnlPage, svcPage, swarmPage, eslPage, dmaPage, synPage, domPage, linkPage, dmacPage, chPage, regPage, blkPage, bankPage]; omega)) ?_
    | with_reducible refine State.setFld_unit hP (hA.mono (by decide)) (by first | omega | (simp only [tbPage, jrnlPage, svcPage, swarmPage, eslPage, dmaPage, synPage, domPage, linkPage, dmacPage, chPage, regPage, blkPage, bankPage]; omega)) ?_

theorem State.beginAcc_keeps (hP : Keeps A P) (hA : Sub 0xa000200008047ed A) {s : State} {k : Nat} {t : DTime} (hs : P s) : P (State.beginAcc s k t) := by
  unfold State.beginAcc
  repeat' first
    | with_reducible assumption
    | lift_lets -underBinder
    | (intro x; revert x; refine keeps_let P ?_ (fun _ _ => ?_))
    | (intro x; clear_value x)
    | with_reducible refine State.setAcc_keeps hP (hA.mono (by decide)) ?_
    | with_reducible refine State.accOne_keeps hP (hA.mono (by decide)) ?_
    | with_reducible refine keeps_foldl _ (fun _ _ _ => ?_) ?_
    | fail_if_no_progress beta_reduce
    | with_reducible refine keeps_ite ?_ ?_
    | split

theorem State.stopAcc_keeps (hP : Keeps A P) (hA : Sub 0x4000 A) {s : State} {k : Nat} (hs : P s) : P (State.stopAcc s k) := by
  unfold State.stopAcc
  repeat' first
    | with_reducible assumption
    | lift_lets -underBinder
    | (intro x; revert x; refine keeps_let P ?_ (fun _ _ => ?_))
    | (intro x; clear_value x)
    | with_reducible refine State.setAcc_keeps hP (hA.mono (by decide)) ?_
    | with_reducible refine keeps_ite ?_ ?_
    | split

theorem State.dropAcc_keeps (hP : Keeps A P) (hA : Sub 0x200000000004029 A) {s : State} {k : Nat} (hs : P s) : P (State.dropAcc s k) := by
  unfold State.dropAcc
  repeat' first
    | with_reducible assumption
    | lift_lets -underBinder
    | (intro x; revert x; refine keeps_let P ?_ (fun _ _ => ?_))
    | (intro x; clear_value x)
    | with_reducible refine State.setAcc_keeps hP (hA.mono (by decide)) ?_
    | with_reducible refine State.setFld_unit hP (hA.mono (by decide)) (by first | omega | (simp only [tbPage, jrnlPage, svcPage, swarmPage, eslPage, dmaPage, synPage, domPage, linkPage, dmacPage, chPage, regPage, blkPage, bankPage]; omega)) ?_
    | with_reducible refine State.post_unit hP (hA.mono (by decide)) (by first | omega | (simp only [tbPage, jrnlPage, svcPage, swarmPage, eslPage, dmaPage, synPage, domPage, linkPage, dmacPage, chPage, regPage, blkPage, bankPage]; omega)) ?_
    | with_reducible refine State.addSat_unit hP (hA.mono (by decide)) (by first | omega | (simp only [tbPage, jrnlPage, svcPage, swarmPage, eslPage, dmaPage, synPage, domPage, linkPage, dmacPage, chPage, regPage, blkPage, bankPage]; omega)) ?_
    | with_reducible refine keeps_ite ?_ ?_
    | split

theorem State.dropInsts_keeps (hP : Keeps A P) (hA : Sub 0x20000000000 A) {s : State} (hs : P s) : P (State.dropInsts s) := by
  unfold State.dropInsts
  repeat' first
    | with_reducible assumption
    | (rw [State.mk_insts]; apply hP.insts (hA.mono (by decide)))

end Sys2Proof.Machine
end

