-- ==== Sys2Proof/Laws/EffectsCell.lean ====
section
/-! SUPPORT. The effects of each operation of Machine/ (Cell.lean, CellIo.lean): the primitive changes it may make, as a mask. -/
namespace Sys2Proof.Machine
open Sys2Proof
set_option linter.unusedTactic false
set_option linter.unreachableTactic false
set_option linter.unusedVariables false
set_option linter.unusedSimpArgs false
variable {A : Nat} {P : State → Prop}

theorem State.land_keeps (hP : Keeps A P) (hA : Sub 0x20000 A) {s : State} {c : Nat} {l : List (Nat × Item)} (hs : P s) : P (State.land s c l) := by
  unfold State.land
  repeat' first
    | with_reducible assumption
    | lift_lets -underBinder
    | (intro x; revert x; refine keeps_let P ?_ (fun _ _ => ?_))
    | (intro x; clear_value x)
    | with_reducible refine hP.cell (hA.mono (by decide)) _ _ _ ?_
    | fail_if_no_progress beta_reduce

theorem State.markRan_keeps (hP : Keeps A P) (hA : Sub 0x20000 A) {s : State} {c : Nat} (hs : P s) : P (State.markRan s c) := by
  unfold State.markRan
  repeat' first
    | with_reducible assumption
    | with_reducible refine hP.cell (hA.mono (by decide)) _ _ _ ?_

theorem State.killChannels_keeps (hP : Keeps A P) (hA : Sub 0x100000 A) {s : State} {l : List Nat} (hs : P s) : P (State.killChannels s l) := by
  unfold State.killChannels
  repeat' first
    | with_reducible assumption
    | with_reducible refine hP.xchan (hA.mono (by decide)) _ _ _ ?_
    | with_reducible refine keeps_foldl _ (fun _ _ _ => ?_) ?_

theorem State.endSlot_keeps (hP : Keeps A P) (hA : Sub 0x20000 A) {s : State} (hs : P s) : P (State.endSlot s) := by
  unfold State.endSlot
  repeat' first
    | with_reducible assumption
    | lift_lets -underBinder
    | (intro x; revert x; refine keeps_let P ?_ (fun _ _ => ?_))
    | (intro x; clear_value x)
    | with_reducible refine hP.cellsUpd (hA.mono (by decide)) _ _ ?_
    | fail_if_no_progress beta_reduce
    | with_reducible refine keeps_ite ?_ ?_
    | split

theorem State.stopCell_keeps (hP : Keeps A P) (hA : Sub 0x200000000120029 A) {s : State} {c : Nat} (hs : P s) : P (State.stopCell s c) := by
  unfold State.stopCell
  repeat' first
    | with_reducible assumption
    | lift_lets -underBinder
    | (intro x; revert x; refine keeps_let P ?_ (fun _ _ => ?_))
    | (intro x; clear_value x)
    | with_reducible refine hP.cell (hA.mono (by decide)) _ _ _ ?_
    | with_reducible refine State.setFld_unit hP (hA.mono (by decide)) (by first | omega | (simp only [tbPage, jrnlPage, svcPage, swarmPage, eslPage, dmaPage, synPage, domPage, linkPage, dmacPage, chPage, regPage, blkPage, bankPage]; omega)) ?_
    | with_reducible refine State.killChannels_keeps hP (hA.mono (by decide)) ?_
    | with_reducible refine State.post_unit hP (hA.mono (by decide)) (by first | omega | (simp only [tbPage, jrnlPage, svcPage, swarmPage, eslPage, dmaPage, synPage, domPage, linkPage, dmacPage, chPage, regPage, blkPage, bankPage]; omega)) ?_

theorem State.haltRegion_keeps (hP : Keeps A P) (hA : Sub 0x2000000008807e9 A) {s : State} {n : Nat} (hs : P s) : P (State.haltRegion s n) := by
  unfold State.haltRegion
  repeat' first
    | with_reducible assumption
    | lift_lets -underBinder
    | (intro x; revert x; refine keeps_let P ?_ (fun _ _ => ?_))
    | (intro x; clear_value x)
    | with_reducible refine State.setFld_unit hP (hA.mono (by decide)) (by first | omega | (simp only [tbPage, jrnlPage, svcPage, swarmPage, eslPage, dmaPage, synPage, domPage, linkPage, dmacPage, chPage, regPage, blkPage, bankPage]; omega)) ?_
    | with_reducible refine State.applyRegion_keeps hP (hA.mono (by decide)) ?_
    | with_reducible refine hP.region (hA.mono (by decide)) _ _ _ ?_

theorem State.flushOpen_keeps (hP : Keeps A P) (hA : Sub 0x4000101 A) {s : State} {n : Nat} (hs : P s) : P (State.flushOpen s n) := by
  unfold State.flushOpen
  repeat' first
    | with_reducible assumption
    | lift_lets -underBinder
    | (intro x; revert x; refine keeps_let P ?_ (fun _ _ => ?_))
    | (intro x; clear_value x)
    | with_reducible refine State.forEach_keeps hP (hA.mono (by decide)) ?_ (fun _ _ _ => ?_)
    | with_reducible refine State.enqueueRec_keeps hP (hA.mono (by decide)) ?_
    | with_reducible refine hP.opened (hA.mono (by decide)) _ _ _ ?_
    | fail_if_no_progress beta_reduce
    | with_reducible refine keeps_ite ?_ ?_
    | split

theorem State.regionFault_keeps (hP : Keeps A P) (hA : Sub 0x2000010049907e9 A) {s : State} {n code cell slot : Nat} {rec9 : Nat × Nat × Nat} (hs : P s) : P (State.regionFault s n code cell slot rec9) := by
  unfold State.regionFault
  repeat' first
    | with_reducible assumption
    | lift_lets -underBinder
    | (intro x; revert x; refine keeps_let P ?_ (fun _ _ => ?_))
    | (intro x; clear_value x)
    | with_reducible refine hP.wr (hA.mono (by decide)) _ _ _ (by first | omega | (simp only [tbPage, jrnlPage, svcPage, swarmPage, eslPage, dmaPage, synPage, domPage, linkPage, dmacPage, chPage, regPage, blkPage, bankPage]; omega)) ?_
    | with_reducible refine State.setFld_unit hP (hA.mono (by decide)) (by first | omega | (simp only [tbPage, jrnlPage, svcPage, swarmPage, eslPage, dmaPage, synPage, domPage, linkPage, dmacPage, chPage, regPage, blkPage, bankPage]; omega)) ?_
    | with_reducible refine State.raise_unit hP (hA.mono (by decide)) (by first | omega | (simp only [tbPage, jrnlPage, svcPage, swarmPage, eslPage, dmaPage, synPage, domPage, linkPage, dmacPage, chPage, regPage, blkPage, bankPage]; omega)) ?_
    | with_reducible refine State.error_keeps hP (hA.mono (by decide)) ?_
    | with_reducible refine State.summaryRunsEnd_keeps hP (hA.mono (by decide)) ?_
    | with_reducible refine State.flushOpen_keeps hP (hA.mono (by decide)) ?_
    | with_reducible refine State.killChannels_keeps hP (hA.mono (by decide)) ?_
    | with_reducible refine State.haltRegion_keeps hP (hA.mono (by decide)) ?_
    | with_reducible refine keeps_ite ?_ ?_
    | split
    | (rw [State.mk_recordingRegions]; apply hP.recordingRegions (hA.mono (by decide)))

theorem State.scheduleError_keeps (hP : Keeps A P) (hA : Sub 0x2000010049907e9 A) {s : State} {c code : Nat} (hs : P s) : P (State.scheduleError s c code) := by
  unfold State.scheduleError
  repeat' first
    | with_reducible assumption
    | lift_lets -underBinder
    | (intro x; revert x; refine keeps_let P ?_ (fun _ _ => ?_))
    | (intro x; clear_value x)
    | with_reducible refine State.regionFault_keeps hP (hA.mono (by decide)) ?_

theorem State.cellRun_keeps (hP : Keeps A P) (hA : Sub 0x2000010049b07e9 A) {s : State} {c : Nat} {want : CellOp → Bool} {run : CellOp → Bool → State → State} (hs : P s) (hrun : ∀ (x0 : CellOp) (x1 : Bool) (x2 : State), P x2 → P (run x0 x1 x2)) : P (State.cellRun s c want run) := by
  unfold State.cellRun
  repeat' first
    | with_reducible assumption
    | with_reducible refine State.markRan_keeps hP (hA.mono (by decide)) ?_
    | with_reducible refine State.scheduleError_keeps hP (hA.mono (by decide)) ?_
    | with_reducible refine hrun _ _ _ ?_
    | with_reducible refine keeps_ite ?_ ?_
    | split
    | with_reducible refine keeps_pair (by assumption) ?_
    | with_reducible refine keeps_pair₂ (by assumption) ?_

theorem State.cellAlu_keeps (hP : Keeps A P) (hA : Sub 0x2000010049b07e9 A) {s : State} {c : Nat} {want : CellOp → Bool} (hs : P s) : P (State.cellAlu s c want) := by
  unfold State.cellAlu
  repeat' first
    | with_reducible assumption
    | with_reducible refine State.cellRun_keeps hP (hA.mono (by decide)) ?_ (fun _ _ _ _ => ?_)
    | with_reducible refine State.land_keeps hP (hA.mono (by decide)) ?_
    | split
    | with_reducible refine keeps_pair (by assumption) ?_
    | with_reducible refine keeps_pair₂ (by assumption) ?_

theorem State.cellTimer_keeps (hP : Keeps A P) (hA : Sub 0x2000010049b07e9 A) {s : State} {c top : Nat} (hs : P s) : P (State.cellTimer s c top) := by
  unfold State.cellTimer
  repeat' first
    | with_reducible assumption
    | lift_lets -underBinder
    | (intro x; revert x; refine keeps_let P ?_ (fun _ _ => ?_))
    | (intro x; clear_value x)
    | with_reducible refine State.cellRun_keeps hP (hA.mono (by decide)) ?_ (fun _ _ _ _ => ?_)
    | with_reducible refine State.land_keeps hP (hA.mono (by decide)) ?_
    | with_reducible refine hP.cell (hA.mono (by decide)) _ _ _ ?_
    | fail_if_no_progress beta_reduce
    | split
    | with_reducible refine keeps_pair (by assumption) ?_
    | with_reducible refine keeps_pair₂ (by assumption) ?_

theorem State.timerExpire_keeps (hP : Keeps A P) (hA : Sub 0x20000 A) {s : State} {c u : Nat} (hs : P s) : P (State.timerExpire s c u) := by
  unfold State.timerExpire
  repeat' first
    | with_reducible assumption
    | lift_lets -underBinder
    | (intro x; revert x; refine keeps_let P ?_ (fun _ _ => ?_))
    | (intro x; clear_value x)
    | with_reducible refine hP.cell (hA.mono (by decide)) _ _ _ ?_
    | with_reducible refine keeps_ite ?_ ?_
    | split

theorem State.resultLand_keeps (hP : Keeps A P) (hA : Sub 0x20000 A) {s : State} {c : Nat} (hs : P s) : P (State.resultLand s c) := by
  unfold State.resultLand
  repeat' first
    | with_reducible assumption
    | with_reducible refine hP.cell (hA.mono (by decide)) _ _ _ ?_

theorem State.cellIllegal_keeps (hP : Keeps A P) (hA : Sub 0x2000010049b07e9 A) {s : State} {c : Nat} (hs : P s) : P (State.cellIllegal s c) := by
  unfold State.cellIllegal
  repeat' first
    | with_reducible assumption
    | lift_lets -underBinder
    | (intro x; revert x; refine keeps_let P ?_ (fun _ _ => ?_))
    | (intro x; first | (have _h : Nat := x; clear _h; subst x) | clear_value x)
    | with_reducible refine State.scheduleError_keeps hP (hA.mono (by decide)) ?_
    | with_reducible refine State.markRan_keeps hP (hA.mono (by decide)) ?_
    | with_reducible refine keeps_ite ?_ ?_
    | split
    | with_reducible refine keeps_pair (by assumption) ?_
    | with_reducible refine keeps_pair₂ (by assumption) ?_

theorem State.cellParity_keeps (hP : Keeps A P) (hA : Sub 0x2000000009603eb A) {s : State} {c : Nat} (hs : P s) : P (State.cellParity s c) := by
  unfold State.cellParity
  repeat' first
    | with_reducible assumption
    | lift_lets -underBinder
    | (intro x; revert x; refine keeps_let P ?_ (fun _ _ => ?_))
    | (intro x; clear_value x)
    | with_reducible refine hP.iword (hA.mono (by decide)) _ _ _ _ ?_
    | with_reducible refine State.injected_keeps hP (hA.mono (by decide)) ?_
    | with_reducible refine State.raise_unit hP (hA.mono (by decide)) (by first | omega | (simp only [tbPage, jrnlPage, svcPage, swarmPage, eslPage, dmaPage, synPage, domPage, linkPage, dmacPage, chPage, regPage, blkPage, bankPage]; omega)) ?_
    | with_reducible refine State.stopCell_keeps hP (hA.mono (by decide)) ?_
    | with_reducible refine State.markRan_keeps hP (hA.mono (by decide)) ?_
    | with_reducible refine State.error_keeps hP (hA.mono (by decide)) ?_
    | with_reducible refine keeps_ite ?_ ?_
    | split
    | with_reducible refine keeps_pair (by assumption) ?_
    | with_reducible refine keeps_pair₂ (by assumption) ?_

theorem State.setUse_keeps (hP : Keeps A P) (hA : Sub 0x8000000000 A) {s : State} {u : SlotUse} (hs : P s) : P (State.setUse s u) := by
  unfold State.setUse
  repeat' first
    | with_reducible assumption
    | (rw [State.mk_slotUse]; apply hP.slotUse (hA.mono (by decide)))

theorem State.take_keeps (hP : Keeps A P) (hA : Sub 0x2000090049b07e9 A) {s : State} {c f v d mode : Nat} {gp : Bool} (hs : P s) : P (State.take s c f v d mode gp) := by
  unfold State.take
  repeat' first
    | with_reducible assumption
    | lift_lets -underBinder
    | (intro x; revert x; refine keeps_let P ?_ (fun _ _ => ?_))
    | (intro x; clear_value x)
    | with_reducible refine State.scheduleError_keeps hP (hA.mono (by decide)) ?_
    | with_reducible refine State.setUse_keeps hP (hA.mono (by decide)) ?_
    | with_reducible refine State.setFifo_keeps hP (hA.mono (by decide)) ?_
    | with_reducible refine State.land_keeps hP (hA.mono (by decide)) ?_
    | fail_if_no_progress beta_reduce
    | with_reducible refine keeps_ite ?_ ?_
    | split
    | with_reducible refine keeps_pair (by assumption) ?_
    | with_reducible refine keeps_pair₂ (by assumption) ?_

theorem State.cellTake_keeps (hP : Keeps A P) (hA : Sub 0x2000090049b07e9 A) {s : State} {c mode : Nat} (hs : P s) : P (State.cellTake s c mode) := by
  unfold State.cellTake
  repeat' first
    | with_reducible assumption
    | with_reducible refine State.cellRun_keeps hP (hA.mono (by decide)) ?_ (fun _ _ _ _ => ?_)
    | with_reducible refine State.take_keeps hP (hA.mono (by decide)) ?_
    | split
    | with_reducible refine keeps_pair (by assumption) ?_
    | with_reducible refine keeps_pair₂ (by assumption) ?_

theorem State.deliverX_keeps (hP : Keeps A P) (hA : Sub 0x4000100000 A) {s : State} {i : Nat} (hs : P s) : P (State.deliverX s i) := by
  unfold State.deliverX
  repeat' first
    | with_reducible assumption
    | lift_lets -underBinder
    | (intro x; revert x; refine keeps_let P ?_ (fun _ _ => ?_))
    | (intro x; clear_value x)
    | with_reducible refine hP.xchan (hA.mono (by decide)) _ _ _ ?_
    | with_reducible refine keeps_foldl _ (fun _ _ _ => ?_) ?_
    | fail_if_no_progress beta_reduce
    | with_reducible refine keeps_ite ?_ ?_
    | split
    | (rw [State.mk_sent]; apply hP.sent (hA.mono (by decide)))

theorem State.sendX_keeps (hP : Keeps A P) (hA : Sub 0x2000050049907e9 A) {s : State} {c i lat : Nat} {v : Tagged} (hs : P s) : P (State.sendX s c i lat v) := by
  unfold State.sendX
  repeat' first
    | with_reducible assumption
    | lift_lets -underBinder
    | (intro x; revert x; refine keeps_let P ?_ (fun _ _ => ?_))
    | (intro x; clear_value x)
    | with_reducible refine State.scheduleError_keeps hP (hA.mono (by decide)) ?_
    | with_reducible refine State.killChannels_keeps hP (hA.mono (by decide)) ?_
    | with_reducible refine keeps_foldl _ (fun _ _ _ => ?_) ?_
    | fail_if_no_progress beta_reduce
    | with_reducible refine keeps_ite ?_ ?_
    | split
    | (rw [State.mk_sent]; apply hP.sent (hA.mono (by decide)))

theorem State.recvX_keeps (hP : Keeps A P) (hA : Sub 0x4000100000 A) {s : State} {i : Nat} (hs : P s) : P (State.recvX s i).2 := by
  unfold State.recvX
  repeat' first
    | with_reducible assumption
    | lift_lets -underBinder
    | (intro x; revert x; refine keeps_let P ?_ (fun _ _ => ?_))
    | (intro x; clear_value x)
    | with_reducible refine State.deliverX_keeps hP (hA.mono (by decide)) ?_

theorem State.cellSend_keeps (hP : Keeps A P) (hA : Sub 0x2000050049b07e9 A) {s : State} {c : Nat} {chip : Bool} (hs : P s) : P (State.cellSend s c chip) := by
  unfold State.cellSend
  repeat' first
    | with_reducible assumption
    | lift_lets -underBinder
    | (intro x; revert x; refine keeps_let P ?_ (fun _ _ => ?_))
    | (intro x; clear_value x)
    | with_reducible refine State.cellRun_keeps hP (hA.mono (by decide)) ?_ (fun _ _ _ _ => ?_)
    | with_reducible refine State.sendX_keeps hP (hA.mono (by decide)) ?_
    | fail_if_no_progress beta_reduce
    | split
    | with_reducible refine keeps_pair (by assumption) ?_
    | with_reducible refine keeps_pair₂ (by assumption) ?_

theorem State.cellRecv_keeps (hP : Keeps A P) (hA : Sub 0x2000050049b07e9 A) {s : State} {c : Nat} {chip : Bool} (hs : P s) : P (State.cellRecv s c chip) := by
  unfold State.cellRecv
  repeat' first
    | with_reducible assumption
    | with_reducible refine State.cellRun_keeps hP (hA.mono (by decide)) ?_ (fun _ _ _ _ => ?_)
    | with_reducible refine State.recvX_keeps hP (hA.mono (by decide)) ?_
    | with_reducible refine State.land_keeps hP (hA.mono (by decide)) ?_
    | split
    | with_reducible refine keeps_pair (by assumption) ?_
    | with_reducible refine keeps_pair₂ (by assumption) ?_

theorem State.cellNrd_keeps (hP : Keeps A P) (hA : Sub 0x2000010049b07e9 A) {s : State} {c : Nat} (hs : P s) : P (State.cellNrd s c) := by
  unfold State.cellNrd
  repeat' first
    | with_reducible assumption
    | lift_lets -underBinder
    | (intro x; revert x; refine keeps_let P ?_ (fun _ _ => ?_))
    | (intro x; clear_value x)
    | with_reducible refine State.cellRun_keeps hP (hA.mono (by decide)) ?_ (fun _ _ _ _ => ?_)
    | with_reducible refine State.land_keeps hP (hA.mono (by decide)) ?_
    | fail_if_no_progress beta_reduce
    | split
    | with_reducible refine keeps_pair (by assumption) ?_
    | with_reducible refine keeps_pair₂ (by assumption) ?_

theorem State.landStores_keeps (hP : Keeps A P) (hA : Sub 0x2000200000 A) {s : State} (hs : P s) : P (State.landStores s) := by
  unfold State.landStores
  dsimp only
  repeat' first
    | with_reducible assumption
    | lift_lets -underBinder
    | (intro x; revert x; refine keeps_let P ?_ (fun _ _ => ?_))
    | (intro x; clear_value x)
    | with_reducible refine hP.sword (hA.mono (by decide)) _ _ _ _ ?_
    | with_reducible refine keeps_foldl _ (fun _ _ _ => ?_) ?_
    | fail_if_no_progress beta_reduce
    | with_reducible refine keeps_ite ?_ ?_
    | split
    | (rw [State.mk_stores]; apply hP.stores (hA.mono (by decide)))

theorem State.claimPort_keeps (hP : Keeps A P) (hA : Sub 0x2000090049907e9 A) {s : State} {c port : Nat} (hs : P s) : P (State.claimPort s c port).2 := by
  unfold State.claimPort
  repeat' first
    | with_reducible assumption
    | lift_lets -underBinder
    | (intro x; revert x; refine keeps_let P ?_ (fun _ _ => ?_))
    | (intro x; first | (have _h : Nat := x; clear _h; subst x) | clear_value x)
    | with_reducible refine State.scheduleError_keeps hP (hA.mono (by decide)) ?_
    | with_reducible refine State.setUse_keeps hP (hA.mono (by decide)) ?_
    | with_reducible refine keeps_ite ?_ ?_
    | split

theorem State.haltBlock_keeps (hP : Keeps A P) (hA : Sub 0x200000000120029 A) {s : State} {g : Nat} (hs : P s) : P (State.haltBlock s g) := by
  unfold State.haltBlock
  repeat' first
    | with_reducible assumption
    | lift_lets -underBinder
    | (intro x; revert x; refine keeps_let P ?_ (fun _ _ => ?_))
    | (intro x; clear_value x)
    | with_reducible refine State.stopCell_keeps hP (hA.mono (by decide)) ?_
    | with_reducible refine State.setFld_unit hP (hA.mono (by decide)) (by first | omega | (simp only [tbPage, jrnlPage, svcPage, swarmPage, eslPage, dmaPage, synPage, domPage, linkPage, dmacPage, chPage, regPage, blkPage, bankPage]; omega)) ?_
    | with_reducible refine keeps_foldl _ (fun _ _ _ => ?_) ?_
    | fail_if_no_progress beta_reduce
    | with_reducible refine keeps_ite ?_ ?_
    | split

theorem State.scratchParity_keeps (hP : Keeps A P) (hA : Sub 0x200000000b203e9 A) {s : State} {g w port : Nat} (hs : P s) : P (State.scratchParity s g w port) := by
  unfold State.scratchParity
  repeat' first
    | with_reducible assumption
    | lift_lets -underBinder
    | (intro x; revert x; refine keeps_let P ?_ (fun _ _ => ?_))
    | (intro x; clear_value x)
    | with_reducible refine hP.sword (hA.mono (by decide)) _ _ _ _ ?_
    | with_reducible refine hP.wr (hA.mono (by decide)) _ _ _ (by first | omega | (simp only [tbPage, jrnlPage, svcPage, swarmPage, eslPage, dmaPage, synPage, domPage, linkPage, dmacPage, chPage, regPage, blkPage, bankPage]; omega)) ?_
    | with_reducible refine State.raise_unit hP (hA.mono (by decide)) (by first | omega | (simp only [tbPage, jrnlPage, svcPage, swarmPage, eslPage, dmaPage, synPage, domPage, linkPage, dmacPage, chPage, regPage, blkPage, bankPage]; omega)) ?_
    | with_reducible refine State.post_unit hP (hA.mono (by decide)) (by first | omega | (simp only [tbPage, jrnlPage, svcPage, swarmPage, eslPage, dmaPage, synPage, domPage, linkPage, dmacPage, chPage, regPage, blkPage, bankPage]; omega)) ?_
    | with_reducible refine State.addSat_unit hP (hA.mono (by decide)) (by first | omega | (simp only [tbPage, jrnlPage, svcPage, swarmPage, eslPage, dmaPage, synPage, domPage, linkPage, dmacPage, chPage, regPage, blkPage, bankPage]; omega)) ?_
    | with_reducible refine State.error_keeps hP (hA.mono (by decide)) ?_
    | with_reducible refine State.haltBlock_keeps hP (hA.mono (by decide)) ?_
    | with_reducible refine keeps_ite ?_ ?_
    | split

theorem State.cellSld_keeps (hP : Keeps A P) (hA : Sub 0x20000b004bb07eb A) {s : State} {c : Nat} {upset : Bool} (hs : P s) : P (State.cellSld s c upset) := by
  unfold State.cellSld
  repeat' first
    | with_reducible assumption
    | lift_lets -underBinder
    | (intro x; revert x; refine keeps_let P ?_ (fun _ _ => ?_))
    | (intro x; clear_value x)
    | with_reducible refine State.cellRun_keeps hP (hA.mono (by decide)) ?_ (fun _ _ _ _ => ?_)
    | with_reducible refine State.claimPort_keeps hP (hA.mono (by decide)) ?_
    | with_reducible refine State.landStores_keeps hP (hA.mono (by decide)) ?_
    | with_reducible refine State.injected_keeps hP (hA.mono (by decide)) ?_
    | with_reducible refine State.land_keeps hP (hA.mono (by decide)) ?_
    | with_reducible refine State.scratchParity_keeps hP (hA.mono (by decide)) ?_
    | fail_if_no_progress beta_reduce
    | with_reducible refine keeps_ite ?_ ?_
    | split
    | with_reducible refine keeps_pair (by assumption) ?_
    | with_reducible refine keeps_pair₂ (by assumption) ?_

theorem State.cellSst_keeps (hP : Keeps A P) (hA : Sub 0x20000b004bb07e9 A) {s : State} {c : Nat} (hs : P s) : P (State.cellSst s c) := by
  unfold State.cellSst
  repeat' first
    | with_reducible assumption
    | lift_lets -underBinder
    | (intro x; revert x; refine keeps_let P ?_ (fun _ _ => ?_))
    | (intro x; clear_value x)
    | with_reducible refine State.cellRun_keeps hP (hA.mono (by decide)) ?_ (fun _ _ _ _ => ?_)
    | with_reducible refine State.claimPort_keeps hP (hA.mono (by decide)) ?_
    | with_reducible refine State.landStores_keeps hP (hA.mono (by decide)) ?_
    | fail_if_no_progress beta_reduce
    | split
    | (rw [State.mk_stores]; apply hP.stores (hA.mono (by decide)))
    | with_reducible refine keeps_pair (by assumption) ?_
    | with_reducible refine keeps_pair₂ (by assumption) ?_

theorem State.cellBxfer_keeps (hP : Keeps A P) (hA : Sub 0x200001004db07e9 A) {s : State} {c : Nat} (hs : P s) : P (State.cellBxfer s c) := by
  unfold State.cellBxfer
  repeat' first
    | with_reducible assumption
    | lift_lets -underBinder
    | (intro x; revert x; refine keeps_let P ?_ (fun _ _ => ?_))
    | (intro x; first | (have _h : Nat := x; clear _h; subst x) | clear_value x)
    | with_reducible refine State.cellRun_keeps hP (hA.mono (by decide)) ?_ (fun _ _ _ _ => ?_)
    | with_reducible refine State.raise_unit hP (hA.mono (by decide)) (by first | omega | (simp only [tbPage, jrnlPage, svcPage, swarmPage, eslPage, dmaPage, synPage, domPage, linkPage, dmacPage, chPage, regPage, blkPage, bankPage]; omega)) ?_
    | with_reducible refine State.addSat_unit hP (hA.mono (by decide)) (by first | omega | (simp only [tbPage, jrnlPage, svcPage, swarmPage, eslPage, dmaPage, synPage, domPage, linkPage, dmacPage, chPage, regPage, blkPage, bankPage]; omega)) ?_
    | with_reducible refine hP.engine (hA.mono (by decide)) _ _ _ ?_
    | with_reducible refine hP.wr (hA.mono (by decide)) _ _ _ (by first | omega | (simp only [tbPage, jrnlPage, svcPage, swarmPage, eslPage, dmaPage, synPage, domPage, linkPage, dmacPage, chPage, regPage, blkPage, bankPage]; omega)) ?_
    | fail_if_no_progress beta_reduce
    | with_reducible refine keeps_ite ?_ ?_
    | split
    | with_reducible refine keeps_pair (by assumption) ?_
    | with_reducible refine keeps_pair₂ (by assumption) ?_

theorem State.cellBtst_keeps (hP : Keeps A P) (hA : Sub 0x2000010049b07e9 A) {s : State} {c : Nat} (hs : P s) : P (State.cellBtst s c) := by
  unfold State.cellBtst
  repeat' first
    | with_reducible assumption
    | lift_lets -underBinder
    | (intro x; revert x; refine keeps_let P ?_ (fun _ _ => ?_))
    | (intro x; clear_value x)
    | with_reducible refine State.cellRun_keeps hP (hA.mono (by decide)) ?_ (fun _ _ _ _ => ?_)
    | with_reducible refine State.land_keeps hP (hA.mono (by decide)) ?_
    | fail_if_no_progress beta_reduce
    | split
    | with_reducible refine keeps_pair (by assumption) ?_
    | with_reducible refine keeps_pair₂ (by assumption) ?_

theorem State.putScratch_keeps (hP : Keeps A P) (hA : Sub 0x200000 A) {s : State} {g w : Nat} {r : Option Rec} (hs : P s) : P (State.putScratch s g w r) := by
  unfold State.putScratch
  repeat' first
    | with_reducible assumption
    | lift_lets -underBinder
    | (intro x; revert x; refine keeps_let P ?_ (fun _ _ => ?_))
    | (intro x; clear_value x)
    | with_reducible refine hP.sword (hA.mono (by decide)) _ _ _ _ ?_
    | with_reducible refine keeps_foldl _ (fun _ _ _ => ?_) ?_
    | fail_if_no_progress beta_reduce
    | split
    | with_reducible refine keeps_pair (by assumption) ?_
    | with_reducible refine keeps_pair₂ (by assumption) ?_

theorem State.engineReads_keeps (hP : Keeps A P) (hA : Sub 0x200000000b203ed A) {s : State} {g w n : Nat} (hs : P s) : P (State.engineReads s g w n) := by
  unfold State.engineReads
  repeat' first
    | with_reducible assumption
    | with_reducible refine State.forEach_keeps hP (hA.mono (by decide)) ?_ (fun _ _ _ => ?_)
    | with_reducible refine State.scratchParity_keeps hP (hA.mono (by decide)) ?_
    | with_reducible refine hP.drawn (hA.mono (by decide)) _ ?_

theorem State.engineHalf_keeps (hP : Keeps A P) (hA : Sub 0x3000 A) {s : State} {b line half : Nat} {r : Option Rec} (hs : P s) : P (State.engineHalf s b line half r) := by
  unfold State.engineHalf
  repeat' first
    | with_reducible assumption
    | with_reducible refine State.writeHalf_keeps hP (hA.mono (by decide)) ?_
    | with_reducible refine State.writePoison_keeps hP (hA.mono (by decide)) ?_
    | split
    | with_reducible refine keeps_pair (by assumption) ?_
    | with_reducible refine keeps_pair₂ (by assumption) ?_

theorem State.bxferLine_keeps (hP : Keeps A P) (hA : Sub 0x200002000f233ef A) {s : State} {g : Nat} (hs : P s) : P (State.bxferLine s g) := by
  unfold State.bxferLine
  repeat' first
    | with_reducible assumption
    | lift_lets -underBinder
    | (intro x; revert x; refine keeps_let P ?_ (fun _ _ => ?_))
    | (intro x; first | (have _h : Nat := x; clear _h; subst x) | clear_value x)
    | with_reducible refine State.violate_keeps hP (hA.mono (by decide)) ?_
    | with_reducible refine State.setFld_unit hP (hA.mono (by decide)) (by first | omega | (simp only [tbPage, jrnlPage, svcPage, swarmPage, eslPage, dmaPage, synPage, domPage, linkPage, dmacPage, chPage, regPage, blkPage, bankPage]; omega)) ?_
    | with_reducible refine State.landStores_keeps hP (hA.mono (by decide)) ?_
    | with_reducible refine State.engineReads_keeps hP (hA.mono (by decide)) ?_
    | with_reducible refine State.engineHalf_keeps hP (hA.mono (by decide)) ?_
    | with_reducible refine State.injectHalf_keeps hP (hA.mono (by decide)) ?_
    | with_reducible refine State.readHalf_keeps hP (hA.mono (by decide)) ?_
    | with_reducible refine State.putScratch_keeps hP (hA.mono (by decide)) ?_
    | with_reducible refine State.raise_unit hP (hA.mono (by decide)) (by first | omega | (simp only [tbPage, jrnlPage, svcPage, swarmPage, eslPage, dmaPage, synPage, domPage, linkPage, dmacPage, chPage, regPage, blkPage, bankPage]; omega)) ?_
    | with_reducible refine hP.engine (hA.mono (by decide)) _ _ _ ?_
    | with_reducible refine State.post_unit hP (hA.mono (by decide)) (by first | omega | (simp only [tbPage, jrnlPage, svcPage, swarmPage, eslPage, dmaPage, synPage, domPage, linkPage, dmacPage, chPage, regPage, blkPage, bankPage]; omega)) ?_
    | with_reducible refine keeps_ite ?_ ?_
    | split
    | with_reducible refine keeps_pair (by assumption) ?_
    | with_reducible refine keeps_pair₂ (by assumption) ?_

theorem State.dbgWrite_keeps (hP : Keeps A P) (hA : Sub 0x20000 A) {s : State} {c index space v : Nat} {poison : Bool} (hs : P s) : P (State.dbgWrite s c index space v poison) := by
  unfold State.dbgWrite
  repeat' first
    | with_reducible assumption
    | lift_lets -underBinder
    | (intro x; revert x; refine keeps_let P ?_ (fun _ _ => ?_))
    | (intro x; first | (have _h : Nat := x; clear _h; subst x) | clear_value x)
    | with_reducible refine hP.cell (hA.mono (by decide)) _ _ _ ?_
    | with_reducible refine keeps_foldl _ (fun _ _ _ => ?_) ?_
    | fail_if_no_progress beta_reduce
    | split
    | with_reducible refine keeps_pair (by assumption) ?_
    | with_reducible refine keeps_pair₂ (by assumption) ?_

theorem State.dbgEnd_keeps (hP : Keeps A P) (hA : Sub 0x200000000000029 A) {s : State} {n : Nat} {ok : Bool} (hs : P s) : P (State.dbgEnd s n ok) := by
  unfold State.dbgEnd
  repeat' first
    | with_reducible assumption
    | lift_lets -underBinder
    | (intro x; revert x; refine keeps_let P ?_ (fun _ _ => ?_))
    | (intro x; first | (have _h : Nat := x; clear _h; subst x) | clear_value x)
    | with_reducible refine State.setFld_unit hP (hA.mono (by decide)) (by first | omega | (simp only [tbPage, jrnlPage, svcPage, swarmPage, eslPage, dmaPage, synPage, domPage, linkPage, dmacPage, chPage, regPage, blkPage, bankPage]; omega)) ?_
    | with_reducible refine State.post_unit hP (hA.mono (by decide)) (by first | omega | (simp only [tbPage, jrnlPage, svcPage, swarmPage, eslPage, dmaPage, synPage, domPage, linkPage, dmacPage, chPage, regPage, blkPage, bankPage]; omega)) ?_
    | with_reducible refine keeps_ite ?_ ?_
    | split

theorem State.dbgAccess_keeps (hP : Keeps A P) (hA : Sub 0x200000000020029 A) {s : State} {n : Nat} (hs : P s) : P (State.dbgAccess s n) := by
  unfold State.dbgAccess
  repeat' first
    | with_reducible assumption
    | lift_lets -underBinder
    | (intro x; revert x; refine keeps_let P ?_ (fun _ _ => ?_))
    | (intro x; first | (have _h : Nat := x; clear _h; subst x) | clear_value x)
    | with_reducible refine State.dbgEnd_keeps hP (hA.mono (by decide)) ?_
    | with_reducible refine State.dbgWrite_keeps hP (hA.mono (by decide)) ?_
    | with_reducible refine hP.wr (hA.mono (by decide)) _ _ _ (by first | omega | (simp only [tbPage, jrnlPage, svcPage, swarmPage, eslPage, dmaPage, synPage, domPage, linkPage, dmacPage, chPage, regPage, blkPage, bankPage]; omega)) ?_
    | with_reducible refine keeps_ite ?_ ?_
    | split

theorem State.dbgGo_keeps (hP : Keeps A P) (hA : Sub 0x200000000020029 A) {s : State} {n : Nat} (hs : P s) : P (State.dbgGo s n) := by
  unfold State.dbgGo
  repeat' first
    | with_reducible assumption
    | lift_lets -underBinder
    | (intro x; revert x; refine keeps_let P ?_ (fun _ _ => ?_))
    | (intro x; first | (have _h : Nat := x; clear _h; subst x) | clear_value x)
    | with_reducible refine State.setFld_unit hP (hA.mono (by decide)) (by first | omega | (simp only [tbPage, jrnlPage, svcPage, swarmPage, eslPage, dmaPage, synPage, domPage, linkPage, dmacPage, chPage, regPage, blkPage, bankPage]; omega)) ?_
    | with_reducible refine State.dbgEnd_keeps hP (hA.mono (by decide)) ?_
    | with_reducible refine State.raiseWrite_unit hP (hA.mono (by decide)) (by first | omega | (simp only [tbPage, jrnlPage, svcPage, swarmPage, eslPage, dmaPage, synPage, domPage, linkPage, dmacPage, chPage, regPage, blkPage, bankPage]; omega)) ?_
    | with_reducible refine State.dbgAccess_keeps hP (hA.mono (by decide)) ?_
    | with_reducible refine keeps_ite ?_ ?_
    | split

theorem State.imemLo_keeps (hP : Keeps A P) (hA : Sub 0x20000 A) {s : State} {c : Nat} {v : Dword} (hs : P s) : P (State.imemLo s c v) := by
  unfold State.imemLo
  repeat' first
    | with_reducible assumption
    | with_reducible refine hP.cell (hA.mono (by decide)) _ _ _ ?_

theorem State.commit_keeps (hP : Keeps A P) (hA : Sub 0x40000 A) {s : State} {c a : Nat} {w : BitVec 36} (hs : P s) : P (State.commit s c a w) := by
  unfold State.commit
  repeat' first
    | with_reducible assumption
    | with_reducible refine hP.iword (hA.mono (by decide)) _ _ _ _ ?_

theorem State.patch_keeps (hP : Keeps A P) (hA : Sub 0x2000000008403e9 A) {s : State} {c a : Nat} {w : BitVec 36} (hs : P s) : P (State.patch s c a w) := by
  unfold State.patch
  repeat' first
    | with_reducible assumption
    | lift_lets -underBinder
    | (intro x; revert x; refine keeps_let P ?_ (fun _ _ => ?_))
    | (intro x; clear_value x)
    | with_reducible refine State.setFld_unit hP (hA.mono (by decide)) (by first | omega | (simp only [tbPage, jrnlPage, svcPage, swarmPage, eslPage, dmaPage, synPage, domPage, linkPage, dmacPage, chPage, regPage, blkPage, bankPage]; omega)) ?_
    | with_reducible refine State.commit_keeps hP (hA.mono (by decide)) ?_
    | with_reducible refine State.entry_keeps hP (hA.mono (by decide)) ?_

theorem State.windowError_keeps (hP : Keeps A P) (hA : Sub 0x20000000000002b A) {s : State} {n : Nat} {f : Fld} {addr : Nat} {read : Bool} (hs : P s) : P (State.windowError s n f addr read) := by
  unfold State.windowError
  repeat' first
    | with_reducible assumption
    | with_reducible refine State.busError_keeps hP (hA.mono (by decide)) ?_
    | with_reducible refine State.raiseWrite_unit hP (hA.mono (by decide)) (by first | omega | (simp only [tbPage, jrnlPage, svcPage, swarmPage, eslPage, dmaPage, synPage, domPage, linkPage, dmacPage, chPage, regPage, blkPage, bankPage]; omega)) ?_
    | with_reducible refine keeps_ite ?_ ?_
    | split

theorem State.imemHi_keeps (hP : Keeps A P) (hA : Sub 0x20000000006002b A) {s : State} {c a : Nat} {v : Dword} (hs : P s) : P (State.imemHi s c a v) := by
  unfold State.imemHi
  repeat' first
    | with_reducible assumption
    | lift_lets -underBinder
    | (intro x; revert x; refine keeps_let P ?_ (fun _ _ => ?_))
    | (intro x; clear_value x)
    | with_reducible refine State.commit_keeps hP (hA.mono (by decide)) ?_
    | with_reducible refine hP.cell (hA.mono (by decide)) _ _ _ ?_
    | with_reducible refine State.windowError_keeps hP (hA.mono (by decide)) ?_
    | with_reducible refine keeps_ite ?_ ?_
    | split

theorem State.patchCommit_keeps (hP : Keeps A P) (hA : Sub 0x2000000008603e9 A) {s : State} {c : Nat} (hs : P s) : P (State.patchCommit s c) := by
  unfold State.patchCommit
  repeat' first
    | with_reducible assumption
    | with_reducible refine State.patch_keeps hP (hA.mono (by decide)) ?_
    | with_reducible refine hP.cell (hA.mono (by decide)) _ _ _ ?_
    | with_reducible refine keeps_ite ?_ ?_
    | split
    | with_reducible refine keeps_pair (by assumption) ?_
    | with_reducible refine keeps_pair₂ (by assumption) ?_

theorem State.scratchServe_keeps (hP : Keeps A P) (hA : Sub 0x200002000b203e9 A) {s : State} {g w port : Nat} {wr : Option Dword} (hs : P s) : P (State.scratchServe s g w port wr) := by
  unfold State.scratchServe
  repeat' first
    | with_reducible assumption
    | lift_lets -underBinder
    | (intro x; revert x; refine keeps_let P ?_ (fun _ _ => ?_))
    | (intro x; clear_value x)
    | with_reducible refine State.landStores_keeps hP (hA.mono (by decide)) ?_
    | with_reducible refine hP.sword (hA.mono (by decide)) _ _ _ _ ?_
    | with_reducible refine State.scratchParity_keeps hP (hA.mono (by decide)) ?_
    | with_reducible refine hP.send (hA.mono (by decide)) _ _ ?_
    | with_reducible refine keeps_ite ?_ ?_
    | split
    | with_reducible refine keeps_pair (by assumption) ?_
    | with_reducible refine keeps_pair₂ (by assumption) ?_

theorem State.scratchAccess_keeps (hP : Keeps A P) (hA : Sub 0x21000a000b203eb A) {s : State} {g w : Nat} {wr : Option Dword} (hs : P s) : P (State.scratchAccess s g w wr) := by
  unfold State.scratchAccess
  repeat' first
    | with_reducible assumption
    | lift_lets -underBinder
    | (intro x; revert x; refine keeps_let P ?_ (fun _ _ => ?_))
    | (intro x; clear_value x)
    | with_reducible refine State.scratchServe_keeps hP (hA.mono (by decide)) ?_
    | with_reducible refine State.windowError_keeps hP (hA.mono (by decide)) ?_
    | with_reducible refine State.setUse_keeps hP (hA.mono (by decide)) ?_
    | fail_if_no_progress beta_reduce
    | with_reducible refine keeps_ite ?_ ?_
    | split
    | (rw [State.mk_heldAcc]; apply hP.heldAcc (hA.mono (by decide)))
    | with_reducible refine keeps_pair (by assumption) ?_
    | with_reducible refine keeps_pair₂ (by assumption) ?_

theorem State.imemRead_keeps (hP : Keeps A P) (hA : Sub 0x21000000000002b A) {s : State} {c a : Nat} {hi : Bool} (hs : P s) : P (State.imemRead s c a hi) := by
  unfold State.imemRead
  repeat' first
    | with_reducible assumption
    | lift_lets -underBinder
    | (intro x; revert x; refine keeps_let P ?_ (fun _ _ => ?_))
    | (intro x; clear_value x)
    | with_reducible refine State.windowError_keeps hP (hA.mono (by decide)) ?_
    | with_reducible refine hP.send (hA.mono (by decide)) _ _ ?_
    | with_reducible refine keeps_ite ?_ ?_
    | split
    | (rw [State.mk_heldAcc]; apply hP.heldAcc (hA.mono (by decide)))

theorem State.serveHeld_keeps (hP : Keeps A P) (hA : Sub 0x21000a000b203eb A) {s : State} (hs : P s) : P (State.serveHeld s) := by
  unfold State.serveHeld
  repeat' first
    | with_reducible assumption
    | with_reducible refine State.imemRead_keeps hP (hA.mono (by decide)) ?_
    | with_reducible refine State.scratchAccess_keeps hP (hA.mono (by decide)) ?_
    | with_reducible refine keeps_foldl _ (fun _ _ _ => ?_) ?_
    | split
    | (rw [State.mk_heldAcc]; apply hP.heldAcc (hA.mono (by decide)))
    | with_reducible refine keeps_pair (by assumption) ?_
    | with_reducible refine keeps_pair₂ (by assumption) ?_

end Sys2Proof.Machine
end

