-- ==== Sys2Proof/Laws/EffectsWriter.lean ====
section
/-! SUPPORT. The effects of each operation of Machine/ (Qual.lean, Writer.lean, Trigger.lean, Lanes.lean): the primitive changes it may make, as a mask. -/
namespace Sys2Proof.Machine
open Sys2Proof
set_option linter.unusedTactic false
set_option linter.unreachableTactic false
set_option linter.unusedVariables false
set_option linter.unusedSimpArgs false
variable {A : Nat} {P : State → Prop}

theorem State.qualHit_keeps (hP : Keeps A P) (hA : Sub 0x8001 A) {s : State} {k bit : Nat} {f : Fld} {t : DTime} (hs : P s) : P (State.qualHit s k bit f t) := by
  unfold State.qualHit
  repeat' first
    | with_reducible assumption
    | with_reducible refine State.markEvent_keeps hP (hA.mono (by decide)) ?_
    | with_reducible refine State.addSat_unit hP (hA.mono (by decide)) (by first | omega | (simp only [tbPage, jrnlPage, svcPage, swarmPage, eslPage, dmaPage, synPage, domPage, linkPage, dmacPage, chPage, regPage, blkPage, bankPage]; omega)) ?_

theorem State.pulseTests_keeps (hP : Keeps A P) (hA : Sub 0x8001 A) {s : State} {k m : Nat} {high : Bool} {w : Int} {t : DTime} (hs : P s) : P (State.pulseTests s k m high w t) := by
  unfold State.pulseTests
  repeat' first
    | with_reducible assumption
    | lift_lets -underBinder
    | (intro x; revert x; refine keeps_let P ?_ (fun _ _ => ?_))
    | (intro x; clear_value x)
    | with_reducible refine State.qualHit_keeps hP (hA.mono (by decide)) ?_
    | with_reducible refine keeps_ite ?_ ?_
    | split

theorem State.winMove_keeps (hP : Keeps A P) (hA : Sub 0x8001 A) {s : State} {o m : Nat} {a b : Option Nat} {t : DTime} (hs : P s) : P (State.winMove s o m a b t) := by
  unfold State.winMove
  repeat' first
    | with_reducible assumption
    | lift_lets -underBinder
    | (intro x; revert x; refine keeps_let P ?_ (fun _ _ => ?_))
    | (intro x; clear_value x)
    | with_reducible refine hP.qual (hA.mono (by decide)) _ _ _ ?_
    | with_reducible refine State.qualHit_keeps hP (hA.mono (by decide)) ?_
    | with_reducible refine keeps_ite ?_ ?_
    | split
    | with_reducible refine keeps_pair (by assumption) ?_
    | with_reducible refine keeps_pair₂ (by assumption) ?_

theorem State.qualEdge_keeps (hP : Keeps A P) (hA : Sub 0x8001 A) {s : State} {k m : Nat} {rising : Bool} {t : DTime} (hs : P s) : P (State.qualEdge s k m rising t) := by
  unfold State.qualEdge
  repeat' first
    | with_reducible assumption
    | lift_lets -underBinder
    | (intro x; revert x; refine keeps_let P ?_ (fun _ _ => ?_))
    | (intro x; clear_value x)
    | with_reducible refine State.markEvent_keeps hP (hA.mono (by decide)) ?_
    | with_reducible refine hP.qual (hA.mono (by decide)) _ _ _ ?_
    | with_reducible refine State.pulseTests_keeps hP (hA.mono (by decide)) ?_
    | with_reducible refine State.winMove_keeps hP (hA.mono (by decide)) ?_
    | with_reducible refine keeps_ite ?_ ?_
    | split
    | with_reducible refine keeps_pair (by assumption) ?_
    | with_reducible refine keeps_pair₂ (by assumption) ?_

theorem State.qualGap_keeps (hP : Keeps A P) (hA : Sub 0x8000 A) {s : State} {k : Nat} (hs : P s) : P (State.qualGap s k) := by
  unfold State.qualGap
  repeat' first
    | with_reducible assumption
    | lift_lets -underBinder
    | (intro x; revert x; refine keeps_let P ?_ (fun _ _ => ?_))
    | (intro x; clear_value x)
    | with_reducible refine State.markEvent_keeps hP (hA.mono (by decide)) ?_
    | with_reducible refine hP.qual (hA.mono (by decide)) _ _ _ ?_

theorem State.modWins_keeps (hP : Keeps A P) (hA : Sub 0x1000000 A) {s : State} {f : RegWin → RegWin} (hs : P s) : P (State.modWins s f) := by
  unfold State.modWins
  repeat' first
    | with_reducible assumption
    | with_reducible refine State.forEach_keeps hP (hA.mono (by decide)) ?_ (fun _ _ _ => ?_)
    | with_reducible refine hP.win (hA.mono (by decide)) _ _ _ ?_

theorem State.publishQual_keeps (hP : Keeps A P) (hA : Sub 0x8000 A) {s : State} {k : Nat} (hs : P s) : P (State.publishQual s k) := by
  unfold State.publishQual
  repeat' first
    | with_reducible assumption
    | lift_lets -underBinder
    | (intro x; revert x; refine keeps_let P ?_ (fun _ _ => ?_))
    | (intro x; clear_value x)
    | with_reducible refine hP.qual (hA.mono (by decide)) _ _ _ ?_

theorem State.publish_keeps (hP : Keeps A P) (hA : Sub 0x3008001 A) {s : State} {n : Nat} (hs : P s) : P (State.publish s n) := by
  unfold State.publish
  repeat' first
    | with_reducible assumption
    | lift_lets -underBinder
    | (intro x; revert x; refine keeps_let P ?_ (fun _ _ => ?_))
    | (intro x; clear_value x)
    | with_reducible refine State.forEach_keeps hP (hA.mono (by decide)) ?_ (fun _ _ _ => ?_)
    | with_reducible refine State.publishQual_keeps hP (hA.mono (by decide)) ?_
    | with_reducible refine hP.wr (hA.mono (by decide)) _ _ _ (by first | omega | (simp only [tbPage, jrnlPage, svcPage, swarmPage, eslPage, dmaPage, synPage, domPage, linkPage, dmacPage, chPage, regPage, blkPage, bankPage]; omega)) ?_
    | with_reducible refine hP.win (hA.mono (by decide)) _ _ _ ?_
    | with_reducible refine hP.shown (hA.mono (by decide)) _ _ _ ?_
    | with_reducible refine hP.shownNone (hA.mono (by decide)) _ ?_
    | fail_if_no_progress beta_reduce

theorem State.beginWindows_keeps (hP : Keeps A P) (hA : Sub 0x3008000 A) {s : State} (hs : P s) : P (State.beginWindows s) := by
  unfold State.beginWindows
  repeat' first
    | with_reducible assumption
    | lift_lets -underBinder
    | (intro x; revert x; refine keeps_let P ?_ (fun _ _ => ?_))
    | (intro x; clear_value x)
    | with_reducible refine hP.qualsUpd (hA.mono (by decide)) _ _ ?_
    | with_reducible refine hP.shown (hA.mono (by decide)) _ _ _ ?_
    | with_reducible refine hP.shownNone (hA.mono (by decide)) _ ?_
    | with_reducible refine hP.winNone (hA.mono (by decide)) _ ?_
    | fail_if_no_progress beta_reduce

theorem State.holdWindows_keeps (hP : Keeps A P) (hA : Sub 0x3008000 A) {s : State} (hs : P s) : P (State.holdWindows s) := by
  unfold State.holdWindows
  repeat' first
    | with_reducible assumption
    | with_reducible refine State.beginWindows_keeps hP (hA.mono (by decide)) ?_
    | with_reducible refine keeps_ite ?_ ?_
    | split

theorem State.clearQual_keeps (hP : Keeps A P) (hA : Sub 0x1 A) {s : State} {k : Nat} (hs : P s) : P (State.clearQual s k) := by
  unfold State.clearQual
  repeat' first
    | with_reducible assumption
    | with_reducible refine State.setFld_unit hP (hA.mono (by decide)) (by first | omega | (simp only [tbPage, jrnlPage, svcPage, swarmPage, eslPage, dmaPage, synPage, domPage, linkPage, dmacPage, chPage, regPage, blkPage, bankPage]; omega)) ?_

theorem State.pulse_keeps (hP : Keeps A P) (hA : Sub 0x100000000000 A) {s : State} (hs : P s) : P (State.pulse s) := by
  unfold State.pulse
  repeat' first
    | with_reducible assumption
    | with_reducible refine keeps_ite ?_ ?_
    | split
    | (rw [State.mk_trigOut]; apply hP.trigOut (hA.mono (by decide)))

theorem State.pulseEnd_keeps (hP : Keeps A P) (hA : Sub 0x100000000000 A) {s : State} (hs : P s) : P (State.pulseEnd s) := by
  unfold State.pulseEnd
  repeat' first
    | with_reducible assumption
    | with_reducible refine keeps_ite ?_ ?_
    | split
    | (rw [State.mk_trigOut]; apply hP.trigOut (hA.mono (by decide)))
    | with_reducible refine keeps_pair (by assumption) ?_
    | with_reducible refine keeps_pair₂ (by assumption) ?_

theorem State.trigInEdge_keeps (hP : Keeps A P) (hA : Sub 0x80000000000 A) {s : State} {rising : Bool} {fine : Nat} (hs : P s) : P (State.trigInEdge s rising fine) := by
  unfold State.trigInEdge
  repeat' first
    | with_reducible assumption
    | lift_lets -underBinder
    | (intro x; revert x; refine keeps_let P ?_ (fun _ _ => ?_))
    | (intro x; clear_value x)
    | with_reducible refine keeps_ite ?_ ?_
    | split
    | (rw [State.mk_trigIn]; apply hP.trigIn (hA.mono (by decide)))
    | with_reducible refine keeps_pair (by assumption) ?_
    | with_reducible refine keeps_pair₂ (by assumption) ?_

theorem State.namedLine_keeps (hP : Keeps A P) (hA : Sub 0x20000004000 A) {s : State} {n l : Nat} {t : DTime} (hs : P s) : P (State.namedLine s n l t) := by
  unfold State.namedLine
  repeat' first
    | with_reducible assumption
    | with_reducible refine State.gateDecision_keeps hP (hA.mono (by decide)) ?_
    | with_reducible refine State.armDecision_keeps hP (hA.mono (by decide)) ?_
    | with_reducible refine keeps_foldl _ (fun _ _ _ => ?_) ?_
    | with_reducible refine keeps_ite ?_ ?_
    | split
    | with_reducible refine keeps_pair (by assumption) ?_
    | with_reducible refine keeps_pair₂ (by assumption) ?_

theorem State.capEvent_keeps (hP : Keeps A P) (hA : Sub 0x200000000000001 A) {s : State} {n : Nat} {f : Fld} (hs : P s) : P (State.capEvent s n f) := by
  unfold State.capEvent
  repeat' first
    | with_reducible assumption
    | with_reducible refine State.setRc_unit hP (hA.mono (by decide)) (by first | omega | (simp only [tbPage, jrnlPage, svcPage, swarmPage, eslPage, dmaPage, synPage, domPage, linkPage, dmacPage, chPage, regPage, blkPage, bankPage]; omega)) ?_

theorem State.ringFullEnds_keeps (hP : Keeps A P) (hA : Sub 0x800080 A) {s : State} {n src : Nat} (hs : P s) : P (State.ringFullEnds s n src) := by
  unfold State.ringFullEnds
  repeat' first
    | with_reducible assumption
    | with_reducible refine State.closeLosses_keeps hP (hA.mono (by decide)) ?_

theorem State.lossWritten_keeps (hP : Keeps A P) (hA : Sub 0x200000000000029 A) {s : State} {n : Nat} (hs : P s) : P (State.lossWritten s n) := by
  unfold State.lossWritten
  repeat' first
    | with_reducible assumption
    | with_reducible refine State.post_unit hP (hA.mono (by decide)) (by first | omega | (simp only [tbPage, jrnlPage, svcPage, swarmPage, eslPage, dmaPage, synPage, domPage, linkPage, dmacPage, chPage, regPage, blkPage, bankPage]; omega)) ?_
    | with_reducible refine State.addSat_unit hP (hA.mono (by decide)) (by first | omega | (simp only [tbPage, jrnlPage, svcPage, swarmPage, eslPage, dmaPage, synPage, domPage, linkPage, dmacPage, chPage, regPage, blkPage, bankPage]; omega)) ?_

theorem State.lossWrite_keeps (hP : Keeps A P) (hA : Sub 0x2000000000001e9 A) {s : State} {n : Nat} (hs : P s) : P (State.lossWrite s n) := by
  unfold State.lossWrite
  repeat' first
    | with_reducible assumption
    | lift_lets -underBinder
    | (intro x; revert x; refine keeps_let P ?_ (fun _ _ => ?_))
    | (intro x; clear_value x)
    | with_reducible refine hP.losses (hA.mono (by decide)) _ _ _ ?_
    | with_reducible refine State.formGroup_keeps hP (hA.mono (by decide)) ?_
    | with_reducible refine State.lossWritten_keeps hP (hA.mono (by decide)) ?_
    | with_reducible refine State.enqueueRec_keeps hP (hA.mono (by decide)) ?_
    | with_reducible refine keeps_ite ?_ ?_
    | split
    | with_reducible refine keeps_pair (by assumption) ?_
    | with_reducible refine keeps_pair₂ (by assumption) ?_

theorem State.lossFirst_keeps (hP : Keeps A P) (hA : Sub 0x200000000000169 A) {s : State} {n : Nat} {l : Loss} (hs : P s) : P (State.lossFirst s n l) := by
  unfold State.lossFirst
  repeat' first
    | with_reducible assumption
    | lift_lets -underBinder
    | (intro x; revert x; refine keeps_let P ?_ (fun _ _ => ?_))
    | (intro x; clear_value x)
    | with_reducible refine State.formGroup_keeps hP (hA.mono (by decide)) ?_
    | with_reducible refine State.lossWritten_keeps hP (hA.mono (by decide)) ?_
    | with_reducible refine State.showLevels_keeps hP (hA.mono (by decide)) ?_
    | with_reducible refine hP.writer (hA.mono (by decide)) _ _ _ ?_
    | split
    | with_reducible refine keeps_pair (by assumption) ?_
    | with_reducible refine keeps_pair₂ (by assumption) ?_

theorem State.frozenEnds_keeps (hP : Keeps A P) (hA : Sub 0x800080 A) {s : State} {n src kind : Nat} {at_ : DTime} (hs : P s) : P (State.frozenEnds s n src kind at_) := by
  unfold State.frozenEnds
  repeat' first
    | with_reducible assumption
    | lift_lets -underBinder
    | (intro x; revert x; refine keeps_let P ?_ (fun _ _ => ?_))
    | (intro x; clear_value x)
    | with_reducible refine State.closeLosses_keeps hP (hA.mono (by decide)) ?_
    | with_reducible refine hP.losses (hA.mono (by decide)) _ _ _ ?_
    | fail_if_no_progress beta_reduce
    | with_reducible refine keeps_ite ?_ ?_
    | split

theorem State.frozenFirst_keeps (hP : Keeps A P) (hA : Sub 0x2000000000001e9 A) {s : State} {n : Nat} (hs : P s) : P (State.frozenFirst s n) := by
  unfold State.frozenFirst
  dsimp only
  repeat' first
    | with_reducible assumption
    | lift_lets -underBinder
    | (intro x; revert x; refine keeps_let P ?_ (fun _ _ => ?_))
    | (intro x; clear_value x)
    | with_reducible refine State.lossFirst_keeps hP (hA.mono (by decide)) ?_
    | with_reducible refine hP.losses (hA.mono (by decide)) _ _ _ ?_
    | with_reducible refine keeps_foldr _ (fun _ _ _ => ?_) ?_
    | fail_if_no_progress beta_reduce
    | with_reducible refine keeps_ite ?_ ?_
    | split

theorem State.skipGroup_keeps (hP : Keeps A P) (hA : Sub 0x800001 A) {s : State} {n : Nat} (hs : P s) : P (State.skipGroup s n) := by
  unfold State.skipGroup
  repeat' first
    | with_reducible assumption
    | lift_lets -underBinder
    | (intro x; revert x; refine keeps_let P ?_ (fun _ _ => ?_))
    | (intro x; clear_value x)
    | with_reducible refine hP.cap (hA.mono (by decide)) _ _ _ ?_
    | with_reducible refine State.setFld_unit hP (hA.mono (by decide)) (by first | omega | (simp only [tbPage, jrnlPage, svcPage, swarmPage, eslPage, dmaPage, synPage, domPage, linkPage, dmacPage, chPage, regPage, blkPage, bankPage]; omega)) ?_
    | with_reducible refine keeps_ite ?_ ?_
    | split

theorem State.releaseWriter_keeps (hP : Keeps A P) (hA : Sub 0x2000000008001e9 A) {s : State} {n : Nat} {record : Bool} (hs : P s) : P (State.releaseWriter s n record) := by
  unfold State.releaseWriter
  repeat' first
    | with_reducible assumption
    | lift_lets -underBinder
    | (intro x; revert x; refine keeps_let P ?_ (fun _ _ => ?_))
    | (intro x; clear_value x)
    | with_reducible refine State.frozenEnds_keeps hP (hA.mono (by decide)) ?_
    | with_reducible refine State.frozenFirst_keeps hP (hA.mono (by decide)) ?_
    | with_reducible refine State.skipGroup_keeps hP (hA.mono (by decide)) ?_
    | with_reducible refine hP.writer (hA.mono (by decide)) _ _ _ ?_
    | with_reducible refine State.forEach_keeps hP (hA.mono (by decide)) ?_ (fun _ _ _ => ?_)
    | with_reducible refine State.setFld_unit hP (hA.mono (by decide)) (by first | omega | (simp only [tbPage, jrnlPage, svcPage, swarmPage, eslPage, dmaPage, synPage, domPage, linkPage, dmacPage, chPage, regPage, blkPage, bankPage]; omega)) ?_
    | fail_if_no_progress beta_reduce
    | with_reducible refine keeps_ite ?_ ?_
    | split

theorem State.gateAt_keeps (hP : Keeps A P) (hA : Sub 0x4 A) {s : State} {src : Nat} {t : DTime} (hs : P s) : P (State.gateAt s src t).2 := by
  unfold State.gateAt
  repeat' first
    | with_reducible assumption
    | lift_lets -underBinder
    | (intro x; revert x; refine keeps_let P ?_ (fun _ _ => ?_))
    | (intro x; clear_value x)
    | with_reducible refine hP.drawn (hA.mono (by decide)) _ ?_
    | fail_if_no_progress beta_reduce
    | with_reducible refine keeps_ite ?_ ?_
    | split
    | with_reducible refine keeps_pair (by assumption) ?_
    | with_reducible refine keeps_pair₂ (by assumption) ?_

theorem State.segMark_keeps (hP : Keeps A P) (hA : Sub 0x8001c5 A) {s : State} {n cause : Nat} (hs : P s) : P (State.segMark s n cause) := by
  unfold State.segMark
  repeat' first
    | with_reducible assumption
    | lift_lets -underBinder
    | (intro x; revert x; refine keeps_let P ?_ (fun _ _ => ?_))
    | (intro x; clear_value x)
    | with_reducible refine State.gateAt_keeps hP (hA.mono (by decide)) ?_
    | with_reducible refine State.unitGroup_keeps hP (hA.mono (by decide)) ?_
    | with_reducible refine hP.drawn (hA.mono (by decide)) _ ?_
    | split
    | with_reducible refine keeps_pair (by assumption) ?_
    | with_reducible refine keeps_pair₂ (by assumption) ?_

theorem State.newSegment_keeps (hP : Keeps A P) (hA : Sub 0x800001 A) {s : State} {n seg : Nat} (hs : P s) : P (State.newSegment s n seg) := by
  unfold State.newSegment
  repeat' first
    | with_reducible assumption
    | lift_lets -underBinder
    | (intro x; revert x; refine keeps_let P ?_ (fun _ _ => ?_))
    | (intro x; clear_value x)
    | with_reducible refine State.setPhase_keeps hP (hA.mono (by decide)) ?_
    | with_reducible refine State.setFld_unit hP (hA.mono (by decide)) (by first | omega | (simp only [tbPage, jrnlPage, svcPage, swarmPage, eslPage, dmaPage, synPage, domPage, linkPage, dmacPage, chPage, regPage, blkPage, bankPage]; omega)) ?_
    | with_reducible refine hP.cap (hA.mono (by decide)) _ _ _ ?_

theorem State.capDone_keeps (hP : Keeps A P) (hA : Sub 0x200000800800101 A) {s : State} {n : Nat} {natural : Bool} (hs : P s) : P (State.capDone s n natural) := by
  unfold State.capDone
  repeat' first
    | with_reducible assumption
    | lift_lets -underBinder
    | (intro x; revert x; refine keeps_let P ?_ (fun _ _ => ?_))
    | (intro x; clear_value x)
    | with_reducible refine State.capEvent_keeps hP (hA.mono (by decide)) ?_
    | with_reducible refine State.setPhase_keeps hP (hA.mono (by decide)) ?_
    | with_reducible refine State.showLevels_keeps hP (hA.mono (by decide)) ?_
    | with_reducible refine hP.writer (hA.mono (by decide)) _ _ _ ?_
    | with_reducible refine hP.cap (hA.mono (by decide)) _ _ _ ?_
    | with_reducible refine keeps_ite ?_ ?_
    | split
    | (rw [State.mk_run]; apply hP.run (hA.mono (by decide)))

theorem State.segEnd_keeps (hP : Keeps A P) (hA : Sub 0x2000008008001c5 A) {s : State} {n cause : Nat} (hs : P s) : P (State.segEnd s n cause) := by
  unfold State.segEnd
  repeat' first
    | with_reducible assumption
    | lift_lets -underBinder
    | (intro x; revert x; refine keeps_let P ?_ (fun _ _ => ?_))
    | (intro x; clear_value x)
    | with_reducible refine State.segMark_keeps hP (hA.mono (by decide)) ?_
    | with_reducible refine State.capEvent_keeps hP (hA.mono (by decide)) ?_
    | with_reducible refine State.addSat_unit hP (hA.mono (by decide)) (by first | omega | (simp only [tbPage, jrnlPage, svcPage, swarmPage, eslPage, dmaPage, synPage, domPage, linkPage, dmacPage, chPage, regPage, blkPage, bankPage]; omega)) ?_
    | with_reducible refine hP.cap (hA.mono (by decide)) _ _ _ ?_
    | with_reducible refine State.newSegment_keeps hP (hA.mono (by decide)) ?_
    | with_reducible refine State.capDone_keeps hP (hA.mono (by decide)) ?_
    | with_reducible refine keeps_ite ?_ ?_
    | split

theorem State.segPush_keeps (hP : Keeps A P) (hA : Sub 0x800001 A) {s : State} {n : Nat} {arrival : Option Nat} (hs : P s) : P (State.segPush s n arrival) := by
  unfold State.segPush
  repeat' first
    | with_reducible assumption
    | lift_lets -underBinder
    | (intro x; revert x; refine keeps_let P ?_ (fun _ _ => ?_))
    | (intro x; clear_value x)
    | with_reducible refine hP.cap (hA.mono (by decide)) _ _ _ ?_
    | with_reducible refine State.setFld_unit hP (hA.mono (by decide)) (by first | omega | (simp only [tbPage, jrnlPage, svcPage, swarmPage, eslPage, dmaPage, synPage, domPage, linkPage, dmacPage, chPage, regPage, blkPage, bankPage]; omega)) ?_
    | fail_if_no_progress beta_reduce
    | with_reducible refine keeps_ite ?_ ?_
    | split
    | with_reducible refine keeps_pair (by assumption) ?_
    | with_reducible refine keeps_pair₂ (by assumption) ?_

theorem State.offerTrigger_keeps (hP : Keeps A P) (hA : Sub 0x2000008008001c5 A) {s : State} {n : Nat} {o : Offer} (hs : P s) : P (State.offerTrigger s n o).2 := by
  unfold State.offerTrigger
  repeat' first
    | with_reducible assumption
    | lift_lets -underBinder
    | (intro x; revert x; refine keeps_let P ?_ (fun _ _ => ?_))
    | (intro x; clear_value x)
    | with_reducible refine State.addSat_unit hP (hA.mono (by decide)) (by first | omega | (simp only [tbPage, jrnlPage, svcPage, swarmPage, eslPage, dmaPage, synPage, domPage, linkPage, dmacPage, chPage, regPage, blkPage, bankPage]; omega)) ?_
    | with_reducible refine hP.cap (hA.mono (by decide)) _ _ _ ?_
    | with_reducible refine State.setPhase_keeps hP (hA.mono (by decide)) ?_
    | with_reducible refine State.capEvent_keeps hP (hA.mono (by decide)) ?_
    | with_reducible refine State.segEnd_keeps hP (hA.mono (by decide)) ?_
    | fail_if_no_progress beta_reduce
    | with_reducible refine keeps_ite ?_ ?_
    | split

theorem State.jump_keeps (hP : Keeps A P) (hA : Sub 0x800000 A) {s : State} {n : Nat} (hs : P s) : P (State.jump s n) := by
  unfold State.jump
  repeat' first
    | with_reducible assumption
    | with_reducible refine hP.cap (hA.mono (by decide)) _ _ _ ?_
    | with_reducible refine keeps_ite ?_ ?_
    | split

theorem State.jumpEnd_keeps (hP : Keeps A P) (hA : Sub 0x2000008008003ed A) {s : State} {n : Nat} (hs : P s) : P (State.jumpEnd s n) := by
  unfold State.jumpEnd
  repeat' first
    | with_reducible assumption
    | lift_lets -underBinder
    | (intro x; revert x; refine keeps_let P ?_ (fun _ _ => ?_))
    | (intro x; clear_value x)
    | with_reducible refine hP.cap (hA.mono (by decide)) _ _ _ ?_
    | with_reducible refine State.entry_keeps hP (hA.mono (by decide)) ?_
    | with_reducible refine State.capEvent_keeps hP (hA.mono (by decide)) ?_
    | with_reducible refine State.addSat_unit hP (hA.mono (by decide)) (by first | omega | (simp only [tbPage, jrnlPage, svcPage, swarmPage, eslPage, dmaPage, synPage, domPage, linkPage, dmacPage, chPage, regPage, blkPage, bankPage]; omega)) ?_
    | with_reducible refine State.segEnd_keeps hP (hA.mono (by decide)) ?_
    | fail_if_no_progress beta_reduce
    | with_reducible refine keeps_ite ?_ ?_
    | split
    | with_reducible refine keeps_pair (by assumption) ?_
    | with_reducible refine keeps_pair₂ (by assumption) ?_

theorem State.noteLow_keeps (hP : Keeps A P) (hA : Sub 0x800000 A) {s : State} {n : Nat} (hs : P s) : P (State.noteLow s n) := by
  unfold State.noteLow
  repeat' first
    | with_reducible assumption
    | lift_lets -underBinder
    | (intro x; revert x; refine keeps_let P ?_ (fun _ _ => ?_))
    | (intro x; clear_value x)
    | with_reducible refine hP.cap (hA.mono (by decide)) _ _ _ ?_
    | with_reducible refine keeps_ite ?_ ?_
    | split

theorem State.demote_keeps (hP : Keeps A P) (hA : Sub 0x2000000008000a9 A) {s : State} {n i : Nat} (hs : P s) : P (State.demote s n i) := by
  unfold State.demote
  repeat' first
    | with_reducible assumption
    | lift_lets -underBinder
    | (intro x; revert x; refine keeps_let P ?_ (fun _ _ => ?_))
    | (intro x; clear_value x)
    | with_reducible refine State.setFld_unit hP (hA.mono (by decide)) (by first | omega | (simp only [tbPage, jrnlPage, svcPage, swarmPage, eslPage, dmaPage, synPage, domPage, linkPage, dmacPage, chPage, regPage, blkPage, bankPage]; omega)) ?_
    | with_reducible refine State.post_unit hP (hA.mono (by decide)) (by first | omega | (simp only [tbPage, jrnlPage, svcPage, swarmPage, eslPage, dmaPage, synPage, domPage, linkPage, dmacPage, chPage, regPage, blkPage, bankPage]; omega)) ?_
    | with_reducible refine State.lose_keeps hP (hA.mono (by decide)) ?_

theorem State.demoteLowest_keeps (hP : Keeps A P) (hA : Sub 0x2000000008000a9 A) {s : State} {n : Nat} (hs : P s) : P (State.demoteLowest s n) := by
  unfold State.demoteLowest
  repeat' first
    | with_reducible assumption
    | with_reducible refine State.demote_keeps hP (hA.mono (by decide)) ?_
    | with_reducible refine hP.cap (hA.mono (by decide)) _ _ _ ?_
    | with_reducible refine keeps_ite ?_ ?_
    | split
    | with_reducible refine keeps_pair (by assumption) ?_
    | with_reducible refine keeps_pair₂ (by assumption) ?_

theorem State.endDemotion_keeps (hP : Keeps A P) (hA : Sub 0x800081 A) {s : State} {n i : Nat} {byStop : Bool} (hs : P s) : P (State.endDemotion s n i byStop) := by
  unfold State.endDemotion
  repeat' first
    | with_reducible assumption
    | with_reducible refine State.closeLosses_keeps hP (hA.mono (by decide)) ?_
    | with_reducible refine State.setFld_unit hP (hA.mono (by decide)) (by first | omega | (simp only [tbPage, jrnlPage, svcPage, swarmPage, eslPage, dmaPage, synPage, domPage, linkPage, dmacPage, chPage, regPage, blkPage, bankPage]; omega)) ?_

theorem State.restore_keeps (hP : Keeps A P) (hA : Sub 0x2000000008000a9 A) {s : State} {n : Nat} (hs : P s) : P (State.restore s n) := by
  unfold State.restore
  repeat' first
    | with_reducible assumption
    | with_reducible refine State.post_unit hP (hA.mono (by decide)) (by first | omega | (simp only [tbPage, jrnlPage, svcPage, swarmPage, eslPage, dmaPage, synPage, domPage, linkPage, dmacPage, chPage, regPage, blkPage, bankPage]; omega)) ?_
    | with_reducible refine State.endDemotion_keeps hP (hA.mono (by decide)) ?_
    | with_reducible refine hP.cap (hA.mono (by decide)) _ _ _ ?_
    | with_reducible refine keeps_ite ?_ ?_
    | split
    | with_reducible refine keeps_pair (by assumption) ?_
    | with_reducible refine keeps_pair₂ (by assumption) ?_

theorem State.enqueueCap_keeps (hP : Keeps A P) (hA : Sub 0x800101 A) {s : State} {n arrival : Nat} {g : List (List Rec)} (hs : P s) : P (State.enqueueCap s n arrival g) := by
  unfold State.enqueueCap
  repeat' first
    | with_reducible assumption
    | with_reducible refine State.noteLow_keeps hP (hA.mono (by decide)) ?_
    | with_reducible refine State.showLevels_keeps hP (hA.mono (by decide)) ?_
    | with_reducible refine State.pushWriter_keeps hP (hA.mono (by decide)) ?_

theorem State.captureStamp_keeps (hP : Keeps A P) (hA : Sub 0x2000000008001e9 A) {s : State} {k m : Nat} {t : DTime} {rising : Bool} (hs : P s) : P (State.captureStamp s k m t rising) := by
  unfold State.captureStamp
  repeat' first
    | with_reducible assumption
    | lift_lets -underBinder
    | (intro x; revert x; refine keeps_let P ?_ (fun _ _ => ?_))
    | (intro x; clear_value x)
    | with_reducible refine State.lose_keeps hP (hA.mono (by decide)) ?_
    | with_reducible refine State.demote_keeps hP (hA.mono (by decide)) ?_
    | with_reducible refine State.formGroup_keeps hP (hA.mono (by decide)) ?_
    | with_reducible refine State.enqueueCap_keeps hP (hA.mono (by decide)) ?_
    | with_reducible refine keeps_ite ?_ ?_
    | split
    | with_reducible refine keeps_pair (by assumption) ?_
    | with_reducible refine keeps_pair₂ (by assumption) ?_

theorem State.captureGap_keeps (hP : Keeps A P) (hA : Sub 0x2000000008001e9 A) {s : State} {k m cause count span : Nat} {start : DTime} {split coarse : Bool} (hs : P s) : P (State.captureGap s k m cause count span start split coarse) := by
  unfold State.captureGap
  repeat' first
    | with_reducible assumption
    | lift_lets -underBinder
    | (intro x; revert x; refine keeps_let P ?_ (fun _ _ => ?_))
    | (intro x; clear_value x)
    | with_reducible refine State.gapCounted_keeps hP (hA.mono (by decide)) ?_
    | with_reducible refine State.lose_keeps hP (hA.mono (by decide)) ?_
    | with_reducible refine State.takeSeq_keeps hP (hA.mono (by decide)) ?_
    | with_reducible refine State.enqueueCap_keeps hP (hA.mono (by decide)) ?_
    | with_reducible refine keeps_ite ?_ ?_
    | split
    | with_reducible refine keeps_pair (by assumption) ?_
    | with_reducible refine keeps_pair₂ (by assumption) ?_

theorem State.dropDone_keeps (hP : Keeps A P) (hA : Sub 0x800181 A) {s : State} {n : Nat} (hs : P s) : P (State.dropDone s n) := by
  unfold State.dropDone
  repeat' first
    | with_reducible assumption
    | lift_lets -underBinder
    | (intro x; revert x; refine keeps_let P ?_ (fun _ _ => ?_))
    | (intro x; clear_value x)
    | with_reducible refine State.showLevels_keeps hP (hA.mono (by decide)) ?_
    | with_reducible refine hP.writer (hA.mono (by decide)) _ _ _ ?_
    | with_reducible refine State.lose_keeps hP (hA.mono (by decide)) ?_
    | with_reducible refine keeps_foldl _ (fun _ _ _ => ?_) ?_
    | fail_if_no_progress beta_reduce
    | with_reducible refine keeps_ite ?_ ?_
    | split

theorem State.lineLost_keeps (hP : Keeps A P) (hA : Sub 0x800081 A) {s : State} {n src : Nat} {l0 : List Rec} (hs : P s) : P (State.lineLost s n src l0) := by
  induction l0 generalizing s with
  | nil =>
    unfold State.lineLost
    repeat' first
      | with_reducible assumption
      | lift_lets -underBinder
      | (intro x; revert x; refine keeps_let P ?_ (fun _ _ => ?_))
      | (intro x; clear_value x)
      | with_reducible refine State.closeLosses_keeps hP (hA.mono (by decide)) ?_
      | with_reducible refine State.lose_keeps hP (hA.mono (by decide)) ?_
      | fail_if_no_progress beta_reduce
      | with_reducible refine keeps_ite ?_ ?_
      | split
  | cons x r ih =>
    unfold State.lineLost
    repeat' first
      | with_reducible assumption
      | lift_lets -underBinder
      | (intro x; revert x; refine keeps_let P ?_ (fun _ _ => ?_))
      | (intro x; clear_value x)
      | with_reducible refine ih ?_
      | with_reducible refine State.closeLosses_keeps hP (hA.mono (by decide)) ?_
      | with_reducible refine State.lose_keeps hP (hA.mono (by decide)) ?_
      | fail_if_no_progress beta_reduce
      | with_reducible refine keeps_ite ?_ ?_
      | split

theorem State.takeRec_keeps (hP : Keeps A P) (hA : Sub 0x800101 A) {s : State} {i left : Nat} (hs : P s) : P (State.takeRec s i left).2 := by
  unfold State.takeRec
  repeat' first
    | with_reducible assumption
    | lift_lets -underBinder
    | (intro x; revert x; refine keeps_let P ?_ (fun _ _ => ?_))
    | (intro x; clear_value x)
    | with_reducible refine State.showLevels_keeps hP (hA.mono (by decide)) ?_
    | with_reducible refine hP.writer (hA.mono (by decide)) _ _ _ ?_
    | with_reducible refine State.segPush_keeps hP (hA.mono (by decide)) ?_
    | with_reducible refine keeps_ite ?_ ?_
    | split
    | with_reducible refine keeps_pair (by assumption) ?_
    | with_reducible refine keeps_pair₂ (by assumption) ?_

theorem State.stopSegment_keeps (hP : Keeps A P) (hA : Sub 0x2000008008001c5 A) {s : State} {n : Nat} (hs : P s) : P (State.stopSegment s n) := by
  unfold State.stopSegment
  repeat' first
    | with_reducible assumption
    | with_reducible refine State.segEnd_keeps hP (hA.mono (by decide)) ?_
    | with_reducible refine hP.cap (hA.mono (by decide)) _ _ _ ?_
    | with_reducible refine keeps_ite ?_ ?_
    | split

theorem State.setWptr_keeps (hP : Keeps A P) (hA : Sub 0x1 A) {s : State} {b line : Nat} (hs : P s) : P (State.setWptr s b line) := by
  unfold State.setWptr
  repeat' first
    | with_reducible assumption
    | with_reducible refine State.setFld_unit hP (hA.mono (by decide)) (by first | omega | (simp only [tbPage, jrnlPage, svcPage, swarmPage, eslPage, dmaPage, synPage, domPage, linkPage, dmacPage, chPage, regPage, blkPage, bankPage]; omega)) ?_

theorem State.writeOne_keeps (hP : Keeps A P) (hA : Sub 0x2000008008033ef A) {s : State} {i : Nat} {padOk : Bool} (hs : P s) : P (State.writeOne s i padOk) := by
  unfold State.writeOne
  repeat' first
    | with_reducible assumption
    | lift_lets -underBinder
    | (intro x; revert x; refine keeps_let P ?_ (fun _ _ => ?_))
    | (intro x; clear_value x)
    | with_reducible refine State.takeRec_keeps hP (hA.mono (by decide)) ?_
    | with_reducible refine State.segPush_keeps hP (hA.mono (by decide)) ?_
    | with_reducible refine hP.writer (hA.mono (by decide)) _ _ _ ?_
    | with_reducible refine State.lineLost_keeps hP (hA.mono (by decide)) ?_
    | with_reducible refine State.violate_keeps hP (hA.mono (by decide)) ?_
    | with_reducible refine State.setWptr_keeps hP (hA.mono (by decide)) ?_
    | with_reducible refine State.ringFullEnds_keeps hP (hA.mono (by decide)) ?_
    | with_reducible refine State.writeLine_keeps hP (hA.mono (by decide)) ?_
    | with_reducible refine State.segEnd_keeps hP (hA.mono (by decide)) ?_
    | with_reducible refine State.noteLow_keeps hP (hA.mono (by decide)) ?_
    | with_reducible refine State.stopSegment_keeps hP (hA.mono (by decide)) ?_
    | with_reducible refine keeps_ite ?_ ?_
    | split
    | with_reducible refine keeps_pair (by assumption) ?_
    | with_reducible refine keeps_pair₂ (by assumption) ?_

theorem State.padTimeout_keeps (hP : Keeps A P) (hA : Sub 0x2000008008033ef A) {s : State} {i : Nat} (hs : P s) : P (State.padTimeout s i) := by
  unfold State.padTimeout
  repeat' first
    | with_reducible assumption
    | lift_lets -underBinder
    | (intro x; revert x; refine keeps_let P ?_ (fun _ _ => ?_))
    | (intro x; clear_value x)
    | with_reducible refine State.writeOne_keeps hP (hA.mono (by decide)) ?_
    | with_reducible refine keeps_ite ?_ ?_
    | split

theorem State.showStall_keeps (hP : Keeps A P) (hA : Sub 0x1 A) {s : State} {i : Nat} {b : Bool} (hs : P s) : P (State.showStall s i b) := by
  unfold State.showStall
  repeat' first
    | with_reducible assumption
    | with_reducible refine State.setBit_unit hP (hA.mono (by decide)) (by first | omega | (simp only [tbPage, jrnlPage, svcPage, swarmPage, eslPage, dmaPage, synPage, domPage, linkPage, dmacPage, chPage, regPage, blkPage, bankPage]; omega)) ?_
    | with_reducible refine keeps_ite ?_ ?_
    | split

theorem State.enterGroup_keeps (hP : Keeps A P) (hA : Sub 0x200000000000129 A) {s : State} {i : Nat} (hs : P s) : P (State.enterGroup s i) := by
  unfold State.enterGroup
  repeat' first
    | with_reducible assumption
    | lift_lets -underBinder
    | (intro x; revert x; refine keeps_let P ?_ (fun _ _ => ?_))
    | (intro x; clear_value x)
    | with_reducible refine State.forEach_keeps hP (hA.mono (by decide)) ?_ (fun _ _ _ => ?_)
    | with_reducible refine State.setFld_unit hP (hA.mono (by decide)) (by first | omega | (simp only [tbPage, jrnlPage, svcPage, swarmPage, eslPage, dmaPage, synPage, domPage, linkPage, dmacPage, chPage, regPage, blkPage, bankPage]; omega)) ?_
    | with_reducible refine hP.writer (hA.mono (by decide)) _ _ _ ?_
    | with_reducible refine State.setWptr_keeps hP (hA.mono (by decide)) ?_
    | with_reducible refine State.post_unit hP (hA.mono (by decide)) (by first | omega | (simp only [tbPage, jrnlPage, svcPage, swarmPage, eslPage, dmaPage, synPage, domPage, linkPage, dmacPage, chPage, regPage, blkPage, bankPage]; omega)) ?_
    | with_reducible refine State.showStall_keeps hP (hA.mono (by decide)) ?_
    | fail_if_no_progress beta_reduce
    | with_reducible refine keeps_ite ?_ ?_
    | split

theorem State.closeRun_keeps (hP : Keeps A P) (hA : Sub 0x800080 A) {s : State} {n : Nat} (hs : P s) : P (State.closeRun s n) := by
  unfold State.closeRun
  repeat' first
    | with_reducible assumption
    | with_reducible refine State.closeLosses_keeps hP (hA.mono (by decide)) ?_

theorem State.loseQueue_keeps (hP : Keeps A P) (hA : Sub 0x800181 A) {s : State} {i cause : Nat} (hs : P s) : P (State.loseQueue s i cause) := by
  unfold State.loseQueue
  repeat' first
    | with_reducible assumption
    | lift_lets -underBinder
    | (intro x; revert x; refine keeps_let P ?_ (fun _ _ => ?_))
    | (intro x; clear_value x)
    | with_reducible refine State.showLevels_keeps hP (hA.mono (by decide)) ?_
    | with_reducible refine hP.writer (hA.mono (by decide)) _ _ _ ?_
    | with_reducible refine State.lose_keeps hP (hA.mono (by decide)) ?_
    | with_reducible refine keeps_foldl _ (fun _ _ _ => ?_) ?_
    | fail_if_no_progress beta_reduce
    | with_reducible refine keeps_ite ?_ ?_
    | split

theorem State.freshWriter_keeps (hP : Keeps A P) (hA : Sub 0x800181 A) {s : State} {i : Nat} (hs : P s) : P (State.freshWriter s i) := by
  unfold State.freshWriter
  repeat' first
    | with_reducible assumption
    | lift_lets -underBinder
    | (intro x; revert x; refine keeps_let P ?_ (fun _ _ => ?_))
    | (intro x; clear_value x)
    | with_reducible refine State.loseQueue_keeps hP (hA.mono (by decide)) ?_
    | with_reducible refine State.forEach_keeps hP (hA.mono (by decide)) ?_ (fun _ _ _ => ?_)
    | with_reducible refine State.setFld_unit hP (hA.mono (by decide)) (by first | omega | (simp only [tbPage, jrnlPage, svcPage, swarmPage, eslPage, dmaPage, synPage, domPage, linkPage, dmacPage, chPage, regPage, blkPage, bankPage]; omega)) ?_
    | with_reducible refine State.showStall_keeps hP (hA.mono (by decide)) ?_
    | with_reducible refine hP.writer (hA.mono (by decide)) _ _ _ ?_
    | fail_if_no_progress beta_reduce
    | with_reducible refine keeps_ite ?_ ?_
    | split

theorem State.armWriters_keeps (hP : Keeps A P) (hA : Sub 0x48001c1 A) {s : State} {n : Nat} (hs : P s) : P (State.armWriters s n) := by
  unfold State.armWriters
  repeat' first
    | with_reducible assumption
    | lift_lets -underBinder
    | (intro x; revert x; refine keeps_let P ?_ (fun _ _ => ?_))
    | (intro x; clear_value x)
    | with_reducible refine State.closeRun_keeps hP (hA.mono (by decide)) ?_
    | with_reducible refine State.freshWriter_keeps hP (hA.mono (by decide)) ?_
    | with_reducible refine State.flushOpen_keeps hP (hA.mono (by decide)) ?_
    | with_reducible refine State.showLevels_keeps hP (hA.mono (by decide)) ?_
    | with_reducible refine hP.wr (hA.mono (by decide)) _ _ _ (by first | omega | (simp only [tbPage, jrnlPage, svcPage, swarmPage, eslPage, dmaPage, synPage, domPage, linkPage, dmacPage, chPage, regPage, blkPage, bankPage]; omega)) ?_
    | with_reducible refine hP.cap (hA.mono (by decide)) _ _ _ ?_
    | with_reducible refine hP.streamsUpd (hA.mono (by decide)) _ _ ?_
    | with_reducible refine hP.streamsNone (hA.mono (by decide)) _ ?_
    | with_reducible refine hP.streamsKeep (hA.mono (by decide)) _ _ ?_
    | with_reducible refine hP.openedKeep (hA.mono (by decide)) _ _ ?_
    | fail_if_no_progress beta_reduce

theorem State.startCapture_keeps (hP : Keeps A P) (hA : Sub 0x800001 A) {s : State} {n : Nat} (hs : P s) : P (State.startCapture s n) := by
  unfold State.startCapture
  repeat' first
    | with_reducible assumption
    | lift_lets -underBinder
    | (intro x; revert x; refine keeps_let P ?_ (fun _ _ => ?_))
    | (intro x; first | (have _h : Nat := x; clear _h; subst x) | clear_value x)
    | with_reducible refine hP.wr (hA.mono (by decide)) _ _ _ (by first | omega | (simp only [tbPage, jrnlPage, svcPage, swarmPage, eslPage, dmaPage, synPage, domPage, linkPage, dmacPage, chPage, regPage, blkPage, bankPage]; omega)) ?_
    | with_reducible refine State.newSegment_keeps hP (hA.mono (by decide)) ?_
    | with_reducible refine hP.cap (hA.mono (by decide)) _ _ _ ?_

theorem State.endDemotions_keeps (hP : Keeps A P) (hA : Sub 0x800081 A) {s : State} {n : Nat} (hs : P s) : P (State.endDemotions s n) := by
  unfold State.endDemotions
  repeat' first
    | with_reducible assumption
    | with_reducible refine State.forEach_keeps hP (hA.mono (by decide)) ?_ (fun _ _ _ => ?_)
    | with_reducible refine State.endDemotion_keeps hP (hA.mono (by decide)) ?_

theorem State.dropFresh_keeps (hP : Keeps A P) (hA : Sub 0x800181 A) {s : State} {n : Nat} (hs : P s) : P (State.dropFresh s n) := by
  unfold State.dropFresh
  repeat' first
    | with_reducible assumption
    | lift_lets -underBinder
    | (intro x; revert x; refine keeps_let P ?_ (fun _ _ => ?_))
    | (intro x; clear_value x)
    | with_reducible refine State.showLevels_keeps hP (hA.mono (by decide)) ?_
    | with_reducible refine hP.writer (hA.mono (by decide)) _ _ _ ?_
    | with_reducible refine State.lose_keeps hP (hA.mono (by decide)) ?_
    | with_reducible refine keeps_foldl _ (fun _ _ _ => ?_) ?_
    | fail_if_no_progress beta_reduce
    | with_reducible refine keeps_ite ?_ ?_
    | split

theorem State.stopCapture_keeps (hP : Keeps A P) (hA : Sub 0x2000008008001c5 A) {s : State} {n : Nat} (hs : P s) : P (State.stopCapture s n) := by
  unfold State.stopCapture
  repeat' first
    | with_reducible assumption
    | lift_lets -underBinder
    | (intro x; revert x; refine keeps_let P ?_ (fun _ _ => ?_))
    | (intro x; clear_value x)
    | with_reducible refine State.endDemotions_keeps hP (hA.mono (by decide)) ?_
    | with_reducible refine State.dropFresh_keeps hP (hA.mono (by decide)) ?_
    | with_reducible refine State.stopSegment_keeps hP (hA.mono (by decide)) ?_
    | with_reducible refine hP.cap (hA.mono (by decide)) _ _ _ ?_
    | with_reducible refine keeps_ite ?_ ?_
    | split

theorem State.abortWriters_keeps (hP : Keeps A P) (hA : Sub 0x4800181 A) {s : State} {n : Nat} (hs : P s) : P (State.abortWriters s n) := by
  unfold State.abortWriters
  dsimp only
  repeat' first
    | with_reducible assumption
    | lift_lets -underBinder
    | (intro x; revert x; refine keeps_let P ?_ (fun _ _ => ?_))
    | (intro x; clear_value x)
    | with_reducible refine State.endDemotions_keeps hP (hA.mono (by decide)) ?_
    | with_reducible refine hP.cap (hA.mono (by decide)) _ _ _ ?_
    | with_reducible refine hP.writer (hA.mono (by decide)) _ _ _ ?_
    | with_reducible refine State.setPair_unit hP (hA.mono (by decide)) (by first | omega | (simp only [tbPage, jrnlPage, svcPage, swarmPage, eslPage, dmaPage, synPage, domPage, linkPage, dmacPage, chPage, regPage, blkPage, bankPage]; omega)) ?_
    | with_reducible refine State.showLevels_keeps hP (hA.mono (by decide)) ?_
    | with_reducible refine State.closeLosses_keeps hP (hA.mono (by decide)) ?_
    | with_reducible refine hP.losses (hA.mono (by decide)) _ _ _ ?_
    | with_reducible refine hP.openedKeep (hA.mono (by decide)) _ _ ?_
    | fail_if_no_progress beta_reduce

theorem State.triggerPut_keeps (hP : Keeps A P) (hA : Sub 0x200200000000001 A) {s : State} {c sq : Nat} {r : Rec} (hs : P s) : P (State.triggerPut s c sq r) := by
  unfold State.triggerPut
  repeat' first
    | with_reducible assumption
    | lift_lets -underBinder
    | (intro x; revert x; refine keeps_let P ?_ (fun _ _ => ?_))
    | (intro x; clear_value x)
    | with_reducible refine State.capEvent_keeps hP (hA.mono (by decide)) ?_
    | with_reducible refine State.addSat_unit hP (hA.mono (by decide)) (by first | omega | (simp only [tbPage, jrnlPage, svcPage, swarmPage, eslPage, dmaPage, synPage, domPage, linkPage, dmacPage, chPage, regPage, blkPage, bankPage]; omega)) ?_
    | with_reducible refine keeps_ite ?_ ?_
    | split
    | (rw [State.mk_trigs]; apply hP.trigs (hA.mono (by decide)))
    | with_reducible refine keeps_pair (by assumption) ?_
    | with_reducible refine keeps_pair₂ (by assumption) ?_

theorem State.putRefused_keeps (hP : Keeps A P) (hA : Sub 0x800081 A) {s : State} {n count : Nat} (hs : P s) : P (State.putRefused s n count) := by
  unfold State.putRefused
  repeat' first
    | with_reducible assumption
    | with_reducible refine State.lose_keeps hP (hA.mono (by decide)) ?_

theorem State.queuePut_keeps (hP : Keeps A P) (hA : Sub 0x800181 A) {s : State} {n : Nat} {g : List (List Rec)} (hs : P s) : P (State.queuePut s n g) := by
  unfold State.queuePut
  repeat' first
    | with_reducible assumption
    | with_reducible refine State.closeLosses_keeps hP (hA.mono (by decide)) ?_
    | with_reducible refine State.enqueueRec_keeps hP (hA.mono (by decide)) ?_

theorem State.putRecord_keeps (hP : Keeps A P) (hA : Sub 0x4800181 A) {s : State} {g : Nat} {pre : List Rec} {r : Rec} (hs : P s) : P (State.putRecord s g pre r) := by
  unfold State.putRecord
  repeat' first
    | with_reducible assumption
    | lift_lets -underBinder
    | (intro x; revert x; refine keeps_let P ?_ (fun _ _ => ?_))
    | (intro x; clear_value x)
    | with_reducible refine State.queuePut_keeps hP (hA.mono (by decide)) ?_
    | with_reducible refine hP.opened (hA.mono (by decide)) _ _ _ ?_
    | with_reducible refine State.showLevels_keeps hP (hA.mono (by decide)) ?_
    | with_reducible refine State.closeLosses_keeps hP (hA.mono (by decide)) ?_
    | fail_if_no_progress beta_reduce
    | with_reducible refine keeps_ite ?_ ?_
    | split

theorem State.putLate_keeps (hP : Keeps A P) (hA : Sub 0x800081 A) {s : State} {n count : Nat} (hs : P s) : P (State.putLate s n count) := by
  unfold State.putLate
  repeat' first
    | with_reducible assumption
    | lift_lets -underBinder
    | (intro x; revert x; refine keeps_let P ?_ (fun _ _ => ?_))
    | (intro x; clear_value x)
    | with_reducible refine State.lose_keeps hP (hA.mono (by decide)) ?_
    | with_reducible refine State.closeLosses_keeps hP (hA.mono (by decide)) ?_
    | fail_if_no_progress beta_reduce
    | with_reducible refine keeps_ite ?_ ?_
    | split

theorem State.putExt_keeps (hP : Keeps A P) (hA : Sub 0x40 A) {s : State} {st src : Nat} {stamp : Bool} (hs : P s) : P (State.putExt s st src stamp).2 := by
  unfold State.putExt
  repeat' first
    | with_reducible assumption
    | lift_lets -underBinder
    | (intro x; revert x; refine keeps_let P ?_ (fun _ _ => ?_))
    | (intro x; clear_value x)
    | with_reducible refine hP.src (hA.mono (by decide)) _ _ _ _ ?_
    | fail_if_no_progress beta_reduce
    | with_reducible refine keeps_ite ?_ ?_
    | split
    | with_reducible refine keeps_pair (by assumption) ?_
    | with_reducible refine keeps_pair₂ (by assumption) ?_

theorem State.putSeq_keeps (hP : Keeps A P) (hA : Sub 0x20040 A) {s : State} {c src sq keep : Nat} (hs : P s) : P (State.putSeq s c src sq keep).2 := by
  unfold State.putSeq
  repeat' first
    | with_reducible assumption
    | lift_lets -underBinder
    | (intro x; revert x; refine keeps_let P ?_ (fun _ _ => ?_))
    | (intro x; clear_value x)
    | with_reducible refine hP.cell (hA.mono (by decide)) _ _ _ ?_
    | with_reducible refine hP.src (hA.mono (by decide)) _ _ _ _ ?_
    | split
    | with_reducible refine keeps_pair (by assumption) ?_
    | with_reducible refine keeps_pair₂ (by assumption) ?_

theorem State.put_keeps (hP : Keeps A P) (hA : Sub 0x2002000048201c1 A) {s : State} {c sq : Nat} {stamp poisoned : Bool} {r : Rec} (hs : P s) : P (State.put s c sq stamp poisoned r) := by
  unfold State.put
  repeat' first
    | with_reducible assumption
    | lift_lets -underBinder
    | (intro x; revert x; refine keeps_let P ?_ (fun _ _ => ?_))
    | (intro x; clear_value x)
    | with_reducible refine State.triggerPut_keeps hP (hA.mono (by decide)) ?_
    | with_reducible refine State.putLate_keeps hP (hA.mono (by decide)) ?_
    | with_reducible refine State.lose_keeps hP (hA.mono (by decide)) ?_
    | with_reducible refine State.putExt_keeps hP (hA.mono (by decide)) ?_
    | with_reducible refine State.putRefused_keeps hP (hA.mono (by decide)) ?_
    | with_reducible refine State.putRecord_keeps hP (hA.mono (by decide)) ?_
    | with_reducible refine State.putSeq_keeps hP (hA.mono (by decide)) ?_
    | with_reducible refine hP.src (hA.mono (by decide)) _ _ _ _ ?_
    | with_reducible refine keeps_ite ?_ ?_
    | split
    | with_reducible refine keeps_pair (by assumption) ?_
    | with_reducible refine keeps_pair₂ (by assumption) ?_

theorem State.cellPut_keeps (hP : Keeps A P) (hA : Sub 0x2002090049b07e9 A) {s : State} {c : Nat} (hs : P s) : P (State.cellPut s c) := by
  unfold State.cellPut
  repeat' first
    | with_reducible assumption
    | lift_lets -underBinder
    | (intro x; revert x; refine keeps_let P ?_ (fun _ _ => ?_))
    | (intro x; clear_value x)
    | with_reducible refine State.cellRun_keeps hP (hA.mono (by decide)) ?_ (fun _ _ _ _ => ?_)
    | with_reducible refine State.scheduleError_keeps hP (hA.mono (by decide)) ?_
    | with_reducible refine State.setUse_keeps hP (hA.mono (by decide)) ?_
    | with_reducible refine State.addSat_unit hP (hA.mono (by decide)) (by first | omega | (simp only [tbPage, jrnlPage, svcPage, swarmPage, eslPage, dmaPage, synPage, domPage, linkPage, dmacPage, chPage, regPage, blkPage, bankPage]; omega)) ?_
    | with_reducible refine State.put_keeps hP (hA.mono (by decide)) ?_
    | fail_if_no_progress beta_reduce
    | with_reducible refine keeps_ite ?_ ?_
    | split
    | with_reducible refine keeps_pair (by assumption) ?_
    | with_reducible refine keeps_pair₂ (by assumption) ?_

theorem State.cellXin_keeps (hP : Keeps A P) (hA : Sub 0x2000010049b07e9 A) {s : State} {c : Nat} (hs : P s) : P (State.cellXin s c) := by
  unfold State.cellXin
  repeat' first
    | with_reducible assumption
    | with_reducible refine State.cellRun_keeps hP (hA.mono (by decide)) ?_ (fun _ _ _ _ => ?_)
    | with_reducible refine State.land_keeps hP (hA.mono (by decide)) ?_
    | split
    | with_reducible refine keeps_pair (by assumption) ?_
    | with_reducible refine keeps_pair₂ (by assumption) ?_

theorem State.decision_keeps (hP : Keeps A P) (hA : Sub 0x120001804000 A) {s : State} {n l : Nat} (hs : P s) : P (State.decision s n l) := by
  unfold State.decision
  repeat' first
    | with_reducible assumption
    | lift_lets -underBinder
    | (intro x; revert x; refine keeps_let P ?_ (fun _ _ => ?_))
    | (intro x; clear_value x)
    | with_reducible refine State.namedLine_keeps hP (hA.mono (by decide)) ?_
    | with_reducible refine State.gateDecision_keeps hP (hA.mono (by decide)) ?_
    | with_reducible refine hP.win (hA.mono (by decide)) _ _ _ ?_
    | with_reducible refine State.jump_keeps hP (hA.mono (by decide)) ?_
    | with_reducible refine State.pulse_keeps hP (hA.mono (by decide)) ?_
    | with_reducible refine keeps_ite ?_ ?_
    | split
    | with_reducible refine keeps_pair (by assumption) ?_
    | with_reducible refine keeps_pair₂ (by assumption) ?_

theorem State.cellEvt_keeps (hP : Keeps A P) (hA : Sub 0x2001290059b47e9 A) {s : State} {c : Nat} (hs : P s) : P (State.cellEvt s c) := by
  unfold State.cellEvt
  repeat' first
    | with_reducible assumption
    | lift_lets -underBinder
    | (intro x; revert x; refine keeps_let P ?_ (fun _ _ => ?_))
    | (intro x; clear_value x)
    | with_reducible refine State.cellRun_keeps hP (hA.mono (by decide)) ?_ (fun _ _ _ _ => ?_)
    | with_reducible refine State.decision_keeps hP (hA.mono (by decide)) ?_
    | with_reducible refine State.setUse_keeps hP (hA.mono (by decide)) ?_
    | fail_if_no_progress beta_reduce
    | with_reducible refine keeps_ite ?_ ?_
    | split
    | with_reducible refine keeps_pair (by assumption) ?_
    | with_reducible refine keeps_pair₂ (by assumption) ?_

theorem State.offerAll_keeps (hP : Keeps A P) (hA : Sub 0x2000008008001c5 A) {s : State} {o : Nat → Offer} {l0 : List Nat} (hs : P s) : P (State.offerAll s o l0).2 := by
  induction l0 generalizing s with
  | nil =>
    unfold State.offerAll
    repeat' first
      | with_reducible assumption
      | with_reducible refine State.offerTrigger_keeps hP (hA.mono (by decide)) ?_
      | split
      | with_reducible refine keeps_pair (by assumption) ?_
      | with_reducible refine keeps_pair₂ (by assumption) ?_
  | cons x r ih =>
    unfold State.offerAll
    repeat' first
      | with_reducible assumption
      | with_reducible refine ih ?_
      | with_reducible refine State.offerTrigger_keeps hP (hA.mono (by decide)) ?_
      | split
      | with_reducible refine keeps_pair (by assumption) ?_
      | with_reducible refine keeps_pair₂ (by assumption) ?_

theorem State.swarmMark_keeps (hP : Keeps A P) (hA : Sub 0x1000000 A) {s : State} {code : Nat} {t : DTime} (hs : P s) : P (State.swarmMark s code t) := by
  unfold State.swarmMark
  repeat' first
    | with_reducible assumption
    | with_reducible refine State.modWins_keeps hP (hA.mono (by decide)) ?_

theorem State.swarmOffer_keeps (hP : Keeps A P) (hA : Sub 0x2000008018001c5 A) {s : State} {code : Nat} {t : DTime} {cycle : Nat} (hs : P s) : P (State.swarmOffer s code t cycle).2 := by
  unfold State.swarmOffer
  repeat' first
    | with_reducible assumption
    | lift_lets -underBinder
    | (intro x; revert x; refine keeps_let P ?_ (fun _ _ => ?_))
    | (intro x; clear_value x)
    | with_reducible refine State.swarmMark_keeps hP (hA.mono (by decide)) ?_
    | with_reducible refine State.offerAll_keeps hP (hA.mono (by decide)) ?_

theorem State.swarmArrive_keeps (hP : Keeps A P) (hA : Sub 0x1000000001000000 A) {s : State} {code : Nat} {t : DTime} (hs : P s) : P (State.swarmArrive s code t) := by
  unfold State.swarmArrive
  repeat' first
    | with_reducible assumption
    | lift_lets -underBinder
    | (intro x; revert x; refine keeps_let P ?_ (fun _ _ => ?_))
    | (intro x; clear_value x)
    | with_reducible refine State.swarmMark_keeps hP (hA.mono (by decide)) ?_
    | fail_if_no_progress beta_reduce
    | (rw [State.mk_offers]; apply hP.offers (hA.mono (by decide)))

theorem State.offersDue_keeps (hP : Keeps A P) (hA : Sub 0x12000008008001c5 A) {s : State} (hs : P s) : P (State.offersDue s) := by
  unfold State.offersDue
  repeat' first
    | with_reducible assumption
    | with_reducible refine State.offerTrigger_keeps hP (hA.mono (by decide)) ?_
    | with_reducible refine keeps_foldl _ (fun _ _ _ => ?_) ?_
    | (rw [State.mk_offers]; apply hP.offers (hA.mono (by decide)))

theorem State.trigInEmit_keeps (hP : Keeps A P) (hA : Sub 0x1000080001000000 A) {s : State} (hs : P s) : P (State.trigInEmit s) := by
  unfold State.trigInEmit
  repeat' first
    | with_reducible assumption
    | lift_lets -underBinder
    | (intro x; revert x; refine keeps_let P ?_ (fun _ _ => ?_))
    | (intro x; clear_value x)
    | with_reducible refine State.modWins_keeps hP (hA.mono (by decide)) ?_
    | fail_if_no_progress beta_reduce
    | with_reducible refine keeps_ite ?_ ?_
    | split
    | (rw [State.mk_trigIn]; apply hP.trigIn (hA.mono (by decide)))
    | (rw [State.mk_offers]; apply hP.offers (hA.mono (by decide)))
    | with_reducible refine keeps_pair (by assumption) ?_
    | with_reducible refine keeps_pair₂ (by assumption) ?_

theorem State.emitEntry_keeps (hP : Keeps A P) (hA : Sub 0xa0002000081c7ed A) {s : State} {k : Nat} {e : Entry} (hs : P s) : P (State.emitEntry s k e) := by
  unfold State.emitEntry
  repeat' first
    | with_reducible assumption
    | lift_lets -underBinder
    | (intro x; revert x; refine keeps_let P ?_ (fun _ _ => ?_))
    | (intro x; clear_value x)
    | with_reducible refine State.qualEdge_keeps hP (hA.mono (by decide)) ?_
    | with_reducible refine State.measureStamp_keeps hP (hA.mono (by decide)) ?_
    | with_reducible refine State.deliver_keeps hP (hA.mono (by decide)) ?_ (fun _ _ _ => ?_)
    | with_reducible refine State.stampEntry_keeps hP (hA.mono (by decide)) ?_
    | with_reducible refine State.captureStamp_keeps hP (hA.mono (by decide)) ?_
    | with_reducible refine State.measureGap_keeps hP (hA.mono (by decide)) ?_
    | with_reducible refine State.qualGap_keeps hP (hA.mono (by decide)) ?_
    | with_reducible refine State.offer_keeps hP (hA.mono (by decide)) ?_
    | with_reducible refine State.captureGap_keeps hP (hA.mono (by decide)) ?_
    | fail_if_no_progress beta_reduce
    | split
    | with_reducible refine keeps_pair (by assumption) ?_
    | with_reducible refine keeps_pair₂ (by assumption) ?_

theorem State.poolEmit_keeps (hP : Keeps A P) (hA : Sub 0xa0002000081c7ed A) {s : State} {k : Nat} (hs : P s) : P (State.poolEmit s k) := by
  unfold State.poolEmit
  repeat' first
    | with_reducible assumption
    | lift_lets -underBinder
    | (intro x; revert x; refine keeps_let P ?_ (fun _ _ => ?_))
    | (intro x; clear_value x)
    | with_reducible refine State.modChan_keeps hP (hA.mono (by decide)) ?_
    | with_reducible refine State.leftPool_keeps hP (hA.mono (by decide)) ?_
    | with_reducible refine State.emitEntry_keeps hP (hA.mono (by decide)) ?_
    | with_reducible refine keeps_foldl _ (fun _ _ _ => ?_) ?_
    | fail_if_no_progress beta_reduce

theorem State.noteMatcher_keeps (hP : Keeps A P) (hA : Sub 0x400000000000 A) {s : State} {off : Nat} {old : Dword} (hs : P s) : P (State.noteMatcher s off old) := by
  unfold State.noteMatcher
  repeat' first
    | with_reducible assumption
    | (rw [State.mk_esl]; apply hP.esl (hA.mono (by decide)))

theorem State.stepFrame_keeps (hP : Keeps A P) (hA : Sub 0x2004000008001ed A) {s : State} {start : DTime} {lanes : List (List StepChar)} (hs : P s) : P (State.stepFrame s start lanes) := by
  unfold State.stepFrame
  repeat' first
    | with_reducible assumption
    | lift_lets -underBinder
    | (intro x; revert x; refine keeps_let P ?_ (fun _ _ => ?_))
    | (intro x; clear_value x)
    | with_reducible refine hP.drawn (hA.mono (by decide)) _ ?_
    | with_reducible refine State.setPair_unit hP (hA.mono (by decide)) (by first | omega | (simp only [tbPage, jrnlPage, svcPage, swarmPage, eslPage, dmaPage, synPage, domPage, linkPage, dmacPage, chPage, regPage, blkPage, bankPage]; omega)) ?_
    | with_reducible refine State.setFld_unit hP (hA.mono (by decide)) (by first | omega | (simp only [tbPage, jrnlPage, svcPage, swarmPage, eslPage, dmaPage, synPage, domPage, linkPage, dmacPage, chPage, regPage, blkPage, bankPage]; omega)) ?_
    | with_reducible refine State.raise_unit hP (hA.mono (by decide)) (by first | omega | (simp only [tbPage, jrnlPage, svcPage, swarmPage, eslPage, dmaPage, synPage, domPage, linkPage, dmacPage, chPage, regPage, blkPage, bankPage]; omega)) ?_
    | with_reducible refine State.addSat_unit hP (hA.mono (by decide)) (by first | omega | (simp only [tbPage, jrnlPage, svcPage, swarmPage, eslPage, dmaPage, synPage, domPage, linkPage, dmacPage, chPage, regPage, blkPage, bankPage]; omega)) ?_
    | with_reducible refine State.forEach_keeps hP (hA.mono (by decide)) ?_ (fun _ _ _ => ?_)
    | with_reducible refine State.unitGroup_keeps hP (hA.mono (by decide)) ?_
    | fail_if_no_progress beta_reduce
    | with_reducible refine keeps_ite ?_ ?_
    | split
    | (rw [State.mk_esl]; apply hP.esl (hA.mono (by decide)))
    | with_reducible refine keeps_pair (by assumption) ?_
    | with_reducible refine keeps_pair₂ (by assumption) ?_

theorem State.showStep_keeps (hP : Keeps A P) (hA : Sub 0x400001000000 A) {s : State} {d : StepDue} (hs : P s) : P (State.showStep s d) := by
  unfold State.showStep
  repeat' first
    | with_reducible assumption
    | lift_lets -underBinder
    | (intro x; revert x; refine keeps_let P ?_ (fun _ _ => ?_))
    | (intro x; clear_value x)
    | with_reducible refine State.modWins_keeps hP (hA.mono (by decide)) ?_
    | with_reducible refine keeps_foldl _ (fun _ _ _ => ?_) ?_
    | fail_if_no_progress beta_reduce
    | with_reducible refine keeps_ite ?_ ?_
    | split
    | (rw [State.mk_esl]; apply hP.esl (hA.mono (by decide)))
    | with_reducible refine keeps_pair (by assumption) ?_
    | with_reducible refine keeps_pair₂ (by assumption) ?_

theorem State.showSteps_keeps (hP : Keeps A P) (hA : Sub 0x400001000000 A) {s : State} (hs : P s) : P (State.showSteps s) := by
  unfold State.showSteps
  repeat' first
    | with_reducible assumption
    | with_reducible refine State.showStep_keeps hP (hA.mono (by decide)) ?_
    | with_reducible refine keeps_foldl _ (fun _ _ _ => ?_) ?_
    | (rw [State.mk_esl]; apply hP.esl (hA.mono (by decide)))

theorem State.stepError_keeps (hP : Keeps A P) (hA : Sub 0x8001c1 A) {s : State} {cause : Nat} (hs : P s) : P (State.stepError s cause) := by
  unfold State.stepError
  repeat' first
    | with_reducible assumption
    | with_reducible refine State.forEach_keeps hP (hA.mono (by decide)) ?_ (fun _ _ _ => ?_)
    | with_reducible refine State.unitGroup_keeps hP (hA.mono (by decide)) ?_

theorem State.laneStatus_keeps (hP : Keeps A P) (hA : Sub 0x1 A) {s : State} {locked : Nat} {estep : Bool} (hs : P s) : P (State.laneStatus s locked estep) := by
  unfold State.laneStatus
  repeat' first
    | with_reducible assumption
    | with_reducible refine State.setBit_unit hP (hA.mono (by decide)) (by first | omega | (simp only [tbPage, jrnlPage, svcPage, swarmPage, eslPage, dmaPage, synPage, domPage, linkPage, dmacPage, chPage, regPage, blkPage, bankPage]; omega)) ?_
    | with_reducible refine State.setFld_unit hP (hA.mono (by decide)) (by first | omega | (simp only [tbPage, jrnlPage, svcPage, swarmPage, eslPage, dmaPage, synPage, domPage, linkPage, dmacPage, chPage, regPage, blkPage, bankPage]; omega)) ?_

theorem State.alignLost_keeps (hP : Keeps A P) (hA : Sub 0x2004000008003e9 A) {s : State} {on : Option (BitVec 4)} {locked : Nat} {estep : Bool} (hs : P s) : P (State.alignLost s on locked estep) := by
  unfold State.alignLost
  repeat' first
    | with_reducible assumption
    | lift_lets -underBinder
    | (intro x; revert x; refine keeps_let P ?_ (fun _ _ => ?_))
    | (intro x; clear_value x)
    | with_reducible refine State.laneStatus_keeps hP (hA.mono (by decide)) ?_
    | with_reducible refine State.setFld_unit hP (hA.mono (by decide)) (by first | omega | (simp only [tbPage, jrnlPage, svcPage, swarmPage, eslPage, dmaPage, synPage, domPage, linkPage, dmacPage, chPage, regPage, blkPage, bankPage]; omega)) ?_
    | with_reducible refine State.post_unit hP (hA.mono (by decide)) (by first | omega | (simp only [tbPage, jrnlPage, svcPage, swarmPage, eslPage, dmaPage, synPage, domPage, linkPage, dmacPage, chPage, regPage, blkPage, bankPage]; omega)) ?_
    | with_reducible refine State.addSat_unit hP (hA.mono (by decide)) (by first | omega | (simp only [tbPage, jrnlPage, svcPage, swarmPage, eslPage, dmaPage, synPage, domPage, linkPage, dmacPage, chPage, regPage, blkPage, bankPage]; omega)) ?_
    | with_reducible refine State.stepError_keeps hP (hA.mono (by decide)) ?_
    | with_reducible refine State.journalGroup_keeps hP (hA.mono (by decide)) (by simp) ?_
    | with_reducible refine keeps_ite ?_ ?_
    | split
    | (rw [State.mk_esl]; apply hP.esl (hA.mono (by decide)))

theorem State.alignChar_keeps (hP : Keeps A P) (hA : Sub 0x2004000008003e9 A) {s : State} {estep : Bool} (hs : P s) : P (State.alignChar s estep) := by
  unfold State.alignChar
  repeat' first
    | with_reducible assumption
    | lift_lets -underBinder
    | (intro x; revert x; refine keeps_let P ?_ (fun _ _ => ?_))
    | (intro x; clear_value x)
    | with_reducible refine State.laneStatus_keeps hP (hA.mono (by decide)) ?_
    | with_reducible refine State.post_unit hP (hA.mono (by decide)) (by first | omega | (simp only [tbPage, jrnlPage, svcPage, swarmPage, eslPage, dmaPage, synPage, domPage, linkPage, dmacPage, chPage, regPage, blkPage, bankPage]; omega)) ?_
    | with_reducible refine State.setFld_unit hP (hA.mono (by decide)) (by first | omega | (simp only [tbPage, jrnlPage, svcPage, swarmPage, eslPage, dmaPage, synPage, domPage, linkPage, dmacPage, chPage, regPage, blkPage, bankPage]; omega)) ?_
    | with_reducible refine State.stepError_keeps hP (hA.mono (by decide)) ?_
    | with_reducible refine State.journalGroup_keeps hP (hA.mono (by decide)) (by simp) ?_
    | with_reducible refine keeps_ite ?_ ?_
    | split
    | (rw [State.mk_esl]; apply hP.esl (hA.mono (by decide)))

theorem State.eslOff_keeps (hP : Keeps A P) (hA : Sub 0x400000000001 A) {s : State} (hs : P s) : P (State.eslOff s) := by
  unfold State.eslOff
  repeat' first
    | with_reducible assumption
    | lift_lets -underBinder
    | (intro x; revert x; refine keeps_let P ?_ (fun _ _ => ?_))
    | (intro x; clear_value x)
    | with_reducible refine State.setFld_unit hP (hA.mono (by decide)) (by first | omega | (simp only [tbPage, jrnlPage, svcPage, swarmPage, eslPage, dmaPage, synPage, domPage, linkPage, dmacPage, chPage, regPage, blkPage, bankPage]; omega)) ?_
    | (rw [State.mk_esl]; apply hP.esl (hA.mono (by decide)))

theorem State.startEsl_keeps (hP : Keeps A P) (hA : Sub 0x400000000001 A) {s : State} (hs : P s) : P (State.startEsl s) := by
  unfold State.startEsl
  repeat' first
    | with_reducible assumption
    | lift_lets -underBinder
    | (intro x; revert x; refine keeps_let P ?_ (fun _ _ => ?_))
    | (intro x; clear_value x)
    | with_reducible refine State.setFld_unit hP (hA.mono (by decide)) (by first | omega | (simp only [tbPage, jrnlPage, svcPage, swarmPage, eslPage, dmaPage, synPage, domPage, linkPage, dmacPage, chPage, regPage, blkPage, bankPage]; omega)) ?_
    | with_reducible refine State.setPair_unit hP (hA.mono (by decide)) (by first | omega | (simp only [tbPage, jrnlPage, svcPage, swarmPage, eslPage, dmaPage, synPage, domPage, linkPage, dmacPage, chPage, regPage, blkPage, bankPage]; omega)) ?_
    | (rw [State.mk_esl]; apply hP.esl (hA.mono (by decide)))

end Sys2Proof.Machine
end

