-- ==== Sys2Proof/Laws/EffectsLink.lean ====
section
/-! SUPPORT. The effects of each operation of Machine/ (Frames.lean, Link.lean, Run.lean, Deliver.lean): the primitive changes it may make, as a mask. -/
namespace Sys2Proof.Machine
open Sys2Proof
set_option linter.unusedTactic false
set_option linter.unreachableTactic false
set_option linter.unusedVariables false
set_option linter.unusedSimpArgs false
variable {A : Nat} {P : State → Prop}

theorem State.modLink_keeps (hP : Keeps A P) (hA : Sub 0x8000000 A) {s : State} {p : Nat} {f : LinkSt → LinkSt} (hs : P s) : P (State.modLink s p f) := by
  unfold State.modLink
  repeat' first
    | with_reducible assumption
    | with_reducible refine hP.link (hA.mono (by decide)) _ _ _ ?_

theorem State.modSwarm_keeps (hP : Keeps A P) (hA : Sub 0x800000000000 A) {s : State} {f : Swarm → Swarm} (hs : P s) : P (State.modSwarm s f) := by
  unfold State.modSwarm
  repeat' first
    | with_reducible assumption
    | (rw [State.mk_swarm]; apply hP.swarm (hA.mono (by decide)))

theorem State.setLstate_keeps (hP : Keeps A P) (hA : Sub 0x2000000008007e9 A) {s : State} {p v : Nat} (hs : P s) : P (State.setLstate s p v) := by
  unfold State.setLstate
  repeat' first
    | with_reducible assumption
    | lift_lets -underBinder
    | (intro x; revert x; refine keeps_let P ?_ (fun _ _ => ?_))
    | (intro x; clear_value x)
    | with_reducible refine State.setFld_unit hP (hA.mono (by decide)) (by first | omega | (simp only [tbPage, jrnlPage, svcPage, swarmPage, eslPage, dmaPage, synPage, domPage, linkPage, dmacPage, chPage, regPage, blkPage, bankPage]; omega)) ?_
    | with_reducible refine State.applyPage_unit hP (hA.mono (by decide)) (by first | omega | (simp only [tbPage, jrnlPage, svcPage, swarmPage, eslPage, dmaPage, synPage, domPage, linkPage, dmacPage, chPage, regPage, blkPage, bankPage]; omega)) ?_
    | with_reducible refine keeps_ite ?_ ?_
    | split

theorem State.applyTb_keeps (hP : Keeps A P) (hA : Sub 0x2000000008007e9 A) {s : State} (hs : P s) : P (State.applyTb s) := by
  unfold State.applyTb
  repeat' first
    | with_reducible assumption
    | lift_lets -underBinder
    | (intro x; revert x; refine keeps_let P ?_ (fun _ _ => ?_))
    | (intro x; clear_value x)
    | with_reducible refine State.applyPage_unit hP (hA.mono (by decide)) (by first | omega | (simp only [tbPage, jrnlPage, svcPage, swarmPage, eslPage, dmaPage, synPage, domPage, linkPage, dmacPage, chPage, regPage, blkPage, bankPage]; omega)) ?_
    | with_reducible refine State.post_unit hP (hA.mono (by decide)) (by first | omega | (simp only [tbPage, jrnlPage, svcPage, swarmPage, eslPage, dmaPage, synPage, domPage, linkPage, dmacPage, chPage, regPage, blkPage, bankPage]; omega)) ?_
    | with_reducible refine keeps_ite ?_ ?_
    | split

theorem State.tbStops_keeps (hP : Keeps A P) (hA : Sub 0x2000000008007e9 A) {s old : State} (hs : P s) (hold : P old) : P (State.tbStops s old) := by
  unfold State.tbStops
  repeat' first
    | with_reducible assumption
    | with_reducible refine State.applyTb_keeps hP (hA.mono (by decide)) ?_
    | with_reducible refine keeps_ite ?_ ?_
    | split

theorem State.noteProgress_keeps (hP : Keeps A P) (hA : Sub 0x800000000000 A) {s : State} {p : Nat} {ack : Bool} (hs : P s) : P (State.noteProgress s p ack) := by
  unfold State.noteProgress
  repeat' first
    | with_reducible assumption
    | lift_lets -underBinder
    | (intro x; revert x; refine keeps_let P ?_ (fun _ _ => ?_))
    | (intro x; clear_value x)
    | with_reducible refine State.modSwarm_keeps hP (hA.mono (by decide)) ?_
    | fail_if_no_progress beta_reduce
    | with_reducible refine keeps_ite ?_ ?_
    | split

theorem State.sendBlocks_keeps (hP : Keeps A P) (hA : Sub 0x8000000 A) {s : State} {p : Nat} {words : List (BitVec 64)} (hs : P s) : P (State.sendBlocks s p words) := by
  unfold State.sendBlocks
  repeat' first
    | with_reducible assumption
    | with_reducible refine State.modLink_keeps hP (hA.mono (by decide)) ?_

theorem State.sendMark_keeps (hP : Keeps A P) (hA : Sub 0x8000000 A) {s : State} {p : Nat} (hs : P s) : P (State.sendMark s p) := by
  unfold State.sendMark
  repeat' first
    | with_reducible assumption
    | with_reducible refine State.modLink_keeps hP (hA.mono (by decide)) ?_

theorem State.transmit_keeps (hP : Keeps A P) (hA : Sub 0x2000000088003eb A) {s : State} {p : Nat} {reliable : Bool} {f : Frame} (hs : P s) : P (State.transmit s p reliable f) := by
  unfold State.transmit
  repeat' first
    | with_reducible assumption
    | lift_lets -underBinder
    | (intro x; revert x; refine keeps_let P ?_ (fun _ _ => ?_))
    | (intro x; clear_value x)
    | with_reducible refine State.modLink_keeps hP (hA.mono (by decide)) ?_
    | with_reducible refine hP.send (hA.mono (by decide)) _ _ ?_
    | with_reducible refine State.sendBlocks_keeps hP (hA.mono (by decide)) ?_
    | with_reducible refine State.injected_keeps hP (hA.mono (by decide)) ?_
    | fail_if_no_progress beta_reduce
    | with_reducible refine keeps_ite ?_ ?_
    | split

theorem State.sendTiming_keeps (hP : Keeps A P) (hA : Sub 0x2000000088003eb A) {s : State} {p : Nat} {x : Payload} (hs : P s) : P (State.sendTiming s p x) := by
  unfold State.sendTiming
  repeat' first
    | with_reducible assumption
    | with_reducible refine State.transmit_keeps hP (hA.mono (by decide)) ?_

theorem State.launch_keeps (hP : Keeps A P) (hA : Sub 0x2008000088003eb A) {s : State} {p : Nat} {f : Frame} (hs : P s) : P (State.launch s p f) := by
  unfold State.launch
  repeat' first
    | with_reducible assumption
    | lift_lets -underBinder
    | (intro x; revert x; refine keeps_let P ?_ (fun _ _ => ?_))
    | (intro x; clear_value x)
    | with_reducible refine hP.link (hA.mono (by decide)) _ _ _ ?_
    | with_reducible refine State.noteProgress_keeps hP (hA.mono (by decide)) ?_
    | with_reducible refine State.transmit_keeps hP (hA.mono (by decide)) ?_

theorem State.sendReliable_keeps (hP : Keeps A P) (hA : Sub 0x2008000088003eb A) {s : State} {p : Nat} {origin : BitVec 11} {hops : BitVec 5} {x : Payload} (hs : P s) : P (State.sendReliable s p origin hops x) := by
  unfold State.sendReliable
  repeat' first
    | with_reducible assumption
    | lift_lets -underBinder
    | (intro x; revert x; refine keeps_let P ?_ (fun _ _ => ?_))
    | (intro x; clear_value x)
    | with_reducible refine State.launch_keeps hP (hA.mono (by decide)) ?_
    | with_reducible refine State.addSat_unit hP (hA.mono (by decide)) (by first | omega | (simp only [tbPage, jrnlPage, svcPage, swarmPage, eslPage, dmaPage, synPage, domPage, linkPage, dmacPage, chPage, regPage, blkPage, bankPage]; omega)) ?_
    | with_reducible refine hP.link (hA.mono (by decide)) _ _ _ ?_
    | fail_if_no_progress beta_reduce
    | with_reducible refine keeps_ite ?_ ?_
    | split

theorem State.drain_keeps (hP : Keeps A P) (hA : Sub 0x2008000088003eb A) {s : State} {p : Nat} {l0 : Nat} (hs : P s) : P (State.drain s p l0) := by
  induction l0 generalizing s with
  | zero =>
    unfold State.drain
    repeat' first
      | with_reducible assumption
      | lift_lets -underBinder
      | (intro x; revert x; refine keeps_let P ?_ (fun _ _ => ?_))
      | (intro x; clear_value x)
      | with_reducible refine State.launch_keeps hP (hA.mono (by decide)) ?_
      | with_reducible refine hP.link (hA.mono (by decide)) _ _ _ ?_
      | with_reducible refine keeps_ite ?_ ?_
      | split
      | with_reducible refine keeps_pair (by assumption) ?_
      | with_reducible refine keeps_pair₂ (by assumption) ?_
  | succ m ih =>
    unfold State.drain
    repeat' first
      | with_reducible assumption
      | lift_lets -underBinder
      | (intro x; revert x; refine keeps_let P ?_ (fun _ _ => ?_))
      | (intro x; clear_value x)
      | with_reducible refine ih ?_
      | with_reducible refine State.launch_keeps hP (hA.mono (by decide)) ?_
      | with_reducible refine hP.link (hA.mono (by decide)) _ _ _ ?_
      | with_reducible refine keeps_ite ?_ ?_
      | split
      | with_reducible refine keeps_pair (by assumption) ?_
      | with_reducible refine keeps_pair₂ (by assumption) ?_

theorem State.takeAck_keeps (hP : Keeps A P) (hA : Sub 0x2008000088003eb A) {s : State} {p : Nat} {a : BitVec 12} (hs : P s) : P (State.takeAck s p a) := by
  unfold State.takeAck
  repeat' first
    | with_reducible assumption
    | lift_lets -underBinder
    | (intro x; revert x; refine keeps_let P ?_ (fun _ _ => ?_))
    | (intro x; clear_value x)
    | with_reducible refine State.drain_keeps hP (hA.mono (by decide)) ?_
    | with_reducible refine State.noteProgress_keeps hP (hA.mono (by decide)) ?_
    | with_reducible refine hP.link (hA.mono (by decide)) _ _ _ ?_
    | split
    | with_reducible refine keeps_pair (by assumption) ?_
    | with_reducible refine keeps_pair₂ (by assumption) ?_

theorem State.resend_keeps (hP : Keeps A P) (hA : Sub 0x2000000088003eb A) {s : State} {p : Nat} (hs : P s) : P (State.resend s p) := by
  unfold State.resend
  repeat' first
    | with_reducible assumption
    | lift_lets -underBinder
    | (intro x; revert x; refine keeps_let P ?_ (fun _ _ => ?_))
    | (intro x; clear_value x)
    | with_reducible refine hP.link (hA.mono (by decide)) _ _ _ ?_
    | with_reducible refine State.addSat_unit hP (hA.mono (by decide)) (by first | omega | (simp only [tbPage, jrnlPage, svcPage, swarmPage, eslPage, dmaPage, synPage, domPage, linkPage, dmacPage, chPage, regPage, blkPage, bankPage]; omega)) ?_
    | with_reducible refine State.transmit_keeps hP (hA.mono (by decide)) ?_
    | with_reducible refine keeps_foldl _ (fun _ _ _ => ?_) ?_
    | fail_if_no_progress beta_reduce
    | with_reducible refine keeps_ite ?_ ?_
    | split
    | with_reducible refine keeps_pair (by assumption) ?_
    | with_reducible refine keeps_pair₂ (by assumption) ?_

theorem State.badFrame_keeps (hP : Keeps A P) (hA : Sub 0x1 A) {s : State} {p : Nat} {hd : Head} {timing : Bool} (hs : P s) : P (State.badFrame s p hd timing) := by
  unfold State.badFrame
  repeat' first
    | with_reducible assumption
    | lift_lets -underBinder
    | (intro x; revert x; refine keeps_let P ?_ (fun _ _ => ?_))
    | (intro x; clear_value x)
    | with_reducible refine State.addSat_unit hP (hA.mono (by decide)) (by first | omega | (simp only [tbPage, jrnlPage, svcPage, swarmPage, eslPage, dmaPage, synPage, domPage, linkPage, dmacPage, chPage, regPage, blkPage, bankPage]; omega)) ?_
    | with_reducible refine keeps_ite ?_ ?_
    | split

theorem State.oweAck_keeps (hP : Keeps A P) (hA : Sub 0x8000000 A) {s : State} {p : Nat} (hs : P s) : P (State.oweAck s p) := by
  unfold State.oweAck
  repeat' first
    | with_reducible assumption
    | with_reducible refine State.modLink_keeps hP (hA.mono (by decide)) ?_

theorem State.receive_keeps (hP : Keeps A P) (hA : Sub 0x2008000088003eb A) {s : State} {p : Nat} {hd : Head} {reliable timing ackOnly : Bool} {k : State → State} (hs : P s) (hk : ∀ (x0 : State), P x0 → P (k x0)) : P (State.receive s p hd reliable timing ackOnly k) := by
  unfold State.receive
  repeat' first
    | with_reducible assumption
    | lift_lets -underBinder
    | (intro x; revert x; refine keeps_let P ?_ (fun _ _ => ?_))
    | (intro x; clear_value x)
    | with_reducible refine State.badFrame_keeps hP (hA.mono (by decide)) ?_
    | with_reducible refine State.takeAck_keeps hP (hA.mono (by decide)) ?_
    | with_reducible refine State.oweAck_keeps hP (hA.mono (by decide)) ?_
    | with_reducible refine State.modLink_keeps hP (hA.mono (by decide)) ?_
    | with_reducible refine State.addSat_unit hP (hA.mono (by decide)) (by first | omega | (simp only [tbPage, jrnlPage, svcPage, swarmPage, eslPage, dmaPage, synPage, domPage, linkPage, dmacPage, chPage, regPage, blkPage, bankPage]; omega)) ?_
    | with_reducible refine hk _ ?_
    | fail_if_no_progress beta_reduce
    | with_reducible refine keeps_ite ?_ ?_
    | split

theorem State.ackSend_keeps (hP : Keeps A P) (hA : Sub 0x2000000088003eb A) {s : State} {p : Nat} (hs : P s) : P (State.ackSend s p) := by
  unfold State.ackSend
  repeat' first
    | with_reducible assumption
    | with_reducible refine State.sendTiming_keeps hP (hA.mono (by decide)) ?_
    | with_reducible refine keeps_ite ?_ ?_
    | split
    | with_reducible refine keeps_pair (by assumption) ?_
    | with_reducible refine keeps_pair₂ (by assumption) ?_

theorem State.flood_keeps (hP : Keeps A P) (hA : Sub 0x2008000088003eb A) {s : State} {but : Option Nat} {origin : BitVec 11} {hops : BitVec 5} {x : Payload} (hs : P s) : P (State.flood s but origin hops x) := by
  unfold State.flood
  repeat' first
    | with_reducible assumption
    | with_reducible refine State.forEach_keeps hP (hA.mono (by decide)) ?_ (fun _ _ _ => ?_)
    | with_reducible refine State.sendReliable_keeps hP (hA.mono (by decide)) ?_

theorem State.eventRecord_keeps (hP : Keeps A P) (hA : Sub 0x2000000008003e9 A) {s : State} {other : Bool} {origin : BitVec 11} {e : SwarmEvent} (hs : P s) : P (State.eventRecord s other origin e) := by
  unfold State.eventRecord
  repeat' first
    | with_reducible assumption
    | with_reducible refine State.journalGroup_keeps hP (hA.mono (by decide)) (by simp) ?_

theorem State.raiseEvent_keeps (hP : Keeps A P) (hA : Sub 0x2008000088003eb A) {s : State} {code : Nat} {detail : Nat} (hs : P s) : P (State.raiseEvent s code detail) := by
  unfold State.raiseEvent
  repeat' first
    | with_reducible assumption
    | lift_lets -underBinder
    | (intro x; revert x; refine keeps_let P ?_ (fun _ _ => ?_))
    | (intro x; clear_value x)
    | with_reducible refine State.modSwarm_keeps hP (hA.mono (by decide)) ?_
    | with_reducible refine State.post_unit hP (hA.mono (by decide)) (by first | omega | (simp only [tbPage, jrnlPage, svcPage, swarmPage, eslPage, dmaPage, synPage, domPage, linkPage, dmacPage, chPage, regPage, blkPage, bankPage]; omega)) ?_
    | with_reducible refine State.flood_keeps hP (hA.mono (by decide)) ?_
    | with_reducible refine State.eventRecord_keeps hP (hA.mono (by decide)) ?_
    | fail_if_no_progress beta_reduce
    | with_reducible refine keeps_ite ?_ ?_
    | split

theorem State.raiseTrigger_keeps (hP : Keeps A P) (hA : Sub 0x2008000088003eb A) {s : State} {code : Nat} {t : DTime} {holdover coarse : Bool} (hs : P s) : P (State.raiseTrigger s code t holdover coarse) := by
  unfold State.raiseTrigger
  repeat' first
    | with_reducible assumption
    | lift_lets -underBinder
    | (intro x; revert x; refine keeps_let P ?_ (fun _ _ => ?_))
    | (intro x; clear_value x)
    | with_reducible refine State.modSwarm_keeps hP (hA.mono (by decide)) ?_
    | with_reducible refine State.flood_keeps hP (hA.mono (by decide)) ?_
    | fail_if_no_progress beta_reduce
    | with_reducible refine keeps_ite ?_ ?_
    | split

theorem State.cutThrough_keeps (hP : Keeps A P) (hA : Sub 0x8000008 A) {s : State} {p : Nat} {hd : Head} {g : SwarmTrigger} (hs : P s) : P (State.cutThrough s p hd g) := by
  unfold State.cutThrough
  repeat' first
    | with_reducible assumption
    | lift_lets -underBinder
    | (intro x; revert x; refine keeps_let P ?_ (fun _ _ => ?_))
    | (intro x; clear_value x)
    | with_reducible refine State.forEach_keeps hP (hA.mono (by decide)) ?_ (fun _ _ _ => ?_)
    | with_reducible refine hP.send (hA.mono (by decide)) _ _ ?_
    | with_reducible refine State.sendBlocks_keeps hP (hA.mono (by decide)) ?_
    | fail_if_no_progress beta_reduce
    | with_reducible refine keeps_ite ?_ ?_
    | split

theorem State.triggerRx_keeps (hP : Keeps A P) (hA : Sub 0x12008000098003eb A) {s : State} {p : Nat} {hd : Head} {g : SwarmTrigger} (hs : P s) : P (State.triggerRx s p hd g) := by
  unfold State.triggerRx
  repeat' first
    | with_reducible assumption
    | lift_lets -underBinder
    | (intro x; revert x; refine keeps_let P ?_ (fun _ _ => ?_))
    | (intro x; clear_value x)
    | with_reducible refine State.receive_keeps hP (hA.mono (by decide)) ?_ (fun _ _ => ?_)
    | with_reducible refine State.cutThrough_keeps hP (hA.mono (by decide)) ?_
    | with_reducible refine State.modSwarm_keeps hP (hA.mono (by decide)) ?_
    | with_reducible refine State.swarmArrive_keeps hP (hA.mono (by decide)) ?_
    | with_reducible refine State.flood_keeps hP (hA.mono (by decide)) ?_
    | fail_if_no_progress beta_reduce
    | with_reducible refine keeps_ite ?_ ?_
    | split

theorem State.settleChans_keeps (hP : Keeps A P) (hA : Sub 0xa000200008047ed A) {s : State} (hs : P s) : P (State.settleChans s) := by
  unfold State.settleChans
  repeat' first
    | with_reducible assumption
    | with_reducible refine State.forEach_keeps hP (hA.mono (by decide)) ?_ (fun _ _ _ => ?_)
    | with_reducible refine State.applyIdle_keeps hP (hA.mono (by decide)) ?_
    | with_reducible refine keeps_ite ?_ ?_
    | split

theorem State.setRunState_keeps (hP : Keeps A P) (hA : Sub 0xa000200008047ef A) {s : State} {new : RunState} {internal : Bool} {a : Agent} (hs : P s) : P (State.setRunState s new internal a) := by
  unfold State.setRunState
  repeat' first
    | with_reducible assumption
    | lift_lets -underBinder
    | (intro x; revert x; refine keeps_let P ?_ (fun _ _ => ?_))
    | (intro x; clear_value x)
    | with_reducible refine State.setFld_keeps hP (hA.mono (by decide)) ?_
    | with_reducible refine State.entry_keeps hP (hA.mono (by decide)) ?_
    | with_reducible refine State.post_keeps hP (hA.mono (by decide)) ?_
    | with_reducible refine State.setPair_keeps hP (hA.mono (by decide)) ?_
    | with_reducible refine State.forEach_keeps hP (hA.mono (by decide)) ?_ (fun _ _ _ => ?_)
    | with_reducible refine State.holdCounts_keeps hP (hA.mono (by decide)) ?_
    | with_reducible refine State.settleChans_keeps hP (hA.mono (by decide)) ?_
    | fail_if_no_progress beta_reduce
    | with_reducible refine keeps_ite ?_ ?_
    | split

theorem State.stopRecording_keeps (hP : Keeps A P) (hA : Sub 0x1000000000 A) {s : State} {n : Nat} (hs : P s) : P (State.stopRecording s n) := by
  unfold State.stopRecording
  repeat' first
    | with_reducible assumption
    | (rw [State.mk_recordingRegions]; apply hP.recordingRegions (hA.mono (by decide)))

theorem State.halt_keeps (hP : Keeps A P) (hA : Sub 0x2000000008807e9 A) {s : State} {n : Nat} (hs : P s) : P (State.halt s n) := by
  unfold State.halt
  repeat' first
    | with_reducible assumption
    | with_reducible refine State.haltRegion_keeps hP (hA.mono (by decide)) ?_
    | with_reducible refine keeps_ite ?_ ?_
    | split

theorem State.chipStop_keeps (hP : Keeps A P) (hA : Sub 0xa000208008847ef A) {s : State} {cause detail : Nat} {stop : Bool} (hs : P s) : P (State.chipStop s cause detail stop) := by
  unfold State.chipStop
  repeat' first
    | with_reducible assumption
    | lift_lets -underBinder
    | (intro x; revert x; refine keeps_let P ?_ (fun _ _ => ?_))
    | (intro x; clear_value x)
    | with_reducible refine State.forEach_keeps hP (hA.mono (by decide)) ?_ (fun _ _ _ => ?_)
    | with_reducible refine State.halt_keeps hP (hA.mono (by decide)) ?_
    | with_reducible refine State.setRunState_keeps hP (hA.mono (by decide)) ?_
    | fail_if_no_progress beta_reduce
    | with_reducible refine keeps_ite ?_ ?_
    | split
    | (rw [State.mk_run]; apply hP.run (hA.mono (by decide)))

theorem State.chipFault_keeps (hP : Keeps A P) (hA : Sub 0xa000208008847ef A) {s : State} {cause unit detail : Nat} {stop : Bool} (hs : P s) : P (State.chipFault s cause unit detail stop) := by
  unfold State.chipFault
  repeat' first
    | with_reducible assumption
    | with_reducible refine State.chipStop_keeps hP (hA.mono (by decide)) ?_
    | with_reducible refine State.error_keeps hP (hA.mono (by decide)) ?_

theorem State.chipRecord_keeps (hP : Keeps A P) (hA : Sub 0x2000010048103e9 A) {s : State} {x : Nat × Nat × Nat × DTime} (hs : P s) : P (State.chipRecord s x) := by
  unfold State.chipRecord
  repeat' first
    | with_reducible assumption
    | lift_lets -underBinder
    | (intro x; revert x; refine keeps_let P ?_ (fun _ _ => ?_))
    | (intro x; clear_value x)
    | with_reducible refine State.stopRecording_keeps hP (hA.mono (by decide)) ?_
    | with_reducible refine State.unitGroup_keeps hP (hA.mono (by decide)) ?_
    | with_reducible refine State.summaryRunsEnd_keeps hP (hA.mono (by decide)) ?_
    | with_reducible refine State.flushOpen_keeps hP (hA.mono (by decide)) ?_
    | (rw [State.mk_recordingRegions]; apply hP.recordingRegions (hA.mono (by decide)))

theorem State.chipRecords_keeps (hP : Keeps A P) (hA : Sub 0x2000018048103e9 A) {s : State} (hs : P s) : P (State.chipRecords s) := by
  unfold State.chipRecords
  repeat' first
    | with_reducible assumption
    | with_reducible refine State.chipRecord_keeps hP (hA.mono (by decide)) ?_
    | with_reducible refine keeps_foldl _ (fun _ _ _ => ?_) ?_
    | (rw [State.mk_run]; apply hP.run (hA.mono (by decide)))

theorem State.showBudget_keeps (hP : Keeps A P) (hA : Sub 0x1 A) {s : State} {n : Nat} (hs : P s) : P (State.showBudget s n) := by
  unfold State.showBudget
  repeat' first
    | with_reducible assumption
    | with_reducible refine State.setBit_unit hP (hA.mono (by decide)) (by first | omega | (simp only [tbPage, jrnlPage, svcPage, swarmPage, eslPage, dmaPage, synPage, domPage, linkPage, dmacPage, chPage, regPage, blkPage, bankPage]; omega)) ?_
    | with_reducible refine State.setFld_unit hP (hA.mono (by decide)) (by first | omega | (simp only [tbPage, jrnlPage, svcPage, swarmPage, eslPage, dmaPage, synPage, domPage, linkPage, dmacPage, chPage, regPage, blkPage, bankPage]; omega)) ?_

theorem State.refuseArm_keeps (hP : Keeps A P) (hA : Sub 0x20000000000002b A) {s : State} {cause : Nat} (hs : P s) : P (State.refuseArm s cause) := by
  unfold State.refuseArm
  repeat' first
    | with_reducible assumption
    | lift_lets -underBinder
    | (intro x; revert x; refine keeps_let P ?_ (fun _ _ => ?_))
    | (intro x; clear_value x)
    | with_reducible refine State.forEach_keeps hP (hA.mono (by decide)) ?_ (fun _ _ _ => ?_)
    | with_reducible refine State.raise_keeps hP (hA.mono (by decide)) ?_
    | with_reducible refine State.showBudget_keeps hP (hA.mono (by decide)) ?_
    | fail_if_no_progress beta_reduce
    | with_reducible refine keeps_ite ?_ ?_
    | split

theorem State.primeCells_keeps (hP : Keeps A P) (hA : Sub 0x20000 A) {s : State} (hs : P s) : P (State.primeCells s) := by
  unfold State.primeCells
  repeat' first
    | with_reducible assumption
    | lift_lets -underBinder
    | (intro x; revert x; refine keeps_let P ?_ (fun _ _ => ?_))
    | (intro x; clear_value x)
    | with_reducible refine hP.cell (hA.mono (by decide)) _ _ _ ?_
    | with_reducible refine keeps_foldl _ (fun _ _ _ => ?_) ?_
    | with_reducible refine hP.cellsUpd (hA.mono (by decide)) _ _ ?_
    | fail_if_no_progress beta_reduce

theorem State.primeFifos_keeps (hP : Keeps A P) (hA : Sub 0x2000000008103e9 A) {s : State} (hs : P s) : P (State.primeFifos s) := by
  unfold State.primeFifos
  repeat' first
    | with_reducible assumption
    | lift_lets -underBinder
    | (intro x; revert x; refine keeps_let P ?_ (fun _ _ => ?_))
    | (intro x; clear_value x)
    | with_reducible refine State.forEach_keeps hP (hA.mono (by decide)) ?_ (fun _ _ _ => ?_)
    | with_reducible refine State.setFifo_keeps hP (hA.mono (by decide)) ?_
    | with_reducible refine State.offerExt_keeps hP (hA.mono (by decide)) ?_
    | with_reducible refine hP.fifo (hA.mono (by decide)) _ _ _ ?_
    | with_reducible refine hP.fifosNone (hA.mono (by decide)) _ ?_
    | fail_if_no_progress beta_reduce

theorem State.freshStreams_keeps (hP : Keeps A P) (hA : Sub 0x40 A) {s : State} (hs : P s) : P (State.freshStreams s) := by
  unfold State.freshStreams
  repeat' first
    | with_reducible assumption
    | with_reducible refine hP.streamsUpd (hA.mono (by decide)) _ _ ?_
    | with_reducible refine hP.streamsNone (hA.mono (by decide)) _ ?_
    | with_reducible refine hP.streamsKeep (hA.mono (by decide)) _ _ ?_

theorem State.freshExchange_keeps (hP : Keeps A P) (hA : Sub 0x100000 A) {s : State} (hs : P s) : P (State.freshExchange s) := by
  unfold State.freshExchange
  repeat' first
    | with_reducible assumption
    | with_reducible refine hP.exchNone (hA.mono (by decide)) _ ?_

theorem State.freshRemotes_keeps (hP : Keeps A P) (hA : Sub 0x10000000 A) {s : State} (hs : P s) : P (State.freshRemotes s) := by
  unfold State.freshRemotes
  repeat' first
    | with_reducible assumption
    | with_reducible refine hP.remotesKeep (hA.mono (by decide)) _ _ ?_

theorem State.freshSent_keeps (hP : Keeps A P) (hA : Sub 0x4000000000 A) {s : State} (hs : P s) : P (State.freshSent s) := by
  unfold State.freshSent
  repeat' first
    | with_reducible assumption
    | (rw [State.mk_sent]; apply hP.sent (hA.mono (by decide)))

theorem State.freshStores_keeps (hP : Keeps A P) (hA : Sub 0x2000000000 A) {s : State} (hs : P s) : P (State.freshStores s) := by
  unfold State.freshStores
  repeat' first
    | with_reducible assumption
    | (rw [State.mk_stores]; apply hP.stores (hA.mono (by decide)))

theorem State.freshTrigs_keeps (hP : Keeps A P) (hA : Sub 0x200000000000 A) {s : State} (hs : P s) : P (State.freshTrigs s) := by
  unfold State.freshTrigs
  repeat' first
    | with_reducible assumption
    | (rw [State.mk_trigs]; apply hP.trigs (hA.mono (by decide)))

theorem State.freshSummaries_keeps (hP : Keeps A P) (hA : Sub 0x800000000000000 A) {s : State} (hs : P s) : P (State.freshSummaries s) := by
  unfold State.freshSummaries
  repeat' first
    | with_reducible assumption
    | (rw [State.mk_summaries]; apply hP.summaries (hA.mono (by decide)))

theorem State.freshOffers_keeps (hP : Keeps A P) (hA : Sub 0x1000000000000000 A) {s : State} (hs : P s) : P (State.freshOffers s) := by
  unfold State.freshOffers
  repeat' first
    | with_reducible assumption
    | (rw [State.mk_offers]; apply hP.offers (hA.mono (by decide)))

theorem State.allRecord_keeps (hP : Keeps A P) (hA : Sub 0x1000000000 A) {s : State} (hs : P s) : P (State.allRecord s) := by
  unfold State.allRecord
  repeat' first
    | with_reducible assumption
    | (rw [State.mk_recordingRegions]; apply hP.recordingRegions (hA.mono (by decide)))

theorem State.freshRun_keeps (hP : Keeps A P) (hA : Sub 0x800000000 A) {s : State} (hs : P s) : P (State.freshRun s) := by
  unfold State.freshRun
  repeat' first
    | with_reducible assumption
    | (rw [State.mk_run]; apply hP.run (hA.mono (by decide)))

theorem State.armUnits_keeps (hP : Keeps A P) (hA : Sub 0x1a002078149303e9 A) {s : State} (hs : P s) : P (State.armUnits s) := by
  unfold State.armUnits
  repeat' first
    | with_reducible assumption
    | lift_lets -underBinder
    | (intro x; revert x; refine keeps_let P ?_ (fun _ _ => ?_))
    | (intro x; first | (have _h : Nat := x; clear _h; subst x) | clear_value x)
    | with_reducible refine State.forEach_keeps hP (hA.mono (by decide)) ?_ (fun _ _ _ => ?_)
    | with_reducible refine State.showBudget_keeps hP (hA.mono (by decide)) ?_
    | with_reducible refine State.armWriters_keeps hP (hA.mono (by decide)) ?_
    | with_reducible refine State.freshRun_keeps hP (hA.mono (by decide)) ?_
    | with_reducible refine State.allRecord_keeps hP (hA.mono (by decide)) ?_
    | with_reducible refine State.freshOffers_keeps hP (hA.mono (by decide)) ?_
    | with_reducible refine State.freshSummaries_keeps hP (hA.mono (by decide)) ?_
    | with_reducible refine State.freshTrigs_keeps hP (hA.mono (by decide)) ?_
    | with_reducible refine State.freshStores_keeps hP (hA.mono (by decide)) ?_
    | with_reducible refine State.freshSent_keeps hP (hA.mono (by decide)) ?_
    | with_reducible refine State.freshRemotes_keeps hP (hA.mono (by decide)) ?_
    | with_reducible refine State.freshExchange_keeps hP (hA.mono (by decide)) ?_
    | with_reducible refine State.freshStreams_keeps hP (hA.mono (by decide)) ?_
    | with_reducible refine State.setFld_unit hP (hA.mono (by decide)) (by first | omega | (simp only [tbPage, jrnlPage, svcPage, swarmPage, eslPage, dmaPage, synPage, domPage, linkPage, dmacPage, chPage, regPage, blkPage, bankPage]; omega)) ?_
    | with_reducible refine hP.wr (hA.mono (by decide)) _ _ _ (by first | omega | (simp only [tbPage, jrnlPage, svcPage, swarmPage, eslPage, dmaPage, synPage, domPage, linkPage, dmacPage, chPage, regPage, blkPage, bankPage]; omega)) ?_
    | with_reducible refine State.primeFifos_keeps hP (hA.mono (by decide)) ?_
    | with_reducible refine State.primeCells_keeps hP (hA.mono (by decide)) ?_
    | fail_if_no_progress beta_reduce

theorem State.clearRegion_keeps (hP : Keeps A P) (hA : Sub 0x800001 A) {s : State} {n : Nat} (hs : P s) : P (State.clearRegion s n) := by
  unfold State.clearRegion
  repeat' first
    | with_reducible assumption
    | lift_lets -underBinder
    | (intro x; revert x; refine keeps_let P ?_ (fun _ _ => ?_))
    | (intro x; first | (have _h : Nat := x; clear _h; subst x) | clear_value x)
    | with_reducible refine State.setFld_unit hP (hA.mono (by decide)) (by first | omega | (simp only [tbPage, jrnlPage, svcPage, swarmPage, eslPage, dmaPage, synPage, domPage, linkPage, dmacPage, chPage, regPage, blkPage, bankPage]; omega)) ?_
    | with_reducible refine State.setPair_unit hP (hA.mono (by decide)) (by first | omega | (simp only [tbPage, jrnlPage, svcPage, swarmPage, eslPage, dmaPage, synPage, domPage, linkPage, dmacPage, chPage, regPage, blkPage, bankPage]; omega)) ?_
    | with_reducible refine State.startCapture_keeps hP (hA.mono (by decide)) ?_
    | with_reducible refine State.forEach_keeps hP (hA.mono (by decide)) ?_ (fun _ _ _ => ?_)
    | fail_if_no_progress beta_reduce

theorem State.startUnits_keeps (hP : Keeps A P) (hA : Sub 0x42080380c001 A) {s : State} {at_ : Option DTime} (hs : P s) : P (State.startUnits s at_) := by
  unfold State.startUnits
  repeat' first
    | with_reducible assumption
    | lift_lets -underBinder
    | (intro x; revert x; refine keeps_let P ?_ (fun _ _ => ?_))
    | (intro x; first | (have _h : Nat := x; clear _h; subst x) | clear_value x)
    | with_reducible refine State.forEach_keeps hP (hA.mono (by decide)) ?_ (fun _ _ _ => ?_)
    | with_reducible refine State.startCounts_keeps hP (hA.mono (by decide)) ?_
    | with_reducible refine State.clearQual_keeps hP (hA.mono (by decide)) ?_
    | with_reducible refine State.startAcc_keeps hP (hA.mono (by decide)) ?_
    | with_reducible refine State.setFld_unit hP (hA.mono (by decide)) (by first | omega | (simp only [tbPage, jrnlPage, svcPage, swarmPage, eslPage, dmaPage, synPage, domPage, linkPage, dmacPage, chPage, regPage, blkPage, bankPage]; omega)) ?_
    | with_reducible refine State.setPair_unit hP (hA.mono (by decide)) (by first | omega | (simp only [tbPage, jrnlPage, svcPage, swarmPage, eslPage, dmaPage, synPage, domPage, linkPage, dmacPage, chPage, regPage, blkPage, bankPage]; omega)) ?_
    | with_reducible refine State.restartTimer_keeps hP (hA.mono (by decide)) ?_
    | with_reducible refine State.setStuck_keeps hP (hA.mono (by decide)) ?_
    | with_reducible refine State.startInsts_keeps hP (hA.mono (by decide)) ?_
    | with_reducible refine State.startEsl_keeps hP (hA.mono (by decide)) ?_
    | with_reducible refine State.clearRegion_keeps hP (hA.mono (by decide)) ?_
    | with_reducible refine State.beginWindows_keeps hP (hA.mono (by decide)) ?_
    | fail_if_no_progress beta_reduce
    | (rw [State.mk_run]; apply hP.run (hA.mono (by decide)))

theorem State.slot0_keeps (hP : Keeps A P) (hA : Sub 0xa000208008847ed A) {s : State} (hs : P s) : P (State.slot0 s) := by
  unfold State.slot0
  repeat' first
    | with_reducible assumption
    | lift_lets -underBinder
    | (intro x; revert x; refine keeps_let P ?_ (fun _ _ => ?_))
    | (intro x; clear_value x)
    | with_reducible refine State.forEach_keeps hP (hA.mono (by decide)) ?_ (fun _ _ _ => ?_)
    | with_reducible refine State.setFld_unit hP (hA.mono (by decide)) (by first | omega | (simp only [tbPage, jrnlPage, svcPage, swarmPage, eslPage, dmaPage, synPage, domPage, linkPage, dmacPage, chPage, regPage, blkPage, bankPage]; omega)) ?_
    | with_reducible refine hP.region (hA.mono (by decide)) _ _ _ ?_
    | with_reducible refine State.beginAcc_keeps hP (hA.mono (by decide)) ?_
    | with_reducible refine State.unitEvent_keeps hP (hA.mono (by decide)) ?_
    | fail_if_no_progress beta_reduce
    | with_reducible refine keeps_ite ?_ ?_
    | split
    | (rw [State.mk_run]; apply hP.run (hA.mono (by decide)))

theorem State.majorCycleEnd_keeps (hP : Keeps A P) (hA : Sub 0x2000200078987ed A) {s : State} {n : Nat} (hs : P s) : P (State.majorCycleEnd s n) := by
  unfold State.majorCycleEnd
  repeat' first
    | with_reducible assumption
    | lift_lets -underBinder
    | (intro x; revert x; refine keeps_let P ?_ (fun _ _ => ?_))
    | (intro x; clear_value x)
    | with_reducible refine hP.region (hA.mono (by decide)) _ _ _ ?_
    | with_reducible refine State.applyRegion_keeps hP (hA.mono (by decide)) ?_
    | with_reducible refine State.publish_keeps hP (hA.mono (by decide)) ?_
    | with_reducible refine State.settleWaiting_keeps hP (hA.mono (by decide)) ?_
    | with_reducible refine State.setPair_unit hP (hA.mono (by decide)) (by first | omega | (simp only [tbPage, jrnlPage, svcPage, swarmPage, eslPage, dmaPage, synPage, domPage, linkPage, dmacPage, chPage, regPage, blkPage, bankPage]; omega)) ?_
    | with_reducible refine State.flushOpen_keeps hP (hA.mono (by decide)) ?_
    | with_reducible refine State.closeRun_keeps hP (hA.mono (by decide)) ?_
    | with_reducible refine State.dropDone_keeps hP (hA.mono (by decide)) ?_
    | with_reducible refine State.summaryRunsEnd_keeps hP (hA.mono (by decide)) ?_
    | with_reducible refine keeps_ite ?_ ?_
    | split

theorem State.dropFrozen_keeps (hP : Keeps A P) (hA : Sub 0x800181 A) {s : State} {i : Nat} (hs : P s) : P (State.dropFrozen s i) := by
  unfold State.dropFrozen
  repeat' first
    | with_reducible assumption
    | lift_lets -underBinder
    | (intro x; revert x; refine keeps_let P ?_ (fun _ _ => ?_))
    | (intro x; clear_value x)
    | with_reducible refine State.loseQueue_keeps hP (hA.mono (by decide)) ?_
    | with_reducible refine keeps_ite ?_ ?_
    | split

theorem State.settleStop_keeps (hP : Keeps A P) (hA : Sub 0xa000210008047ef A) {s : State} (hs : P s) : P (State.settleStop s) := by
  unfold State.settleStop
  repeat' first
    | with_reducible assumption
    | lift_lets -underBinder
    | (intro x; revert x; refine keeps_let P ?_ (fun _ _ => ?_))
    | (intro x; clear_value x)
    | with_reducible refine State.setRunState_keeps hP (hA.mono (by decide)) ?_
    | fail_if_no_progress beta_reduce
    | with_reducible refine keeps_ite ?_ ?_
    | split
    | (rw [State.mk_recordingRegions]; apply hP.recordingRegions (hA.mono (by decide)))

theorem State.regionHalt_keeps (hP : Keeps A P) (hA : Sub 0xa000210048847ef A) {s : State} {n : Nat} (hs : P s) : P (State.regionHalt s n) := by
  unfold State.regionHalt
  repeat' first
    | with_reducible assumption
    | lift_lets -underBinder
    | (intro x; revert x; refine keeps_let P ?_ (fun _ _ => ?_))
    | (intro x; clear_value x)
    | with_reducible refine State.forEach_keeps hP (hA.mono (by decide)) ?_ (fun _ _ _ => ?_)
    | with_reducible refine State.closeGap_keeps hP (hA.mono (by decide)) ?_
    | with_reducible refine State.dropDone_keeps hP (hA.mono (by decide)) ?_
    | with_reducible refine State.dropFrozen_keeps hP (hA.mono (by decide)) ?_
    | with_reducible refine State.flushOpen_keeps hP (hA.mono (by decide)) ?_
    | with_reducible refine State.settleStop_keeps hP (hA.mono (by decide)) ?_
    | with_reducible refine State.closeRun_keeps hP (hA.mono (by decide)) ?_
    | with_reducible refine State.post_unit hP (hA.mono (by decide)) (by first | omega | (simp only [tbPage, jrnlPage, svcPage, swarmPage, eslPage, dmaPage, synPage, domPage, linkPage, dmacPage, chPage, regPage, blkPage, bankPage]; omega)) ?_
    | with_reducible refine State.stopRecording_keeps hP (hA.mono (by decide)) ?_
    | with_reducible refine State.haltRegion_keeps hP (hA.mono (by decide)) ?_
    | fail_if_no_progress beta_reduce
    | with_reducible refine keeps_ite ?_ ?_
    | split
    | with_reducible refine keeps_pair (by assumption) ?_
    | with_reducible refine keeps_pair₂ (by assumption) ?_

theorem State.stopUnits_keeps (hP : Keeps A P) (hA : Sub 0x2000008008841c5 A) {s : State} (hs : P s) : P (State.stopUnits s) := by
  unfold State.stopUnits
  repeat' first
    | with_reducible assumption
    | lift_lets -underBinder
    | (intro x; revert x; refine keeps_let P ?_ (fun _ _ => ?_))
    | (intro x; clear_value x)
    | with_reducible refine State.forEach_keeps hP (hA.mono (by decide)) ?_ (fun _ _ _ => ?_)
    | with_reducible refine State.closeGap_keeps hP (hA.mono (by decide)) ?_
    | with_reducible refine State.stopAcc_keeps hP (hA.mono (by decide)) ?_
    | with_reducible refine State.stopCapture_keeps hP (hA.mono (by decide)) ?_
    | with_reducible refine hP.region (hA.mono (by decide)) _ _ _ ?_
    | with_reducible refine State.closeRun_keeps hP (hA.mono (by decide)) ?_
    | fail_if_no_progress beta_reduce
    | with_reducible refine keeps_ite ?_ ?_
    | split
    | (rw [State.mk_run]; apply hP.run (hA.mono (by decide)))

theorem State.abortUnits_keeps (hP : Keeps A P) (hA : Sub 0x2000218048947e9 A) {s : State} (hs : P s) : P (State.abortUnits s) := by
  unfold State.abortUnits
  repeat' first
    | with_reducible assumption
    | lift_lets -underBinder
    | (intro x; revert x; refine keeps_let P ?_ (fun _ _ => ?_))
    | (intro x; clear_value x)
    | with_reducible refine State.forEach_keeps hP (hA.mono (by decide)) ?_ (fun _ _ _ => ?_)
    | with_reducible refine State.closeGap_keeps hP (hA.mono (by decide)) ?_
    | with_reducible refine State.dropAcc_keeps hP (hA.mono (by decide)) ?_
    | with_reducible refine State.dropInsts_keeps hP (hA.mono (by decide)) ?_
    | with_reducible refine State.stopRecording_keeps hP (hA.mono (by decide)) ?_
    | with_reducible refine State.abortWriters_keeps hP (hA.mono (by decide)) ?_
    | with_reducible refine State.halt_keeps hP (hA.mono (by decide)) ?_
    | with_reducible refine State.summaryRunsEnd_keeps hP (hA.mono (by decide)) ?_
    | fail_if_no_progress beta_reduce
    | with_reducible refine keeps_ite ?_ ?_
    | split
    | (rw [State.mk_run]; apply hP.run (hA.mono (by decide)))

theorem State.resetRegions_keeps (hP : Keeps A P) (hA : Sub 0x1 A) {s : State} (hs : P s) : P (State.resetRegions s) := by
  unfold State.resetRegions
  repeat' first
    | with_reducible assumption
    | lift_lets -underBinder
    | (intro x; revert x; refine keeps_let P ?_ (fun _ _ => ?_))
    | (intro x; first | (have _h : Nat := x; clear _h; subst x) | clear_value x)
    | with_reducible refine State.forEach_keeps hP (hA.mono (by decide)) ?_ (fun _ _ _ => ?_)
    | with_reducible refine hP.wr (hA.mono (by decide)) _ _ _ (by first | omega | (simp only [tbPage, jrnlPage, svcPage, swarmPage, eslPage, dmaPage, synPage, domPage, linkPage, dmacPage, chPage, regPage, blkPage, bankPage]; omega)) ?_
    | with_reducible refine State.setFld_unit hP (hA.mono (by decide)) (by first | omega | (simp only [tbPage, jrnlPage, svcPage, swarmPage, eslPage, dmaPage, synPage, domPage, linkPage, dmacPage, chPage, regPage, blkPage, bankPage]; omega)) ?_
    | fail_if_no_progress beta_reduce

theorem State.resetRun_keeps (hP : Keeps A P) (hA : Sub 0xa000218048947ef A) {s : State} {a : Agent} (hs : P s) : P (State.resetRun s a) := by
  unfold State.resetRun
  repeat' first
    | with_reducible assumption
    | lift_lets -underBinder
    | (intro x; revert x; refine keeps_let P ?_ (fun _ _ => ?_))
    | (intro x; clear_value x)
    | with_reducible refine State.abortUnits_keeps hP (hA.mono (by decide)) ?_
    | with_reducible refine State.forEach_keeps hP (hA.mono (by decide)) ?_ (fun _ _ _ => ?_)
    | with_reducible refine State.resetRegions_keeps hP (hA.mono (by decide)) ?_
    | with_reducible refine State.closeGapOf_keeps hP (hA.mono (by decide)) ?_
    | with_reducible refine State.modChan_keeps hP (hA.mono (by decide)) ?_
    | with_reducible refine State.setRunState_keeps hP (hA.mono (by decide)) ?_
    | fail_if_no_progress beta_reduce
    | with_reducible refine keeps_ite ?_ ?_
    | split
    | (rw [State.mk_run]; apply hP.run (hA.mono (by decide)))

theorem State.deliverTo_keeps (hP : Keeps A P) (hA : Sub 0x2000008008001c5 A) {s : State} {due : List Trig} {n : Nat} (hs : P s) : P (State.deliverTo s due n).2 := by
  unfold State.deliverTo
  repeat' first
    | with_reducible assumption
    | lift_lets -underBinder
    | (intro x; revert x; refine keeps_let P ?_ (fun _ _ => ?_))
    | (intro x; clear_value x)
    | with_reducible refine State.addSat_unit hP (hA.mono (by decide)) (by first | omega | (simp only [tbPage, jrnlPage, svcPage, swarmPage, eslPage, dmaPage, synPage, domPage, linkPage, dmacPage, chPage, regPage, blkPage, bankPage]; omega)) ?_
    | with_reducible refine State.offerTrigger_keeps hP (hA.mono (by decide)) ?_
    | fail_if_no_progress beta_reduce
    | split
    | with_reducible refine keeps_pair (by assumption) ?_
    | with_reducible refine keeps_pair₂ (by assumption) ?_

theorem State.deliverAll_keeps (hP : Keeps A P) (hA : Sub 0x2000008008001c5 A) {s : State} {due : List Trig} {l0 : List Nat} (hs : P s) : P (State.deliverAll s due l0).2 := by
  induction l0 generalizing s with
  | nil =>
    unfold State.deliverAll
    repeat' first
      | with_reducible assumption
      | with_reducible refine State.deliverTo_keeps hP (hA.mono (by decide)) ?_
      | split
      | with_reducible refine keeps_pair (by assumption) ?_
      | with_reducible refine keeps_pair₂ (by assumption) ?_
  | cons x r ih =>
    unfold State.deliverAll
    repeat' first
      | with_reducible assumption
      | with_reducible refine ih ?_
      | with_reducible refine State.deliverTo_keeps hP (hA.mono (by decide)) ?_
      | split
      | with_reducible refine keeps_pair (by assumption) ?_
      | with_reducible refine keeps_pair₂ (by assumption) ?_

theorem State.triggerRecord_keeps (hP : Keeps A P) (hA : Sub 0x8201c1 A) {s : State} {g : Trig} {flags : Nat} (hs : P s) : P (State.triggerRecord s g flags) := by
  unfold State.triggerRecord
  repeat' first
    | with_reducible assumption
    | lift_lets -underBinder
    | (intro x; revert x; refine keeps_let P ?_ (fun _ _ => ?_))
    | (intro x; clear_value x)
    | with_reducible refine State.putLate_keeps hP (hA.mono (by decide)) ?_
    | with_reducible refine State.lose_keeps hP (hA.mono (by decide)) ?_
    | with_reducible refine State.putRefused_keeps hP (hA.mono (by decide)) ?_
    | with_reducible refine State.extBefore_keeps hP (hA.mono (by decide)) ?_
    | with_reducible refine State.putSeq_keeps hP (hA.mono (by decide)) ?_
    | with_reducible refine State.queuePut_keeps hP (hA.mono (by decide)) ?_
    | with_reducible refine keeps_ite ?_ ?_
    | split
    | with_reducible refine keeps_pair (by assumption) ?_
    | with_reducible refine keeps_pair₂ (by assumption) ?_

theorem State.triggerAct_keeps (hP : Keeps A P) (hA : Sub 0x2009008098203ef A) {s : State} {taken : List (Trig × Bool)} {g : Trig} (hs : P s) : P (State.triggerAct s taken g) := by
  unfold State.triggerAct
  repeat' first
    | with_reducible assumption
    | lift_lets -underBinder
    | (intro x; revert x; refine keeps_let P ?_ (fun _ _ => ?_))
    | (intro x; clear_value x)
    | with_reducible refine State.setPair_unit hP (hA.mono (by decide)) (by first | omega | (simp only [tbPage, jrnlPage, svcPage, swarmPage, eslPage, dmaPage, synPage, domPage, linkPage, dmacPage, chPage, regPage, blkPage, bankPage]; omega)) ?_
    | with_reducible refine State.addSat_unit hP (hA.mono (by decide)) (by first | omega | (simp only [tbPage, jrnlPage, svcPage, swarmPage, eslPage, dmaPage, synPage, domPage, linkPage, dmacPage, chPage, regPage, blkPage, bankPage]; omega)) ?_
    | with_reducible refine State.pulse_keeps hP (hA.mono (by decide)) ?_
    | with_reducible refine State.swarmOffer_keeps hP (hA.mono (by decide)) ?_
    | with_reducible refine State.raiseTrigger_keeps hP (hA.mono (by decide)) ?_
    | with_reducible refine State.triggerRecord_keeps hP (hA.mono (by decide)) ?_
    | fail_if_no_progress beta_reduce
    | with_reducible refine keeps_ite ?_ ?_
    | split
    | with_reducible refine keeps_pair (by assumption) ?_
    | with_reducible refine keeps_pair₂ (by assumption) ?_

theorem State.triggerDeliver_keeps (hP : Keeps A P) (hA : Sub 0x200b008098203ef A) {s : State} (hs : P s) : P (State.triggerDeliver s) := by
  unfold State.triggerDeliver
  repeat' first
    | with_reducible assumption
    | lift_lets -underBinder
    | (intro x; revert x; refine keeps_let P ?_ (fun _ _ => ?_))
    | (intro x; clear_value x)
    | with_reducible refine State.deliverAll_keeps hP (hA.mono (by decide)) ?_
    | with_reducible refine State.triggerAct_keeps hP (hA.mono (by decide)) ?_
    | with_reducible refine keeps_foldl _ (fun _ _ _ => ?_) ?_
    | fail_if_no_progress beta_reduce
    | with_reducible refine keeps_ite ?_ ?_
    | split
    | (rw [State.mk_trigs]; apply hP.trigs (hA.mono (by decide)))
    | with_reducible refine keeps_pair (by assumption) ?_
    | with_reducible refine keeps_pair₂ (by assumption) ?_

end Sys2Proof.Machine
end

