-- ==== Sys2Proof/Laws/EffectsSwarm.lean ====
section
/-! SUPPORT. The effects of each operation of Machine/ (Domain.lean, Join.lean, Waggle.lean): the primitive changes it may make, as a mask. -/
namespace Sys2Proof.Machine
open Sys2Proof
set_option linter.unusedTactic false
set_option linter.unreachableTactic false
set_option linter.unusedVariables false
set_option linter.unusedSimpArgs false
variable {A : Nat} {P : State → Prop}

theorem State.modDom_keeps (hP : Keeps A P) (hA : Sub 0x20000000 A) {s : State} {d : Nat} {f : Dom → Dom} (hs : P s) : P (State.modDom s d f) := by
  unfold State.modDom
  repeat' first
    | with_reducible assumption
    | with_reducible refine hP.dom (hA.mono (by decide)) _ _ _ ?_

theorem State.domAdvance_keeps (hP : Keeps A P) (hA : Sub 0x20000000 A) {s : State} {δ : Int} (hs : P s) : P (State.domAdvance s δ) := by
  unfold State.domAdvance
  repeat' first
    | with_reducible assumption
    | with_reducible refine State.forEach_keeps hP (hA.mono (by decide)) ?_ (fun _ _ _ => ?_)
    | with_reducible refine State.modDom_keeps hP (hA.mono (by decide)) ?_
    | with_reducible refine keeps_ite ?_ ?_
    | split

theorem State.showDoms_keeps (hP : Keeps A P) (hA : Sub 0x1 A) {s : State} (hs : P s) : P (State.showDoms s) := by
  unfold State.showDoms
  repeat' first
    | with_reducible assumption
    | lift_lets -underBinder
    | (intro x; revert x; refine keeps_let P ?_ (fun _ _ => ?_))
    | (intro x; first | (have _h : Nat := x; clear _h; subst x) | clear_value x)
    | with_reducible refine State.forEach_keeps hP (hA.mono (by decide)) ?_ (fun _ _ _ => ?_)
    | with_reducible refine State.setBit_unit hP (hA.mono (by decide)) (by first | omega | (simp only [tbPage, jrnlPage, svcPage, swarmPage, eslPage, dmaPage, synPage, domPage, linkPage, dmacPage, chPage, regPage, blkPage, bankPage]; omega)) ?_
    | fail_if_no_progress beta_reduce
    | with_reducible refine keeps_ite ?_ ?_
    | split

theorem State.domLock_keeps (hP : Keeps A P) (hA : Sub 0x2000000008003e9 A) {s : State} {d : Nat} {b : Bool} (hs : P s) : P (State.domLock s d b) := by
  unfold State.domLock
  repeat' first
    | with_reducible assumption
    | lift_lets -underBinder
    | (intro x; revert x; refine keeps_let P ?_ (fun _ _ => ?_))
    | (intro x; first | (have _h : Nat := x; clear _h; subst x) | clear_value x)
    | with_reducible refine State.unitEvent_keeps hP (hA.mono (by decide)) ?_
    | with_reducible refine State.post_unit hP (hA.mono (by decide)) (by first | omega | (simp only [tbPage, jrnlPage, svcPage, swarmPage, eslPage, dmaPage, synPage, domPage, linkPage, dmacPage, chPage, regPage, blkPage, bankPage]; omega)) ?_
    | with_reducible refine State.setBit_unit hP (hA.mono (by decide)) (by first | omega | (simp only [tbPage, jrnlPage, svcPage, swarmPage, eslPage, dmaPage, synPage, domPage, linkPage, dmacPage, chPage, regPage, blkPage, bankPage]; omega)) ?_
    | with_reducible refine keeps_ite ?_ ?_
    | split

theorem State.domJournal_keeps (hP : Keeps A P) (hA : Sub 0x2000000008003e9 A) {s : State} {d old new : Nat} (hs : P s) : P (State.domJournal s d old new) := by
  unfold State.domJournal
  repeat' first
    | with_reducible assumption
    | with_reducible refine State.entry_keeps hP (hA.mono (by decide)) ?_

theorem State.setY_keeps (hP : Keeps A P) (hA : Sub 0x200000000000029 A) {s : State} {d : Nat} {v : Rat} (hs : P s) : P (State.setY s d v) := by
  unfold State.setY
  repeat' first
    | with_reducible assumption
    | lift_lets -underBinder
    | (intro x; revert x; refine keeps_let P ?_ (fun _ _ => ?_))
    | (intro x; clear_value x)
    | with_reducible refine hP.wr (hA.mono (by decide)) _ _ _ (by first | omega | (simp only [tbPage, jrnlPage, svcPage, swarmPage, eslPage, dmaPage, synPage, domPage, linkPage, dmacPage, chPage, regPage, blkPage, bankPage]; omega)) ?_
    | with_reducible refine State.raise_unit hP (hA.mono (by decide)) (by first | omega | (simp only [tbPage, jrnlPage, svcPage, swarmPage, eslPage, dmaPage, synPage, domPage, linkPage, dmacPage, chPage, regPage, blkPage, bankPage]; omega)) ?_
    | with_reducible refine keeps_ite ?_ ?_
    | split

theorem State.setInteg_keeps (hP : Keeps A P) (hA : Sub 0x200000020000029 A) {s : State} {d : Nat} {v : Rat} (hs : P s) : P (State.setInteg s d v) := by
  unfold State.setInteg
  repeat' first
    | with_reducible assumption
    | lift_lets -underBinder
    | (intro x; revert x; refine keeps_let P ?_ (fun _ _ => ?_))
    | (intro x; clear_value x)
    | with_reducible refine hP.wr (hA.mono (by decide)) _ _ _ (by first | omega | (simp only [tbPage, jrnlPage, svcPage, swarmPage, eslPage, dmaPage, synPage, domPage, linkPage, dmacPage, chPage, regPage, blkPage, bankPage]; omega)) ?_
    | with_reducible refine State.modDom_keeps hP (hA.mono (by decide)) ?_
    | with_reducible refine State.raise_unit hP (hA.mono (by decide)) (by first | omega | (simp only [tbPage, jrnlPage, svcPage, swarmPage, eslPage, dmaPage, synPage, domPage, linkPage, dmacPage, chPage, regPage, blkPage, bankPage]; omega)) ?_
    | fail_if_no_progress beta_reduce
    | with_reducible refine keeps_ite ?_ ?_
    | split

theorem State.domAfresh_keeps (hP : Keeps A P) (hA : Sub 0x2000000208003e9 A) {s : State} {d : Nat} (hs : P s) : P (State.domAfresh s d) := by
  unfold State.domAfresh
  repeat' first
    | with_reducible assumption
    | with_reducible refine State.domLock_keeps hP (hA.mono (by decide)) ?_
    | with_reducible refine State.modDom_keeps hP (hA.mono (by decide)) ?_

theorem State.domStepBy_keeps (hP : Keeps A P) (hA : Sub 0x2000000208003e9 A) {s : State} {d : Nat} {θ : Int} (hs : P s) : P (State.domStepBy s d θ) := by
  unfold State.domStepBy
  repeat' first
    | with_reducible assumption
    | lift_lets -underBinder
    | (intro x; revert x; refine keeps_let P ?_ (fun _ _ => ?_))
    | (intro x; clear_value x)
    | with_reducible refine State.modDom_keeps hP (hA.mono (by decide)) ?_
    | with_reducible refine State.post_unit hP (hA.mono (by decide)) (by first | omega | (simp only [tbPage, jrnlPage, svcPage, swarmPage, eslPage, dmaPage, synPage, domPage, linkPage, dmacPage, chPage, regPage, blkPage, bankPage]; omega)) ?_
    | with_reducible refine State.addSat_unit hP (hA.mono (by decide)) (by first | omega | (simp only [tbPage, jrnlPage, svcPage, swarmPage, eslPage, dmaPage, synPage, domPage, linkPage, dmacPage, chPage, regPage, blkPage, bankPage]; omega)) ?_
    | with_reducible refine State.domJournal_keeps hP (hA.mono (by decide)) ?_
    | with_reducible refine State.domAfresh_keeps hP (hA.mono (by decide)) ?_
    | fail_if_no_progress beta_reduce

theorem State.domUsed_keeps (hP : Keeps A P) (hA : Sub 0x200000020000029 A) {s : State} {d : Nat} {o : Offset} (hs : P s) : P (State.domUsed s d o) := by
  unfold State.domUsed
  repeat' first
    | with_reducible assumption
    | lift_lets -underBinder
    | (intro x; revert x; refine keeps_let P ?_ (fun _ _ => ?_))
    | (intro x; first | (have _h : Nat := x; clear _h; subst x) | clear_value x)
    | with_reducible refine hP.wr (hA.mono (by decide)) _ _ _ (by first | omega | (simp only [tbPage, jrnlPage, svcPage, swarmPage, eslPage, dmaPage, synPage, domPage, linkPage, dmacPage, chPage, regPage, blkPage, bankPage]; omega)) ?_
    | with_reducible refine State.post_unit hP (hA.mono (by decide)) (by first | omega | (simp only [tbPage, jrnlPage, svcPage, swarmPage, eslPage, dmaPage, synPage, domPage, linkPage, dmacPage, chPage, regPage, blkPage, bankPage]; omega)) ?_
    | with_reducible refine State.addSat_unit hP (hA.mono (by decide)) (by first | omega | (simp only [tbPage, jrnlPage, svcPage, swarmPage, eslPage, dmaPage, synPage, domPage, linkPage, dmacPage, chPage, regPage, blkPage, bankPage]; omega)) ?_
    | with_reducible refine State.setBit_unit hP (hA.mono (by decide)) (by first | omega | (simp only [tbPage, jrnlPage, svcPage, swarmPage, eslPage, dmaPage, synPage, domPage, linkPage, dmacPage, chPage, regPage, blkPage, bankPage]; omega)) ?_
    | with_reducible refine State.modDom_keeps hP (hA.mono (by decide)) ?_
    | fail_if_no_progress beta_reduce
    | with_reducible refine keeps_ite ?_ ?_
    | split

theorem State.domJudge_keeps (hP : Keeps A P) (hA : Sub 0x2000000208003e9 A) {s : State} {d : Nat} {θ : Int} (hs : P s) : P (State.domJudge s d θ) := by
  unfold State.domJudge
  repeat' first
    | with_reducible assumption
    | lift_lets -underBinder
    | (intro x; revert x; refine keeps_let P ?_ (fun _ _ => ?_))
    | (intro x; clear_value x)
    | with_reducible refine State.modDom_keeps hP (hA.mono (by decide)) ?_
    | with_reducible refine State.domLock_keeps hP (hA.mono (by decide)) ?_
    | fail_if_no_progress beta_reduce
    | with_reducible refine keeps_ite ?_ ?_
    | split

theorem State.servo_keeps (hP : Keeps A P) (hA : Sub 0x2000000208003e9 A) {s : State} {d : Nat} (hs : P s) : P (State.servo s d) := by
  unfold State.servo
  repeat' first
    | with_reducible assumption
    | lift_lets -underBinder
    | (intro x; revert x; refine keeps_let P ?_ (fun _ _ => ?_))
    | (intro x; first | (have _h : Nat := x; clear _h; subst x) | clear_value x)
    | with_reducible refine State.modDom_keeps hP (hA.mono (by decide)) ?_
    | with_reducible refine State.domUsed_keeps hP (hA.mono (by decide)) ?_
    | with_reducible refine State.domStepBy_keeps hP (hA.mono (by decide)) ?_
    | with_reducible refine State.domJudge_keeps hP (hA.mono (by decide)) ?_
    | with_reducible refine State.setInteg_keeps hP (hA.mono (by decide)) ?_
    | with_reducible refine State.setY_keeps hP (hA.mono (by decide)) ?_
    | fail_if_no_progress beta_reduce
    | with_reducible refine keeps_ite ?_ ?_
    | split
    | with_reducible refine keeps_pair (by assumption) ?_
    | with_reducible refine keeps_pair₂ (by assumption) ?_

theorem State.domStale_keeps (hP : Keeps A P) (hA : Sub 0x2000000008003e9 A) {s : State} {d : Nat} (hs : P s) : P (State.domStale s d) := by
  unfold State.domStale
  repeat' first
    | with_reducible assumption
    | lift_lets -underBinder
    | (intro x; revert x; refine keeps_let P ?_ (fun _ _ => ?_))
    | (intro x; first | (have _h : Nat := x; clear _h; subst x) | clear_value x)
    | with_reducible refine State.domLock_keeps hP (hA.mono (by decide)) ?_
    | with_reducible refine State.setY_keeps hP (hA.mono (by decide)) ?_
    | with_reducible refine State.setBit_unit hP (hA.mono (by decide)) (by first | omega | (simp only [tbPage, jrnlPage, svcPage, swarmPage, eslPage, dmaPage, synPage, domPage, linkPage, dmacPage, chPage, regPage, blkPage, bankPage]; omega)) ?_
    | with_reducible refine keeps_ite ?_ ?_
    | split

theorem State.dropPending_keeps (hP : Keeps A P) (hA : Sub 0x2000000208003e9 A) {s : State} {d : Nat} (hs : P s) : P (State.dropPending s d) := by
  unfold State.dropPending
  repeat' first
    | with_reducible assumption
    | with_reducible refine State.unitEvent_keeps hP (hA.mono (by decide)) ?_
    | with_reducible refine State.raise_unit hP (hA.mono (by decide)) (by first | omega | (simp only [tbPage, jrnlPage, svcPage, swarmPage, eslPage, dmaPage, synPage, domPage, linkPage, dmacPage, chPage, regPage, blkPage, bankPage]; omega)) ?_
    | with_reducible refine State.modDom_keeps hP (hA.mono (by decide)) ?_
    | with_reducible refine keeps_ite ?_ ?_
    | split

theorem State.setNow_keeps (hP : Keeps A P) (hA : Sub 0x2000000208003e9 A) {s : State} {d : Nat} (hs : P s) : P (State.setNow s d) := by
  unfold State.setNow
  repeat' first
    | with_reducible assumption
    | lift_lets -underBinder
    | (intro x; revert x; refine keeps_let P ?_ (fun _ _ => ?_))
    | (intro x; first | (have _h : Nat := x; clear _h; subst x) | clear_value x)
    | with_reducible refine State.modDom_keeps hP (hA.mono (by decide)) ?_
    | with_reducible refine State.dropPending_keeps hP (hA.mono (by decide)) ?_
    | with_reducible refine State.setBit_unit hP (hA.mono (by decide)) (by first | omega | (simp only [tbPage, jrnlPage, svcPage, swarmPage, eslPage, dmaPage, synPage, domPage, linkPage, dmacPage, chPage, regPage, blkPage, bankPage]; omega)) ?_
    | with_reducible refine State.domJournal_keeps hP (hA.mono (by decide)) ?_
    | with_reducible refine State.post_unit hP (hA.mono (by decide)) (by first | omega | (simp only [tbPage, jrnlPage, svcPage, swarmPage, eslPage, dmaPage, synPage, domPage, linkPage, dmacPage, chPage, regPage, blkPage, bankPage]; omega)) ?_
    | with_reducible refine State.domAfresh_keeps hP (hA.mono (by decide)) ?_
    | fail_if_no_progress beta_reduce
    | with_reducible refine keeps_ite ?_ ?_
    | split

theorem State.domApply_keeps (hP : Keeps A P) (hA : Sub 0x200000000000429 A) {s : State} {d : Nat} {pick : Nat → Bool} (hs : P s) : P (State.domApply s d pick) := by
  unfold State.domApply
  repeat' first
    | with_reducible assumption
    | with_reducible refine State.applyValue_unit hP (hA.mono (by decide)) (by first | omega | (simp only [tbPage, jrnlPage, svcPage, swarmPage, eslPage, dmaPage, synPage, domPage, linkPage, dmacPage, chPage, regPage, blkPage, bankPage]; omega)) ?_
    | with_reducible refine hP.shadow (hA.mono (by decide)) _ _ _ ?_
    | with_reducible refine keeps_foldl _ (fun _ _ _ => ?_) ?_
    | split
    | with_reducible refine keeps_pair (by assumption) ?_
    | with_reducible refine keeps_pair₂ (by assumption) ?_

theorem State.domRate_keeps (hP : Keeps A P) (hA : Sub 0x200000020000029 A) {s : State} {d : Nat} (hs : P s) : P (State.domRate s d) := by
  unfold State.domRate
  repeat' first
    | with_reducible assumption
    | lift_lets -underBinder
    | (intro x; revert x; refine keeps_let P ?_ (fun _ _ => ?_))
    | (intro x; clear_value x)
    | with_reducible refine State.setInteg_keeps hP (hA.mono (by decide)) ?_
    | with_reducible refine State.setY_keeps hP (hA.mono (by decide)) ?_
    | with_reducible refine keeps_ite ?_ ?_
    | split

theorem State.domSettle_keeps (hP : Keeps A P) (hA : Sub 0x2000000208003e9 A) {s : State} {d : Nat} {ctrl : Dword} {rate : Bool} (hs : P s) : P (State.domSettle s d ctrl rate) := by
  unfold State.domSettle
  repeat' first
    | with_reducible assumption
    | lift_lets -underBinder
    | (intro x; revert x; refine keeps_let P ?_ (fun _ _ => ?_))
    | (intro x; clear_value x)
    | with_reducible refine State.modDom_keeps hP (hA.mono (by decide)) ?_
    | with_reducible refine State.domAfresh_keeps hP (hA.mono (by decide)) ?_
    | with_reducible refine State.setBit_unit hP (hA.mono (by decide)) (by first | omega | (simp only [tbPage, jrnlPage, svcPage, swarmPage, eslPage, dmaPage, synPage, domPage, linkPage, dmacPage, chPage, regPage, blkPage, bankPage]; omega)) ?_
    | with_reducible refine State.showDoms_keeps hP (hA.mono (by decide)) ?_
    | with_reducible refine State.domRate_keeps hP (hA.mono (by decide)) ?_
    | fail_if_no_progress beta_reduce
    | with_reducible refine keeps_ite ?_ ?_
    | split

theorem State.shiftDoms_keeps (hP : Keeps A P) (hA : Sub 0x60000000 A) {s : State} {Δ : DTime} (hs : P s) : P (State.shiftDoms s Δ) := by
  unfold State.shiftDoms
  repeat' first
    | with_reducible assumption
    | lift_lets -underBinder
    | (intro x; revert x; refine keeps_let P ?_ (fun _ _ => ?_))
    | (intro x; clear_value x)
    | with_reducible refine State.forEach_keeps hP (hA.mono (by decide)) ?_ (fun _ _ _ => ?_)
    | with_reducible refine State.modDom_keeps hP (hA.mono (by decide)) ?_
    | with_reducible refine hP.pps (hA.mono (by decide)) _ _ _ ?_
    | fail_if_no_progress beta_reduce

theorem State.joinDom_keeps (hP : Keeps A P) (hA : Sub 0x2000000208007e9 A) {s : State} {d : Nat} (hs : P s) : P (State.joinDom s d) := by
  unfold State.joinDom
  repeat' first
    | with_reducible assumption
    | lift_lets -underBinder
    | (intro x; revert x; refine keeps_let P ?_ (fun _ _ => ?_))
    | (intro x; first | (have _h : Nat := x; clear _h; subst x) | clear_value x)
    | with_reducible refine State.setBit_unit hP (hA.mono (by decide)) (by first | omega | (simp only [tbPage, jrnlPage, svcPage, swarmPage, eslPage, dmaPage, synPage, domPage, linkPage, dmacPage, chPage, regPage, blkPage, bankPage]; omega)) ?_
    | with_reducible refine State.dropPending_keeps hP (hA.mono (by decide)) ?_
    | with_reducible refine State.entry_keeps hP (hA.mono (by decide)) ?_
    | with_reducible refine State.raise_unit hP (hA.mono (by decide)) (by first | omega | (simp only [tbPage, jrnlPage, svcPage, swarmPage, eslPage, dmaPage, synPage, domPage, linkPage, dmacPage, chPage, regPage, blkPage, bankPage]; omega)) ?_
    | with_reducible refine hP.shadow (hA.mono (by decide)) _ _ _ ?_
    | with_reducible refine keeps_foldl _ (fun _ _ _ => ?_) ?_
    | fail_if_no_progress beta_reduce
    | split
    | with_reducible refine keeps_pair (by assumption) ?_
    | with_reducible refine keeps_pair₂ (by assumption) ?_

theorem State.memberDoms_keeps (hP : Keeps A P) (hA : Sub 0x2000000208007e9 A) {s : State} {was : Bool} (hs : P s) : P (State.memberDoms s was) := by
  unfold State.memberDoms
  repeat' first
    | with_reducible assumption
    | with_reducible refine State.showDoms_keeps hP (hA.mono (by decide)) ?_
    | with_reducible refine State.forEach_keeps hP (hA.mono (by decide)) ?_ (fun _ _ _ => ?_)
    | with_reducible refine State.domRate_keeps hP (hA.mono (by decide)) ?_
    | with_reducible refine State.joinDom_keeps hP (hA.mono (by decide)) ?_
    | with_reducible refine keeps_ite ?_ ?_
    | split

theorem State.activeTo_keeps (hP : Keeps A P) (hA : Sub 0x2000000008003e9 A) {s : State} {b : Bool} (hs : P s) : P (State.activeTo s b) := by
  unfold State.activeTo
  repeat' first
    | with_reducible assumption
    | with_reducible refine State.showDoms_keeps hP (hA.mono (by decide)) ?_
    | with_reducible refine State.unitEvent_keeps hP (hA.mono (by decide)) ?_
    | with_reducible refine State.post_unit hP (hA.mono (by decide)) (by first | omega | (simp only [tbPage, jrnlPage, svcPage, swarmPage, eslPage, dmaPage, synPage, domPage, linkPage, dmacPage, chPage, regPage, blkPage, bankPage]; omega)) ?_
    | with_reducible refine State.setBit_unit hP (hA.mono (by decide)) (by first | omega | (simp only [tbPage, jrnlPage, svcPage, swarmPage, eslPage, dmaPage, synPage, domPage, linkPage, dmacPage, chPage, regPage, blkPage, bankPage]; omega)) ?_
    | with_reducible refine keeps_ite ?_ ?_
    | split

theorem State.mapRecords_keeps (hP : Keeps A P) (hA : Sub 0x8001c1 A) {s : State} (hs : P s) : P (State.mapRecords s) := by
  unfold State.mapRecords
  repeat' first
    | with_reducible assumption
    | with_reducible refine State.forEach_keeps hP (hA.mono (by decide)) ?_ (fun _ _ _ => ?_)
    | with_reducible refine State.unitGroup_keeps hP (hA.mono (by decide)) ?_

theorem State.mapTick_keeps (hP : Keeps A P) (hA : Sub 0x2010000208007e9 A) {s : State} (hs : P s) : P (State.mapTick s) := by
  unfold State.mapTick
  repeat' first
    | with_reducible assumption
    | lift_lets -underBinder
    | (intro x; revert x; refine keeps_let P ?_ (fun _ _ => ?_))
    | (intro x; clear_value x)
    | with_reducible refine State.forEach_keeps hP (hA.mono (by decide)) ?_ (fun _ _ _ => ?_)
    | with_reducible refine State.setNow_keeps hP (hA.mono (by decide)) ?_
    | with_reducible refine State.domApply_keeps hP (hA.mono (by decide)) ?_
    | with_reducible refine State.domSettle_keeps hP (hA.mono (by decide)) ?_
    | with_reducible refine State.servo_keeps hP (hA.mono (by decide)) ?_
    | with_reducible refine hP.shadow (hA.mono (by decide)) _ _ _ ?_
    | with_reducible refine State.post_unit hP (hA.mono (by decide)) (by first | omega | (simp only [tbPage, jrnlPage, svcPage, swarmPage, eslPage, dmaPage, synPage, domPage, linkPage, dmacPage, chPage, regPage, blkPage, bankPage]; omega)) ?_
    | with_reducible refine State.addWrap_unit hP (hA.mono (by decide)) (by first | omega | (simp only [tbPage, jrnlPage, svcPage, swarmPage, eslPage, dmaPage, synPage, domPage, linkPage, dmacPage, chPage, regPage, blkPage, bankPage]; omega)) ?_
    | with_reducible refine State.activeTo_keeps hP (hA.mono (by decide)) ?_
    | with_reducible refine State.mapRecords_keeps hP (hA.mono (by decide)) ?_
    | with_reducible refine State.showDoms_keeps hP (hA.mono (by decide)) ?_
    | with_reducible refine State.entry_keeps hP (hA.mono (by decide)) ?_
    | with_reducible refine keeps_foldl _ (fun _ _ _ => ?_) ?_
    | fail_if_no_progress beta_reduce
    | with_reducible refine keeps_ite ?_ ?_
    | split
    | (rw [State.mk_mapTicks]; apply hP.mapTicks (hA.mono (by decide)))
    | with_reducible refine keeps_pair (by assumption) ?_
    | with_reducible refine keeps_pair₂ (by assumption) ?_

theorem State.submit_keeps (hP : Keeps A P) (hA : Sub 0x2000000208003e9 A) {s : State} {d : Nat} {a : Agent} (hs : P s) : P (State.submit s d a) := by
  unfold State.submit
  repeat' first
    | with_reducible assumption
    | lift_lets -underBinder
    | (intro x; revert x; refine keeps_let P ?_ (fun _ _ => ?_))
    | (intro x; first | (have _h : Nat := x; clear _h; subst x) | clear_value x)
    | with_reducible refine State.entry_keeps hP (hA.mono (by decide)) ?_
    | with_reducible refine State.raiseWrite_unit hP (hA.mono (by decide)) (by first | omega | (simp only [tbPage, jrnlPage, svcPage, swarmPage, eslPage, dmaPage, synPage, domPage, linkPage, dmacPage, chPage, regPage, blkPage, bankPage]; omega)) ?_
    | with_reducible refine State.dropPending_keeps hP (hA.mono (by decide)) ?_
    | with_reducible refine State.modDom_keeps hP (hA.mono (by decide)) ?_
    | fail_if_no_progress beta_reduce
    | with_reducible refine keeps_ite ?_ ?_
    | split

theorem State.ppsSample_keeps (hP : Keeps A P) (hA : Sub 0x200000020000029 A) {s : State} {d : Nat} {t : DTime} (hs : P s) : P (State.ppsSample s d t) := by
  unfold State.ppsSample
  repeat' first
    | with_reducible assumption
    | lift_lets -underBinder
    | (intro x; revert x; refine keeps_let P ?_ (fun _ _ => ?_))
    | (intro x; first | (have _h : Nat := x; clear _h; subst x) | clear_value x)
    | with_reducible refine State.addSat_unit hP (hA.mono (by decide)) (by first | omega | (simp only [tbPage, jrnlPage, svcPage, swarmPage, eslPage, dmaPage, synPage, domPage, linkPage, dmacPage, chPage, regPage, blkPage, bankPage]; omega)) ?_
    | with_reducible refine State.raise_unit hP (hA.mono (by decide)) (by first | omega | (simp only [tbPage, jrnlPage, svcPage, swarmPage, eslPage, dmaPage, synPage, domPage, linkPage, dmacPage, chPage, regPage, blkPage, bankPage]; omega)) ?_
    | with_reducible refine State.modDom_keeps hP (hA.mono (by decide)) ?_
    | with_reducible refine hP.wr (hA.mono (by decide)) _ _ _ (by first | omega | (simp only [tbPage, jrnlPage, svcPage, swarmPage, eslPage, dmaPage, synPage, domPage, linkPage, dmacPage, chPage, regPage, blkPage, bankPage]; omega)) ?_
    | fail_if_no_progress beta_reduce
    | with_reducible refine keeps_ite ?_ ?_
    | split

theorem State.ppsTake_keeps (hP : Keeps A P) (hA : Sub 0x200000060000029 A) {s : State} {d i : Nat} {rising : Bool} {fine : Nat} (hs : P s) : P (State.ppsTake s d i rising fine) := by
  unfold State.ppsTake
  repeat' first
    | with_reducible assumption
    | lift_lets -underBinder
    | (intro x; revert x; refine keeps_let P ?_ (fun _ _ => ?_))
    | (intro x; first | (have _h : Nat := x; clear _h; subst x) | clear_value x)
    | with_reducible refine State.addSat_unit hP (hA.mono (by decide)) (by first | omega | (simp only [tbPage, jrnlPage, svcPage, swarmPage, eslPage, dmaPage, synPage, domPage, linkPage, dmacPage, chPage, regPage, blkPage, bankPage]; omega)) ?_
    | with_reducible refine State.setPair_unit hP (hA.mono (by decide)) (by first | omega | (simp only [tbPage, jrnlPage, svcPage, swarmPage, eslPage, dmaPage, synPage, domPage, linkPage, dmacPage, chPage, regPage, blkPage, bankPage]; omega)) ?_
    | with_reducible refine State.ppsSample_keeps hP (hA.mono (by decide)) ?_
    | with_reducible refine hP.pps (hA.mono (by decide)) _ _ _ ?_
    | fail_if_no_progress beta_reduce
    | with_reducible refine keeps_ite ?_ ?_
    | split

theorem State.ppsEdge_keeps (hP : Keeps A P) (hA : Sub 0x200000060000029 A) {s : State} {i : Nat} {rising : Bool} {fine : Nat} (hs : P s) : P (State.ppsEdge s i rising fine) := by
  unfold State.ppsEdge
  repeat' first
    | with_reducible assumption
    | with_reducible refine State.forEach_keeps hP (hA.mono (by decide)) ?_ (fun _ _ _ => ?_)
    | with_reducible refine State.ppsTake_keeps hP (hA.mono (by decide)) ?_
    | with_reducible refine keeps_ite ?_ ?_
    | split

theorem State.snap_keeps (hP : Keeps A P) (hA : Sub 0x1 A) {s : State} {d : Nat} (hs : P s) : P (State.snap s d) := by
  unfold State.snap
  repeat' first
    | with_reducible assumption
    | lift_lets -underBinder
    | (intro x; revert x; refine keeps_let P ?_ (fun _ _ => ?_))
    | (intro x; first | (have _h : Nat := x; clear _h; subst x) | clear_value x)
    | with_reducible refine State.setPair_unit hP (hA.mono (by decide)) (by first | omega | (simp only [tbPage, jrnlPage, svcPage, swarmPage, eslPage, dmaPage, synPage, domPage, linkPage, dmacPage, chPage, regPage, blkPage, bankPage]; omega)) ?_
    | with_reducible refine hP.wr (hA.mono (by decide)) _ _ _ (by first | omega | (simp only [tbPage, jrnlPage, svcPage, swarmPage, eslPage, dmaPage, synPage, domPage, linkPage, dmacPage, chPage, regPage, blkPage, bankPage]; omega)) ?_

theorem State.carry_keeps (hP : Keeps A P) (hA : Sub 0x2000000208003e9 A) {s : State} {d : Nat} {f : DTime} {w : BitVec 64} (hs : P s) : P (State.carry s d f w) := by
  unfold State.carry
  repeat' first
    | with_reducible assumption
    | lift_lets -underBinder
    | (intro x; revert x; refine keeps_let P ?_ (fun _ _ => ?_))
    | (intro x; clear_value x)
    | with_reducible refine State.modDom_keeps hP (hA.mono (by decide)) ?_
    | with_reducible refine State.setY_keeps hP (hA.mono (by decide)) ?_
    | with_reducible refine State.domLock_keeps hP (hA.mono (by decide)) ?_
    | with_reducible refine State.showDoms_keeps hP (hA.mono (by decide)) ?_
    | with_reducible refine State.domJournal_keeps hP (hA.mono (by decide)) ?_
    | fail_if_no_progress beta_reduce
    | with_reducible refine keeps_ite ?_ ?_
    | split

theorem State.showMember_keeps (hP : Keeps A P) (hA : Sub 0x2000000208007eb A) {s : State} (hs : P s) : P (State.showMember s) := by
  unfold State.showMember
  repeat' first
    | with_reducible assumption
    | lift_lets -underBinder
    | (intro x; revert x; refine keeps_let P ?_ (fun _ _ => ?_))
    | (intro x; clear_value x)
    | with_reducible refine State.setFld_keeps hP (hA.mono (by decide)) ?_
    | with_reducible refine State.setBit_keeps hP (hA.mono (by decide)) ?_
    | with_reducible refine State.memberDoms_keeps hP (hA.mono (by decide)) ?_
    | with_reducible refine State.tbStops_keeps hP (hA.mono (by decide)) ?_ ?_

theorem State.showMembers_keeps (hP : Keeps A P) (hA : Sub 0x1 A) {s : State} (hs : P s) : P (State.showMembers s) := by
  unfold State.showMembers
  repeat' first
    | with_reducible assumption
    | with_reducible refine State.setFld_unit hP (hA.mono (by decide)) (by first | omega | (simp only [tbPage, jrnlPage, svcPage, swarmPage, eslPage, dmaPage, synPage, domPage, linkPage, dmacPage, chPage, regPage, blkPage, bankPage]; omega)) ?_
    | with_reducible refine keeps_ite ?_ ?_
    | split

theorem State.freeOrdinal_keeps (hP : Keeps A P) (hA : Sub 0x800000000001 A) {s : State} {o : BitVec 11} (hs : P s) : P (State.freeOrdinal s o) := by
  unfold State.freeOrdinal
  repeat' first
    | with_reducible assumption
    | with_reducible refine State.showMembers_keeps hP (hA.mono (by decide)) ?_
    | with_reducible refine State.modSwarm_keeps hP (hA.mono (by decide)) ?_
    | with_reducible refine keeps_ite ?_ ?_
    | split

theorem State.takeOrdinal_keeps (hP : Keeps A P) (hA : Sub 0x200800000000029 A) {s : State} {o : BitVec 11} (hs : P s) : P (State.takeOrdinal s o).2 := by
  unfold State.takeOrdinal
  repeat' first
    | with_reducible assumption
    | with_reducible refine State.post_unit hP (hA.mono (by decide)) (by first | omega | (simp only [tbPage, jrnlPage, svcPage, swarmPage, eslPage, dmaPage, synPage, domPage, linkPage, dmacPage, chPage, regPage, blkPage, bankPage]; omega)) ?_
    | with_reducible refine State.showMembers_keeps hP (hA.mono (by decide)) ?_
    | with_reducible refine State.modSwarm_keeps hP (hA.mono (by decide)) ?_
    | with_reducible refine keeps_ite ?_ ?_
    | split

theorem State.setQueen_keeps (hP : Keeps A P) (hA : Sub 0x2008001208007eb A) {s : State} {b : Bool} (hs : P s) : P (State.setQueen s b) := by
  unfold State.setQueen
  repeat' first
    | with_reducible assumption
    | lift_lets -underBinder
    | (intro x; revert x; refine keeps_let P ?_ (fun _ _ => ?_))
    | (intro x; clear_value x)
    | with_reducible refine State.setBit_unit hP (hA.mono (by decide)) (by first | omega | (simp only [tbPage, jrnlPage, svcPage, swarmPage, eslPage, dmaPage, synPage, domPage, linkPage, dmacPage, chPage, regPage, blkPage, bankPage]; omega)) ?_
    | with_reducible refine State.setAlign_keeps hP (hA.mono (by decide)) ?_
    | with_reducible refine State.setFld_unit hP (hA.mono (by decide)) (by first | omega | (simp only [tbPage, jrnlPage, svcPage, swarmPage, eslPage, dmaPage, synPage, domPage, linkPage, dmacPage, chPage, regPage, blkPage, bankPage]; omega)) ?_
    | with_reducible refine State.modSwarm_keeps hP (hA.mono (by decide)) ?_
    | with_reducible refine State.showDoms_keeps hP (hA.mono (by decide)) ?_
    | with_reducible refine State.forEach_keeps hP (hA.mono (by decide)) ?_ (fun _ _ _ => ?_)
    | with_reducible refine State.tbStops_keeps hP (hA.mono (by decide)) ?_ ?_
    | with_reducible refine State.showMember_keeps hP (hA.mono (by decide)) ?_
    | with_reducible refine State.showMembers_keeps hP (hA.mono (by decide)) ?_
    | with_reducible refine State.domRate_keeps hP (hA.mono (by decide)) ?_
    | fail_if_no_progress beta_reduce
    | with_reducible refine keeps_ite ?_ ?_
    | split

theorem State.strapDue_keeps (hP : Keeps A P) (hA : Sub 0x2008001208007eb A) {s : State} (hs : P s) : P (State.strapDue s) := by
  unfold State.strapDue
  repeat' first
    | with_reducible assumption
    | with_reducible refine State.entry_keeps hP (hA.mono (by decide)) ?_
    | with_reducible refine State.setQueen_keeps hP (hA.mono (by decide)) ?_
    | with_reducible refine keeps_ite ?_ ?_
    | split

theorem State.strap_keeps (hP : Keeps A P) (hA : Sub 0x2008001208007eb A) {s : State} {high : Bool} (hs : P s) : P (State.strap s high) := by
  unfold State.strap
  repeat' first
    | with_reducible assumption
    | with_reducible refine State.strapDue_keeps hP (hA.mono (by decide)) ?_
    | with_reducible refine State.setBit_unit hP (hA.mono (by decide)) (by first | omega | (simp only [tbPage, jrnlPage, svcPage, swarmPage, eslPage, dmaPage, synPage, domPage, linkPage, dmacPage, chPage, regPage, blkPage, bankPage]; omega)) ?_

theorem State.beginAcquire_keeps (hP : Keeps A P) (hA : Sub 0x2008001208007eb A) {s : State} (hs : P s) : P (State.beginAcquire s) := by
  unfold State.beginAcquire
  repeat' first
    | with_reducible assumption
    | lift_lets -underBinder
    | (intro x; revert x; refine keeps_let P ?_ (fun _ _ => ?_))
    | (intro x; clear_value x)
    | with_reducible refine State.setAlign_keeps hP (hA.mono (by decide)) ?_
    | with_reducible refine State.modSwarm_keeps hP (hA.mono (by decide)) ?_
    | with_reducible refine State.forEach_keeps hP (hA.mono (by decide)) ?_ (fun _ _ _ => ?_)
    | with_reducible refine State.modDom_keeps hP (hA.mono (by decide)) ?_
    | with_reducible refine State.showDoms_keeps hP (hA.mono (by decide)) ?_
    | with_reducible refine State.showMember_keeps hP (hA.mono (by decide)) ?_
    | with_reducible refine hP.wr (hA.mono (by decide)) _ _ _ (by first | omega | (simp only [tbPage, jrnlPage, svcPage, swarmPage, eslPage, dmaPage, synPage, domPage, linkPage, dmacPage, chPage, regPage, blkPage, bankPage]; omega)) ?_
    | fail_if_no_progress beta_reduce

theorem State.tryAcquire_keeps (hP : Keeps A P) (hA : Sub 0x2008001208007eb A) {s : State} (hs : P s) : P (State.tryAcquire s) := by
  unfold State.tryAcquire
  repeat' first
    | with_reducible assumption
    | with_reducible refine State.beginAcquire_keeps hP (hA.mono (by decide)) ?_
    | with_reducible refine keeps_ite ?_ ?_
    | split

theorem State.helloSend_keeps (hP : Keeps A P) (hA : Sub 0x2000000088003eb A) {s : State} {p : Nat} (hs : P s) : P (State.helloSend s p) := by
  unfold State.helloSend
  repeat' first
    | with_reducible assumption
    | with_reducible refine State.sendTiming_keeps hP (hA.mono (by decide)) ?_
    | with_reducible refine keeps_ite ?_ ?_
    | split

theorem State.linkTrained_keeps (hP : Keeps A P) (hA : Sub 0x2008000288007eb A) {s : State} {p : Nat} (hs : P s) : P (State.linkTrained s p) := by
  unfold State.linkTrained
  repeat' first
    | with_reducible assumption
    | lift_lets -underBinder
    | (intro x; revert x; refine keeps_let P ?_ (fun _ _ => ?_))
    | (intro x; clear_value x)
    | with_reducible refine State.setLstate_keeps hP (hA.mono (by decide)) ?_
    | with_reducible refine State.post_unit hP (hA.mono (by decide)) (by first | omega | (simp only [tbPage, jrnlPage, svcPage, swarmPage, eslPage, dmaPage, synPage, domPage, linkPage, dmacPage, chPage, regPage, blkPage, bankPage]; omega)) ?_
    | with_reducible refine State.setFld_unit hP (hA.mono (by decide)) (by first | omega | (simp only [tbPage, jrnlPage, svcPage, swarmPage, eslPage, dmaPage, synPage, domPage, linkPage, dmacPage, chPage, regPage, blkPage, bankPage]; omega)) ?_
    | with_reducible refine State.showMember_keeps hP (hA.mono (by decide)) ?_
    | with_reducible refine State.drain_keeps hP (hA.mono (by decide)) ?_
    | with_reducible refine State.noteProgress_keeps hP (hA.mono (by decide)) ?_
    | with_reducible refine keeps_ite ?_ ?_
    | split

theorem State.enterHoldover_keeps (hP : Keeps A P) (hA : Sub 0xa008209288847ef A) {s : State} {p : Nat} {detected : Bool} (hs : P s) : P (State.enterHoldover s p detected) := by
  unfold State.enterHoldover
  repeat' first
    | with_reducible assumption
    | lift_lets -underBinder
    | (intro x; revert x; refine keeps_let P ?_ (fun _ _ => ?_))
    | (intro x; clear_value x)
    | with_reducible refine State.setPair_unit hP (hA.mono (by decide)) (by first | omega | (simp only [tbPage, jrnlPage, svcPage, swarmPage, eslPage, dmaPage, synPage, domPage, linkPage, dmacPage, chPage, regPage, blkPage, bankPage]; omega)) ?_
    | with_reducible refine State.setAlign_keeps hP (hA.mono (by decide)) ?_
    | with_reducible refine State.modSwarm_keeps hP (hA.mono (by decide)) ?_
    | with_reducible refine State.raise_unit hP (hA.mono (by decide)) (by first | omega | (simp only [tbPage, jrnlPage, svcPage, swarmPage, eslPage, dmaPage, synPage, domPage, linkPage, dmacPage, chPage, regPage, blkPage, bankPage]; omega)) ?_
    | with_reducible refine State.post_unit hP (hA.mono (by decide)) (by first | omega | (simp only [tbPage, jrnlPage, svcPage, swarmPage, eslPage, dmaPage, synPage, domPage, linkPage, dmacPage, chPage, regPage, blkPage, bankPage]; omega)) ?_
    | with_reducible refine State.raiseEvent_keeps hP (hA.mono (by decide)) ?_
    | with_reducible refine State.showMember_keeps hP (hA.mono (by decide)) ?_
    | with_reducible refine State.chipFault_keeps hP (hA.mono (by decide)) ?_
    | with_reducible refine State.showDoms_keeps hP (hA.mono (by decide)) ?_
    | with_reducible refine State.forEach_keeps hP (hA.mono (by decide)) ?_ (fun _ _ _ => ?_)
    | with_reducible refine State.domLock_keeps hP (hA.mono (by decide)) ?_
    | fail_if_no_progress beta_reduce
    | with_reducible refine keeps_ite ?_ ?_
    | split

theorem State.loseUpstream_keeps (hP : Keeps A P) (hA : Sub 0xa008209288847ef A) {s : State} {p : Nat} (hs : P s) : P (State.loseUpstream s p) := by
  unfold State.loseUpstream
  repeat' first
    | with_reducible assumption
    | lift_lets -underBinder
    | (intro x; revert x; refine keeps_let P ?_ (fun _ _ => ?_))
    | (intro x; clear_value x)
    | with_reducible refine State.setFld_unit hP (hA.mono (by decide)) (by first | omega | (simp only [tbPage, jrnlPage, svcPage, swarmPage, eslPage, dmaPage, synPage, domPage, linkPage, dmacPage, chPage, regPage, blkPage, bankPage]; omega)) ?_
    | with_reducible refine State.post_unit hP (hA.mono (by decide)) (by first | omega | (simp only [tbPage, jrnlPage, svcPage, swarmPage, eslPage, dmaPage, synPage, domPage, linkPage, dmacPage, chPage, regPage, blkPage, bankPage]; omega)) ?_
    | with_reducible refine State.raiseEvent_keeps hP (hA.mono (by decide)) ?_
    | with_reducible refine State.showMember_keeps hP (hA.mono (by decide)) ?_
    | with_reducible refine State.enterHoldover_keeps hP (hA.mono (by decide)) ?_
    | with_reducible refine State.setBit_unit hP (hA.mono (by decide)) (by first | omega | (simp only [tbPage, jrnlPage, svcPage, swarmPage, eslPage, dmaPage, synPage, domPage, linkPage, dmacPage, chPage, regPage, blkPage, bankPage]; omega)) ?_
    | fail_if_no_progress beta_reduce
    | split
    | with_reducible refine keeps_pair (by assumption) ?_
    | with_reducible refine keeps_pair₂ (by assumption) ?_

theorem State.upstreamGone_keeps (hP : Keeps A P) (hA : Sub 0xa008209288847ef A) {s : State} {p : Nat} {joined : Bool} (hs : P s) : P (State.upstreamGone s p joined) := by
  unfold State.upstreamGone
  repeat' first
    | with_reducible assumption
    | with_reducible refine State.showMember_keeps hP (hA.mono (by decide)) ?_
    | with_reducible refine State.loseUpstream_keeps hP (hA.mono (by decide)) ?_
    | with_reducible refine State.setBit_unit hP (hA.mono (by decide)) (by first | omega | (simp only [tbPage, jrnlPage, svcPage, swarmPage, eslPage, dmaPage, synPage, domPage, linkPage, dmacPage, chPage, regPage, blkPage, bankPage]; omega)) ?_
    | with_reducible refine keeps_ite ?_ ?_
    | split

theorem State.loseLines_keeps (hP : Keeps A P) (hA : Sub 0x800081 A) {s : State} {p : Nat} {l : List Payload} (hs : P s) : P (State.loseLines s p l) := by
  unfold State.loseLines
  repeat' first
    | with_reducible assumption
    | with_reducible refine State.lose_keeps hP (hA.mono (by decide)) ?_
    | with_reducible refine keeps_foldl _ (fun _ _ _ => ?_) ?_
    | with_reducible refine keeps_ite ?_ ?_
    | split
    | with_reducible refine keeps_pair (by assumption) ?_
    | with_reducible refine keeps_pair₂ (by assumption) ?_

theorem State.reask_keeps (hP : Keeps A P) (hA : Sub 0x10000000 A) {s : State} {p : Nat} (hs : P s) : P (State.reask s p) := by
  unfold State.reask
  repeat' first
    | with_reducible assumption
    | lift_lets -underBinder
    | (intro x; revert x; refine keeps_let P ?_ (fun _ _ => ?_))
    | (intro x; clear_value x)
    | with_reducible refine State.forEach_keeps hP (hA.mono (by decide)) ?_ (fun _ _ _ => ?_)
    | with_reducible refine hP.remote (hA.mono (by decide)) _ _ _ ?_
    | fail_if_no_progress beta_reduce
    | with_reducible refine keeps_ite ?_ ?_
    | split

theorem State.loseMember_keeps (hP : Keeps A P) (hA : Sub 0x2008000088003eb A) {s : State} {p : Nat} (hs : P s) : P (State.loseMember s p) := by
  unfold State.loseMember
  repeat' first
    | with_reducible assumption
    | with_reducible refine State.freeOrdinal_keeps hP (hA.mono (by decide)) ?_
    | with_reducible refine State.raiseEvent_keeps hP (hA.mono (by decide)) ?_
    | with_reducible refine State.modLink_keeps hP (hA.mono (by decide)) ?_
    | split
    | with_reducible refine keeps_pair (by assumption) ?_
    | with_reducible refine keeps_pair₂ (by assumption) ?_

theorem State.linkGone_keeps (hP : Keeps A P) (hA : Sub 0xa008209388847ef A) {s : State} {p next : Nat} (hs : P s) : P (State.linkGone s p next) := by
  unfold State.linkGone
  repeat' first
    | with_reducible assumption
    | lift_lets -underBinder
    | (intro x; revert x; refine keeps_let P ?_ (fun _ _ => ?_))
    | (intro x; clear_value x)
    | with_reducible refine State.addSat_unit hP (hA.mono (by decide)) (by first | omega | (simp only [tbPage, jrnlPage, svcPage, swarmPage, eslPage, dmaPage, synPage, domPage, linkPage, dmacPage, chPage, regPage, blkPage, bankPage]; omega)) ?_
    | with_reducible refine State.setFld_unit hP (hA.mono (by decide)) (by first | omega | (simp only [tbPage, jrnlPage, svcPage, swarmPage, eslPage, dmaPage, synPage, domPage, linkPage, dmacPage, chPage, regPage, blkPage, bankPage]; omega)) ?_
    | with_reducible refine State.setLstate_keeps hP (hA.mono (by decide)) ?_
    | with_reducible refine State.post_unit hP (hA.mono (by decide)) (by first | omega | (simp only [tbPage, jrnlPage, svcPage, swarmPage, eslPage, dmaPage, synPage, domPage, linkPage, dmacPage, chPage, regPage, blkPage, bankPage]; omega)) ?_
    | with_reducible refine hP.link (hA.mono (by decide)) _ _ _ ?_
    | with_reducible refine State.noteProgress_keeps hP (hA.mono (by decide)) ?_
    | with_reducible refine State.reask_keeps hP (hA.mono (by decide)) ?_
    | with_reducible refine State.loseLines_keeps hP (hA.mono (by decide)) ?_
    | with_reducible refine State.loseMember_keeps hP (hA.mono (by decide)) ?_
    | with_reducible refine State.upstreamGone_keeps hP (hA.mono (by decide)) ?_

theorem State.linkDown_keeps (hP : Keeps A P) (hA : Sub 0xa008209388847ef A) {s : State} {p : Nat} (hs : P s) : P (State.linkDown s p) := by
  unfold State.linkDown
  repeat' first
    | with_reducible assumption
    | with_reducible refine State.linkGone_keeps hP (hA.mono (by decide)) ?_
    | with_reducible refine keeps_ite ?_ ?_
    | split

theorem State.retryExhausted_keeps (hP : Keeps A P) (hA : Sub 0xa008209388847ef A) {s : State} {p : Nat} (hs : P s) : P (State.retryExhausted s p) := by
  unfold State.retryExhausted
  repeat' first
    | with_reducible assumption
    | with_reducible refine State.linkGone_keeps hP (hA.mono (by decide)) ?_
    | with_reducible refine State.raise_unit hP (hA.mono (by decide)) (by first | omega | (simp only [tbPage, jrnlPage, svcPage, swarmPage, eslPage, dmaPage, synPage, domPage, linkPage, dmacPage, chPage, regPage, blkPage, bankPage]; omega)) ?_
    | with_reducible refine keeps_ite ?_ ?_
    | split
    | with_reducible refine keeps_pair (by assumption) ?_
    | with_reducible refine keeps_pair₂ (by assumption) ?_

theorem State.unreach_keeps (hP : Keeps A P) (hA : Sub 0x800000000000 A) {s : State} {p : Nat} (hs : P s) : P (State.unreach s p) := by
  unfold State.unreach
  repeat' first
    | with_reducible assumption
    | with_reducible refine State.modSwarm_keeps hP (hA.mono (by decide)) ?_

theorem State.quarantine_keeps (hP : Keeps A P) (hA : Sub 0x2008000088007eb A) {s : State} {p cause : Nat} (hs : P s) : P (State.quarantine s p cause) := by
  unfold State.quarantine
  repeat' first
    | with_reducible assumption
    | lift_lets -underBinder
    | (intro x; revert x; refine keeps_let P ?_ (fun _ _ => ?_))
    | (intro x; clear_value x)
    | with_reducible refine State.setFld_unit hP (hA.mono (by decide)) (by first | omega | (simp only [tbPage, jrnlPage, svcPage, swarmPage, eslPage, dmaPage, synPage, domPage, linkPage, dmacPage, chPage, regPage, blkPage, bankPage]; omega)) ?_
    | with_reducible refine State.setLstate_keeps hP (hA.mono (by decide)) ?_
    | with_reducible refine State.unitEvent_keeps hP (hA.mono (by decide)) ?_
    | with_reducible refine State.post_unit hP (hA.mono (by decide)) (by first | omega | (simp only [tbPage, jrnlPage, svcPage, swarmPage, eslPage, dmaPage, synPage, domPage, linkPage, dmacPage, chPage, regPage, blkPage, bankPage]; omega)) ?_
    | with_reducible refine State.unreach_keeps hP (hA.mono (by decide)) ?_
    | with_reducible refine State.raiseEvent_keeps hP (hA.mono (by decide)) ?_
    | with_reducible refine keeps_ite ?_ ?_
    | split

theorem State.hold_keeps (hP : Keeps A P) (hA : Sub 0xa008209288847ef A) {s : State} {p : Nat} (hs : P s) : P (State.hold s p) := by
  unfold State.hold
  repeat' first
    | with_reducible assumption
    | lift_lets -underBinder
    | (intro x; revert x; refine keeps_let P ?_ (fun _ _ => ?_))
    | (intro x; clear_value x)
    | with_reducible refine State.unreach_keeps hP (hA.mono (by decide)) ?_
    | with_reducible refine State.setFld_unit hP (hA.mono (by decide)) (by first | omega | (simp only [tbPage, jrnlPage, svcPage, swarmPage, eslPage, dmaPage, synPage, domPage, linkPage, dmacPage, chPage, regPage, blkPage, bankPage]; omega)) ?_
    | with_reducible refine State.setLstate_keeps hP (hA.mono (by decide)) ?_
    | with_reducible refine State.raise_unit hP (hA.mono (by decide)) (by first | omega | (simp only [tbPage, jrnlPage, svcPage, swarmPage, eslPage, dmaPage, synPage, domPage, linkPage, dmacPage, chPage, regPage, blkPage, bankPage]; omega)) ?_
    | with_reducible refine State.raiseEvent_keeps hP (hA.mono (by decide)) ?_
    | with_reducible refine State.upstreamGone_keeps hP (hA.mono (by decide)) ?_
    | with_reducible refine keeps_ite ?_ ?_
    | split

theorem State.linkJoined_keeps (hP : Keeps A P) (hA : Sub 0x2000000088007e9 A) {s : State} {p : Nat} (hs : P s) : P (State.linkJoined s p) := by
  unfold State.linkJoined
  repeat' first
    | with_reducible assumption
    | lift_lets -underBinder
    | (intro x; revert x; refine keeps_let P ?_ (fun _ _ => ?_))
    | (intro x; clear_value x)
    | with_reducible refine State.post_unit hP (hA.mono (by decide)) (by first | omega | (simp only [tbPage, jrnlPage, svcPage, swarmPage, eslPage, dmaPage, synPage, domPage, linkPage, dmacPage, chPage, regPage, blkPage, bankPage]; omega)) ?_
    | with_reducible refine State.setFld_unit hP (hA.mono (by decide)) (by first | omega | (simp only [tbPage, jrnlPage, svcPage, swarmPage, eslPage, dmaPage, synPage, domPage, linkPage, dmacPage, chPage, regPage, blkPage, bankPage]; omega)) ?_
    | with_reducible refine State.setLstate_keeps hP (hA.mono (by decide)) ?_
    | with_reducible refine State.modLink_keeps hP (hA.mono (by decide)) ?_
    | fail_if_no_progress beta_reduce

theorem State.joinDone_keeps (hP : Keeps A P) (hA : Sub 0x2008000088007eb A) {s : State} {p : Nat} {ordinal : BitVec 11} {ok engaged : Bool} (hs : P s) : P (State.joinDone s p ordinal ok engaged) := by
  unfold State.joinDone
  repeat' first
    | with_reducible assumption
    | lift_lets -underBinder
    | (intro x; revert x; refine keeps_let P ?_ (fun _ _ => ?_))
    | (intro x; clear_value x)
    | with_reducible refine State.linkJoined_keeps hP (hA.mono (by decide)) ?_
    | with_reducible refine State.sendReliable_keeps hP (hA.mono (by decide)) ?_
    | with_reducible refine State.modLink_keeps hP (hA.mono (by decide)) ?_
    | with_reducible refine State.quarantine_keeps hP (hA.mono (by decide)) ?_
    | with_reducible refine State.loseMember_keeps hP (hA.mono (by decide)) ?_
    | fail_if_no_progress beta_reduce
    | with_reducible refine keeps_ite ?_ ?_
    | split

theorem State.requestJoin_keeps (hP : Keeps A P) (hA : Sub 0x2008000088007eb A) {s : State} {p : Nat} {ordinal : BitVec 11} (hs : P s) : P (State.requestJoin s p ordinal) := by
  unfold State.requestJoin
  repeat' first
    | with_reducible assumption
    | lift_lets -underBinder
    | (intro x; revert x; refine keeps_let P ?_ (fun _ _ => ?_))
    | (intro x; clear_value x)
    | with_reducible refine State.setFld_unit hP (hA.mono (by decide)) (by first | omega | (simp only [tbPage, jrnlPage, svcPage, swarmPage, eslPage, dmaPage, synPage, domPage, linkPage, dmacPage, chPage, regPage, blkPage, bankPage]; omega)) ?_
    | with_reducible refine State.setLstate_keeps hP (hA.mono (by decide)) ?_
    | with_reducible refine State.takeOrdinal_keeps hP (hA.mono (by decide)) ?_
    | with_reducible refine State.joinDone_keeps hP (hA.mono (by decide)) ?_
    | with_reducible refine State.modSwarm_keeps hP (hA.mono (by decide)) ?_
    | with_reducible refine State.sendReliable_keeps hP (hA.mono (by decide)) ?_
    | fail_if_no_progress beta_reduce
    | with_reducible refine keeps_ite ?_ ?_
    | split
    | with_reducible refine keeps_pair (by assumption) ?_
    | with_reducible refine keeps_pair₂ (by assumption) ?_

theorem State.helloDown_keeps (hP : Keeps A P) (hA : Sub 0x2008000088007eb A) {s : State} {p : Nat} {h : Hello} (hs : P s) : P (State.helloDown s p h) := by
  unfold State.helloDown
  repeat' first
    | with_reducible assumption
    | with_reducible refine State.setLstate_keeps hP (hA.mono (by decide)) ?_
    | with_reducible refine State.quarantine_keeps hP (hA.mono (by decide)) ?_
    | with_reducible refine State.linkJoined_keeps hP (hA.mono (by decide)) ?_
    | with_reducible refine State.requestJoin_keeps hP (hA.mono (by decide)) ?_
    | with_reducible refine keeps_ite ?_ ?_
    | split
    | with_reducible refine keeps_pair (by assumption) ?_
    | with_reducible refine keeps_pair₂ (by assumption) ?_

theorem State.upJoined_keeps (hP : Keeps A P) (hA : Sub 0x2008001288007eb A) {s : State} {p : Nat} {h : Hello} (hs : P s) : P (State.upJoined s p h) := by
  unfold State.upJoined
  repeat' first
    | with_reducible assumption
    | lift_lets -underBinder
    | (intro x; revert x; refine keeps_let P ?_ (fun _ _ => ?_))
    | (intro x; clear_value x)
    | with_reducible refine State.linkJoined_keeps hP (hA.mono (by decide)) ?_
    | with_reducible refine State.setFld_unit hP (hA.mono (by decide)) (by first | omega | (simp only [tbPage, jrnlPage, svcPage, swarmPage, eslPage, dmaPage, synPage, domPage, linkPage, dmacPage, chPage, regPage, blkPage, bankPage]; omega)) ?_
    | with_reducible refine State.setBit_unit hP (hA.mono (by decide)) (by first | omega | (simp only [tbPage, jrnlPage, svcPage, swarmPage, eslPage, dmaPage, synPage, domPage, linkPage, dmacPage, chPage, regPage, blkPage, bankPage]; omega)) ?_
    | with_reducible refine State.modSwarm_keeps hP (hA.mono (by decide)) ?_
    | with_reducible refine State.tryAcquire_keeps hP (hA.mono (by decide)) ?_
    | with_reducible refine State.showMember_keeps hP (hA.mono (by decide)) ?_
    | fail_if_no_progress beta_reduce
    | with_reducible refine keeps_ite ?_ ?_
    | split

theorem State.helloUp_keeps (hP : Keeps A P) (hA : Sub 0x2008001288007eb A) {s : State} {p : Nat} {h : Hello} (hs : P s) : P (State.helloUp s p h) := by
  unfold State.helloUp
  repeat' first
    | with_reducible assumption
    | lift_lets -underBinder
    | (intro x; revert x; refine keeps_let P ?_ (fun _ _ => ?_))
    | (intro x; clear_value x)
    | with_reducible refine State.setLstate_keeps hP (hA.mono (by decide)) ?_
    | with_reducible refine State.upJoined_keeps hP (hA.mono (by decide)) ?_
    | with_reducible refine State.modSwarm_keeps hP (hA.mono (by decide)) ?_
    | with_reducible refine State.setFld_unit hP (hA.mono (by decide)) (by first | omega | (simp only [tbPage, jrnlPage, svcPage, swarmPage, eslPage, dmaPage, synPage, domPage, linkPage, dmacPage, chPage, regPage, blkPage, bankPage]; omega)) ?_
    | with_reducible refine State.showMember_keeps hP (hA.mono (by decide)) ?_
    | fail_if_no_progress beta_reduce
    | with_reducible refine keeps_ite ?_ ?_
    | split
    | with_reducible refine keeps_pair (by assumption) ?_
    | with_reducible refine keeps_pair₂ (by assumption) ?_

theorem State.helloRx_keeps (hP : Keeps A P) (hA : Sub 0xa008209288847ef A) {s : State} {p : Nat} {hd : Head} {h : Hello} (hs : P s) : P (State.helloRx s p hd h) := by
  unfold State.helloRx
  repeat' first
    | with_reducible assumption
    | lift_lets -underBinder
    | (intro x; revert x; refine keeps_let P ?_ (fun _ _ => ?_))
    | (intro x; clear_value x)
    | with_reducible refine State.badFrame_keeps hP (hA.mono (by decide)) ?_
    | with_reducible refine State.takeAck_keeps hP (hA.mono (by decide)) ?_
    | with_reducible refine hP.wr (hA.mono (by decide)) _ _ _ (by first | omega | (simp only [tbPage, jrnlPage, svcPage, swarmPage, eslPage, dmaPage, synPage, domPage, linkPage, dmacPage, chPage, regPage, blkPage, bankPage]; omega)) ?_
    | with_reducible refine State.setBit_unit hP (hA.mono (by decide)) (by first | omega | (simp only [tbPage, jrnlPage, svcPage, swarmPage, eslPage, dmaPage, synPage, domPage, linkPage, dmacPage, chPage, regPage, blkPage, bankPage]; omega)) ?_
    | with_reducible refine State.setFld_unit hP (hA.mono (by decide)) (by first | omega | (simp only [tbPage, jrnlPage, svcPage, swarmPage, eslPage, dmaPage, synPage, domPage, linkPage, dmacPage, chPage, regPage, blkPage, bankPage]; omega)) ?_
    | with_reducible refine State.modLink_keeps hP (hA.mono (by decide)) ?_
    | with_reducible refine State.hold_keeps hP (hA.mono (by decide)) ?_
    | with_reducible refine State.setLstate_keeps hP (hA.mono (by decide)) ?_
    | with_reducible refine State.helloDown_keeps hP (hA.mono (by decide)) ?_
    | with_reducible refine State.helloUp_keeps hP (hA.mono (by decide)) ?_
    | with_reducible refine State.drain_keeps hP (hA.mono (by decide)) ?_
    | fail_if_no_progress beta_reduce
    | with_reducible refine keeps_ite ?_ ?_
    | split
    | with_reducible refine keeps_pair (by assumption) ?_
    | with_reducible refine keeps_pair₂ (by assumption) ?_

theorem State.joinRx_keeps (hP : Keeps A P) (hA : Sub 0x2008000088003eb A) {s : State} {p : Nat} {hd : Head} {ordinal parent : BitVec 11} (hs : P s) : P (State.joinRx s p hd ordinal parent) := by
  unfold State.joinRx
  repeat' first
    | with_reducible assumption
    | lift_lets -underBinder
    | (intro x; revert x; refine keeps_let P ?_ (fun _ _ => ?_))
    | (intro x; clear_value x)
    | with_reducible refine State.receive_keeps hP (hA.mono (by decide)) ?_ (fun _ _ => ?_)
    | with_reducible refine State.takeOrdinal_keeps hP (hA.mono (by decide)) ?_
    | with_reducible refine State.sendReliable_keeps hP (hA.mono (by decide)) ?_
    | with_reducible refine State.modSwarm_keeps hP (hA.mono (by decide)) ?_
    | fail_if_no_progress beta_reduce
    | with_reducible refine keeps_ite ?_ ?_
    | split
    | with_reducible refine keeps_pair (by assumption) ?_
    | with_reducible refine keeps_pair₂ (by assumption) ?_

theorem State.joinReplyRx_keeps (hP : Keeps A P) (hA : Sub 0x2008001288007eb A) {s : State} {p : Nat} {hd : Head} {ordinal : BitVec 11} {ok engaged : Bool} (hs : P s) : P (State.joinReplyRx s p hd ordinal ok engaged) := by
  unfold State.joinReplyRx
  repeat' first
    | with_reducible assumption
    | lift_lets -underBinder
    | (intro x; revert x; refine keeps_let P ?_ (fun _ _ => ?_))
    | (intro x; clear_value x)
    | with_reducible refine State.receive_keeps hP (hA.mono (by decide)) ?_ (fun _ _ => ?_)
    | with_reducible refine State.modSwarm_keeps hP (hA.mono (by decide)) ?_
    | with_reducible refine State.upJoined_keeps hP (hA.mono (by decide)) ?_
    | with_reducible refine State.showMember_keeps hP (hA.mono (by decide)) ?_
    | with_reducible refine State.setFld_unit hP (hA.mono (by decide)) (by first | omega | (simp only [tbPage, jrnlPage, svcPage, swarmPage, eslPage, dmaPage, synPage, domPage, linkPage, dmacPage, chPage, regPage, blkPage, bankPage]; omega)) ?_
    | with_reducible refine State.setLstate_keeps hP (hA.mono (by decide)) ?_
    | with_reducible refine State.joinDone_keeps hP (hA.mono (by decide)) ?_
    | with_reducible refine State.sendReliable_keeps hP (hA.mono (by decide)) ?_
    | fail_if_no_progress beta_reduce
    | with_reducible refine keeps_ite ?_ ?_
    | split
    | with_reducible refine keeps_pair (by assumption) ?_
    | with_reducible refine keeps_pair₂ (by assumption) ?_

theorem State.lastUp_keeps (hP : Keeps A P) (hA : Sub 0x4 A) {s : State} {p : Nat} (hs : P s) : P (State.lastUp s p).2 := by
  unfold State.lastUp
  repeat' first
    | with_reducible assumption
    | with_reducible refine hP.drawn (hA.mono (by decide)) _ ?_
    | split
    | with_reducible refine keeps_pair (by assumption) ?_
    | with_reducible refine keeps_pair₂ (by assumption) ?_

theorem State.waggleSend_keeps (hP : Keeps A P) (hA : Sub 0x2000000088007ef A) {s : State} {p : Nat} {f : DTime} (hs : P s) : P (State.waggleSend s p f) := by
  unfold State.waggleSend
  repeat' first
    | with_reducible assumption
    | lift_lets -underBinder
    | (intro x; revert x; refine keeps_let P ?_ (fun _ _ => ?_))
    | (intro x; clear_value x)
    | with_reducible refine State.applyTb_keeps hP (hA.mono (by decide)) ?_
    | with_reducible refine State.lastUp_keeps hP (hA.mono (by decide)) ?_
    | with_reducible refine State.sendTiming_keeps hP (hA.mono (by decide)) ?_
    | with_reducible refine State.sendMark_keeps hP (hA.mono (by decide)) ?_
    | with_reducible refine keeps_ite ?_ ?_
    | split
    | with_reducible refine keeps_pair (by assumption) ?_
    | with_reducible refine keeps_pair₂ (by assumption) ?_

theorem State.markSend_keeps (hP : Keeps A P) (hA : Sub 0x2000000088003eb A) {s : State} {p : Nat} {f : DTime} (hs : P s) : P (State.markSend s p f) := by
  unfold State.markSend
  repeat' first
    | with_reducible assumption
    | with_reducible refine State.sendTiming_keeps hP (hA.mono (by decide)) ?_
    | with_reducible refine State.sendMark_keeps hP (hA.mono (by decide)) ?_
    | with_reducible refine keeps_ite ?_ ?_
    | split

theorem State.markRx_keeps (hP : Keeps A P) (hA : Sub 0x2008000088003eb A) {s : State} {p : Nat} {hd : Head} {a f : DTime} (hs : P s) : P (State.markRx s p hd a f) := by
  unfold State.markRx
  repeat' first
    | with_reducible assumption
    | with_reducible refine State.receive_keeps hP (hA.mono (by decide)) ?_ (fun _ _ => ?_)
    | with_reducible refine State.modLink_keeps hP (hA.mono (by decide)) ?_
    | with_reducible refine keeps_ite ?_ ?_
    | split

theorem State.stepDtime_keeps (hP : Keeps A P) (hA : Sub 0x2010003608003e9 A) {s : State} {cause : Nat} {t : DTime} {epoch : Nat} (hs : P s) : P (State.stepDtime s cause t epoch) := by
  unfold State.stepDtime
  repeat' first
    | with_reducible assumption
    | lift_lets -underBinder
    | (intro x; revert x; refine keeps_let P ?_ (fun _ _ => ?_))
    | (intro x; clear_value x)
    | with_reducible refine State.journalAt_keeps hP (hA.mono (by decide)) ?_
    | with_reducible refine State.shiftDoms_keeps hP (hA.mono (by decide)) ?_
    | with_reducible refine hP.modTimeAny (hA.mono (by decide)) ?_
    | with_reducible refine State.setFld_unit hP (hA.mono (by decide)) (by first | omega | (simp only [tbPage, jrnlPage, svcPage, swarmPage, eslPage, dmaPage, synPage, domPage, linkPage, dmacPage, chPage, regPage, blkPage, bankPage]; omega)) ?_
    | fail_if_no_progress beta_reduce
    | (rw [State.mk_mapTicks]; apply hP.mapTicks (hA.mono (by decide)))

theorem State.memberStep_keeps (hP : Keeps A P) (hA : Sub 0x2010003608003e9 A) {s : State} {cause : Nat} {e : Int} {epoch : Nat} (hs : P s) : P (State.memberStep s cause e epoch) := by
  unfold State.memberStep
  repeat' first
    | with_reducible assumption
    | lift_lets -underBinder
    | (intro x; revert x; refine keeps_let P ?_ (fun _ _ => ?_))
    | (intro x; clear_value x)
    | with_reducible refine State.stepDtime_keeps hP (hA.mono (by decide)) ?_
    | with_reducible refine State.post_unit hP (hA.mono (by decide)) (by first | omega | (simp only [tbPage, jrnlPage, svcPage, swarmPage, eslPage, dmaPage, synPage, domPage, linkPage, dmacPage, chPage, regPage, blkPage, bankPage]; omega)) ?_
    | with_reducible refine State.setPair_unit hP (hA.mono (by decide)) (by first | omega | (simp only [tbPage, jrnlPage, svcPage, swarmPage, eslPage, dmaPage, synPage, domPage, linkPage, dmacPage, chPage, regPage, blkPage, bankPage]; omega)) ?_

theorem State.acquisitionStep_keeps (hP : Keeps A P) (hA : Sub 0x2018003608003e9 A) {s : State} (hs : P s) : P (State.acquisitionStep s) := by
  unfold State.acquisitionStep
  repeat' first
    | with_reducible assumption
    | lift_lets -underBinder
    | (intro x; revert x; refine keeps_let P ?_ (fun _ _ => ?_))
    | (intro x; clear_value x)
    | with_reducible refine State.memberStep_keeps hP (hA.mono (by decide)) ?_
    | with_reducible refine State.modSwarm_keeps hP (hA.mono (by decide)) ?_
    | with_reducible refine keeps_foldl _ (fun _ _ _ => ?_) ?_
    | fail_if_no_progress beta_reduce
    | with_reducible refine keeps_ite ?_ ?_
    | split

theorem State.alignedReached_keeps (hP : Keeps A P) (hA : Sub 0x2008001288007eb A) {s : State} (hs : P s) : P (State.alignedReached s) := by
  unfold State.alignedReached
  repeat' first
    | with_reducible assumption
    | lift_lets -underBinder
    | (intro x; revert x; refine keeps_let P ?_ (fun _ _ => ?_))
    | (intro x; clear_value x)
    | with_reducible refine State.modSwarm_keeps hP (hA.mono (by decide)) ?_
    | with_reducible refine State.setAlign_keeps hP (hA.mono (by decide)) ?_
    | with_reducible refine State.post_unit hP (hA.mono (by decide)) (by first | omega | (simp only [tbPage, jrnlPage, svcPage, swarmPage, eslPage, dmaPage, synPage, domPage, linkPage, dmacPage, chPage, regPage, blkPage, bankPage]; omega)) ?_
    | with_reducible refine State.showDoms_keeps hP (hA.mono (by decide)) ?_
    | with_reducible refine State.showMember_keeps hP (hA.mono (by decide)) ?_
    | with_reducible refine State.setFld_unit hP (hA.mono (by decide)) (by first | omega | (simp only [tbPage, jrnlPage, svcPage, swarmPage, eslPage, dmaPage, synPage, domPage, linkPage, dmacPage, chPage, regPage, blkPage, bankPage]; omega)) ?_
    | with_reducible refine State.raiseEvent_keeps hP (hA.mono (by decide)) ?_
    | fail_if_no_progress beta_reduce
    | with_reducible refine keeps_ite ?_ ?_
    | split

theorem State.newDelay_keeps (hP : Keeps A P) (hA : Sub 0x8000001 A) {s : State} {p : Nat} {aDown aUp : BitVec 64} (hs : P s) : P (State.newDelay s p aDown aUp) := by
  unfold State.newDelay
  repeat' first
    | with_reducible assumption
    | lift_lets -underBinder
    | (intro x; revert x; refine keeps_let P ?_ (fun _ _ => ?_))
    | (intro x; clear_value x)
    | with_reducible refine State.setFld_unit hP (hA.mono (by decide)) (by first | omega | (simp only [tbPage, jrnlPage, svcPage, swarmPage, eslPage, dmaPage, synPage, domPage, linkPage, dmacPage, chPage, regPage, blkPage, bankPage]; omega)) ?_
    | with_reducible refine State.modLink_keeps hP (hA.mono (by decide)) ?_
    | with_reducible refine keeps_foldl _ (fun _ _ _ => ?_) ?_
    | fail_if_no_progress beta_reduce

theorem State.filterError_keeps (hP : Keeps A P) (hA : Sub 0x800000000001 A) {s : State} {e : Int} (hs : P s) : P (State.filterError s e) := by
  unfold State.filterError
  repeat' first
    | with_reducible assumption
    | lift_lets -underBinder
    | (intro x; revert x; refine keeps_let P ?_ (fun _ _ => ?_))
    | (intro x; clear_value x)
    | with_reducible refine State.modSwarm_keeps hP (hA.mono (by decide)) ?_
    | with_reducible refine hP.wr (hA.mono (by decide)) _ _ _ (by first | omega | (simp only [tbPage, jrnlPage, svcPage, swarmPage, eslPage, dmaPage, synPage, domPage, linkPage, dmacPage, chPage, regPage, blkPage, bankPage]; omega)) ?_
    | fail_if_no_progress beta_reduce
    | with_reducible refine keeps_ite ?_ ?_
    | split

theorem State.useError_keeps (hP : Keeps A P) (hA : Sub 0xa01820b688847ef A) {s : State} {p : Nat} {w : Waggle} {e : Int} (hs : P s) : P (State.useError s p w e) := by
  unfold State.useError
  repeat' first
    | with_reducible assumption
    | lift_lets -underBinder
    | (intro x; revert x; refine keeps_let P ?_ (fun _ _ => ?_))
    | (intro x; clear_value x)
    | with_reducible refine State.filterError_keeps hP (hA.mono (by decide)) ?_
    | with_reducible refine State.enterHoldover_keeps hP (hA.mono (by decide)) ?_
    | with_reducible refine State.tryAcquire_keeps hP (hA.mono (by decide)) ?_
    | with_reducible refine State.modSwarm_keeps hP (hA.mono (by decide)) ?_
    | with_reducible refine State.post_unit hP (hA.mono (by decide)) (by first | omega | (simp only [tbPage, jrnlPage, svcPage, swarmPage, eslPage, dmaPage, synPage, domPage, linkPage, dmacPage, chPage, regPage, blkPage, bankPage]; omega)) ?_
    | with_reducible refine State.setAlign_keeps hP (hA.mono (by decide)) ?_
    | with_reducible refine State.raiseEvent_keeps hP (hA.mono (by decide)) ?_
    | with_reducible refine State.memberStep_keeps hP (hA.mono (by decide)) ?_
    | fail_if_no_progress beta_reduce
    | with_reducible refine keeps_ite ?_ ?_
    | split

theorem State.waggleRx_keeps (hP : Keeps A P) (hA : Sub 0xa01820b688847ef A) {s : State} {p : Nat} {hd : Head} {a : DTime} {w : Waggle} (hs : P s) : P (State.waggleRx s p hd a w) := by
  unfold State.waggleRx
  repeat' first
    | with_reducible assumption
    | lift_lets -underBinder
    | (intro x; revert x; refine keeps_let P ?_ (fun _ _ => ?_))
    | (intro x; clear_value x)
    | with_reducible refine State.receive_keeps hP (hA.mono (by decide)) ?_ (fun _ _ => ?_)
    | with_reducible refine State.newDelay_keeps hP (hA.mono (by decide)) ?_
    | with_reducible refine State.modSwarm_keeps hP (hA.mono (by decide)) ?_
    | with_reducible refine State.applyTb_keeps hP (hA.mono (by decide)) ?_
    | with_reducible refine State.setFld_unit hP (hA.mono (by decide)) (by first | omega | (simp only [tbPage, jrnlPage, svcPage, swarmPage, eslPage, dmaPage, synPage, domPage, linkPage, dmacPage, chPage, regPage, blkPage, bankPage]; omega)) ?_
    | with_reducible refine State.useError_keeps hP (hA.mono (by decide)) ?_
    | with_reducible refine State.carry_keeps hP (hA.mono (by decide)) ?_
    | with_reducible refine State.activeTo_keeps hP (hA.mono (by decide)) ?_
    | fail_if_no_progress beta_reduce
    | with_reducible refine keeps_ite ?_ ?_
    | split

theorem State.neighbourSleeps_keeps (hP : Keeps A P) (hA : Sub 0x2008000388007eb A) {s : State} {p : Nat} (hs : P s) : P (State.neighbourSleeps s p) := by
  unfold State.neighbourSleeps
  repeat' first
    | with_reducible assumption
    | lift_lets -underBinder
    | (intro x; revert x; refine keeps_let P ?_ (fun _ _ => ?_))
    | (intro x; clear_value x)
    | with_reducible refine hP.link (hA.mono (by decide)) _ _ _ ?_
    | with_reducible refine State.setLstate_keeps hP (hA.mono (by decide)) ?_
    | with_reducible refine State.reask_keeps hP (hA.mono (by decide)) ?_
    | with_reducible refine State.loseLines_keeps hP (hA.mono (by decide)) ?_
    | with_reducible refine State.showMember_keeps hP (hA.mono (by decide)) ?_
    | with_reducible refine State.unreach_keeps hP (hA.mono (by decide)) ?_

theorem State.eventRx_keeps (hP : Keeps A P) (hA : Sub 0x2008008388007eb A) {s : State} {p : Nat} {hd : Head} {e : SwarmEvent} (hs : P s) : P (State.eventRx s p hd e) := by
  unfold State.eventRx
  repeat' first
    | with_reducible assumption
    | lift_lets -underBinder
    | (intro x; revert x; refine keeps_let P ?_ (fun _ _ => ?_))
    | (intro x; clear_value x)
    | with_reducible refine State.receive_keeps hP (hA.mono (by decide)) ?_ (fun _ _ => ?_)
    | with_reducible refine State.modSwarm_keeps hP (hA.mono (by decide)) ?_
    | with_reducible refine State.eventRecord_keeps hP (hA.mono (by decide)) ?_
    | with_reducible refine State.flood_keeps hP (hA.mono (by decide)) ?_
    | with_reducible refine State.freeOrdinal_keeps hP (hA.mono (by decide)) ?_
    | with_reducible refine State.post_unit hP (hA.mono (by decide)) (by first | omega | (simp only [tbPage, jrnlPage, svcPage, swarmPage, eslPage, dmaPage, synPage, domPage, linkPage, dmacPage, chPage, regPage, blkPage, bankPage]; omega)) ?_
    | with_reducible refine State.neighbourSleeps_keeps hP (hA.mono (by decide)) ?_
    | fail_if_no_progress beta_reduce
    | with_reducible refine keeps_ite ?_ ?_
    | split
    | (rw [State.mk_run]; apply hP.run (hA.mono (by decide)))

end Sys2Proof.Machine
end

