-- ==== Sys2Proof/Laws/EffectsTime.lean ====
section
/-! SUPPORT. The effects of each operation of Machine/ (Command.lean, Lent.lean, Arbiter.lean, Synth.lean, Time.lean): the primitive changes it may make, as a mask. -/
namespace Sys2Proof.Machine
open Sys2Proof
set_option linter.unusedTactic false
set_option linter.unreachableTactic false
set_option linter.unusedVariables false
set_option linter.unusedSimpArgs false
variable {A : Nat} {P : State → Prop}

theorem State.setStatus_keeps (hP : Keeps A P) (hA : Sub 0x3 A) {s : State} {code outcome id cause : Nat} (hs : P s) : P (State.setStatus s code outcome id cause) := by
  unfold State.setStatus
  repeat' first
    | with_reducible assumption
    | with_reducible refine hP.wrAny (hA.mono (by decide)) _ _ _ ?_

theorem State.endPending_keeps (hP : Keeps A P) (hA : Sub 0x2000008008003eb A) {s : State} {outcome cause : Nat} (hs : P s) : P (State.endPending s outcome cause) := by
  unfold State.endPending
  repeat' first
    | with_reducible assumption
    | lift_lets -underBinder
    | (intro x; revert x; refine keeps_let P ?_ (fun _ _ => ?_))
    | (intro x; clear_value x)
    | with_reducible refine State.post_keeps hP (hA.mono (by decide)) ?_
    | with_reducible refine State.setStatus_keeps hP (hA.mono (by decide)) ?_
    | with_reducible refine State.journalAt_keeps hP (hA.mono (by decide)) ?_
    | with_reducible refine keeps_ite ?_ ?_
    | split
    | (rw [State.mk_run]; apply hP.run (hA.mono (by decide)))
    | with_reducible refine keeps_pair (by assumption) ?_
    | with_reducible refine keeps_pair₂ (by assumption) ?_

theorem State.doArm_keeps (hP : Keeps A P) (hA : Sub 0x1a002278149347ef A) {s : State} {a : Agent} (hs : P s) : P (State.doArm s a) := by
  unfold State.doArm
  repeat' first
    | with_reducible assumption
    | with_reducible refine State.setRunState_keeps hP (hA.mono (by decide)) ?_
    | with_reducible refine State.armUnits_keeps hP (hA.mono (by decide)) ?_

theorem State.doStart_keeps (hP : Keeps A P) (hA : Sub 0xa0042080380c7ef A) {s : State} {at_ : Option DTime} {a : Agent} (hs : P s) : P (State.doStart s at_ a) := by
  unfold State.doStart
  repeat' first
    | with_reducible assumption
    | with_reducible refine State.setRunState_keeps hP (hA.mono (by decide)) ?_
    | with_reducible refine State.startUnits_keeps hP (hA.mono (by decide)) ?_

theorem State.doStop_keeps (hP : Keeps A P) (hA : Sub 0xa000218008847ef A) {s : State} {a : Agent} {internal : Bool} (hs : P s) : P (State.doStop s a internal) := by
  unfold State.doStop
  repeat' first
    | with_reducible assumption
    | lift_lets -underBinder
    | (intro x; revert x; refine keeps_let P ?_ (fun _ _ => ?_))
    | (intro x; clear_value x)
    | with_reducible refine State.forEach_keeps hP (hA.mono (by decide)) ?_ (fun _ _ _ => ?_)
    | with_reducible refine State.closeRun_keeps hP (hA.mono (by decide)) ?_
    | with_reducible refine State.setRunState_keeps hP (hA.mono (by decide)) ?_
    | with_reducible refine State.settleStop_keeps hP (hA.mono (by decide)) ?_
    | with_reducible refine State.stopUnits_keeps hP (hA.mono (by decide)) ?_
    | fail_if_no_progress beta_reduce
    | split
    | (rw [State.mk_recordingRegions]; apply hP.recordingRegions (hA.mono (by decide)))
    | with_reducible refine keeps_pair (by assumption) ?_
    | with_reducible refine keeps_pair₂ (by assumption) ?_

theorem State.doAbort_keeps (hP : Keeps A P) (hA : Sub 0xa000218048947ef A) {s : State} {a : Agent} {internal : Bool} (hs : P s) : P (State.doAbort s a internal) := by
  unfold State.doAbort
  repeat' first
    | with_reducible assumption
    | lift_lets -underBinder
    | (intro x; revert x; refine keeps_let P ?_ (fun _ _ => ?_))
    | (intro x; clear_value x)
    | with_reducible refine State.abortUnits_keeps hP (hA.mono (by decide)) ?_
    | with_reducible refine State.setRunState_keeps hP (hA.mono (by decide)) ?_
    | with_reducible refine keeps_ite ?_ ?_
    | split

theorem State.sendCommand_keeps (hP : Keeps A P) (hA : Sub 0x2008000088003eb A) {s : State} {c : SwarmCmd} {up : Bool} {origin : BitVec 11} {hops : BitVec 5} {own : SwarmReply} (hs : P s) : P (State.sendCommand s c up origin hops own) := by
  unfold State.sendCommand
  repeat' first
    | with_reducible assumption
    | lift_lets -underBinder
    | (intro x; revert x; refine keeps_let P ?_ (fun _ _ => ?_))
    | (intro x; clear_value x)
    | with_reducible refine State.forEach_keeps hP (hA.mono (by decide)) ?_ (fun _ _ _ => ?_)
    | with_reducible refine State.sendReliable_keeps hP (hA.mono (by decide)) ?_
    | with_reducible refine State.modSwarm_keeps hP (hA.mono (by decide)) ?_
    | with_reducible refine hP.wr (hA.mono (by decide)) _ _ _ (by first | omega | (simp only [tbPage, jrnlPage, svcPage, swarmPage, eslPage, dmaPage, synPage, domPage, linkPage, dmacPage, chPage, regPage, blkPage, bankPage]; omega)) ?_
    | fail_if_no_progress beta_reduce
    | with_reducible refine keeps_ite ?_ ?_
    | split

theorem State.issue_keeps (hP : Keeps A P) (hA : Sub 0x2008000088003eb A) {s : State} {code : Nat} {start : DTime} (hs : P s) : P (State.issue s code start) := by
  unfold State.issue
  repeat' first
    | with_reducible assumption
    | lift_lets -underBinder
    | (intro x; revert x; refine keeps_let P ?_ (fun _ _ => ?_))
    | (intro x; clear_value x)
    | with_reducible refine State.sendCommand_keeps hP (hA.mono (by decide)) ?_
    | with_reducible refine State.modSwarm_keeps hP (hA.mono (by decide)) ?_
    | fail_if_no_progress beta_reduce

theorem State.queenDecides_keeps (hP : Keeps A P) (hA : Sub 0x1a00a2781c9b47ef A) {s : State} {c : SwarmCmd} {r : SwarmReply} (hs : P s) : P (State.queenDecides s c r) := by
  unfold State.queenDecides
  repeat' first
    | with_reducible assumption
    | lift_lets -underBinder
    | (intro x; revert x; refine keeps_let P ?_ (fun _ _ => ?_))
    | (intro x; clear_value x)
    | with_reducible refine State.modSwarm_keeps hP (hA.mono (by decide)) ?_
    | with_reducible refine State.doArm_keeps hP (hA.mono (by decide)) ?_
    | with_reducible refine State.endPending_keeps hP (hA.mono (by decide)) ?_
    | with_reducible refine State.raise_keeps hP (hA.mono (by decide)) ?_
    | with_reducible refine State.issue_keeps hP (hA.mono (by decide)) ?_
    | with_reducible refine State.unitEvent_keeps hP (hA.mono (by decide)) ?_
    | with_reducible refine hP.wrAny (hA.mono (by decide)) _ _ _ ?_
    | with_reducible refine State.doAbort_keeps hP (hA.mono (by decide)) ?_
    | fail_if_no_progress beta_reduce
    | with_reducible refine keeps_ite ?_ ?_
    | split

theorem State.finishRun_keeps (hP : Keeps A P) (hA : Sub 0x2008000088003eb A) {s : State} {run : CmdRun} (hs : P s) : P (State.finishRun s run) := by
  unfold State.finishRun
  repeat' first
    | with_reducible assumption
    | lift_lets -underBinder
    | (intro x; revert x; refine keeps_let P ?_ (fun _ _ => ?_))
    | (intro x; clear_value x)
    | with_reducible refine State.modSwarm_keeps hP (hA.mono (by decide)) ?_
    | with_reducible refine State.post_unit hP (hA.mono (by decide)) (by first | omega | (simp only [tbPage, jrnlPage, svcPage, swarmPage, eslPage, dmaPage, synPage, domPage, linkPage, dmacPage, chPage, regPage, blkPage, bankPage]; omega)) ?_
    | with_reducible refine State.setFld_unit hP (hA.mono (by decide)) (by first | omega | (simp only [tbPage, jrnlPage, svcPage, swarmPage, eslPage, dmaPage, synPage, domPage, linkPage, dmacPage, chPage, regPage, blkPage, bankPage]; omega)) ?_
    | with_reducible refine State.sendReliable_keeps hP (hA.mono (by decide)) ?_
    | fail_if_no_progress beta_reduce
    | with_reducible refine keeps_ite ?_ ?_
    | split

theorem State.finishRuns_keeps (hP : Keeps A P) (hA : Sub 0x1a00a2781c9b47ef A) {s : State} {l0 : Nat} (hs : P s) : P (State.finishRuns s l0) := by
  induction l0 generalizing s with
  | zero =>
    unfold State.finishRuns
    repeat' first
      | with_reducible assumption
      | lift_lets -underBinder
      | (intro x; revert x; refine keeps_let P ?_ (fun _ _ => ?_))
      | (intro x; clear_value x)
      | with_reducible refine State.finishRun_keeps hP (hA.mono (by decide)) ?_
      | with_reducible refine State.queenDecides_keeps hP (hA.mono (by decide)) ?_
      | fail_if_no_progress beta_reduce
      | with_reducible refine keeps_ite ?_ ?_
      | split
      | with_reducible refine keeps_pair (by assumption) ?_
      | with_reducible refine keeps_pair₂ (by assumption) ?_
  | succ m ih =>
    unfold State.finishRuns
    repeat' first
      | with_reducible assumption
      | lift_lets -underBinder
      | (intro x; revert x; refine keeps_let P ?_ (fun _ _ => ?_))
      | (intro x; clear_value x)
      | with_reducible refine ih ?_
      | with_reducible refine State.finishRun_keeps hP (hA.mono (by decide)) ?_
      | with_reducible refine State.queenDecides_keeps hP (hA.mono (by decide)) ?_
      | fail_if_no_progress beta_reduce
      | with_reducible refine keeps_ite ?_ ?_
      | split
      | with_reducible refine keeps_pair (by assumption) ?_
      | with_reducible refine keeps_pair₂ (by assumption) ?_

theorem State.settleRuns_keeps (hP : Keeps A P) (hA : Sub 0x1a00a2781c9b47ef A) {s : State} (hs : P s) : P (State.settleRuns s) := by
  unfold State.settleRuns
  repeat' first
    | with_reducible assumption
    | with_reducible refine State.finishRuns_keeps hP (hA.mono (by decide)) ?_

theorem State.carryOut_keeps (hP : Keeps A P) (hA : Sub 0x1a00e2781f9bc7ef A) {s : State} {c : SwarmCmd} (hs : P s) : P (State.carryOut s c).2 := by
  unfold State.carryOut
  dsimp only
  repeat' first
    | with_reducible assumption
    | lift_lets -underBinder
    | (intro x; revert x; refine keeps_let P ?_ (fun _ _ => ?_))
    | (intro x; clear_value x)
    | with_reducible refine State.journalAt_keeps hP (hA.mono (by decide)) ?_
    | with_reducible refine State.refuseArm_keeps hP (hA.mono (by decide)) ?_
    | with_reducible refine State.raiseEvent_keeps hP (hA.mono (by decide)) ?_
    | with_reducible refine State.raise_unit hP (hA.mono (by decide)) (by first | omega | (simp only [tbPage, jrnlPage, svcPage, swarmPage, eslPage, dmaPage, synPage, domPage, linkPage, dmacPage, chPage, regPage, blkPage, bankPage]; omega)) ?_
    | with_reducible refine State.doArm_keeps hP (hA.mono (by decide)) ?_
    | with_reducible refine State.doStart_keeps hP (hA.mono (by decide)) ?_
    | with_reducible refine State.doStop_keeps hP (hA.mono (by decide)) ?_
    | with_reducible refine State.doAbort_keeps hP (hA.mono (by decide)) ?_
    | fail_if_no_progress beta_reduce
    | with_reducible refine keeps_ite ?_ ?_
    | split
    | with_reducible refine keeps_pair (by assumption) ?_
    | with_reducible refine keeps_pair₂ (by assumption) ?_

theorem State.takeCommand_keeps (hP : Keeps A P) (hA : Sub 0x1a00e2781f9bc7ef A) {s : State} {origin : BitVec 11} {hops : BitVec 5} {c : SwarmCmd} (hs : P s) : P (State.takeCommand s origin hops c) := by
  unfold State.takeCommand
  repeat' first
    | with_reducible assumption
    | with_reducible refine State.carryOut_keeps hP (hA.mono (by decide)) ?_
    | with_reducible refine State.sendCommand_keeps hP (hA.mono (by decide)) ?_
    | with_reducible refine State.settleRuns_keeps hP (hA.mono (by decide)) ?_
    | with_reducible refine State.modSwarm_keeps hP (hA.mono (by decide)) ?_
    | with_reducible refine keeps_ite ?_ ?_
    | split
    | with_reducible refine keeps_pair (by assumption) ?_
    | with_reducible refine keeps_pair₂ (by assumption) ?_

theorem State.commandRx_keeps (hP : Keeps A P) (hA : Sub 0x1a00e2781f9bc7ef A) {s : State} {p : Nat} {hd : Head} {c : SwarmCmd} (hs : P s) : P (State.commandRx s p hd c) := by
  unfold State.commandRx
  repeat' first
    | with_reducible assumption
    | lift_lets -underBinder
    | (intro x; revert x; refine keeps_let P ?_ (fun _ _ => ?_))
    | (intro x; clear_value x)
    | with_reducible refine State.receive_keeps hP (hA.mono (by decide)) ?_ (fun _ _ => ?_)
    | with_reducible refine State.addSat_unit hP (hA.mono (by decide)) (by first | omega | (simp only [tbPage, jrnlPage, svcPage, swarmPage, eslPage, dmaPage, synPage, domPage, linkPage, dmacPage, chPage, regPage, blkPage, bankPage]; omega)) ?_
    | with_reducible refine State.sendReliable_keeps hP (hA.mono (by decide)) ?_
    | with_reducible refine State.setFld_unit hP (hA.mono (by decide)) (by first | omega | (simp only [tbPage, jrnlPage, svcPage, swarmPage, eslPage, dmaPage, synPage, domPage, linkPage, dmacPage, chPage, regPage, blkPage, bankPage]; omega)) ?_
    | with_reducible refine State.takeCommand_keeps hP (hA.mono (by decide)) ?_
    | fail_if_no_progress beta_reduce
    | with_reducible refine keeps_ite ?_ ?_
    | split
    | (rw [State.mk_run]; apply hP.run (hA.mono (by decide)))
    | with_reducible refine keeps_pair (by assumption) ?_
    | with_reducible refine keeps_pair₂ (by assumption) ?_

theorem State.replyRx_keeps (hP : Keeps A P) (hA : Sub 0x1a00a2781c9b47ef A) {s : State} {p : Nat} {hd : Head} {r : SwarmReply} (hs : P s) : P (State.replyRx s p hd r) := by
  unfold State.replyRx
  repeat' first
    | with_reducible assumption
    | lift_lets -underBinder
    | (intro x; revert x; refine keeps_let P ?_ (fun _ _ => ?_))
    | (intro x; clear_value x)
    | with_reducible refine State.receive_keeps hP (hA.mono (by decide)) ?_ (fun _ _ => ?_)
    | with_reducible refine State.modSwarm_keeps hP (hA.mono (by decide)) ?_
    | with_reducible refine State.quarantine_keeps hP (hA.mono (by decide)) ?_
    | with_reducible refine State.settleRuns_keeps hP (hA.mono (by decide)) ?_
    | fail_if_no_progress beta_reduce
    | with_reducible refine keeps_ite ?_ ?_
    | split
    | with_reducible refine keeps_pair (by assumption) ?_
    | with_reducible refine keeps_pair₂ (by assumption) ?_

theorem State.cmdTimeout_keeps (hP : Keeps A P) (hA : Sub 0x1a00a2781c9b47ef A) {s : State} {p : Nat} (hs : P s) : P (State.cmdTimeout s p) := by
  unfold State.cmdTimeout
  repeat' first
    | with_reducible assumption
    | lift_lets -underBinder
    | (intro x; revert x; refine keeps_let P ?_ (fun _ _ => ?_))
    | (intro x; clear_value x)
    | with_reducible refine State.raise_unit hP (hA.mono (by decide)) (by first | omega | (simp only [tbPage, jrnlPage, svcPage, swarmPage, eslPage, dmaPage, synPage, domPage, linkPage, dmacPage, chPage, regPage, blkPage, bankPage]; omega)) ?_
    | with_reducible refine State.addSat_unit hP (hA.mono (by decide)) (by first | omega | (simp only [tbPage, jrnlPage, svcPage, swarmPage, eslPage, dmaPage, synPage, domPage, linkPage, dmacPage, chPage, regPage, blkPage, bankPage]; omega)) ?_
    | with_reducible refine State.raiseEvent_keeps hP (hA.mono (by decide)) ?_
    | with_reducible refine State.settleRuns_keeps hP (hA.mono (by decide)) ?_
    | with_reducible refine State.modSwarm_keeps hP (hA.mono (by decide)) ?_
    | fail_if_no_progress beta_reduce
    | with_reducible refine keeps_ite ?_ ?_
    | split
    | with_reducible refine keeps_pair (by assumption) ?_
    | with_reducible refine keeps_pair₂ (by assumption) ?_

theorem State.runLocal_keeps (hP : Keeps A P) (hA : Sub 0x1a00e2781f9bc7ef A) {s : State} {code : Nat} {a : Agent} (hs : P s) : P (State.runLocal s code a) := by
  unfold State.runLocal
  repeat' first
    | with_reducible assumption
    | lift_lets -underBinder
    | (intro x; revert x; refine keeps_let P ?_ (fun _ _ => ?_))
    | (intro x; clear_value x)
    | with_reducible refine State.settleRuns_keeps hP (hA.mono (by decide)) ?_
    | with_reducible refine State.issue_keeps hP (hA.mono (by decide)) ?_
    | with_reducible refine State.doStart_keeps hP (hA.mono (by decide)) ?_
    | with_reducible refine State.doStop_keeps hP (hA.mono (by decide)) ?_
    | with_reducible refine State.doAbort_keeps hP (hA.mono (by decide)) ?_
    | with_reducible refine keeps_ite ?_ ?_
    | split
    | with_reducible refine keeps_pair (by assumption) ?_
    | with_reducible refine keeps_pair₂ (by assumption) ?_

theorem State.armLocal_keeps (hP : Keeps A P) (hA : Sub 0x1a002278149347ef A) {s : State} {a : Agent} (hs : P s) : P (State.armLocal s a).2 := by
  unfold State.armLocal
  repeat' first
    | with_reducible assumption
    | with_reducible refine State.refuseArm_keeps hP (hA.mono (by decide)) ?_
    | with_reducible refine State.doArm_keeps hP (hA.mono (by decide)) ?_
    | with_reducible refine keeps_ite ?_ ?_
    | split
    | with_reducible refine keeps_pair (by assumption) ?_
    | with_reducible refine keeps_pair₂ (by assumption) ?_

theorem State.armSwarm_keeps (hP : Keeps A P) (hA : Sub 0x1a00a2781c9b47ef A) {s : State} (hs : P s) : P (State.armSwarm s) := by
  unfold State.armSwarm
  repeat' first
    | with_reducible assumption
    | with_reducible refine State.settleRuns_keeps hP (hA.mono (by decide)) ?_
    | with_reducible refine State.issue_keeps hP (hA.mono (by decide)) ?_
    | with_reducible refine State.modSwarm_keeps hP (hA.mono (by decide)) ?_

theorem State.abortArm_keeps (hP : Keeps A P) (hA : Sub 0x1a00a2781c9b47ef A) {s : State} (hs : P s) : P (State.abortArm s) := by
  unfold State.abortArm
  repeat' first
    | with_reducible assumption
    | lift_lets -underBinder
    | (intro x; revert x; refine keeps_let P ?_ (fun _ _ => ?_))
    | (intro x; clear_value x)
    | with_reducible refine State.raise_keeps hP (hA.mono (by decide)) ?_
    | with_reducible refine State.modSwarm_keeps hP (hA.mono (by decide)) ?_
    | with_reducible refine State.settleRuns_keeps hP (hA.mono (by decide)) ?_
    | with_reducible refine State.issue_keeps hP (hA.mono (by decide)) ?_
    | with_reducible refine State.endPending_keeps hP (hA.mono (by decide)) ?_
    | fail_if_no_progress beta_reduce

theorem State.endRun_keeps (hP : Keeps A P) (hA : Sub 0x1a00a2781c9b47ef A) {s : State} (hs : P s) : P (State.endRun s) := by
  unfold State.endRun
  repeat' first
    | with_reducible assumption
    | lift_lets -underBinder
    | (intro x; revert x; refine keeps_let P ?_ (fun _ _ => ?_))
    | (intro x; clear_value x)
    | with_reducible refine State.entry_keeps hP (hA.mono (by decide)) ?_
    | with_reducible refine State.raiseEvent_keeps hP (hA.mono (by decide)) ?_
    | with_reducible refine State.doStop_keeps hP (hA.mono (by decide)) ?_
    | with_reducible refine State.settleRuns_keeps hP (hA.mono (by decide)) ?_
    | with_reducible refine State.issue_keeps hP (hA.mono (by decide)) ?_
    | with_reducible refine keeps_ite ?_ ?_
    | split
    | (rw [State.mk_run]; apply hP.run (hA.mono (by decide)))
    | with_reducible refine keeps_pair (by assumption) ?_
    | with_reducible refine keeps_pair₂ (by assumption) ?_

theorem State.settle_keeps (hP : Keeps A P) (hA : Sub 0x1a00a2781c9b47ef A) {s : State} (hs : P s) : P (State.settle s) := by
  unfold State.settle
  repeat' first
    | with_reducible assumption
    | with_reducible refine State.settleStop_keeps hP (hA.mono (by decide)) ?_
    | with_reducible refine State.endRun_keeps hP (hA.mono (by decide)) ?_

theorem State.remAsk_keeps (hP : Keeps A P) (hA : Sub 0x2008000188003eb A) {s : State} {n : Nat} (hs : P s) : P (State.remAsk s n) := by
  unfold State.remAsk
  repeat' first
    | with_reducible assumption
    | lift_lets -underBinder
    | (intro x; revert x; refine keeps_let P ?_ (fun _ _ => ?_))
    | (intro x; clear_value x)
    | with_reducible refine State.showStall_keeps hP (hA.mono (by decide)) ?_
    | with_reducible refine hP.remote (hA.mono (by decide)) _ _ _ ?_
    | with_reducible refine State.sendReliable_keeps hP (hA.mono (by decide)) ?_

theorem State.remEnter_keeps (hP : Keeps A P) (hA : Sub 0x2008000188003eb A) {s : State} {n : Nat} (hs : P s) : P (State.remEnter s n) := by
  unfold State.remEnter
  repeat' first
    | with_reducible assumption
    | with_reducible refine State.remAsk_keeps hP (hA.mono (by decide)) ?_
    | with_reducible refine State.showStall_keeps hP (hA.mono (by decide)) ?_
    | with_reducible refine keeps_ite ?_ ?_
    | split

theorem State.lentRetry_keeps (hP : Keeps A P) (hA : Sub 0x2008000188003eb A) {s : State} {n : Nat} (hs : P s) : P (State.lentRetry s n) := by
  unfold State.lentRetry
  repeat' first
    | with_reducible assumption
    | with_reducible refine State.remAsk_keeps hP (hA.mono (by decide)) ?_
    | with_reducible refine keeps_ite ?_ ?_
    | split
    | with_reducible refine keeps_pair (by assumption) ?_
    | with_reducible refine keeps_pair₂ (by assumption) ?_

theorem State.remGranted_keeps (hP : Keeps A P) (hA : Sub 0x200000010000129 A) {s : State} {n : Nat} (hs : P s) : P (State.remGranted s n) := by
  unfold State.remGranted
  repeat' first
    | with_reducible assumption
    | lift_lets -underBinder
    | (intro x; revert x; refine keeps_let P ?_ (fun _ _ => ?_))
    | (intro x; clear_value x)
    | with_reducible refine hP.remote (hA.mono (by decide)) _ _ _ ?_
    | with_reducible refine hP.writer (hA.mono (by decide)) _ _ _ ?_
    | with_reducible refine State.post_unit hP (hA.mono (by decide)) (by first | omega | (simp only [tbPage, jrnlPage, svcPage, swarmPage, eslPage, dmaPage, synPage, domPage, linkPage, dmacPage, chPage, regPage, blkPage, bankPage]; omega)) ?_
    | with_reducible refine State.showStall_keeps hP (hA.mono (by decide)) ?_

theorem State.remReleased_keeps (hP : Keeps A P) (hA : Sub 0x2000000108001e9 A) {s : State} {n : Nat} (hs : P s) : P (State.remReleased s n) := by
  unfold State.remReleased
  repeat' first
    | with_reducible assumption
    | lift_lets -underBinder
    | (intro x; revert x; refine keeps_let P ?_ (fun _ _ => ?_))
    | (intro x; clear_value x)
    | with_reducible refine State.frozenFirst_keeps hP (hA.mono (by decide)) ?_
    | with_reducible refine State.frozenEnds_keeps hP (hA.mono (by decide)) ?_
    | with_reducible refine hP.remote (hA.mono (by decide)) _ _ _ ?_
    | with_reducible refine hP.writer (hA.mono (by decide)) _ _ _ ?_

theorem State.noteLent_keeps (hP : Keeps A P) (hA : Sub 0x8000000 A) {s : State} {p : Nat} (hs : P s) : P (State.noteLent s p) := by
  unfold State.noteLent
  repeat' first
    | with_reducible assumption
    | with_reducible refine State.modLink_keeps hP (hA.mono (by decide)) ?_

theorem State.remWrite_keeps (hP : Keeps A P) (hA : Sub 0x2008000088003eb A) {s : State} {n : Nat} {padOk : Bool} (hs : P s) : P (State.remWrite s n padOk) := by
  unfold State.remWrite
  repeat' first
    | with_reducible assumption
    | lift_lets -underBinder
    | (intro x; revert x; refine keeps_let P ?_ (fun _ _ => ?_))
    | (intro x; clear_value x)
    | with_reducible refine State.takeRec_keeps hP (hA.mono (by decide)) ?_
    | with_reducible refine hP.writer (hA.mono (by decide)) _ _ _ ?_
    | with_reducible refine State.sendReliable_keeps hP (hA.mono (by decide)) ?_
    | with_reducible refine State.ringFullEnds_keeps hP (hA.mono (by decide)) ?_
    | with_reducible refine State.addSat_unit hP (hA.mono (by decide)) (by first | omega | (simp only [tbPage, jrnlPage, svcPage, swarmPage, eslPage, dmaPage, synPage, domPage, linkPage, dmacPage, chPage, regPage, blkPage, bankPage]; omega)) ?_
    | with_reducible refine State.noteLent_keeps hP (hA.mono (by decide)) ?_
    | with_reducible refine keeps_ite ?_ ?_
    | split
    | with_reducible refine keeps_pair (by assumption) ?_
    | with_reducible refine keeps_pair₂ (by assumption) ?_

theorem State.writerLine_keeps (hP : Keeps A P) (hA : Sub 0x2008008088033ef A) {s : State} {i : Nat} (hs : P s) : P (State.writerLine s i) := by
  unfold State.writerLine
  repeat' first
    | with_reducible assumption
    | with_reducible refine State.remWrite_keeps hP (hA.mono (by decide)) ?_
    | with_reducible refine State.writeOne_keeps hP (hA.mono (by decide)) ?_
    | with_reducible refine keeps_ite ?_ ?_
    | split

theorem State.writerPad_keeps (hP : Keeps A P) (hA : Sub 0x2008008088033ef A) {s : State} {i : Nat} (hs : P s) : P (State.writerPad s i) := by
  unfold State.writerPad
  repeat' first
    | with_reducible assumption
    | lift_lets -underBinder
    | (intro x; revert x; refine keeps_let P ?_ (fun _ _ => ?_))
    | (intro x; clear_value x)
    | with_reducible refine State.remWrite_keeps hP (hA.mono (by decide)) ?_
    | with_reducible refine State.padTimeout_keeps hP (hA.mono (by decide)) ?_
    | with_reducible refine keeps_ite ?_ ?_
    | split

theorem State.writerEnter_keeps (hP : Keeps A P) (hA : Sub 0x2008000188003eb A) {s : State} {i : Nat} (hs : P s) : P (State.writerEnter s i) := by
  unfold State.writerEnter
  repeat' first
    | with_reducible assumption
    | with_reducible refine State.remEnter_keeps hP (hA.mono (by decide)) ?_
    | with_reducible refine State.enterGroup_keeps hP (hA.mono (by decide)) ?_
    | with_reducible refine keeps_ite ?_ ?_
    | split

theorem State.lentEnterRx_keeps (hP : Keeps A P) (hA : Sub 0x2008000088003eb A) {s : State} {p : Nat} {hd : Head} {bank : BitVec 8} {fill : BitVec 16} (hs : P s) : P (State.lentEnterRx s p hd bank fill) := by
  unfold State.lentEnterRx
  repeat' first
    | with_reducible assumption
    | lift_lets -underBinder
    | (intro x; revert x; refine keeps_let P ?_ (fun _ _ => ?_))
    | (intro x; clear_value x)
    | with_reducible refine State.receive_keeps hP (hA.mono (by decide)) ?_ (fun _ _ => ?_)
    | with_reducible refine State.forEach_keeps hP (hA.mono (by decide)) ?_ (fun _ _ _ => ?_)
    | with_reducible refine State.setFld_unit hP (hA.mono (by decide)) (by first | omega | (simp only [tbPage, jrnlPage, svcPage, swarmPage, eslPage, dmaPage, synPage, domPage, linkPage, dmacPage, chPage, regPage, blkPage, bankPage]; omega)) ?_
    | with_reducible refine State.setWptr_keeps hP (hA.mono (by decide)) ?_
    | with_reducible refine State.sendReliable_keeps hP (hA.mono (by decide)) ?_
    | fail_if_no_progress beta_reduce
    | with_reducible refine keeps_ite ?_ ?_
    | split

theorem State.lentWrite_keeps (hP : Keeps A P) (hA : Sub 0x2008000088033eb A) {s : State} {p bank line : Nat} {r0 r1 : Rec} (hs : P s) : P (State.lentWrite s p bank line r0 r1) := by
  unfold State.lentWrite
  repeat' first
    | with_reducible assumption
    | with_reducible refine State.sendReliable_keeps hP (hA.mono (by decide)) ?_
    | with_reducible refine State.violate_keeps hP (hA.mono (by decide)) ?_
    | with_reducible refine State.addSat_unit hP (hA.mono (by decide)) (by first | omega | (simp only [tbPage, jrnlPage, svcPage, swarmPage, eslPage, dmaPage, synPage, domPage, linkPage, dmacPage, chPage, regPage, blkPage, bankPage]; omega)) ?_
    | with_reducible refine State.setWptr_keeps hP (hA.mono (by decide)) ?_
    | with_reducible refine State.writeLine_keeps hP (hA.mono (by decide)) ?_
    | with_reducible refine keeps_ite ?_ ?_
    | split

theorem State.remFreeze_keeps (hP : Keeps A P) (hA : Sub 0x10000100 A) {s : State} {n : Nat} (hs : P s) : P (State.remFreeze s n) := by
  unfold State.remFreeze
  repeat' first
    | with_reducible assumption
    | with_reducible refine hP.writer (hA.mono (by decide)) _ _ _ ?_
    | with_reducible refine hP.remote (hA.mono (by decide)) _ _ _ ?_
    | with_reducible refine keeps_ite ?_ ?_
    | split

theorem State.lentGrantRx_keeps (hP : Keeps A P) (hA : Sub 0x2008000188003eb A) {s : State} {p : Nat} {hd : Head} {bank : BitVec 8} {ok : Bool} (hs : P s) : P (State.lentGrantRx s p hd bank ok) := by
  unfold State.lentGrantRx
  repeat' first
    | with_reducible assumption
    | with_reducible refine State.receive_keeps hP (hA.mono (by decide)) ?_ (fun _ _ => ?_)
    | with_reducible refine State.remGranted_keeps hP (hA.mono (by decide)) ?_
    | with_reducible refine hP.remote (hA.mono (by decide)) _ _ _ ?_
    | with_reducible refine State.forEach_keeps hP (hA.mono (by decide)) ?_ (fun _ _ _ => ?_)
    | with_reducible refine State.remReleased_keeps hP (hA.mono (by decide)) ?_
    | with_reducible refine State.remFreeze_keeps hP (hA.mono (by decide)) ?_
    | with_reducible refine keeps_ite ?_ ?_
    | split
    | with_reducible refine keeps_pair (by assumption) ?_
    | with_reducible refine keeps_pair₂ (by assumption) ?_

theorem State.releaseLent_keeps (hP : Keeps A P) (hA : Sub 0x2008000088003eb A) {s : State} {p : Nat} (hs : P s) : P (State.releaseLent s p) := by
  unfold State.releaseLent
  repeat' first
    | with_reducible assumption
    | with_reducible refine State.sendReliable_keeps hP (hA.mono (by decide)) ?_
    | with_reducible refine keeps_ite ?_ ?_
    | split

theorem State.useLanes_keeps (hP : Keeps A P) (hA : Sub 0x40000000000000 A) {s : State} {m n k : Nat} (hs : P s) : P (State.useLanes s m n k) := by
  unfold State.useLanes
  repeat' first
    | with_reducible assumption
    | lift_lets -underBinder
    | (intro x; revert x; refine keeps_let P ?_ (fun _ _ => ?_))
    | (intro x; clear_value x)
    | with_reducible refine hP.lane (hA.mono (by decide)) _ _ _ ?_
    | fail_if_no_progress beta_reduce
    | with_reducible refine keeps_ite ?_ ?_
    | split

theorem State.takeLanes_keeps (hP : Keeps A P) (hA : Sub 0x40000000000000 A) {s : State} {a : Access} (hs : P s) : P (State.takeLanes s a) := by
  unfold State.takeLanes
  repeat' first
    | with_reducible assumption
    | lift_lets -underBinder
    | (intro x; revert x; refine keeps_let P ?_ (fun _ _ => ?_))
    | (intro x; clear_value x)
    | with_reducible refine State.useLanes_keeps hP (hA.mono (by decide)) ?_
    | with_reducible refine keeps_foldl _ (fun _ _ _ => ?_) ?_
    | fail_if_no_progress beta_reduce

theorem State.perform_keeps (hP : Keeps A P) (hA : Sub 0x1b20a2781cfb77ff A) {s : State} {a : Access} (hs : P s) : P (State.perform s a).2 := by
  unfold State.perform
  repeat' first
    | with_reducible assumption
    | lift_lets -underBinder
    | (intro x; revert x; refine keeps_let P ?_ (fun _ _ => ?_))
    | (intro x; clear_value x)
    | with_reducible refine State.settle_keeps hP (hA.mono (by decide)) ?_
    | with_reducible refine State.writerPad_keeps hP (hA.mono (by decide)) ?_
    | with_reducible refine State.writerLine_keeps hP (hA.mono (by decide)) ?_
    | with_reducible refine State.bxferLine_keeps hP (hA.mono (by decide)) ?_
    | with_reducible refine State.dmaServe_keeps hP (hA.mono (by decide)) ?_
    | with_reducible refine State.dmaMove_keeps hP (hA.mono (by decide)) ?_
    | with_reducible refine State.fetchDone_keeps hP (hA.mono (by decide)) ?_
    | with_reducible refine State.readLast_keeps hP (hA.mono (by decide)) ?_
    | with_reducible refine State.bar2ReadHalves_keeps hP (hA.mono (by decide)) ?_
    | with_reducible refine hP.send (hA.mono (by decide)) _ _ ?_
    | with_reducible refine State.bar2Write_keeps hP (hA.mono (by decide)) ?_
    | with_reducible refine State.lentWrite_keeps hP (hA.mono (by decide)) ?_
    | with_reducible refine keeps_ite ?_ ?_
    | split
    | with_reducible refine keeps_pair (by assumption) ?_
    | with_reducible refine keeps_pair₂ (by assumption) ?_

theorem State.requestBanks_keeps (hP : Keeps A P) (hA : Sub 0x1b60a2781cfb77ff A) {s : State} {raised : Nat} {others : List Request} {l0 : Nat} {l1 : Access} (hs : P s) : P (State.requestBanks s raised others l0 l1) := by
  induction l0 generalizing s l1 with
  | zero =>
    unfold State.requestBanks
    repeat' first
      | with_reducible assumption
      | with_reducible refine State.perform_keeps hP (hA.mono (by decide)) ?_
      | with_reducible refine State.takeLanes_keeps hP (hA.mono (by decide)) ?_
      | with_reducible refine keeps_ite ?_ ?_
      | split
      | (rw [State.mk_reqs]; apply hP.reqs (hA.mono (by decide)))
      | with_reducible refine keeps_pair (by assumption) ?_
      | with_reducible refine keeps_pair₂ (by assumption) ?_
  | succ m ih =>
    unfold State.requestBanks
    repeat' first
      | with_reducible assumption
      | with_reducible refine ih ?_
      | with_reducible refine State.perform_keeps hP (hA.mono (by decide)) ?_
      | with_reducible refine State.takeLanes_keeps hP (hA.mono (by decide)) ?_
      | with_reducible refine keeps_ite ?_ ?_
      | split
      | (rw [State.mk_reqs]; apply hP.reqs (hA.mono (by decide)))
      | with_reducible refine keeps_pair (by assumption) ?_
      | with_reducible refine keeps_pair₂ (by assumption) ?_

theorem State.request_keeps (hP : Keeps A P) (hA : Sub 0x1b60a2781cfb77ff A) {s : State} {raised : Nat} {others : List Request} {a : Access} (hs : P s) : P (State.request s raised others a) := by
  unfold State.request
  repeat' first
    | with_reducible assumption
    | with_reducible refine State.requestBanks_keeps hP (hA.mono (by decide)) ?_

theorem State.ask_keeps (hP : Keeps A P) (hA : Sub 0x1b60a2781cfb77ff A) {s : State} {a : Access} (hs : P s) : P (State.ask s a) := by
  unfold State.ask
  repeat' first
    | with_reducible assumption
    | with_reducible refine State.request_keeps hP (hA.mono (by decide)) ?_

theorem State.dmaData_keeps (hP : Keeps A P) (hA : Sub 0x1b60a2781cfb77ff A) {s : State} {c i : Nat} {k : Completion} {bytes : List (BitVec 8)} (hs : P s) : P (State.dmaData s c i k bytes) := by
  unfold State.dmaData
  repeat' first
    | with_reducible assumption
    | lift_lets -underBinder
    | (intro x; revert x; refine keeps_let P ?_ (fun _ _ => ?_))
    | (intro x; clear_value x)
    | with_reducible refine State.dmaServe_keeps hP (hA.mono (by decide)) ?_
    | with_reducible refine State.dataArrives_keeps hP (hA.mono (by decide)) ?_
    | with_reducible refine State.ask_keeps hP (hA.mono (by decide)) ?_
    | with_reducible refine State.issueReq_keeps hP (hA.mono (by decide)) ?_
    | with_reducible refine keeps_ite ?_ ?_
    | split

theorem State.dmaComplete_keeps (hP : Keeps A P) (hA : Sub 0x1b60a2781cfb77ff A) {s : State} {c : Nat} {k : Completion} (hs : P s) : P (State.dmaComplete s c k) := by
  unfold State.dmaComplete
  repeat' first
    | with_reducible assumption
    | with_reducible refine State.ask_keeps hP (hA.mono (by decide)) ?_
    | with_reducible refine State.issueReq_keeps hP (hA.mono (by decide)) ?_
    | with_reducible refine State.dmaServe_keeps hP (hA.mono (by decide)) ?_
    | with_reducible refine State.readbackDone_keeps hP (hA.mono (by decide)) ?_
    | with_reducible refine keeps_ite ?_ ?_
    | split

theorem State.serveAll_keeps (hP : Keeps A P) (hA : Sub 0x1b60a2781cfb77ff A) {s : State} {l0 : List Request} (hs : P s) : P (State.serveAll s l0) := by
  induction l0 generalizing s with
  | nil =>
    unfold State.serveAll
    repeat' first
      | with_reducible assumption
      | with_reducible refine State.request_keeps hP (hA.mono (by decide)) ?_
  | cons x r ih =>
    unfold State.serveAll
    repeat' first
      | with_reducible assumption
      | with_reducible refine ih ?_
      | with_reducible refine State.request_keeps hP (hA.mono (by decide)) ?_

theorem State.serveReqs_keeps (hP : Keeps A P) (hA : Sub 0x1b60a2781cfb77ff A) {s : State} (hs : P s) : P (State.serveReqs s) := by
  unfold State.serveReqs
  repeat' first
    | with_reducible assumption
    | with_reducible refine State.serveAll_keeps hP (hA.mono (by decide)) ?_
    | with_reducible refine keeps_foldl _ (fun _ _ _ => ?_) ?_
    | (rw [State.mk_reqs]; apply hP.reqs (hA.mono (by decide)))

theorem State.lentLineRx_keeps (hP : Keeps A P) (hA : Sub 0x1b60a2781cfb77ff A) {s : State} {p : Nat} {hd : Head} {bank : BitVec 8} {line : BitVec 14} {r0 r1 : Rec} (hs : P s) : P (State.lentLineRx s p hd bank line r0 r1) := by
  unfold State.lentLineRx
  repeat' first
    | with_reducible assumption
    | with_reducible refine State.receive_keeps hP (hA.mono (by decide)) ?_ (fun _ _ => ?_)
    | with_reducible refine State.ask_keeps hP (hA.mono (by decide)) ?_

theorem State.modSyn_keeps (hP : Keeps A P) (hA : Sub 0x80000000 A) {s : State} {i : Nat} {f : Syn → Syn} (hs : P s) : P (State.modSyn s i f) := by
  unfold State.modSyn
  repeat' first
    | with_reducible assumption
    | with_reducible refine hP.syn (hA.mono (by decide)) _ _ _ ?_

theorem State.synLoad_keeps (hP : Keeps A P) (hA : Sub 0x80000000 A) {s : State} {i : Nat} (hs : P s) : P (State.synLoad s i) := by
  unfold State.synLoad
  repeat' first
    | with_reducible assumption
    | with_reducible refine State.modSyn_keeps hP (hA.mono (by decide)) ?_

theorem State.synAbandon_keeps (hP : Keeps A P) (hA : Sub 0x80000001 A) {s : State} {i : Nat} (hs : P s) : P (State.synAbandon s i) := by
  unfold State.synAbandon
  repeat' first
    | with_reducible assumption
    | lift_lets -underBinder
    | (intro x; revert x; refine keeps_let P ?_ (fun _ _ => ?_))
    | (intro x; first | (have _h : Nat := x; clear _h; subst x) | clear_value x)
    | with_reducible refine State.modSyn_keeps hP (hA.mono (by decide)) ?_
    | with_reducible refine State.setBit_unit hP (hA.mono (by decide)) (by first | omega | (simp only [tbPage, jrnlPage, svcPage, swarmPage, eslPage, dmaPage, synPage, domPage, linkPage, dmacPage, chPage, regPage, blkPage, bankPage]; omega)) ?_
    | fail_if_no_progress beta_reduce

theorem State.startSearch_keeps (hP : Keeps A P) (hA : Sub 0x80000001 A) {s : State} {i : Nat} {fill : Option Nat} (hs : P s) : P (State.startSearch s i fill) := by
  unfold State.startSearch
  repeat' first
    | with_reducible assumption
    | lift_lets -underBinder
    | (intro x; revert x; refine keeps_let P ?_ (fun _ _ => ?_))
    | (intro x; first | (have _h : Nat := x; clear _h; subst x) | clear_value x)
    | with_reducible refine State.setBit_unit hP (hA.mono (by decide)) (by first | omega | (simp only [tbPage, jrnlPage, svcPage, swarmPage, eslPage, dmaPage, synPage, domPage, linkPage, dmacPage, chPage, regPage, blkPage, bankPage]; omega)) ?_
    | with_reducible refine State.synAbandon_keeps hP (hA.mono (by decide)) ?_
    | with_reducible refine State.synLoad_keeps hP (hA.mono (by decide)) ?_
    | with_reducible refine State.modSyn_keeps hP (hA.mono (by decide)) ?_
    | fail_if_no_progress beta_reduce
    | with_reducible refine keeps_ite ?_ ?_
    | split

theorem State.synRelocked_keeps (hP : Keeps A P) (hA : Sub 0x2000000808003e9 A) {s : State} {i : Nat} (hs : P s) : P (State.synRelocked s i) := by
  unfold State.synRelocked
  repeat' first
    | with_reducible assumption
    | with_reducible refine State.unitEvent_keeps hP (hA.mono (by decide)) ?_
    | with_reducible refine State.post_unit hP (hA.mono (by decide)) (by first | omega | (simp only [tbPage, jrnlPage, svcPage, swarmPage, eslPage, dmaPage, synPage, domPage, linkPage, dmacPage, chPage, regPage, blkPage, bankPage]; omega)) ?_
    | with_reducible refine State.modSyn_keeps hP (hA.mono (by decide)) ?_
    | with_reducible refine keeps_ite ?_ ?_
    | split

theorem State.synOut_keeps (hP : Keeps A P) (hA : Sub 0x1 A) {s : State} {i : Nat} (hs : P s) : P (State.synOut s i) := by
  unfold State.synOut
  repeat' first
    | with_reducible assumption
    | with_reducible refine State.setBit_unit hP (hA.mono (by decide)) (by first | omega | (simp only [tbPage, jrnlPage, svcPage, swarmPage, eslPage, dmaPage, synPage, domPage, linkPage, dmacPage, chPage, regPage, blkPage, bankPage]; omega)) ?_

theorem State.synLock_keeps (hP : Keeps A P) (hA : Sub 0x80000001 A) {s : State} {i : Nat} (hs : P s) : P (State.synLock s i) := by
  unfold State.synLock
  repeat' first
    | with_reducible assumption
    | with_reducible refine State.modSyn_keeps hP (hA.mono (by decide)) ?_
    | with_reducible refine State.setBit_unit hP (hA.mono (by decide)) (by first | omega | (simp only [tbPage, jrnlPage, svcPage, swarmPage, eslPage, dmaPage, synPage, domPage, linkPage, dmacPage, chPage, regPage, blkPage, bankPage]; omega)) ?_

theorem State.searchDone_keeps (hP : Keeps A P) (hA : Sub 0x2000000808003e9 A) {s : State} {i : Nat} {band tune : Nat} (hs : P s) : P (State.searchDone s i band tune) := by
  unfold State.searchDone
  repeat' first
    | with_reducible assumption
    | lift_lets -underBinder
    | (intro x; revert x; refine keeps_let P ?_ (fun _ _ => ?_))
    | (intro x; first | (have _h : Nat := x; clear _h; subst x) | clear_value x)
    | with_reducible refine State.addSat_unit hP (hA.mono (by decide)) (by first | omega | (simp only [tbPage, jrnlPage, svcPage, swarmPage, eslPage, dmaPage, synPage, domPage, linkPage, dmacPage, chPage, regPage, blkPage, bankPage]; omega)) ?_
    | with_reducible refine State.synLock_keeps hP (hA.mono (by decide)) ?_
    | with_reducible refine State.synAbandon_keeps hP (hA.mono (by decide)) ?_
    | with_reducible refine State.setFld_unit hP (hA.mono (by decide)) (by first | omega | (simp only [tbPage, jrnlPage, svcPage, swarmPage, eslPage, dmaPage, synPage, domPage, linkPage, dmacPage, chPage, regPage, blkPage, bankPage]; omega)) ?_
    | with_reducible refine State.synOut_keeps hP (hA.mono (by decide)) ?_
    | with_reducible refine State.synRelocked_keeps hP (hA.mono (by decide)) ?_
    | with_reducible refine State.unitEvent_keeps hP (hA.mono (by decide)) ?_
    | with_reducible refine State.post_unit hP (hA.mono (by decide)) (by first | omega | (simp only [tbPage, jrnlPage, svcPage, swarmPage, eslPage, dmaPage, synPage, domPage, linkPage, dmacPage, chPage, regPage, blkPage, bankPage]; omega)) ?_
    | with_reducible refine keeps_ite ?_ ?_
    | split
    | with_reducible refine keeps_pair (by assumption) ?_
    | with_reducible refine keeps_pair₂ (by assumption) ?_

theorem State.lockFail_keeps (hP : Keeps A P) (hA : Sub 0x200000080000029 A) {s : State} {i : Nat} (hs : P s) : P (State.lockFail s i) := by
  unfold State.lockFail
  repeat' first
    | with_reducible assumption
    | with_reducible refine State.raise_unit hP (hA.mono (by decide)) (by first | omega | (simp only [tbPage, jrnlPage, svcPage, swarmPage, eslPage, dmaPage, synPage, domPage, linkPage, dmacPage, chPage, regPage, blkPage, bankPage]; omega)) ?_
    | with_reducible refine State.modSyn_keeps hP (hA.mono (by decide)) ?_
    | with_reducible refine State.synAbandon_keeps hP (hA.mono (by decide)) ?_
    | with_reducible refine keeps_ite ?_ ?_
    | split
    | with_reducible refine keeps_pair (by assumption) ?_
    | with_reducible refine keeps_pair₂ (by assumption) ?_

theorem State.startHop_keeps (hP : Keeps A P) (hA : Sub 0x200000080000029 A) {s : State} {i k : Nat} (hs : P s) : P (State.startHop s i k) := by
  unfold State.startHop
  repeat' first
    | with_reducible assumption
    | lift_lets -underBinder
    | (intro x; revert x; refine keeps_let P ?_ (fun _ _ => ?_))
    | (intro x; first | (have _h : Nat := x; clear _h; subst x) | clear_value x)
    | with_reducible refine State.setFld_unit hP (hA.mono (by decide)) (by first | omega | (simp only [tbPage, jrnlPage, svcPage, swarmPage, eslPage, dmaPage, synPage, domPage, linkPage, dmacPage, chPage, regPage, blkPage, bankPage]; omega)) ?_
    | with_reducible refine State.setBit_unit hP (hA.mono (by decide)) (by first | omega | (simp only [tbPage, jrnlPage, svcPage, swarmPage, eslPage, dmaPage, synPage, domPage, linkPage, dmacPage, chPage, regPage, blkPage, bankPage]; omega)) ?_
    | with_reducible refine State.synAbandon_keeps hP (hA.mono (by decide)) ?_
    | with_reducible refine State.startSearch_keeps hP (hA.mono (by decide)) ?_
    | with_reducible refine State.post_unit hP (hA.mono (by decide)) (by first | omega | (simp only [tbPage, jrnlPage, svcPage, swarmPage, eslPage, dmaPage, synPage, domPage, linkPage, dmacPage, chPage, regPage, blkPage, bankPage]; omega)) ?_
    | with_reducible refine State.synLoad_keeps hP (hA.mono (by decide)) ?_
    | with_reducible refine State.modSyn_keeps hP (hA.mono (by decide)) ?_
    | fail_if_no_progress beta_reduce
    | with_reducible refine keeps_ite ?_ ?_
    | split

theorem State.hopDone_keeps (hP : Keeps A P) (hA : Sub 0x2000000808003e9 A) {s : State} {i : Nat} (hs : P s) : P (State.hopDone s i) := by
  unfold State.hopDone
  repeat' first
    | with_reducible assumption
    | lift_lets -underBinder
    | (intro x; revert x; refine keeps_let P ?_ (fun _ _ => ?_))
    | (intro x; first | (have _h : Nat := x; clear _h; subst x) | clear_value x)
    | with_reducible refine State.synOut_keeps hP (hA.mono (by decide)) ?_
    | with_reducible refine State.unitEvent_keeps hP (hA.mono (by decide)) ?_
    | with_reducible refine State.post_unit hP (hA.mono (by decide)) (by first | omega | (simp only [tbPage, jrnlPage, svcPage, swarmPage, eslPage, dmaPage, synPage, domPage, linkPage, dmacPage, chPage, regPage, blkPage, bankPage]; omega)) ?_
    | with_reducible refine State.addSat_unit hP (hA.mono (by decide)) (by first | omega | (simp only [tbPage, jrnlPage, svcPage, swarmPage, eslPage, dmaPage, synPage, domPage, linkPage, dmacPage, chPage, regPage, blkPage, bankPage]; omega)) ?_
    | with_reducible refine State.synLock_keeps hP (hA.mono (by decide)) ?_
    | with_reducible refine State.synAbandon_keeps hP (hA.mono (by decide)) ?_
    | with_reducible refine keeps_ite ?_ ?_
    | split

theorem State.showSpread_keeps (hP : Keeps A P) (hA : Sub 0x1 A) {s : State} {i : Nat} (hs : P s) : P (State.showSpread s i) := by
  unfold State.showSpread
  repeat' first
    | with_reducible assumption
    | with_reducible refine State.setBit_unit hP (hA.mono (by decide)) (by first | omega | (simp only [tbPage, jrnlPage, svcPage, swarmPage, eslPage, dmaPage, synPage, domPage, linkPage, dmacPage, chPage, regPage, blkPage, bankPage]; omega)) ?_

theorem State.synTake_keeps (hP : Keeps A P) (hA : Sub 0x2000000008007e9 A) {s : State} {i : Nat} {pick : Nat → Bool} (hs : P s) : P (State.synTake s i pick) := by
  unfold State.synTake
  repeat' first
    | with_reducible assumption
    | lift_lets -underBinder
    | (intro x; revert x; refine keeps_let P ?_ (fun _ _ => ?_))
    | (intro x; clear_value x)
    | with_reducible refine State.applyValue_unit hP (hA.mono (by decide)) (by first | omega | (simp only [tbPage, jrnlPage, svcPage, swarmPage, eslPage, dmaPage, synPage, domPage, linkPage, dmacPage, chPage, regPage, blkPage, bankPage]; omega)) ?_
    | with_reducible refine hP.shadow (hA.mono (by decide)) _ _ _ ?_
    | with_reducible refine State.entry_keeps hP (hA.mono (by decide)) ?_
    | with_reducible refine keeps_foldl _ (fun _ _ _ => ?_) ?_
    | fail_if_no_progress beta_reduce
    | split
    | with_reducible refine keeps_pair (by assumption) ?_
    | with_reducible refine keeps_pair₂ (by assumption) ?_

theorem State.synCtrl_keeps (hP : Keeps A P) (hA : Sub 0x1 A) {s : State} {i : Nat} {old : Dword} (hs : P s) : P (State.synCtrl s i old) := by
  unfold State.synCtrl
  repeat' first
    | with_reducible assumption
    | lift_lets -underBinder
    | (intro x; revert x; refine keeps_let P ?_ (fun _ _ => ?_))
    | (intro x; first | (have _h : Nat := x; clear _h; subst x) | clear_value x)
    | with_reducible refine State.setBit_unit hP (hA.mono (by decide)) (by first | omega | (simp only [tbPage, jrnlPage, svcPage, swarmPage, eslPage, dmaPage, synPage, domPage, linkPage, dmacPage, chPage, regPage, blkPage, bankPage]; omega)) ?_
    | with_reducible refine keeps_ite ?_ ?_
    | split

theorem State.synDown_keeps (hP : Keeps A P) (hA : Sub 0x80000001 A) {s : State} {i : Nat} (hs : P s) : P (State.synDown s i) := by
  unfold State.synDown
  repeat' first
    | with_reducible assumption
    | lift_lets -underBinder
    | (intro x; revert x; refine keeps_let P ?_ (fun _ _ => ?_))
    | (intro x; first | (have _h : Nat := x; clear _h; subst x) | clear_value x)
    | with_reducible refine State.setBit_unit hP (hA.mono (by decide)) (by first | omega | (simp only [tbPage, jrnlPage, svcPage, swarmPage, eslPage, dmaPage, synPage, domPage, linkPage, dmacPage, chPage, regPage, blkPage, bankPage]; omega)) ?_
    | with_reducible refine State.synAbandon_keeps hP (hA.mono (by decide)) ?_
    | with_reducible refine State.modSyn_keeps hP (hA.mono (by decide)) ?_
    | fail_if_no_progress beta_reduce

theorem State.synBoundary_keeps (hP : Keeps A P) (hA : Sub 0x2000000808007e9 A) {s : State} {i : Nat} {inBand : Bool} (hs : P s) : P (State.synBoundary s i inBand) := by
  unfold State.synBoundary
  repeat' first
    | with_reducible assumption
    | lift_lets -underBinder
    | (intro x; revert x; refine keeps_let P ?_ (fun _ _ => ?_))
    | (intro x; first | (have _h : Nat := x; clear _h; subst x) | clear_value x)
    | with_reducible refine State.modSyn_keeps hP (hA.mono (by decide)) ?_
    | with_reducible refine State.entry_keeps hP (hA.mono (by decide)) ?_
    | with_reducible refine State.raise_unit hP (hA.mono (by decide)) (by first | omega | (simp only [tbPage, jrnlPage, svcPage, swarmPage, eslPage, dmaPage, synPage, domPage, linkPage, dmacPage, chPage, regPage, blkPage, bankPage]; omega)) ?_
    | with_reducible refine hP.shadow (hA.mono (by decide)) _ _ _ ?_
    | with_reducible refine State.synTake_keeps hP (hA.mono (by decide)) ?_
    | with_reducible refine State.synCtrl_keeps hP (hA.mono (by decide)) ?_
    | with_reducible refine State.showSpread_keeps hP (hA.mono (by decide)) ?_
    | with_reducible refine State.synDown_keeps hP (hA.mono (by decide)) ?_
    | with_reducible refine State.startHop_keeps hP (hA.mono (by decide)) ?_
    | with_reducible refine State.startSearch_keeps hP (hA.mono (by decide)) ?_
    | with_reducible refine State.setBit_unit hP (hA.mono (by decide)) (by first | omega | (simp only [tbPage, jrnlPage, svcPage, swarmPage, eslPage, dmaPage, synPage, domPage, linkPage, dmacPage, chPage, regPage, blkPage, bankPage]; omega)) ?_
    | with_reducible refine State.synLock_keeps hP (hA.mono (by decide)) ?_
    | fail_if_no_progress beta_reduce
    | with_reducible refine keeps_ite ?_ ?_
    | split

theorem State.delayStep_keeps (hP : Keeps A P) (hA : Sub 0x200000000000029 A) {s : State} {i : Nat} (hs : P s) : P (State.delayStep s i) := by
  unfold State.delayStep
  repeat' first
    | with_reducible assumption
    | lift_lets -underBinder
    | (intro x; revert x; refine keeps_let P ?_ (fun _ _ => ?_))
    | (intro x; first | (have _h : Nat := x; clear _h; subst x) | clear_value x)
    | with_reducible refine State.setFld_unit hP (hA.mono (by decide)) (by first | omega | (simp only [tbPage, jrnlPage, svcPage, swarmPage, eslPage, dmaPage, synPage, domPage, linkPage, dmacPage, chPage, regPage, blkPage, bankPage]; omega)) ?_
    | with_reducible refine State.post_unit hP (hA.mono (by decide)) (by first | omega | (simp only [tbPage, jrnlPage, svcPage, swarmPage, eslPage, dmaPage, synPage, domPage, linkPage, dmacPage, chPage, regPage, blkPage, bankPage]; omega)) ?_
    | with_reducible refine keeps_ite ?_ ?_
    | split

theorem State.synPageCtrl_keeps (hP : Keeps A P) (hA : Sub 0x2000000808007e9 A) {s : State} {i : Nat} {was : Bool} (hs : P s) : P (State.synPageCtrl s i was) := by
  unfold State.synPageCtrl
  repeat' first
    | with_reducible assumption
    | lift_lets -underBinder
    | (intro x; revert x; refine keeps_let P ?_ (fun _ _ => ?_))
    | (intro x; first | (have _h : Nat := x; clear _h; subst x) | clear_value x)
    | with_reducible refine State.showSpread_keeps hP (hA.mono (by decide)) ?_
    | with_reducible refine State.startSearch_keeps hP (hA.mono (by decide)) ?_
    | with_reducible refine State.setBit_unit hP (hA.mono (by decide)) (by first | omega | (simp only [tbPage, jrnlPage, svcPage, swarmPage, eslPage, dmaPage, synPage, domPage, linkPage, dmacPage, chPage, regPage, blkPage, bankPage]; omega)) ?_
    | with_reducible refine State.synAbandon_keeps hP (hA.mono (by decide)) ?_
    | with_reducible refine State.forEach_keeps hP (hA.mono (by decide)) ?_ (fun _ _ _ => ?_)
    | with_reducible refine State.setFld_unit hP (hA.mono (by decide)) (by first | omega | (simp only [tbPage, jrnlPage, svcPage, swarmPage, eslPage, dmaPage, synPage, domPage, linkPage, dmacPage, chPage, regPage, blkPage, bankPage]; omega)) ?_
    | with_reducible refine State.modSyn_keeps hP (hA.mono (by decide)) ?_
    | with_reducible refine State.synTake_keeps hP (hA.mono (by decide)) ?_
    | fail_if_no_progress beta_reduce
    | with_reducible refine keeps_ite ?_ ?_
    | split

theorem State.synRefLost_keeps (hP : Keeps A P) (hA : Sub 0x200000080000029 A) {s : State} (hs : P s) : P (State.synRefLost s) := by
  unfold State.synRefLost
  repeat' first
    | with_reducible assumption
    | lift_lets -underBinder
    | (intro x; revert x; refine keeps_let P ?_ (fun _ _ => ?_))
    | (intro x; first | (have _h : Nat := x; clear _h; subst x) | clear_value x)
    | with_reducible refine State.forEach_keeps hP (hA.mono (by decide)) ?_ (fun _ _ _ => ?_)
    | with_reducible refine State.addSat_unit hP (hA.mono (by decide)) (by first | omega | (simp only [tbPage, jrnlPage, svcPage, swarmPage, eslPage, dmaPage, synPage, domPage, linkPage, dmacPage, chPage, regPage, blkPage, bankPage]; omega)) ?_
    | with_reducible refine State.synAbandon_keeps hP (hA.mono (by decide)) ?_
    | with_reducible refine State.post_unit hP (hA.mono (by decide)) (by first | omega | (simp only [tbPage, jrnlPage, svcPage, swarmPage, eslPage, dmaPage, synPage, domPage, linkPage, dmacPage, chPage, regPage, blkPage, bankPage]; omega)) ?_
    | with_reducible refine State.setBit_unit hP (hA.mono (by decide)) (by first | omega | (simp only [tbPage, jrnlPage, svcPage, swarmPage, eslPage, dmaPage, synPage, domPage, linkPage, dmacPage, chPage, regPage, blkPage, bankPage]; omega)) ?_
    | with_reducible refine State.modSyn_keeps hP (hA.mono (by decide)) ?_
    | fail_if_no_progress beta_reduce
    | with_reducible refine keeps_ite ?_ ?_
    | split

theorem State.synRelock_keeps (hP : Keeps A P) (hA : Sub 0x2000000808003e9 A) {s : State} {i : Nat} (hs : P s) : P (State.synRelock s i) := by
  unfold State.synRelock
  repeat' first
    | with_reducible assumption
    | lift_lets -underBinder
    | (intro x; revert x; refine keeps_let P ?_ (fun _ _ => ?_))
    | (intro x; first | (have _h : Nat := x; clear _h; subst x) | clear_value x)
    | with_reducible refine State.setBit_unit hP (hA.mono (by decide)) (by first | omega | (simp only [tbPage, jrnlPage, svcPage, swarmPage, eslPage, dmaPage, synPage, domPage, linkPage, dmacPage, chPage, regPage, blkPage, bankPage]; omega)) ?_
    | with_reducible refine State.modSyn_keeps hP (hA.mono (by decide)) ?_
    | with_reducible refine State.synRelocked_keeps hP (hA.mono (by decide)) ?_
    | with_reducible refine State.synLock_keeps hP (hA.mono (by decide)) ?_
    | with_reducible refine State.startSearch_keeps hP (hA.mono (by decide)) ?_
    | fail_if_no_progress beta_reduce
    | with_reducible refine keeps_ite ?_ ?_
    | split

theorem State.synSleep_keeps (hP : Keeps A P) (hA : Sub 0x80000001 A) {s : State} (hs : P s) : P (State.synSleep s) := by
  unfold State.synSleep
  repeat' first
    | with_reducible assumption
    | with_reducible refine State.forEach_keeps hP (hA.mono (by decide)) ?_ (fun _ _ _ => ?_)
    | with_reducible refine State.synDown_keeps hP (hA.mono (by decide)) ?_
    | with_reducible refine keeps_ite ?_ ?_
    | split

theorem State.synWake_keeps (hP : Keeps A P) (hA : Sub 0x80000001 A) {s : State} (hs : P s) : P (State.synWake s) := by
  unfold State.synWake
  repeat' first
    | with_reducible assumption
    | with_reducible refine State.forEach_keeps hP (hA.mono (by decide)) ?_ (fun _ _ _ => ?_)
    | with_reducible refine State.showSpread_keeps hP (hA.mono (by decide)) ?_
    | with_reducible refine State.startSearch_keeps hP (hA.mono (by decide)) ?_
    | with_reducible refine keeps_ite ?_ ?_
    | split

theorem State.loopWritten_keeps (hP : Keeps A P) (hA : Sub 0x4001 A) {s : State} {j : Nat} {old new levels : Dword} (hs : P s) : P (State.loopWritten s j old new levels) := by
  unfold State.loopWritten
  repeat' first
    | with_reducible assumption
    | lift_lets -underBinder
    | (intro x; revert x; refine keeps_let P ?_ (fun _ _ => ?_))
    | (intro x; clear_value x)
    | with_reducible refine State.forEach_keeps hP (hA.mono (by decide)) ?_ (fun _ _ _ => ?_)
    | with_reducible refine State.takeLevel_keeps hP (hA.mono (by decide)) ?_
    | fail_if_no_progress beta_reduce
    | with_reducible refine keeps_ite ?_ ?_
    | split

theorem State.passTime_keeps (hP : Keeps A P) (hA : Sub 0x1000320000000 A) {s : State} {δ : Nat} (hs : P s) : P (State.passTime s δ) := by
  unfold State.passTime
  repeat' first
    | with_reducible assumption
    | lift_lets -underBinder
    | (intro x; revert x; refine keeps_let P ?_ (fun _ _ => ?_))
    | (intro x; clear_value x)
    | with_reducible refine hP.modTimeAny (hA.mono (by decide)) ?_
    | with_reducible refine State.domAdvance_keeps hP (hA.mono (by decide)) ?_
    | fail_if_no_progress beta_reduce
    | with_reducible refine keeps_ite ?_ ?_
    | split
    | (rw [State.mk_mapTicks]; apply hP.mapTicks (hA.mono (by decide)))

theorem State.journalAfresh_keeps (hP : Keeps A P) (hA : Sub 0x40 A) {s : State} (hs : P s) : P (State.journalAfresh s) := by
  unfold State.journalAfresh
  repeat' first
    | with_reducible assumption
    | with_reducible refine hP.streamsUpd (hA.mono (by decide)) _ _ ?_
    | with_reducible refine hP.streamsNone (hA.mono (by decide)) _ ?_
    | with_reducible refine hP.streamsKeep (hA.mono (by decide)) _ _ ?_
    | with_reducible refine keeps_ite ?_ ?_
    | split

theorem State.showRefs_keeps (hP : Keeps A P) (hA : Sub 0x1 A) {s : State} {refs : Refs} (hs : P s) : P (State.showRefs s refs) := by
  unfold State.showRefs
  repeat' first
    | with_reducible assumption
    | with_reducible refine State.setBit_unit hP (hA.mono (by decide)) (by first | omega | (simp only [tbPage, jrnlPage, svcPage, swarmPage, eslPage, dmaPage, synPage, domPage, linkPage, dmacPage, chPage, regPage, blkPage, bankPage]; omega)) ?_

theorem State.endAclk_keeps (hP : Keeps A P) (hA : Sub 0x200000400000000 A) {s : State} (hs : P s) : P (State.endAclk s) := by
  unfold State.endAclk
  repeat' first
    | with_reducible assumption
    | lift_lets -underBinder
    | (intro x; revert x; refine keeps_let P ?_ (fun _ _ => ?_))
    | (intro x; clear_value x)
    | with_reducible refine hP.freshKeep (hA.mono (by decide)) _ _ ?_
    | with_reducible refine hP.freshNone (hA.mono (by decide)) _ ?_
    | (rw [State.mk_power]; apply hP.power (hA.mono (by decide)))

theorem State.alignAclk_keeps (hP : Keeps A P) (hA : Sub 0x200000400000000 A) {s : State} (hs : P s) : P (State.alignAclk s) := by
  unfold State.alignAclk
  repeat' first
    | with_reducible assumption
    | lift_lets -underBinder
    | (intro x; revert x; refine keeps_let P ?_ (fun _ _ => ?_))
    | (intro x; clear_value x)
    | with_reducible refine State.endAclk_keeps hP (hA.mono (by decide)) ?_
    | with_reducible refine keeps_ite ?_ ?_
    | split
    | (rw [State.mk_power]; apply hP.power (hA.mono (by decide)))

theorem State.timebaseStart_keeps (hP : Keeps A P) (hA : Sub 0x201000780004069 A) {s : State} (hs : P s) : P (State.timebaseStart s) := by
  unfold State.timebaseStart
  repeat' first
    | with_reducible assumption
    | lift_lets -underBinder
    | (intro x; revert x; refine keeps_let P ?_ (fun _ _ => ?_))
    | (intro x; clear_value x)
    | with_reducible refine State.setFld_unit hP (hA.mono (by decide)) (by first | omega | (simp only [tbPage, jrnlPage, svcPage, swarmPage, eslPage, dmaPage, synPage, domPage, linkPage, dmacPage, chPage, regPage, blkPage, bankPage]; omega)) ?_
    | with_reducible refine State.setBit_unit hP (hA.mono (by decide)) (by first | omega | (simp only [tbPage, jrnlPage, svcPage, swarmPage, eslPage, dmaPage, synPage, domPage, linkPage, dmacPage, chPage, regPage, blkPage, bankPage]; omega)) ?_
    | with_reducible refine State.post_unit hP (hA.mono (by decide)) (by first | omega | (simp only [tbPage, jrnlPage, svcPage, swarmPage, eslPage, dmaPage, synPage, domPage, linkPage, dmacPage, chPage, regPage, blkPage, bankPage]; omega)) ?_
    | with_reducible refine hP.modTimeAny (hA.mono (by decide)) ?_
    | with_reducible refine State.alignAclk_keeps hP (hA.mono (by decide)) ?_
    | with_reducible refine State.forEach_keeps hP (hA.mono (by decide)) ?_ (fun _ _ _ => ?_)
    | with_reducible refine State.journalAfresh_keeps hP (hA.mono (by decide)) ?_
    | with_reducible refine State.beginCal_keeps hP (hA.mono (by decide)) ?_
    | with_reducible refine State.startSearch_keeps hP (hA.mono (by decide)) ?_
    | fail_if_no_progress beta_reduce
    | with_reducible refine keeps_ite ?_ ?_
    | split
    | (rw [State.mk_power]; apply hP.power (hA.mono (by decide)))
    | (rw [State.mk_mapTicks]; apply hP.mapTicks (hA.mono (by decide)))

theorem State.abandonDuties_keeps (hP : Keeps A P) (hA : Sub 0x4001 A) {s : State} (hs : P s) : P (State.abandonDuties s) := by
  unfold State.abandonDuties
  repeat' first
    | with_reducible assumption
    | with_reducible refine State.forEach_keeps hP (hA.mono (by decide)) ?_ (fun _ _ _ => ?_)
    | with_reducible refine State.rotation_keeps hP (hA.mono (by decide)) ?_

theorem State.loseTime_keeps (hP : Keeps A P) (hA : Sub 0xa008208888847ef A) {s : State} {kind : Nat} (hs : P s) : P (State.loseTime s kind) := by
  unfold State.loseTime
  repeat' first
    | with_reducible assumption
    | lift_lets -underBinder
    | (intro x; revert x; refine keeps_let P ?_ (fun _ _ => ?_))
    | (intro x; clear_value x)
    | with_reducible refine State.forEach_keeps hP (hA.mono (by decide)) ?_ (fun _ _ _ => ?_)
    | with_reducible refine State.closeGapOf_keeps hP (hA.mono (by decide)) ?_
    | with_reducible refine State.post_unit hP (hA.mono (by decide)) (by first | omega | (simp only [tbPage, jrnlPage, svcPage, swarmPage, eslPage, dmaPage, synPage, domPage, linkPage, dmacPage, chPage, regPage, blkPage, bankPage]; omega)) ?_
    | with_reducible refine State.setBit_unit hP (hA.mono (by decide)) (by first | omega | (simp only [tbPage, jrnlPage, svcPage, swarmPage, eslPage, dmaPage, synPage, domPage, linkPage, dmacPage, chPage, regPage, blkPage, bankPage]; omega)) ?_
    | with_reducible refine State.setPair_unit hP (hA.mono (by decide)) (by first | omega | (simp only [tbPage, jrnlPage, svcPage, swarmPage, eslPage, dmaPage, synPage, domPage, linkPage, dmacPage, chPage, regPage, blkPage, bankPage]; omega)) ?_
    | with_reducible refine State.raise_unit hP (hA.mono (by decide)) (by first | omega | (simp only [tbPage, jrnlPage, svcPage, swarmPage, eslPage, dmaPage, synPage, domPage, linkPage, dmacPage, chPage, regPage, blkPage, bankPage]; omega)) ?_
    | with_reducible refine State.entry_keeps hP (hA.mono (by decide)) ?_
    | with_reducible refine State.addSat_unit hP (hA.mono (by decide)) (by first | omega | (simp only [tbPage, jrnlPage, svcPage, swarmPage, eslPage, dmaPage, synPage, domPage, linkPage, dmacPage, chPage, regPage, blkPage, bankPage]; omega)) ?_
    | with_reducible refine State.abandonDuties_keeps hP (hA.mono (by decide)) ?_
    | with_reducible refine State.synRefLost_keeps hP (hA.mono (by decide)) ?_
    | with_reducible refine State.raiseEvent_keeps hP (hA.mono (by decide)) ?_
    | with_reducible refine State.chipFault_keeps hP (hA.mono (by decide)) ?_
    | fail_if_no_progress beta_reduce

theorem State.withdrawLock_keeps (hP : Keeps A P) (hA : Sub 0x2000000008003e9 A) {s : State} (hs : P s) : P (State.withdrawLock s) := by
  unfold State.withdrawLock
  repeat' first
    | with_reducible assumption
    | with_reducible refine State.entry_keeps hP (hA.mono (by decide)) ?_
    | with_reducible refine State.setBit_unit hP (hA.mono (by decide)) (by first | omega | (simp only [tbPage, jrnlPage, svcPage, swarmPage, eslPage, dmaPage, synPage, domPage, linkPage, dmacPage, chPage, regPage, blkPage, bankPage]; omega)) ?_
    | with_reducible refine keeps_ite ?_ ?_
    | split

theorem State.lossSeen_keeps (hP : Keeps A P) (hA : Sub 0xa008208888847ef A) {s : State} {kind : Nat} (hs : P s) : P (State.lossSeen s kind) := by
  unfold State.lossSeen
  repeat' first
    | with_reducible assumption
    | with_reducible refine State.loseTime_keeps hP (hA.mono (by decide)) ?_
    | with_reducible refine State.withdrawLock_keeps hP (hA.mono (by decide)) ?_
    | with_reducible refine keeps_ite ?_ ?_
    | split

theorem State.refCycle_keeps (hP : Keeps A P) (hA : Sub 0xa008209888847ef A) {s : State} {e : BitVec 12} (hs : P s) : P (State.refCycle s e) := by
  unfold State.refCycle
  repeat' first
    | with_reducible assumption
    | lift_lets -underBinder
    | (intro x; revert x; refine keeps_let P ?_ (fun _ _ => ?_))
    | (intro x; clear_value x)
    | with_reducible refine hP.modTime (hA.mono (by decide)) (fun _ => rfl) ?_
    | with_reducible refine State.setFld_unit hP (hA.mono (by decide)) (by first | omega | (simp only [tbPage, jrnlPage, svcPage, swarmPage, eslPage, dmaPage, synPage, domPage, linkPage, dmacPage, chPage, regPage, blkPage, bankPage]; omega)) ?_
    | with_reducible refine State.lossSeen_keeps hP (hA.mono (by decide)) ?_
    | with_reducible refine State.setBit_unit hP (hA.mono (by decide)) (by first | omega | (simp only [tbPage, jrnlPage, svcPage, swarmPage, eslPage, dmaPage, synPage, domPage, linkPage, dmacPage, chPage, regPage, blkPage, bankPage]; omega)) ?_
    | fail_if_no_progress beta_reduce
    | with_reducible refine keeps_ite ?_ ?_
    | split
    | with_reducible refine keeps_pair (by assumption) ?_
    | with_reducible refine keeps_pair₂ (by assumption) ?_

theorem State.refCycles_keeps (hP : Keeps A P) (hA : Sub 0xa008209888847ef A) {s : State} {l : List (BitVec 12)} {refs : Refs} (hs : P s) : P (State.refCycles s l refs) := by
  unfold State.refCycles
  repeat' first
    | with_reducible assumption
    | with_reducible refine State.refCycle_keeps hP (hA.mono (by decide)) ?_
    | with_reducible refine State.showRefs_keeps hP (hA.mono (by decide)) ?_
    | with_reducible refine keeps_foldl _ (fun _ _ _ => ?_) ?_

theorem State.edgeMissing_keeps (hP : Keeps A P) (hA : Sub 0xa008209888847ef A) {s : State} (hs : P s) : P (State.edgeMissing s) := by
  unfold State.edgeMissing
  repeat' first
    | with_reducible assumption
    | with_reducible refine State.lossSeen_keeps hP (hA.mono (by decide)) ?_
    | with_reducible refine hP.modTime (hA.mono (by decide)) (fun _ => rfl) ?_

theorem State.refsPass_keeps (hP : Keeps A P) (hA : Sub 0xa008209888847ef A) {s : State} {c : LossCause} {refs : Refs} (hs : P s) : P (State.refsPass s c refs) := by
  unfold State.refsPass
  repeat' first
    | with_reducible assumption
    | lift_lets -underBinder
    | (intro x; revert x; refine keeps_let P ?_ (fun _ _ => ?_))
    | (intro x; clear_value x)
    | with_reducible refine State.refCycles_keeps hP (hA.mono (by decide)) ?_
    | with_reducible refine State.edgeMissing_keeps hP (hA.mono (by decide)) ?_
    | split
    | with_reducible refine keeps_pair (by assumption) ?_
    | with_reducible refine keeps_pair₂ (by assumption) ?_

theorem State.lockDeclared_keeps (hP : Keeps A P) (hA : Sub 0xa008209888847ef A) {s : State} {l : List (BitVec 12)} {refs : Refs} (hs : P s) : P (State.lockDeclared s l refs) := by
  unfold State.lockDeclared
  repeat' first
    | with_reducible assumption
    | with_reducible refine State.refCycles_keeps hP (hA.mono (by decide)) ?_
    | with_reducible refine keeps_ite ?_ ?_
    | split

theorem State.hardLoss_keeps (hP : Keeps A P) (hA : Sub 0xa008209888847ef A) {s : State} {c : LossCause} {refs : Refs} (hs : P s) : P (State.hardLoss s c refs) := by
  unfold State.hardLoss
  repeat' first
    | with_reducible assumption
    | with_reducible refine State.refsPass_keeps hP (hA.mono (by decide)) ?_
    | with_reducible refine keeps_ite ?_ ?_
    | split

theorem State.softLoss_keeps (hP : Keeps A P) (hA : Sub 0xa008209888847ef A) {s : State} {l : List (BitVec 12)} {refs : Refs} (hs : P s) : P (State.softLoss s l refs) := by
  unfold State.softLoss
  repeat' first
    | with_reducible assumption
    | with_reducible refine State.refCycles_keeps hP (hA.mono (by decide)) ?_
    | with_reducible refine keeps_ite ?_ ?_
    | split

theorem State.lockWithdrawn_keeps (hP : Keeps A P) (hA : Sub 0xa008209888847ef A) {s : State} {c : LossCause} {refs : Refs} (hs : P s) : P (State.lockWithdrawn s c refs) := by
  unfold State.lockWithdrawn
  repeat' first
    | with_reducible assumption
    | with_reducible refine State.refsPass_keeps hP (hA.mono (by decide)) ?_
    | with_reducible refine keeps_ite ?_ ?_
    | split

theorem State.bypassSwitch_keeps (hP : Keeps A P) (hA : Sub 0x1000320004001 A) {s : State} {altToggles : Bool} (hs : P s) : P (State.bypassSwitch s altToggles) := by
  unfold State.bypassSwitch
  repeat' first
    | with_reducible assumption
    | lift_lets -underBinder
    | (intro x; revert x; refine keeps_let P ?_ (fun _ _ => ?_))
    | (intro x; clear_value x)
    | with_reducible refine State.setBit_unit hP (hA.mono (by decide)) (by first | omega | (simp only [tbPage, jrnlPage, svcPage, swarmPage, eslPage, dmaPage, synPage, domPage, linkPage, dmacPage, chPage, regPage, blkPage, bankPage]; omega)) ?_
    | with_reducible refine State.setFld_unit hP (hA.mono (by decide)) (by first | omega | (simp only [tbPage, jrnlPage, svcPage, swarmPage, eslPage, dmaPage, synPage, domPage, linkPage, dmacPage, chPage, regPage, blkPage, bankPage]; omega)) ?_
    | with_reducible refine hP.modTime (hA.mono (by decide)) (fun _ => rfl) ?_
    | with_reducible refine State.passTime_keeps hP (hA.mono (by decide)) ?_
    | with_reducible refine State.setCoarse_keeps hP (hA.mono (by decide)) ?_
    | with_reducible refine State.forEach_keeps hP (hA.mono (by decide)) ?_ (fun _ _ _ => ?_)
    | with_reducible refine State.modChan_keeps hP (hA.mono (by decide)) ?_
    | fail_if_no_progress beta_reduce
    | with_reducible refine keeps_ite ?_ ?_
    | split

theorem State.altrefFail_keeps (hP : Keeps A P) (hA : Sub 0x1 A) {s : State} (hs : P s) : P (State.altrefFail s) := by
  unfold State.altrefFail
  repeat' first
    | with_reducible assumption
    | with_reducible refine State.setBit_unit hP (hA.mono (by decide)) (by first | omega | (simp only [tbPage, jrnlPage, svcPage, swarmPage, eslPage, dmaPage, synPage, domPage, linkPage, dmacPage, chPage, regPage, blkPage, bankPage]; omega)) ?_
    | with_reducible refine State.setFld_unit hP (hA.mono (by decide)) (by first | omega | (simp only [tbPage, jrnlPage, svcPage, swarmPage, eslPage, dmaPage, synPage, domPage, linkPage, dmacPage, chPage, regPage, blkPage, bankPage]; omega)) ?_
    | with_reducible refine keeps_ite ?_ ?_
    | split

theorem State.switchBack_keeps (hP : Keeps A P) (hA : Sub 0x2008001208047eb A) {s : State} (hs : P s) : P (State.switchBack s) := by
  unfold State.switchBack
  repeat' first
    | with_reducible assumption
    | lift_lets -underBinder
    | (intro x; revert x; refine keeps_let P ?_ (fun _ _ => ?_))
    | (intro x; clear_value x)
    | with_reducible refine State.setFld_unit hP (hA.mono (by decide)) (by first | omega | (simp only [tbPage, jrnlPage, svcPage, swarmPage, eslPage, dmaPage, synPage, domPage, linkPage, dmacPage, chPage, regPage, blkPage, bankPage]; omega)) ?_
    | with_reducible refine State.setCoarse_keeps hP (hA.mono (by decide)) ?_
    | with_reducible refine hP.modTime (hA.mono (by decide)) (fun _ => rfl) ?_
    | with_reducible refine State.entry_keeps hP (hA.mono (by decide)) ?_
    | with_reducible refine State.setPair_unit hP (hA.mono (by decide)) (by first | omega | (simp only [tbPage, jrnlPage, svcPage, swarmPage, eslPage, dmaPage, synPage, domPage, linkPage, dmacPage, chPage, regPage, blkPage, bankPage]; omega)) ?_
    | with_reducible refine State.post_unit hP (hA.mono (by decide)) (by first | omega | (simp only [tbPage, jrnlPage, svcPage, swarmPage, eslPage, dmaPage, synPage, domPage, linkPage, dmacPage, chPage, regPage, blkPage, bankPage]; omega)) ?_
    | with_reducible refine State.forEach_keeps hP (hA.mono (by decide)) ?_ (fun _ _ _ => ?_)
    | with_reducible refine State.closeGapOf_keeps hP (hA.mono (by decide)) ?_
    | with_reducible refine State.beginCal_keeps hP (hA.mono (by decide)) ?_
    | with_reducible refine State.tryAcquire_keeps hP (hA.mono (by decide)) ?_
    | fail_if_no_progress beta_reduce
    | with_reducible refine keeps_ite ?_ ?_
    | split

theorem State.dtimeWrap_keeps (hP : Keeps A P) (hA : Sub 0x200000100000029 A) {s : State} (hs : P s) : P (State.dtimeWrap s) := by
  unfold State.dtimeWrap
  repeat' first
    | with_reducible assumption
    | lift_lets -underBinder
    | (intro x; revert x; refine keeps_let P ?_ (fun _ _ => ?_))
    | (intro x; clear_value x)
    | with_reducible refine hP.modTime (hA.mono (by decide)) (fun _ => rfl) ?_
    | with_reducible refine State.post_unit hP (hA.mono (by decide)) (by first | omega | (simp only [tbPage, jrnlPage, svcPage, swarmPage, eslPage, dmaPage, synPage, domPage, linkPage, dmacPage, chPage, regPage, blkPage, bankPage]; omega)) ?_
    | with_reducible refine State.addWrap_unit hP (hA.mono (by decide)) (by first | omega | (simp only [tbPage, jrnlPage, svcPage, swarmPage, eslPage, dmaPage, synPage, domPage, linkPage, dmacPage, chPage, regPage, blkPage, bankPage]; omega)) ?_
    | with_reducible refine State.setBit_unit hP (hA.mono (by decide)) (by first | omega | (simp only [tbPage, jrnlPage, svcPage, swarmPage, eslPage, dmaPage, synPage, domPage, linkPage, dmacPage, chPage, regPage, blkPage, bankPage]; omega)) ?_
    | fail_if_no_progress beta_reduce
    | with_reducible refine keeps_ite ?_ ?_
    | split

theorem State.trimSlew_keeps (hP : Keeps A P) (hA : Sub 0x200800300000029 A) {s : State} (hs : P s) : P (State.trimSlew s) := by
  unfold State.trimSlew
  repeat' first
    | with_reducible assumption
    | lift_lets -underBinder
    | (intro x; revert x; refine keeps_let P ?_ (fun _ _ => ?_))
    | (intro x; clear_value x)
    | with_reducible refine State.modSwarm_keeps hP (hA.mono (by decide)) ?_
    | with_reducible refine hP.modTimeAny (hA.mono (by decide)) ?_
    | with_reducible refine State.setFld_unit hP (hA.mono (by decide)) (by first | omega | (simp only [tbPage, jrnlPage, svcPage, swarmPage, eslPage, dmaPage, synPage, domPage, linkPage, dmacPage, chPage, regPage, blkPage, bankPage]; omega)) ?_
    | with_reducible refine State.post_unit hP (hA.mono (by decide)) (by first | omega | (simp only [tbPage, jrnlPage, svcPage, swarmPage, eslPage, dmaPage, synPage, domPage, linkPage, dmacPage, chPage, regPage, blkPage, bankPage]; omega)) ?_
    | fail_if_no_progress beta_reduce
    | with_reducible refine keeps_ite ?_ ?_
    | split

theorem State.refChanged_keeps (hP : Keeps A P) (hA : Sub 0x2000001808043e9 A) {s : State} (hs : P s) : P (State.refChanged s) := by
  unfold State.refChanged
  repeat' first
    | with_reducible assumption
    | lift_lets -underBinder
    | (intro x; revert x; refine keeps_let P ?_ (fun _ _ => ?_))
    | (intro x; clear_value x)
    | with_reducible refine hP.modTime (hA.mono (by decide)) (fun _ => rfl) ?_
    | with_reducible refine State.setBit_unit hP (hA.mono (by decide)) (by first | omega | (simp only [tbPage, jrnlPage, svcPage, swarmPage, eslPage, dmaPage, synPage, domPage, linkPage, dmacPage, chPage, regPage, blkPage, bankPage]; omega)) ?_
    | with_reducible refine State.entry_keeps hP (hA.mono (by decide)) ?_
    | with_reducible refine State.abandonDuties_keeps hP (hA.mono (by decide)) ?_
    | with_reducible refine State.synRefLost_keeps hP (hA.mono (by decide)) ?_
    | fail_if_no_progress beta_reduce
    | with_reducible refine keeps_ite ?_ ?_
    | split

theorem State.timebaseReset_keeps (hP : Keeps A P) (hA : Sub 0x2000001008003eb A) {s : State} (hs : P s) : P (State.timebaseReset s) := by
  unfold State.timebaseReset
  repeat' first
    | with_reducible assumption
    | lift_lets -underBinder
    | (intro x; revert x; refine keeps_let P ?_ (fun _ _ => ?_))
    | (intro x; clear_value x)
    | with_reducible refine State.journalAt_keeps hP (hA.mono (by decide)) ?_
    | with_reducible refine State.setRc_keeps hP (hA.mono (by decide)) ?_
    | with_reducible refine State.entry_keeps hP (hA.mono (by decide)) ?_
    | with_reducible refine hP.modTime (hA.mono (by decide)) (fun _ => rfl) ?_
    | fail_if_no_progress beta_reduce

theorem State.timebaseRestart_keeps (hP : Keeps A P) (hA : Sub 0x2010003608003e9 A) {s : State} (hs : P s) : P (State.timebaseRestart s) := by
  unfold State.timebaseRestart
  repeat' first
    | with_reducible assumption
    | lift_lets -underBinder
    | (intro x; revert x; refine keeps_let P ?_ (fun _ _ => ?_))
    | (intro x; clear_value x)
    | with_reducible refine State.shiftDoms_keeps hP (hA.mono (by decide)) ?_
    | with_reducible refine State.journalAfresh_keeps hP (hA.mono (by decide)) ?_
    | with_reducible refine hP.modTimeAny (hA.mono (by decide)) ?_
    | with_reducible refine State.setBit_unit hP (hA.mono (by decide)) (by first | omega | (simp only [tbPage, jrnlPage, svcPage, swarmPage, eslPage, dmaPage, synPage, domPage, linkPage, dmacPage, chPage, regPage, blkPage, bankPage]; omega)) ?_
    | with_reducible refine State.setFld_unit hP (hA.mono (by decide)) (by first | omega | (simp only [tbPage, jrnlPage, svcPage, swarmPage, eslPage, dmaPage, synPage, domPage, linkPage, dmacPage, chPage, regPage, blkPage, bankPage]; omega)) ?_
    | with_reducible refine State.post_unit hP (hA.mono (by decide)) (by first | omega | (simp only [tbPage, jrnlPage, svcPage, swarmPage, eslPage, dmaPage, synPage, domPage, linkPage, dmacPage, chPage, regPage, blkPage, bankPage]; omega)) ?_
    | with_reducible refine State.journalAt_keeps hP (hA.mono (by decide)) ?_
    | fail_if_no_progress beta_reduce
    | with_reducible refine keeps_ite ?_ ?_
    | split
    | (rw [State.mk_mapTicks]; apply hP.mapTicks (hA.mono (by decide)))

theorem State.altrefWritten_keeps (hP : Keeps A P) (hA : Sub 0x1 A) {s : State} (hs : P s) : P (State.altrefWritten s) := by
  unfold State.altrefWritten
  repeat' first
    | with_reducible assumption
    | with_reducible refine State.setFld_unit hP (hA.mono (by decide)) (by first | omega | (simp only [tbPage, jrnlPage, svcPage, swarmPage, eslPage, dmaPage, synPage, domPage, linkPage, dmacPage, chPage, regPage, blkPage, bankPage]; omega)) ?_
    | with_reducible refine keeps_ite ?_ ?_
    | split

theorem State.tbWritten_keeps (hP : Keeps A P) (hA : Sub 0x2000001808043eb A) {s : State} {old v : Dword} (hs : P s) : P (State.tbWritten s old v) := by
  unfold State.tbWritten
  repeat' first
    | with_reducible assumption
    | lift_lets -underBinder
    | (intro x; revert x; refine keeps_let P ?_ (fun _ _ => ?_))
    | (intro x; clear_value x)
    | with_reducible refine State.setBit_unit hP (hA.mono (by decide)) (by first | omega | (simp only [tbPage, jrnlPage, svcPage, swarmPage, eslPage, dmaPage, synPage, domPage, linkPage, dmacPage, chPage, regPage, blkPage, bankPage]; omega)) ?_
    | with_reducible refine State.refChanged_keeps hP (hA.mono (by decide)) ?_
    | with_reducible refine State.timebaseReset_keeps hP (hA.mono (by decide)) ?_
    | with_reducible refine keeps_ite ?_ ?_
    | split

theorem State.countTime_keeps (hP : Keeps A P) (hA : Sub 0x2010003608003e9 A) {s : State} (hs : P s) : P (State.countTime s) := by
  unfold State.countTime
  repeat' first
    | with_reducible assumption
    | with_reducible refine State.timebaseRestart_keeps hP (hA.mono (by decide)) ?_
    | with_reducible refine State.domAdvance_keeps hP (hA.mono (by decide)) ?_
    | with_reducible refine hP.modTime (hA.mono (by decide)) (fun _ => rfl) ?_
    | with_reducible refine State.passTime_keeps hP (hA.mono (by decide)) ?_
    | with_reducible refine keeps_ite ?_ ?_
    | split

end Sys2Proof.Machine
end

