-- ==== Sys2Proof/Laws/EffectsPower.lean ====
section
/-! SUPPORT. The effects of each operation of Machine/ (Load.lean, Control.lean, Power.lean): the primitive changes it may make, as a mask. -/
namespace Sys2Proof.Machine
open Sys2Proof
set_option linter.unusedTactic false
set_option linter.unreachableTactic false
set_option linter.unusedVariables false
set_option linter.unusedSimpArgs false
variable {A : Nat} {P : State → Prop}

theorem State.loadItem_keeps (hP : Keeps A P) (hA : Sub 0x2000000008407eb A) {s : State} {x : Item2} (hs : P s) : P (State.loadItem s x) := by
  unfold State.loadItem
  repeat' first
    | with_reducible assumption
    | with_reducible refine State.commit_keeps hP (hA.mono (by decide)) ?_
    | with_reducible refine State.storeValue_keeps hP (hA.mono (by decide)) ?_
    | with_reducible refine State.rejectWrite_keeps hP (hA.mono (by decide)) ?_
    | with_reducible refine State.reclampGate_keeps hP (hA.mono (by decide)) ?_
    | with_reducible refine hP.wrAny (hA.mono (by decide)) _ _ _ ?_
    | split
    | with_reducible refine keeps_pair (by assumption) ?_
    | with_reducible refine keeps_pair₂ (by assumption) ?_

theorem State.loadItems_keeps (hP : Keeps A P) (hA : Sub 0x2000000008407eb A) {s : State} {l : List (Nat × Item2)} (hs : P s) : P (State.loadItems s l) := by
  unfold State.loadItems
  repeat' first
    | with_reducible assumption
    | with_reducible refine State.forEach_keeps hP (hA.mono (by decide)) ?_ (fun _ _ _ => ?_)
    | with_reducible refine State.loadItem_keeps hP (hA.mono (by decide)) ?_
    | with_reducible refine State.showBudget_keeps hP (hA.mono (by decide)) ?_
    | with_reducible refine keeps_foldl _ (fun _ _ _ => ?_) ?_

theorem State.loadEnd_keeps (hP : Keeps A P) (hA : Sub 0xa000208008047ef A) {s : State} {f : Option LoadFail} (hs : P s) : P (State.loadEnd s f) := by
  unfold State.loadEnd
  repeat' first
    | with_reducible assumption
    | lift_lets -underBinder
    | (intro x; revert x; refine keeps_let P ?_ (fun _ _ => ?_))
    | (intro x; clear_value x)
    | with_reducible refine State.setFld_keeps hP (hA.mono (by decide)) ?_
    | with_reducible refine State.raise_keeps hP (hA.mono (by decide)) ?_
    | with_reducible refine State.setPair_keeps hP (hA.mono (by decide)) ?_
    | with_reducible refine State.post_keeps hP (hA.mono (by decide)) ?_
    | with_reducible refine hP.wrAny (hA.mono (by decide)) _ _ _ ?_
    | with_reducible refine State.entry_keeps hP (hA.mono (by decide)) ?_
    | with_reducible refine State.endPending_keeps hP (hA.mono (by decide)) ?_
    | with_reducible refine State.setRunState_keeps hP (hA.mono (by decide)) ?_
    | with_reducible refine keeps_ite ?_ ?_
    | split
    | (rw [State.mk_run]; apply hP.run (hA.mono (by decide)))
    | with_reducible refine keeps_pair (by assumption) ?_
    | with_reducible refine keeps_pair₂ (by assumption) ?_

theorem State.secondPass_keeps (hP : Keeps A P) (hA : Sub 0xa000708008447ef A) {s : State} {l : List (Nat × Item2)} {brk : Option LoadBreak} {digest : BitVec 64} {insts : List Meas} {lines : List (Nat × LineUse)} (hs : P s) : P (State.secondPass s l brk digest insts lines) := by
  unfold State.secondPass
  repeat' first
    | with_reducible assumption
    | lift_lets -underBinder
    | (intro x; revert x; refine keeps_let P ?_ (fun _ _ => ?_))
    | (intro x; clear_value x)
    | with_reducible refine State.loadItems_keeps hP (hA.mono (by decide)) ?_
    | with_reducible refine State.forEach_keeps hP (hA.mono (by decide)) ?_ (fun _ _ _ => ?_)
    | with_reducible refine State.setFld_keeps hP (hA.mono (by decide)) ?_
    | with_reducible refine State.loadEnd_keeps hP (hA.mono (by decide)) ?_
    | with_reducible refine State.setPair_keeps hP (hA.mono (by decide)) ?_
    | with_reducible refine State.badCompletion_keeps hP (hA.mono (by decide)) ?_
    | with_reducible refine hP.iword (hA.mono (by decide)) _ _ _ _ ?_
    | fail_if_no_progress beta_reduce
    | split
    | (rw [State.mk_cellInit]; apply hP.cellInit (hA.mono (by decide)))
    | (rw [State.mk_insts]; apply hP.insts (hA.mono (by decide)))
    | (rw [State.mk_lineUses]; apply hP.lineUses (hA.mono (by decide)))
    | with_reducible refine keeps_pair (by assumption) ?_
    | with_reducible refine keeps_pair₂ (by assumption) ?_

theorem State.loadComplete_keeps (hP : Keeps A P) (hA : Sub 0xa000708008447ef A) {s : State} {ws : List (BitVec 64)} {brk : Option LoadBreak} {insts : List Meas} {lines : List (Nat × LineUse)} (hs : P s) : P (State.loadComplete s ws brk insts lines) := by
  unfold State.loadComplete
  repeat' first
    | with_reducible assumption
    | lift_lets -underBinder
    | (intro x; revert x; refine keeps_let P ?_ (fun _ _ => ?_))
    | (intro x; clear_value x)
    | with_reducible refine State.loadEnd_keeps hP (hA.mono (by decide)) ?_
    | with_reducible refine State.badCompletion_keeps hP (hA.mono (by decide)) ?_
    | with_reducible refine State.secondPass_keeps hP (hA.mono (by decide)) ?_
    | with_reducible refine keeps_ite ?_ ?_
    | split
    | with_reducible refine keeps_pair (by assumption) ?_
    | with_reducible refine keeps_pair₂ (by assumption) ?_

theorem State.loadBegin_keeps (hP : Keeps A P) (hA : Sub 0x2000008008003ef A) {s : State} {a : Agent} (hs : P s) : P (State.loadBegin s a) := by
  unfold State.loadBegin
  repeat' first
    | with_reducible assumption
    | lift_lets -underBinder
    | (intro x; revert x; refine keeps_let P ?_ (fun _ _ => ?_))
    | (intro x; clear_value x)
    | with_reducible refine hP.send (hA.mono (by decide)) _ _ ?_
    | with_reducible refine hP.drawn (hA.mono (by decide)) _ ?_
    | with_reducible refine State.entry_keeps hP (hA.mono (by decide)) ?_
    | with_reducible refine State.setFld_keeps hP (hA.mono (by decide)) ?_
    | (rw [State.mk_run]; apply hP.run (hA.mono (by decide)))

theorem State.stateEntry_keeps (hP : Keeps A P) (hA : Sub 0x2000000008003e9 A) {s : State} {internal : Bool} {a : Agent} (hs : P s) : P (State.stateEntry s internal a) := by
  unfold State.stateEntry
  repeat' first
    | with_reducible assumption
    | with_reducible refine State.entry_keeps hP (hA.mono (by decide)) ?_

theorem State.sendDormant_keeps (hP : Keeps A P) (hA : Sub 0x2008000088003eb A) {s : State} (hs : P s) : P (State.sendDormant s) := by
  unfold State.sendDormant
  repeat' first
    | with_reducible assumption
    | lift_lets -underBinder
    | (intro x; revert x; refine keeps_let P ?_ (fun _ _ => ?_))
    | (intro x; clear_value x)
    | with_reducible refine State.modSwarm_keeps hP (hA.mono (by decide)) ?_
    | with_reducible refine State.forEach_keeps hP (hA.mono (by decide)) ?_ (fun _ _ _ => ?_)
    | with_reducible refine State.eventRecord_keeps hP (hA.mono (by decide)) ?_
    | with_reducible refine State.sendReliable_keeps hP (hA.mono (by decide)) ?_
    | fail_if_no_progress beta_reduce
    | with_reducible refine keeps_ite ?_ ?_
    | split

theorem State.portOff_keeps (hP : Keeps A P) (hA : Sub 0x2008000388007eb A) {s : State} {p : Nat} (hs : P s) : P (State.portOff s p) := by
  unfold State.portOff
  repeat' first
    | with_reducible assumption
    | lift_lets -underBinder
    | (intro x; revert x; refine keeps_let P ?_ (fun _ _ => ?_))
    | (intro x; clear_value x)
    | with_reducible refine State.setFld_unit hP (hA.mono (by decide)) (by first | omega | (simp only [tbPage, jrnlPage, svcPage, swarmPage, eslPage, dmaPage, synPage, domPage, linkPage, dmacPage, chPage, regPage, blkPage, bankPage]; omega)) ?_
    | with_reducible refine State.setLstate_keeps hP (hA.mono (by decide)) ?_
    | with_reducible refine hP.link (hA.mono (by decide)) _ _ _ ?_
    | with_reducible refine State.reask_keeps hP (hA.mono (by decide)) ?_
    | with_reducible refine State.loseLines_keeps hP (hA.mono (by decide)) ?_
    | with_reducible refine State.showMember_keeps hP (hA.mono (by decide)) ?_
    | with_reducible refine State.unreach_keeps hP (hA.mono (by decide)) ?_
    | with_reducible refine keeps_ite ?_ ?_
    | split

theorem State.poolOff_keeps (hP : Keeps A P) (hA : Sub 0x4001 A) {s : State} {k : Nat} (hs : P s) : P (State.poolOff s k) := by
  unfold State.poolOff
  repeat' first
    | with_reducible assumption
    | lift_lets -underBinder
    | (intro x; revert x; refine keeps_let P ?_ (fun _ _ => ?_))
    | (intro x; clear_value x)
    | with_reducible refine State.modChan_keeps hP (hA.mono (by decide)) ?_
    | with_reducible refine State.setReady_keeps hP (hA.mono (by decide)) ?_
    | with_reducible refine State.showPool_keeps hP (hA.mono (by decide)) ?_
    | fail_if_no_progress beta_reduce
    | with_reducible refine keeps_ite ?_ ?_
    | split

theorem State.clusterBegin_keeps (hP : Keeps A P) (hA : Sub 0x1a00f27cbc9b47ef A) {s : State} {a : Agent} (hs : P s) : P (State.clusterBegin s a) := by
  unfold State.clusterBegin
  repeat' first
    | with_reducible assumption
    | lift_lets -underBinder
    | (intro x; revert x; refine keeps_let P ?_ (fun _ _ => ?_))
    | (intro x; clear_value x)
    | with_reducible refine State.stateEntry_keeps hP (hA.mono (by decide)) ?_
    | with_reducible refine State.setFld_keeps hP (hA.mono (by decide)) ?_
    | with_reducible refine State.forEach_keeps hP (hA.mono (by decide)) ?_ (fun _ _ _ => ?_)
    | with_reducible refine State.synSleep_keeps hP (hA.mono (by decide)) ?_
    | with_reducible refine State.sendDormant_keeps hP (hA.mono (by decide)) ?_
    | with_reducible refine State.portOff_keeps hP (hA.mono (by decide)) ?_
    | with_reducible refine State.eslOff_keeps hP (hA.mono (by decide)) ?_
    | with_reducible refine State.settleRuns_keeps hP (hA.mono (by decide)) ?_
    | with_reducible refine State.setStuck_keeps hP (hA.mono (by decide)) ?_
    | with_reducible refine State.poolOff_keeps hP (hA.mono (by decide)) ?_
    | fail_if_no_progress beta_reduce
    | (rw [State.mk_power]; apply hP.power (hA.mono (by decide)))
    | (rw [State.mk_trigOut]; apply hP.trigOut (hA.mono (by decide)))

theorem State.clusterEntered_keeps (hP : Keeps A P) (hA : Sub 0x400000000 A) {s : State} (hs : P s) : P (State.clusterEntered s) := by
  unfold State.clusterEntered
  repeat' first
    | with_reducible assumption
    | with_reducible refine keeps_ite ?_ ?_
    | split
    | (rw [State.mk_power]; apply hP.power (hA.mono (by decide)))

theorem State.wakeBegin_keeps (hP : Keeps A P) (hA : Sub 0x2008004808047e9 A) {s : State} (hs : P s) : P (State.wakeBegin s) := by
  unfold State.wakeBegin
  repeat' first
    | with_reducible assumption
    | lift_lets -underBinder
    | (intro x; revert x; refine keeps_let P ?_ (fun _ _ => ?_))
    | (intro x; clear_value x)
    | with_reducible refine State.forEach_keeps hP (hA.mono (by decide)) ?_ (fun _ _ _ => ?_)
    | with_reducible refine State.beginCal_keeps hP (hA.mono (by decide)) ?_
    | with_reducible refine State.setLstate_keeps hP (hA.mono (by decide)) ?_
    | with_reducible refine State.synWake_keeps hP (hA.mono (by decide)) ?_
    | with_reducible refine State.modSwarm_keeps hP (hA.mono (by decide)) ?_
    | fail_if_no_progress beta_reduce
    | with_reducible refine keeps_ite ?_ ?_
    | split
    | (rw [State.mk_power]; apply hP.power (hA.mono (by decide)))

theorem State.wakeComplete_keeps (hP : Keeps A P) (hA : Sub 0x2008005008043eb A) {s : State} {levels : BitVec 96} (hs : P s) : P (State.wakeComplete s levels) := by
  unfold State.wakeComplete
  repeat' first
    | with_reducible assumption
    | lift_lets -underBinder
    | (intro x; revert x; refine keeps_let P ?_ (fun _ _ => ?_))
    | (intro x; clear_value x)
    | with_reducible refine State.stateEntry_keeps hP (hA.mono (by decide)) ?_
    | with_reducible refine State.setFld_keeps hP (hA.mono (by decide)) ?_
    | with_reducible refine State.forEach_keeps hP (hA.mono (by decide)) ?_ (fun _ _ _ => ?_)
    | with_reducible refine State.rotation_keeps hP (hA.mono (by decide)) ?_
    | with_reducible refine State.checkDone_keeps hP (hA.mono (by decide)) ?_
    | with_reducible refine State.takeLevel_keeps hP (hA.mono (by decide)) ?_
    | with_reducible refine State.modSwarm_keeps hP (hA.mono (by decide)) ?_
    | with_reducible refine State.setAlign_keeps hP (hA.mono (by decide)) ?_
    | fail_if_no_progress beta_reduce
    | with_reducible refine keeps_ite ?_ ?_
    | split
    | (rw [State.mk_power]; apply hP.power (hA.mono (by decide)))

theorem State.judged_keeps (hP : Keeps A P) (hA : Sub 0x2000000008003eb A) {s : State} {a : Agent} {v : Dword} {o : JOut} (hs : P s) : P (State.judged s a v o) := by
  unfold State.judged
  repeat' first
    | with_reducible assumption
    | with_reducible refine State.post_keeps hP (hA.mono (by decide)) ?_
    | with_reducible refine State.journalAt_keeps hP (hA.mono (by decide)) ?_

theorem State.accepted_keeps (hP : Keeps A P) (hA : Sub 0x2000000008003eb A) {s : State} {a : Agent} {v : Dword} (hs : P s) : P (State.accepted s a v) := by
  unfold State.accepted
  repeat' first
    | with_reducible assumption
    | with_reducible refine State.judged_keeps hP (hA.mono (by decide)) ?_
    | with_reducible refine State.setStatus_keeps hP (hA.mono (by decide)) ?_

theorem State.acceptedPending_keeps (hP : Keeps A P) (hA : Sub 0x2000008008003eb A) {s : State} {a : Agent} {v : Dword} (hs : P s) : P (State.acceptedPending s a v) := by
  unfold State.acceptedPending
  repeat' first
    | with_reducible assumption
    | lift_lets -underBinder
    | (intro x; revert x; refine keeps_let P ?_ (fun _ _ => ?_))
    | (intro x; clear_value x)
    | with_reducible refine State.judged_keeps hP (hA.mono (by decide)) ?_
    | with_reducible refine State.setStatus_keeps hP (hA.mono (by decide)) ?_
    | (rw [State.mk_run]; apply hP.run (hA.mono (by decide)))

theorem State.acceptLoad_keeps (hP : Keeps A P) (hA : Sub 0x2000008008003ef A) {s : State} {a : Agent} {v : Dword} (hs : P s) : P (State.acceptLoad s a v) := by
  unfold State.acceptLoad
  repeat' first
    | with_reducible assumption
    | with_reducible refine State.loadBegin_keeps hP (hA.mono (by decide)) ?_
    | with_reducible refine State.acceptedPending_keeps hP (hA.mono (by decide)) ?_

theorem State.acceptArm_keeps (hP : Keeps A P) (hA : Sub 0x1a00a2781c9b47ef A) {s : State} {a : Agent} {v : Dword} (hs : P s) : P (State.acceptArm s a v) := by
  unfold State.acceptArm
  repeat' first
    | with_reducible assumption
    | with_reducible refine State.refuseArm_keeps hP (hA.mono (by decide)) ?_
    | with_reducible refine State.judged_keeps hP (hA.mono (by decide)) ?_
    | with_reducible refine State.setStatus_keeps hP (hA.mono (by decide)) ?_
    | with_reducible refine State.armSwarm_keeps hP (hA.mono (by decide)) ?_
    | with_reducible refine State.acceptedPending_keeps hP (hA.mono (by decide)) ?_
    | with_reducible refine State.doArm_keeps hP (hA.mono (by decide)) ?_
    | with_reducible refine State.accepted_keeps hP (hA.mono (by decide)) ?_
    | with_reducible refine keeps_ite ?_ ?_
    | split
    | with_reducible refine keeps_pair (by assumption) ?_
    | with_reducible refine keeps_pair₂ (by assumption) ?_

theorem State.acceptStart_keeps (hP : Keeps A P) (hA : Sub 0x1a00e2781f9bc7ef A) {s : State} {a : Agent} {v : Dword} (hs : P s) : P (State.acceptStart s a v) := by
  unfold State.acceptStart
  repeat' first
    | with_reducible assumption
    | with_reducible refine State.runLocal_keeps hP (hA.mono (by decide)) ?_
    | with_reducible refine State.accepted_keeps hP (hA.mono (by decide)) ?_

theorem State.acceptStop_keeps (hP : Keeps A P) (hA : Sub 0x1a00e2781f9bc7ef A) {s : State} {a : Agent} {v : Dword} (hs : P s) : P (State.acceptStop s a v) := by
  unfold State.acceptStop
  repeat' first
    | with_reducible assumption
    | with_reducible refine State.runLocal_keeps hP (hA.mono (by decide)) ?_
    | with_reducible refine State.accepted_keeps hP (hA.mono (by decide)) ?_

theorem State.acceptAbort_keeps (hP : Keeps A P) (hA : Sub 0x1a00e2781f9bc7ef A) {s : State} {a : Agent} {v : Dword} (hs : P s) : P (State.acceptAbort s a v) := by
  unfold State.acceptAbort
  repeat' first
    | with_reducible assumption
    | with_reducible refine State.setStatus_keeps hP (hA.mono (by decide)) ?_
    | with_reducible refine State.abortArm_keeps hP (hA.mono (by decide)) ?_
    | with_reducible refine State.judged_keeps hP (hA.mono (by decide)) ?_
    | with_reducible refine State.runLocal_keeps hP (hA.mono (by decide)) ?_
    | with_reducible refine State.accepted_keeps hP (hA.mono (by decide)) ?_
    | with_reducible refine keeps_ite ?_ ?_
    | split

theorem State.acceptReset_keeps (hP : Keeps A P) (hA : Sub 0xa000218048947ef A) {s : State} {a : Agent} {v : Dword} (hs : P s) : P (State.acceptReset s a v) := by
  unfold State.acceptReset
  repeat' first
    | with_reducible assumption
    | with_reducible refine State.resetRun_keeps hP (hA.mono (by decide)) ?_
    | with_reducible refine State.accepted_keeps hP (hA.mono (by decide)) ?_

theorem State.acceptCluster_keeps (hP : Keeps A P) (hA : Sub 0x1a00f27cbc9b47ef A) {s : State} {a : Agent} {v : Dword} (hs : P s) : P (State.acceptCluster s a v) := by
  unfold State.acceptCluster
  repeat' first
    | with_reducible assumption
    | with_reducible refine State.clusterBegin_keeps hP (hA.mono (by decide)) ?_
    | with_reducible refine State.accepted_keeps hP (hA.mono (by decide)) ?_

theorem State.acceptWake_keeps (hP : Keeps A P) (hA : Sub 0x2008004808047eb A) {s : State} {a : Agent} {v : Dword} (hs : P s) : P (State.acceptWake s a v) := by
  unfold State.acceptWake
  repeat' first
    | with_reducible assumption
    | with_reducible refine State.wakeBegin_keeps hP (hA.mono (by decide)) ?_
    | with_reducible refine State.accepted_keeps hP (hA.mono (by decide)) ?_

theorem State.judgeNow_keeps (hP : Keeps A P) (hA : Sub 0x2000008008003eb A) {s : State} {a : Agent} {v : Dword} {accept : State → State} (hs : P s) (haccept : ∀ (x0 : State), P x0 → P (accept x0)) : P (State.judgeNow s a v accept) := by
  unfold State.judgeNow
  repeat' first
    | with_reducible assumption
    | lift_lets -underBinder
    | (intro x; revert x; refine keeps_let P ?_ (fun _ _ => ?_))
    | (intro x; clear_value x)
    | with_reducible refine State.judged_keeps hP (hA.mono (by decide)) ?_
    | with_reducible refine State.raiseWrite_keeps hP (hA.mono (by decide)) ?_
    | with_reducible refine State.setStatus_keeps hP (hA.mono (by decide)) ?_
    | with_reducible refine State.addSat_keeps hP (hA.mono (by decide)) ?_
    | with_reducible refine haccept _ ?_
    | with_reducible refine keeps_ite ?_ ?_
    | split
    | (rw [State.mk_run]; apply hP.run (hA.mono (by decide)))

theorem State.judgeCmd_keeps (hP : Keeps A P) (hA : Sub 0x2000008008003eb A) {s : State} {a : Agent} {v : Dword} {accept : State → State} (hs : P s) (haccept : ∀ (x0 : State), P x0 → P (accept x0)) : P (State.judgeCmd s a v accept) := by
  unfold State.judgeCmd
  repeat' first
    | with_reducible assumption
    | with_reducible refine State.judgeNow_keeps hP (hA.mono (by decide)) ?_ (fun _ _ => ?_)
    | with_reducible refine haccept _ ?_
    | with_reducible refine keeps_ite ?_ ?_
    | split
    | (rw [State.mk_run]; apply hP.run (hA.mono (by decide)))

theorem State.holdBy_keeps (hP : Keeps A P) (hA : Sub 0x400000400000000 A) {s : State} {bit : Nat} {keepSvc : Bool} {f : Power → Power} (hs : P s) : P (State.holdBy s bit keepSvc f) := by
  unfold State.holdBy
  repeat' first
    | with_reducible assumption
    | with_reducible refine hP.wiped (hA.mono (by decide)) _ _ ?_
    | (rw [State.mk_power]; apply hP.power (hA.mono (by decide)))

theorem State.resetNAssert_keeps (hP : Keeps A P) (hA : Sub 0x400000400000000 A) {s : State} (hs : P s) : P (State.resetNAssert s) := by
  unfold State.resetNAssert
  repeat' first
    | with_reducible assumption
    | with_reducible refine State.holdBy_keeps hP (hA.mono (by decide)) ?_

theorem State.testEnHigh_keeps (hP : Keeps A P) (hA : Sub 0x400000400000000 A) {s : State} (hs : P s) : P (State.testEnHigh s) := by
  unfold State.testEnHigh
  repeat' first
    | with_reducible assumption
    | with_reducible refine State.holdBy_keeps hP (hA.mono (by decide)) ?_

theorem State.railFail_keeps (hP : Keeps A P) (hA : Sub 0x404000400000003 A) {s : State} {rail : Rail} {good : Bool} (hs : P s) : P (State.railFail s rail good) := by
  unfold State.railFail
  repeat' first
    | with_reducible assumption
    | lift_lets -underBinder
    | (intro x; revert x; refine keeps_let P ?_ (fun _ _ => ?_))
    | (intro x; first | (have _h : Nat := x; clear _h; subst x) | clear_value x)
    | with_reducible refine hP.wiped (hA.mono (by decide)) _ _ ?_
    | with_reducible refine hP.regsKeep (hA.mono (by decide)) _ _ ?_
    | with_reducible refine hP.regsNone (hA.mono (by decide)) _ ?_
    | with_reducible refine keeps_ite ?_ ?_
    | split
    | (rw [State.mk_power]; apply hP.power (hA.mono (by decide)))
    | (rw [State.mk_tap]; apply hP.tap (hA.mono (by decide)))
    | with_reducible refine keeps_pair (by assumption) ?_
    | with_reducible refine keeps_pair₂ (by assumption) ?_

theorem State.monitorRelease_keeps (hP : Keeps A P) (hA : Sub 0x400000000 A) {s : State} (hs : P s) : P (State.monitorRelease s) := by
  unfold State.monitorRelease
  repeat' first
    | with_reducible assumption
    | (rw [State.mk_power]; apply hP.power (hA.mono (by decide)))

/-- Overwriting an entry leaves every entry its size. -/
theorem overwriteGroup_lengths (i : Nat) (g : List Rec) (k : Nat) (l : List (List Rec)) : (overwriteGroup i g k l).map List.length = l.map List.length := by
  induction l generalizing k with
  | nil => rfl
  | cons e l ih =>
    simp only [overwriteGroup, List.map_cons, ih]
    split <;> simp

theorem State.journalFails_keeps (hP : Keeps A P) (hA : Sub 0x200 A) {s : State} {idx : Nat} (hs : P s) : P (State.journalFails s idx) := by
  unfold State.journalFails
  simp only []
  exact keeps_ite (hP.ringOver (hA.mono (by decide)) _ _ (overwriteGroup_lengths _ _ _ _) hs) hs

theorem State.chipUe_keeps (hP : Keeps A P) (hA : Sub 0xa008208088847ef A) {s : State} {code : Nat} {loc : Nat} (hs : P s) : P (State.chipUe s code loc) := by
  unfold State.chipUe
  repeat' first
    | with_reducible assumption
    | lift_lets -underBinder
    | (intro x; revert x; refine keeps_let P ?_ (fun _ _ => ?_))
    | (intro x; clear_value x)
    | with_reducible refine State.error_keeps hP (hA.mono (by decide)) ?_
    | with_reducible refine State.raise_keeps hP (hA.mono (by decide)) ?_
    | with_reducible refine State.setFld_keeps hP (hA.mono (by decide)) ?_
    | with_reducible refine State.journalFails_keeps hP (hA.mono (by decide)) ?_
    | with_reducible refine State.raiseEvent_keeps hP (hA.mono (by decide)) ?_
    | with_reducible refine State.chipStop_keeps hP (hA.mono (by decide)) ?_
    | with_reducible refine keeps_ite ?_ ?_
    | split

theorem State.structureFails_keeps (hP : Keeps A P) (hA : Sub 0xa008208088847ef A) {s : State} {code : BitVec 4} {loc : BitVec 30} (hs : P s) : P (State.structureFails s code loc) := by
  unfold State.structureFails
  repeat' first
    | with_reducible assumption
    | with_reducible refine State.chipUe_keeps hP (hA.mono (by decide)) ?_
    | with_reducible refine keeps_ite ?_ ?_
    | split

theorem State.fuseFails_keeps (hP : Keeps A P) (hA : Sub 0xa00820c088847ef A) {s : State} {b : BitVec 8} (hs : P s) : P (State.fuseFails s b) := by
  unfold State.fuseFails
  repeat' first
    | with_reducible assumption
    | lift_lets -underBinder
    | (intro x; revert x; refine keeps_let P ?_ (fun _ _ => ?_))
    | (intro x; clear_value x)
    | with_reducible refine State.forEach_keeps hP (hA.mono (by decide)) ?_ (fun _ _ _ => ?_)
    | with_reducible refine hP.wrAny (hA.mono (by decide)) _ _ _ ?_
    | with_reducible refine State.chipUe_keeps hP (hA.mono (by decide)) ?_
    | fail_if_no_progress beta_reduce
    | (rw [State.mk_power]; apply hP.power (hA.mono (by decide)))

theorem State.startUp_keeps (hP : Keeps A P) (hA : Sub 0xa02820d288847ef A) {s : State} {strap : Bool} {bad : List (BitVec 8)} {levels : BitVec 96} {ohms : Option Nat} (hs : P s) : P (State.startUp s strap bad levels ohms) := by
  unfold State.startUp
  repeat' first
    | with_reducible assumption
    | lift_lets -underBinder
    | (intro x; revert x; refine keeps_let P ?_ (fun _ _ => ?_))
    | (intro x; clear_value x)
    | with_reducible refine State.setRc_keeps hP (hA.mono (by decide)) ?_
    | with_reducible refine State.setBit_keeps hP (hA.mono (by decide)) ?_
    | with_reducible refine State.setQueen_keeps hP (hA.mono (by decide)) ?_
    | with_reducible refine State.forEach_keeps hP (hA.mono (by decide)) ?_ (fun _ _ _ => ?_)
    | with_reducible refine State.setFld_keeps hP (hA.mono (by decide)) ?_
    | with_reducible refine State.takeLevel_keeps hP (hA.mono (by decide)) ?_
    | with_reducible refine State.fuseFails_keeps hP (hA.mono (by decide)) ?_
    | with_reducible refine keeps_foldl _ (fun _ _ _ => ?_) ?_
    | fail_if_no_progress beta_reduce
    | (rw [State.mk_power]; apply hP.power (hA.mono (by decide)))
    | (rw [State.mk_zq]; apply hP.zq (hA.mono (by decide)))

theorem State.resetRelease_keeps (hP : Keeps A P) (hA : Sub 0xa02820d288847ef A) {s : State} {pin : ResetPin} {strap : Bool} {bad : List (BitVec 8)} {levels : BitVec 96} {ohms : Option Nat} (hs : P s) : P (State.resetRelease s pin strap bad levels ohms) := by
  unfold State.resetRelease
  repeat' first
    | with_reducible assumption
    | lift_lets -underBinder
    | (intro x; revert x; refine keeps_let P ?_ (fun _ _ => ?_))
    | (intro x; clear_value x)
    | with_reducible refine State.startUp_keeps hP (hA.mono (by decide)) ?_
    | with_reducible refine keeps_ite ?_ ?_
    | split
    | (rw [State.mk_power]; apply hP.power (hA.mono (by decide)))
    | with_reducible refine keeps_pair (by assumption) ?_
    | with_reducible refine keeps_pair₂ (by assumption) ?_

theorem State.selfTestDone_keeps (hP : Keeps A P) (hA : Sub 0x400003001 A) {s : State} {bad : List (Fin 256 × BitVec 14 × Bool)} (hs : P s) : P (State.selfTestDone s bad) := by
  unfold State.selfTestDone
  repeat' first
    | with_reducible assumption
    | lift_lets -underBinder
    | (intro x; revert x; refine keeps_let P ?_ (fun _ _ => ?_))
    | (intro x; clear_value x)
    | with_reducible refine State.addSat_unit hP (hA.mono (by decide)) (by first | omega | (simp only [tbPage, jrnlPage, svcPage, swarmPage, eslPage, dmaPage, synPage, domPage, linkPage, dmacPage, chPage, regPage, blkPage, bankPage]; omega)) ?_
    | with_reducible refine State.writePoison_keeps hP (hA.mono (by decide)) ?_
    | with_reducible refine keeps_foldl _ (fun _ _ _ => ?_) ?_
    | with_reducible refine hP.storeKeep (hA.mono (by decide)) _ _ ?_
    | with_reducible refine hP.storeNone (hA.mono (by decide)) _ ?_
    | fail_if_no_progress beta_reduce
    | with_reducible refine keeps_ite ?_ ?_
    | split
    | (rw [State.mk_power]; apply hP.power (hA.mono (by decide)))

theorem State.initialCalDone_keeps (hP : Keeps A P) (hA : Sub 0x2000004008043eb A) {s : State} {bad : List (Fin 96 × BitVec 17)} {tables : List (Fin 96 × Fin 17 × CalTable)} (hs : P s) : P (State.initialCalDone s bad tables) := by
  unfold State.initialCalDone
  repeat' first
    | with_reducible assumption
    | lift_lets -underBinder
    | (intro x; revert x; refine keeps_let P ?_ (fun _ _ => ?_))
    | (intro x; clear_value x)
    | with_reducible refine State.forEach_keeps hP (hA.mono (by decide)) ?_ (fun _ _ _ => ?_)
    | with_reducible refine State.calDone_keeps hP (hA.mono (by decide)) ?_
    | with_reducible refine State.poolOff_keeps hP (hA.mono (by decide)) ?_
    | with_reducible refine State.unitEvent_keeps hP (hA.mono (by decide)) ?_
    | with_reducible refine State.post_keeps hP (hA.mono (by decide)) ?_
    | with_reducible refine State.setFld_keeps hP (hA.mono (by decide)) ?_
    | fail_if_no_progress beta_reduce
    | with_reducible refine keeps_ite ?_ ?_
    | split
    | (rw [State.mk_power]; apply hP.power (hA.mono (by decide)))

theorem State.dropHostWaits_keeps (hP : Keeps A P) (hA : Sub 0x20000000000000 A) {s : State} (hs : P s) : P (State.dropHostWaits s) := by
  unfold State.dropHostWaits
  repeat' first
    | with_reducible assumption
    | (rw [State.mk_reqs]; apply hP.reqs (hA.mono (by decide)))

theorem State.clearHostPages_keeps (hP : Keeps A P) (hA : Sub 0x200000000000c03 A) {s : State} (hs : P s) : P (State.clearHostPages s) := by
  unfold State.clearHostPages
  repeat' first
    | with_reducible assumption
    | lift_lets -underBinder
    | (intro x; revert x; refine keeps_let P ?_ (fun _ _ => ?_))
    | (intro x; clear_value x)
    | with_reducible refine hP.regsKeep (hA.mono (by decide)) _ _ ?_
    | with_reducible refine hP.regsNone (hA.mono (by decide)) _ ?_
    | with_reducible refine hP.shadowsKeep (hA.mono (by decide)) _ _ ?_
    | with_reducible refine hP.keysNone (hA.mono (by decide)) _ ?_
    | with_reducible refine hP.freshKeep (hA.mono (by decide)) _ _ ?_
    | with_reducible refine hP.freshNone (hA.mono (by decide)) _ ?_
    | fail_if_no_progress beta_reduce

theorem State.resetEngines_keeps (hP : Keeps A P) (hA : Sub 0x180000000000030 A) {s : State} (hs : P s) : P (State.resetEngines s) := by
  unfold State.resetEngines
  repeat' first
    | with_reducible assumption
    | lift_lets -underBinder
    | (intro x; revert x; refine keeps_let P ?_ (fun _ _ => ?_))
    | (intro x; clear_value x)
    | with_reducible refine hP.dmaNone (hA.mono (by decide)) _ ?_
    | with_reducible refine hP.msixNone (hA.mono (by decide)) _ ?_
    | (rw [State.mk_endpoint]; apply hP.endpoint (hA.mono (by decide)))
    | (rw [State.mk_dmaTurn]; apply hP.dmaTurn (hA.mono (by decide)))

theorem State.endpointReset_keeps (hP : Keeps A P) (hA : Sub 0xba0020c00804fff A) {s : State} {bit : Nat} (hs : P s) : P (State.endpointReset s bit) := by
  unfold State.endpointReset
  repeat' first
    | with_reducible assumption
    | lift_lets -underBinder
    | (intro x; revert x; refine keeps_let P ?_ (fun _ _ => ?_))
    | (intro x; clear_value x)
    | with_reducible refine State.linkLost_keeps hP (hA.mono (by decide)) ?_
    | with_reducible refine State.setRc_keeps hP (hA.mono (by decide)) ?_
    | with_reducible refine State.entry_keeps hP (hA.mono (by decide)) ?_
    | with_reducible refine State.dropHostWaits_keeps hP (hA.mono (by decide)) ?_
    | with_reducible refine State.resetEngines_keeps hP (hA.mono (by decide)) ?_
    | with_reducible refine State.clearHostPages_keeps hP (hA.mono (by decide)) ?_
    | with_reducible refine State.loadEnd_keeps hP (hA.mono (by decide)) ?_
    | with_reducible refine keeps_ite ?_ ?_
    | split
    | (rw [State.mk_power]; apply hP.power (hA.mono (by decide)))

theorem State.perstN_keeps (hP : Keeps A P) (hA : Sub 0xba0020c00804fff A) {s : State} (hs : P s) : P (State.perstN s) := by
  unfold State.perstN
  repeat' first
    | with_reducible assumption
    | lift_lets -underBinder
    | (intro x; revert x; refine keeps_let P ?_ (fun _ _ => ?_))
    | (intro x; clear_value x)
    | with_reducible refine State.endpointReset_keeps hP (hA.mono (by decide)) ?_
    | (rw [State.mk_power]; apply hP.power (hA.mono (by decide)))

theorem State.hotReset_keeps (hP : Keeps A P) (hA : Sub 0xba0020c00804fff A) {s : State} (hs : P s) : P (State.hotReset s) := by
  unfold State.hotReset
  repeat' first
    | with_reducible assumption
    | with_reducible refine State.endpointReset_keeps hP (hA.mono (by decide)) ?_

theorem State.cfgWrite_keeps (hP : Keeps A P) (hA : Sub 0x80000000000028 A) {s : State} {w : CfgWrite} (hs : P s) : P (State.cfgWrite s w) := by
  unfold State.cfgWrite
  repeat' first
    | with_reducible assumption
    | with_reducible refine State.msixControl_keeps hP (hA.mono (by decide)) ?_
    | split
    | (rw [State.mk_endpoint]; apply hP.endpoint (hA.mono (by decide)))
    | with_reducible refine keeps_pair (by assumption) ?_
    | with_reducible refine keeps_pair₂ (by assumption) ?_

theorem State.cfgAccess_keeps (hP : Keeps A P) (hA : Sub 0x80000000000028 A) {s : State} {r : CfgRequest} (hs : P s) : P (State.cfgAccess s r) := by
  unfold State.cfgAccess
  repeat' first
    | with_reducible assumption
    | with_reducible refine hP.send (hA.mono (by decide)) _ _ ?_
    | with_reducible refine State.cfgWrite_keeps hP (hA.mono (by decide)) ?_
    | with_reducible refine keeps_ite ?_ ?_
    | split
    | with_reducible refine keeps_pair (by assumption) ?_
    | with_reducible refine keeps_pair₂ (by assumption) ?_

theorem State.configIsReady_keeps (hP : Keeps A P) (hA : Sub 0x80000400000028 A) {s : State} {link : PciLink} {early later : List CfgRequest} (hs : P s) : P (State.configIsReady s link early later) := by
  unfold State.configIsReady
  repeat' first
    | with_reducible assumption
    | lift_lets -underBinder
    | (intro x; revert x; refine keeps_let P ?_ (fun _ _ => ?_))
    | (intro x; clear_value x)
    | with_reducible refine State.cfgAccess_keeps hP (hA.mono (by decide)) ?_
    | with_reducible refine keeps_foldl _ (fun _ _ _ => ?_) ?_
    | with_reducible refine keeps_ite ?_ ?_
    | split
    | (rw [State.mk_power]; apply hP.power (hA.mono (by decide)))
    | (rw [State.mk_endpoint]; apply hP.endpoint (hA.mono (by decide)))

theorem State.pcieDown_keeps (hP : Keeps A P) (hA : Sub 0x2200000008007f9 A) {s : State} (hs : P s) : P (State.pcieDown s) := by
  unfold State.pcieDown
  repeat' first
    | with_reducible assumption
    | with_reducible refine State.linkLost_keeps hP (hA.mono (by decide)) ?_
    | with_reducible refine keeps_ite ?_ ?_
    | split

theorem State.thermalOn_keeps (hP : Keeps A P) (hA : Sub 0xa008208888847ef A) {s : State} {temp : Nat} (hs : P s) : P (State.thermalOn s temp) := by
  unfold State.thermalOn
  repeat' first
    | with_reducible assumption
    | lift_lets -underBinder
    | (intro x; revert x; refine keeps_let P ?_ (fun _ _ => ?_))
    | (intro x; clear_value x)
    | with_reducible refine State.raise_keeps hP (hA.mono (by decide)) ?_
    | with_reducible refine State.setFld_keeps hP (hA.mono (by decide)) ?_
    | with_reducible refine State.raiseEvent_keeps hP (hA.mono (by decide)) ?_
    | with_reducible refine State.chipFault_keeps hP (hA.mono (by decide)) ?_
    | with_reducible refine State.synSleep_keeps hP (hA.mono (by decide)) ?_
    | with_reducible refine State.forEach_keeps hP (hA.mono (by decide)) ?_ (fun _ _ _ => ?_)
    | with_reducible refine State.poolOff_keeps hP (hA.mono (by decide)) ?_
    | fail_if_no_progress beta_reduce

theorem State.thermalOff_keeps (hP : Keeps A P) (hA : Sub 0x80004003 A) {s : State} (hs : P s) : P (State.thermalOff s) := by
  unfold State.thermalOff
  repeat' first
    | with_reducible assumption
    | lift_lets -underBinder
    | (intro x; revert x; refine keeps_let P ?_ (fun _ _ => ?_))
    | (intro x; clear_value x)
    | with_reducible refine State.setFld_keeps hP (hA.mono (by decide)) ?_
    | with_reducible refine State.synWake_keeps hP (hA.mono (by decide)) ?_
    | with_reducible refine State.forEach_keeps hP (hA.mono (by decide)) ?_ (fun _ _ _ => ?_)
    | with_reducible refine State.beginCal_keeps hP (hA.mono (by decide)) ?_
    | fail_if_no_progress beta_reduce
    | with_reducible refine keeps_ite ?_ ?_
    | split

theorem State.tempUpdate_keeps (hP : Keeps A P) (hA : Sub 0xa008208888847ef A) {s : State} {v : BitVec 11} (hs : P s) : P (State.tempUpdate s v) := by
  unfold State.tempUpdate
  repeat' first
    | with_reducible assumption
    | lift_lets -underBinder
    | (intro x; revert x; refine keeps_let P ?_ (fun _ _ => ?_))
    | (intro x; clear_value x)
    | with_reducible refine State.setFld_keeps hP (hA.mono (by decide)) ?_
    | with_reducible refine State.setBit_keeps hP (hA.mono (by decide)) ?_
    | with_reducible refine State.post_keeps hP (hA.mono (by decide)) ?_
    | with_reducible refine State.thermalOn_keeps hP (hA.mono (by decide)) ?_
    | with_reducible refine State.thermalOff_keeps hP (hA.mono (by decide)) ?_
    | with_reducible refine keeps_ite ?_ ?_
    | split

theorem State.zqMeasure_keeps (hP : Keeps A P) (hA : Sub 0x2000000000000 A) {s : State} {ohms : Option Nat} (hs : P s) : P (State.zqMeasure s ohms) := by
  unfold State.zqMeasure
  repeat' first
    | with_reducible assumption
    | with_reducible refine keeps_ite ?_ ?_
    | split
    | (rw [State.mk_zq]; apply hP.zq (hA.mono (by decide)))

theorem State.powered_keeps (hP : Keeps A P) (hA : Sub 0x0 A) {s : State} {f : State → State} (hs : P s) (hf : ∀ (x0 : State), P x0 → P (f x0)) : P (State.powered s f) := by
  unfold State.powered
  repeat' first
    | with_reducible assumption
    | with_reducible refine hf _ ?_
    | with_reducible refine keeps_ite ?_ ?_
    | split

theorem State.svcErr_keeps (hP : Keeps A P) (hA : Sub 0x200000000000029 A) {s : State} {f : Fld} (hs : P s) : P (State.svcErr s f) := by
  unfold State.svcErr
  repeat' first
    | with_reducible assumption
    | with_reducible refine State.raise_unit hP (hA.mono (by decide)) (by first | omega | (simp only [tbPage, jrnlPage, svcPage, swarmPage, eslPage, dmaPage, synPage, domPage, linkPage, dmacPage, chPage, regPage, blkPage, bankPage]; omega)) ?_
    | with_reducible refine keeps_ite ?_ ?_
    | split

theorem State.svcShift_keeps (hP : Keeps A P) (hA : Sub 0x8 A) {s : State} (hs : P s) : P (State.svcShift s) := by
  unfold State.svcShift
  repeat' first
    | with_reducible assumption
    | with_reducible refine hP.send (hA.mono (by decide)) _ _ ?_

theorem State.svcRespond_keeps (hP : Keeps A P) (hA : Sub 0x8000000000000 A) {s : State} {w : Dword} (hs : P s) : P (State.svcRespond s w) := by
  unfold State.svcRespond
  repeat' first
    | with_reducible assumption
    | (rw [State.mk_svc]; apply hP.svc (hA.mono (by decide)))

theorem State.svcAccept_keeps (hP : Keeps A P) (hA : Sub 0x1 A) {s : State} (hs : P s) : P (State.svcAccept s) := by
  unfold State.svcAccept
  repeat' first
    | with_reducible assumption
    | with_reducible refine State.addWrap_unit hP (hA.mono (by decide)) (by first | omega | (simp only [tbPage, jrnlPage, svcPage, swarmPage, eslPage, dmaPage, synPage, domPage, linkPage, dmacPage, chPage, regPage, blkPage, bankPage]; omega)) ?_

theorem State.svcBad_keeps (hP : Keeps A P) (hA : Sub 0x208000000000029 A) {s : State} (hs : P s) : P (State.svcBad s) := by
  unfold State.svcBad
  repeat' first
    | with_reducible assumption
    | with_reducible refine State.svcRespond_keeps hP (hA.mono (by decide)) ?_
    | with_reducible refine State.svcErr_keeps hP (hA.mono (by decide)) ?_
    | with_reducible refine State.addSat_unit hP (hA.mono (by decide)) (by first | omega | (simp only [tbPage, jrnlPage, svcPage, swarmPage, eslPage, dmaPage, synPage, domPage, linkPage, dmacPage, chPage, regPage, blkPage, bankPage]; omega)) ?_

theorem State.svcServe_keeps (hP : Keeps A P) (hA : Sub 0x208000000000029 A) {s : State} {f : State → State} (hs : P s) (hf : ∀ (x0 : State), P x0 → P (f x0)) : P (State.svcServe s f) := by
  unfold State.svcServe
  repeat' first
    | with_reducible assumption
    | with_reducible refine State.svcAccept_keeps hP (hA.mono (by decide)) ?_
    | with_reducible refine State.svcShift_keeps hP (hA.mono (by decide)) ?_
    | with_reducible refine State.svcBad_keeps hP (hA.mono (by decide)) ?_
    | with_reducible refine hf _ ?_
    | with_reducible refine keeps_ite ?_ ?_
    | split

theorem State.svcNop_keeps (hP : Keeps A P) (hA : Sub 0x9 A) {s : State} (hs : P s) : P (State.svcNop s) := by
  unfold State.svcNop
  repeat' first
    | with_reducible assumption
    | with_reducible refine State.svcAccept_keeps hP (hA.mono (by decide)) ?_
    | with_reducible refine State.svcShift_keeps hP (hA.mono (by decide)) ?_

theorem State.svcReadId_keeps (hP : Keeps A P) (hA : Sub 0x8000000000009 A) {s : State} {index : BitVec 2} (hs : P s) : P (State.svcReadId s index) := by
  unfold State.svcReadId
  repeat' first
    | with_reducible assumption
    | with_reducible refine State.svcAccept_keeps hP (hA.mono (by decide)) ?_
    | with_reducible refine State.svcRespond_keeps hP (hA.mono (by decide)) ?_
    | with_reducible refine State.svcShift_keeps hP (hA.mono (by decide)) ?_
    | with_reducible refine keeps_ite ?_ ?_
    | split

theorem State.svcReadHealth_keeps (hP : Keeps A P) (hA : Sub 0x8000000000009 A) {s : State} (hs : P s) : P (State.svcReadHealth s) := by
  unfold State.svcReadHealth
  repeat' first
    | with_reducible assumption
    | with_reducible refine State.svcAccept_keeps hP (hA.mono (by decide)) ?_
    | with_reducible refine State.svcRespond_keeps hP (hA.mono (by decide)) ?_
    | with_reducible refine State.svcShift_keeps hP (hA.mono (by decide)) ?_
    | with_reducible refine keeps_ite ?_ ?_
    | split

theorem State.svcReadMbox_keeps (hP : Keeps A P) (hA : Sub 0x208000000000029 A) {s : State} (hs : P s) : P (State.svcReadMbox s) := by
  unfold State.svcReadMbox
  repeat' first
    | with_reducible assumption
    | lift_lets -underBinder
    | (intro x; revert x; refine keeps_let P ?_ (fun _ _ => ?_))
    | (intro x; clear_value x)
    | with_reducible refine State.svcServe_keeps hP (hA.mono (by decide)) ?_ (fun _ _ => ?_)
    | with_reducible refine State.svcRespond_keeps hP (hA.mono (by decide)) ?_
    | with_reducible refine State.post_unit hP (hA.mono (by decide)) (by first | omega | (simp only [tbPage, jrnlPage, svcPage, swarmPage, eslPage, dmaPage, synPage, domPage, linkPage, dmacPage, chPage, regPage, blkPage, bankPage]; omega)) ?_
    | with_reducible refine State.setFld_unit hP (hA.mono (by decide)) (by first | omega | (simp only [tbPage, jrnlPage, svcPage, swarmPage, eslPage, dmaPage, synPage, domPage, linkPage, dmacPage, chPage, regPage, blkPage, bankPage]; omega)) ?_
    | fail_if_no_progress beta_reduce
    | with_reducible refine keeps_ite ?_ ?_
    | split

theorem State.svcMboxLo_keeps (hP : Keeps A P) (hA : Sub 0x208000000000029 A) {s : State} {v : BitVec 16} (hs : P s) : P (State.svcMboxLo s v) := by
  unfold State.svcMboxLo
  repeat' first
    | with_reducible assumption
    | with_reducible refine State.svcServe_keeps hP (hA.mono (by decide)) ?_ (fun _ _ => ?_)
    | (rw [State.mk_svc]; apply hP.svc (hA.mono (by decide)))

theorem State.svcMboxHi_keeps (hP : Keeps A P) (hA : Sub 0x208000000000029 A) {s : State} {v : BitVec 16} (hs : P s) : P (State.svcMboxHi s v) := by
  unfold State.svcMboxHi
  repeat' first
    | with_reducible assumption
    | lift_lets -underBinder
    | (intro x; revert x; refine keeps_let P ?_ (fun _ _ => ?_))
    | (intro x; clear_value x)
    | with_reducible refine State.svcServe_keeps hP (hA.mono (by decide)) ?_ (fun _ _ => ?_)
    | with_reducible refine State.svcRespond_keeps hP (hA.mono (by decide)) ?_
    | with_reducible refine State.post_unit hP (hA.mono (by decide)) (by first | omega | (simp only [tbPage, jrnlPage, svcPage, swarmPage, eslPage, dmaPage, synPage, domPage, linkPage, dmacPage, chPage, regPage, blkPage, bankPage]; omega)) ?_
    | with_reducible refine hP.wr (hA.mono (by decide)) _ _ _ (by first | omega | (simp only [tbPage, jrnlPage, svcPage, swarmPage, eslPage, dmaPage, synPage, domPage, linkPage, dmacPage, chPage, regPage, blkPage, bankPage]; omega)) ?_
    | fail_if_no_progress beta_reduce
    | (rw [State.mk_svc]; apply hP.svc (hA.mono (by decide)))

theorem State.svcCmd_keeps (hP : Keeps A P) (hA : Sub 0x1a08f27cbc9b47ef A) {s : State} {id : BitVec 8} {wake : Bool} (hs : P s) : P (State.svcCmd s id wake) := by
  unfold State.svcCmd
  repeat' first
    | with_reducible assumption
    | lift_lets -underBinder
    | (intro x; revert x; refine keeps_let P ?_ (fun _ _ => ?_))
    | (intro x; clear_value x)
    | with_reducible refine State.svcBad_keeps hP (hA.mono (by decide)) ?_
    | with_reducible refine State.svcShift_keeps hP (hA.mono (by decide)) ?_
    | with_reducible refine State.journalAt_keeps hP (hA.mono (by decide)) ?_
    | with_reducible refine State.svcServe_keeps hP (hA.mono (by decide)) ?_ (fun _ _ => ?_)
    | with_reducible refine State.judgeCmd_keeps hP (hA.mono (by decide)) ?_ (fun _ _ => ?_)
    | with_reducible refine State.acceptWake_keeps hP (hA.mono (by decide)) ?_
    | with_reducible refine State.acceptCluster_keeps hP (hA.mono (by decide)) ?_
    | with_reducible refine State.svcRespond_keeps hP (hA.mono (by decide)) ?_
    | fail_if_no_progress beta_reduce
    | with_reducible refine keeps_ite ?_ ?_
    | split

theorem State.svcReadCmd_keeps (hP : Keeps A P) (hA : Sub 0x208000000000029 A) {s : State} (hs : P s) : P (State.svcReadCmd s) := by
  unfold State.svcReadCmd
  repeat' first
    | with_reducible assumption
    | with_reducible refine State.svcServe_keeps hP (hA.mono (by decide)) ?_ (fun _ _ => ?_)
    | with_reducible refine State.svcRespond_keeps hP (hA.mono (by decide)) ?_

theorem State.svcEntry_keeps (hP : Keeps A P) (hA : Sub 0x2000000008003e9 A) {s : State} {o : JOut} (hs : P s) : P (State.svcEntry s o) := by
  unfold State.svcEntry
  repeat' first
    | with_reducible assumption
    | with_reducible refine State.entry_keeps hP (hA.mono (by decide)) ?_

theorem State.svcHold_keeps (hP : Keeps A P) (hA : Sub 0x6080004008003e9 A) {s : State} (hs : P s) : P (State.svcHold s) := by
  unfold State.svcHold
  repeat' first
    | with_reducible assumption
    | lift_lets -underBinder
    | (intro x; revert x; refine keeps_let P ?_ (fun _ _ => ?_))
    | (intro x; clear_value x)
    | with_reducible refine State.svcBad_keeps hP (hA.mono (by decide)) ?_
    | with_reducible refine State.svcShift_keeps hP (hA.mono (by decide)) ?_
    | with_reducible refine State.svcEntry_keeps hP (hA.mono (by decide)) ?_
    | with_reducible refine State.svcAccept_keeps hP (hA.mono (by decide)) ?_
    | with_reducible refine State.svcRespond_keeps hP (hA.mono (by decide)) ?_
    | with_reducible refine State.holdBy_keeps hP (hA.mono (by decide)) ?_
    | fail_if_no_progress beta_reduce
    | with_reducible refine keeps_ite ?_ ?_
    | split

theorem State.svcRelease_keeps (hP : Keeps A P) (hA : Sub 0x2080004008003e9 A) {s : State} (hs : P s) : P (State.svcRelease s) := by
  unfold State.svcRelease
  repeat' first
    | with_reducible assumption
    | lift_lets -underBinder
    | (intro x; revert x; refine keeps_let P ?_ (fun _ _ => ?_))
    | (intro x; clear_value x)
    | with_reducible refine State.svcAccept_keeps hP (hA.mono (by decide)) ?_
    | with_reducible refine State.svcRespond_keeps hP (hA.mono (by decide)) ?_
    | with_reducible refine State.svcShift_keeps hP (hA.mono (by decide)) ?_
    | with_reducible refine State.svcEntry_keeps hP (hA.mono (by decide)) ?_
    | with_reducible refine keeps_ite ?_ ?_
    | split
    | (rw [State.mk_power]; apply hP.power (hA.mono (by decide)))

theorem State.svcReserved_keeps (hP : Keeps A P) (hA : Sub 0x208000000000029 A) {s : State} (hs : P s) : P (State.svcReserved s) := by
  unfold State.svcReserved
  repeat' first
    | with_reducible assumption
    | with_reducible refine State.svcBad_keeps hP (hA.mono (by decide)) ?_
    | with_reducible refine State.svcShift_keeps hP (hA.mono (by decide)) ?_

theorem State.svcDiscard_keeps (hP : Keeps A P) (hA : Sub 0x200000000000029 A) {s : State} (hs : P s) : P (State.svcDiscard s) := by
  unfold State.svcDiscard
  repeat' first
    | with_reducible assumption
    | with_reducible refine State.svcErr_keeps hP (hA.mono (by decide)) ?_
    | with_reducible refine State.addSat_unit hP (hA.mono (by decide)) (by first | omega | (simp only [tbPage, jrnlPage, svcPage, swarmPage, eslPage, dmaPage, synPage, domPage, linkPage, dmacPage, chPage, regPage, blkPage, bankPage]; omega)) ?_

theorem State.tapInstr_keeps (hP : Keeps A P) (hA : Sub 0x404000400000000 A) {s : State} {instr : BitVec 8} (hs : P s) : P (State.tapInstr s instr) := by
  unfold State.tapInstr
  repeat' first
    | with_reducible assumption
    | lift_lets -underBinder
    | (intro x; revert x; refine keeps_let P ?_ (fun _ _ => ?_))
    | (intro x; clear_value x)
    | with_reducible refine State.holdBy_keeps hP (hA.mono (by decide)) ?_
    | with_reducible refine keeps_ite ?_ ?_
    | split
    | (rw [State.mk_tap]; apply hP.tap (hA.mono (by decide)))

theorem State.tapScan_keeps (hP : Keeps A P) (hA : Sub 0x404000400000008 A) {s : State} {instr : BitVec 8} {pins next : BitVec 158} (hs : P s) : P (State.tapScan s instr pins next) := by
  unfold State.tapScan
  repeat' first
    | with_reducible assumption
    | with_reducible refine hP.send (hA.mono (by decide)) _ _ ?_
    | with_reducible refine State.tapInstr_keeps hP (hA.mono (by decide)) ?_
    | (rw [State.mk_tap]; apply hP.tap (hA.mono (by decide)))

theorem State.tapBypass_keeps (hP : Keeps A P) (hA : Sub 0x404000400000008 A) {s : State} {instr : BitVec 8} (hs : P s) : P (State.tapBypass s instr) := by
  unfold State.tapBypass
  repeat' first
    | with_reducible assumption
    | with_reducible refine hP.send (hA.mono (by decide)) _ _ ?_
    | with_reducible refine State.tapInstr_keeps hP (hA.mono (by decide)) ?_

theorem State.tapIdcode_keeps (hP : Keeps A P) (hA : Sub 0x404000400000008 A) {s : State} (hs : P s) : P (State.tapIdcode s) := by
  unfold State.tapIdcode
  repeat' first
    | with_reducible assumption
    | with_reducible refine hP.send (hA.mono (by decide)) _ _ ?_
    | with_reducible refine State.tapInstr_keeps hP (hA.mono (by decide)) ?_

theorem State.tapReset_keeps (hP : Keeps A P) (hA : Sub 0x404000400000000 A) {s : State} (hs : P s) : P (State.tapReset s) := by
  unfold State.tapReset
  repeat' first
    | with_reducible assumption
    | with_reducible refine State.tapInstr_keeps hP (hA.mono (by decide)) ?_

end Sys2Proof.Machine
end

