-- ==== Sys2Proof/Laws/EffectsCommands.lean ====
section
/-! SUPPORT. The effects of each operation of Machine/ (RegWrite.lean, Tick.lean, RunCommands.lean, TimeCommands.lean, ChannelCommands.lean, CellCommands.lean, TriggerCommands.lean, StoreCommands.lean, SwarmCommands.lean, DomainCommands.lean, SynthCommands.lean, DmaCommands.lean, HostCommands.lean, PowerCommands.lean): the primitive changes it may make, as a mask. -/
namespace Sys2Proof.Machine
open Sys2Proof
set_option linter.unusedTactic false
set_option linter.unreachableTactic false
set_option linter.unusedVariables false
set_option linter.unusedSimpArgs false
variable {A : Nat} {P : State → Prop}

theorem State.hostAccess_keeps (hP : Keeps A P) (hA : Sub 0x0 A) {s : State} {f : State → State} (hs : P s) (hf : ∀ (x0 : State), P x0 → P (f x0)) : P (State.hostAccess s f) := by
  unfold State.hostAccess
  repeat' first
    | with_reducible assumption
    | with_reducible refine hf _ ?_
    | with_reducible refine keeps_ite ?_ ?_
    | split

theorem State.jrnlSelect_keeps (hP : Keeps A P) (hA : Sub 0x200000000000029 A) {s : State} {n off : Nat} (hs : P s) : P (State.jrnlSelect s n off) := by
  unfold State.jrnlSelect
  repeat' first
    | with_reducible assumption
    | lift_lets -underBinder
    | (intro x; revert x; refine keeps_let P ?_ (fun _ _ => ?_))
    | (intro x; clear_value x)
    | with_reducible refine hP.wr (hA.mono (by decide)) _ _ _ (by first | omega | (simp only [tbPage, jrnlPage, svcPage, swarmPage, eslPage, dmaPage, synPage, domPage, linkPage, dmacPage, chPage, regPage, blkPage, bankPage]; omega)) ?_
    | with_reducible refine State.raiseAt_unit hP (hA.mono (by decide)) (by first | omega | (simp only [tbPage, jrnlPage, svcPage, swarmPage, eslPage, dmaPage, synPage, domPage, linkPage, dmacPage, chPage, regPage, blkPage, bankPage]; omega)) ?_
    | with_reducible refine State.forEach_keeps hP (hA.mono (by decide)) ?_ (fun _ _ _ => ?_)
    | fail_if_no_progress beta_reduce
    | with_reducible refine keeps_ite ?_ ?_
    | split
    | with_reducible refine keeps_pair (by assumption) ?_
    | with_reducible refine keeps_pair₂ (by assumption) ?_

theorem State.releaseEngine_keeps (hP : Keeps A P) (hA : Sub 0x1 A) {s : State} {g : Nat} (hs : P s) : P (State.releaseEngine s g) := by
  unfold State.releaseEngine
  repeat' first
    | with_reducible assumption
    | with_reducible refine State.setFld_unit hP (hA.mono (by decide)) (by first | omega | (simp only [tbPage, jrnlPage, svcPage, swarmPage, eslPage, dmaPage, synPage, domPage, linkPage, dmacPage, chPage, regPage, blkPage, bankPage]; omega)) ?_

theorem State.resumeMasters_keeps (hP : Keeps A P) (hA : Sub 0x3208000088007fb A) {s : State} {t : PageType} {i mask : Nat} (hs : P s) : P (State.resumeMasters s t i mask) := by
  unfold State.resumeMasters
  repeat' first
    | with_reducible assumption
    | lift_lets -underBinder
    | (intro x; revert x; refine keeps_let P ?_ (fun _ _ => ?_))
    | (intro x; clear_value x)
    | with_reducible refine State.releaseWriter_keeps hP (hA.mono (by decide)) ?_
    | with_reducible refine State.releaseEngine_keeps hP (hA.mono (by decide)) ?_
    | with_reducible refine State.releaseDma_keeps hP (hA.mono (by decide)) ?_
    | with_reducible refine State.releaseLent_keeps hP (hA.mono (by decide)) ?_
    | fail_if_no_progress beta_reduce
    | with_reducible refine keeps_ite ?_ ?_
    | split
    | with_reducible refine keeps_pair (by assumption) ?_
    | with_reducible refine keeps_pair₂ (by assumption) ?_

theorem State.freezeWrite_keeps (hP : Keeps A P) (hA : Sub 0x3208000088007fb A) {s : State} {t : PageType} {i : Nat} {v : Dword} (hs : P s) : P (State.freezeWrite s t i v) := by
  unfold State.freezeWrite
  repeat' first
    | with_reducible assumption
    | lift_lets -underBinder
    | (intro x; revert x; refine keeps_let P ?_ (fun _ _ => ?_))
    | (intro x; first | (have _h : Nat := x; clear _h; subst x) | clear_value x)
    | with_reducible refine State.entry_keeps hP (hA.mono (by decide)) ?_
    | with_reducible refine hP.fresh (hA.mono (by decide)) _ _ _ ?_
    | with_reducible refine State.post_keeps hP (hA.mono (by decide)) ?_
    | with_reducible refine State.setFld_keeps hP (hA.mono (by decide)) ?_
    | with_reducible refine State.resumeMasters_keeps hP (hA.mono (by decide)) ?_
    | with_reducible refine keeps_ite ?_ ?_
    | split

theorem State.injectWrite_keeps (hP : Keeps A P) (hA : Sub 0x2000000008007eb A) {s : State} {v : Dword} (hs : P s) : P (State.injectWrite s v) := by
  unfold State.injectWrite
  repeat' first
    | with_reducible assumption
    | lift_lets -underBinder
    | (intro x; revert x; refine keeps_let P ?_ (fun _ _ => ?_))
    | (intro x; clear_value x)
    | with_reducible refine State.entry_keeps hP (hA.mono (by decide)) ?_
    | with_reducible refine State.rejectWrite_keeps hP (hA.mono (by decide)) ?_
    | with_reducible refine State.storeValue_keeps hP (hA.mono (by decide)) ?_
    | with_reducible refine keeps_ite ?_ ?_
    | split

theorem acceptCode_keeps (hP : Keeps A P) (hA : Sub 0x1a00f27cbf9bc7ef A) {a : Agent} {v : Dword} {s : State} (hs : P s) : P (acceptCode a v s) := by
  unfold acceptCode
  repeat' first
    | with_reducible assumption
    | with_reducible refine State.acceptLoad_keeps hP (hA.mono (by decide)) ?_
    | with_reducible refine State.acceptArm_keeps hP (hA.mono (by decide)) ?_
    | with_reducible refine State.acceptStart_keeps hP (hA.mono (by decide)) ?_
    | with_reducible refine State.acceptStop_keeps hP (hA.mono (by decide)) ?_
    | with_reducible refine State.acceptAbort_keeps hP (hA.mono (by decide)) ?_
    | with_reducible refine State.acceptReset_keeps hP (hA.mono (by decide)) ?_
    | with_reducible refine State.acceptCluster_keeps hP (hA.mono (by decide)) ?_
    | with_reducible refine State.acceptWake_keeps hP (hA.mono (by decide)) ?_
    | split
    | with_reducible refine keeps_pair (by assumption) ?_
    | with_reducible refine keeps_pair₂ (by assumption) ?_

theorem State.chWritten_keeps (hP : Keeps A P) (hA : Sub 0xa000200008043ed A) {s : State} {k off : Nat} {old v lv : Dword} (hs : P s) : P (State.chWritten s k off old v lv) := by
  unfold State.chWritten
  repeat' first
    | with_reducible assumption
    | lift_lets -underBinder
    | (intro x; revert x; refine keeps_let P ?_ (fun _ _ => ?_))
    | (intro x; clear_value x)
    | with_reducible refine State.inputWritten_keeps hP (hA.mono (by decide)) ?_
    | with_reducible refine State.poolCtrlWritten_keeps hP (hA.mono (by decide)) ?_
    | with_reducible refine State.chApplied_keeps hP (hA.mono (by decide)) ?_
    | with_reducible refine State.enterTime_keeps hP (hA.mono (by decide)) ?_
    | with_reducible refine State.reclampGate_keeps hP (hA.mono (by decide)) ?_
    | with_reducible refine State.regrid_keeps hP (hA.mono (by decide)) ?_
    | with_reducible refine keeps_ite ?_ ?_
    | split

theorem State.chBefore_keeps (hP : Keeps A P) (hA : Sub 0x4000 A) {s : State} {k off : Nat} {v : Dword} (hs : P s) : P (State.chBefore s k off v) := by
  unfold State.chBefore
  repeat' first
    | with_reducible assumption
    | lift_lets -underBinder
    | (intro x; revert x; refine keeps_let P ?_ (fun _ _ => ?_))
    | (intro x; clear_value x)
    | with_reducible refine State.keepOld_keeps hP (hA.mono (by decide)) ?_
    | with_reducible refine State.bar_keeps hP (hA.mono (by decide)) ?_
    | with_reducible refine State.leaveTime_keeps hP (hA.mono (by decide)) ?_
    | with_reducible refine State.anchorAt_keeps hP (hA.mono (by decide)) ?_
    | with_reducible refine keeps_ite ?_ ?_
    | split

theorem State.tbAfter_keeps (hP : Keeps A P) (hA : Sub 0x2000001808043eb A) {s : State} {off : Nat} {old v : Dword} {keyed trimming : Bool} (hs : P s) : P (State.tbAfter s off old v keyed trimming) := by
  unfold State.tbAfter
  repeat' first
    | with_reducible assumption
    | with_reducible refine State.altrefWritten_keeps hP (hA.mono (by decide)) ?_
    | with_reducible refine State.tbWritten_keeps hP (hA.mono (by decide)) ?_
    | with_reducible refine State.post_unit hP (hA.mono (by decide)) (by first | omega | (simp only [tbPage, jrnlPage, svcPage, swarmPage, eslPage, dmaPage, synPage, domPage, linkPage, dmacPage, chPage, regPage, blkPage, bankPage]; omega)) ?_
    | with_reducible refine keeps_ite ?_ ?_
    | split

theorem State.synWritten_keeps (hP : Keeps A P) (hA : Sub 0x80004001 A) {s : State} {i off : Nat} {old v lv : Dword} (hs : P s) : P (State.synWritten s i off old v lv) := by
  unfold State.synWritten
  repeat' first
    | with_reducible assumption
    | lift_lets -underBinder
    | (intro x; revert x; refine keeps_let P ?_ (fun _ _ => ?_))
    | (intro x; first | (have _h : Nat := x; clear _h; subst x) | clear_value x)
    | with_reducible refine State.loopWritten_keeps hP (hA.mono (by decide)) ?_
    | with_reducible refine State.modSyn_keeps hP (hA.mono (by decide)) ?_
    | with_reducible refine State.setBit_unit hP (hA.mono (by decide)) (by first | omega | (simp only [tbPage, jrnlPage, svcPage, swarmPage, eslPage, dmaPage, synPage, domPage, linkPage, dmacPage, chPage, regPage, blkPage, bankPage]; omega)) ?_
    | with_reducible refine State.synCtrl_keeps hP (hA.mono (by decide)) ?_
    | fail_if_no_progress beta_reduce
    | with_reducible refine keeps_ite ?_ ?_
    | split

theorem State.domWritten_keeps (hP : Keeps A P) (hA : Sub 0x2000000208003e9 A) {s : State} {d off : Nat} {old v : Dword} {running : Bool} (hs : P s) : P (State.domWritten s d off old v running) := by
  unfold State.domWritten
  repeat' first
    | with_reducible assumption
    | lift_lets -underBinder
    | (intro x; revert x; refine keeps_let P ?_ (fun _ _ => ?_))
    | (intro x; first | (have _h : Nat := x; clear _h; subst x) | clear_value x)
    | with_reducible refine State.submit_keeps hP (hA.mono (by decide)) ?_
    | with_reducible refine State.setBit_unit hP (hA.mono (by decide)) (by first | omega | (simp only [tbPage, jrnlPage, svcPage, swarmPage, eslPage, dmaPage, synPage, domPage, linkPage, dmacPage, chPage, regPage, blkPage, bankPage]; omega)) ?_
    | with_reducible refine State.setNow_keeps hP (hA.mono (by decide)) ?_
    | with_reducible refine State.activeTo_keeps hP (hA.mono (by decide)) ?_
    | with_reducible refine State.domSettle_keeps hP (hA.mono (by decide)) ?_
    | with_reducible refine keeps_ite ?_ ?_
    | split

theorem State.linkOff_keeps (hP : Keeps A P) (hA : Sub 0xa008209388847ef A) {s : State} {p : Nat} (hs : P s) : P (State.linkOff s p) := by
  unfold State.linkOff
  repeat' first
    | with_reducible assumption
    | lift_lets -underBinder
    | (intro x; revert x; refine keeps_let P ?_ (fun _ _ => ?_))
    | (intro x; clear_value x)
    | with_reducible refine State.linkGone_keeps hP (hA.mono (by decide)) ?_
    | with_reducible refine State.setLstate_keeps hP (hA.mono (by decide)) ?_
    | with_reducible refine State.modLink_keeps hP (hA.mono (by decide)) ?_
    | fail_if_no_progress beta_reduce
    | with_reducible refine keeps_ite ?_ ?_
    | split

theorem State.linkWritten_keeps (hP : Keeps A P) (hA : Sub 0xa008209388847ef A) {s : State} {p : Nat} {v : Dword} (hs : P s) : P (State.linkWritten s p v) := by
  unfold State.linkWritten
  repeat' first
    | with_reducible assumption
    | lift_lets -underBinder
    | (intro x; revert x; refine keeps_let P ?_ (fun _ _ => ?_))
    | (intro x; clear_value x)
    | with_reducible refine State.setBit_unit hP (hA.mono (by decide)) (by first | omega | (simp only [tbPage, jrnlPage, svcPage, swarmPage, eslPage, dmaPage, synPage, domPage, linkPage, dmacPage, chPage, regPage, blkPage, bankPage]; omega)) ?_
    | with_reducible refine State.linkOff_keeps hP (hA.mono (by decide)) ?_
    | with_reducible refine State.setLstate_keeps hP (hA.mono (by decide)) ?_
    | with_reducible refine State.linkGone_keeps hP (hA.mono (by decide)) ?_
    | with_reducible refine State.showMember_keeps hP (hA.mono (by decide)) ?_
    | with_reducible refine keeps_ite ?_ ?_
    | split

theorem State.swarmWritten_keeps (hP : Keeps A P) (hA : Sub 0x2008001208007eb A) {s : State} {off : Nat} (hs : P s) : P (State.swarmWritten s off) := by
  unfold State.swarmWritten
  repeat' first
    | with_reducible assumption
    | with_reducible refine State.setQueen_keeps hP (hA.mono (by decide)) ?_
    | with_reducible refine State.setFld_unit hP (hA.mono (by decide)) (by first | omega | (simp only [tbPage, jrnlPage, svcPage, swarmPage, eslPage, dmaPage, synPage, domPage, linkPage, dmacPage, chPage, regPage, blkPage, bankPage]; omega)) ?_
    | with_reducible refine keeps_ite ?_ ?_
    | split

theorem State.regWritten_keeps (hP : Keeps A P) (hA : Sub 0x200000000020029 A) {s : State} {n off : Nat} {old v : Dword} (hs : P s) : P (State.regWritten s n off old v) := by
  unfold State.regWritten
  repeat' first
    | with_reducible assumption
    | lift_lets -underBinder
    | (intro x; revert x; refine keeps_let P ?_ (fun _ _ => ?_))
    | (intro x; clear_value x)
    | with_reducible refine State.setFld_unit hP (hA.mono (by decide)) (by first | omega | (simp only [tbPage, jrnlPage, svcPage, swarmPage, eslPage, dmaPage, synPage, domPage, linkPage, dmacPage, chPage, regPage, blkPage, bankPage]; omega)) ?_
    | with_reducible refine State.dbgGo_keeps hP (hA.mono (by decide)) ?_
    | with_reducible refine keeps_ite ?_ ?_
    | split

theorem State.mboxOutWritten_keeps (hP : Keeps A P) (hA : Sub 0x8000000000001 A) {s : State} {old : Dword} (hs : P s) : P (State.mboxOutWritten s old) := by
  unfold State.mboxOutWritten
  repeat' first
    | with_reducible assumption
    | with_reducible refine State.setBit_unit hP (hA.mono (by decide)) (by first | omega | (simp only [tbPage, jrnlPage, svcPage, swarmPage, eslPage, dmaPage, synPage, domPage, linkPage, dmacPage, chPage, regPage, blkPage, bankPage]; omega)) ?_
    | (rw [State.mk_svc]; apply hP.svc (hA.mono (by decide)))

theorem State.written_keeps (hP : Keeps A P) (hA : Sub 0xa08d209b88a47ef A) {s : State} {t : PageType} {i off : Nat} {old v lv : Dword} {keyed running trimming : Bool} (hs : P s) : P (State.written s t i off old v lv keyed running trimming) := by
  unfold State.written
  repeat' first
    | with_reducible assumption
    | with_reducible refine State.tbAfter_keeps hP (hA.mono (by decide)) ?_
    | with_reducible refine State.mboxOutWritten_keeps hP (hA.mono (by decide)) ?_
    | with_reducible refine State.synWritten_keeps hP (hA.mono (by decide)) ?_
    | with_reducible refine State.domWritten_keeps hP (hA.mono (by decide)) ?_
    | with_reducible refine State.linkWritten_keeps hP (hA.mono (by decide)) ?_
    | with_reducible refine State.swarmWritten_keeps hP (hA.mono (by decide)) ?_
    | with_reducible refine State.noteMatcher_keeps hP (hA.mono (by decide)) ?_
    | with_reducible refine State.eslOff_keeps hP (hA.mono (by decide)) ?_
    | with_reducible refine State.post_unit hP (hA.mono (by decide)) (by first | omega | (simp only [tbPage, jrnlPage, svcPage, swarmPage, eslPage, dmaPage, synPage, domPage, linkPage, dmacPage, chPage, regPage, blkPage, bankPage]; omega)) ?_
    | with_reducible refine State.setFld_unit hP (hA.mono (by decide)) (by first | omega | (simp only [tbPage, jrnlPage, svcPage, swarmPage, eslPage, dmaPage, synPage, domPage, linkPage, dmacPage, chPage, regPage, blkPage, bankPage]; omega)) ?_
    | with_reducible refine State.chWritten_keeps hP (hA.mono (by decide)) ?_
    | with_reducible refine State.regWritten_keeps hP (hA.mono (by decide)) ?_
    | with_reducible refine keeps_ite ?_ ?_
    | split
    | (rw [State.mk_trigOut]; apply hP.trigOut (hA.mono (by decide)))
    | with_reducible refine keeps_pair (by assumption) ?_
    | with_reducible refine keeps_pair₂ (by assumption) ?_

theorem State.noteWrite_unit (hP : Keeps A P) (hA : Sub 0x200000000000029 A) {s : State} {base : Nat} {f : Fld} {off : Nat} (hb : 0x1000 ≤ base) (hs : P s) : P (State.noteWrite s base f off) := by
  unfold State.noteWrite
  repeat' first
    | with_reducible assumption
    | with_reducible refine State.raiseWrite_unit hP (hA.mono (by decide)) (by first | omega | (simp only [tbPage, jrnlPage, svcPage, swarmPage, eslPage, dmaPage, synPage, domPage, linkPage, dmacPage, chPage, regPage, blkPage, bankPage]; omega)) ?_
    | with_reducible refine State.setRc_unit hP (hA.mono (by decide)) (by first | omega | (simp only [tbPage, jrnlPage, svcPage, swarmPage, eslPage, dmaPage, synPage, domPage, linkPage, dmacPage, chPage, regPage, blkPage, bankPage]; omega)) ?_
    | with_reducible refine keeps_ite ?_ ?_
    | split

theorem State.noteWrite_keeps (hP : Keeps A P) (hA : Sub 0x20000000000002b A) {s : State} {base : Nat} {f : Fld} {off : Nat} (hs : P s) : P (State.noteWrite s base f off) := by
  unfold State.noteWrite
  repeat' first
    | with_reducible assumption
    | with_reducible refine State.raiseWrite_keeps hP (hA.mono (by decide)) ?_
    | with_reducible refine State.setRc_keeps hP (hA.mono (by decide)) ?_
    | with_reducible refine keeps_ite ?_ ?_
    | split

theorem State.fieldWrite_keeps (hP : Keeps A P) (hA : Sub 0xa08d209b88a47ef A) {s : State} {t : PageType} {i off : Nat} {row : RegRow} {v lv : Dword} {keyed : Bool} (hs : P s) : P (State.fieldWrite s t i off row v lv keyed) := by
  unfold State.fieldWrite
  repeat' first
    | with_reducible assumption
    | lift_lets -underBinder
    | (intro x; revert x; refine keeps_let P ?_ (fun _ _ => ?_))
    | (intro x; first | (have _h : Nat := x; clear _h; subst x) | clear_value x)
    | with_reducible refine State.entry_keeps hP (hA.mono (by decide)) ?_
    | with_reducible refine State.noteWrite_keeps hP (hA.mono (by decide)) ?_
    | with_reducible refine State.chBefore_keeps hP (hA.mono (by decide)) ?_
    | with_reducible refine State.storeValue_keeps hP (hA.mono (by decide)) ?_
    | with_reducible refine State.written_keeps hP (hA.mono (by decide)) ?_
    | with_reducible refine keeps_ite ?_ ?_
    | split
    | with_reducible refine keeps_pair (by assumption) ?_
    | with_reducible refine keeps_pair₂ (by assumption) ?_

theorem State.actionWrite_keeps (hP : Keeps A P) (hA : Sub 0x1b20f27cbf9bc7ff A) {s u : State} {t : PageType} {i off : Nat} {v : Dword} (hs : P s)
    (e : s.actionWrite t i off v = some u) : P u := by
  unfold State.actionWrite at e
  split at e <;> (repeat' split at e) <;> first
    | cases e
      first
        | exact State.judgeCmd_keeps hP (hA.mono (by decide)) hs (fun _ h => acceptCode_keeps hP (hA.mono (by decide)) h)
        | exact State.injectWrite_keeps hP (hA.mono (by decide)) hs
        | exact State.jrnlSelect_keeps hP (hA.mono (by decide)) hs
        | exact State.ctrlWrite_keeps hP (hA.mono (by decide)) hs
        | exact State.doorbell_keeps hP (hA.mono (by decide)) hs
        | exact State.snap_keeps hP (hA.mono (by decide)) hs
        | exact State.fillGo_keeps hP (hA.mono (by decide)) hs
        | exact State.entry_keeps hP (hA.mono (by decide)) hs
        | exact hs
    | cases e

theorem State.bodyWrite_keeps (hP : Keeps A P) (hA : Sub 0x1b28f27dbf9bc7ff A) {s : State} {t : PageType} {i off : Nat} {row : RegRow} {v lv : Dword} {keyed : Bool} (hs : P s) :
    P (State.bodyWrite s t i off row v lv keyed) := by
  unfold State.bodyWrite
  split
  · exact hs
  · split
    · refine keeps_ite ?_ ?_
      · exact State.keyFail_keeps hP (hA.mono (by decide)) hs
      · exact State.fieldWrite_keeps hP (hA.mono (by decide)) (State.keyFail_keeps hP (hA.mono (by decide)) hs)
    · split
      · next u e => exact State.actionWrite_keeps hP (hA.mono (by decide)) hs e
      · exact State.fieldWrite_keeps hP (hA.mono (by decide)) hs

theorem State.pageCtrlWrite_keeps (hP : Keeps A P) (hA : Sub 0x2000000808047eb A) {s : State} {t : PageType} {i : Nat} {row : RegRow} {v lv : Dword} (hs : P s) : P (State.pageCtrlWrite s t i row v lv) := by
  unfold State.pageCtrlWrite
  repeat' first
    | with_reducible assumption
    | lift_lets -underBinder
    | (intro x; revert x; refine keeps_let P ?_ (fun _ _ => ?_))
    | (intro x; first | (have _h : Nat := x; clear _h; subst x) | clear_value x)
    | with_reducible refine State.chRunWritten_keeps hP (hA.mono (by decide)) ?_
    | with_reducible refine State.storeValue_keeps hP (hA.mono (by decide)) ?_
    | with_reducible refine State.rejectWrite_keeps hP (hA.mono (by decide)) ?_
    | with_reducible refine State.synPageCtrl_keeps hP (hA.mono (by decide)) ?_
    | with_reducible refine State.entry_keeps hP (hA.mono (by decide)) ?_
    | with_reducible refine keeps_ite ?_ ?_
    | split
    | with_reducible refine keeps_pair (by assumption) ?_
    | with_reducible refine keeps_pair₂ (by assumption) ?_

theorem State.headWrite_keeps (hP : Keeps A P) (hA : Sub 0x320800088804ffb A) {s : State} {t : PageType} {i off : Nat} {row : RegRow} {v lv : Dword} {keyed : Bool} (hs : P s) : P (State.headWrite s t i off row v lv keyed) := by
  unfold State.headWrite
  repeat' first
    | with_reducible assumption
    | lift_lets -underBinder
    | (intro x; revert x; refine keeps_let P ?_ (fun _ _ => ?_))
    | (intro x; first | (have _h : Nat := x; clear _h; subst x) | clear_value x)
    | with_reducible refine hP.key (hA.mono (by decide)) _ _ _ ?_
    | with_reducible refine State.withIrq_keeps hP (hA.mono (by decide)) ?_ (fun _ _ => ?_)
    | with_reducible refine hP.wrAny (hA.mono (by decide)) _ _ _ ?_
    | with_reducible refine State.keyFail_keeps hP (hA.mono (by decide)) ?_
    | with_reducible refine State.pageCtrlWrite_keeps hP (hA.mono (by decide)) ?_
    | with_reducible refine State.freezeWrite_keeps hP (hA.mono (by decide)) ?_
    | with_reducible refine keeps_ite ?_ ?_
    | split

theorem State.pageWrite_keeps (hP : Keeps A P) (hA : Sub 0x1b28f27dbf9bcfff A) {s : State} {t : PageType} {i off : Nat} {v lv : Dword} (hs : P s) : P (State.pageWrite s t i off v lv) := by
  unfold State.pageWrite
  repeat' first
    | with_reducible assumption
    | lift_lets -underBinder
    | (intro x; revert x; refine keeps_let P ?_ (fun _ _ => ?_))
    | (intro x; clear_value x)
    | with_reducible refine hP.key (hA.mono (by decide)) _ _ _ ?_
    | with_reducible refine State.busError_keeps hP (hA.mono (by decide)) ?_
    | with_reducible refine State.headWrite_keeps hP (hA.mono (by decide)) ?_
    | with_reducible refine State.bodyWrite_keeps hP (hA.mono (by decide)) ?_
    | with_reducible refine keeps_ite ?_ ?_
    | split
    | with_reducible refine keeps_pair (by assumption) ?_
    | with_reducible refine keeps_pair₂ (by assumption) ?_

theorem State.msixUnmask?_keeps (hP : Keeps A P) (hA : Sub 0x28 A) {s : State} {v : Option (Fin 64)} (hs : P s) : P (State.msixUnmask? s v) := by
  unfold State.msixUnmask?
  repeat' first
    | with_reducible assumption
    | with_reducible refine State.msixUnmask_keeps hP (hA.mono (by decide)) ?_
    | split
    | with_reducible refine keeps_pair (by assumption) ?_
    | with_reducible refine keeps_pair₂ (by assumption) ?_

theorem State.msixWrite_keeps (hP : Keeps A P) (hA : Sub 0x20000000000002b A) {s : State} {addr : Nat} {v : Dword} (hs : P s) : P (State.msixWrite s addr v) := by
  unfold State.msixWrite
  repeat' first
    | with_reducible assumption
    | lift_lets -underBinder
    | (intro x; revert x; refine keeps_let P ?_ (fun _ _ => ?_))
    | (intro x; clear_value x)
    | with_reducible refine hP.msix (hA.mono (by decide)) _ _ _ ?_
    | with_reducible refine State.msixUnmask_keeps hP (hA.mono (by decide)) ?_
    | with_reducible refine State.busError_keeps hP (hA.mono (by decide)) ?_
    | with_reducible refine keeps_ite ?_ ?_
    | split
    | with_reducible refine keeps_pair (by assumption) ?_
    | with_reducible refine keeps_pair₂ (by assumption) ?_

theorem State.busWrite_keeps (hP : Keeps A P) (hA : Sub 0x1b38f2fdbfbfcfff A) {s : State} {addr : Nat} {v lv : Dword} (hs : P s) : P (State.busWrite s addr v lv) := by
  unfold State.busWrite
  repeat' first
    | with_reducible assumption
    | lift_lets -underBinder
    | (intro x; revert x; refine keeps_let P ?_ (fun _ _ => ?_))
    | (intro x; clear_value x)
    | with_reducible refine State.pageWrite_keeps hP (hA.mono (by decide)) ?_
    | with_reducible refine State.busError_keeps hP (hA.mono (by decide)) ?_
    | with_reducible refine State.imemLo_keeps hP (hA.mono (by decide)) ?_
    | with_reducible refine State.imemHi_keeps hP (hA.mono (by decide)) ?_
    | with_reducible refine State.scratchAccess_keeps hP (hA.mono (by decide)) ?_
    | with_reducible refine State.msixWrite_keeps hP (hA.mono (by decide)) ?_
    | with_reducible refine keeps_ite ?_ ?_
    | split
    | with_reducible refine keeps_pair (by assumption) ?_
    | with_reducible refine keeps_pair₂ (by assumption) ?_

theorem State.pageRead_keeps (hP : Keeps A P) (hA : Sub 0x20000000000002b A) {s : State} {t : PageType} {i off : Nat} (hs : P s) : P (State.pageRead s t i off) := by
  unfold State.pageRead
  repeat' first
    | with_reducible assumption
    | lift_lets -underBinder
    | (intro x; revert x; refine keeps_let P ?_ (fun _ _ => ?_))
    | (intro x; clear_value x)
    | with_reducible refine State.busError_keeps hP (hA.mono (by decide)) ?_
    | with_reducible refine State.readClear_keeps hP (hA.mono (by decide)) ?_
    | with_reducible refine hP.send (hA.mono (by decide)) _ _ ?_
    | with_reducible refine State.showPeaks_keeps hP (hA.mono (by decide)) ?_
    | with_reducible refine State.jrnlSelect_keeps hP (hA.mono (by decide)) ?_
    | with_reducible refine keeps_ite ?_ ?_
    | split
    | with_reducible refine keeps_pair (by assumption) ?_
    | with_reducible refine keeps_pair₂ (by assumption) ?_

theorem State.busRead_keeps (hP : Keeps A P) (hA : Sub 0x21000a000b203eb A) {s : State} {addr : Nat} (hs : P s) : P (State.busRead s addr) := by
  unfold State.busRead
  repeat' first
    | with_reducible assumption
    | with_reducible refine State.pageRead_keeps hP (hA.mono (by decide)) ?_
    | with_reducible refine State.busError_keeps hP (hA.mono (by decide)) ?_
    | with_reducible refine State.imemRead_keeps hP (hA.mono (by decide)) ?_
    | with_reducible refine State.scratchAccess_keeps hP (hA.mono (by decide)) ?_
    | with_reducible refine hP.send (hA.mono (by decide)) _ _ ?_
    | with_reducible refine keeps_ite ?_ ?_
    | split
    | with_reducible refine keeps_pair (by assumption) ?_
    | with_reducible refine keeps_pair₂ (by assumption) ?_

theorem State.consumeKey_keeps (hP : Keeps A P) (hA : Sub 0x800 A) {s : State} {addr : Nat} (hs : P s) : P (State.consumeKey s addr) := by
  unfold State.consumeKey
  repeat' first
    | with_reducible assumption
    | with_reducible refine hP.key (hA.mono (by decide)) _ _ _ ?_
    | split
    | with_reducible refine keeps_pair (by assumption) ?_
    | with_reducible refine keeps_pair₂ (by assumption) ?_

theorem State.malformed_keeps (hP : Keeps A P) (hA : Sub 0x20000000000082b A) {s : State} {addr : Nat} {req : BusReq} (hs : P s) : P (State.malformed s addr req) := by
  unfold State.malformed
  repeat' first
    | with_reducible assumption
    | with_reducible refine State.busError_keeps hP (hA.mono (by decide)) ?_
    | with_reducible refine State.consumeKey_keeps hP (hA.mono (by decide)) ?_
    | split
    | with_reducible refine keeps_pair (by assumption) ?_
    | with_reducible refine keeps_pair₂ (by assumption) ?_

theorem State.poisonedWrite_keeps (hP : Keeps A P) (hA : Sub 0x20000000000082b A) {s : State} {target : PoisonTarget} (hs : P s) : P (State.poisonedWrite s target) := by
  unfold State.poisonedWrite
  repeat' first
    | with_reducible assumption
    | with_reducible refine State.raiseAt_keeps hP (hA.mono (by decide)) ?_
    | with_reducible refine hP.send (hA.mono (by decide)) _ _ ?_
    | with_reducible refine State.consumeKey_keeps hP (hA.mono (by decide)) ?_
    | split
    | with_reducible refine keeps_pair (by assumption) ?_
    | with_reducible refine keeps_pair₂ (by assumption) ?_

/-! A write of a page that is not the timebase's leaves device time. -/

theorem State.written_other (hP : Keeps A P) (hA : Sub 0xa08d209b88a47ef A) {s : State} {t : PageType} {i off : Nat} {old v lv : Dword} {keyed running trimming : Bool}
    (ht : t ≠ .tb) (hs : P s) : P (State.written s t i off old v lv keyed running trimming) := by
  unfold State.written
  split
  · exact absurd rfl ht
  · refine keeps_ite ?_ hs
    rw [State.mk_trigOut]; exact hP.trigOut (hA.mono (by decide)) hs
  all_goals first
    | with_reducible exact hs
    | with_reducible exact State.synWritten_keeps hP (hA.mono (by decide)) hs
    | with_reducible exact State.domWritten_keeps hP (hA.mono (by decide)) hs
    | with_reducible exact State.swarmWritten_keeps hP (hA.mono (by decide)) hs
    | with_reducible exact State.chWritten_keeps hP (hA.mono (by decide)) hs
    | with_reducible exact State.regWritten_keeps hP (hA.mono (by decide)) hs
    | with_reducible exact keeps_ite (State.mboxOutWritten_keeps hP (hA.mono (by decide)) hs) hs
    | with_reducible exact keeps_ite (State.noteMatcher_keeps hP (hA.mono (by decide)) hs) (keeps_ite (State.eslOff_keeps hP (hA.mono (by decide)) hs) hs)
    | with_reducible exact keeps_ite (State.linkWritten_keeps hP (hA.mono (by decide)) hs) hs
    | with_reducible exact keeps_ite (State.eslOff_keeps hP (hA.mono (by decide)) hs) hs
    | with_reducible exact keeps_ite (State.post_keeps hP (hA.mono (by decide)) hs) hs
    | with_reducible exact keeps_ite (State.setFld_keeps hP (hA.mono (by decide)) hs) hs

theorem State.fieldWrite_other (hP : Keeps A P) (hA : Sub 0xa08d209b88a47ef A) {s : State} {t : PageType} {i off : Nat} {row : RegRow} {v lv : Dword} {keyed : Bool}
    (ht : t ≠ .tb) (hs : P s) : P (State.fieldWrite s t i off row v lv keyed) := by
  unfold State.fieldWrite
  repeat' first
    | with_reducible assumption
    | lift_lets -underBinder
    | (intro x; revert x; refine keeps_let P ?_ (fun _ _ => ?_))
    | (intro x; clear_value x)
    | with_reducible refine State.entry_keeps hP (hA.mono (by decide)) ?_
    | with_reducible refine State.noteWrite_keeps hP (hA.mono (by decide)) ?_
    | with_reducible refine State.chBefore_keeps hP (hA.mono (by decide)) ?_
    | with_reducible refine State.storeValue_keeps hP (hA.mono (by decide)) ?_
    | with_reducible refine State.written_other hP (hA.mono (by decide)) ht ?_
    | with_reducible refine keeps_ite ?_ ?_
    | split

theorem State.bodyWrite_other (hP : Keeps A P) (hA : Sub 0x1b28f27dbf9bc7ff A) {s : State} {t : PageType} {i off : Nat} {row : RegRow} {v lv : Dword} {keyed : Bool}
    (ht : t ≠ .tb) (hs : P s) : P (State.bodyWrite s t i off row v lv keyed) := by
  unfold State.bodyWrite
  split
  · exact hs
  · split
    · refine keeps_ite ?_ ?_
      · exact State.keyFail_keeps hP (hA.mono (by decide)) hs
      · exact State.fieldWrite_other hP (hA.mono (by decide)) ht (State.keyFail_keeps hP (hA.mono (by decide)) hs)
    · split
      · next u e => exact State.actionWrite_keeps hP (hA.mono (by decide)) hs e
      · exact State.fieldWrite_other hP (hA.mono (by decide)) ht hs

theorem State.pageWrite_other (hP : Keeps A P) (hA : Sub 0x1b28f27dbf9bcfff A) {s : State} {t : PageType} {i off : Nat} {v lv : Dword} (ht : t ≠ .tb) (hs : P s) :
    P (State.pageWrite s t i off v lv) := by
  unfold State.pageWrite
  lift_lets -underBinder
  intro keyed s₁
  have h₁ : P s₁ := hP.key (hA.mono (by decide)) s _ _ hs
  split
  · exact State.busError_keeps hP (hA.mono (by decide)) h₁
  · exact keeps_ite (State.headWrite_keeps hP (hA.mono (by decide)) h₁) (State.bodyWrite_other hP (hA.mono (by decide)) ht h₁)

theorem State.judgeOne_keeps (hP : Keeps A P) (hA : Sub 0x1a08f27cbf9bc7ef A) {s : State} {x : Agent × Dword} (hs : P s) : P (State.judgeOne s x) := by
  unfold State.judgeOne
  repeat' first
    | with_reducible assumption
    | lift_lets -underBinder
    | (intro x; revert x; refine keeps_let P ?_ (fun _ _ => ?_))
    | (intro x; clear_value x)
    | with_reducible refine State.judgeNow_keeps hP (hA.mono (by decide)) ?_ (fun _ _ => ?_)
    | with_reducible refine acceptCode_keeps hP (hA.mono (by decide)) ?_
    | split
    | (rw [State.mk_svc]; apply hP.svc (hA.mono (by decide)))
    | with_reducible refine keeps_pair (by assumption) ?_
    | with_reducible refine keeps_pair₂ (by assumption) ?_

theorem State.judgeHeld_keeps (hP : Keeps A P) (hA : Sub 0x1a08f27dbf9bc7ef A) {s : State} (hs : P s) : P (State.judgeHeld s) := by
  unfold State.judgeHeld
  repeat' first
    | with_reducible assumption
    | lift_lets -underBinder
    | (intro x; revert x; refine keeps_let P ?_ (fun _ _ => ?_))
    | (intro x; clear_value x)
    | with_reducible refine State.takeCommand_keeps hP (hA.mono (by decide)) ?_
    | with_reducible refine State.strapDue_keeps hP (hA.mono (by decide)) ?_
    | with_reducible refine State.settle_keeps hP (hA.mono (by decide)) ?_
    | with_reducible refine State.judgeOne_keeps hP (hA.mono (by decide)) ?_
    | with_reducible refine keeps_foldl _ (fun _ _ _ => ?_) ?_
    | fail_if_no_progress beta_reduce
    | with_reducible refine keeps_ite ?_ ?_
    | split
    | (rw [State.mk_run]; apply hP.run (hA.mono (by decide)))

theorem State.clock_keeps (hP : Keeps A P) (hA : Sub 0x2010007608003e9 A) {s : State} (hs : P s) : P (State.clock s) := by
  unfold State.clock
  repeat' first
    | with_reducible assumption
    | lift_lets -underBinder
    | (intro x; revert x; refine keeps_let P ?_ (fun _ _ => ?_))
    | (intro x; clear_value x)
    | with_reducible refine State.endAclk_keeps hP (hA.mono (by decide)) ?_
    | with_reducible refine hP.modTime (hA.mono (by decide)) (fun _ => rfl) ?_
    | with_reducible refine State.countTime_keeps hP (hA.mono (by decide)) ?_
    | fail_if_no_progress beta_reduce
    | with_reducible refine keeps_ite ?_ ?_
    | split
    | (rw [State.mk_power]; apply hP.power (hA.mono (by decide)))

theorem State.jumpEnds_keeps (hP : Keeps A P) (hA : Sub 0x1a00a2781c9b47ef A) {s : State} (hs : P s) : P (State.jumpEnds s) := by
  unfold State.jumpEnds
  repeat' first
    | with_reducible assumption
    | with_reducible refine State.settle_keeps hP (hA.mono (by decide)) ?_
    | with_reducible refine State.offersDue_keeps hP (hA.mono (by decide)) ?_
    | with_reducible refine State.forEach_keeps hP (hA.mono (by decide)) ?_ (fun _ _ _ => ?_)
    | with_reducible refine State.jumpEnd_keeps hP (hA.mono (by decide)) ?_

theorem State.tick_keeps (hP : Keeps A P) (hA : Sub 0x1b79f2fffffbf7ff A) {s : State} (hs : P s) : P (State.tick s) := by
  unfold State.tick
  repeat' first
    | with_reducible assumption
    | with_reducible refine State.serveReqs_keeps hP (hA.mono (by decide)) ?_
    | with_reducible refine State.serveHeld_keeps hP (hA.mono (by decide)) ?_
    | with_reducible refine State.showSteps_keeps hP (hA.mono (by decide)) ?_
    | with_reducible refine State.holdWindows_keeps hP (hA.mono (by decide)) ?_
    | with_reducible refine State.deliverSummaries_keeps hP (hA.mono (by decide)) ?_
    | with_reducible refine State.clock_keeps hP (hA.mono (by decide)) ?_
    | with_reducible refine State.endSlot_keeps hP (hA.mono (by decide)) ?_
    | with_reducible refine State.judgeHeld_keeps hP (hA.mono (by decide)) ?_
    | with_reducible refine State.chipRecords_keeps hP (hA.mono (by decide)) ?_
    | with_reducible refine State.jumpEnds_keeps hP (hA.mono (by decide)) ?_
    | with_reducible refine keeps_ite ?_ ?_
    | split

theorem State.command_keeps (hP : Keeps A P) (hA : Sub 0x200000800800beb A) {s : State} {code : Nat} {id : BitVec 8} {accept : State → State} (hs : P s) (haccept : ∀ (x0 : State), P x0 → P (accept x0)) : P (State.command s code id accept) := by
  unfold State.command
  repeat' first
    | with_reducible assumption
    | with_reducible refine State.hostAccess_keeps hP (hA.mono (by decide)) ?_ (fun _ _ => ?_)
    | with_reducible refine State.judgeCmd_keeps hP (hA.mono (by decide)) ?_ (fun _ _ => ?_)
    | with_reducible refine hP.key (hA.mono (by decide)) _ _ _ ?_
    | with_reducible refine haccept _ ?_

theorem State.storeFault_keeps (hP : Keeps A P) (hA : Sub 0x2000010049907ed A) {s : State} {n code bank : Nat} (hs : P s) : P (State.storeFault s n code bank) := by
  unfold State.storeFault
  repeat' first
    | with_reducible assumption
    | lift_lets -underBinder
    | (intro x; revert x; refine keeps_let P ?_ (fun _ _ => ?_))
    | (intro x; clear_value x)
    | with_reducible refine State.regionFault_keeps hP (hA.mono (by decide)) ?_
    | with_reducible refine hP.drawn (hA.mono (by decide)) _ ?_
    | with_reducible refine keeps_ite ?_ ?_
    | split

theorem State.edgeArrival_keeps (hP : Keeps A P) (hA : Sub 0x20000000080c3e9 A) {s : State} {k fine : Nat} (hs : P s) : P (State.edgeArrival s k fine) := by
  unfold State.edgeArrival
  repeat' first
    | with_reducible assumption
    | lift_lets -underBinder
    | (intro x; revert x; refine keeps_let P ?_ (fun _ _ => ?_))
    | (intro x; clear_value x)
    | with_reducible refine State.transition_keeps hP (hA.mono (by decide)) ?_
    | with_reducible refine State.countNow_keeps hP (hA.mono (by decide)) ?_
    | with_reducible refine State.countEdges_keeps hP (hA.mono (by decide)) ?_
    | with_reducible refine State.modChan_keeps hP (hA.mono (by decide)) ?_
    | with_reducible refine State.settlePool_keeps hP (hA.mono (by decide)) ?_
    | with_reducible refine State.poolEdge_keeps hP (hA.mono (by decide)) ?_
    | fail_if_no_progress beta_reduce
    | with_reducible refine keeps_ite ?_ ?_
    | split

theorem State.otherTransition_keeps (hP : Keeps A P) (hA : Sub 0x20000000080c3e9 A) {s : State} {k : Nat} (hs : P s) : P (State.otherTransition s k) := by
  unfold State.otherTransition
  repeat' first
    | with_reducible assumption
    | with_reducible refine State.transition_keeps hP (hA.mono (by decide)) ?_
    | with_reducible refine keeps_ite ?_ ?_
    | split

theorem State.releaseConv_keeps (hP : Keeps A P) (hA : Sub 0x4001 A) {s : State} {k j : Nat} (hs : P s) : P (State.releaseConv s k j) := by
  unfold State.releaseConv
  repeat' first
    | with_reducible assumption
    | with_reducible refine State.settlePool_keeps hP (hA.mono (by decide)) ?_
    | with_reducible refine keeps_ite ?_ ?_
    | split

theorem State.gapLimit_keeps (hP : Keeps A P) (hA : Sub 0x4001 A) {s : State} {k : Nat} (hs : P s) : P (State.gapLimit s k) := by
  unfold State.gapLimit
  repeat' first
    | with_reducible assumption
    | with_reducible refine State.settlePool_keeps hP (hA.mono (by decide)) ?_
    | with_reducible refine keeps_ite ?_ ?_
    | split
    | with_reducible refine keeps_pair (by assumption) ?_
    | with_reducible refine keeps_pair₂ (by assumption) ?_

theorem State.recalDone_keeps (hP : Keeps A P) (hA : Sub 0x2000000008043e9 A) {s : State} {k failed : Nat} {tables : List (Fin 96 × Fin 17 × CalTable)} (hs : P s) : P (State.recalDone s k failed tables) := by
  unfold State.recalDone
  repeat' first
    | with_reducible assumption
    | with_reducible refine State.calDone_keeps hP (hA.mono (by decide)) ?_
    | with_reducible refine keeps_ite ?_ ?_
    | split

theorem State.readyChecked_keeps (hP : Keeps A P) (hA : Sub 0x2000000008043e9 A) {s : State} {failed : List (Fin 96 × BitVec 17)} (hs : P s) : P (State.readyChecked s failed) := by
  unfold State.readyChecked
  repeat' first
    | with_reducible assumption
    | with_reducible refine State.forEach_keeps hP (hA.mono (by decide)) ?_ (fun _ _ _ => ?_)
    | with_reducible refine State.checkDone_keeps hP (hA.mono (by decide)) ?_
    | with_reducible refine keeps_ite ?_ ?_
    | split

theorem State.swarmConfig_keeps (hP : Keeps A P) (hA : Sub 0x1b28f27dbf9bcfff A) {s : State} {r : SwarmReg} {v : Dword} (hs : P s) : P (State.swarmConfig s r v) := by
  unfold State.swarmConfig
  cases r <;> exact State.pageWrite_other hP (hA.mono (by decide)) (by decide) hs

theorem State.strapChange_keeps (hP : Keeps A P) (hA : Sub 0x2008001208007eb A) {s : State} {high : Bool} (hs : P s) : P (State.strapChange s high) := by
  unfold State.strapChange
  repeat' first
    | with_reducible assumption
    | with_reducible refine State.strap_keeps hP (hA.mono (by decide)) ?_
    | with_reducible refine keeps_ite ?_ ?_
    | split

theorem State.boundaryApply_keeps (hP : Keeps A P) (hA : Sub 0x2000000808007e9 A) {s : State} {addr : Nat} {inBand : Bool} (hs : P s) : P (State.boundaryApply s addr inBand) := by
  unfold State.boundaryApply
  repeat' first
    | with_reducible assumption
    | with_reducible refine State.synBoundary_keeps hP (hA.mono (by decide)) ?_
    | with_reducible refine State.applyPage_unit hP (hA.mono (by decide)) (by first | omega | (simp only [tbPage, jrnlPage, svcPage, swarmPage, eslPage, dmaPage, synPage, domPage, linkPage, dmacPage, chPage, regPage, blkPage, bankPage]; omega)) ?_
    | with_reducible refine keeps_ite ?_ ?_
    | split
    | with_reducible refine keeps_pair (by assumption) ?_
    | with_reducible refine keeps_pair₂ (by assumption) ?_

end Sys2Proof.Machine
end

