-- ==== Sys2Proof/Laws/EffectsExec.lean ====
section
/-! SUPPORT. The effects of each command: the primitive changes it may make, as a mask. -/
namespace Sys2Proof.Machine
open Sys2Proof
set_option linter.unusedTactic false
set_option linter.unreachableTactic false
set_option linter.unusedVariables false
set_option linter.unusedSimpArgs false
variable {A : Nat} {P : State → Prop}

theorem keeps_next {a t : State} (h : (Host.Outcome.next a : Host.Outcome State Fault Refusal) = .next t) (ha : P a) : P t := by
  cases h; exact ha

theorem execCmdLoad_keeps (hP : Keeps A P) (hA : Sub 0x200000800800bef A) {id : BitVec 8} {s : State} {post : State} (hs : P s) (h : execCmdLoad id s = .next post) : P post := by
  refine keeps_next h ?_
  repeat' first
    | with_reducible assumption
    | with_reducible refine State.command_keeps hP (hA.mono (by decide)) ?_ (fun _ _ => ?_)
    | with_reducible refine State.acceptLoad_keeps hP (hA.mono (by decide)) ?_

theorem execLoadComplete_keeps (hP : Keeps A P) (hA : Sub 0xa000708008447ef A) {image : List (BitVec 64)} {brk : Option LoadBreak} {insts : List Meas} {lines : List (Nat × LineUse)} {s : State} {post : State} (hs : P s) (h : execLoadComplete image brk insts lines s = .next post) : P post := by
  refine keeps_next h ?_
  repeat' first
    | with_reducible assumption
    | with_reducible refine State.loadComplete_keeps hP (hA.mono (by decide)) ?_

theorem execCmdArm_keeps (hP : Keeps A P) (hA : Sub 0x1a00a2781c9b4fef A) {id : BitVec 8} {s : State} {post : State} (hs : P s) (h : execCmdArm id s = .next post) : P post := by
  refine keeps_next h ?_
  repeat' first
    | with_reducible assumption
    | with_reducible refine State.command_keeps hP (hA.mono (by decide)) ?_ (fun _ _ => ?_)
    | with_reducible refine State.acceptArm_keeps hP (hA.mono (by decide)) ?_

theorem execCmdStart_keeps (hP : Keeps A P) (hA : Sub 0x1a00e2781f9bcfef A) {id : BitVec 8} {s : State} {post : State} (hs : P s) (h : execCmdStart id s = .next post) : P post := by
  refine keeps_next h ?_
  repeat' first
    | with_reducible assumption
    | with_reducible refine State.command_keeps hP (hA.mono (by decide)) ?_ (fun _ _ => ?_)
    | with_reducible refine State.acceptStart_keeps hP (hA.mono (by decide)) ?_

theorem execRunSlot0_keeps (hP : Keeps A P) (hA : Sub 0xa000208008847ed A) {s : State} {post : State} (hs : P s) (h : execRunSlot0 s = .next post) : P post := by
  refine keeps_next h ?_
  repeat' first
    | with_reducible assumption
    | with_reducible refine State.slot0_keeps hP (hA.mono (by decide)) ?_

theorem execCmdStop_keeps (hP : Keeps A P) (hA : Sub 0x1a00e2781f9bcfef A) {id : BitVec 8} {s : State} {post : State} (hs : P s) (h : execCmdStop id s = .next post) : P post := by
  refine keeps_next h ?_
  repeat' first
    | with_reducible assumption
    | with_reducible refine State.command_keeps hP (hA.mono (by decide)) ?_ (fun _ _ => ?_)
    | with_reducible refine State.acceptStop_keeps hP (hA.mono (by decide)) ?_

theorem execCmdAbort_keeps (hP : Keeps A P) (hA : Sub 0x1a00e2781f9bcfef A) {id : BitVec 8} {s : State} {post : State} (hs : P s) (h : execCmdAbort id s = .next post) : P post := by
  refine keeps_next h ?_
  repeat' first
    | with_reducible assumption
    | with_reducible refine State.command_keeps hP (hA.mono (by decide)) ?_ (fun _ _ => ?_)
    | with_reducible refine State.acceptAbort_keeps hP (hA.mono (by decide)) ?_

theorem execCmdResetRun_keeps (hP : Keeps A P) (hA : Sub 0xa00021804894fef A) {id : BitVec 8} {s : State} {post : State} (hs : P s) (h : execCmdResetRun id s = .next post) : P post := by
  refine keeps_next h ?_
  repeat' first
    | with_reducible assumption
    | with_reducible refine State.command_keeps hP (hA.mono (by decide)) ?_ (fun _ _ => ?_)
    | with_reducible refine State.acceptReset_keeps hP (hA.mono (by decide)) ?_

theorem execCmdCluster_keeps (hP : Keeps A P) (hA : Sub 0x1a00f27cbc9b4fef A) {id : BitVec 8} {s : State} {post : State} (hs : P s) (h : execCmdCluster id s = .next post) : P post := by
  refine keeps_next h ?_
  repeat' first
    | with_reducible assumption
    | with_reducible refine State.command_keeps hP (hA.mono (by decide)) ?_ (fun _ _ => ?_)
    | with_reducible refine State.acceptCluster_keeps hP (hA.mono (by decide)) ?_

theorem execCmdWake_keeps (hP : Keeps A P) (hA : Sub 0x200800c80804feb A) {id : BitVec 8} {s : State} {post : State} (hs : P s) (h : execCmdWake id s = .next post) : P post := by
  refine keeps_next h ?_
  repeat' first
    | with_reducible assumption
    | with_reducible refine State.command_keeps hP (hA.mono (by decide)) ?_ (fun _ _ => ?_)
    | with_reducible refine State.acceptWake_keeps hP (hA.mono (by decide)) ?_

theorem execCmdInvalid_keeps (hP : Keeps A P) (hA : Sub 0x1b28f27dbf9bcfff A) {v : Dword} {s : State} {post : State} (hs : P s) (h : execCmdInvalid v s = .next post) : P post := by
  refine keeps_next h ?_
  repeat' first
    | with_reducible assumption
    | with_reducible refine State.hostAccess_keeps hP (hA.mono (by decide)) ?_ (fun _ _ => ?_)
    | with_reducible refine State.pageWrite_other hP (hA.mono (by decide)) (by decide) ?_

theorem execRegionHalt_keeps (hP : Keeps A P) (hA : Sub 0xa000210048847ef A) {n : Fin 8} {s : State} {post : State} (hs : P s) (h : execRegionHalt n s = .next post) : P post := by
  refine keeps_next h ?_
  repeat' first
    | with_reducible assumption
    | with_reducible refine State.regionHalt_keeps hP (hA.mono (by decide)) ?_

theorem execMajorCycleEnd_keeps (hP : Keeps A P) (hA : Sub 0x1a00a2781f9bc7ef A) {n : Fin 8} {s : State} {post : State} (hs : P s) (h : execMajorCycleEnd n s = .next post) : P post := by
  refine keeps_next h ?_
  repeat' first
    | with_reducible assumption
    | with_reducible refine State.settle_keeps hP (hA.mono (by decide)) ?_
    | with_reducible refine State.majorCycleEnd_keeps hP (hA.mono (by decide)) ?_

theorem execStoreFault_keeps (hP : Keeps A P) (hA : Sub 0x1a00a2781c9b47ef A) {n : Fin 8} {code : Fin 4} {bank : Fin 32} {s : State} {post : State} (hs : P s) (h : execStoreFault n code bank s = .next post) : P post := by
  refine keeps_next h ?_
  repeat' first
    | with_reducible assumption
    | with_reducible refine State.settle_keeps hP (hA.mono (by decide)) ?_
    | with_reducible refine State.storeFault_keeps hP (hA.mono (by decide)) ?_

theorem execTimebaseStart_keeps (hP : Keeps A P) (hA : Sub 0x201000780004069 A) {s : State} {post : State} (hs : P s) (h : execTimebaseStart s = .next post) : P post := by
  refine keeps_next h ?_
  repeat' first
    | with_reducible assumption
    | with_reducible refine State.timebaseStart_keeps hP (hA.mono (by decide)) ?_

theorem execLockDeclared_keeps (hP : Keeps A P) (hA : Sub 0x1a00a2799c9b47ef A) {phases : List (BitVec 12)} {refs : Refs} {s : State} {post : State} (hs : P s) (h : execLockDeclared phases refs s = .next post) : P post := by
  refine keeps_next h ?_
  repeat' first
    | with_reducible assumption
    | with_reducible refine State.settle_keeps hP (hA.mono (by decide)) ?_
    | with_reducible refine State.lockDeclared_keeps hP (hA.mono (by decide)) ?_

theorem execHardLoss_keeps (hP : Keeps A P) (hA : Sub 0x1a00a2799c9b47ef A) {c : LossCause} {refs : Refs} {s : State} {post : State} (hs : P s) (h : execHardLoss c refs s = .next post) : P post := by
  refine keeps_next h ?_
  repeat' first
    | with_reducible assumption
    | with_reducible refine State.settle_keeps hP (hA.mono (by decide)) ?_
    | with_reducible refine State.hardLoss_keeps hP (hA.mono (by decide)) ?_

theorem execSoftLoss_keeps (hP : Keeps A P) (hA : Sub 0x1a00a2799c9b47ef A) {phases : List (BitVec 12)} {refs : Refs} {s : State} {post : State} (hs : P s) (h : execSoftLoss phases refs s = .next post) : P post := by
  refine keeps_next h ?_
  repeat' first
    | with_reducible assumption
    | with_reducible refine State.settle_keeps hP (hA.mono (by decide)) ?_
    | with_reducible refine State.softLoss_keeps hP (hA.mono (by decide)) ?_

theorem execBypassSwitch_keeps (hP : Keeps A P) (hA : Sub 0x1000320004001 A) {altToggles : Bool} {s : State} {post : State} (hs : P s) (h : execBypassSwitch altToggles s = .next post) : P post := by
  refine keeps_next h ?_
  repeat' first
    | with_reducible assumption
    | with_reducible refine State.bypassSwitch_keeps hP (hA.mono (by decide)) ?_

theorem execAltrefFail_keeps (hP : Keeps A P) (hA : Sub 0x1 A) {s : State} {post : State} (hs : P s) (h : execAltrefFail s = .next post) : P post := by
  refine keeps_next h ?_
  repeat' first
    | with_reducible assumption
    | with_reducible refine State.altrefFail_keeps hP (hA.mono (by decide)) ?_

theorem execSwitchBack_keeps (hP : Keeps A P) (hA : Sub 0x2008001208047eb A) {s : State} {post : State} (hs : P s) (h : execSwitchBack s = .next post) : P post := by
  refine keeps_next h ?_
  repeat' first
    | with_reducible assumption
    | with_reducible refine State.switchBack_keeps hP (hA.mono (by decide)) ?_

theorem execLockWithdrawn_keeps (hP : Keeps A P) (hA : Sub 0x1a00a2799c9b47ef A) {c : LossCause} {refs : Refs} {s : State} {post : State} (hs : P s) (h : execLockWithdrawn c refs s = .next post) : P post := by
  refine keeps_next h ?_
  repeat' first
    | with_reducible assumption
    | with_reducible refine State.settle_keeps hP (hA.mono (by decide)) ?_
    | with_reducible refine State.lockWithdrawn_keeps hP (hA.mono (by decide)) ?_

theorem execDtimeWrap_keeps (hP : Keeps A P) (hA : Sub 0x200000100000029 A) {s : State} {post : State} (hs : P s) (h : execDtimeWrap s = .next post) : P post := by
  refine keeps_next h ?_
  repeat' first
    | with_reducible assumption
    | with_reducible refine State.dtimeWrap_keeps hP (hA.mono (by decide)) ?_

theorem execTrimSlewStep_keeps (hP : Keeps A P) (hA : Sub 0x200800300000029 A) {s : State} {post : State} (hs : P s) (h : execTrimSlewStep s = .next post) : P post := by
  refine keeps_next h ?_
  repeat' first
    | with_reducible assumption
    | with_reducible refine State.trimSlew_keeps hP (hA.mono (by decide)) ?_

theorem execTbReset_keeps (hP : Keeps A P) (hA : Sub 0x1b28f27dbf9bcfff A) {altrefEn : Bool} {s : State} {post : State} (hs : P s) (h : execTbReset altrefEn s = .next post) : P post := by
  refine keeps_next h ?_
  repeat' first
    | with_reducible assumption
    | with_reducible refine State.hostAccess_keeps hP (hA.mono (by decide)) ?_ (fun _ _ => ?_)
    | with_reducible refine State.pageWrite_keeps hP (hA.mono (by decide)) ?_

theorem execRefselWrite_keeps (hP : Keeps A P) (hA : Sub 0x1b28f27dbf9bcfff A) {refsel : Bool} {altrefEn : Bool} {s : State} {post : State} (hs : P s) (h : execRefselWrite refsel altrefEn s = .next post) : P post := by
  refine keeps_next h ?_
  repeat' first
    | with_reducible assumption
    | with_reducible refine State.hostAccess_keeps hP (hA.mono (by decide)) ?_ (fun _ _ => ?_)
    | with_reducible refine State.pageWrite_keeps hP (hA.mono (by decide)) ?_

theorem execEdgeArrival_keeps (hP : Keeps A P) (hA : Sub 0x20000000080c3e9 A) {k : Fin 96} {fine : BitVec 10} {s : State} {post : State} (hs : P s) (h : execEdgeArrival k fine s = .next post) : P post := by
  refine keeps_next h ?_
  repeat' first
    | with_reducible assumption
    | with_reducible refine State.edgeArrival_keeps hP (hA.mono (by decide)) ?_

theorem execComparatorTransition_keeps (hP : Keeps A P) (hA : Sub 0x20000000080c3e9 A) {k : Fin 96} {s : State} {post : State} (hs : P s) (h : execComparatorTransition k s = .next post) : P post := by
  refine keeps_next h ?_
  repeat' first
    | with_reducible assumption
    | with_reducible refine State.otherTransition_keeps hP (hA.mono (by decide)) ?_

theorem execStuckExpiry_keeps (hP : Keeps A P) (hA : Sub 0x1a00a2781c9b47ef A) {k : Fin 96} {s : State} {post : State} (hs : P s) (h : execStuckExpiry k s = .next post) : P post := by
  refine keeps_next h ?_
  repeat' first
    | with_reducible assumption
    | with_reducible refine State.settle_keeps hP (hA.mono (by decide)) ?_
    | with_reducible refine State.settlePage_keeps hP (hA.mono (by decide)) ?_
    | with_reducible refine State.stuckExpire_keeps hP (hA.mono (by decide)) ?_

theorem execInputWrite_keeps (hP : Keeps A P) (hA : Sub 0x1b28f27dbf9bcfff A) {k : Fin 96} {v : Dword} {level : Bool} {level2 : Bool} {s : State} {post : State} (hs : P s) (h : execInputWrite k v level level2 s = .next post) : P post := by
  refine keeps_next h ?_
  repeat' first
    | with_reducible assumption
    | with_reducible refine State.hostAccess_keeps hP (hA.mono (by decide)) ?_ (fun _ _ => ?_)
    | with_reducible refine State.pageWrite_other hP (hA.mono (by decide)) (by decide) ?_

theorem execConverterRelease_keeps (hP : Keeps A P) (hA : Sub 0x4001 A) {k : Fin 96} {j : Fin 17} {s : State} {post : State} (hs : P s) (h : execConverterRelease k j s = .next post) : P post := by
  refine keeps_next h ?_
  repeat' first
    | with_reducible assumption
    | with_reducible refine State.releaseConv_keeps hP (hA.mono (by decide)) ?_

theorem execGapLimit_keeps (hP : Keeps A P) (hA : Sub 0x4001 A) {k : Fin 96} {s : State} {post : State} (hs : P s) (h : execGapLimit k s = .next post) : P post := by
  refine keeps_next h ?_
  repeat' first
    | with_reducible assumption
    | with_reducible refine State.gapLimit_keeps hP (hA.mono (by decide)) ?_

theorem execPoolEmit_keeps (hP : Keeps A P) (hA : Sub 0x1a00a2781c9bc7ef A) {k : Fin 96} {s : State} {post : State} (hs : P s) (h : execPoolEmit k s = .next post) : P post := by
  refine keeps_next h ?_
  repeat' first
    | with_reducible assumption
    | with_reducible refine State.settle_keeps hP (hA.mono (by decide)) ?_
    | with_reducible refine State.poolEmit_keeps hP (hA.mono (by decide)) ?_

theorem execFifoOvfClose_keeps (hP : Keeps A P) (hA : Sub 0x2000000008103e9 A) {g : Fin 64} {i : Fin 12} {s : State} {post : State} (hs : P s) (h : execFifoOvfClose g i s = .next post) : P post := by
  refine keeps_next h ?_
  repeat' first
    | with_reducible assumption
    | with_reducible refine State.ovfClose_keeps hP (hA.mono (by decide)) ?_

theorem execCountGateResult_keeps (hP : Keeps A P) (hA : Sub 0x200008041c5 A) {k : Fin 96} {s : State} {post : State} (hs : P s) (h : execCountGateResult k s = .next post) : P post := by
  refine keeps_next h ?_
  repeat' first
    | with_reducible assumption
    | with_reducible refine State.countResult_keeps hP (hA.mono (by decide)) ?_

theorem execStuckGridResult_keeps (hP : Keeps A P) (hA : Sub 0x200008041c5 A) {k : Fin 96} {s : State} {post : State} (hs : P s) (h : execStuckGridResult k s = .next post) : P post := by
  refine keeps_next h ?_
  repeat' first
    | with_reducible assumption
    | with_reducible refine State.stuckGrid_keeps hP (hA.mono (by decide)) ?_

theorem execGraceExpiry_keeps (hP : Keeps A P) (hA : Sub 0xa000200008047ed A) {k : Fin 96} {s : State} {post : State} (hs : P s) (h : execGraceExpiry k s = .next post) : P post := by
  refine keeps_next h ?_
  repeat' first
    | with_reducible assumption
    | with_reducible refine State.graceExpire_keeps hP (hA.mono (by decide)) ?_

theorem execNurseDutyEnd_keeps (hP : Keeps A P) (hA : Sub 0x2000000008043e9 A) {k : Fin 96} {d : Duty} {s : State} {post : State} (hs : P s) (h : execNurseDutyEnd k d s = .next post) : P post := by
  refine keeps_next h ?_
  repeat' first
    | with_reducible assumption
    | with_reducible refine State.dutyEnd_keeps hP (hA.mono (by decide)) ?_

theorem execNurseSwap_keeps (hP : Keeps A P) (hA : Sub 0x4001 A) {k : Fin 96} {s : State} {post : State} (hs : P s) (h : execNurseSwap k s = .next post) : P post := by
  refine keeps_next h ?_
  repeat' first
    | with_reducible assumption
    | with_reducible refine State.swap_keeps hP (hA.mono (by decide)) ?_

theorem execNurseReassign_keeps (hP : Keeps A P) (hA : Sub 0x4001 A) {k : Fin 96} {s : State} {post : State} (hs : P s) (h : execNurseReassign k s = .next post) : P post := by
  refine keeps_next h ?_
  repeat' first
    | with_reducible assumption
    | with_reducible refine State.reassign_keeps hP (hA.mono (by decide)) ?_

theorem execInitialCalDone_keeps (hP : Keeps A P) (hA : Sub 0x2000004008043eb A) {failed : List (Fin 96 × BitVec 17)} {tables : List (Fin 96 × Fin 17 × CalTable)} {s : State} {post : State} (hs : P s) (h : execInitialCalDone failed tables s = .next post) : P post := by
  refine keeps_next h ?_
  repeat' first
    | with_reducible assumption
    | with_reducible refine State.initialCalDone_keeps hP (hA.mono (by decide)) ?_

theorem execPoolRecal_keeps (hP : Keeps A P) (hA : Sub 0x1b28f27dbf9bcfff A) {k : Fin 96} {v : Dword} {s : State} {post : State} (hs : P s) (h : execPoolRecal k v s = .next post) : P post := by
  refine keeps_next h ?_
  repeat' first
    | with_reducible assumption
    | with_reducible refine State.hostAccess_keeps hP (hA.mono (by decide)) ?_ (fun _ _ => ?_)
    | with_reducible refine State.pageWrite_other hP (hA.mono (by decide)) (by decide) ?_

theorem execRecalDone_keeps (hP : Keeps A P) (hA : Sub 0x2000000008043e9 A) {k : Fin 96} {failed : BitVec 17} {tables : List (Fin 96 × Fin 17 × CalTable)} {s : State} {post : State} (hs : P s) (h : execRecalDone k failed tables s = .next post) : P post := by
  refine keeps_next h ?_
  repeat' first
    | with_reducible assumption
    | with_reducible refine State.recalDone_keeps hP (hA.mono (by decide)) ?_

theorem execReadyCheckDone_keeps (hP : Keeps A P) (hA : Sub 0x2000000008043e9 A) {failed : List (Fin 96 × BitVec 17)} {s : State} {post : State} (hs : P s) (h : execReadyCheckDone failed s = .next post) : P post := by
  refine keeps_next h ?_
  repeat' first
    | with_reducible assumption
    | with_reducible refine State.readyChecked_keeps hP (hA.mono (by decide)) ?_

theorem execChPageCtrlWrite_keeps (hP : Keeps A P) (hA : Sub 0x1b28f27dbf9bcfff A) {k : Fin 96} {run : Bool} {level : Bool} {s : State} {post : State} (hs : P s) (h : execChPageCtrlWrite k run level s = .next post) : P post := by
  refine keeps_next h ?_
  repeat' first
    | with_reducible assumption
    | with_reducible refine State.hostAccess_keeps hP (hA.mono (by decide)) ?_ (fun _ _ => ?_)
    | with_reducible refine State.pageWrite_other hP (hA.mono (by decide)) (by decide) ?_

theorem execNop_keeps (hP : Keeps A P) (hA : Sub 0x2000010049b07e9 A) {c : Fin 1024} {s : State} {post : State} (hs : P s) (h : execNop c s = .next post) : P post := by
  refine keeps_next h ?_
  repeat' first
    | with_reducible assumption
    | with_reducible refine State.cellRun_keeps hP (hA.mono (by decide)) ?_ (fun _ _ _ _ => ?_)

theorem execOpenSlot_keeps (hP : Keeps A P) (hA : Sub 0x2000010049b07e9 A) {c : Fin 1024} {s : State} {post : State} (hs : P s) (h : execOpenSlot c s = .next post) : P post := by
  refine keeps_next h ?_
  repeat' first
    | with_reducible assumption
    | with_reducible refine State.cellRun_keeps hP (hA.mono (by decide)) ?_ (fun _ _ _ _ => ?_)

theorem execLogicOp_keeps (hP : Keeps A P) (hA : Sub 0x2000010049b07e9 A) {c : Fin 1024} {s : State} {post : State} (hs : P s) (h : execLogicOp c s = .next post) : P post := by
  refine keeps_next h ?_
  repeat' first
    | with_reducible assumption
    | with_reducible refine State.cellAlu_keeps hP (hA.mono (by decide)) ?_

theorem execAdd_keeps (hP : Keeps A P) (hA : Sub 0x2000010049b07e9 A) {c : Fin 1024} {s : State} {post : State} (hs : P s) (h : execAdd c s = .next post) : P post := by
  refine keeps_next h ?_
  repeat' first
    | with_reducible assumption
    | with_reducible refine State.cellAlu_keeps hP (hA.mono (by decide)) ?_

theorem execSubW_keeps (hP : Keeps A P) (hA : Sub 0x2000010049b07e9 A) {c : Fin 1024} {s : State} {post : State} (hs : P s) (h : execSubW c s = .next post) : P post := by
  refine keeps_next h ?_
  repeat' first
    | with_reducible assumption
    | with_reducible refine State.cellAlu_keeps hP (hA.mono (by decide)) ?_

theorem execMov_keeps (hP : Keeps A P) (hA : Sub 0x2000010049b07e9 A) {c : Fin 1024} {s : State} {post : State} (hs : P s) (h : execMov c s = .next post) : P post := by
  refine keeps_next h ?_
  repeat' first
    | with_reducible assumption
    | with_reducible refine State.cellAlu_keeps hP (hA.mono (by decide)) ?_

theorem execShl_keeps (hP : Keeps A P) (hA : Sub 0x2000010049b07e9 A) {c : Fin 1024} {s : State} {post : State} (hs : P s) (h : execShl c s = .next post) : P post := by
  refine keeps_next h ?_
  repeat' first
    | with_reducible assumption
    | with_reducible refine State.cellAlu_keeps hP (hA.mono (by decide)) ?_

theorem execShr_keeps (hP : Keeps A P) (hA : Sub 0x2000010049b07e9 A) {c : Fin 1024} {s : State} {post : State} (hs : P s) (h : execShr c s = .next post) : P post := by
  refine keeps_next h ?_
  repeat' first
    | with_reducible assumption
    | with_reducible refine State.cellAlu_keeps hP (hA.mono (by decide)) ?_

theorem execSar_keeps (hP : Keeps A P) (hA : Sub 0x2000010049b07e9 A) {c : Fin 1024} {s : State} {post : State} (hs : P s) (h : execSar c s = .next post) : P post := by
  refine keeps_next h ?_
  repeat' first
    | with_reducible assumption
    | with_reducible refine State.cellAlu_keeps hP (hA.mono (by decide)) ?_

theorem execMulu_keeps (hP : Keeps A P) (hA : Sub 0x1a00a2781c9b47ef A) {c : Fin 1024} {s : State} {post : State} (hs : P s) (h : execMulu c s = .next post) : P post := by
  refine keeps_next h ?_
  repeat' first
    | with_reducible assumption
    | with_reducible refine State.settle_keeps hP (hA.mono (by decide)) ?_
    | with_reducible refine State.cellAlu_keeps hP (hA.mono (by decide)) ?_

theorem execMuls_keeps (hP : Keeps A P) (hA : Sub 0x1a00a2781c9b47ef A) {c : Fin 1024} {s : State} {post : State} (hs : P s) (h : execMuls c s = .next post) : P post := by
  refine keeps_next h ?_
  repeat' first
    | with_reducible assumption
    | with_reducible refine State.settle_keeps hP (hA.mono (by decide)) ?_
    | with_reducible refine State.cellAlu_keeps hP (hA.mono (by decide)) ?_

theorem execMacu_keeps (hP : Keeps A P) (hA : Sub 0x1a00a2781c9b47ef A) {c : Fin 1024} {s : State} {post : State} (hs : P s) (h : execMacu c s = .next post) : P post := by
  refine keeps_next h ?_
  repeat' first
    | with_reducible assumption
    | with_reducible refine State.settle_keeps hP (hA.mono (by decide)) ?_
    | with_reducible refine State.cellAlu_keeps hP (hA.mono (by decide)) ?_

theorem execCmpeq_keeps (hP : Keeps A P) (hA : Sub 0x2000010049b07e9 A) {c : Fin 1024} {s : State} {post : State} (hs : P s) (h : execCmpeq c s = .next post) : P post := by
  refine keeps_next h ?_
  repeat' first
    | with_reducible assumption
    | with_reducible refine State.cellAlu_keeps hP (hA.mono (by decide)) ?_

theorem execCmpltu_keeps (hP : Keeps A P) (hA : Sub 0x2000010049b07e9 A) {c : Fin 1024} {s : State} {post : State} (hs : P s) (h : execCmpltu c s = .next post) : P post := by
  refine keeps_next h ?_
  repeat' first
    | with_reducible assumption
    | with_reducible refine State.cellAlu_keeps hP (hA.mono (by decide)) ?_

theorem execCmplts_keeps (hP : Keeps A P) (hA : Sub 0x2000010049b07e9 A) {c : Fin 1024} {s : State} {post : State} (hs : P s) (h : execCmplts c s = .next post) : P post := by
  refine keeps_next h ?_
  repeat' first
    | with_reducible assumption
    | with_reducible refine State.cellAlu_keeps hP (hA.mono (by decide)) ?_

theorem execClz_keeps (hP : Keeps A P) (hA : Sub 0x2000010049b07e9 A) {c : Fin 1024} {s : State} {post : State} (hs : P s) (h : execClz c s = .next post) : P post := by
  refine keeps_next h ?_
  repeat' first
    | with_reducible assumption
    | with_reducible refine State.cellAlu_keeps hP (hA.mono (by decide)) ?_

theorem execDstep_keeps (hP : Keeps A P) (hA : Sub 0x2000010049b07e9 A) {c : Fin 1024} {s : State} {post : State} (hs : P s) (h : execDstep c s = .next post) : P post := by
  refine keeps_next h ?_
  repeat' first
    | with_reducible assumption
    | with_reducible refine State.cellAlu_keeps hP (hA.mono (by decide)) ?_

theorem execPtst_keeps (hP : Keeps A P) (hA : Sub 0x2000010049b07e9 A) {c : Fin 1024} {s : State} {post : State} (hs : P s) (h : execPtst c s = .next post) : P post := by
  refine keeps_next h ?_
  repeat' first
    | with_reducible assumption
    | with_reducible refine State.cellAlu_keeps hP (hA.mono (by decide)) ?_

theorem execPget_keeps (hP : Keeps A P) (hA : Sub 0x2000010049b07e9 A) {c : Fin 1024} {s : State} {post : State} (hs : P s) (h : execPget c s = .next post) : P post := by
  refine keeps_next h ?_
  repeat' first
    | with_reducible assumption
    | with_reducible refine State.cellAlu_keeps hP (hA.mono (by decide)) ?_

theorem execPput_keeps (hP : Keeps A P) (hA : Sub 0x2000010049b07e9 A) {c : Fin 1024} {s : State} {post : State} (hs : P s) (h : execPput c s = .next post) : P post := by
  refine keeps_next h ?_
  repeat' first
    | with_reducible assumption
    | with_reducible refine State.cellAlu_keeps hP (hA.mono (by decide)) ?_

theorem execRdc_keeps (hP : Keeps A P) (hA : Sub 0x2000010049b07e9 A) {c : Fin 1024} {s : State} {post : State} (hs : P s) (h : execRdc c s = .next post) : P post := by
  refine keeps_next h ?_
  repeat' first
    | with_reducible assumption
    | with_reducible refine State.cellAlu_keeps hP (hA.mono (by decide)) ?_

theorem execWrc_keeps (hP : Keeps A P) (hA : Sub 0x2000010049b07e9 A) {c : Fin 1024} {s : State} {post : State} (hs : P s) (h : execWrc c s = .next post) : P post := by
  refine keeps_next h ?_
  repeat' first
    | with_reducible assumption
    | with_reducible refine State.cellAlu_keeps hP (hA.mono (by decide)) ?_

theorem execLdi_keeps (hP : Keeps A P) (hA : Sub 0x2000010049b07e9 A) {c : Fin 1024} {s : State} {post : State} (hs : P s) (h : execLdi c s = .next post) : P post := by
  refine keeps_next h ?_
  repeat' first
    | with_reducible assumption
    | with_reducible refine State.cellAlu_keeps hP (hA.mono (by decide)) ?_

theorem execAddi_keeps (hP : Keeps A P) (hA : Sub 0x2000010049b07e9 A) {c : Fin 1024} {s : State} {post : State} (hs : P s) (h : execAddi c s = .next post) : P post := by
  refine keeps_next h ?_
  repeat' first
    | with_reducible assumption
    | with_reducible refine State.cellAlu_keeps hP (hA.mono (by decide)) ?_

theorem execAdci_keeps (hP : Keeps A P) (hA : Sub 0x2000010049b07e9 A) {c : Fin 1024} {s : State} {post : State} (hs : P s) (h : execAdci c s = .next post) : P post := by
  refine keeps_next h ?_
  repeat' first
    | with_reducible assumption
    | with_reducible refine State.cellAlu_keeps hP (hA.mono (by decide)) ?_

theorem execAndi_keeps (hP : Keeps A P) (hA : Sub 0x2000010049b07e9 A) {c : Fin 1024} {s : State} {post : State} (hs : P s) (h : execAndi c s = .next post) : P post := by
  refine keeps_next h ?_
  repeat' first
    | with_reducible assumption
    | with_reducible refine State.cellAlu_keeps hP (hA.mono (by decide)) ?_

theorem execOri_keeps (hP : Keeps A P) (hA : Sub 0x2000010049b07e9 A) {c : Fin 1024} {s : State} {post : State} (hs : P s) (h : execOri c s = .next post) : P post := by
  refine keeps_next h ?_
  repeat' first
    | with_reducible assumption
    | with_reducible refine State.cellAlu_keeps hP (hA.mono (by decide)) ?_

theorem execXori_keeps (hP : Keeps A P) (hA : Sub 0x2000010049b07e9 A) {c : Fin 1024} {s : State} {post : State} (hs : P s) (h : execXori c s = .next post) : P post := by
  refine keeps_next h ?_
  repeat' first
    | with_reducible assumption
    | with_reducible refine State.cellAlu_keeps hP (hA.mono (by decide)) ?_

theorem execTakePop_keeps (hP : Keeps A P) (hA : Sub 0x1a00a2f81c9b47ef A) {c : Fin 1024} {s : State} {post : State} (hs : P s) (h : execTakePop c s = .next post) : P post := by
  refine keeps_next h ?_
  repeat' first
    | with_reducible assumption
    | with_reducible refine State.settle_keeps hP (hA.mono (by decide)) ?_
    | with_reducible refine State.cellTake_keeps hP (hA.mono (by decide)) ?_

theorem execTakeCopy_keeps (hP : Keeps A P) (hA : Sub 0x1a00a2f81c9b47ef A) {c : Fin 1024} {s : State} {post : State} (hs : P s) (h : execTakeCopy c s = .next post) : P post := by
  refine keeps_next h ?_
  repeat' first
    | with_reducible assumption
    | with_reducible refine State.settle_keeps hP (hA.mono (by decide)) ?_
    | with_reducible refine State.cellTake_keeps hP (hA.mono (by decide)) ?_

theorem execTakeDiscard_keeps (hP : Keeps A P) (hA : Sub 0x1a00a2f81c9b47ef A) {c : Fin 1024} {s : State} {post : State} (hs : P s) (h : execTakeDiscard c s = .next post) : P post := by
  refine keeps_next h ?_
  repeat' first
    | with_reducible assumption
    | with_reducible refine State.settle_keeps hP (hA.mono (by decide)) ?_
    | with_reducible refine State.cellTake_keeps hP (hA.mono (by decide)) ?_

theorem execPutRec_keeps (hP : Keeps A P) (hA : Sub 0x1a00a2f81c9b47ef A) {c : Fin 1024} {s : State} {post : State} (hs : P s) (h : execPutRec c s = .next post) : P post := by
  refine keeps_next h ?_
  repeat' first
    | with_reducible assumption
    | with_reducible refine State.settle_keeps hP (hA.mono (by decide)) ?_
    | with_reducible refine State.cellPut_keeps hP (hA.mono (by decide)) ?_

theorem execTld_keeps (hP : Keeps A P) (hA : Sub 0x1a00a2781c9b47ef A) {c : Fin 1024} {s : State} {post : State} (hs : P s) (h : execTld c s = .next post) : P post := by
  refine keeps_next h ?_
  repeat' first
    | with_reducible assumption
    | with_reducible refine State.settle_keeps hP (hA.mono (by decide)) ?_
    | with_reducible refine State.cellTimer_keeps hP (hA.mono (by decide)) ?_

theorem execTgo_keeps (hP : Keeps A P) (hA : Sub 0x1a00a2781c9b47ef A) {c : Fin 1024} {s : State} {post : State} (hs : P s) (h : execTgo c s = .next post) : P post := by
  refine keeps_next h ?_
  repeat' first
    | with_reducible assumption
    | with_reducible refine State.settle_keeps hP (hA.mono (by decide)) ?_
    | with_reducible refine State.cellTimer_keeps hP (hA.mono (by decide)) ?_

theorem execThlt_keeps (hP : Keeps A P) (hA : Sub 0x1a00a2781c9b47ef A) {c : Fin 1024} {s : State} {post : State} (hs : P s) (h : execThlt c s = .next post) : P post := by
  refine keeps_next h ?_
  repeat' first
    | with_reducible assumption
    | with_reducible refine State.settle_keeps hP (hA.mono (by decide)) ?_
    | with_reducible refine State.cellTimer_keeps hP (hA.mono (by decide)) ?_

theorem execTrd_keeps (hP : Keeps A P) (hA : Sub 0x1a00a2781c9b47ef A) {c : Fin 1024} {s : State} {post : State} (hs : P s) (h : execTrd c s = .next post) : P post := by
  refine keeps_next h ?_
  repeat' first
    | with_reducible assumption
    | with_reducible refine State.settle_keeps hP (hA.mono (by decide)) ?_
    | with_reducible refine State.cellTimer_keeps hP (hA.mono (by decide)) ?_

theorem execTadd_keeps (hP : Keeps A P) (hA : Sub 0x1a00a2781c9b47ef A) {c : Fin 1024} {s : State} {post : State} (hs : P s) (h : execTadd c s = .next post) : P post := by
  refine keeps_next h ?_
  repeat' first
    | with_reducible assumption
    | with_reducible refine State.settle_keeps hP (hA.mono (by decide)) ?_
    | with_reducible refine State.cellTimer_keeps hP (hA.mono (by decide)) ?_

theorem execTsub_keeps (hP : Keeps A P) (hA : Sub 0x1a00a2781c9b47ef A) {c : Fin 1024} {s : State} {post : State} (hs : P s) (h : execTsub c s = .next post) : P post := by
  refine keeps_next h ?_
  repeat' first
    | with_reducible assumption
    | with_reducible refine State.settle_keeps hP (hA.mono (by decide)) ?_
    | with_reducible refine State.cellTimer_keeps hP (hA.mono (by decide)) ?_

theorem execTz_keeps (hP : Keeps A P) (hA : Sub 0x1a00a2781c9b47ef A) {c : Fin 1024} {s : State} {post : State} (hs : P s) (h : execTz c s = .next post) : P post := by
  refine keeps_next h ?_
  repeat' first
    | with_reducible assumption
    | with_reducible refine State.settle_keeps hP (hA.mono (by decide)) ?_
    | with_reducible refine State.cellTimer_keeps hP (hA.mono (by decide)) ?_

theorem execTge_keeps (hP : Keeps A P) (hA : Sub 0x1a00a2781c9b47ef A) {c : Fin 1024} {s : State} {post : State} (hs : P s) (h : execTge c s = .next post) : P post := by
  refine keeps_next h ?_
  repeat' first
    | with_reducible assumption
    | with_reducible refine State.settle_keeps hP (hA.mono (by decide)) ?_
    | with_reducible refine State.cellTimer_keeps hP (hA.mono (by decide)) ?_

theorem execTclr_keeps (hP : Keeps A P) (hA : Sub 0x1a00a2781c9b47ef A) {c : Fin 1024} {s : State} {post : State} (hs : P s) (h : execTclr c s = .next post) : P post := by
  refine keeps_next h ?_
  repeat' first
    | with_reducible assumption
    | with_reducible refine State.settle_keeps hP (hA.mono (by decide)) ?_
    | with_reducible refine State.cellTimer_keeps hP (hA.mono (by decide)) ?_

theorem execTldgo_keeps (hP : Keeps A P) (hA : Sub 0x1a00a2781c9b47ef A) {c : Fin 1024} {s : State} {post : State} (hs : P s) (h : execTldgo c s = .next post) : P post := by
  refine keeps_next h ?_
  repeat' first
    | with_reducible assumption
    | with_reducible refine State.settle_keeps hP (hA.mono (by decide)) ?_
    | with_reducible refine State.cellTimer_keeps hP (hA.mono (by decide)) ?_

theorem execTimerExpire_keeps (hP : Keeps A P) (hA : Sub 0x20000 A) {c : Fin 1024} {u : Fin 2} {s : State} {post : State} (hs : P s) (h : execTimerExpire c u s = .next post) : P post := by
  refine keeps_next h ?_
  repeat' first
    | with_reducible assumption
    | with_reducible refine State.timerExpire_keeps hP (hA.mono (by decide)) ?_

theorem execResultLand_keeps (hP : Keeps A P) (hA : Sub 0x20000 A) {c : Fin 1024} {s : State} {post : State} (hs : P s) (h : execResultLand c s = .next post) : P post := by
  refine keeps_next h ?_
  repeat' first
    | with_reducible assumption
    | with_reducible refine State.resultLand_keeps hP (hA.mono (by decide)) ?_

theorem execNrd_keeps (hP : Keeps A P) (hA : Sub 0x2000010049b07e9 A) {c : Fin 1024} {s : State} {post : State} (hs : P s) (h : execNrd c s = .next post) : P post := by
  refine keeps_next h ?_
  repeat' first
    | with_reducible assumption
    | with_reducible refine State.cellNrd_keeps hP (hA.mono (by decide)) ?_

theorem execRsnd_keeps (hP : Keeps A P) (hA : Sub 0x1a00a2781c9b47ef A) {c : Fin 1024} {s : State} {post : State} (hs : P s) (h : execRsnd c s = .next post) : P post := by
  refine keeps_next h ?_
  repeat' first
    | with_reducible assumption
    | with_reducible refine State.settle_keeps hP (hA.mono (by decide)) ?_
    | with_reducible refine State.cellSend_keeps hP (hA.mono (by decide)) ?_

theorem execRrcv_keeps (hP : Keeps A P) (hA : Sub 0x2000050049b07e9 A) {c : Fin 1024} {s : State} {post : State} (hs : P s) (h : execRrcv c s = .next post) : P post := by
  refine keeps_next h ?_
  repeat' first
    | with_reducible assumption
    | with_reducible refine State.cellRecv_keeps hP (hA.mono (by decide)) ?_

theorem execCsnd_keeps (hP : Keeps A P) (hA : Sub 0x1a00a2781c9b47ef A) {c : Fin 1024} {s : State} {post : State} (hs : P s) (h : execCsnd c s = .next post) : P post := by
  refine keeps_next h ?_
  repeat' first
    | with_reducible assumption
    | with_reducible refine State.settle_keeps hP (hA.mono (by decide)) ?_
    | with_reducible refine State.cellSend_keeps hP (hA.mono (by decide)) ?_

theorem execCrcv_keeps (hP : Keeps A P) (hA : Sub 0x2000050049b07e9 A) {c : Fin 1024} {s : State} {post : State} (hs : P s) (h : execCrcv c s = .next post) : P post := by
  refine keeps_next h ?_
  repeat' first
    | with_reducible assumption
    | with_reducible refine State.cellRecv_keeps hP (hA.mono (by decide)) ?_

theorem execExchangeDeliver_keeps (hP : Keeps A P) (hA : Sub 0x4000100000 A) {id : Fin 640} {s : State} {post : State} (hs : P s) (h : execExchangeDeliver id s = .next post) : P post := by
  refine keeps_next h ?_
  repeat' first
    | with_reducible assumption
    | with_reducible refine State.deliverX_keeps hP (hA.mono (by decide)) ?_

theorem execSld_keeps (hP : Keeps A P) (hA : Sub 0x1a00a2f81cbb47ef A) {c : Fin 1024} {upset : Bool} {s : State} {post : State} (hs : P s) (h : execSld c upset s = .next post) : P post := by
  refine keeps_next h ?_
  repeat' first
    | with_reducible assumption
    | with_reducible refine State.settle_keeps hP (hA.mono (by decide)) ?_
    | with_reducible refine State.cellSld_keeps hP (hA.mono (by decide)) ?_

theorem execSst_keeps (hP : Keeps A P) (hA : Sub 0x1a00a2f81cbb47ef A) {c : Fin 1024} {s : State} {post : State} (hs : P s) (h : execSst c s = .next post) : P post := by
  refine keeps_next h ?_
  repeat' first
    | with_reducible assumption
    | with_reducible refine State.settle_keeps hP (hA.mono (by decide)) ?_
    | with_reducible refine State.cellSst_keeps hP (hA.mono (by decide)) ?_

theorem execXin_keeps (hP : Keeps A P) (hA : Sub 0x2000010049b07e9 A) {c : Fin 1024} {s : State} {post : State} (hs : P s) (h : execXin c s = .next post) : P post := by
  refine keeps_next h ?_
  repeat' first
    | with_reducible assumption
    | with_reducible refine State.cellXin_keeps hP (hA.mono (by decide)) ?_

theorem execEvt_keeps (hP : Keeps A P) (hA : Sub 0x1a00b2f81d9b47ef A) {c : Fin 1024} {s : State} {post : State} (hs : P s) (h : execEvt c s = .next post) : P post := by
  refine keeps_next h ?_
  repeat' first
    | with_reducible assumption
    | with_reducible refine State.settle_keeps hP (hA.mono (by decide)) ?_
    | with_reducible refine State.cellEvt_keeps hP (hA.mono (by decide)) ?_

theorem execBxfer_keeps (hP : Keeps A P) (hA : Sub 0x200001004db07e9 A) {c : Fin 1024} {s : State} {post : State} (hs : P s) (h : execBxfer c s = .next post) : P post := by
  refine keeps_next h ?_
  repeat' first
    | with_reducible assumption
    | with_reducible refine State.cellBxfer_keeps hP (hA.mono (by decide)) ?_

theorem execBtst_keeps (hP : Keeps A P) (hA : Sub 0x2000010049b07e9 A) {c : Fin 1024} {s : State} {post : State} (hs : P s) (h : execBtst c s = .next post) : P post := by
  refine keeps_next h ?_
  repeat' first
    | with_reducible assumption
    | with_reducible refine State.cellBtst_keeps hP (hA.mono (by decide)) ?_

theorem execBxferLine_keeps (hP : Keeps A P) (hA : Sub 0x1b60a2781cfb77ff A) {g : Fin 64} {s : State} {post : State} (hs : P s) (h : execBxferLine g s = .next post) : P post := by
  refine keeps_next h ?_
  repeat' first
    | with_reducible assumption
    | with_reducible refine State.ask_keeps hP (hA.mono (by decide)) ?_

theorem execInstructionParityError_keeps (hP : Keeps A P) (hA : Sub 0x2000000009603eb A) {c : Fin 1024} {s : State} {post : State} (hs : P s) (h : execInstructionParityError c s = .next post) : P post := by
  refine keeps_next h ?_
  repeat' first
    | with_reducible assumption
    | with_reducible refine State.cellParity_keeps hP (hA.mono (by decide)) ?_

theorem execIllegal_keeps (hP : Keeps A P) (hA : Sub 0x1a00a2781c9b47ef A) {c : Fin 1024} {s : State} {post : State} (hs : P s) (h : execIllegal c s = .next post) : P post := by
  refine keeps_next h ?_
  repeat' first
    | with_reducible assumption
    | with_reducible refine State.settle_keeps hP (hA.mono (by decide)) ?_
    | with_reducible refine State.cellIllegal_keeps hP (hA.mono (by decide)) ?_

theorem execDebugGo_keeps (hP : Keeps A P) (hA : Sub 0x1b28f27dbf9bcfff A) {n : Fin 8} {patchEn : Bool} {s : State} {post : State} (hs : P s) (h : execDebugGo n patchEn s = .next post) : P post := by
  refine keeps_next h ?_
  repeat' first
    | with_reducible assumption
    | with_reducible refine State.hostAccess_keeps hP (hA.mono (by decide)) ?_ (fun _ _ => ?_)
    | with_reducible refine State.pageWrite_other hP (hA.mono (by decide)) (by decide) ?_

theorem execDebugAccess_keeps (hP : Keeps A P) (hA : Sub 0x200000000020029 A) {n : Fin 8} {s : State} {post : State} (hs : P s) (h : execDebugAccess n s = .next post) : P post := by
  refine keeps_next h ?_
  repeat' first
    | with_reducible assumption
    | with_reducible refine State.dbgAccess_keeps hP (hA.mono (by decide)) ?_

theorem execScratchWindowAccess_keeps (hP : Keeps A P) (hA : Sub 0x21000a000b203eb A) {g : Fin 64} {w : Fin 4096} {wr : Option Dword} {s : State} {post : State} (hs : P s) (h : execScratchWindowAccess g w wr s = .next post) : P post := by
  refine keeps_next h ?_
  repeat' first
    | with_reducible assumption
    | with_reducible refine State.hostAccess_keeps hP (hA.mono (by decide)) ?_ (fun _ _ => ?_)
    | with_reducible refine State.scratchAccess_keeps hP (hA.mono (by decide)) ?_

theorem execImemLoWrite_keeps (hP : Keeps A P) (hA : Sub 0x20000 A) {c : Fin 1024} {v : Dword} {s : State} {post : State} (hs : P s) (h : execImemLoWrite c v s = .next post) : P post := by
  refine keeps_next h ?_
  repeat' first
    | with_reducible assumption
    | with_reducible refine State.hostAccess_keeps hP (hA.mono (by decide)) ?_ (fun _ _ => ?_)
    | with_reducible refine State.imemLo_keeps hP (hA.mono (by decide)) ?_

theorem execImemHiCommit_keeps (hP : Keeps A P) (hA : Sub 0x20000000006002b A) {c : Fin 1024} {a : Fin 512} {v : Dword} {s : State} {post : State} (hs : P s) (h : execImemHiCommit c a v s = .next post) : P post := by
  refine keeps_next h ?_
  repeat' first
    | with_reducible assumption
    | with_reducible refine State.hostAccess_keeps hP (hA.mono (by decide)) ?_ (fun _ _ => ?_)
    | with_reducible refine State.imemHi_keeps hP (hA.mono (by decide)) ?_

theorem execPatchCommit_keeps (hP : Keeps A P) (hA : Sub 0x2000000008603e9 A) {c : Fin 1024} {s : State} {post : State} (hs : P s) (h : execPatchCommit c s = .next post) : P post := by
  refine keeps_next h ?_
  repeat' first
    | with_reducible assumption
    | with_reducible refine State.patchCommit_keeps hP (hA.mono (by decide)) ?_

theorem execTriggerDeliver_keeps (hP : Keeps A P) (hA : Sub 0x1a00b2781d9b47ef A) {s : State} {post : State} (hs : P s) (h : execTriggerDeliver s = .next post) : P post := by
  refine keeps_next h ?_
  repeat' first
    | with_reducible assumption
    | with_reducible refine State.settle_keeps hP (hA.mono (by decide)) ?_
    | with_reducible refine State.triggerDeliver_keeps hP (hA.mono (by decide)) ?_

theorem execTrigOutEnd_keeps (hP : Keeps A P) (hA : Sub 0x100000000000 A) {s : State} {post : State} (hs : P s) (h : execTrigOutEnd s = .next post) : P post := by
  refine keeps_next h ?_
  repeat' first
    | with_reducible assumption
    | with_reducible refine State.pulseEnd_keeps hP (hA.mono (by decide)) ?_

theorem execTrigInEdge_keeps (hP : Keeps A P) (hA : Sub 0x80000000000 A) {rising : Bool} {fine : BitVec 10} {s : State} {post : State} (hs : P s) (h : execTrigInEdge rising fine s = .next post) : P post := by
  refine keeps_next h ?_
  repeat' first
    | with_reducible assumption
    | with_reducible refine State.trigInEdge_keeps hP (hA.mono (by decide)) ?_

theorem execTrigInEmit_keeps (hP : Keeps A P) (hA : Sub 0x1a00aa781d9b47ef A) {s : State} {post : State} (hs : P s) (h : execTrigInEmit s = .next post) : P post := by
  refine keeps_next h ?_
  repeat' first
    | with_reducible assumption
    | with_reducible refine State.settle_keeps hP (hA.mono (by decide)) ?_
    | with_reducible refine State.trigInEmit_keeps hP (hA.mono (by decide)) ?_

theorem execStepFrame_keeps (hP : Keeps A P) (hA : Sub 0x2004000008001ed A) {start : DTime} {lanes : List (List StepChar)} {s : State} {post : State} (hs : P s) (h : execStepFrame start lanes s = .next post) : P post := by
  refine keeps_next h ?_
  repeat' first
    | with_reducible assumption
    | with_reducible refine State.stepFrame_keeps hP (hA.mono (by decide)) ?_

theorem execEslAlignLost_keeps (hP : Keeps A P) (hA : Sub 0x2004000008003e9 A) {on : Option (BitVec 4)} {locked : BitVec 4} {estep : Bool} {s : State} {post : State} (hs : P s) (h : execEslAlignLost on locked estep s = .next post) : P post := by
  refine keeps_next h ?_
  repeat' first
    | with_reducible assumption
    | with_reducible refine State.alignLost_keeps hP (hA.mono (by decide)) ?_

theorem execEslAlignChar_keeps (hP : Keeps A P) (hA : Sub 0x2004000008003e9 A) {estep : Bool} {s : State} {post : State} (hs : P s) (h : execEslAlignChar estep s = .next post) : P post := by
  refine keeps_next h ?_
  repeat' first
    | with_reducible assumption
    | with_reducible refine State.alignChar_keeps hP (hA.mono (by decide)) ?_

theorem execEslCtrlWrite_keeps (hP : Keeps A P) (hA : Sub 0x1b28f27dbf9bcfff A) {skew : Bool} {v : Dword} {s : State} {post : State} (hs : P s) (h : execEslCtrlWrite skew v s = .next post) : P post := by
  refine keeps_next h ?_
  repeat' first
    | with_reducible assumption
    | with_reducible refine State.hostAccess_keeps hP (hA.mono (by decide)) ?_ (fun _ _ => ?_)
    | with_reducible refine State.pageWrite_other hP (hA.mono (by decide)) (by decide) ?_

theorem execCapCtrlWrite_keeps (hP : Keeps A P) (hA : Sub 0x1b28f27dbf9bcfff A) {n : Fin 8} {v : Dword} {s : State} {post : State} (hs : P s) (h : execCapCtrlWrite n v s = .next post) : P post := by
  refine keeps_next h ?_
  repeat' first
    | with_reducible assumption
    | with_reducible refine State.hostAccess_keeps hP (hA.mono (by decide)) ?_ (fun _ _ => ?_)
    | with_reducible refine State.pageWrite_other hP (hA.mono (by decide)) (by decide) ?_

theorem execWriterLineWrite_keeps (hP : Keeps A P) (hA : Sub 0x1b60a2781cfb77ff A) {i : Fin 16} {s : State} {post : State} (hs : P s) (h : execWriterLineWrite i s = .next post) : P post := by
  refine keeps_next h ?_
  repeat' first
    | with_reducible assumption
    | with_reducible refine State.ask_keeps hP (hA.mono (by decide)) ?_

theorem execPadTimeout_keeps (hP : Keeps A P) (hA : Sub 0x1b60a2781cfb77ff A) {i : Fin 16} {s : State} {post : State} (hs : P s) (h : execPadTimeout i s = .next post) : P post := by
  refine keeps_next h ?_
  repeat' first
    | with_reducible assumption
    | with_reducible refine State.ask_keeps hP (hA.mono (by decide)) ?_

theorem execStripeGroupEnter_keeps (hP : Keeps A P) (hA : Sub 0x2008000188003eb A) {i : Fin 16} {s : State} {post : State} (hs : P s) (h : execStripeGroupEnter i s = .next post) : P post := by
  refine keeps_next h ?_
  repeat' first
    | with_reducible assumption
    | with_reducible refine State.writerEnter_keeps hP (hA.mono (by decide)) ?_

theorem execOwnerWrite_keeps (hP : Keeps A P) (hA : Sub 0x1b28f27dbf9bcfff A) {b : Fin 256} {v : Dword} {s : State} {post : State} (hs : P s) (h : execOwnerWrite b v s = .next post) : P post := by
  refine keeps_next h ?_
  repeat' first
    | with_reducible assumption
    | with_reducible refine State.hostAccess_keeps hP (hA.mono (by decide)) ?_ (fun _ _ => ?_)
    | with_reducible refine State.pageWrite_other hP (hA.mono (by decide)) (by decide) ?_

theorem execHandoverDone_keeps (hP : Keeps A P) (hA : Sub 0x1b60a2781cfb77ff A) {b : Fin 256} {s : State} {post : State} (hs : P s) (h : execHandoverDone b s = .next post) : P post := by
  refine keeps_next h ?_
  repeat' first
    | with_reducible assumption
    | with_reducible refine State.serveReqs_keeps hP (hA.mono (by decide)) ?_
    | with_reducible refine State.handoverDone_keeps hP (hA.mono (by decide)) ?_

theorem execBankFill_keeps (hP : Keeps A P) (hA : Sub 0x1b28f27dbf9bcfff A) {b : Fin 256} {v : Dword} {s : State} {post : State} (hs : P s) (h : execBankFill b v s = .next post) : P post := by
  refine keeps_next h ?_
  repeat' first
    | with_reducible assumption
    | with_reducible refine State.hostAccess_keeps hP (hA.mono (by decide)) ?_ (fun _ _ => ?_)
    | with_reducible refine State.pageWrite_other hP (hA.mono (by decide)) (by decide) ?_

theorem execFillDone_keeps (hP : Keeps A P) (hA : Sub 0x1b60a2781cfb77ff A) {b : Fin 256} {s : State} {post : State} (hs : P s) (h : execFillDone b s = .next post) : P post := by
  refine keeps_next h ?_
  repeat' first
    | with_reducible assumption
    | with_reducible refine State.serveReqs_keeps hP (hA.mono (by decide)) ?_
    | with_reducible refine State.fillDone_keeps hP (hA.mono (by decide)) ?_

theorem execScrubVisit_keeps (hP : Keeps A P) (hA : Sub 0x2000000008033e9 A) {b : Fin 256} {ups : List (BitVec 14 × Bool × List (BitVec 7))} {s : State} {post : State} (hs : P s) (h : execScrubVisit b ups s = .next post) : P post := by
  refine keeps_next h ?_
  repeat' first
    | with_reducible assumption
    | with_reducible refine State.scrubBank_keeps hP (hA.mono (by decide)) ?_

theorem execScrubWriteback_keeps (hP : Keeps A P) (hA : Sub 0x2000000008033eb A) {b : Fin 256} {s : State} {post : State} (hs : P s) (h : execScrubWriteback b s = .next post) : P post := by
  refine keeps_next h ?_
  repeat' first
    | with_reducible assumption
    | with_reducible refine State.scrubWriteback_keeps hP (hA.mono (by decide)) ?_

theorem execDemote_keeps (hP : Keeps A P) (hA : Sub 0x2000000008000a9 A) {n : Fin 8} {s : State} {post : State} (hs : P s) (h : execDemote n s = .next post) : P post := by
  refine keeps_next h ?_
  repeat' first
    | with_reducible assumption
    | with_reducible refine State.demoteLowest_keeps hP (hA.mono (by decide)) ?_

theorem execRestore_keeps (hP : Keeps A P) (hA : Sub 0x2000000008000a9 A) {n : Fin 8} {s : State} {post : State} (hs : P s) (h : execRestore n s = .next post) : P post := by
  refine keeps_next h ?_
  repeat' first
    | with_reducible assumption
    | with_reducible refine State.restore_keeps hP (hA.mono (by decide)) ?_

theorem execLossRecordWrite_keeps (hP : Keeps A P) (hA : Sub 0x2000000000001e9 A) {n : Fin 8} {s : State} {post : State} (hs : P s) (h : execLossRecordWrite n s = .next post) : P post := by
  refine keeps_next h ?_
  repeat' first
    | with_reducible assumption
    | with_reducible refine State.lossWrite_keeps hP (hA.mono (by decide)) ?_

theorem execLinkTrained_keeps (hP : Keeps A P) (hA : Sub 0x2008000288007eb A) {p : Fin 4} {s : State} {post : State} (hs : P s) (h : execLinkTrained p s = .next post) : P post := by
  refine keeps_next h ?_
  repeat' first
    | with_reducible assumption
    | with_reducible refine State.linkTrained_keeps hP (hA.mono (by decide)) ?_

theorem execLinkDown_keeps (hP : Keeps A P) (hA : Sub 0x1a00a2793c9b47ef A) {p : Fin 4} {s : State} {post : State} (hs : P s) (h : execLinkDown p s = .next post) : P post := by
  refine keeps_next h ?_
  repeat' first
    | with_reducible assumption
    | with_reducible refine State.settle_keeps hP (hA.mono (by decide)) ?_
    | with_reducible refine State.settleRuns_keeps hP (hA.mono (by decide)) ?_
    | with_reducible refine State.linkDown_keeps hP (hA.mono (by decide)) ?_

theorem execHelloSend_keeps (hP : Keeps A P) (hA : Sub 0x2000000088003eb A) {p : Fin 4} {s : State} {post : State} (hs : P s) (h : execHelloSend p s = .next post) : P post := by
  refine keeps_next h ?_
  repeat' first
    | with_reducible assumption
    | with_reducible refine State.helloSend_keeps hP (hA.mono (by decide)) ?_

theorem execHelloRx_keeps (hP : Keeps A P) (hA : Sub 0x1a00a2793c9b47ef A) {p : Fin 4} {hd : Head} {h : Hello} {s : State} {post : State} (hs : P s) (h : execHelloRx p hd h s = .next post) : P post := by
  refine keeps_next h ?_
  repeat' first
    | with_reducible assumption
    | with_reducible refine State.settle_keeps hP (hA.mono (by decide)) ?_
    | with_reducible refine State.settleRuns_keeps hP (hA.mono (by decide)) ?_
    | with_reducible refine State.helloRx_keeps hP (hA.mono (by decide)) ?_

theorem execJoinRx_keeps (hP : Keeps A P) (hA : Sub 0x2008000088003eb A) {p : Fin 4} {hd : Head} {ordinal : BitVec 11} {parent : BitVec 11} {s : State} {post : State} (hs : P s) (h : execJoinRx p hd ordinal parent s = .next post) : P post := by
  refine keeps_next h ?_
  repeat' first
    | with_reducible assumption
    | with_reducible refine State.joinRx_keeps hP (hA.mono (by decide)) ?_

theorem execJoinReplyRx_keeps (hP : Keeps A P) (hA : Sub 0x2008001288007eb A) {p : Fin 4} {hd : Head} {ordinal : BitVec 11} {ok : Bool} {engaged : Bool} {s : State} {post : State} (hs : P s) (h : execJoinReplyRx p hd ordinal ok engaged s = .next post) : P post := by
  refine keeps_next h ?_
  repeat' first
    | with_reducible assumption
    | with_reducible refine State.joinReplyRx_keeps hP (hA.mono (by decide)) ?_

theorem execWaggleSend_keeps (hP : Keeps A P) (hA : Sub 0x2000000088007ef A) {p : Fin 4} {f : DTime} {s : State} {post : State} (hs : P s) (h : execWaggleSend p f s = .next post) : P post := by
  refine keeps_next h ?_
  repeat' first
    | with_reducible assumption
    | with_reducible refine State.waggleSend_keeps hP (hA.mono (by decide)) ?_

theorem execMarkSend_keeps (hP : Keeps A P) (hA : Sub 0x2000000088003eb A) {p : Fin 4} {f : DTime} {s : State} {post : State} (hs : P s) (h : execMarkSend p f s = .next post) : P post := by
  refine keeps_next h ?_
  repeat' first
    | with_reducible assumption
    | with_reducible refine State.markSend_keeps hP (hA.mono (by decide)) ?_

theorem execWaggleRx_keeps (hP : Keeps A P) (hA : Sub 0x1a01a27b7c9b47ef A) {p : Fin 4} {hd : Head} {a : DTime} {w : Waggle} {s : State} {post : State} (hs : P s) (h : execWaggleRx p hd a w s = .next post) : P post := by
  refine keeps_next h ?_
  repeat' first
    | with_reducible assumption
    | with_reducible refine State.settle_keeps hP (hA.mono (by decide)) ?_
    | with_reducible refine State.waggleRx_keeps hP (hA.mono (by decide)) ?_

theorem execMarkRx_keeps (hP : Keeps A P) (hA : Sub 0x2008000088003eb A) {p : Fin 4} {hd : Head} {a : DTime} {f : DTime} {s : State} {post : State} (hs : P s) (h : execMarkRx p hd a f s = .next post) : P post := by
  refine keeps_next h ?_
  repeat' first
    | with_reducible assumption
    | with_reducible refine State.markRx_keeps hP (hA.mono (by decide)) ?_

theorem execAcquisitionStep_keeps (hP : Keeps A P) (hA : Sub 0x2018003608003e9 A) {s : State} {post : State} (hs : P s) (h : execAcquisitionStep s = .next post) : P post := by
  refine keeps_next h ?_
  repeat' first
    | with_reducible assumption
    | with_reducible refine State.acquisitionStep_keeps hP (hA.mono (by decide)) ?_

theorem execAlignedReached_keeps (hP : Keeps A P) (hA : Sub 0x2008001288007eb A) {s : State} {post : State} (hs : P s) (h : execAlignedReached s = .next post) : P post := by
  refine keeps_next h ?_
  repeat' first
    | with_reducible assumption
    | with_reducible refine State.alignedReached_keeps hP (hA.mono (by decide)) ?_

theorem execAckRx_keeps (hP : Keeps A P) (hA : Sub 0x2008000088003eb A) {p : Fin 4} {hd : Head} {s : State} {post : State} (hs : P s) (h : execAckRx p hd s = .next post) : P post := by
  refine keeps_next h ?_
  repeat' first
    | with_reducible assumption
    | with_reducible refine State.receive_keeps hP (hA.mono (by decide)) ?_ (fun _ _ => ?_)
    | assumption

theorem execAckSend_keeps (hP : Keeps A P) (hA : Sub 0x2000000088003eb A) {p : Fin 4} {s : State} {post : State} (hs : P s) (h : execAckSend p s = .next post) : P post := by
  refine keeps_next h ?_
  repeat' first
    | with_reducible assumption
    | with_reducible refine State.ackSend_keeps hP (hA.mono (by decide)) ?_

theorem execRetryTimeout_keeps (hP : Keeps A P) (hA : Sub 0x2000000088003eb A) {p : Fin 4} {s : State} {post : State} (hs : P s) (h : execRetryTimeout p s = .next post) : P post := by
  refine keeps_next h ?_
  repeat' first
    | with_reducible assumption
    | with_reducible refine State.resend_keeps hP (hA.mono (by decide)) ?_

theorem execRetryExhausted_keeps (hP : Keeps A P) (hA : Sub 0x1a00a2793c9b47ef A) {p : Fin 4} {s : State} {post : State} (hs : P s) (h : execRetryExhausted p s = .next post) : P post := by
  refine keeps_next h ?_
  repeat' first
    | with_reducible assumption
    | with_reducible refine State.settle_keeps hP (hA.mono (by decide)) ?_
    | with_reducible refine State.settleRuns_keeps hP (hA.mono (by decide)) ?_
    | with_reducible refine State.retryExhausted_keeps hP (hA.mono (by decide)) ?_

theorem execTriggerFrameRx_keeps (hP : Keeps A P) (hA : Sub 0x1a00a2781d9b47ef A) {p : Fin 4} {hd : Head} {t : SwarmTrigger} {s : State} {post : State} (hs : P s) (h : execTriggerFrameRx p hd t s = .next post) : P post := by
  refine keeps_next h ?_
  repeat' first
    | with_reducible assumption
    | with_reducible refine State.settle_keeps hP (hA.mono (by decide)) ?_
    | with_reducible refine State.triggerRx_keeps hP (hA.mono (by decide)) ?_

theorem execCommandFrameRx_keeps (hP : Keeps A P) (hA : Sub 0x1a00e2781f9bc7ef A) {p : Fin 4} {hd : Head} {c : SwarmCmd} {s : State} {post : State} (hs : P s) (h : execCommandFrameRx p hd c s = .next post) : P post := by
  refine keeps_next h ?_
  repeat' first
    | with_reducible assumption
    | with_reducible refine State.settle_keeps hP (hA.mono (by decide)) ?_
    | with_reducible refine State.commandRx_keeps hP (hA.mono (by decide)) ?_

theorem execReplyFrameRx_keeps (hP : Keeps A P) (hA : Sub 0x1a00a2781c9b47ef A) {p : Fin 4} {hd : Head} {r : SwarmReply} {s : State} {post : State} (hs : P s) (h : execReplyFrameRx p hd r s = .next post) : P post := by
  refine keeps_next h ?_
  repeat' first
    | with_reducible assumption
    | with_reducible refine State.settle_keeps hP (hA.mono (by decide)) ?_
    | with_reducible refine State.replyRx_keeps hP (hA.mono (by decide)) ?_

theorem execCmdTimeout_keeps (hP : Keeps A P) (hA : Sub 0x1a00a2781c9b47ef A) {p : Fin 4} {s : State} {post : State} (hs : P s) (h : execCmdTimeout p s = .next post) : P post := by
  refine keeps_next h ?_
  repeat' first
    | with_reducible assumption
    | with_reducible refine State.settle_keeps hP (hA.mono (by decide)) ?_
    | with_reducible refine State.cmdTimeout_keeps hP (hA.mono (by decide)) ?_

theorem execEventFrameRx_keeps (hP : Keeps A P) (hA : Sub 0x1a00a2783c9b47ef A) {p : Fin 4} {hd : Head} {e : SwarmEvent} {s : State} {post : State} (hs : P s) (h : execEventFrameRx p hd e s = .next post) : P post := by
  refine keeps_next h ?_
  repeat' first
    | with_reducible assumption
    | with_reducible refine State.settle_keeps hP (hA.mono (by decide)) ?_
    | with_reducible refine State.settleRuns_keeps hP (hA.mono (by decide)) ?_
    | with_reducible refine State.eventRx_keeps hP (hA.mono (by decide)) ?_

theorem execLentEnterRx_keeps (hP : Keeps A P) (hA : Sub 0x2008000088003eb A) {p : Fin 4} {hd : Head} {bank : BitVec 8} {fill : BitVec 16} {s : State} {post : State} (hs : P s) (h : execLentEnterRx p hd bank fill s = .next post) : P post := by
  refine keeps_next h ?_
  repeat' first
    | with_reducible assumption
    | with_reducible refine State.lentEnterRx_keeps hP (hA.mono (by decide)) ?_

theorem execLentGrantRx_keeps (hP : Keeps A P) (hA : Sub 0x2008000188003eb A) {p : Fin 4} {hd : Head} {bank : BitVec 8} {ok : Bool} {s : State} {post : State} (hs : P s) (h : execLentGrantRx p hd bank ok s = .next post) : P post := by
  refine keeps_next h ?_
  repeat' first
    | with_reducible assumption
    | with_reducible refine State.lentGrantRx_keeps hP (hA.mono (by decide)) ?_

theorem execLentRetry_keeps (hP : Keeps A P) (hA : Sub 0x2008000188003eb A) {n : Fin 8} {s : State} {post : State} (hs : P s) (h : execLentRetry n s = .next post) : P post := by
  refine keeps_next h ?_
  repeat' first
    | with_reducible assumption
    | with_reducible refine State.lentRetry_keeps hP (hA.mono (by decide)) ?_

theorem execLentLineRx_keeps (hP : Keeps A P) (hA : Sub 0x1b60a2781cfb77ff A) {p : Fin 4} {hd : Head} {bank : BitVec 8} {line : BitVec 14} {r0 : Rec} {r1 : Rec} {s : State} {post : State} (hs : P s) (h : execLentLineRx p hd bank line r0 r1 s = .next post) : P post := by
  refine keeps_next h ?_
  repeat' first
    | with_reducible assumption
    | with_reducible refine State.lentLineRx_keeps hP (hA.mono (by decide)) ?_

theorem execSwarmConfigWrite_keeps (hP : Keeps A P) (hA : Sub 0x1b28f27dbf9bcfff A) {r : SwarmReg} {v : Dword} {s : State} {post : State} (hs : P s) (h : execSwarmConfigWrite r v s = .next post) : P post := by
  refine keeps_next h ?_
  repeat' first
    | with_reducible assumption
    | with_reducible refine State.settle_keeps hP (hA.mono (by decide)) ?_
    | with_reducible refine State.settleRuns_keeps hP (hA.mono (by decide)) ?_
    | with_reducible refine State.hostAccess_keeps hP (hA.mono (by decide)) ?_ (fun _ _ => ?_)
    | with_reducible refine State.swarmConfig_keeps hP (hA.mono (by decide)) ?_

theorem execLinkRetrain_keeps (hP : Keeps A P) (hA : Sub 0x1b28f27dbf9bcfff A) {p : Fin 4} {v : Dword} {s : State} {post : State} (hs : P s) (h : execLinkRetrain p v s = .next post) : P post := by
  refine keeps_next h ?_
  repeat' first
    | with_reducible assumption
    | with_reducible refine State.settle_keeps hP (hA.mono (by decide)) ?_
    | with_reducible refine State.settleRuns_keeps hP (hA.mono (by decide)) ?_
    | with_reducible refine State.hostAccess_keeps hP (hA.mono (by decide)) ?_ (fun _ _ => ?_)
    | with_reducible refine State.pageWrite_other hP (hA.mono (by decide)) (by decide) ?_

theorem execQueenStrapChange_keeps (hP : Keeps A P) (hA : Sub 0x2008001208007eb A) {high : Bool} {s : State} {post : State} (hs : P s) (h : execQueenStrapChange high s = .next post) : P post := by
  refine keeps_next h ?_
  repeat' first
    | with_reducible assumption
    | with_reducible refine State.strapChange_keeps hP (hA.mono (by decide)) ?_

theorem execMapTick_keeps (hP : Keeps A P) (hA : Sub 0x2010000208007e9 A) {s : State} {post : State} (hs : P s) (h : execMapTick s = .next post) : P post := by
  refine keeps_next h ?_
  repeat' first
    | with_reducible assumption
    | with_reducible refine State.mapTick_keeps hP (hA.mono (by decide)) ?_

theorem execSetRequest_keeps (hP : Keeps A P) (hA : Sub 0x1b28f27dbf9bcfff A) {d : Fin 2} {frac : BitVec 16} {s : State} {post : State} (hs : P s) (h : execSetRequest d frac s = .next post) : P post := by
  refine keeps_next h ?_
  repeat' first
    | with_reducible assumption
    | with_reducible refine State.hostAccess_keeps hP (hA.mono (by decide)) ?_ (fun _ _ => ?_)
    | with_reducible refine State.pageWrite_other hP (hA.mono (by decide)) (by decide) ?_

theorem execPpsEdge_keeps (hP : Keeps A P) (hA : Sub 0x200000060000029 A) {i : Fin 2} {rising : Bool} {fine : BitVec 10} {s : State} {post : State} (hs : P s) (h : execPpsEdge i rising fine s = .next post) : P post := by
  refine keeps_next h ?_
  repeat' first
    | with_reducible assumption
    | with_reducible refine State.ppsEdge_keeps hP (hA.mono (by decide)) ?_

theorem execOfsSubmit_keeps (hP : Keeps A P) (hA : Sub 0x1b28f27dbf9bcfff A) {d : Fin 2} {v : Dword} {s : State} {post : State} (hs : P s) (h : execOfsSubmit d v s = .next post) : P post := by
  refine keeps_next h ?_
  repeat' first
    | with_reducible assumption
    | with_reducible refine State.hostAccess_keeps hP (hA.mono (by decide)) ?_ (fun _ _ => ?_)
    | with_reducible refine State.pageWrite_other hP (hA.mono (by decide)) (by decide) ?_

theorem execDomainSnap_keeps (hP : Keeps A P) (hA : Sub 0x1b28f27dbf9bcfff A) {d : Fin 2} {s : State} {post : State} (hs : P s) (h : execDomainSnap d s = .next post) : P post := by
  refine keeps_next h ?_
  repeat' first
    | with_reducible assumption
    | with_reducible refine State.hostAccess_keeps hP (hA.mono (by decide)) ?_ (fun _ _ => ?_)
    | with_reducible refine State.pageWrite_other hP (hA.mono (by decide)) (by decide) ?_

theorem execDomainStale_keeps (hP : Keeps A P) (hA : Sub 0x2000000008003e9 A) {d : Fin 2} {s : State} {post : State} (hs : P s) (h : execDomainStale d s = .next post) : P post := by
  refine keeps_next h ?_
  repeat' first
    | with_reducible assumption
    | with_reducible refine State.domStale_keeps hP (hA.mono (by decide)) ?_

theorem execSynPageStart_keeps (hP : Keeps A P) (hA : Sub 0x1b28f27dbf9bcfff A) {i : Fin 6} {s : State} {post : State} (hs : P s) (h : execSynPageStart i s = .next post) : P post := by
  refine keeps_next h ?_
  repeat' first
    | with_reducible assumption
    | with_reducible refine State.hostAccess_keeps hP (hA.mono (by decide)) ?_ (fun _ _ => ?_)
    | with_reducible refine State.pageWrite_other hP (hA.mono (by decide)) (by decide) ?_

theorem execSynPageStop_keeps (hP : Keeps A P) (hA : Sub 0x1b28f27dbf9bcfff A) {i : Fin 6} {s : State} {post : State} (hs : P s) (h : execSynPageStop i s = .next post) : P post := by
  refine keeps_next h ?_
  repeat' first
    | with_reducible assumption
    | with_reducible refine State.hostAccess_keeps hP (hA.mono (by decide)) ?_ (fun _ _ => ?_)
    | with_reducible refine State.pageWrite_other hP (hA.mono (by decide)) (by decide) ?_

theorem execBandSearchRequest_keeps (hP : Keeps A P) (hA : Sub 0x1b28f27dbf9bcfff A) {i : Fin 6} {v : Dword} {s : State} {post : State} (hs : P s) (h : execBandSearchRequest i v s = .next post) : P post := by
  refine keeps_next h ?_
  repeat' first
    | with_reducible assumption
    | with_reducible refine State.hostAccess_keeps hP (hA.mono (by decide)) ?_ (fun _ _ => ?_)
    | with_reducible refine State.pageWrite_other hP (hA.mono (by decide)) (by decide) ?_

theorem execBandSearchDone_keeps (hP : Keeps A P) (hA : Sub 0x2000000808003e9 A) {i : Fin 6} {band : BitVec 5} {tune : BitVec 8} {s : State} {post : State} (hs : P s) (h : execBandSearchDone i band tune s = .next post) : P post := by
  refine keeps_next h ?_
  repeat' first
    | with_reducible assumption
    | with_reducible refine State.searchDone_keeps hP (hA.mono (by decide)) ?_

theorem execLockFail_keeps (hP : Keeps A P) (hA : Sub 0x200000080000029 A) {i : Fin 6} {s : State} {post : State} (hs : P s) (h : execLockFail i s = .next post) : P post := by
  refine keeps_next h ?_
  repeat' first
    | with_reducible assumption
    | with_reducible refine State.lockFail_keeps hP (hA.mono (by decide)) ?_

theorem execProfileHop_keeps (hP : Keeps A P) (hA : Sub 0x1b28f27dbf9bcfff A) {i : Fin 6} {index : BitVec 4} {slot : BitVec 4} {s : State} {post : State} (hs : P s) (h : execProfileHop i index slot s = .next post) : P post := by
  refine keeps_next h ?_
  repeat' first
    | with_reducible assumption
    | with_reducible refine State.hostAccess_keeps hP (hA.mono (by decide)) ?_ (fun _ _ => ?_)
    | with_reducible refine State.pageWrite_other hP (hA.mono (by decide)) (by decide) ?_

theorem execHopDone_keeps (hP : Keeps A P) (hA : Sub 0x2000000808003e9 A) {i : Fin 6} {s : State} {post : State} (hs : P s) (h : execHopDone i s = .next post) : P post := by
  refine keeps_next h ?_
  repeat' first
    | with_reducible assumption
    | with_reducible refine State.hopDone_keeps hP (hA.mono (by decide)) ?_

theorem execDelayStep_keeps (hP : Keeps A P) (hA : Sub 0x200000000000029 A) {i : Fin 6} {s : State} {post : State} (hs : P s) (h : execDelayStep i s = .next post) : P post := by
  refine keeps_next h ?_
  repeat' first
    | with_reducible assumption
    | with_reducible refine State.delayStep_keeps hP (hA.mono (by decide)) ?_

theorem execLoopWrite_keeps (hP : Keeps A P) (hA : Sub 0x1b28f27dbf9bcfff A) {i : Fin 6} {j : Fin 3} {v : Dword} {levels : Dword} {s : State} {post : State} (hs : P s) (h : execLoopWrite i j v levels s = .next post) : P post := by
  refine keeps_next h ?_
  repeat' first
    | with_reducible assumption
    | with_reducible refine State.hostAccess_keeps hP (hA.mono (by decide)) ?_ (fun _ _ => ?_)
    | with_reducible refine State.pageWrite_other hP (hA.mono (by decide)) (by decide) ?_

theorem execSynRelock_keeps (hP : Keeps A P) (hA : Sub 0x2000000808003e9 A) {i : Fin 6} {s : State} {post : State} (hs : P s) (h : execSynRelock i s = .next post) : P post := by
  refine keeps_next h ?_
  repeat' first
    | with_reducible assumption
    | with_reducible refine State.synRelock_keeps hP (hA.mono (by decide)) ?_

theorem execZqCalMeasure_keeps (hP : Keeps A P) (hA : Sub 0x2000000000000 A) {ohms : Option Nat} {s : State} {post : State} (hs : P s) (h : execZqCalMeasure ohms s = .next post) : P post := by
  refine keeps_next h ?_
  repeat' first
    | with_reducible assumption
    | with_reducible refine State.zqMeasure_keeps hP (hA.mono (by decide)) ?_

theorem execDmaModeWrite_keeps (hP : Keeps A P) (hA : Sub 0x1b28f27dbf9bcfff A) {v : Dword} {s : State} {post : State} (hs : P s) (h : execDmaModeWrite v s = .next post) : P post := by
  refine keeps_next h ?_
  repeat' first
    | with_reducible assumption
    | with_reducible refine State.hostAccess_keeps hP (hA.mono (by decide)) ?_ (fun _ _ => ?_)
    | with_reducible refine State.pageWrite_other hP (hA.mono (by decide)) (by decide) ?_

theorem execRingWrite_keeps (hP : Keeps A P) (hA : Sub 0x1b28f27dbf9bcfff A) {c : Fin 8} {r : Fin 3} {v : Dword} {s : State} {post : State} (hs : P s) (h : execRingWrite c r v s = .next post) : P post := by
  refine keeps_next h ?_
  repeat' first
    | with_reducible assumption
    | with_reducible refine State.hostAccess_keeps hP (hA.mono (by decide)) ?_ (fun _ _ => ?_)
    | with_reducible refine State.pageWrite_other hP (hA.mono (by decide)) (by decide) ?_

theorem execDoorbell_keeps (hP : Keeps A P) (hA : Sub 0x1b28f27dbf9bcfff A) {c : Fin 8} {pi : BitVec 16} {s : State} {post : State} (hs : P s) (h : execDoorbell c pi s = .next post) : P post := by
  refine keeps_next h ?_
  repeat' first
    | with_reducible assumption
    | with_reducible refine State.hostAccess_keeps hP (hA.mono (by decide)) ?_ (fun _ _ => ?_)
    | with_reducible refine State.pageWrite_other hP (hA.mono (by decide)) (by decide) ?_

theorem execDescriptorFetch_keeps (hP : Keeps A P) (hA : Sub 0x1b60a2781cfb77ff A) {c : Fin 8} {r : FetchResult} {s : State} {post : State} (hs : P s) (h : execDescriptorFetch c r s = .next post) : P post := by
  refine keeps_next h ?_
  repeat' first
    | with_reducible assumption
    | with_reducible refine State.hostAccess_keeps hP (hA.mono (by decide)) ?_ (fun _ _ => ?_)
    | with_reducible refine State.ask_keeps hP (hA.mono (by decide)) ?_

theorem execDmaDataMove_keeps (hP : Keeps A P) (hA : Sub 0x1b60a2781cfb77ff A) {c : Fin 8} {i : BitVec 6} {k : Completion} {bytes : List (BitVec 8)} {s : State} {post : State} (hs : P s) (h : execDmaDataMove c i k bytes s = .next post) : P post := by
  refine keeps_next h ?_
  repeat' first
    | with_reducible assumption
    | with_reducible refine State.hostAccess_keeps hP (hA.mono (by decide)) ?_ (fun _ _ => ?_)
    | with_reducible refine State.dmaData_keeps hP (hA.mono (by decide)) ?_

theorem execDescriptorComplete_keeps (hP : Keeps A P) (hA : Sub 0x1b60a2781cfb77ff A) {c : Fin 8} {k : Completion} {s : State} {post : State} (hs : P s) (h : execDescriptorComplete c k s = .next post) : P post := by
  refine keeps_next h ?_
  repeat' first
    | with_reducible assumption
    | with_reducible refine State.hostAccess_keeps hP (hA.mono (by decide)) ?_ (fun _ _ => ?_)
    | with_reducible refine State.dmaComplete_keeps hP (hA.mono (by decide)) ?_

theorem execDmaEnable_keeps (hP : Keeps A P) (hA : Sub 0x1b28f27dbf9bcfff A) {c : Fin 8} {v : Dword} {s : State} {post : State} (hs : P s) (h : execDmaEnable c v s = .next post) : P post := by
  refine keeps_next h ?_
  repeat' first
    | with_reducible assumption
    | with_reducible refine State.hostAccess_keeps hP (hA.mono (by decide)) ?_ (fun _ _ => ?_)
    | with_reducible refine State.pageWrite_other hP (hA.mono (by decide)) (by decide) ?_

theorem execDmaPause_keeps (hP : Keeps A P) (hA : Sub 0x1b28f27dbf9bcfff A) {c : Fin 8} {v : Dword} {s : State} {post : State} (hs : P s) (h : execDmaPause c v s = .next post) : P post := by
  refine keeps_next h ?_
  repeat' first
    | with_reducible assumption
    | with_reducible refine State.hostAccess_keeps hP (hA.mono (by decide)) ?_ (fun _ _ => ?_)
    | with_reducible refine State.pageWrite_other hP (hA.mono (by decide)) (by decide) ?_

theorem execDmaPaused_keeps (hP : Keeps A P) (hA : Sub 0x2000000008007f9 A) {c : Fin 8} {s : State} {post : State} (hs : P s) (h : execDmaPaused c s = .next post) : P post := by
  refine keeps_next h ?_
  repeat' first
    | with_reducible assumption
    | with_reducible refine State.hostAccess_keeps hP (hA.mono (by decide)) ?_ (fun _ _ => ?_)
    | with_reducible refine State.pausedCh_keeps hP (hA.mono (by decide)) ?_

theorem execDmaResume_keeps (hP : Keeps A P) (hA : Sub 0x1b28f27dbf9bcfff A) {c : Fin 8} {v : Dword} {s : State} {post : State} (hs : P s) (h : execDmaResume c v s = .next post) : P post := by
  refine keeps_next h ?_
  repeat' first
    | with_reducible assumption
    | with_reducible refine State.hostAccess_keeps hP (hA.mono (by decide)) ?_ (fun _ _ => ?_)
    | with_reducible refine State.pageWrite_other hP (hA.mono (by decide)) (by decide) ?_

theorem execDmaAbort_keeps (hP : Keeps A P) (hA : Sub 0x1b28f27dbf9bcfff A) {c : Fin 8} {v : Dword} {s : State} {post : State} (hs : P s) (h : execDmaAbort c v s = .next post) : P post := by
  refine keeps_next h ?_
  repeat' first
    | with_reducible assumption
    | with_reducible refine State.hostAccess_keeps hP (hA.mono (by decide)) ?_ (fun _ _ => ?_)
    | with_reducible refine State.pageWrite_other hP (hA.mono (by decide)) (by decide) ?_

theorem execDmaClear_keeps (hP : Keeps A P) (hA : Sub 0x1b28f27dbf9bcfff A) {c : Fin 8} {v : Dword} {s : State} {post : State} (hs : P s) (h : execDmaClear c v s = .next post) : P post := by
  refine keeps_next h ?_
  repeat' first
    | with_reducible assumption
    | with_reducible refine State.hostAccess_keeps hP (hA.mono (by decide)) ?_ (fun _ _ => ?_)
    | with_reducible refine State.pageWrite_other hP (hA.mono (by decide)) (by decide) ?_

theorem execDmaStall_keeps (hP : Keeps A P) (hA : Sub 0x3200000008007f9 A) {c : Fin 8} {s : State} {post : State} (hs : P s) (h : execDmaStall c s = .next post) : P post := by
  refine keeps_next h ?_
  repeat' first
    | with_reducible assumption
    | with_reducible refine State.hostAccess_keeps hP (hA.mono (by decide)) ?_ (fun _ _ => ?_)
    | with_reducible refine State.stallCh_keeps hP (hA.mono (by decide)) ?_

theorem execCompletionTimeout_keeps (hP : Keeps A P) (hA : Sub 0x3200000008007f9 A) {c : Fin 8} {fetch : Bool} {s : State} {post : State} (hs : P s) (h : execCompletionTimeout c fetch s = .next post) : P post := by
  refine keeps_next h ?_
  repeat' first
    | with_reducible assumption
    | with_reducible refine State.hostAccess_keeps hP (hA.mono (by decide)) ?_ (fun _ _ => ?_)
    | with_reducible refine State.cplTimeout_keeps hP (hA.mono (by decide)) ?_

theorem execPcieLinkDown_keeps (hP : Keeps A P) (hA : Sub 0x2200000008007f9 A) {s : State} {post : State} (hs : P s) (h : execPcieLinkDown s = .next post) : P post := by
  refine keeps_next h ?_
  repeat' first
    | with_reducible assumption
    | with_reducible refine State.pcieDown_keeps hP (hA.mono (by decide)) ?_

theorem execConfigReady_keeps (hP : Keeps A P) (hA : Sub 0x80000400000028 A) {link : PciLink} {early later : List CfgRequest} {s : State} {post : State} (hs : P s) (h : execConfigReady link early later s = .next post) : P post := by
  refine keeps_next h ?_
  repeat' first
    | with_reducible assumption
    | with_reducible refine State.configIsReady_keeps hP (hA.mono (by decide)) ?_

theorem execBar0BusError_keeps (hP : Keeps A P) (hA : Sub 0x20000000000082b A) {addr : BitVec 24} {req : BusReq} {s : State} {post : State} (hs : P s) (h : execBar0BusError addr req s = .next post) : P post := by
  refine keeps_next h ?_
  repeat' first
    | with_reducible assumption
    | with_reducible refine State.hostAccess_keeps hP (hA.mono (by decide)) ?_ (fun _ _ => ?_)
    | with_reducible refine State.malformed_keeps hP (hA.mono (by decide)) ?_

theorem execPoisonedWrite_keeps (hP : Keeps A P) (hA : Sub 0x20000000000082b A) {target : PoisonTarget} {s : State} {post : State} (hs : P s) (h : execPoisonedWrite target s = .next post) : P post := by
  refine keeps_next h ?_
  repeat' first
    | with_reducible assumption
    | with_reducible refine State.hostAccess_keeps hP (hA.mono (by decide)) ?_ (fun _ _ => ?_)
    | with_reducible refine State.poisonedWrite_keeps hP (hA.mono (by decide)) ?_

theorem execBar2Read_keeps (hP : Keeps A P) (hA : Sub 0x1b60a2781cfb77ff A) {w : BitVec 25} {n : Fin 1025} {s : State} {post : State} (hs : P s) (h : execBar2Read w n s = .next post) : P post := by
  refine keeps_next h ?_
  repeat' first
    | with_reducible assumption
    | with_reducible refine State.hostAccess_keeps hP (hA.mono (by decide)) ?_ (fun _ _ => ?_)
    | with_reducible refine State.ask_keeps hP (hA.mono (by decide)) ?_

theorem execBar2Write_keeps (hP : Keeps A P) (hA : Sub 0x1b60a2781cfb77ff A) {w : BitVec 25} {ds : List (BitVec 4 × Dword)} {s : State} {post : State} (hs : P s) (h : execBar2Write w ds s = .next post) : P post := by
  refine keeps_next h ?_
  repeat' first
    | with_reducible assumption
    | with_reducible refine State.hostAccess_keeps hP (hA.mono (by decide)) ?_ (fun _ _ => ?_)
    | with_reducible refine State.ask_keeps hP (hA.mono (by decide)) ?_

theorem execMsixUnmask_keeps (hP : Keeps A P) (hA : Sub 0x28 A) {v : Option (Fin 64)} {enable : Bool} {funcMask : Bool} {s : State} {post : State} (hs : P s) (h : execMsixUnmask v enable funcMask s = .next post) : P post := by
  refine keeps_next h ?_
  repeat' first
    | with_reducible assumption
    | with_reducible refine State.hostAccess_keeps hP (hA.mono (by decide)) ?_ (fun _ _ => ?_)
    | with_reducible refine State.msixUnmask?_keeps hP (hA.mono (by decide)) ?_
    | with_reducible refine State.msixControl_keeps hP (hA.mono (by decide)) ?_

theorem execKeyUnlock_keeps (hP : Keeps A P) (hA : Sub 0x1b38f2fdbfbfcfff A) {addr : BitVec 24} {s : State} {post : State} (hs : P s) (h : execKeyUnlock addr s = .next post) : P post := by
  refine keeps_next h ?_
  repeat' first
    | with_reducible assumption
    | with_reducible refine State.hostAccess_keeps hP (hA.mono (by decide)) ?_ (fun _ _ => ?_)
    | with_reducible refine State.busWrite_keeps hP (hA.mono (by decide)) ?_

theorem execRcRead_keeps (hP : Keeps A P) (hA : Sub 0x21000a000b203eb A) {addr : BitVec 24} {s : State} {post : State} (hs : P s) (h : execRcRead addr s = .next post) : P post := by
  refine keeps_next h ?_
  repeat' first
    | with_reducible assumption
    | with_reducible refine State.hostAccess_keeps hP (hA.mono (by decide)) ?_ (fun _ _ => ?_)
    | with_reducible refine State.busRead_keeps hP (hA.mono (by decide)) ?_

theorem execShadowWrite_keeps (hP : Keeps A P) (hA : Sub 0x1b38f2fdbfbfcfff A) {addr : BitVec 24} {v : Dword} {levels : Dword} {s : State} {post : State} (hs : P s) (h : execShadowWrite addr v levels s = .next post) : P post := by
  refine keeps_next h ?_
  repeat' first
    | with_reducible assumption
    | with_reducible refine State.settle_keeps hP (hA.mono (by decide)) ?_
    | with_reducible refine State.settleRuns_keeps hP (hA.mono (by decide)) ?_
    | with_reducible refine State.hostAccess_keeps hP (hA.mono (by decide)) ?_ (fun _ _ => ?_)
    | with_reducible refine State.busWrite_keeps hP (hA.mono (by decide)) ?_

theorem execShadowApply_keeps (hP : Keeps A P) (hA : Sub 0x2000000808007e9 A) {addr : BitVec 24} {inBand : Bool} {s : State} {post : State} (hs : P s) (h : execShadowApply addr inBand s = .next post) : P post := by
  refine keeps_next h ?_
  repeat' first
    | with_reducible assumption
    | with_reducible refine State.boundaryApply_keeps hP (hA.mono (by decide)) ?_

theorem execFreezeRelease_keeps (hP : Keeps A P) (hA : Sub 0x1b38f2fdbfbfcfff A) {addr : BitVec 24} {s : State} {post : State} (hs : P s) (h : execFreezeRelease addr s = .next post) : P post := by
  refine keeps_next h ?_
  repeat' first
    | with_reducible assumption
    | with_reducible refine State.hostAccess_keeps hP (hA.mono (by decide)) ?_ (fun _ _ => ?_)
    | with_reducible refine State.busWrite_keeps hP (hA.mono (by decide)) ?_

theorem execRegisterWrite_keeps (hP : Keeps A P) (hA : Sub 0x1b38f2fdbfbfcfff A) {addr : BitVec 24} {v : Dword} {levels : Dword} {s : State} {post : State} (hs : P s) (h : execRegisterWrite addr v levels s = .next post) : P post := by
  refine keeps_next h ?_
  repeat' first
    | with_reducible assumption
    | with_reducible refine State.settle_keeps hP (hA.mono (by decide)) ?_
    | with_reducible refine State.settleRuns_keeps hP (hA.mono (by decide)) ?_
    | with_reducible refine State.hostAccess_keeps hP (hA.mono (by decide)) ?_ (fun _ _ => ?_)
    | with_reducible refine State.busWrite_keeps hP (hA.mono (by decide)) ?_

theorem execJournalSelect_keeps (hP : Keeps A P) (hA : Sub 0x1b28f27dbf9bcfff A) {n : Dword} {s : State} {post : State} (hs : P s) (h : execJournalSelect n s = .next post) : P post := by
  refine keeps_next h ?_
  repeat' first
    | with_reducible assumption
    | with_reducible refine State.hostAccess_keeps hP (hA.mono (by decide)) ?_ (fun _ _ => ?_)
    | with_reducible refine State.pageWrite_other hP (hA.mono (by decide)) (by decide) ?_

theorem execJournalReadAdvance_keeps (hP : Keeps A P) (hA : Sub 0x20000000000002b A) {s : State} {post : State} (hs : P s) (h : execJournalReadAdvance s = .next post) : P post := by
  refine keeps_next h ?_
  repeat' first
    | with_reducible assumption
    | with_reducible refine State.hostAccess_keeps hP (hA.mono (by decide)) ?_ (fun _ _ => ?_)
    | with_reducible refine State.pageRead_keeps hP (hA.mono (by decide)) ?_

theorem execInjectArm_keeps (hP : Keeps A P) (hA : Sub 0x1b28f27dbf9bcfff A) {v : Dword} {s : State} {post : State} (hs : P s) (h : execInjectArm v s = .next post) : P post := by
  refine keeps_next h ?_
  repeat' first
    | with_reducible assumption
    | with_reducible refine State.hostAccess_keeps hP (hA.mono (by decide)) ?_ (fun _ _ => ?_)
    | with_reducible refine State.pageWrite_other hP (hA.mono (by decide)) (by decide) ?_

theorem execInjectCancel_keeps (hP : Keeps A P) (hA : Sub 0x1b28f27dbf9bcfff A) {v : Dword} {s : State} {post : State} (hs : P s) (h : execInjectCancel v s = .next post) : P post := by
  refine keeps_next h ?_
  repeat' first
    | with_reducible assumption
    | with_reducible refine State.hostAccess_keeps hP (hA.mono (by decide)) ?_ (fun _ _ => ?_)
    | with_reducible refine State.pageWrite_other hP (hA.mono (by decide)) (by decide) ?_

theorem execImgWrite_keeps (hP : Keeps A P) (hA : Sub 0x1b28f27dbf9bcfff A) {r : Fin 3} {v : Dword} {s : State} {post : State} (hs : P s) (h : execImgWrite r v s = .next post) : P post := by
  refine keeps_next h ?_
  repeat' first
    | with_reducible assumption
    | with_reducible refine State.hostAccess_keeps hP (hA.mono (by decide)) ?_ (fun _ _ => ?_)
    | with_reducible refine State.pageWrite_other hP (hA.mono (by decide)) (by decide) ?_

theorem execMboxOutWrite_keeps (hP : Keeps A P) (hA : Sub 0x1b28f27dbf9bcfff A) {v : Dword} {s : State} {post : State} (hs : P s) (h : execMboxOutWrite v s = .next post) : P post := by
  refine keeps_next h ?_
  repeat' first
    | with_reducible assumption
    | with_reducible refine State.hostAccess_keeps hP (hA.mono (by decide)) ?_ (fun _ _ => ?_)
    | with_reducible refine State.pageWrite_other hP (hA.mono (by decide)) (by decide) ?_

theorem execTempUpdate_keeps (hP : Keeps A P) (hA : Sub 0x1a00a2789c9b47ef A) {v : BitVec 11} {s : State} {post : State} (hs : P s) (h : execTempUpdate v s = .next post) : P post := by
  refine keeps_next h ?_
  repeat' first
    | with_reducible assumption
    | with_reducible refine State.settle_keeps hP (hA.mono (by decide)) ?_
    | with_reducible refine State.tempUpdate_keeps hP (hA.mono (by decide)) ?_

theorem execChipUe_keeps (hP : Keeps A P) (hA : Sub 0x1a00a2781c9b47ef A) {code : BitVec 4} {loc : BitVec 30} {s : State} {post : State} (hs : P s) (h : execChipUe code loc s = .next post) : P post := by
  refine keeps_next h ?_
  repeat' first
    | with_reducible assumption
    | with_reducible refine State.settle_keeps hP (hA.mono (by decide)) ?_
    | with_reducible refine State.structureFails_keeps hP (hA.mono (by decide)) ?_

theorem execMonitorRelease_keeps (hP : Keeps A P) (hA : Sub 0x400000000 A) {s : State} {post : State} (hs : P s) (h : execMonitorRelease s = .next post) : P post := by
  refine keeps_next h ?_
  repeat' first
    | with_reducible assumption
    | with_reducible refine State.monitorRelease_keeps hP (hA.mono (by decide)) ?_

theorem execRailFail_keeps (hP : Keeps A P) (hA : Sub 0x404000400000003 A) {rail : Rail} {good : Bool} {s : State} {post : State} (hs : P s) (h : execRailFail rail good s = .next post) : P post := by
  refine keeps_next h ?_
  repeat' first
    | with_reducible assumption
    | with_reducible refine State.railFail_keeps hP (hA.mono (by decide)) ?_

theorem execResetNAssert_keeps (hP : Keeps A P) (hA : Sub 0x400000400000000 A) {s : State} {post : State} (hs : P s) (h : execResetNAssert s = .next post) : P post := by
  refine keeps_next h ?_
  repeat' first
    | with_reducible assumption
    | with_reducible refine State.resetNAssert_keeps hP (hA.mono (by decide)) ?_

theorem execResetRelease_keeps (hP : Keeps A P) (hA : Sub 0xa02820d288847ef A) {pin : ResetPin} {strap : Bool} {bad : List (BitVec 8)} {levels : BitVec 96} {ohms : Option Nat} {s : State} {post : State} (hs : P s) (h : execResetRelease pin strap bad levels ohms s = .next post) : P post := by
  refine keeps_next h ?_
  repeat' first
    | with_reducible assumption
    | with_reducible refine State.resetRelease_keeps hP (hA.mono (by decide)) ?_

theorem execSelfTestDone_keeps (hP : Keeps A P) (hA : Sub 0x400003001 A) {bad : List (Fin 256 × BitVec 14 × Bool)} {s : State} {post : State} (hs : P s) (h : execSelfTestDone bad s = .next post) : P post := by
  refine keeps_next h ?_
  repeat' first
    | with_reducible assumption
    | with_reducible refine State.selfTestDone_keeps hP (hA.mono (by decide)) ?_

theorem execPerstN_keeps (hP : Keeps A P) (hA : Sub 0xba0020c00804fff A) {s : State} {post : State} (hs : P s) (h : execPerstN s = .next post) : P post := by
  refine keeps_next h ?_
  repeat' first
    | with_reducible assumption
    | with_reducible refine State.perstN_keeps hP (hA.mono (by decide)) ?_

theorem execHotReset_keeps (hP : Keeps A P) (hA : Sub 0xba0020c00804fff A) {s : State} {post : State} (hs : P s) (h : execHotReset s = .next post) : P post := by
  refine keeps_next h ?_
  repeat' first
    | with_reducible assumption
    | with_reducible refine State.hotReset_keeps hP (hA.mono (by decide)) ?_

theorem execClusterEntryDone_keeps (hP : Keeps A P) (hA : Sub 0x400000000 A) {s : State} {post : State} (hs : P s) (h : execClusterEntryDone s = .next post) : P post := by
  refine keeps_next h ?_
  repeat' first
    | with_reducible assumption
    | with_reducible refine State.clusterEntered_keeps hP (hA.mono (by decide)) ?_

theorem execWakeComplete_keeps (hP : Keeps A P) (hA : Sub 0x2008005008043eb A) {levels : BitVec 96} {s : State} {post : State} (hs : P s) (h : execWakeComplete levels s = .next post) : P post := by
  refine keeps_next h ?_
  repeat' first
    | with_reducible assumption
    | with_reducible refine State.wakeComplete_keeps hP (hA.mono (by decide)) ?_

theorem execSvcNop_keeps (hP : Keeps A P) (hA : Sub 0x9 A) {s : State} {post : State} (hs : P s) (h : execSvcNop s = .next post) : P post := by
  refine keeps_next h ?_
  repeat' first
    | with_reducible assumption
    | with_reducible refine State.powered_keeps hP (hA.mono (by decide)) ?_ (fun _ _ => ?_)
    | with_reducible refine State.svcNop_keeps hP (hA.mono (by decide)) ?_

theorem execSvcReadId_keeps (hP : Keeps A P) (hA : Sub 0x8000000000009 A) {index : BitVec 2} {s : State} {post : State} (hs : P s) (h : execSvcReadId index s = .next post) : P post := by
  refine keeps_next h ?_
  repeat' first
    | with_reducible assumption
    | with_reducible refine State.powered_keeps hP (hA.mono (by decide)) ?_ (fun _ _ => ?_)
    | with_reducible refine State.svcReadId_keeps hP (hA.mono (by decide)) ?_

theorem execSvcReadHealth_keeps (hP : Keeps A P) (hA : Sub 0x8000000000009 A) {s : State} {post : State} (hs : P s) (h : execSvcReadHealth s = .next post) : P post := by
  refine keeps_next h ?_
  repeat' first
    | with_reducible assumption
    | with_reducible refine State.powered_keeps hP (hA.mono (by decide)) ?_ (fun _ _ => ?_)
    | with_reducible refine State.svcReadHealth_keeps hP (hA.mono (by decide)) ?_

theorem execSvcReadMbox_keeps (hP : Keeps A P) (hA : Sub 0x208000000000029 A) {s : State} {post : State} (hs : P s) (h : execSvcReadMbox s = .next post) : P post := by
  refine keeps_next h ?_
  repeat' first
    | with_reducible assumption
    | with_reducible refine State.powered_keeps hP (hA.mono (by decide)) ?_ (fun _ _ => ?_)
    | with_reducible refine State.svcReadMbox_keeps hP (hA.mono (by decide)) ?_

theorem execSvcMboxLo_keeps (hP : Keeps A P) (hA : Sub 0x208000000000029 A) {v : BitVec 16} {s : State} {post : State} (hs : P s) (h : execSvcMboxLo v s = .next post) : P post := by
  refine keeps_next h ?_
  repeat' first
    | with_reducible assumption
    | with_reducible refine State.powered_keeps hP (hA.mono (by decide)) ?_ (fun _ _ => ?_)
    | with_reducible refine State.svcMboxLo_keeps hP (hA.mono (by decide)) ?_

theorem execSvcMboxHi_keeps (hP : Keeps A P) (hA : Sub 0x208000000000029 A) {v : BitVec 16} {s : State} {post : State} (hs : P s) (h : execSvcMboxHi v s = .next post) : P post := by
  refine keeps_next h ?_
  repeat' first
    | with_reducible assumption
    | with_reducible refine State.powered_keeps hP (hA.mono (by decide)) ?_ (fun _ _ => ?_)
    | with_reducible refine State.svcMboxHi_keeps hP (hA.mono (by decide)) ?_

theorem execSvcCmd_keeps (hP : Keeps A P) (hA : Sub 0x1a08f27cbc9b47ef A) {id : BitVec 8} {wake : Bool} {s : State} {post : State} (hs : P s) (h : execSvcCmd id wake s = .next post) : P post := by
  refine keeps_next h ?_
  repeat' first
    | with_reducible assumption
    | with_reducible refine State.powered_keeps hP (hA.mono (by decide)) ?_ (fun _ _ => ?_)
    | with_reducible refine State.svcCmd_keeps hP (hA.mono (by decide)) ?_

theorem execSvcReadCmd_keeps (hP : Keeps A P) (hA : Sub 0x208000000000029 A) {s : State} {post : State} (hs : P s) (h : execSvcReadCmd s = .next post) : P post := by
  refine keeps_next h ?_
  repeat' first
    | with_reducible assumption
    | with_reducible refine State.powered_keeps hP (hA.mono (by decide)) ?_ (fun _ _ => ?_)
    | with_reducible refine State.svcReadCmd_keeps hP (hA.mono (by decide)) ?_

theorem execSvcHold_keeps (hP : Keeps A P) (hA : Sub 0x6080004008003e9 A) {s : State} {post : State} (hs : P s) (h : execSvcHold s = .next post) : P post := by
  refine keeps_next h ?_
  repeat' first
    | with_reducible assumption
    | with_reducible refine State.powered_keeps hP (hA.mono (by decide)) ?_ (fun _ _ => ?_)
    | with_reducible refine State.svcHold_keeps hP (hA.mono (by decide)) ?_

theorem execSvcRelease_keeps (hP : Keeps A P) (hA : Sub 0x2080004008003e9 A) {s : State} {post : State} (hs : P s) (h : execSvcRelease s = .next post) : P post := by
  refine keeps_next h ?_
  repeat' first
    | with_reducible assumption
    | with_reducible refine State.powered_keeps hP (hA.mono (by decide)) ?_ (fun _ _ => ?_)
    | with_reducible refine State.svcRelease_keeps hP (hA.mono (by decide)) ?_

theorem execSvcReservedOp_keeps (hP : Keeps A P) (hA : Sub 0x208000000000029 A) {s : State} {post : State} (hs : P s) (h : execSvcReservedOp s = .next post) : P post := by
  refine keeps_next h ?_
  repeat' first
    | with_reducible assumption
    | with_reducible refine State.powered_keeps hP (hA.mono (by decide)) ?_ (fun _ _ => ?_)
    | with_reducible refine State.svcReserved_keeps hP (hA.mono (by decide)) ?_

theorem execSvcFrameDiscard_keeps (hP : Keeps A P) (hA : Sub 0x200000000000029 A) {s : State} {post : State} (hs : P s) (h : execSvcFrameDiscard s = .next post) : P post := by
  refine keeps_next h ?_
  repeat' first
    | with_reducible assumption
    | with_reducible refine State.powered_keeps hP (hA.mono (by decide)) ?_ (fun _ _ => ?_)
    | with_reducible refine State.svcDiscard_keeps hP (hA.mono (by decide)) ?_

theorem execTestEnHigh_keeps (hP : Keeps A P) (hA : Sub 0x400000400000000 A) {s : State} {post : State} (hs : P s) (h : execTestEnHigh s = .next post) : P post := by
  refine keeps_next h ?_
  repeat' first
    | with_reducible assumption
    | with_reducible refine State.testEnHigh_keeps hP (hA.mono (by decide)) ?_

theorem execTapReset_keeps (hP : Keeps A P) (hA : Sub 0x404000400000000 A) {s : State} {post : State} (hs : P s) (h : execTapReset s = .next post) : P post := by
  refine keeps_next h ?_
  repeat' first
    | with_reducible assumption
    | with_reducible refine State.powered_keeps hP (hA.mono (by decide)) ?_ (fun _ _ => ?_)
    | with_reducible refine State.tapReset_keeps hP (hA.mono (by decide)) ?_

theorem execExtest_keeps (hP : Keeps A P) (hA : Sub 0x404000400000008 A) {pins : BitVec 158} {next : BitVec 158} {s : State} {post : State} (hs : P s) (h : execExtest pins next s = .next post) : P post := by
  refine keeps_next h ?_
  repeat' first
    | with_reducible assumption
    | with_reducible refine State.powered_keeps hP (hA.mono (by decide)) ?_ (fun _ _ => ?_)
    | with_reducible refine State.tapScan_keeps hP (hA.mono (by decide)) ?_

theorem execIdcode_keeps (hP : Keeps A P) (hA : Sub 0x404000400000008 A) {s : State} {post : State} (hs : P s) (h : execIdcode s = .next post) : P post := by
  refine keeps_next h ?_
  repeat' first
    | with_reducible assumption
    | with_reducible refine State.powered_keeps hP (hA.mono (by decide)) ?_ (fun _ _ => ?_)
    | with_reducible refine State.tapIdcode_keeps hP (hA.mono (by decide)) ?_

theorem execSamplePreload_keeps (hP : Keeps A P) (hA : Sub 0x404000400000008 A) {pins : BitVec 158} {next : BitVec 158} {s : State} {post : State} (hs : P s) (h : execSamplePreload pins next s = .next post) : P post := by
  refine keeps_next h ?_
  repeat' first
    | with_reducible assumption
    | with_reducible refine State.powered_keeps hP (hA.mono (by decide)) ?_ (fun _ _ => ?_)
    | with_reducible refine State.tapScan_keeps hP (hA.mono (by decide)) ?_

theorem execClamp_keeps (hP : Keeps A P) (hA : Sub 0x404000400000008 A) {s : State} {post : State} (hs : P s) (h : execClamp s = .next post) : P post := by
  refine keeps_next h ?_
  repeat' first
    | with_reducible assumption
    | with_reducible refine State.powered_keeps hP (hA.mono (by decide)) ?_ (fun _ _ => ?_)
    | with_reducible refine State.tapBypass_keeps hP (hA.mono (by decide)) ?_

theorem execHighz_keeps (hP : Keeps A P) (hA : Sub 0x404000400000008 A) {s : State} {post : State} (hs : P s) (h : execHighz s = .next post) : P post := by
  refine keeps_next h ?_
  repeat' first
    | with_reducible assumption
    | with_reducible refine State.powered_keeps hP (hA.mono (by decide)) ?_ (fun _ _ => ?_)
    | with_reducible refine State.tapBypass_keeps hP (hA.mono (by decide)) ?_

theorem execExtestPulse_keeps (hP : Keeps A P) (hA : Sub 0x404000400000008 A) {pins : BitVec 158} {next : BitVec 158} {s : State} {post : State} (hs : P s) (h : execExtestPulse pins next s = .next post) : P post := by
  refine keeps_next h ?_
  repeat' first
    | with_reducible assumption
    | with_reducible refine State.powered_keeps hP (hA.mono (by decide)) ?_ (fun _ _ => ?_)
    | with_reducible refine State.tapScan_keeps hP (hA.mono (by decide)) ?_

theorem execExtestTrain_keeps (hP : Keeps A P) (hA : Sub 0x404000400000008 A) {pins : BitVec 158} {next : BitVec 158} {s : State} {post : State} (hs : P s) (h : execExtestTrain pins next s = .next post) : P post := by
  refine keeps_next h ?_
  repeat' first
    | with_reducible assumption
    | with_reducible refine State.powered_keeps hP (hA.mono (by decide)) ?_ (fun _ _ => ?_)
    | with_reducible refine State.tapScan_keeps hP (hA.mono (by decide)) ?_

theorem execBypass_keeps (hP : Keeps A P) (hA : Sub 0x404000400000008 A) {s : State} {post : State} (hs : P s) (h : execBypass s = .next post) : P post := by
  refine keeps_next h ?_
  repeat' first
    | with_reducible assumption
    | with_reducible refine State.powered_keeps hP (hA.mono (by decide)) ?_ (fun _ _ => ?_)
    | with_reducible refine State.tapBypass_keeps hP (hA.mono (by decide)) ?_

/-- Every primitive change that some command or the clock makes. -/
abbrev allBits : Nat := 0x1fffffffffffffff

/-- What every command keeps. -/
theorem exec_keeps (hP : Keeps allBits P) {i : Instr} {s post : State} (hs : P s) (h : exec i s = .next post) : P post := by
  cases i with
  | cmdLoad id => exact execCmdLoad_keeps hP (show Sub 0x200000800800bef allBits by unfold Sub; decide) hs h
  | loadComplete image brk insts lines => exact execLoadComplete_keeps hP (show Sub 0xa000708008447ef allBits by unfold Sub; decide) hs h
  | cmdArm id => exact execCmdArm_keeps hP (show Sub 0x1a00a2781c9b4fef allBits by unfold Sub; decide) hs h
  | cmdStart id => exact execCmdStart_keeps hP (show Sub 0x1a00e2781f9bcfef allBits by unfold Sub; decide) hs h
  | runSlot0 => exact execRunSlot0_keeps hP (show Sub 0xa000208008847ed allBits by unfold Sub; decide) hs h
  | cmdStop id => exact execCmdStop_keeps hP (show Sub 0x1a00e2781f9bcfef allBits by unfold Sub; decide) hs h
  | cmdAbort id => exact execCmdAbort_keeps hP (show Sub 0x1a00e2781f9bcfef allBits by unfold Sub; decide) hs h
  | cmdResetRun id => exact execCmdResetRun_keeps hP (show Sub 0xa00021804894fef allBits by unfold Sub; decide) hs h
  | cmdCluster id => exact execCmdCluster_keeps hP (show Sub 0x1a00f27cbc9b4fef allBits by unfold Sub; decide) hs h
  | cmdWake id => exact execCmdWake_keeps hP (show Sub 0x200800c80804feb allBits by unfold Sub; decide) hs h
  | cmdInvalid v => exact execCmdInvalid_keeps hP (show Sub 0x1b28f27dbf9bcfff allBits by unfold Sub; decide) hs h
  | regionHalt n => exact execRegionHalt_keeps hP (show Sub 0xa000210048847ef allBits by unfold Sub; decide) hs h
  | timebaseStart => exact execTimebaseStart_keeps hP (show Sub 0x201000780004069 allBits by unfold Sub; decide) hs h
  | lockDeclared phases refs => exact execLockDeclared_keeps hP (show Sub 0x1a00a2799c9b47ef allBits by unfold Sub; decide) hs h
  | hardLoss c refs => exact execHardLoss_keeps hP (show Sub 0x1a00a2799c9b47ef allBits by unfold Sub; decide) hs h
  | softLoss phases refs => exact execSoftLoss_keeps hP (show Sub 0x1a00a2799c9b47ef allBits by unfold Sub; decide) hs h
  | bypassSwitch altToggles => exact execBypassSwitch_keeps hP (show Sub 0x1000320004001 allBits by unfold Sub; decide) hs h
  | altrefFail => exact execAltrefFail_keeps hP (show Sub 0x1 allBits by unfold Sub; decide) hs h
  | switchBack => exact execSwitchBack_keeps hP (show Sub 0x2008001208047eb allBits by unfold Sub; decide) hs h
  | lockWithdrawn c refs => exact execLockWithdrawn_keeps hP (show Sub 0x1a00a2799c9b47ef allBits by unfold Sub; decide) hs h
  | dtimeWrap => exact execDtimeWrap_keeps hP (show Sub 0x200000100000029 allBits by unfold Sub; decide) hs h
  | trimSlewStep => exact execTrimSlewStep_keeps hP (show Sub 0x200800300000029 allBits by unfold Sub; decide) hs h
  | tbReset altrefEn => exact execTbReset_keeps hP (show Sub 0x1b28f27dbf9bcfff allBits by unfold Sub; decide) hs h
  | refselWrite refsel altrefEn => exact execRefselWrite_keeps hP (show Sub 0x1b28f27dbf9bcfff allBits by unfold Sub; decide) hs h
  | edgeArrival k fine => exact execEdgeArrival_keeps hP (show Sub 0x20000000080c3e9 allBits by unfold Sub; decide) hs h
  | stuckExpiry k => exact execStuckExpiry_keeps hP (show Sub 0x1a00a2781c9b47ef allBits by unfold Sub; decide) hs h
  | inputWrite k v level level2 => exact execInputWrite_keeps hP (show Sub 0x1b28f27dbf9bcfff allBits by unfold Sub; decide) hs h
  | converterRelease k j => exact execConverterRelease_keeps hP (show Sub 0x4001 allBits by unfold Sub; decide) hs h
  | gapLimit k => exact execGapLimit_keeps hP (show Sub 0x4001 allBits by unfold Sub; decide) hs h
  | poolEmit k => exact execPoolEmit_keeps hP (show Sub 0x1a00a2781c9bc7ef allBits by unfold Sub; decide) hs h
  | fifoOvfClose g j => exact execFifoOvfClose_keeps hP (show Sub 0x2000000008103e9 allBits by unfold Sub; decide) hs h
  | countGateResult k => exact execCountGateResult_keeps hP (show Sub 0x200008041c5 allBits by unfold Sub; decide) hs h
  | stuckGridResult k => exact execStuckGridResult_keeps hP (show Sub 0x200008041c5 allBits by unfold Sub; decide) hs h
  | graceExpiry k => exact execGraceExpiry_keeps hP (show Sub 0xa000200008047ed allBits by unfold Sub; decide) hs h
  | nurseDutyEnd k d => exact execNurseDutyEnd_keeps hP (show Sub 0x2000000008043e9 allBits by unfold Sub; decide) hs h
  | nurseSwap k => exact execNurseSwap_keeps hP (show Sub 0x4001 allBits by unfold Sub; decide) hs h
  | nurseReassign k => exact execNurseReassign_keeps hP (show Sub 0x4001 allBits by unfold Sub; decide) hs h
  | initialCalDone failed tables => exact execInitialCalDone_keeps hP (show Sub 0x2000004008043eb allBits by unfold Sub; decide) hs h
  | poolRecal k v => exact execPoolRecal_keeps hP (show Sub 0x1b28f27dbf9bcfff allBits by unfold Sub; decide) hs h
  | recalDone k failed tables => exact execRecalDone_keeps hP (show Sub 0x2000000008043e9 allBits by unfold Sub; decide) hs h
  | readyCheckDone failed => exact execReadyCheckDone_keeps hP (show Sub 0x2000000008043e9 allBits by unfold Sub; decide) hs h
  | majorCycleEnd n => exact execMajorCycleEnd_keeps hP (show Sub 0x1a00a2781f9bc7ef allBits by unfold Sub; decide) hs h
  | nop c => exact execNop_keeps hP (show Sub 0x2000010049b07e9 allBits by unfold Sub; decide) hs h
  | openSlot c => exact execOpenSlot_keeps hP (show Sub 0x2000010049b07e9 allBits by unfold Sub; decide) hs h
  | logicOp c => exact execLogicOp_keeps hP (show Sub 0x2000010049b07e9 allBits by unfold Sub; decide) hs h
  | add c => exact execAdd_keeps hP (show Sub 0x2000010049b07e9 allBits by unfold Sub; decide) hs h
  | subW c => exact execSubW_keeps hP (show Sub 0x2000010049b07e9 allBits by unfold Sub; decide) hs h
  | mov c => exact execMov_keeps hP (show Sub 0x2000010049b07e9 allBits by unfold Sub; decide) hs h
  | shl c => exact execShl_keeps hP (show Sub 0x2000010049b07e9 allBits by unfold Sub; decide) hs h
  | shr c => exact execShr_keeps hP (show Sub 0x2000010049b07e9 allBits by unfold Sub; decide) hs h
  | sar c => exact execSar_keeps hP (show Sub 0x2000010049b07e9 allBits by unfold Sub; decide) hs h
  | mulu c => exact execMulu_keeps hP (show Sub 0x1a00a2781c9b47ef allBits by unfold Sub; decide) hs h
  | muls c => exact execMuls_keeps hP (show Sub 0x1a00a2781c9b47ef allBits by unfold Sub; decide) hs h
  | macu c => exact execMacu_keeps hP (show Sub 0x1a00a2781c9b47ef allBits by unfold Sub; decide) hs h
  | cmpeq c => exact execCmpeq_keeps hP (show Sub 0x2000010049b07e9 allBits by unfold Sub; decide) hs h
  | cmpltu c => exact execCmpltu_keeps hP (show Sub 0x2000010049b07e9 allBits by unfold Sub; decide) hs h
  | cmplts c => exact execCmplts_keeps hP (show Sub 0x2000010049b07e9 allBits by unfold Sub; decide) hs h
  | clz c => exact execClz_keeps hP (show Sub 0x2000010049b07e9 allBits by unfold Sub; decide) hs h
  | dstep c => exact execDstep_keeps hP (show Sub 0x2000010049b07e9 allBits by unfold Sub; decide) hs h
  | ptst c => exact execPtst_keeps hP (show Sub 0x2000010049b07e9 allBits by unfold Sub; decide) hs h
  | pget c => exact execPget_keeps hP (show Sub 0x2000010049b07e9 allBits by unfold Sub; decide) hs h
  | pput c => exact execPput_keeps hP (show Sub 0x2000010049b07e9 allBits by unfold Sub; decide) hs h
  | rdc c => exact execRdc_keeps hP (show Sub 0x2000010049b07e9 allBits by unfold Sub; decide) hs h
  | wrc c => exact execWrc_keeps hP (show Sub 0x2000010049b07e9 allBits by unfold Sub; decide) hs h
  | ldi c => exact execLdi_keeps hP (show Sub 0x2000010049b07e9 allBits by unfold Sub; decide) hs h
  | addi c => exact execAddi_keeps hP (show Sub 0x2000010049b07e9 allBits by unfold Sub; decide) hs h
  | adci c => exact execAdci_keeps hP (show Sub 0x2000010049b07e9 allBits by unfold Sub; decide) hs h
  | andi c => exact execAndi_keeps hP (show Sub 0x2000010049b07e9 allBits by unfold Sub; decide) hs h
  | ori c => exact execOri_keeps hP (show Sub 0x2000010049b07e9 allBits by unfold Sub; decide) hs h
  | xori c => exact execXori_keeps hP (show Sub 0x2000010049b07e9 allBits by unfold Sub; decide) hs h
  | takePop c => exact execTakePop_keeps hP (show Sub 0x1a00a2f81c9b47ef allBits by unfold Sub; decide) hs h
  | takeCopy c => exact execTakeCopy_keeps hP (show Sub 0x1a00a2f81c9b47ef allBits by unfold Sub; decide) hs h
  | takeDiscard c => exact execTakeDiscard_keeps hP (show Sub 0x1a00a2f81c9b47ef allBits by unfold Sub; decide) hs h
  | putRec c => exact execPutRec_keeps hP (show Sub 0x1a00a2f81c9b47ef allBits by unfold Sub; decide) hs h
  | tld c => exact execTld_keeps hP (show Sub 0x1a00a2781c9b47ef allBits by unfold Sub; decide) hs h
  | tgo c => exact execTgo_keeps hP (show Sub 0x1a00a2781c9b47ef allBits by unfold Sub; decide) hs h
  | thlt c => exact execThlt_keeps hP (show Sub 0x1a00a2781c9b47ef allBits by unfold Sub; decide) hs h
  | trd c => exact execTrd_keeps hP (show Sub 0x1a00a2781c9b47ef allBits by unfold Sub; decide) hs h
  | tadd c => exact execTadd_keeps hP (show Sub 0x1a00a2781c9b47ef allBits by unfold Sub; decide) hs h
  | tsub c => exact execTsub_keeps hP (show Sub 0x1a00a2781c9b47ef allBits by unfold Sub; decide) hs h
  | tz c => exact execTz_keeps hP (show Sub 0x1a00a2781c9b47ef allBits by unfold Sub; decide) hs h
  | tge c => exact execTge_keeps hP (show Sub 0x1a00a2781c9b47ef allBits by unfold Sub; decide) hs h
  | tclr c => exact execTclr_keeps hP (show Sub 0x1a00a2781c9b47ef allBits by unfold Sub; decide) hs h
  | tldgo c => exact execTldgo_keeps hP (show Sub 0x1a00a2781c9b47ef allBits by unfold Sub; decide) hs h
  | timerExpire c u => exact execTimerExpire_keeps hP (show Sub 0x20000 allBits by unfold Sub; decide) hs h
  | resultLand c => exact execResultLand_keeps hP (show Sub 0x20000 allBits by unfold Sub; decide) hs h
  | nrd c => exact execNrd_keeps hP (show Sub 0x2000010049b07e9 allBits by unfold Sub; decide) hs h
  | rsnd c => exact execRsnd_keeps hP (show Sub 0x1a00a2781c9b47ef allBits by unfold Sub; decide) hs h
  | rrcv c => exact execRrcv_keeps hP (show Sub 0x2000050049b07e9 allBits by unfold Sub; decide) hs h
  | csnd c => exact execCsnd_keeps hP (show Sub 0x1a00a2781c9b47ef allBits by unfold Sub; decide) hs h
  | crcv c => exact execCrcv_keeps hP (show Sub 0x2000050049b07e9 allBits by unfold Sub; decide) hs h
  | exchangeDeliver id => exact execExchangeDeliver_keeps hP (show Sub 0x4000100000 allBits by unfold Sub; decide) hs h
  | sld c upset => exact execSld_keeps hP (show Sub 0x1a00a2f81cbb47ef allBits by unfold Sub; decide) hs h
  | sst c => exact execSst_keeps hP (show Sub 0x1a00a2f81cbb47ef allBits by unfold Sub; decide) hs h
  | xin c => exact execXin_keeps hP (show Sub 0x2000010049b07e9 allBits by unfold Sub; decide) hs h
  | evt c => exact execEvt_keeps hP (show Sub 0x1a00b2f81d9b47ef allBits by unfold Sub; decide) hs h
  | bxfer c => exact execBxfer_keeps hP (show Sub 0x200001004db07e9 allBits by unfold Sub; decide) hs h
  | btst c => exact execBtst_keeps hP (show Sub 0x2000010049b07e9 allBits by unfold Sub; decide) hs h
  | bxferLine g => exact execBxferLine_keeps hP (show Sub 0x1b60a2781cfb77ff allBits by unfold Sub; decide) hs h
  | instructionParityError c => exact execInstructionParityError_keeps hP (show Sub 0x2000000009603eb allBits by unfold Sub; decide) hs h
  | debugGo n patchEn => exact execDebugGo_keeps hP (show Sub 0x1b28f27dbf9bcfff allBits by unfold Sub; decide) hs h
  | debugAccess n => exact execDebugAccess_keeps hP (show Sub 0x200000000020029 allBits by unfold Sub; decide) hs h
  | scratchWindowAccess g w wr => exact execScratchWindowAccess_keeps hP (show Sub 0x21000a000b203eb allBits by unfold Sub; decide) hs h
  | imemLoWrite c v => exact execImemLoWrite_keeps hP (show Sub 0x20000 allBits by unfold Sub; decide) hs h
  | imemHiCommit c a v => exact execImemHiCommit_keeps hP (show Sub 0x20000000006002b allBits by unfold Sub; decide) hs h
  | patchCommit c => exact execPatchCommit_keeps hP (show Sub 0x2000000008603e9 allBits by unfold Sub; decide) hs h
  | triggerDeliver => exact execTriggerDeliver_keeps hP (show Sub 0x1a00b2781d9b47ef allBits by unfold Sub; decide) hs h
  | trigOutEnd => exact execTrigOutEnd_keeps hP (show Sub 0x100000000000 allBits by unfold Sub; decide) hs h
  | trigInEdge rising fine => exact execTrigInEdge_keeps hP (show Sub 0x80000000000 allBits by unfold Sub; decide) hs h
  | trigInEmit => exact execTrigInEmit_keeps hP (show Sub 0x1a00aa781d9b47ef allBits by unfold Sub; decide) hs h
  | stepFrame start lanes => exact execStepFrame_keeps hP (show Sub 0x2004000008001ed allBits by unfold Sub; decide) hs h
  | eslAlignLost on locked estep => exact execEslAlignLost_keeps hP (show Sub 0x2004000008003e9 allBits by unfold Sub; decide) hs h
  | eslAlignChar estep => exact execEslAlignChar_keeps hP (show Sub 0x2004000008003e9 allBits by unfold Sub; decide) hs h
  | eslCtrlWrite skew v => exact execEslCtrlWrite_keeps hP (show Sub 0x1b28f27dbf9bcfff allBits by unfold Sub; decide) hs h
  | capCtrlWrite n v => exact execCapCtrlWrite_keeps hP (show Sub 0x1b28f27dbf9bcfff allBits by unfold Sub; decide) hs h
  | writerLineWrite n => exact execWriterLineWrite_keeps hP (show Sub 0x1b60a2781cfb77ff allBits by unfold Sub; decide) hs h
  | padTimeout n => exact execPadTimeout_keeps hP (show Sub 0x1b60a2781cfb77ff allBits by unfold Sub; decide) hs h
  | stripeGroupEnter n => exact execStripeGroupEnter_keeps hP (show Sub 0x2008000188003eb allBits by unfold Sub; decide) hs h
  | ownerWrite b v => exact execOwnerWrite_keeps hP (show Sub 0x1b28f27dbf9bcfff allBits by unfold Sub; decide) hs h
  | handoverDone b => exact execHandoverDone_keeps hP (show Sub 0x1b60a2781cfb77ff allBits by unfold Sub; decide) hs h
  | bankFill b v => exact execBankFill_keeps hP (show Sub 0x1b28f27dbf9bcfff allBits by unfold Sub; decide) hs h
  | fillDone b => exact execFillDone_keeps hP (show Sub 0x1b60a2781cfb77ff allBits by unfold Sub; decide) hs h
  | scrubVisit b ups => exact execScrubVisit_keeps hP (show Sub 0x2000000008033e9 allBits by unfold Sub; decide) hs h
  | scrubWriteback b => exact execScrubWriteback_keeps hP (show Sub 0x2000000008033eb allBits by unfold Sub; decide) hs h
  | demote n => exact execDemote_keeps hP (show Sub 0x2000000008000a9 allBits by unfold Sub; decide) hs h
  | restore n => exact execRestore_keeps hP (show Sub 0x2000000008000a9 allBits by unfold Sub; decide) hs h
  | lossRecordWrite n => exact execLossRecordWrite_keeps hP (show Sub 0x2000000000001e9 allBits by unfold Sub; decide) hs h
  | storeFault n code bank => exact execStoreFault_keeps hP (show Sub 0x1a00a2781c9b47ef allBits by unfold Sub; decide) hs h
  | linkTrained p => exact execLinkTrained_keeps hP (show Sub 0x2008000288007eb allBits by unfold Sub; decide) hs h
  | linkDown p => exact execLinkDown_keeps hP (show Sub 0x1a00a2793c9b47ef allBits by unfold Sub; decide) hs h
  | helloSend p => exact execHelloSend_keeps hP (show Sub 0x2000000088003eb allBits by unfold Sub; decide) hs h
  | helloRx p hd h => exact execHelloRx_keeps hP (show Sub 0x1a00a2793c9b47ef allBits by unfold Sub; decide) hs h
  | joinRx p hd ordinal parent => exact execJoinRx_keeps hP (show Sub 0x2008000088003eb allBits by unfold Sub; decide) hs h
  | joinReplyRx p hd ordinal ok engaged => exact execJoinReplyRx_keeps hP (show Sub 0x2008001288007eb allBits by unfold Sub; decide) hs h
  | waggleSend p f => exact execWaggleSend_keeps hP (show Sub 0x2000000088007ef allBits by unfold Sub; decide) hs h
  | markSend p f => exact execMarkSend_keeps hP (show Sub 0x2000000088003eb allBits by unfold Sub; decide) hs h
  | waggleRx p hd a w => exact execWaggleRx_keeps hP (show Sub 0x1a01a27b7c9b47ef allBits by unfold Sub; decide) hs h
  | markRx p hd a f => exact execMarkRx_keeps hP (show Sub 0x2008000088003eb allBits by unfold Sub; decide) hs h
  | acquisitionStep => exact execAcquisitionStep_keeps hP (show Sub 0x2018003608003e9 allBits by unfold Sub; decide) hs h
  | alignedReached => exact execAlignedReached_keeps hP (show Sub 0x2008001288007eb allBits by unfold Sub; decide) hs h
  | ackRx p hd => exact execAckRx_keeps hP (show Sub 0x2008000088003eb allBits by unfold Sub; decide) hs h
  | retryTimeout p => exact execRetryTimeout_keeps hP (show Sub 0x2000000088003eb allBits by unfold Sub; decide) hs h
  | retryExhausted p => exact execRetryExhausted_keeps hP (show Sub 0x1a00a2793c9b47ef allBits by unfold Sub; decide) hs h
  | triggerFrameRx p hd t => exact execTriggerFrameRx_keeps hP (show Sub 0x1a00a2781d9b47ef allBits by unfold Sub; decide) hs h
  | commandFrameRx p hd c => exact execCommandFrameRx_keeps hP (show Sub 0x1a00e2781f9bc7ef allBits by unfold Sub; decide) hs h
  | replyFrameRx p hd r => exact execReplyFrameRx_keeps hP (show Sub 0x1a00a2781c9b47ef allBits by unfold Sub; decide) hs h
  | cmdTimeout p => exact execCmdTimeout_keeps hP (show Sub 0x1a00a2781c9b47ef allBits by unfold Sub; decide) hs h
  | eventFrameRx p hd e => exact execEventFrameRx_keeps hP (show Sub 0x1a00a2783c9b47ef allBits by unfold Sub; decide) hs h
  | lentEnterRx p hd bank fill => exact execLentEnterRx_keeps hP (show Sub 0x2008000088003eb allBits by unfold Sub; decide) hs h
  | lentGrantRx p hd bank ok => exact execLentGrantRx_keeps hP (show Sub 0x2008000188003eb allBits by unfold Sub; decide) hs h
  | lentRetry n => exact execLentRetry_keeps hP (show Sub 0x2008000188003eb allBits by unfold Sub; decide) hs h
  | lentLineRx p hd bank line r0 r1 => exact execLentLineRx_keeps hP (show Sub 0x1b60a2781cfb77ff allBits by unfold Sub; decide) hs h
  | swarmConfigWrite r v => exact execSwarmConfigWrite_keeps hP (show Sub 0x1b28f27dbf9bcfff allBits by unfold Sub; decide) hs h
  | linkRetrain p v => exact execLinkRetrain_keeps hP (show Sub 0x1b28f27dbf9bcfff allBits by unfold Sub; decide) hs h
  | queenStrapChange high => exact execQueenStrapChange_keeps hP (show Sub 0x2008001208007eb allBits by unfold Sub; decide) hs h
  | mapTick => exact execMapTick_keeps hP (show Sub 0x2010000208007e9 allBits by unfold Sub; decide) hs h
  | setRequest d frac => exact execSetRequest_keeps hP (show Sub 0x1b28f27dbf9bcfff allBits by unfold Sub; decide) hs h
  | ppsEdge n rising fine => exact execPpsEdge_keeps hP (show Sub 0x200000060000029 allBits by unfold Sub; decide) hs h
  | ofsSubmit d v => exact execOfsSubmit_keeps hP (show Sub 0x1b28f27dbf9bcfff allBits by unfold Sub; decide) hs h
  | domainSnap d => exact execDomainSnap_keeps hP (show Sub 0x1b28f27dbf9bcfff allBits by unfold Sub; decide) hs h
  | domainStale d => exact execDomainStale_keeps hP (show Sub 0x2000000008003e9 allBits by unfold Sub; decide) hs h
  | synPageStart n => exact execSynPageStart_keeps hP (show Sub 0x1b28f27dbf9bcfff allBits by unfold Sub; decide) hs h
  | bandSearchRequest n v => exact execBandSearchRequest_keeps hP (show Sub 0x1b28f27dbf9bcfff allBits by unfold Sub; decide) hs h
  | bandSearchDone n band tune => exact execBandSearchDone_keeps hP (show Sub 0x2000000808003e9 allBits by unfold Sub; decide) hs h
  | lockFail n => exact execLockFail_keeps hP (show Sub 0x200000080000029 allBits by unfold Sub; decide) hs h
  | profileHop n index slot => exact execProfileHop_keeps hP (show Sub 0x1b28f27dbf9bcfff allBits by unfold Sub; decide) hs h
  | hopDone n => exact execHopDone_keeps hP (show Sub 0x2000000808003e9 allBits by unfold Sub; decide) hs h
  | delayStep n => exact execDelayStep_keeps hP (show Sub 0x200000000000029 allBits by unfold Sub; decide) hs h
  | loopWrite n j v levels => exact execLoopWrite_keeps hP (show Sub 0x1b28f27dbf9bcfff allBits by unfold Sub; decide) hs h
  | synRelock n => exact execSynRelock_keeps hP (show Sub 0x2000000808003e9 allBits by unfold Sub; decide) hs h
  | zqCalMeasure ohms => exact execZqCalMeasure_keeps hP (show Sub 0x2000000000000 allBits by unfold Sub; decide) hs h
  | configReady link early later => exact execConfigReady_keeps hP (show Sub 0x80000400000028 allBits by unfold Sub; decide) hs h
  | bar0BusError addr req => exact execBar0BusError_keeps hP (show Sub 0x20000000000082b allBits by unfold Sub; decide) hs h
  | poisonedWrite target => exact execPoisonedWrite_keeps hP (show Sub 0x20000000000082b allBits by unfold Sub; decide) hs h
  | bar2Read w n => exact execBar2Read_keeps hP (show Sub 0x1b60a2781cfb77ff allBits by unfold Sub; decide) hs h
  | bar2Write w ds => exact execBar2Write_keeps hP (show Sub 0x1b60a2781cfb77ff allBits by unfold Sub; decide) hs h
  | msixUnmask v enable funcMask => exact execMsixUnmask_keeps hP (show Sub 0x28 allBits by unfold Sub; decide) hs h
  | dmaModeWrite v => exact execDmaModeWrite_keeps hP (show Sub 0x1b28f27dbf9bcfff allBits by unfold Sub; decide) hs h
  | ringWrite c r v => exact execRingWrite_keeps hP (show Sub 0x1b28f27dbf9bcfff allBits by unfold Sub; decide) hs h
  | doorbell c pi => exact execDoorbell_keeps hP (show Sub 0x1b28f27dbf9bcfff allBits by unfold Sub; decide) hs h
  | descriptorFetch c r => exact execDescriptorFetch_keeps hP (show Sub 0x1b60a2781cfb77ff allBits by unfold Sub; decide) hs h
  | dmaDataMove c j k bytes => exact execDmaDataMove_keeps hP (show Sub 0x1b60a2781cfb77ff allBits by unfold Sub; decide) hs h
  | descriptorComplete c k => exact execDescriptorComplete_keeps hP (show Sub 0x1b60a2781cfb77ff allBits by unfold Sub; decide) hs h
  | dmaEnable c v => exact execDmaEnable_keeps hP (show Sub 0x1b28f27dbf9bcfff allBits by unfold Sub; decide) hs h
  | dmaPause c v => exact execDmaPause_keeps hP (show Sub 0x1b28f27dbf9bcfff allBits by unfold Sub; decide) hs h
  | dmaPaused c => exact execDmaPaused_keeps hP (show Sub 0x2000000008007f9 allBits by unfold Sub; decide) hs h
  | dmaResume c v => exact execDmaResume_keeps hP (show Sub 0x1b28f27dbf9bcfff allBits by unfold Sub; decide) hs h
  | dmaAbort c v => exact execDmaAbort_keeps hP (show Sub 0x1b28f27dbf9bcfff allBits by unfold Sub; decide) hs h
  | dmaClear c v => exact execDmaClear_keeps hP (show Sub 0x1b28f27dbf9bcfff allBits by unfold Sub; decide) hs h
  | dmaStall c => exact execDmaStall_keeps hP (show Sub 0x3200000008007f9 allBits by unfold Sub; decide) hs h
  | completionTimeout c fetch => exact execCompletionTimeout_keeps hP (show Sub 0x3200000008007f9 allBits by unfold Sub; decide) hs h
  | pcieLinkDown => exact execPcieLinkDown_keeps hP (show Sub 0x2200000008007f9 allBits by unfold Sub; decide) hs h
  | keyUnlock addr => exact execKeyUnlock_keeps hP (show Sub 0x1b38f2fdbfbfcfff allBits by unfold Sub; decide) hs h
  | rcRead addr => exact execRcRead_keeps hP (show Sub 0x21000a000b203eb allBits by unfold Sub; decide) hs h
  | shadowWrite addr v levels => exact execShadowWrite_keeps hP (show Sub 0x1b38f2fdbfbfcfff allBits by unfold Sub; decide) hs h
  | shadowApply addr inBand => exact execShadowApply_keeps hP (show Sub 0x2000000808007e9 allBits by unfold Sub; decide) hs h
  | freezeRelease addr => exact execFreezeRelease_keeps hP (show Sub 0x1b38f2fdbfbfcfff allBits by unfold Sub; decide) hs h
  | registerWrite addr v levels => exact execRegisterWrite_keeps hP (show Sub 0x1b38f2fdbfbfcfff allBits by unfold Sub; decide) hs h
  | chPageCtrlWrite k run level => exact execChPageCtrlWrite_keeps hP (show Sub 0x1b28f27dbf9bcfff allBits by unfold Sub; decide) hs h
  | journalSelect n => exact execJournalSelect_keeps hP (show Sub 0x1b28f27dbf9bcfff allBits by unfold Sub; decide) hs h
  | journalReadAdvance => exact execJournalReadAdvance_keeps hP (show Sub 0x20000000000002b allBits by unfold Sub; decide) hs h
  | injectArm v => exact execInjectArm_keeps hP (show Sub 0x1b28f27dbf9bcfff allBits by unfold Sub; decide) hs h
  | injectCancel v => exact execInjectCancel_keeps hP (show Sub 0x1b28f27dbf9bcfff allBits by unfold Sub; decide) hs h
  | imgWrite r v => exact execImgWrite_keeps hP (show Sub 0x1b28f27dbf9bcfff allBits by unfold Sub; decide) hs h
  | mboxOutWrite v => exact execMboxOutWrite_keeps hP (show Sub 0x1b28f27dbf9bcfff allBits by unfold Sub; decide) hs h
  | tempUpdate v => exact execTempUpdate_keeps hP (show Sub 0x1a00a2789c9b47ef allBits by unfold Sub; decide) hs h
  | chipUe code loc => exact execChipUe_keeps hP (show Sub 0x1a00a2781c9b47ef allBits by unfold Sub; decide) hs h
  | monitorRelease => exact execMonitorRelease_keeps hP (show Sub 0x400000000 allBits by unfold Sub; decide) hs h
  | railFail rail good => exact execRailFail_keeps hP (show Sub 0x404000400000003 allBits by unfold Sub; decide) hs h
  | resetNAssert => exact execResetNAssert_keeps hP (show Sub 0x400000400000000 allBits by unfold Sub; decide) hs h
  | resetRelease pin strap bad levels ohms => exact execResetRelease_keeps hP (show Sub 0xa02820d288847ef allBits by unfold Sub; decide) hs h
  | selfTestDone bad => exact execSelfTestDone_keeps hP (show Sub 0x400003001 allBits by unfold Sub; decide) hs h
  | perstN => exact execPerstN_keeps hP (show Sub 0xba0020c00804fff allBits by unfold Sub; decide) hs h
  | hotReset => exact execHotReset_keeps hP (show Sub 0xba0020c00804fff allBits by unfold Sub; decide) hs h
  | clusterEntryDone => exact execClusterEntryDone_keeps hP (show Sub 0x400000000 allBits by unfold Sub; decide) hs h
  | wakeComplete levels => exact execWakeComplete_keeps hP (show Sub 0x2008005008043eb allBits by unfold Sub; decide) hs h
  | svcNop => exact execSvcNop_keeps hP (show Sub 0x9 allBits by unfold Sub; decide) hs h
  | svcReadId index => exact execSvcReadId_keeps hP (show Sub 0x8000000000009 allBits by unfold Sub; decide) hs h
  | svcReadHealth => exact execSvcReadHealth_keeps hP (show Sub 0x8000000000009 allBits by unfold Sub; decide) hs h
  | svcReadMbox => exact execSvcReadMbox_keeps hP (show Sub 0x208000000000029 allBits by unfold Sub; decide) hs h
  | svcMboxLo v => exact execSvcMboxLo_keeps hP (show Sub 0x208000000000029 allBits by unfold Sub; decide) hs h
  | svcMboxHi v => exact execSvcMboxHi_keeps hP (show Sub 0x208000000000029 allBits by unfold Sub; decide) hs h
  | svcCmd id wake => exact execSvcCmd_keeps hP (show Sub 0x1a08f27cbc9b47ef allBits by unfold Sub; decide) hs h
  | svcReadCmd => exact execSvcReadCmd_keeps hP (show Sub 0x208000000000029 allBits by unfold Sub; decide) hs h
  | svcHold => exact execSvcHold_keeps hP (show Sub 0x6080004008003e9 allBits by unfold Sub; decide) hs h
  | svcRelease => exact execSvcRelease_keeps hP (show Sub 0x2080004008003e9 allBits by unfold Sub; decide) hs h
  | svcReservedOp => exact execSvcReservedOp_keeps hP (show Sub 0x208000000000029 allBits by unfold Sub; decide) hs h
  | svcFrameDiscard => exact execSvcFrameDiscard_keeps hP (show Sub 0x200000000000029 allBits by unfold Sub; decide) hs h
  | testEnHigh => exact execTestEnHigh_keeps hP (show Sub 0x400000400000000 allBits by unfold Sub; decide) hs h
  | tapReset => exact execTapReset_keeps hP (show Sub 0x404000400000000 allBits by unfold Sub; decide) hs h
  | extest pins next => exact execExtest_keeps hP (show Sub 0x404000400000008 allBits by unfold Sub; decide) hs h
  | idcode => exact execIdcode_keeps hP (show Sub 0x404000400000008 allBits by unfold Sub; decide) hs h
  | samplePreload pins next => exact execSamplePreload_keeps hP (show Sub 0x404000400000008 allBits by unfold Sub; decide) hs h
  | clamp => exact execClamp_keeps hP (show Sub 0x404000400000008 allBits by unfold Sub; decide) hs h
  | highz => exact execHighz_keeps hP (show Sub 0x404000400000008 allBits by unfold Sub; decide) hs h
  | extestPulse pins next => exact execExtestPulse_keeps hP (show Sub 0x404000400000008 allBits by unfold Sub; decide) hs h
  | extestTrain pins next => exact execExtestTrain_keeps hP (show Sub 0x404000400000008 allBits by unfold Sub; decide) hs h
  | bypass => exact execBypass_keeps hP (show Sub 0x404000400000008 allBits by unfold Sub; decide) hs h
  | comparatorTransition k => exact execComparatorTransition_keeps hP (show Sub 0x20000000080c3e9 allBits by unfold Sub; decide) hs h
  | illegal c => exact execIllegal_keeps hP (show Sub 0x1a00a2781c9b47ef allBits by unfold Sub; decide) hs h
  | ackSend p => exact execAckSend_keeps hP (show Sub 0x2000000088003eb allBits by unfold Sub; decide) hs h
  | synPageStop n => exact execSynPageStop_keeps hP (show Sub 0x1b28f27dbf9bcfff allBits by unfold Sub; decide) hs h

/-- What every step keeps. -/
theorem step_keeps (hP : Keeps allBits P) (hq : ∀ s q, P s → P { s with pending := q }) {s post : State} (hs : P s) (h : step s = .next post) :
    P post := by
  unfold step at h
  split at h
  · exact keeps_next h (State.tick_keeps hP (show Sub 0x1b79f2fffffbf7ff allBits by unfold Sub; decide) hs)
  · exact exec_keeps hP (hq _ _ hs) h

end Sys2Proof.Machine
end

