-- ==== Sys2Proof/Laws/Regs.lean ====
section
/-! SUPPORT. Laws of registers and fields: what a read sees after a write, that every operation keeps the canonical form, and what the journal, an
error and a status bit leave of the other registers. -/
namespace Sys2Proof.Machine
open Sys2Proof

/-! Bit fields -/

theorem getBits_lt (r : BitVec 32) (lo w : Nat) : getBits r lo w < 2 ^ w := Nat.mod_lt _ (Nat.two_pow_pos w)

theorem getBits_testBit (r : BitVec 32) (lo w i : Nat) : (getBits r lo w).testBit i = (decide (i < w) && r.getLsbD (lo + i)) := by
  simp only [getBits, Nat.testBit_mod_two_pow, Nat.testBit_shiftRight, BitVec.getLsbD]

theorem setBits_getLsbD (r : BitVec 32) (lo w v j : Nat) (hj : j < 32) :
    (setBits r lo w v).getLsbD j = if lo ≤ j ∧ j < lo + w then v.testBit (j - lo) else r.getLsbD j := by
  have h1 : ((2 ^ w - 1) <<< lo).testBit j = decide (lo ≤ j ∧ j < lo + w) := by
    simp only [Nat.testBit_shiftLeft, Nat.testBit_two_pow_sub_one]
    by_cases ha : lo ≤ j <;> simp [ha]; omega
  have h2 : ((v % 2 ^ w) <<< lo).testBit j = (decide (lo ≤ j ∧ j < lo + w) && v.testBit (j - lo)) := by
    simp only [Nat.testBit_shiftLeft, Nat.testBit_mod_two_pow]
    by_cases ha : lo ≤ j <;> simp [ha] <;> (by_cases hb : j - lo < w <;> simp [hb] <;> intros <;> omega)
  simp only [setBits, BitVec.getLsbD_or, BitVec.getLsbD_and, BitVec.getLsbD_not, BitVec.getLsbD_ofNat, hj, decide_true, Bool.true_and, h1, h2]
  by_cases hc : lo ≤ j ∧ j < lo + w <;> simp [hc]

/-- A field read back after it was set. -/
theorem getBits_setBits_same (r : BitVec 32) (lo w v : Nat) (h : lo + w ≤ 32) : getBits (setBits r lo w v) lo w = v % 2 ^ w := by
  apply Nat.eq_of_testBit_eq
  intro i
  rw [getBits_testBit, Nat.testBit_mod_two_pow]
  by_cases hi : i < w
  · simp only [hi, decide_true, Bool.true_and]
    rw [setBits_getLsbD _ _ _ _ _ (by omega)]
    simp [hi]
  · simp [hi]

/-- Another field of the register is left as it is. -/
theorem getBits_setBits_other (r : BitVec 32) (lo w v lo' w' : Nat) (h : lo' + w' ≤ lo ∨ lo + w ≤ lo') (h' : lo' + w' ≤ 32) :
    getBits (setBits r lo w v) lo' w' = getBits r lo' w' := by
  apply Nat.eq_of_testBit_eq
  intro i
  rw [getBits_testBit, getBits_testBit]
  by_cases hi : i < w'
  · simp only [hi, decide_true, Bool.true_and]
    rw [setBits_getLsbD _ _ _ _ _ (by omega)]
    have : ¬ (lo ≤ lo' + i ∧ lo' + i < lo + w) := by omega
    simp [this]
  · simp [hi]

/-! The canonical form is kept by everything -/

/-- Every operation keeps the canonical form of every table. -/
theorem canonical_keeps (A : Nat) : Keeps A State.Canonical := by
  constructor <;> intro _
  all_goals try (intros; rename_i h; exact { h with })
  all_goals
    intros; rename_i h
    cases h
    constructor <;> first
      | assumption
      | exact Tab.set_wf _ _ _ (by assumption)
      | exact Tab.update_wf _ _ (by assumption)
      | exact Tab.keep_wf _ _ (by assumption)
      | exact Tab.filter_wf _ _ (by assumption)
      | exact Tab.wf_nil

/-! Reads after writes -/

theorem State.rd_wr {s : State} (h : s.Canonical) (a : Nat) (v : Dword) (b : Nat) : (s.wr a v).rd b = if b = a then v else s.rd b :=
  Tab.get_set _ _ _ _ h.regs

theorem State.rd_wr_same {s : State} (h : s.Canonical) (a : Nat) (v : Dword) : (s.wr a v).rd a = v := by rw [State.rd_wr h, if_pos rfl]

theorem State.rd_wr_ne {s : State} (h : s.Canonical) {a b : Nat} (v : Dword) (hb : b ≠ a) : (s.wr a v).rd b = s.rd b := by
  rw [State.rd_wr h, if_neg hb]

theorem State.Canonical.wr {s : State} (h : s.Canonical) (a : Nat) (v : Dword) : (s.wr a v).Canonical := { h with regs := Tab.set_wf _ _ _ h.regs }

theorem State.Canonical.setFld {s : State} (h : s.Canonical) (base : Nat) (f : Fld) (v : Nat) : (s.setFld base f v).Canonical := h.wr _ _

theorem State.rd_setFld {s : State} (h : s.Canonical) (base : Nat) (f : Fld) (v b : Nat) :
    (s.setFld base f v).rd b = if b = base + f.off then setBits (s.rd (base + f.off)) f.lo f.width v else s.rd b := State.rd_wr h _ _ _

/-- A field read back after it was set. -/
theorem State.fld_setFld_same {s : State} (h : s.Canonical) (base : Nat) (f : Fld) (v : Nat) (hf : f.lo + f.width ≤ 32) :
    (s.setFld base f v).fld base f = v % 2 ^ f.width := by
  unfold State.fld
  rw [State.rd_setFld h, if_pos rfl, getBits_setBits_same _ _ _ _ hf]

/-- A field of another register, or other bits of the register, are left as they are. -/
theorem State.fld_setFld_other {s : State} (h : s.Canonical) (base base' : Nat) (f f' : Fld) (v : Nat)
    (hne : base' + f'.off ≠ base + f.off ∨ ((f'.lo + f'.width ≤ f.lo ∨ f.lo + f.width ≤ f'.lo) ∧ f'.lo + f'.width ≤ 32)) :
    (s.setFld base f v).fld base' f' = s.fld base' f' := by
  unfold State.fld
  rw [State.rd_setFld h]
  split
  · next e =>
    rcases hne with hne | ⟨hd, hw⟩
    · exact absurd e hne
    · rw [getBits_setBits_other _ _ _ _ _ _ hd hw, e]
  · rfl

/-! Message signalling leaves every register; a status bit sets its own field and no other -/

theorem State.signal_regs (s : State) (v : Nat) : (s.signal v).regs = s.regs :=
  State.signal_keeps (Keeps.same_regs (A := 0x28) (by decide) s.regs) (show Sub _ _ by unfold Sub; decide) rfl

theorem State.withIrq_rd (s : State) (base : Nat) (g : State → State) (a : Nat) : (s.withIrq base g).rd a = (g s).rd a := by
  unfold State.withIrq State.rd
  dsimp only
  split
  · rw [State.signal_regs]
  · rfl

/-- The note of what an RC register takes in this cycle leaves every register. -/
theorem State.rd_setFresh (s : State) (a : Nat) (x : Fresh) (b : Nat) : (s.setFresh a x).rd b = s.rd b := rfl

theorem State.Canonical.setFresh {s : State} (h : s.Canonical) (a : Nat) (x : Fresh) : (s.setFresh a x).Canonical :=
  { h with rcNew := Tab.set_wf _ _ _ h.rcNew }

theorem State.Canonical.setRc {s : State} (h : s.Canonical) (base : Nat) (f : Fld) (v : Nat) : (s.setRc base f v).Canonical :=
  (h.setFresh _ _).setFld _ _ _

theorem State.rd_setRc {s : State} (h : s.Canonical) (base : Nat) (f : Fld) (v b : Nat) :
    (s.setRc base f v).rd b = if b = base + f.off then setBits (s.rd (base + f.off)) f.lo f.width v else s.rd b :=
  State.rd_setFld (h.setFresh _ _) base f v b

theorem State.rd_post {s : State} (h : s.Canonical) (base : Nat) (f : Fld) (b : Nat) :
    (s.post base f).rd b = if b = base + f.off then setBits (s.rd (base + f.off)) f.lo f.width 1 else s.rd b := by
  unfold State.post
  rw [State.withIrq_rd, State.rd_setRc h]

theorem State.rd_raiseAt_other {s : State} (h : s.Canonical) (base : Nat) (f : Fld) (off agent b : Nat)
    (h1 : b ≠ base + f.off) (h2 : b ≠ base + 0x014) : (s.raiseAt base f off agent).rd b = s.rd b := by
  unfold State.raiseAt
  rw [State.withIrq_rd]
  dsimp only
  rw [State.rd_wr ((h.setRc _ _ _).setFresh _ _), if_neg h2, State.rd_setFresh, State.rd_setRc h, if_neg h1]

/-- An error sets its bit of PAGE_ERR (R394). -/
theorem State.fld_raiseAt_same {s : State} (h : s.Canonical) (base : Nat) (f : Fld) (off agent : Nat) (hf : f.lo + f.width ≤ 32) (ho : f.off ≠ 0x014)
    (hw : 0 < f.width) : (s.raiseAt base f off agent).fld base f = 1 := by
  have h1 : 1 % 2 ^ f.width = 1 := Nat.mod_eq_of_lt (Nat.one_lt_two_pow (by omega))
  unfold State.fld State.raiseAt
  rw [State.withIrq_rd]
  dsimp only
  rw [State.rd_wr ((h.setRc _ _ _).setFresh _ _), if_neg (by omega), State.rd_setFresh, State.rd_setRc h, if_pos rfl,
    getBits_setBits_same _ _ _ _ hf, h1]

/-! The journal touches its own page and, by the copy, the page of region 0 -/

/-- Not one of the registers that show what a record writer of region `n` holds and what it has lost. -/
def OffUnit (n a : Nat) : Prop :=
  a ≠ regPage n + REG.LOST_LO.off ∧ a ≠ regPage n + REG.LOST_LO.off + 4 ∧ a ≠ regPage n + REG.LEVELS_CAP_BUF.off
    ∧ a ≠ regPage n + REG.live_REC_STALLED.off

/-- Not one of the registers that an entry of the journal can change: its counts and its status, and by the copy those of region 0's writer. -/
def OffJournal (a : Nat) : Prop :=
  (a ≠ jrnlPage + JRNL.WR_COUNT.off ∧ a ≠ jrnlPage + JRNL.OLDEST.off ∧ a ≠ jrnlPage + JRNL.st_OVERWRITE.off) ∧ OffUnit 0 a

/-- Canonical, with register `a` at `v`. -/
abbrev Holds (a : Nat) (v : Dword) (t : State) : Prop := t.Canonical ∧ t.rd a = v

theorem Holds.wr {a b : Nat} {v w : Dword} {s : State} (h : Holds a v s) (hab : a ≠ b) : Holds a v (s.wr b w) :=
  ⟨h.1.wr _ _, by rw [State.rd_wr_ne h.1 _ hab]; exact h.2⟩

theorem Holds.of_regs {a : Nat} {v : Dword} {s t : State} (h : Holds a v s) (hc : t.Canonical) (hr : t.regs = s.regs) : Holds a v t :=
  ⟨hc, by unfold State.rd; rw [hr]; exact h.2⟩

theorem Holds.post {a : Nat} {v : Dword} {s : State} (h : Holds a v s) {base : Nat} {f : Fld} (hab : a ≠ base + f.off) : Holds a v (s.post base f) :=
  ⟨State.post_keeps (canonical_keeps _) (Sub.refl _) h.1, by rw [State.rd_post h.1, if_neg hab]; exact h.2⟩

theorem Holds.setFld {a : Nat} {v : Dword} {s : State} (h : Holds a v s) {base w : Nat} {f : Fld} (hab : a ≠ base + f.off) :
    Holds a v (s.setFld base f w) := h.wr hab

theorem Holds.setPair {a : Nat} {v : Dword} {s : State} (h : Holds a v s) {base w : Nat} {f : Fld} (h1 : a ≠ base + f.off)
    (h2 : a ≠ base + f.off + 4) : Holds a v (s.setPair base f w) := (h.wr h1).wr h2

theorem Holds.markLoss {a : Nat} {v : Dword} {s : State} (h : Holds a v s) {n : Nat} : Holds a v (s.markLoss n) :=
  h.of_regs { h.1 with caps := Tab.set_wf _ _ _ h.1.caps } rfl

theorem Holds.lose {a : Nat} {v : Dword} {s : State} (h : Holds a v s) {n cause kind src count : Nat} (ha : OffUnit n a) :
    Holds a v (s.lose n cause kind src count) := by
  unfold State.lose
  dsimp only
  have h1 : Holds a v (s.setLosses n (addLoss cause kind src count s.now (s.lossesOf n))) :=
    h.of_regs { h.1 with losses := Tab.set_wf _ _ _ h.1.losses } rfl
  have h2 := h1.setPair (base := regPage n) (f := REG.LOST_LO) (w := s.pair (regPage n) REG.LOST_LO + count) ha.1 ha.2.1
  refine Holds.markLoss ?_
  split
  · exact h2
  · exact h2.setFld ha.2.2.2

theorem Holds.showLevels {a : Nat} {v : Dword} {s : State} (h : Holds a v s) {n : Nat} (ha : OffUnit n a) : Holds a v (s.showLevels n) := by
  unfold State.showLevels
  exact Holds.setFld (Holds.setFld h ha.2.2.1) ha.2.2.1

theorem Holds.unitGroup {a : Nat} {v : Dword} {s : State} (h : Holds a v s) {n ty src : Nat} {flag : Bool} {t : DTime} {cs : List Cont}
    (ha : OffUnit n a) : Holds a v (s.unitGroup n ty src flag t cs) := by
  unfold State.unitGroup
  split
  · split
    · exact h.lose ha
    · split
      · exact h.lose ha
      · split
        next g s' e =>
          have hk : Holds a v s' := by
            refine keeps_pair e (P := Holds a v) (h.of_regs ?_ ?_)
            · exact State.formGroup_keeps (canonical_keeps _) (Sub.refl _) h.1
            · exact State.formGroup_keeps (Keeps.same_regs (by decide) s.regs) (Sub.refl _) rfl
          unfold State.enqueueRec
          exact Holds.showLevels (hk.of_regs (State.pushWriter_keeps (canonical_keeps _) (Sub.refl _) hk.1)
            (State.pushWriter_keeps (Keeps.same_regs (by decide) s'.regs) (Sub.refl _) rfl)) ha
  · exact h

theorem Holds.journalAppend {a : Nat} {v : Dword} {s : State} (h : Holds a v s) {g : List Rec} (ha : OffJournal a) : Holds a v (s.journalAppend g) := by
  unfold State.journalAppend
  dsimp only
  have h3 : ∀ t : State, Holds a v t → Holds a v ((t.addWrap jrnlPage JRNL.WR_COUNT g.length).setFld jrnlPage JRNL.OLDEST
      ((t.addWrap jrnlPage JRNL.WR_COUNT g.length).fld jrnlPage JRNL.WR_COUNT + 2 ^ 32 - recsOf (t.addWrap jrnlPage JRNL.WR_COUNT g.length).journal)) :=
    fun t ht => Holds.setFld (Holds.setFld ht ha.1.1) ha.1.2.1
  have h4 := h3 { s with journal := dropGroups (4096 - g.length) s.journal ++ [g] } (h.of_regs { h.1 with } rfl)
  split
  · exact Holds.post h4 ha.1.2.2
  · exact h4

theorem Holds.journalGroup {a : Nat} {v : Dword} {s : State} (h : Holds a v s) {ty src : Nat} {flag : Bool} {t : DTime} {cs : List Cont}
    (ha : OffJournal a) : Holds a v (s.journalGroup ty src flag t cs) := by
  unfold State.journalGroup
  split
  next pre seq s' e =>
    have hk : Holds a v s' := by
      refine keeps_pair₂ e (P := Holds a v) (h.of_regs ?_ ?_)
      · exact State.takeSeq_keeps (canonical_keeps _) (Sub.refl _) h.1
      · exact State.takeSeq_keeps (Keeps.same_regs (by decide) s.regs) (Sub.refl _) rfl
    dsimp only
    have h2 : ∀ g, Holds a v (s'.journalGroups pre g) := by
      intro g
      unfold State.journalGroups
      split
      · exact hk.journalAppend ha
      · exact (hk.journalAppend ha).journalAppend ha
    split
    · exact (h2 _).unitGroup ha.2
    · exact h2 _

/-- A journal entry leaves every register off the journal's page and region 0's. -/
theorem Holds.journalAt {a : Nat} {v : Dword} {s : State} (h : Holds a v s) {t : DTime} {k : JKind} {g : Agent} {id off : Nat} {o : JOut} {w : Nat}
    (ha : OffJournal a) : Holds a v (s.journalAt t k g id off o w) := h.journalGroup ha

theorem Holds.entry {a : Nat} {v : Dword} {s : State} (h : Holds a v s) {k : JKind} {g : Agent} {off : Nat} {o : JOut} {w : Nat}
    (ha : OffJournal a) : Holds a v (s.entry k g off o w) := h.journalGroup ha

theorem Holds.unitEvent {a : Nat} {v : Dword} {s : State} (h : Holds a v s) {base : Nat} (ha : OffJournal a) : Holds a v (s.unitEvent base) := h.entry ha

theorem Holds.raiseAt {a : Nat} {v : Dword} {s : State} (h : Holds a v s) {base off agent : Nat} {f : Fld} (h1 : a ≠ base + f.off)
    (h2 : a ≠ base + 0x014) : Holds a v (s.raiseAt base f off agent) :=
  ⟨State.raiseAt_keeps (canonical_keeps _) (Sub.refl _) h.1, by rw [State.rd_raiseAt_other h.1 _ _ _ _ _ h1 h2]; exact h.2⟩

/-- What an operation of mask `A` leaves of the CHIP page: every register, where the mask says that it writes none of it. -/
theorem Keeps.chipHolds {A a : Nat} {v : Dword} (hA : A &&& 0x400000000000002 = 0) (ha : a < 0x1000) : Keeps A (Holds a v) := by
  have hc := canonical_keeps A
  constructor <;> intro hm
  case wr => intro s b w hb h; exact h.wr (by omega)
  case wrChip => exact absurd (no_bits hm hA) (by decide)
  case regsKeep => exact absurd (no_bits hm hA) (by decide)
  case regsNone => exact absurd (no_bits hm hA) (by decide)
  case wiped => exact absurd (no_bits hm hA) (by decide)
  all_goals try (intros; rename_i h; exact ⟨{ h.1 with }, h.2⟩)
  all_goals
    intros; rename_i h
    refine ⟨?_, h.2⟩
    cases h.1
    constructor <;> first
      | assumption
      | exact Tab.set_wf _ _ _ (by assumption)
      | exact Tab.update_wf _ _ (by assumption)
      | exact Tab.keep_wf _ _ (by assumption)
      | exact Tab.filter_wf _ _ (by assumption)
      | exact Tab.wf_nil

end Sys2Proof.Machine
end

