-- ==== Sys2Proof/Laws/State.lean ====
section
/-! SUPPORT. What each plain update of the state does to each field: one lemma per field that it leaves, true by unfolding, and one per table
that says what is read back. -/
namespace Sys2Proof.Machine

/-! wr changes regs only. -/

@[simp] theorem State.wr_pending (s : State) (a : Nat) (v : Dword) : (s.wr a v).pending = s.pending := rfl
@[simp] theorem State.wr_time (s : State) (a : Nat) (v : Dword) : (s.wr a v).time = s.time := rfl
@[simp] theorem State.wr_power (s : State) (a : Nat) (v : Dword) : (s.wr a v).power = s.power := rfl
@[simp] theorem State.wr_run (s : State) (a : Nat) (v : Dword) : (s.wr a v).run = s.run := rfl
@[simp] theorem State.wr_rcNew (s : State) (a : Nat) (v : Dword) : (s.wr a v).rcNew = s.rcNew := rfl
@[simp] theorem State.wr_shadows (s : State) (a : Nat) (v : Dword) : (s.wr a v).shadows = s.shadows := rfl
@[simp] theorem State.wr_keys (s : State) (a : Nat) (v : Dword) : (s.wr a v).keys = s.keys := rfl
@[simp] theorem State.wr_journal (s : State) (a : Nat) (v : Dword) : (s.wr a v).journal = s.journal := rfl
@[simp] theorem State.wr_streams (s : State) (a : Nat) (v : Dword) : (s.wr a v).streams = s.streams := rfl
@[simp] theorem State.wr_store (s : State) (a : Nat) (v : Dword) : (s.wr a v).store = s.store := rfl
@[simp] theorem State.wr_banks (s : State) (a : Nat) (v : Dword) : (s.wr a v).banks = s.banks := rfl
@[simp] theorem State.wr_reqs (s : State) (a : Nat) (v : Dword) : (s.wr a v).reqs = s.reqs := rfl
@[simp] theorem State.wr_lanes (s : State) (a : Nat) (v : Dword) : (s.wr a v).lanes = s.lanes := rfl
@[simp] theorem State.wr_writers (s : State) (a : Nat) (v : Dword) : (s.wr a v).writers = s.writers := rfl
@[simp] theorem State.wr_losses (s : State) (a : Nat) (v : Dword) : (s.wr a v).losses = s.losses := rfl
@[simp] theorem State.wr_recordingRegions (s : State) (a : Nat) (v : Dword) : (s.wr a v).recordingRegions = s.recordingRegions := rfl
@[simp] theorem State.wr_chans (s : State) (a : Nat) (v : Dword) : (s.wr a v).chans = s.chans := rfl
@[simp] theorem State.wr_fifos (s : State) (a : Nat) (v : Dword) : (s.wr a v).fifos = s.fifos := rfl
@[simp] theorem State.wr_cells (s : State) (a : Nat) (v : Dword) : (s.wr a v).cells = s.cells := rfl
@[simp] theorem State.wr_imem (s : State) (a : Nat) (v : Dword) : (s.wr a v).imem = s.imem := rfl
@[simp] theorem State.wr_scratch (s : State) (a : Nat) (v : Dword) : (s.wr a v).scratch = s.scratch := rfl
@[simp] theorem State.wr_stores (s : State) (a : Nat) (v : Dword) : (s.wr a v).stores = s.stores := rfl
@[simp] theorem State.wr_exch (s : State) (a : Nat) (v : Dword) : (s.wr a v).exch = s.exch := rfl
@[simp] theorem State.wr_sent (s : State) (a : Nat) (v : Dword) : (s.wr a v).sent = s.sent := rfl
@[simp] theorem State.wr_slotUse (s : State) (a : Nat) (v : Dword) : (s.wr a v).slotUse = s.slotUse := rfl
@[simp] theorem State.wr_heldAcc (s : State) (a : Nat) (v : Dword) : (s.wr a v).heldAcc = s.heldAcc := rfl
@[simp] theorem State.wr_engines (s : State) (a : Nat) (v : Dword) : (s.wr a v).engines = s.engines := rfl
@[simp] theorem State.wr_regions (s : State) (a : Nat) (v : Dword) : (s.wr a v).regions = s.regions := rfl
@[simp] theorem State.wr_cellInit (s : State) (a : Nat) (v : Dword) : (s.wr a v).cellInit = s.cellInit := rfl
@[simp] theorem State.wr_insts (s : State) (a : Nat) (v : Dword) : (s.wr a v).insts = s.insts := rfl
@[simp] theorem State.wr_lineUses (s : State) (a : Nat) (v : Dword) : (s.wr a v).lineUses = s.lineUses := rfl
@[simp] theorem State.wr_summaries (s : State) (a : Nat) (v : Dword) : (s.wr a v).summaries = s.summaries := rfl
@[simp] theorem State.wr_quals (s : State) (a : Nat) (v : Dword) : (s.wr a v).quals = s.quals := rfl
@[simp] theorem State.wr_winCur (s : State) (a : Nat) (v : Dword) : (s.wr a v).winCur = s.winCur := rfl
@[simp] theorem State.wr_winShown (s : State) (a : Nat) (v : Dword) : (s.wr a v).winShown = s.winShown := rfl
@[simp] theorem State.wr_trigIn (s : State) (a : Nat) (v : Dword) : (s.wr a v).trigIn = s.trigIn := rfl
@[simp] theorem State.wr_trigOut (s : State) (a : Nat) (v : Dword) : (s.wr a v).trigOut = s.trigOut := rfl
@[simp] theorem State.wr_trigs (s : State) (a : Nat) (v : Dword) : (s.wr a v).trigs = s.trigs := rfl
@[simp] theorem State.wr_offers (s : State) (a : Nat) (v : Dword) : (s.wr a v).offers = s.offers := rfl
@[simp] theorem State.wr_esl (s : State) (a : Nat) (v : Dword) : (s.wr a v).esl = s.esl := rfl
@[simp] theorem State.wr_caps (s : State) (a : Nat) (v : Dword) : (s.wr a v).caps = s.caps := rfl
@[simp] theorem State.wr_openGroups (s : State) (a : Nat) (v : Dword) : (s.wr a v).openGroups = s.openGroups := rfl
@[simp] theorem State.wr_links (s : State) (a : Nat) (v : Dword) : (s.wr a v).links = s.links := rfl
@[simp] theorem State.wr_remotes (s : State) (a : Nat) (v : Dword) : (s.wr a v).remotes = s.remotes := rfl
@[simp] theorem State.wr_swarm (s : State) (a : Nat) (v : Dword) : (s.wr a v).swarm = s.swarm := rfl
@[simp] theorem State.wr_doms (s : State) (a : Nat) (v : Dword) : (s.wr a v).doms = s.doms := rfl
@[simp] theorem State.wr_pps (s : State) (a : Nat) (v : Dword) : (s.wr a v).pps = s.pps := rfl
@[simp] theorem State.wr_mapTicks (s : State) (a : Nat) (v : Dword) : (s.wr a v).mapTicks = s.mapTicks := rfl
@[simp] theorem State.wr_syns (s : State) (a : Nat) (v : Dword) : (s.wr a v).syns = s.syns := rfl
@[simp] theorem State.wr_zq (s : State) (a : Nat) (v : Dword) : (s.wr a v).zq = s.zq := rfl
@[simp] theorem State.wr_tap (s : State) (a : Nat) (v : Dword) : (s.wr a v).tap = s.tap := rfl
@[simp] theorem State.wr_msix (s : State) (a : Nat) (v : Dword) : (s.wr a v).msix = s.msix := rfl
@[simp] theorem State.wr_endpoint (s : State) (a : Nat) (v : Dword) : (s.wr a v).endpoint = s.endpoint := rfl
@[simp] theorem State.wr_dma (s : State) (a : Nat) (v : Dword) : (s.wr a v).dma = s.dma := rfl
@[simp] theorem State.wr_dmaTurn (s : State) (a : Nat) (v : Dword) : (s.wr a v).dmaTurn = s.dmaTurn := rfl
@[simp] theorem State.wr_svc (s : State) (a : Nat) (v : Dword) : (s.wr a v).svc = s.svc := rfl
@[simp] theorem State.wr_out (s : State) (a : Nat) (v : Dword) : (s.wr a v).out = s.out := rfl
@[simp] theorem State.wr_freeCtr (s : State) (a : Nat) (v : Dword) : (s.wr a v).freeCtr = s.freeCtr := rfl

/-! setFld changes regs only. -/

@[simp] theorem State.setFld_pending (s : State) (base : Nat) (f : Fld) (v : Nat) : (s.setFld base f v).pending = s.pending := rfl
@[simp] theorem State.setFld_time (s : State) (base : Nat) (f : Fld) (v : Nat) : (s.setFld base f v).time = s.time := rfl
@[simp] theorem State.setFld_power (s : State) (base : Nat) (f : Fld) (v : Nat) : (s.setFld base f v).power = s.power := rfl
@[simp] theorem State.setFld_run (s : State) (base : Nat) (f : Fld) (v : Nat) : (s.setFld base f v).run = s.run := rfl
@[simp] theorem State.setFld_rcNew (s : State) (base : Nat) (f : Fld) (v : Nat) : (s.setFld base f v).rcNew = s.rcNew := rfl
@[simp] theorem State.setFld_shadows (s : State) (base : Nat) (f : Fld) (v : Nat) : (s.setFld base f v).shadows = s.shadows := rfl
@[simp] theorem State.setFld_keys (s : State) (base : Nat) (f : Fld) (v : Nat) : (s.setFld base f v).keys = s.keys := rfl
@[simp] theorem State.setFld_journal (s : State) (base : Nat) (f : Fld) (v : Nat) : (s.setFld base f v).journal = s.journal := rfl
@[simp] theorem State.setFld_streams (s : State) (base : Nat) (f : Fld) (v : Nat) : (s.setFld base f v).streams = s.streams := rfl
@[simp] theorem State.setFld_store (s : State) (base : Nat) (f : Fld) (v : Nat) : (s.setFld base f v).store = s.store := rfl
@[simp] theorem State.setFld_banks (s : State) (base : Nat) (f : Fld) (v : Nat) : (s.setFld base f v).banks = s.banks := rfl
@[simp] theorem State.setFld_reqs (s : State) (base : Nat) (f : Fld) (v : Nat) : (s.setFld base f v).reqs = s.reqs := rfl
@[simp] theorem State.setFld_lanes (s : State) (base : Nat) (f : Fld) (v : Nat) : (s.setFld base f v).lanes = s.lanes := rfl
@[simp] theorem State.setFld_writers (s : State) (base : Nat) (f : Fld) (v : Nat) : (s.setFld base f v).writers = s.writers := rfl
@[simp] theorem State.setFld_losses (s : State) (base : Nat) (f : Fld) (v : Nat) : (s.setFld base f v).losses = s.losses := rfl
@[simp] theorem State.setFld_recordingRegions (s : State) (base : Nat) (f : Fld) (v : Nat) : (s.setFld base f v).recordingRegions = s.recordingRegions := rfl
@[simp] theorem State.setFld_chans (s : State) (base : Nat) (f : Fld) (v : Nat) : (s.setFld base f v).chans = s.chans := rfl
@[simp] theorem State.setFld_fifos (s : State) (base : Nat) (f : Fld) (v : Nat) : (s.setFld base f v).fifos = s.fifos := rfl
@[simp] theorem State.setFld_cells (s : State) (base : Nat) (f : Fld) (v : Nat) : (s.setFld base f v).cells = s.cells := rfl
@[simp] theorem State.setFld_imem (s : State) (base : Nat) (f : Fld) (v : Nat) : (s.setFld base f v).imem = s.imem := rfl
@[simp] theorem State.setFld_scratch (s : State) (base : Nat) (f : Fld) (v : Nat) : (s.setFld base f v).scratch = s.scratch := rfl
@[simp] theorem State.setFld_stores (s : State) (base : Nat) (f : Fld) (v : Nat) : (s.setFld base f v).stores = s.stores := rfl
@[simp] theorem State.setFld_exch (s : State) (base : Nat) (f : Fld) (v : Nat) : (s.setFld base f v).exch = s.exch := rfl
@[simp] theorem State.setFld_sent (s : State) (base : Nat) (f : Fld) (v : Nat) : (s.setFld base f v).sent = s.sent := rfl
@[simp] theorem State.setFld_slotUse (s : State) (base : Nat) (f : Fld) (v : Nat) : (s.setFld base f v).slotUse = s.slotUse := rfl
@[simp] theorem State.setFld_heldAcc (s : State) (base : Nat) (f : Fld) (v : Nat) : (s.setFld base f v).heldAcc = s.heldAcc := rfl
@[simp] theorem State.setFld_engines (s : State) (base : Nat) (f : Fld) (v : Nat) : (s.setFld base f v).engines = s.engines := rfl
@[simp] theorem State.setFld_regions (s : State) (base : Nat) (f : Fld) (v : Nat) : (s.setFld base f v).regions = s.regions := rfl
@[simp] theorem State.setFld_cellInit (s : State) (base : Nat) (f : Fld) (v : Nat) : (s.setFld base f v).cellInit = s.cellInit := rfl
@[simp] theorem State.setFld_insts (s : State) (base : Nat) (f : Fld) (v : Nat) : (s.setFld base f v).insts = s.insts := rfl
@[simp] theorem State.setFld_lineUses (s : State) (base : Nat) (f : Fld) (v : Nat) : (s.setFld base f v).lineUses = s.lineUses := rfl
@[simp] theorem State.setFld_summaries (s : State) (base : Nat) (f : Fld) (v : Nat) : (s.setFld base f v).summaries = s.summaries := rfl
@[simp] theorem State.setFld_quals (s : State) (base : Nat) (f : Fld) (v : Nat) : (s.setFld base f v).quals = s.quals := rfl
@[simp] theorem State.setFld_winCur (s : State) (base : Nat) (f : Fld) (v : Nat) : (s.setFld base f v).winCur = s.winCur := rfl
@[simp] theorem State.setFld_winShown (s : State) (base : Nat) (f : Fld) (v : Nat) : (s.setFld base f v).winShown = s.winShown := rfl
@[simp] theorem State.setFld_trigIn (s : State) (base : Nat) (f : Fld) (v : Nat) : (s.setFld base f v).trigIn = s.trigIn := rfl
@[simp] theorem State.setFld_trigOut (s : State) (base : Nat) (f : Fld) (v : Nat) : (s.setFld base f v).trigOut = s.trigOut := rfl
@[simp] theorem State.setFld_trigs (s : State) (base : Nat) (f : Fld) (v : Nat) : (s.setFld base f v).trigs = s.trigs := rfl
@[simp] theorem State.setFld_offers (s : State) (base : Nat) (f : Fld) (v : Nat) : (s.setFld base f v).offers = s.offers := rfl
@[simp] theorem State.setFld_esl (s : State) (base : Nat) (f : Fld) (v : Nat) : (s.setFld base f v).esl = s.esl := rfl
@[simp] theorem State.setFld_caps (s : State) (base : Nat) (f : Fld) (v : Nat) : (s.setFld base f v).caps = s.caps := rfl
@[simp] theorem State.setFld_openGroups (s : State) (base : Nat) (f : Fld) (v : Nat) : (s.setFld base f v).openGroups = s.openGroups := rfl
@[simp] theorem State.setFld_links (s : State) (base : Nat) (f : Fld) (v : Nat) : (s.setFld base f v).links = s.links := rfl
@[simp] theorem State.setFld_remotes (s : State) (base : Nat) (f : Fld) (v : Nat) : (s.setFld base f v).remotes = s.remotes := rfl
@[simp] theorem State.setFld_swarm (s : State) (base : Nat) (f : Fld) (v : Nat) : (s.setFld base f v).swarm = s.swarm := rfl
@[simp] theorem State.setFld_doms (s : State) (base : Nat) (f : Fld) (v : Nat) : (s.setFld base f v).doms = s.doms := rfl
@[simp] theorem State.setFld_pps (s : State) (base : Nat) (f : Fld) (v : Nat) : (s.setFld base f v).pps = s.pps := rfl
@[simp] theorem State.setFld_mapTicks (s : State) (base : Nat) (f : Fld) (v : Nat) : (s.setFld base f v).mapTicks = s.mapTicks := rfl
@[simp] theorem State.setFld_syns (s : State) (base : Nat) (f : Fld) (v : Nat) : (s.setFld base f v).syns = s.syns := rfl
@[simp] theorem State.setFld_zq (s : State) (base : Nat) (f : Fld) (v : Nat) : (s.setFld base f v).zq = s.zq := rfl
@[simp] theorem State.setFld_tap (s : State) (base : Nat) (f : Fld) (v : Nat) : (s.setFld base f v).tap = s.tap := rfl
@[simp] theorem State.setFld_msix (s : State) (base : Nat) (f : Fld) (v : Nat) : (s.setFld base f v).msix = s.msix := rfl
@[simp] theorem State.setFld_endpoint (s : State) (base : Nat) (f : Fld) (v : Nat) : (s.setFld base f v).endpoint = s.endpoint := rfl
@[simp] theorem State.setFld_dma (s : State) (base : Nat) (f : Fld) (v : Nat) : (s.setFld base f v).dma = s.dma := rfl
@[simp] theorem State.setFld_dmaTurn (s : State) (base : Nat) (f : Fld) (v : Nat) : (s.setFld base f v).dmaTurn = s.dmaTurn := rfl
@[simp] theorem State.setFld_svc (s : State) (base : Nat) (f : Fld) (v : Nat) : (s.setFld base f v).svc = s.svc := rfl
@[simp] theorem State.setFld_out (s : State) (base : Nat) (f : Fld) (v : Nat) : (s.setFld base f v).out = s.out := rfl
@[simp] theorem State.setFld_freeCtr (s : State) (base : Nat) (f : Fld) (v : Nat) : (s.setFld base f v).freeCtr = s.freeCtr := rfl

/-! setBit changes regs only. -/

@[simp] theorem State.setBit_pending (s : State) (base : Nat) (f : Fld) (b : Bool) : (s.setBit base f b).pending = s.pending := rfl
@[simp] theorem State.setBit_time (s : State) (base : Nat) (f : Fld) (b : Bool) : (s.setBit base f b).time = s.time := rfl
@[simp] theorem State.setBit_power (s : State) (base : Nat) (f : Fld) (b : Bool) : (s.setBit base f b).power = s.power := rfl
@[simp] theorem State.setBit_run (s : State) (base : Nat) (f : Fld) (b : Bool) : (s.setBit base f b).run = s.run := rfl
@[simp] theorem State.setBit_rcNew (s : State) (base : Nat) (f : Fld) (b : Bool) : (s.setBit base f b).rcNew = s.rcNew := rfl
@[simp] theorem State.setBit_shadows (s : State) (base : Nat) (f : Fld) (b : Bool) : (s.setBit base f b).shadows = s.shadows := rfl
@[simp] theorem State.setBit_keys (s : State) (base : Nat) (f : Fld) (b : Bool) : (s.setBit base f b).keys = s.keys := rfl
@[simp] theorem State.setBit_journal (s : State) (base : Nat) (f : Fld) (b : Bool) : (s.setBit base f b).journal = s.journal := rfl
@[simp] theorem State.setBit_streams (s : State) (base : Nat) (f : Fld) (b : Bool) : (s.setBit base f b).streams = s.streams := rfl
@[simp] theorem State.setBit_store (s : State) (base : Nat) (f : Fld) (b : Bool) : (s.setBit base f b).store = s.store := rfl
@[simp] theorem State.setBit_banks (s : State) (base : Nat) (f : Fld) (b : Bool) : (s.setBit base f b).banks = s.banks := rfl
@[simp] theorem State.setBit_reqs (s : State) (base : Nat) (f : Fld) (b : Bool) : (s.setBit base f b).reqs = s.reqs := rfl
@[simp] theorem State.setBit_lanes (s : State) (base : Nat) (f : Fld) (b : Bool) : (s.setBit base f b).lanes = s.lanes := rfl
@[simp] theorem State.setBit_writers (s : State) (base : Nat) (f : Fld) (b : Bool) : (s.setBit base f b).writers = s.writers := rfl
@[simp] theorem State.setBit_losses (s : State) (base : Nat) (f : Fld) (b : Bool) : (s.setBit base f b).losses = s.losses := rfl
@[simp] theorem State.setBit_recordingRegions (s : State) (base : Nat) (f : Fld) (b : Bool) : (s.setBit base f b).recordingRegions = s.recordingRegions := rfl
@[simp] theorem State.setBit_chans (s : State) (base : Nat) (f : Fld) (b : Bool) : (s.setBit base f b).chans = s.chans := rfl
@[simp] theorem State.setBit_fifos (s : State) (base : Nat) (f : Fld) (b : Bool) : (s.setBit base f b).fifos = s.fifos := rfl
@[simp] theorem State.setBit_cells (s : State) (base : Nat) (f : Fld) (b : Bool) : (s.setBit base f b).cells = s.cells := rfl
@[simp] theorem State.setBit_imem (s : State) (base : Nat) (f : Fld) (b : Bool) : (s.setBit base f b).imem = s.imem := rfl
@[simp] theorem State.setBit_scratch (s : State) (base : Nat) (f : Fld) (b : Bool) : (s.setBit base f b).scratch = s.scratch := rfl
@[simp] theorem State.setBit_stores (s : State) (base : Nat) (f : Fld) (b : Bool) : (s.setBit base f b).stores = s.stores := rfl
@[simp] theorem State.setBit_exch (s : State) (base : Nat) (f : Fld) (b : Bool) : (s.setBit base f b).exch = s.exch := rfl
@[simp] theorem State.setBit_sent (s : State) (base : Nat) (f : Fld) (b : Bool) : (s.setBit base f b).sent = s.sent := rfl
@[simp] theorem State.setBit_slotUse (s : State) (base : Nat) (f : Fld) (b : Bool) : (s.setBit base f b).slotUse = s.slotUse := rfl
@[simp] theorem State.setBit_heldAcc (s : State) (base : Nat) (f : Fld) (b : Bool) : (s.setBit base f b).heldAcc = s.heldAcc := rfl
@[simp] theorem State.setBit_engines (s : State) (base : Nat) (f : Fld) (b : Bool) : (s.setBit base f b).engines = s.engines := rfl
@[simp] theorem State.setBit_regions (s : State) (base : Nat) (f : Fld) (b : Bool) : (s.setBit base f b).regions = s.regions := rfl
@[simp] theorem State.setBit_cellInit (s : State) (base : Nat) (f : Fld) (b : Bool) : (s.setBit base f b).cellInit = s.cellInit := rfl
@[simp] theorem State.setBit_insts (s : State) (base : Nat) (f : Fld) (b : Bool) : (s.setBit base f b).insts = s.insts := rfl
@[simp] theorem State.setBit_lineUses (s : State) (base : Nat) (f : Fld) (b : Bool) : (s.setBit base f b).lineUses = s.lineUses := rfl
@[simp] theorem State.setBit_summaries (s : State) (base : Nat) (f : Fld) (b : Bool) : (s.setBit base f b).summaries = s.summaries := rfl
@[simp] theorem State.setBit_quals (s : State) (base : Nat) (f : Fld) (b : Bool) : (s.setBit base f b).quals = s.quals := rfl
@[simp] theorem State.setBit_winCur (s : State) (base : Nat) (f : Fld) (b : Bool) : (s.setBit base f b).winCur = s.winCur := rfl
@[simp] theorem State.setBit_winShown (s : State) (base : Nat) (f : Fld) (b : Bool) : (s.setBit base f b).winShown = s.winShown := rfl
@[simp] theorem State.setBit_trigIn (s : State) (base : Nat) (f : Fld) (b : Bool) : (s.setBit base f b).trigIn = s.trigIn := rfl
@[simp] theorem State.setBit_trigOut (s : State) (base : Nat) (f : Fld) (b : Bool) : (s.setBit base f b).trigOut = s.trigOut := rfl
@[simp] theorem State.setBit_trigs (s : State) (base : Nat) (f : Fld) (b : Bool) : (s.setBit base f b).trigs = s.trigs := rfl
@[simp] theorem State.setBit_offers (s : State) (base : Nat) (f : Fld) (b : Bool) : (s.setBit base f b).offers = s.offers := rfl
@[simp] theorem State.setBit_esl (s : State) (base : Nat) (f : Fld) (b : Bool) : (s.setBit base f b).esl = s.esl := rfl
@[simp] theorem State.setBit_caps (s : State) (base : Nat) (f : Fld) (b : Bool) : (s.setBit base f b).caps = s.caps := rfl
@[simp] theorem State.setBit_openGroups (s : State) (base : Nat) (f : Fld) (b : Bool) : (s.setBit base f b).openGroups = s.openGroups := rfl
@[simp] theorem State.setBit_links (s : State) (base : Nat) (f : Fld) (b : Bool) : (s.setBit base f b).links = s.links := rfl
@[simp] theorem State.setBit_remotes (s : State) (base : Nat) (f : Fld) (b : Bool) : (s.setBit base f b).remotes = s.remotes := rfl
@[simp] theorem State.setBit_swarm (s : State) (base : Nat) (f : Fld) (b : Bool) : (s.setBit base f b).swarm = s.swarm := rfl
@[simp] theorem State.setBit_doms (s : State) (base : Nat) (f : Fld) (b : Bool) : (s.setBit base f b).doms = s.doms := rfl
@[simp] theorem State.setBit_pps (s : State) (base : Nat) (f : Fld) (b : Bool) : (s.setBit base f b).pps = s.pps := rfl
@[simp] theorem State.setBit_mapTicks (s : State) (base : Nat) (f : Fld) (b : Bool) : (s.setBit base f b).mapTicks = s.mapTicks := rfl
@[simp] theorem State.setBit_syns (s : State) (base : Nat) (f : Fld) (b : Bool) : (s.setBit base f b).syns = s.syns := rfl
@[simp] theorem State.setBit_zq (s : State) (base : Nat) (f : Fld) (b : Bool) : (s.setBit base f b).zq = s.zq := rfl
@[simp] theorem State.setBit_tap (s : State) (base : Nat) (f : Fld) (b : Bool) : (s.setBit base f b).tap = s.tap := rfl
@[simp] theorem State.setBit_msix (s : State) (base : Nat) (f : Fld) (b : Bool) : (s.setBit base f b).msix = s.msix := rfl
@[simp] theorem State.setBit_endpoint (s : State) (base : Nat) (f : Fld) (b : Bool) : (s.setBit base f b).endpoint = s.endpoint := rfl
@[simp] theorem State.setBit_dma (s : State) (base : Nat) (f : Fld) (b : Bool) : (s.setBit base f b).dma = s.dma := rfl
@[simp] theorem State.setBit_dmaTurn (s : State) (base : Nat) (f : Fld) (b : Bool) : (s.setBit base f b).dmaTurn = s.dmaTurn := rfl
@[simp] theorem State.setBit_svc (s : State) (base : Nat) (f : Fld) (b : Bool) : (s.setBit base f b).svc = s.svc := rfl
@[simp] theorem State.setBit_out (s : State) (base : Nat) (f : Fld) (b : Bool) : (s.setBit base f b).out = s.out := rfl
@[simp] theorem State.setBit_freeCtr (s : State) (base : Nat) (f : Fld) (b : Bool) : (s.setBit base f b).freeCtr = s.freeCtr := rfl

/-! setPair changes regs only. -/

@[simp] theorem State.setPair_pending (s : State) (base : Nat) (f : Fld) (v : Nat) : (s.setPair base f v).pending = s.pending := rfl
@[simp] theorem State.setPair_time (s : State) (base : Nat) (f : Fld) (v : Nat) : (s.setPair base f v).time = s.time := rfl
@[simp] theorem State.setPair_power (s : State) (base : Nat) (f : Fld) (v : Nat) : (s.setPair base f v).power = s.power := rfl
@[simp] theorem State.setPair_run (s : State) (base : Nat) (f : Fld) (v : Nat) : (s.setPair base f v).run = s.run := rfl
@[simp] theorem State.setPair_rcNew (s : State) (base : Nat) (f : Fld) (v : Nat) : (s.setPair base f v).rcNew = s.rcNew := rfl
@[simp] theorem State.setPair_shadows (s : State) (base : Nat) (f : Fld) (v : Nat) : (s.setPair base f v).shadows = s.shadows := rfl
@[simp] theorem State.setPair_keys (s : State) (base : Nat) (f : Fld) (v : Nat) : (s.setPair base f v).keys = s.keys := rfl
@[simp] theorem State.setPair_journal (s : State) (base : Nat) (f : Fld) (v : Nat) : (s.setPair base f v).journal = s.journal := rfl
@[simp] theorem State.setPair_streams (s : State) (base : Nat) (f : Fld) (v : Nat) : (s.setPair base f v).streams = s.streams := rfl
@[simp] theorem State.setPair_store (s : State) (base : Nat) (f : Fld) (v : Nat) : (s.setPair base f v).store = s.store := rfl
@[simp] theorem State.setPair_banks (s : State) (base : Nat) (f : Fld) (v : Nat) : (s.setPair base f v).banks = s.banks := rfl
@[simp] theorem State.setPair_reqs (s : State) (base : Nat) (f : Fld) (v : Nat) : (s.setPair base f v).reqs = s.reqs := rfl
@[simp] theorem State.setPair_lanes (s : State) (base : Nat) (f : Fld) (v : Nat) : (s.setPair base f v).lanes = s.lanes := rfl
@[simp] theorem State.setPair_writers (s : State) (base : Nat) (f : Fld) (v : Nat) : (s.setPair base f v).writers = s.writers := rfl
@[simp] theorem State.setPair_losses (s : State) (base : Nat) (f : Fld) (v : Nat) : (s.setPair base f v).losses = s.losses := rfl
@[simp] theorem State.setPair_recordingRegions (s : State) (base : Nat) (f : Fld) (v : Nat) : (s.setPair base f v).recordingRegions = s.recordingRegions := rfl
@[simp] theorem State.setPair_chans (s : State) (base : Nat) (f : Fld) (v : Nat) : (s.setPair base f v).chans = s.chans := rfl
@[simp] theorem State.setPair_fifos (s : State) (base : Nat) (f : Fld) (v : Nat) : (s.setPair base f v).fifos = s.fifos := rfl
@[simp] theorem State.setPair_cells (s : State) (base : Nat) (f : Fld) (v : Nat) : (s.setPair base f v).cells = s.cells := rfl
@[simp] theorem State.setPair_imem (s : State) (base : Nat) (f : Fld) (v : Nat) : (s.setPair base f v).imem = s.imem := rfl
@[simp] theorem State.setPair_scratch (s : State) (base : Nat) (f : Fld) (v : Nat) : (s.setPair base f v).scratch = s.scratch := rfl
@[simp] theorem State.setPair_stores (s : State) (base : Nat) (f : Fld) (v : Nat) : (s.setPair base f v).stores = s.stores := rfl
@[simp] theorem State.setPair_exch (s : State) (base : Nat) (f : Fld) (v : Nat) : (s.setPair base f v).exch = s.exch := rfl
@[simp] theorem State.setPair_sent (s : State) (base : Nat) (f : Fld) (v : Nat) : (s.setPair base f v).sent = s.sent := rfl
@[simp] theorem State.setPair_slotUse (s : State) (base : Nat) (f : Fld) (v : Nat) : (s.setPair base f v).slotUse = s.slotUse := rfl
@[simp] theorem State.setPair_heldAcc (s : State) (base : Nat) (f : Fld) (v : Nat) : (s.setPair base f v).heldAcc = s.heldAcc := rfl
@[simp] theorem State.setPair_engines (s : State) (base : Nat) (f : Fld) (v : Nat) : (s.setPair base f v).engines = s.engines := rfl
@[simp] theorem State.setPair_regions (s : State) (base : Nat) (f : Fld) (v : Nat) : (s.setPair base f v).regions = s.regions := rfl
@[simp] theorem State.setPair_cellInit (s : State) (base : Nat) (f : Fld) (v : Nat) : (s.setPair base f v).cellInit = s.cellInit := rfl
@[simp] theorem State.setPair_insts (s : State) (base : Nat) (f : Fld) (v : Nat) : (s.setPair base f v).insts = s.insts := rfl
@[simp] theorem State.setPair_lineUses (s : State) (base : Nat) (f : Fld) (v : Nat) : (s.setPair base f v).lineUses = s.lineUses := rfl
@[simp] theorem State.setPair_summaries (s : State) (base : Nat) (f : Fld) (v : Nat) : (s.setPair base f v).summaries = s.summaries := rfl
@[simp] theorem State.setPair_quals (s : State) (base : Nat) (f : Fld) (v : Nat) : (s.setPair base f v).quals = s.quals := rfl
@[simp] theorem State.setPair_winCur (s : State) (base : Nat) (f : Fld) (v : Nat) : (s.setPair base f v).winCur = s.winCur := rfl
@[simp] theorem State.setPair_winShown (s : State) (base : Nat) (f : Fld) (v : Nat) : (s.setPair base f v).winShown = s.winShown := rfl
@[simp] theorem State.setPair_trigIn (s : State) (base : Nat) (f : Fld) (v : Nat) : (s.setPair base f v).trigIn = s.trigIn := rfl
@[simp] theorem State.setPair_trigOut (s : State) (base : Nat) (f : Fld) (v : Nat) : (s.setPair base f v).trigOut = s.trigOut := rfl
@[simp] theorem State.setPair_trigs (s : State) (base : Nat) (f : Fld) (v : Nat) : (s.setPair base f v).trigs = s.trigs := rfl
@[simp] theorem State.setPair_offers (s : State) (base : Nat) (f : Fld) (v : Nat) : (s.setPair base f v).offers = s.offers := rfl
@[simp] theorem State.setPair_esl (s : State) (base : Nat) (f : Fld) (v : Nat) : (s.setPair base f v).esl = s.esl := rfl
@[simp] theorem State.setPair_caps (s : State) (base : Nat) (f : Fld) (v : Nat) : (s.setPair base f v).caps = s.caps := rfl
@[simp] theorem State.setPair_openGroups (s : State) (base : Nat) (f : Fld) (v : Nat) : (s.setPair base f v).openGroups = s.openGroups := rfl
@[simp] theorem State.setPair_links (s : State) (base : Nat) (f : Fld) (v : Nat) : (s.setPair base f v).links = s.links := rfl
@[simp] theorem State.setPair_remotes (s : State) (base : Nat) (f : Fld) (v : Nat) : (s.setPair base f v).remotes = s.remotes := rfl
@[simp] theorem State.setPair_swarm (s : State) (base : Nat) (f : Fld) (v : Nat) : (s.setPair base f v).swarm = s.swarm := rfl
@[simp] theorem State.setPair_doms (s : State) (base : Nat) (f : Fld) (v : Nat) : (s.setPair base f v).doms = s.doms := rfl
@[simp] theorem State.setPair_pps (s : State) (base : Nat) (f : Fld) (v : Nat) : (s.setPair base f v).pps = s.pps := rfl
@[simp] theorem State.setPair_mapTicks (s : State) (base : Nat) (f : Fld) (v : Nat) : (s.setPair base f v).mapTicks = s.mapTicks := rfl
@[simp] theorem State.setPair_syns (s : State) (base : Nat) (f : Fld) (v : Nat) : (s.setPair base f v).syns = s.syns := rfl
@[simp] theorem State.setPair_zq (s : State) (base : Nat) (f : Fld) (v : Nat) : (s.setPair base f v).zq = s.zq := rfl
@[simp] theorem State.setPair_tap (s : State) (base : Nat) (f : Fld) (v : Nat) : (s.setPair base f v).tap = s.tap := rfl
@[simp] theorem State.setPair_msix (s : State) (base : Nat) (f : Fld) (v : Nat) : (s.setPair base f v).msix = s.msix := rfl
@[simp] theorem State.setPair_endpoint (s : State) (base : Nat) (f : Fld) (v : Nat) : (s.setPair base f v).endpoint = s.endpoint := rfl
@[simp] theorem State.setPair_dma (s : State) (base : Nat) (f : Fld) (v : Nat) : (s.setPair base f v).dma = s.dma := rfl
@[simp] theorem State.setPair_dmaTurn (s : State) (base : Nat) (f : Fld) (v : Nat) : (s.setPair base f v).dmaTurn = s.dmaTurn := rfl
@[simp] theorem State.setPair_svc (s : State) (base : Nat) (f : Fld) (v : Nat) : (s.setPair base f v).svc = s.svc := rfl
@[simp] theorem State.setPair_out (s : State) (base : Nat) (f : Fld) (v : Nat) : (s.setPair base f v).out = s.out := rfl
@[simp] theorem State.setPair_freeCtr (s : State) (base : Nat) (f : Fld) (v : Nat) : (s.setPair base f v).freeCtr = s.freeCtr := rfl

/-! send changes out only. -/

@[simp] theorem State.send_pending (s : State) (o : Out) : (s.send o).pending = s.pending := rfl
@[simp] theorem State.send_time (s : State) (o : Out) : (s.send o).time = s.time := rfl
@[simp] theorem State.send_power (s : State) (o : Out) : (s.send o).power = s.power := rfl
@[simp] theorem State.send_run (s : State) (o : Out) : (s.send o).run = s.run := rfl
@[simp] theorem State.send_regs (s : State) (o : Out) : (s.send o).regs = s.regs := rfl
@[simp] theorem State.send_rcNew (s : State) (o : Out) : (s.send o).rcNew = s.rcNew := rfl
@[simp] theorem State.send_shadows (s : State) (o : Out) : (s.send o).shadows = s.shadows := rfl
@[simp] theorem State.send_keys (s : State) (o : Out) : (s.send o).keys = s.keys := rfl
@[simp] theorem State.send_journal (s : State) (o : Out) : (s.send o).journal = s.journal := rfl
@[simp] theorem State.send_streams (s : State) (o : Out) : (s.send o).streams = s.streams := rfl
@[simp] theorem State.send_store (s : State) (o : Out) : (s.send o).store = s.store := rfl
@[simp] theorem State.send_banks (s : State) (o : Out) : (s.send o).banks = s.banks := rfl
@[simp] theorem State.send_reqs (s : State) (o : Out) : (s.send o).reqs = s.reqs := rfl
@[simp] theorem State.send_lanes (s : State) (o : Out) : (s.send o).lanes = s.lanes := rfl
@[simp] theorem State.send_writers (s : State) (o : Out) : (s.send o).writers = s.writers := rfl
@[simp] theorem State.send_losses (s : State) (o : Out) : (s.send o).losses = s.losses := rfl
@[simp] theorem State.send_recordingRegions (s : State) (o : Out) : (s.send o).recordingRegions = s.recordingRegions := rfl
@[simp] theorem State.send_chans (s : State) (o : Out) : (s.send o).chans = s.chans := rfl
@[simp] theorem State.send_fifos (s : State) (o : Out) : (s.send o).fifos = s.fifos := rfl
@[simp] theorem State.send_cells (s : State) (o : Out) : (s.send o).cells = s.cells := rfl
@[simp] theorem State.send_imem (s : State) (o : Out) : (s.send o).imem = s.imem := rfl
@[simp] theorem State.send_scratch (s : State) (o : Out) : (s.send o).scratch = s.scratch := rfl
@[simp] theorem State.send_stores (s : State) (o : Out) : (s.send o).stores = s.stores := rfl
@[simp] theorem State.send_exch (s : State) (o : Out) : (s.send o).exch = s.exch := rfl
@[simp] theorem State.send_sent (s : State) (o : Out) : (s.send o).sent = s.sent := rfl
@[simp] theorem State.send_slotUse (s : State) (o : Out) : (s.send o).slotUse = s.slotUse := rfl
@[simp] theorem State.send_heldAcc (s : State) (o : Out) : (s.send o).heldAcc = s.heldAcc := rfl
@[simp] theorem State.send_engines (s : State) (o : Out) : (s.send o).engines = s.engines := rfl
@[simp] theorem State.send_regions (s : State) (o : Out) : (s.send o).regions = s.regions := rfl
@[simp] theorem State.send_cellInit (s : State) (o : Out) : (s.send o).cellInit = s.cellInit := rfl
@[simp] theorem State.send_insts (s : State) (o : Out) : (s.send o).insts = s.insts := rfl
@[simp] theorem State.send_lineUses (s : State) (o : Out) : (s.send o).lineUses = s.lineUses := rfl
@[simp] theorem State.send_summaries (s : State) (o : Out) : (s.send o).summaries = s.summaries := rfl
@[simp] theorem State.send_quals (s : State) (o : Out) : (s.send o).quals = s.quals := rfl
@[simp] theorem State.send_winCur (s : State) (o : Out) : (s.send o).winCur = s.winCur := rfl
@[simp] theorem State.send_winShown (s : State) (o : Out) : (s.send o).winShown = s.winShown := rfl
@[simp] theorem State.send_trigIn (s : State) (o : Out) : (s.send o).trigIn = s.trigIn := rfl
@[simp] theorem State.send_trigOut (s : State) (o : Out) : (s.send o).trigOut = s.trigOut := rfl
@[simp] theorem State.send_trigs (s : State) (o : Out) : (s.send o).trigs = s.trigs := rfl
@[simp] theorem State.send_offers (s : State) (o : Out) : (s.send o).offers = s.offers := rfl
@[simp] theorem State.send_esl (s : State) (o : Out) : (s.send o).esl = s.esl := rfl
@[simp] theorem State.send_caps (s : State) (o : Out) : (s.send o).caps = s.caps := rfl
@[simp] theorem State.send_openGroups (s : State) (o : Out) : (s.send o).openGroups = s.openGroups := rfl
@[simp] theorem State.send_links (s : State) (o : Out) : (s.send o).links = s.links := rfl
@[simp] theorem State.send_remotes (s : State) (o : Out) : (s.send o).remotes = s.remotes := rfl
@[simp] theorem State.send_swarm (s : State) (o : Out) : (s.send o).swarm = s.swarm := rfl
@[simp] theorem State.send_doms (s : State) (o : Out) : (s.send o).doms = s.doms := rfl
@[simp] theorem State.send_pps (s : State) (o : Out) : (s.send o).pps = s.pps := rfl
@[simp] theorem State.send_mapTicks (s : State) (o : Out) : (s.send o).mapTicks = s.mapTicks := rfl
@[simp] theorem State.send_syns (s : State) (o : Out) : (s.send o).syns = s.syns := rfl
@[simp] theorem State.send_zq (s : State) (o : Out) : (s.send o).zq = s.zq := rfl
@[simp] theorem State.send_tap (s : State) (o : Out) : (s.send o).tap = s.tap := rfl
@[simp] theorem State.send_msix (s : State) (o : Out) : (s.send o).msix = s.msix := rfl
@[simp] theorem State.send_endpoint (s : State) (o : Out) : (s.send o).endpoint = s.endpoint := rfl
@[simp] theorem State.send_dma (s : State) (o : Out) : (s.send o).dma = s.dma := rfl
@[simp] theorem State.send_dmaTurn (s : State) (o : Out) : (s.send o).dmaTurn = s.dmaTurn := rfl
@[simp] theorem State.send_svc (s : State) (o : Out) : (s.send o).svc = s.svc := rfl
@[simp] theorem State.send_freeCtr (s : State) (o : Out) : (s.send o).freeCtr = s.freeCtr := rfl

/-! drawn changes freeCtr only. -/

@[simp] theorem State.drawn_pending (s : State) : (s.drawn).pending = s.pending := rfl
@[simp] theorem State.drawn_time (s : State) : (s.drawn).time = s.time := rfl
@[simp] theorem State.drawn_power (s : State) : (s.drawn).power = s.power := rfl
@[simp] theorem State.drawn_run (s : State) : (s.drawn).run = s.run := rfl
@[simp] theorem State.drawn_regs (s : State) : (s.drawn).regs = s.regs := rfl
@[simp] theorem State.drawn_rcNew (s : State) : (s.drawn).rcNew = s.rcNew := rfl
@[simp] theorem State.drawn_shadows (s : State) : (s.drawn).shadows = s.shadows := rfl
@[simp] theorem State.drawn_keys (s : State) : (s.drawn).keys = s.keys := rfl
@[simp] theorem State.drawn_journal (s : State) : (s.drawn).journal = s.journal := rfl
@[simp] theorem State.drawn_streams (s : State) : (s.drawn).streams = s.streams := rfl
@[simp] theorem State.drawn_store (s : State) : (s.drawn).store = s.store := rfl
@[simp] theorem State.drawn_banks (s : State) : (s.drawn).banks = s.banks := rfl
@[simp] theorem State.drawn_reqs (s : State) : (s.drawn).reqs = s.reqs := rfl
@[simp] theorem State.drawn_lanes (s : State) : (s.drawn).lanes = s.lanes := rfl
@[simp] theorem State.drawn_writers (s : State) : (s.drawn).writers = s.writers := rfl
@[simp] theorem State.drawn_losses (s : State) : (s.drawn).losses = s.losses := rfl
@[simp] theorem State.drawn_recordingRegions (s : State) : (s.drawn).recordingRegions = s.recordingRegions := rfl
@[simp] theorem State.drawn_chans (s : State) : (s.drawn).chans = s.chans := rfl
@[simp] theorem State.drawn_fifos (s : State) : (s.drawn).fifos = s.fifos := rfl
@[simp] theorem State.drawn_cells (s : State) : (s.drawn).cells = s.cells := rfl
@[simp] theorem State.drawn_imem (s : State) : (s.drawn).imem = s.imem := rfl
@[simp] theorem State.drawn_scratch (s : State) : (s.drawn).scratch = s.scratch := rfl
@[simp] theorem State.drawn_stores (s : State) : (s.drawn).stores = s.stores := rfl
@[simp] theorem State.drawn_exch (s : State) : (s.drawn).exch = s.exch := rfl
@[simp] theorem State.drawn_sent (s : State) : (s.drawn).sent = s.sent := rfl
@[simp] theorem State.drawn_slotUse (s : State) : (s.drawn).slotUse = s.slotUse := rfl
@[simp] theorem State.drawn_heldAcc (s : State) : (s.drawn).heldAcc = s.heldAcc := rfl
@[simp] theorem State.drawn_engines (s : State) : (s.drawn).engines = s.engines := rfl
@[simp] theorem State.drawn_regions (s : State) : (s.drawn).regions = s.regions := rfl
@[simp] theorem State.drawn_cellInit (s : State) : (s.drawn).cellInit = s.cellInit := rfl
@[simp] theorem State.drawn_insts (s : State) : (s.drawn).insts = s.insts := rfl
@[simp] theorem State.drawn_lineUses (s : State) : (s.drawn).lineUses = s.lineUses := rfl
@[simp] theorem State.drawn_summaries (s : State) : (s.drawn).summaries = s.summaries := rfl
@[simp] theorem State.drawn_quals (s : State) : (s.drawn).quals = s.quals := rfl
@[simp] theorem State.drawn_winCur (s : State) : (s.drawn).winCur = s.winCur := rfl
@[simp] theorem State.drawn_winShown (s : State) : (s.drawn).winShown = s.winShown := rfl
@[simp] theorem State.drawn_trigIn (s : State) : (s.drawn).trigIn = s.trigIn := rfl
@[simp] theorem State.drawn_trigOut (s : State) : (s.drawn).trigOut = s.trigOut := rfl
@[simp] theorem State.drawn_trigs (s : State) : (s.drawn).trigs = s.trigs := rfl
@[simp] theorem State.drawn_offers (s : State) : (s.drawn).offers = s.offers := rfl
@[simp] theorem State.drawn_esl (s : State) : (s.drawn).esl = s.esl := rfl
@[simp] theorem State.drawn_caps (s : State) : (s.drawn).caps = s.caps := rfl
@[simp] theorem State.drawn_openGroups (s : State) : (s.drawn).openGroups = s.openGroups := rfl
@[simp] theorem State.drawn_links (s : State) : (s.drawn).links = s.links := rfl
@[simp] theorem State.drawn_remotes (s : State) : (s.drawn).remotes = s.remotes := rfl
@[simp] theorem State.drawn_swarm (s : State) : (s.drawn).swarm = s.swarm := rfl
@[simp] theorem State.drawn_doms (s : State) : (s.drawn).doms = s.doms := rfl
@[simp] theorem State.drawn_pps (s : State) : (s.drawn).pps = s.pps := rfl
@[simp] theorem State.drawn_mapTicks (s : State) : (s.drawn).mapTicks = s.mapTicks := rfl
@[simp] theorem State.drawn_syns (s : State) : (s.drawn).syns = s.syns := rfl
@[simp] theorem State.drawn_zq (s : State) : (s.drawn).zq = s.zq := rfl
@[simp] theorem State.drawn_tap (s : State) : (s.drawn).tap = s.tap := rfl
@[simp] theorem State.drawn_msix (s : State) : (s.drawn).msix = s.msix := rfl
@[simp] theorem State.drawn_endpoint (s : State) : (s.drawn).endpoint = s.endpoint := rfl
@[simp] theorem State.drawn_dma (s : State) : (s.drawn).dma = s.dma := rfl
@[simp] theorem State.drawn_dmaTurn (s : State) : (s.drawn).dmaTurn = s.dmaTurn := rfl
@[simp] theorem State.drawn_svc (s : State) : (s.drawn).svc = s.svc := rfl
@[simp] theorem State.drawn_out (s : State) : (s.drawn).out = s.out := rfl

/-! setShadow changes shadows only. -/

@[simp] theorem State.setShadow_pending (s : State) (a : Nat) (v : Option Dword) : (s.setShadow a v).pending = s.pending := rfl
@[simp] theorem State.setShadow_time (s : State) (a : Nat) (v : Option Dword) : (s.setShadow a v).time = s.time := rfl
@[simp] theorem State.setShadow_power (s : State) (a : Nat) (v : Option Dword) : (s.setShadow a v).power = s.power := rfl
@[simp] theorem State.setShadow_run (s : State) (a : Nat) (v : Option Dword) : (s.setShadow a v).run = s.run := rfl
@[simp] theorem State.setShadow_regs (s : State) (a : Nat) (v : Option Dword) : (s.setShadow a v).regs = s.regs := rfl
@[simp] theorem State.setShadow_rcNew (s : State) (a : Nat) (v : Option Dword) : (s.setShadow a v).rcNew = s.rcNew := rfl
@[simp] theorem State.setShadow_keys (s : State) (a : Nat) (v : Option Dword) : (s.setShadow a v).keys = s.keys := rfl
@[simp] theorem State.setShadow_journal (s : State) (a : Nat) (v : Option Dword) : (s.setShadow a v).journal = s.journal := rfl
@[simp] theorem State.setShadow_streams (s : State) (a : Nat) (v : Option Dword) : (s.setShadow a v).streams = s.streams := rfl
@[simp] theorem State.setShadow_store (s : State) (a : Nat) (v : Option Dword) : (s.setShadow a v).store = s.store := rfl
@[simp] theorem State.setShadow_banks (s : State) (a : Nat) (v : Option Dword) : (s.setShadow a v).banks = s.banks := rfl
@[simp] theorem State.setShadow_reqs (s : State) (a : Nat) (v : Option Dword) : (s.setShadow a v).reqs = s.reqs := rfl
@[simp] theorem State.setShadow_lanes (s : State) (a : Nat) (v : Option Dword) : (s.setShadow a v).lanes = s.lanes := rfl
@[simp] theorem State.setShadow_writers (s : State) (a : Nat) (v : Option Dword) : (s.setShadow a v).writers = s.writers := rfl
@[simp] theorem State.setShadow_losses (s : State) (a : Nat) (v : Option Dword) : (s.setShadow a v).losses = s.losses := rfl
@[simp] theorem State.setShadow_recordingRegions (s : State) (a : Nat) (v : Option Dword) : (s.setShadow a v).recordingRegions = s.recordingRegions := rfl
@[simp] theorem State.setShadow_chans (s : State) (a : Nat) (v : Option Dword) : (s.setShadow a v).chans = s.chans := rfl
@[simp] theorem State.setShadow_fifos (s : State) (a : Nat) (v : Option Dword) : (s.setShadow a v).fifos = s.fifos := rfl
@[simp] theorem State.setShadow_cells (s : State) (a : Nat) (v : Option Dword) : (s.setShadow a v).cells = s.cells := rfl
@[simp] theorem State.setShadow_imem (s : State) (a : Nat) (v : Option Dword) : (s.setShadow a v).imem = s.imem := rfl
@[simp] theorem State.setShadow_scratch (s : State) (a : Nat) (v : Option Dword) : (s.setShadow a v).scratch = s.scratch := rfl
@[simp] theorem State.setShadow_stores (s : State) (a : Nat) (v : Option Dword) : (s.setShadow a v).stores = s.stores := rfl
@[simp] theorem State.setShadow_exch (s : State) (a : Nat) (v : Option Dword) : (s.setShadow a v).exch = s.exch := rfl
@[simp] theorem State.setShadow_sent (s : State) (a : Nat) (v : Option Dword) : (s.setShadow a v).sent = s.sent := rfl
@[simp] theorem State.setShadow_slotUse (s : State) (a : Nat) (v : Option Dword) : (s.setShadow a v).slotUse = s.slotUse := rfl
@[simp] theorem State.setShadow_heldAcc (s : State) (a : Nat) (v : Option Dword) : (s.setShadow a v).heldAcc = s.heldAcc := rfl
@[simp] theorem State.setShadow_engines (s : State) (a : Nat) (v : Option Dword) : (s.setShadow a v).engines = s.engines := rfl
@[simp] theorem State.setShadow_regions (s : State) (a : Nat) (v : Option Dword) : (s.setShadow a v).regions = s.regions := rfl
@[simp] theorem State.setShadow_cellInit (s : State) (a : Nat) (v : Option Dword) : (s.setShadow a v).cellInit = s.cellInit := rfl
@[simp] theorem State.setShadow_insts (s : State) (a : Nat) (v : Option Dword) : (s.setShadow a v).insts = s.insts := rfl
@[simp] theorem State.setShadow_lineUses (s : State) (a : Nat) (v : Option Dword) : (s.setShadow a v).lineUses = s.lineUses := rfl
@[simp] theorem State.setShadow_summaries (s : State) (a : Nat) (v : Option Dword) : (s.setShadow a v).summaries = s.summaries := rfl
@[simp] theorem State.setShadow_quals (s : State) (a : Nat) (v : Option Dword) : (s.setShadow a v).quals = s.quals := rfl
@[simp] theorem State.setShadow_winCur (s : State) (a : Nat) (v : Option Dword) : (s.setShadow a v).winCur = s.winCur := rfl
@[simp] theorem State.setShadow_winShown (s : State) (a : Nat) (v : Option Dword) : (s.setShadow a v).winShown = s.winShown := rfl
@[simp] theorem State.setShadow_trigIn (s : State) (a : Nat) (v : Option Dword) : (s.setShadow a v).trigIn = s.trigIn := rfl
@[simp] theorem State.setShadow_trigOut (s : State) (a : Nat) (v : Option Dword) : (s.setShadow a v).trigOut = s.trigOut := rfl
@[simp] theorem State.setShadow_trigs (s : State) (a : Nat) (v : Option Dword) : (s.setShadow a v).trigs = s.trigs := rfl
@[simp] theorem State.setShadow_offers (s : State) (a : Nat) (v : Option Dword) : (s.setShadow a v).offers = s.offers := rfl
@[simp] theorem State.setShadow_esl (s : State) (a : Nat) (v : Option Dword) : (s.setShadow a v).esl = s.esl := rfl
@[simp] theorem State.setShadow_caps (s : State) (a : Nat) (v : Option Dword) : (s.setShadow a v).caps = s.caps := rfl
@[simp] theorem State.setShadow_openGroups (s : State) (a : Nat) (v : Option Dword) : (s.setShadow a v).openGroups = s.openGroups := rfl
@[simp] theorem State.setShadow_links (s : State) (a : Nat) (v : Option Dword) : (s.setShadow a v).links = s.links := rfl
@[simp] theorem State.setShadow_remotes (s : State) (a : Nat) (v : Option Dword) : (s.setShadow a v).remotes = s.remotes := rfl
@[simp] theorem State.setShadow_swarm (s : State) (a : Nat) (v : Option Dword) : (s.setShadow a v).swarm = s.swarm := rfl
@[simp] theorem State.setShadow_doms (s : State) (a : Nat) (v : Option Dword) : (s.setShadow a v).doms = s.doms := rfl
@[simp] theorem State.setShadow_pps (s : State) (a : Nat) (v : Option Dword) : (s.setShadow a v).pps = s.pps := rfl
@[simp] theorem State.setShadow_mapTicks (s : State) (a : Nat) (v : Option Dword) : (s.setShadow a v).mapTicks = s.mapTicks := rfl
@[simp] theorem State.setShadow_syns (s : State) (a : Nat) (v : Option Dword) : (s.setShadow a v).syns = s.syns := rfl
@[simp] theorem State.setShadow_zq (s : State) (a : Nat) (v : Option Dword) : (s.setShadow a v).zq = s.zq := rfl
@[simp] theorem State.setShadow_tap (s : State) (a : Nat) (v : Option Dword) : (s.setShadow a v).tap = s.tap := rfl
@[simp] theorem State.setShadow_msix (s : State) (a : Nat) (v : Option Dword) : (s.setShadow a v).msix = s.msix := rfl
@[simp] theorem State.setShadow_endpoint (s : State) (a : Nat) (v : Option Dword) : (s.setShadow a v).endpoint = s.endpoint := rfl
@[simp] theorem State.setShadow_dma (s : State) (a : Nat) (v : Option Dword) : (s.setShadow a v).dma = s.dma := rfl
@[simp] theorem State.setShadow_dmaTurn (s : State) (a : Nat) (v : Option Dword) : (s.setShadow a v).dmaTurn = s.dmaTurn := rfl
@[simp] theorem State.setShadow_svc (s : State) (a : Nat) (v : Option Dword) : (s.setShadow a v).svc = s.svc := rfl
@[simp] theorem State.setShadow_out (s : State) (a : Nat) (v : Option Dword) : (s.setShadow a v).out = s.out := rfl
@[simp] theorem State.setShadow_freeCtr (s : State) (a : Nat) (v : Option Dword) : (s.setShadow a v).freeCtr = s.freeCtr := rfl

/-! setKey changes keys only. -/

@[simp] theorem State.setKey_pending (s : State) (base : Nat) (b : Bool) : (s.setKey base b).pending = s.pending := rfl
@[simp] theorem State.setKey_time (s : State) (base : Nat) (b : Bool) : (s.setKey base b).time = s.time := rfl
@[simp] theorem State.setKey_power (s : State) (base : Nat) (b : Bool) : (s.setKey base b).power = s.power := rfl
@[simp] theorem State.setKey_run (s : State) (base : Nat) (b : Bool) : (s.setKey base b).run = s.run := rfl
@[simp] theorem State.setKey_regs (s : State) (base : Nat) (b : Bool) : (s.setKey base b).regs = s.regs := rfl
@[simp] theorem State.setKey_rcNew (s : State) (base : Nat) (b : Bool) : (s.setKey base b).rcNew = s.rcNew := rfl
@[simp] theorem State.setKey_shadows (s : State) (base : Nat) (b : Bool) : (s.setKey base b).shadows = s.shadows := rfl
@[simp] theorem State.setKey_journal (s : State) (base : Nat) (b : Bool) : (s.setKey base b).journal = s.journal := rfl
@[simp] theorem State.setKey_streams (s : State) (base : Nat) (b : Bool) : (s.setKey base b).streams = s.streams := rfl
@[simp] theorem State.setKey_store (s : State) (base : Nat) (b : Bool) : (s.setKey base b).store = s.store := rfl
@[simp] theorem State.setKey_banks (s : State) (base : Nat) (b : Bool) : (s.setKey base b).banks = s.banks := rfl
@[simp] theorem State.setKey_reqs (s : State) (base : Nat) (b : Bool) : (s.setKey base b).reqs = s.reqs := rfl
@[simp] theorem State.setKey_lanes (s : State) (base : Nat) (b : Bool) : (s.setKey base b).lanes = s.lanes := rfl
@[simp] theorem State.setKey_writers (s : State) (base : Nat) (b : Bool) : (s.setKey base b).writers = s.writers := rfl
@[simp] theorem State.setKey_losses (s : State) (base : Nat) (b : Bool) : (s.setKey base b).losses = s.losses := rfl
@[simp] theorem State.setKey_recordingRegions (s : State) (base : Nat) (b : Bool) : (s.setKey base b).recordingRegions = s.recordingRegions := rfl
@[simp] theorem State.setKey_chans (s : State) (base : Nat) (b : Bool) : (s.setKey base b).chans = s.chans := rfl
@[simp] theorem State.setKey_fifos (s : State) (base : Nat) (b : Bool) : (s.setKey base b).fifos = s.fifos := rfl
@[simp] theorem State.setKey_cells (s : State) (base : Nat) (b : Bool) : (s.setKey base b).cells = s.cells := rfl
@[simp] theorem State.setKey_imem (s : State) (base : Nat) (b : Bool) : (s.setKey base b).imem = s.imem := rfl
@[simp] theorem State.setKey_scratch (s : State) (base : Nat) (b : Bool) : (s.setKey base b).scratch = s.scratch := rfl
@[simp] theorem State.setKey_stores (s : State) (base : Nat) (b : Bool) : (s.setKey base b).stores = s.stores := rfl
@[simp] theorem State.setKey_exch (s : State) (base : Nat) (b : Bool) : (s.setKey base b).exch = s.exch := rfl
@[simp] theorem State.setKey_sent (s : State) (base : Nat) (b : Bool) : (s.setKey base b).sent = s.sent := rfl
@[simp] theorem State.setKey_slotUse (s : State) (base : Nat) (b : Bool) : (s.setKey base b).slotUse = s.slotUse := rfl
@[simp] theorem State.setKey_heldAcc (s : State) (base : Nat) (b : Bool) : (s.setKey base b).heldAcc = s.heldAcc := rfl
@[simp] theorem State.setKey_engines (s : State) (base : Nat) (b : Bool) : (s.setKey base b).engines = s.engines := rfl
@[simp] theorem State.setKey_regions (s : State) (base : Nat) (b : Bool) : (s.setKey base b).regions = s.regions := rfl
@[simp] theorem State.setKey_cellInit (s : State) (base : Nat) (b : Bool) : (s.setKey base b).cellInit = s.cellInit := rfl
@[simp] theorem State.setKey_insts (s : State) (base : Nat) (b : Bool) : (s.setKey base b).insts = s.insts := rfl
@[simp] theorem State.setKey_lineUses (s : State) (base : Nat) (b : Bool) : (s.setKey base b).lineUses = s.lineUses := rfl
@[simp] theorem State.setKey_summaries (s : State) (base : Nat) (b : Bool) : (s.setKey base b).summaries = s.summaries := rfl
@[simp] theorem State.setKey_quals (s : State) (base : Nat) (b : Bool) : (s.setKey base b).quals = s.quals := rfl
@[simp] theorem State.setKey_winCur (s : State) (base : Nat) (b : Bool) : (s.setKey base b).winCur = s.winCur := rfl
@[simp] theorem State.setKey_winShown (s : State) (base : Nat) (b : Bool) : (s.setKey base b).winShown = s.winShown := rfl
@[simp] theorem State.setKey_trigIn (s : State) (base : Nat) (b : Bool) : (s.setKey base b).trigIn = s.trigIn := rfl
@[simp] theorem State.setKey_trigOut (s : State) (base : Nat) (b : Bool) : (s.setKey base b).trigOut = s.trigOut := rfl
@[simp] theorem State.setKey_trigs (s : State) (base : Nat) (b : Bool) : (s.setKey base b).trigs = s.trigs := rfl
@[simp] theorem State.setKey_offers (s : State) (base : Nat) (b : Bool) : (s.setKey base b).offers = s.offers := rfl
@[simp] theorem State.setKey_esl (s : State) (base : Nat) (b : Bool) : (s.setKey base b).esl = s.esl := rfl
@[simp] theorem State.setKey_caps (s : State) (base : Nat) (b : Bool) : (s.setKey base b).caps = s.caps := rfl
@[simp] theorem State.setKey_openGroups (s : State) (base : Nat) (b : Bool) : (s.setKey base b).openGroups = s.openGroups := rfl
@[simp] theorem State.setKey_links (s : State) (base : Nat) (b : Bool) : (s.setKey base b).links = s.links := rfl
@[simp] theorem State.setKey_remotes (s : State) (base : Nat) (b : Bool) : (s.setKey base b).remotes = s.remotes := rfl
@[simp] theorem State.setKey_swarm (s : State) (base : Nat) (b : Bool) : (s.setKey base b).swarm = s.swarm := rfl
@[simp] theorem State.setKey_doms (s : State) (base : Nat) (b : Bool) : (s.setKey base b).doms = s.doms := rfl
@[simp] theorem State.setKey_pps (s : State) (base : Nat) (b : Bool) : (s.setKey base b).pps = s.pps := rfl
@[simp] theorem State.setKey_mapTicks (s : State) (base : Nat) (b : Bool) : (s.setKey base b).mapTicks = s.mapTicks := rfl
@[simp] theorem State.setKey_syns (s : State) (base : Nat) (b : Bool) : (s.setKey base b).syns = s.syns := rfl
@[simp] theorem State.setKey_zq (s : State) (base : Nat) (b : Bool) : (s.setKey base b).zq = s.zq := rfl
@[simp] theorem State.setKey_tap (s : State) (base : Nat) (b : Bool) : (s.setKey base b).tap = s.tap := rfl
@[simp] theorem State.setKey_msix (s : State) (base : Nat) (b : Bool) : (s.setKey base b).msix = s.msix := rfl
@[simp] theorem State.setKey_endpoint (s : State) (base : Nat) (b : Bool) : (s.setKey base b).endpoint = s.endpoint := rfl
@[simp] theorem State.setKey_dma (s : State) (base : Nat) (b : Bool) : (s.setKey base b).dma = s.dma := rfl
@[simp] theorem State.setKey_dmaTurn (s : State) (base : Nat) (b : Bool) : (s.setKey base b).dmaTurn = s.dmaTurn := rfl
@[simp] theorem State.setKey_svc (s : State) (base : Nat) (b : Bool) : (s.setKey base b).svc = s.svc := rfl
@[simp] theorem State.setKey_out (s : State) (base : Nat) (b : Bool) : (s.setKey base b).out = s.out := rfl
@[simp] theorem State.setKey_freeCtr (s : State) (base : Nat) (b : Bool) : (s.setKey base b).freeCtr = s.freeCtr := rfl

/-! modTime changes time only. -/

@[simp] theorem State.modTime_pending (s : State) (f : Timebase → Timebase) : (s.modTime f).pending = s.pending := rfl
@[simp] theorem State.modTime_power (s : State) (f : Timebase → Timebase) : (s.modTime f).power = s.power := rfl
@[simp] theorem State.modTime_run (s : State) (f : Timebase → Timebase) : (s.modTime f).run = s.run := rfl
@[simp] theorem State.modTime_regs (s : State) (f : Timebase → Timebase) : (s.modTime f).regs = s.regs := rfl
@[simp] theorem State.modTime_rcNew (s : State) (f : Timebase → Timebase) : (s.modTime f).rcNew = s.rcNew := rfl
@[simp] theorem State.modTime_shadows (s : State) (f : Timebase → Timebase) : (s.modTime f).shadows = s.shadows := rfl
@[simp] theorem State.modTime_keys (s : State) (f : Timebase → Timebase) : (s.modTime f).keys = s.keys := rfl
@[simp] theorem State.modTime_journal (s : State) (f : Timebase → Timebase) : (s.modTime f).journal = s.journal := rfl
@[simp] theorem State.modTime_streams (s : State) (f : Timebase → Timebase) : (s.modTime f).streams = s.streams := rfl
@[simp] theorem State.modTime_store (s : State) (f : Timebase → Timebase) : (s.modTime f).store = s.store := rfl
@[simp] theorem State.modTime_banks (s : State) (f : Timebase → Timebase) : (s.modTime f).banks = s.banks := rfl
@[simp] theorem State.modTime_reqs (s : State) (f : Timebase → Timebase) : (s.modTime f).reqs = s.reqs := rfl
@[simp] theorem State.modTime_lanes (s : State) (f : Timebase → Timebase) : (s.modTime f).lanes = s.lanes := rfl
@[simp] theorem State.modTime_writers (s : State) (f : Timebase → Timebase) : (s.modTime f).writers = s.writers := rfl
@[simp] theorem State.modTime_losses (s : State) (f : Timebase → Timebase) : (s.modTime f).losses = s.losses := rfl
@[simp] theorem State.modTime_recordingRegions (s : State) (f : Timebase → Timebase) : (s.modTime f).recordingRegions = s.recordingRegions := rfl
@[simp] theorem State.modTime_chans (s : State) (f : Timebase → Timebase) : (s.modTime f).chans = s.chans := rfl
@[simp] theorem State.modTime_fifos (s : State) (f : Timebase → Timebase) : (s.modTime f).fifos = s.fifos := rfl
@[simp] theorem State.modTime_cells (s : State) (f : Timebase → Timebase) : (s.modTime f).cells = s.cells := rfl
@[simp] theorem State.modTime_imem (s : State) (f : Timebase → Timebase) : (s.modTime f).imem = s.imem := rfl
@[simp] theorem State.modTime_scratch (s : State) (f : Timebase → Timebase) : (s.modTime f).scratch = s.scratch := rfl
@[simp] theorem State.modTime_stores (s : State) (f : Timebase → Timebase) : (s.modTime f).stores = s.stores := rfl
@[simp] theorem State.modTime_exch (s : State) (f : Timebase → Timebase) : (s.modTime f).exch = s.exch := rfl
@[simp] theorem State.modTime_sent (s : State) (f : Timebase → Timebase) : (s.modTime f).sent = s.sent := rfl
@[simp] theorem State.modTime_slotUse (s : State) (f : Timebase → Timebase) : (s.modTime f).slotUse = s.slotUse := rfl
@[simp] theorem State.modTime_heldAcc (s : State) (f : Timebase → Timebase) : (s.modTime f).heldAcc = s.heldAcc := rfl
@[simp] theorem State.modTime_engines (s : State) (f : Timebase → Timebase) : (s.modTime f).engines = s.engines := rfl
@[simp] theorem State.modTime_regions (s : State) (f : Timebase → Timebase) : (s.modTime f).regions = s.regions := rfl
@[simp] theorem State.modTime_cellInit (s : State) (f : Timebase → Timebase) : (s.modTime f).cellInit = s.cellInit := rfl
@[simp] theorem State.modTime_insts (s : State) (f : Timebase → Timebase) : (s.modTime f).insts = s.insts := rfl
@[simp] theorem State.modTime_lineUses (s : State) (f : Timebase → Timebase) : (s.modTime f).lineUses = s.lineUses := rfl
@[simp] theorem State.modTime_summaries (s : State) (f : Timebase → Timebase) : (s.modTime f).summaries = s.summaries := rfl
@[simp] theorem State.modTime_quals (s : State) (f : Timebase → Timebase) : (s.modTime f).quals = s.quals := rfl
@[simp] theorem State.modTime_winCur (s : State) (f : Timebase → Timebase) : (s.modTime f).winCur = s.winCur := rfl
@[simp] theorem State.modTime_winShown (s : State) (f : Timebase → Timebase) : (s.modTime f).winShown = s.winShown := rfl
@[simp] theorem State.modTime_trigIn (s : State) (f : Timebase → Timebase) : (s.modTime f).trigIn = s.trigIn := rfl
@[simp] theorem State.modTime_trigOut (s : State) (f : Timebase → Timebase) : (s.modTime f).trigOut = s.trigOut := rfl
@[simp] theorem State.modTime_trigs (s : State) (f : Timebase → Timebase) : (s.modTime f).trigs = s.trigs := rfl
@[simp] theorem State.modTime_offers (s : State) (f : Timebase → Timebase) : (s.modTime f).offers = s.offers := rfl
@[simp] theorem State.modTime_esl (s : State) (f : Timebase → Timebase) : (s.modTime f).esl = s.esl := rfl
@[simp] theorem State.modTime_caps (s : State) (f : Timebase → Timebase) : (s.modTime f).caps = s.caps := rfl
@[simp] theorem State.modTime_openGroups (s : State) (f : Timebase → Timebase) : (s.modTime f).openGroups = s.openGroups := rfl
@[simp] theorem State.modTime_links (s : State) (f : Timebase → Timebase) : (s.modTime f).links = s.links := rfl
@[simp] theorem State.modTime_remotes (s : State) (f : Timebase → Timebase) : (s.modTime f).remotes = s.remotes := rfl
@[simp] theorem State.modTime_swarm (s : State) (f : Timebase → Timebase) : (s.modTime f).swarm = s.swarm := rfl
@[simp] theorem State.modTime_doms (s : State) (f : Timebase → Timebase) : (s.modTime f).doms = s.doms := rfl
@[simp] theorem State.modTime_pps (s : State) (f : Timebase → Timebase) : (s.modTime f).pps = s.pps := rfl
@[simp] theorem State.modTime_mapTicks (s : State) (f : Timebase → Timebase) : (s.modTime f).mapTicks = s.mapTicks := rfl
@[simp] theorem State.modTime_syns (s : State) (f : Timebase → Timebase) : (s.modTime f).syns = s.syns := rfl
@[simp] theorem State.modTime_zq (s : State) (f : Timebase → Timebase) : (s.modTime f).zq = s.zq := rfl
@[simp] theorem State.modTime_tap (s : State) (f : Timebase → Timebase) : (s.modTime f).tap = s.tap := rfl
@[simp] theorem State.modTime_msix (s : State) (f : Timebase → Timebase) : (s.modTime f).msix = s.msix := rfl
@[simp] theorem State.modTime_endpoint (s : State) (f : Timebase → Timebase) : (s.modTime f).endpoint = s.endpoint := rfl
@[simp] theorem State.modTime_dma (s : State) (f : Timebase → Timebase) : (s.modTime f).dma = s.dma := rfl
@[simp] theorem State.modTime_dmaTurn (s : State) (f : Timebase → Timebase) : (s.modTime f).dmaTurn = s.dmaTurn := rfl
@[simp] theorem State.modTime_svc (s : State) (f : Timebase → Timebase) : (s.modTime f).svc = s.svc := rfl
@[simp] theorem State.modTime_out (s : State) (f : Timebase → Timebase) : (s.modTime f).out = s.out := rfl
@[simp] theorem State.modTime_freeCtr (s : State) (f : Timebase → Timebase) : (s.modTime f).freeCtr = s.freeCtr := rfl

/-! setChan changes chans only. -/

@[simp] theorem State.setChan_pending (s : State) (k : Nat) (c : Chan) : (s.setChan k c).pending = s.pending := rfl
@[simp] theorem State.setChan_time (s : State) (k : Nat) (c : Chan) : (s.setChan k c).time = s.time := rfl
@[simp] theorem State.setChan_power (s : State) (k : Nat) (c : Chan) : (s.setChan k c).power = s.power := rfl
@[simp] theorem State.setChan_run (s : State) (k : Nat) (c : Chan) : (s.setChan k c).run = s.run := rfl
@[simp] theorem State.setChan_regs (s : State) (k : Nat) (c : Chan) : (s.setChan k c).regs = s.regs := rfl
@[simp] theorem State.setChan_rcNew (s : State) (k : Nat) (c : Chan) : (s.setChan k c).rcNew = s.rcNew := rfl
@[simp] theorem State.setChan_shadows (s : State) (k : Nat) (c : Chan) : (s.setChan k c).shadows = s.shadows := rfl
@[simp] theorem State.setChan_keys (s : State) (k : Nat) (c : Chan) : (s.setChan k c).keys = s.keys := rfl
@[simp] theorem State.setChan_journal (s : State) (k : Nat) (c : Chan) : (s.setChan k c).journal = s.journal := rfl
@[simp] theorem State.setChan_streams (s : State) (k : Nat) (c : Chan) : (s.setChan k c).streams = s.streams := rfl
@[simp] theorem State.setChan_store (s : State) (k : Nat) (c : Chan) : (s.setChan k c).store = s.store := rfl
@[simp] theorem State.setChan_banks (s : State) (k : Nat) (c : Chan) : (s.setChan k c).banks = s.banks := rfl
@[simp] theorem State.setChan_reqs (s : State) (k : Nat) (c : Chan) : (s.setChan k c).reqs = s.reqs := rfl
@[simp] theorem State.setChan_lanes (s : State) (k : Nat) (c : Chan) : (s.setChan k c).lanes = s.lanes := rfl
@[simp] theorem State.setChan_writers (s : State) (k : Nat) (c : Chan) : (s.setChan k c).writers = s.writers := rfl
@[simp] theorem State.setChan_losses (s : State) (k : Nat) (c : Chan) : (s.setChan k c).losses = s.losses := rfl
@[simp] theorem State.setChan_recordingRegions (s : State) (k : Nat) (c : Chan) : (s.setChan k c).recordingRegions = s.recordingRegions := rfl
@[simp] theorem State.setChan_fifos (s : State) (k : Nat) (c : Chan) : (s.setChan k c).fifos = s.fifos := rfl
@[simp] theorem State.setChan_cells (s : State) (k : Nat) (c : Chan) : (s.setChan k c).cells = s.cells := rfl
@[simp] theorem State.setChan_imem (s : State) (k : Nat) (c : Chan) : (s.setChan k c).imem = s.imem := rfl
@[simp] theorem State.setChan_scratch (s : State) (k : Nat) (c : Chan) : (s.setChan k c).scratch = s.scratch := rfl
@[simp] theorem State.setChan_stores (s : State) (k : Nat) (c : Chan) : (s.setChan k c).stores = s.stores := rfl
@[simp] theorem State.setChan_exch (s : State) (k : Nat) (c : Chan) : (s.setChan k c).exch = s.exch := rfl
@[simp] theorem State.setChan_sent (s : State) (k : Nat) (c : Chan) : (s.setChan k c).sent = s.sent := rfl
@[simp] theorem State.setChan_slotUse (s : State) (k : Nat) (c : Chan) : (s.setChan k c).slotUse = s.slotUse := rfl
@[simp] theorem State.setChan_heldAcc (s : State) (k : Nat) (c : Chan) : (s.setChan k c).heldAcc = s.heldAcc := rfl
@[simp] theorem State.setChan_engines (s : State) (k : Nat) (c : Chan) : (s.setChan k c).engines = s.engines := rfl
@[simp] theorem State.setChan_regions (s : State) (k : Nat) (c : Chan) : (s.setChan k c).regions = s.regions := rfl
@[simp] theorem State.setChan_cellInit (s : State) (k : Nat) (c : Chan) : (s.setChan k c).cellInit = s.cellInit := rfl
@[simp] theorem State.setChan_insts (s : State) (k : Nat) (c : Chan) : (s.setChan k c).insts = s.insts := rfl
@[simp] theorem State.setChan_lineUses (s : State) (k : Nat) (c : Chan) : (s.setChan k c).lineUses = s.lineUses := rfl
@[simp] theorem State.setChan_summaries (s : State) (k : Nat) (c : Chan) : (s.setChan k c).summaries = s.summaries := rfl
@[simp] theorem State.setChan_quals (s : State) (k : Nat) (c : Chan) : (s.setChan k c).quals = s.quals := rfl
@[simp] theorem State.setChan_winCur (s : State) (k : Nat) (c : Chan) : (s.setChan k c).winCur = s.winCur := rfl
@[simp] theorem State.setChan_winShown (s : State) (k : Nat) (c : Chan) : (s.setChan k c).winShown = s.winShown := rfl
@[simp] theorem State.setChan_trigIn (s : State) (k : Nat) (c : Chan) : (s.setChan k c).trigIn = s.trigIn := rfl
@[simp] theorem State.setChan_trigOut (s : State) (k : Nat) (c : Chan) : (s.setChan k c).trigOut = s.trigOut := rfl
@[simp] theorem State.setChan_trigs (s : State) (k : Nat) (c : Chan) : (s.setChan k c).trigs = s.trigs := rfl
@[simp] theorem State.setChan_offers (s : State) (k : Nat) (c : Chan) : (s.setChan k c).offers = s.offers := rfl
@[simp] theorem State.setChan_esl (s : State) (k : Nat) (c : Chan) : (s.setChan k c).esl = s.esl := rfl
@[simp] theorem State.setChan_caps (s : State) (k : Nat) (c : Chan) : (s.setChan k c).caps = s.caps := rfl
@[simp] theorem State.setChan_openGroups (s : State) (k : Nat) (c : Chan) : (s.setChan k c).openGroups = s.openGroups := rfl
@[simp] theorem State.setChan_links (s : State) (k : Nat) (c : Chan) : (s.setChan k c).links = s.links := rfl
@[simp] theorem State.setChan_remotes (s : State) (k : Nat) (c : Chan) : (s.setChan k c).remotes = s.remotes := rfl
@[simp] theorem State.setChan_swarm (s : State) (k : Nat) (c : Chan) : (s.setChan k c).swarm = s.swarm := rfl
@[simp] theorem State.setChan_doms (s : State) (k : Nat) (c : Chan) : (s.setChan k c).doms = s.doms := rfl
@[simp] theorem State.setChan_pps (s : State) (k : Nat) (c : Chan) : (s.setChan k c).pps = s.pps := rfl
@[simp] theorem State.setChan_mapTicks (s : State) (k : Nat) (c : Chan) : (s.setChan k c).mapTicks = s.mapTicks := rfl
@[simp] theorem State.setChan_syns (s : State) (k : Nat) (c : Chan) : (s.setChan k c).syns = s.syns := rfl
@[simp] theorem State.setChan_zq (s : State) (k : Nat) (c : Chan) : (s.setChan k c).zq = s.zq := rfl
@[simp] theorem State.setChan_tap (s : State) (k : Nat) (c : Chan) : (s.setChan k c).tap = s.tap := rfl
@[simp] theorem State.setChan_msix (s : State) (k : Nat) (c : Chan) : (s.setChan k c).msix = s.msix := rfl
@[simp] theorem State.setChan_endpoint (s : State) (k : Nat) (c : Chan) : (s.setChan k c).endpoint = s.endpoint := rfl
@[simp] theorem State.setChan_dma (s : State) (k : Nat) (c : Chan) : (s.setChan k c).dma = s.dma := rfl
@[simp] theorem State.setChan_dmaTurn (s : State) (k : Nat) (c : Chan) : (s.setChan k c).dmaTurn = s.dmaTurn := rfl
@[simp] theorem State.setChan_svc (s : State) (k : Nat) (c : Chan) : (s.setChan k c).svc = s.svc := rfl
@[simp] theorem State.setChan_out (s : State) (k : Nat) (c : Chan) : (s.setChan k c).out = s.out := rfl
@[simp] theorem State.setChan_freeCtr (s : State) (k : Nat) (c : Chan) : (s.setChan k c).freeCtr = s.freeCtr := rfl

/-! setCell changes cells only. -/

@[simp] theorem State.setCell_pending (s : State) (c : Nat) (x : Cell) : (s.setCell c x).pending = s.pending := rfl
@[simp] theorem State.setCell_time (s : State) (c : Nat) (x : Cell) : (s.setCell c x).time = s.time := rfl
@[simp] theorem State.setCell_power (s : State) (c : Nat) (x : Cell) : (s.setCell c x).power = s.power := rfl
@[simp] theorem State.setCell_run (s : State) (c : Nat) (x : Cell) : (s.setCell c x).run = s.run := rfl
@[simp] theorem State.setCell_regs (s : State) (c : Nat) (x : Cell) : (s.setCell c x).regs = s.regs := rfl
@[simp] theorem State.setCell_rcNew (s : State) (c : Nat) (x : Cell) : (s.setCell c x).rcNew = s.rcNew := rfl
@[simp] theorem State.setCell_shadows (s : State) (c : Nat) (x : Cell) : (s.setCell c x).shadows = s.shadows := rfl
@[simp] theorem State.setCell_keys (s : State) (c : Nat) (x : Cell) : (s.setCell c x).keys = s.keys := rfl
@[simp] theorem State.setCell_journal (s : State) (c : Nat) (x : Cell) : (s.setCell c x).journal = s.journal := rfl
@[simp] theorem State.setCell_streams (s : State) (c : Nat) (x : Cell) : (s.setCell c x).streams = s.streams := rfl
@[simp] theorem State.setCell_store (s : State) (c : Nat) (x : Cell) : (s.setCell c x).store = s.store := rfl
@[simp] theorem State.setCell_banks (s : State) (c : Nat) (x : Cell) : (s.setCell c x).banks = s.banks := rfl
@[simp] theorem State.setCell_reqs (s : State) (c : Nat) (x : Cell) : (s.setCell c x).reqs = s.reqs := rfl
@[simp] theorem State.setCell_lanes (s : State) (c : Nat) (x : Cell) : (s.setCell c x).lanes = s.lanes := rfl
@[simp] theorem State.setCell_writers (s : State) (c : Nat) (x : Cell) : (s.setCell c x).writers = s.writers := rfl
@[simp] theorem State.setCell_losses (s : State) (c : Nat) (x : Cell) : (s.setCell c x).losses = s.losses := rfl
@[simp] theorem State.setCell_recordingRegions (s : State) (c : Nat) (x : Cell) : (s.setCell c x).recordingRegions = s.recordingRegions := rfl
@[simp] theorem State.setCell_chans (s : State) (c : Nat) (x : Cell) : (s.setCell c x).chans = s.chans := rfl
@[simp] theorem State.setCell_fifos (s : State) (c : Nat) (x : Cell) : (s.setCell c x).fifos = s.fifos := rfl
@[simp] theorem State.setCell_imem (s : State) (c : Nat) (x : Cell) : (s.setCell c x).imem = s.imem := rfl
@[simp] theorem State.setCell_scratch (s : State) (c : Nat) (x : Cell) : (s.setCell c x).scratch = s.scratch := rfl
@[simp] theorem State.setCell_stores (s : State) (c : Nat) (x : Cell) : (s.setCell c x).stores = s.stores := rfl
@[simp] theorem State.setCell_exch (s : State) (c : Nat) (x : Cell) : (s.setCell c x).exch = s.exch := rfl
@[simp] theorem State.setCell_sent (s : State) (c : Nat) (x : Cell) : (s.setCell c x).sent = s.sent := rfl
@[simp] theorem State.setCell_slotUse (s : State) (c : Nat) (x : Cell) : (s.setCell c x).slotUse = s.slotUse := rfl
@[simp] theorem State.setCell_heldAcc (s : State) (c : Nat) (x : Cell) : (s.setCell c x).heldAcc = s.heldAcc := rfl
@[simp] theorem State.setCell_engines (s : State) (c : Nat) (x : Cell) : (s.setCell c x).engines = s.engines := rfl
@[simp] theorem State.setCell_regions (s : State) (c : Nat) (x : Cell) : (s.setCell c x).regions = s.regions := rfl
@[simp] theorem State.setCell_cellInit (s : State) (c : Nat) (x : Cell) : (s.setCell c x).cellInit = s.cellInit := rfl
@[simp] theorem State.setCell_insts (s : State) (c : Nat) (x : Cell) : (s.setCell c x).insts = s.insts := rfl
@[simp] theorem State.setCell_lineUses (s : State) (c : Nat) (x : Cell) : (s.setCell c x).lineUses = s.lineUses := rfl
@[simp] theorem State.setCell_summaries (s : State) (c : Nat) (x : Cell) : (s.setCell c x).summaries = s.summaries := rfl
@[simp] theorem State.setCell_quals (s : State) (c : Nat) (x : Cell) : (s.setCell c x).quals = s.quals := rfl
@[simp] theorem State.setCell_winCur (s : State) (c : Nat) (x : Cell) : (s.setCell c x).winCur = s.winCur := rfl
@[simp] theorem State.setCell_winShown (s : State) (c : Nat) (x : Cell) : (s.setCell c x).winShown = s.winShown := rfl
@[simp] theorem State.setCell_trigIn (s : State) (c : Nat) (x : Cell) : (s.setCell c x).trigIn = s.trigIn := rfl
@[simp] theorem State.setCell_trigOut (s : State) (c : Nat) (x : Cell) : (s.setCell c x).trigOut = s.trigOut := rfl
@[simp] theorem State.setCell_trigs (s : State) (c : Nat) (x : Cell) : (s.setCell c x).trigs = s.trigs := rfl
@[simp] theorem State.setCell_offers (s : State) (c : Nat) (x : Cell) : (s.setCell c x).offers = s.offers := rfl
@[simp] theorem State.setCell_esl (s : State) (c : Nat) (x : Cell) : (s.setCell c x).esl = s.esl := rfl
@[simp] theorem State.setCell_caps (s : State) (c : Nat) (x : Cell) : (s.setCell c x).caps = s.caps := rfl
@[simp] theorem State.setCell_openGroups (s : State) (c : Nat) (x : Cell) : (s.setCell c x).openGroups = s.openGroups := rfl
@[simp] theorem State.setCell_links (s : State) (c : Nat) (x : Cell) : (s.setCell c x).links = s.links := rfl
@[simp] theorem State.setCell_remotes (s : State) (c : Nat) (x : Cell) : (s.setCell c x).remotes = s.remotes := rfl
@[simp] theorem State.setCell_swarm (s : State) (c : Nat) (x : Cell) : (s.setCell c x).swarm = s.swarm := rfl
@[simp] theorem State.setCell_doms (s : State) (c : Nat) (x : Cell) : (s.setCell c x).doms = s.doms := rfl
@[simp] theorem State.setCell_pps (s : State) (c : Nat) (x : Cell) : (s.setCell c x).pps = s.pps := rfl
@[simp] theorem State.setCell_mapTicks (s : State) (c : Nat) (x : Cell) : (s.setCell c x).mapTicks = s.mapTicks := rfl
@[simp] theorem State.setCell_syns (s : State) (c : Nat) (x : Cell) : (s.setCell c x).syns = s.syns := rfl
@[simp] theorem State.setCell_zq (s : State) (c : Nat) (x : Cell) : (s.setCell c x).zq = s.zq := rfl
@[simp] theorem State.setCell_tap (s : State) (c : Nat) (x : Cell) : (s.setCell c x).tap = s.tap := rfl
@[simp] theorem State.setCell_msix (s : State) (c : Nat) (x : Cell) : (s.setCell c x).msix = s.msix := rfl
@[simp] theorem State.setCell_endpoint (s : State) (c : Nat) (x : Cell) : (s.setCell c x).endpoint = s.endpoint := rfl
@[simp] theorem State.setCell_dma (s : State) (c : Nat) (x : Cell) : (s.setCell c x).dma = s.dma := rfl
@[simp] theorem State.setCell_dmaTurn (s : State) (c : Nat) (x : Cell) : (s.setCell c x).dmaTurn = s.dmaTurn := rfl
@[simp] theorem State.setCell_svc (s : State) (c : Nat) (x : Cell) : (s.setCell c x).svc = s.svc := rfl
@[simp] theorem State.setCell_out (s : State) (c : Nat) (x : Cell) : (s.setCell c x).out = s.out := rfl
@[simp] theorem State.setCell_freeCtr (s : State) (c : Nat) (x : Cell) : (s.setCell c x).freeCtr = s.freeCtr := rfl

/-! setHalf changes store only. -/

@[simp] theorem State.setHalf_pending (s : State) (i : Nat) (h : Half) : (s.setHalf i h).pending = s.pending := rfl
@[simp] theorem State.setHalf_time (s : State) (i : Nat) (h : Half) : (s.setHalf i h).time = s.time := rfl
@[simp] theorem State.setHalf_power (s : State) (i : Nat) (h : Half) : (s.setHalf i h).power = s.power := rfl
@[simp] theorem State.setHalf_run (s : State) (i : Nat) (h : Half) : (s.setHalf i h).run = s.run := rfl
@[simp] theorem State.setHalf_regs (s : State) (i : Nat) (h : Half) : (s.setHalf i h).regs = s.regs := rfl
@[simp] theorem State.setHalf_rcNew (s : State) (i : Nat) (h : Half) : (s.setHalf i h).rcNew = s.rcNew := rfl
@[simp] theorem State.setHalf_shadows (s : State) (i : Nat) (h : Half) : (s.setHalf i h).shadows = s.shadows := rfl
@[simp] theorem State.setHalf_keys (s : State) (i : Nat) (h : Half) : (s.setHalf i h).keys = s.keys := rfl
@[simp] theorem State.setHalf_journal (s : State) (i : Nat) (h : Half) : (s.setHalf i h).journal = s.journal := rfl
@[simp] theorem State.setHalf_streams (s : State) (i : Nat) (h : Half) : (s.setHalf i h).streams = s.streams := rfl
@[simp] theorem State.setHalf_banks (s : State) (i : Nat) (h : Half) : (s.setHalf i h).banks = s.banks := rfl
@[simp] theorem State.setHalf_reqs (s : State) (i : Nat) (h : Half) : (s.setHalf i h).reqs = s.reqs := rfl
@[simp] theorem State.setHalf_lanes (s : State) (i : Nat) (h : Half) : (s.setHalf i h).lanes = s.lanes := rfl
@[simp] theorem State.setHalf_writers (s : State) (i : Nat) (h : Half) : (s.setHalf i h).writers = s.writers := rfl
@[simp] theorem State.setHalf_losses (s : State) (i : Nat) (h : Half) : (s.setHalf i h).losses = s.losses := rfl
@[simp] theorem State.setHalf_recordingRegions (s : State) (i : Nat) (h : Half) : (s.setHalf i h).recordingRegions = s.recordingRegions := rfl
@[simp] theorem State.setHalf_chans (s : State) (i : Nat) (h : Half) : (s.setHalf i h).chans = s.chans := rfl
@[simp] theorem State.setHalf_fifos (s : State) (i : Nat) (h : Half) : (s.setHalf i h).fifos = s.fifos := rfl
@[simp] theorem State.setHalf_cells (s : State) (i : Nat) (h : Half) : (s.setHalf i h).cells = s.cells := rfl
@[simp] theorem State.setHalf_imem (s : State) (i : Nat) (h : Half) : (s.setHalf i h).imem = s.imem := rfl
@[simp] theorem State.setHalf_scratch (s : State) (i : Nat) (h : Half) : (s.setHalf i h).scratch = s.scratch := rfl
@[simp] theorem State.setHalf_stores (s : State) (i : Nat) (h : Half) : (s.setHalf i h).stores = s.stores := rfl
@[simp] theorem State.setHalf_exch (s : State) (i : Nat) (h : Half) : (s.setHalf i h).exch = s.exch := rfl
@[simp] theorem State.setHalf_sent (s : State) (i : Nat) (h : Half) : (s.setHalf i h).sent = s.sent := rfl
@[simp] theorem State.setHalf_slotUse (s : State) (i : Nat) (h : Half) : (s.setHalf i h).slotUse = s.slotUse := rfl
@[simp] theorem State.setHalf_heldAcc (s : State) (i : Nat) (h : Half) : (s.setHalf i h).heldAcc = s.heldAcc := rfl
@[simp] theorem State.setHalf_engines (s : State) (i : Nat) (h : Half) : (s.setHalf i h).engines = s.engines := rfl
@[simp] theorem State.setHalf_regions (s : State) (i : Nat) (h : Half) : (s.setHalf i h).regions = s.regions := rfl
@[simp] theorem State.setHalf_cellInit (s : State) (i : Nat) (h : Half) : (s.setHalf i h).cellInit = s.cellInit := rfl
@[simp] theorem State.setHalf_insts (s : State) (i : Nat) (h : Half) : (s.setHalf i h).insts = s.insts := rfl
@[simp] theorem State.setHalf_lineUses (s : State) (i : Nat) (h : Half) : (s.setHalf i h).lineUses = s.lineUses := rfl
@[simp] theorem State.setHalf_summaries (s : State) (i : Nat) (h : Half) : (s.setHalf i h).summaries = s.summaries := rfl
@[simp] theorem State.setHalf_quals (s : State) (i : Nat) (h : Half) : (s.setHalf i h).quals = s.quals := rfl
@[simp] theorem State.setHalf_winCur (s : State) (i : Nat) (h : Half) : (s.setHalf i h).winCur = s.winCur := rfl
@[simp] theorem State.setHalf_winShown (s : State) (i : Nat) (h : Half) : (s.setHalf i h).winShown = s.winShown := rfl
@[simp] theorem State.setHalf_trigIn (s : State) (i : Nat) (h : Half) : (s.setHalf i h).trigIn = s.trigIn := rfl
@[simp] theorem State.setHalf_trigOut (s : State) (i : Nat) (h : Half) : (s.setHalf i h).trigOut = s.trigOut := rfl
@[simp] theorem State.setHalf_trigs (s : State) (i : Nat) (h : Half) : (s.setHalf i h).trigs = s.trigs := rfl
@[simp] theorem State.setHalf_offers (s : State) (i : Nat) (h : Half) : (s.setHalf i h).offers = s.offers := rfl
@[simp] theorem State.setHalf_esl (s : State) (i : Nat) (h : Half) : (s.setHalf i h).esl = s.esl := rfl
@[simp] theorem State.setHalf_caps (s : State) (i : Nat) (h : Half) : (s.setHalf i h).caps = s.caps := rfl
@[simp] theorem State.setHalf_openGroups (s : State) (i : Nat) (h : Half) : (s.setHalf i h).openGroups = s.openGroups := rfl
@[simp] theorem State.setHalf_links (s : State) (i : Nat) (h : Half) : (s.setHalf i h).links = s.links := rfl
@[simp] theorem State.setHalf_remotes (s : State) (i : Nat) (h : Half) : (s.setHalf i h).remotes = s.remotes := rfl
@[simp] theorem State.setHalf_swarm (s : State) (i : Nat) (h : Half) : (s.setHalf i h).swarm = s.swarm := rfl
@[simp] theorem State.setHalf_doms (s : State) (i : Nat) (h : Half) : (s.setHalf i h).doms = s.doms := rfl
@[simp] theorem State.setHalf_pps (s : State) (i : Nat) (h : Half) : (s.setHalf i h).pps = s.pps := rfl
@[simp] theorem State.setHalf_mapTicks (s : State) (i : Nat) (h : Half) : (s.setHalf i h).mapTicks = s.mapTicks := rfl
@[simp] theorem State.setHalf_syns (s : State) (i : Nat) (h : Half) : (s.setHalf i h).syns = s.syns := rfl
@[simp] theorem State.setHalf_zq (s : State) (i : Nat) (h : Half) : (s.setHalf i h).zq = s.zq := rfl
@[simp] theorem State.setHalf_tap (s : State) (i : Nat) (h : Half) : (s.setHalf i h).tap = s.tap := rfl
@[simp] theorem State.setHalf_msix (s : State) (i : Nat) (h : Half) : (s.setHalf i h).msix = s.msix := rfl
@[simp] theorem State.setHalf_endpoint (s : State) (i : Nat) (h : Half) : (s.setHalf i h).endpoint = s.endpoint := rfl
@[simp] theorem State.setHalf_dma (s : State) (i : Nat) (h : Half) : (s.setHalf i h).dma = s.dma := rfl
@[simp] theorem State.setHalf_dmaTurn (s : State) (i : Nat) (h : Half) : (s.setHalf i h).dmaTurn = s.dmaTurn := rfl
@[simp] theorem State.setHalf_svc (s : State) (i : Nat) (h : Half) : (s.setHalf i h).svc = s.svc := rfl
@[simp] theorem State.setHalf_out (s : State) (i : Nat) (h : Half) : (s.setHalf i h).out = s.out := rfl
@[simp] theorem State.setHalf_freeCtr (s : State) (i : Nat) (h : Half) : (s.setHalf i h).freeCtr = s.freeCtr := rfl

/-! setWriter changes writers only. -/

@[simp] theorem State.setWriter_pending (s : State) (i : Nat) (w : Writer) : (s.setWriter i w).pending = s.pending := rfl
@[simp] theorem State.setWriter_time (s : State) (i : Nat) (w : Writer) : (s.setWriter i w).time = s.time := rfl
@[simp] theorem State.setWriter_power (s : State) (i : Nat) (w : Writer) : (s.setWriter i w).power = s.power := rfl
@[simp] theorem State.setWriter_run (s : State) (i : Nat) (w : Writer) : (s.setWriter i w).run = s.run := rfl
@[simp] theorem State.setWriter_regs (s : State) (i : Nat) (w : Writer) : (s.setWriter i w).regs = s.regs := rfl
@[simp] theorem State.setWriter_rcNew (s : State) (i : Nat) (w : Writer) : (s.setWriter i w).rcNew = s.rcNew := rfl
@[simp] theorem State.setWriter_shadows (s : State) (i : Nat) (w : Writer) : (s.setWriter i w).shadows = s.shadows := rfl
@[simp] theorem State.setWriter_keys (s : State) (i : Nat) (w : Writer) : (s.setWriter i w).keys = s.keys := rfl
@[simp] theorem State.setWriter_journal (s : State) (i : Nat) (w : Writer) : (s.setWriter i w).journal = s.journal := rfl
@[simp] theorem State.setWriter_streams (s : State) (i : Nat) (w : Writer) : (s.setWriter i w).streams = s.streams := rfl
@[simp] theorem State.setWriter_store (s : State) (i : Nat) (w : Writer) : (s.setWriter i w).store = s.store := rfl
@[simp] theorem State.setWriter_banks (s : State) (i : Nat) (w : Writer) : (s.setWriter i w).banks = s.banks := rfl
@[simp] theorem State.setWriter_reqs (s : State) (i : Nat) (w : Writer) : (s.setWriter i w).reqs = s.reqs := rfl
@[simp] theorem State.setWriter_lanes (s : State) (i : Nat) (w : Writer) : (s.setWriter i w).lanes = s.lanes := rfl
@[simp] theorem State.setWriter_losses (s : State) (i : Nat) (w : Writer) : (s.setWriter i w).losses = s.losses := rfl
@[simp] theorem State.setWriter_recordingRegions (s : State) (i : Nat) (w : Writer) : (s.setWriter i w).recordingRegions = s.recordingRegions := rfl
@[simp] theorem State.setWriter_chans (s : State) (i : Nat) (w : Writer) : (s.setWriter i w).chans = s.chans := rfl
@[simp] theorem State.setWriter_fifos (s : State) (i : Nat) (w : Writer) : (s.setWriter i w).fifos = s.fifos := rfl
@[simp] theorem State.setWriter_cells (s : State) (i : Nat) (w : Writer) : (s.setWriter i w).cells = s.cells := rfl
@[simp] theorem State.setWriter_imem (s : State) (i : Nat) (w : Writer) : (s.setWriter i w).imem = s.imem := rfl
@[simp] theorem State.setWriter_scratch (s : State) (i : Nat) (w : Writer) : (s.setWriter i w).scratch = s.scratch := rfl
@[simp] theorem State.setWriter_stores (s : State) (i : Nat) (w : Writer) : (s.setWriter i w).stores = s.stores := rfl
@[simp] theorem State.setWriter_exch (s : State) (i : Nat) (w : Writer) : (s.setWriter i w).exch = s.exch := rfl
@[simp] theorem State.setWriter_sent (s : State) (i : Nat) (w : Writer) : (s.setWriter i w).sent = s.sent := rfl
@[simp] theorem State.setWriter_slotUse (s : State) (i : Nat) (w : Writer) : (s.setWriter i w).slotUse = s.slotUse := rfl
@[simp] theorem State.setWriter_heldAcc (s : State) (i : Nat) (w : Writer) : (s.setWriter i w).heldAcc = s.heldAcc := rfl
@[simp] theorem State.setWriter_engines (s : State) (i : Nat) (w : Writer) : (s.setWriter i w).engines = s.engines := rfl
@[simp] theorem State.setWriter_regions (s : State) (i : Nat) (w : Writer) : (s.setWriter i w).regions = s.regions := rfl
@[simp] theorem State.setWriter_cellInit (s : State) (i : Nat) (w : Writer) : (s.setWriter i w).cellInit = s.cellInit := rfl
@[simp] theorem State.setWriter_insts (s : State) (i : Nat) (w : Writer) : (s.setWriter i w).insts = s.insts := rfl
@[simp] theorem State.setWriter_lineUses (s : State) (i : Nat) (w : Writer) : (s.setWriter i w).lineUses = s.lineUses := rfl
@[simp] theorem State.setWriter_summaries (s : State) (i : Nat) (w : Writer) : (s.setWriter i w).summaries = s.summaries := rfl
@[simp] theorem State.setWriter_quals (s : State) (i : Nat) (w : Writer) : (s.setWriter i w).quals = s.quals := rfl
@[simp] theorem State.setWriter_winCur (s : State) (i : Nat) (w : Writer) : (s.setWriter i w).winCur = s.winCur := rfl
@[simp] theorem State.setWriter_winShown (s : State) (i : Nat) (w : Writer) : (s.setWriter i w).winShown = s.winShown := rfl
@[simp] theorem State.setWriter_trigIn (s : State) (i : Nat) (w : Writer) : (s.setWriter i w).trigIn = s.trigIn := rfl
@[simp] theorem State.setWriter_trigOut (s : State) (i : Nat) (w : Writer) : (s.setWriter i w).trigOut = s.trigOut := rfl
@[simp] theorem State.setWriter_trigs (s : State) (i : Nat) (w : Writer) : (s.setWriter i w).trigs = s.trigs := rfl
@[simp] theorem State.setWriter_offers (s : State) (i : Nat) (w : Writer) : (s.setWriter i w).offers = s.offers := rfl
@[simp] theorem State.setWriter_esl (s : State) (i : Nat) (w : Writer) : (s.setWriter i w).esl = s.esl := rfl
@[simp] theorem State.setWriter_caps (s : State) (i : Nat) (w : Writer) : (s.setWriter i w).caps = s.caps := rfl
@[simp] theorem State.setWriter_openGroups (s : State) (i : Nat) (w : Writer) : (s.setWriter i w).openGroups = s.openGroups := rfl
@[simp] theorem State.setWriter_links (s : State) (i : Nat) (w : Writer) : (s.setWriter i w).links = s.links := rfl
@[simp] theorem State.setWriter_remotes (s : State) (i : Nat) (w : Writer) : (s.setWriter i w).remotes = s.remotes := rfl
@[simp] theorem State.setWriter_swarm (s : State) (i : Nat) (w : Writer) : (s.setWriter i w).swarm = s.swarm := rfl
@[simp] theorem State.setWriter_doms (s : State) (i : Nat) (w : Writer) : (s.setWriter i w).doms = s.doms := rfl
@[simp] theorem State.setWriter_pps (s : State) (i : Nat) (w : Writer) : (s.setWriter i w).pps = s.pps := rfl
@[simp] theorem State.setWriter_mapTicks (s : State) (i : Nat) (w : Writer) : (s.setWriter i w).mapTicks = s.mapTicks := rfl
@[simp] theorem State.setWriter_syns (s : State) (i : Nat) (w : Writer) : (s.setWriter i w).syns = s.syns := rfl
@[simp] theorem State.setWriter_zq (s : State) (i : Nat) (w : Writer) : (s.setWriter i w).zq = s.zq := rfl
@[simp] theorem State.setWriter_tap (s : State) (i : Nat) (w : Writer) : (s.setWriter i w).tap = s.tap := rfl
@[simp] theorem State.setWriter_msix (s : State) (i : Nat) (w : Writer) : (s.setWriter i w).msix = s.msix := rfl
@[simp] theorem State.setWriter_endpoint (s : State) (i : Nat) (w : Writer) : (s.setWriter i w).endpoint = s.endpoint := rfl
@[simp] theorem State.setWriter_dma (s : State) (i : Nat) (w : Writer) : (s.setWriter i w).dma = s.dma := rfl
@[simp] theorem State.setWriter_dmaTurn (s : State) (i : Nat) (w : Writer) : (s.setWriter i w).dmaTurn = s.dmaTurn := rfl
@[simp] theorem State.setWriter_svc (s : State) (i : Nat) (w : Writer) : (s.setWriter i w).svc = s.svc := rfl
@[simp] theorem State.setWriter_out (s : State) (i : Nat) (w : Writer) : (s.setWriter i w).out = s.out := rfl
@[simp] theorem State.setWriter_freeCtr (s : State) (i : Nat) (w : Writer) : (s.setWriter i w).freeCtr = s.freeCtr := rfl

/-! setLink changes links only. -/

@[simp] theorem State.setLink_pending (s : State) (p : Nat) (l : LinkSt) : (s.setLink p l).pending = s.pending := rfl
@[simp] theorem State.setLink_time (s : State) (p : Nat) (l : LinkSt) : (s.setLink p l).time = s.time := rfl
@[simp] theorem State.setLink_power (s : State) (p : Nat) (l : LinkSt) : (s.setLink p l).power = s.power := rfl
@[simp] theorem State.setLink_run (s : State) (p : Nat) (l : LinkSt) : (s.setLink p l).run = s.run := rfl
@[simp] theorem State.setLink_regs (s : State) (p : Nat) (l : LinkSt) : (s.setLink p l).regs = s.regs := rfl
@[simp] theorem State.setLink_rcNew (s : State) (p : Nat) (l : LinkSt) : (s.setLink p l).rcNew = s.rcNew := rfl
@[simp] theorem State.setLink_shadows (s : State) (p : Nat) (l : LinkSt) : (s.setLink p l).shadows = s.shadows := rfl
@[simp] theorem State.setLink_keys (s : State) (p : Nat) (l : LinkSt) : (s.setLink p l).keys = s.keys := rfl
@[simp] theorem State.setLink_journal (s : State) (p : Nat) (l : LinkSt) : (s.setLink p l).journal = s.journal := rfl
@[simp] theorem State.setLink_streams (s : State) (p : Nat) (l : LinkSt) : (s.setLink p l).streams = s.streams := rfl
@[simp] theorem State.setLink_store (s : State) (p : Nat) (l : LinkSt) : (s.setLink p l).store = s.store := rfl
@[simp] theorem State.setLink_banks (s : State) (p : Nat) (l : LinkSt) : (s.setLink p l).banks = s.banks := rfl
@[simp] theorem State.setLink_reqs (s : State) (p : Nat) (l : LinkSt) : (s.setLink p l).reqs = s.reqs := rfl
@[simp] theorem State.setLink_lanes (s : State) (p : Nat) (l : LinkSt) : (s.setLink p l).lanes = s.lanes := rfl
@[simp] theorem State.setLink_writers (s : State) (p : Nat) (l : LinkSt) : (s.setLink p l).writers = s.writers := rfl
@[simp] theorem State.setLink_losses (s : State) (p : Nat) (l : LinkSt) : (s.setLink p l).losses = s.losses := rfl
@[simp] theorem State.setLink_recordingRegions (s : State) (p : Nat) (l : LinkSt) : (s.setLink p l).recordingRegions = s.recordingRegions := rfl
@[simp] theorem State.setLink_chans (s : State) (p : Nat) (l : LinkSt) : (s.setLink p l).chans = s.chans := rfl
@[simp] theorem State.setLink_fifos (s : State) (p : Nat) (l : LinkSt) : (s.setLink p l).fifos = s.fifos := rfl
@[simp] theorem State.setLink_cells (s : State) (p : Nat) (l : LinkSt) : (s.setLink p l).cells = s.cells := rfl
@[simp] theorem State.setLink_imem (s : State) (p : Nat) (l : LinkSt) : (s.setLink p l).imem = s.imem := rfl
@[simp] theorem State.setLink_scratch (s : State) (p : Nat) (l : LinkSt) : (s.setLink p l).scratch = s.scratch := rfl
@[simp] theorem State.setLink_stores (s : State) (p : Nat) (l : LinkSt) : (s.setLink p l).stores = s.stores := rfl
@[simp] theorem State.setLink_exch (s : State) (p : Nat) (l : LinkSt) : (s.setLink p l).exch = s.exch := rfl
@[simp] theorem State.setLink_sent (s : State) (p : Nat) (l : LinkSt) : (s.setLink p l).sent = s.sent := rfl
@[simp] theorem State.setLink_slotUse (s : State) (p : Nat) (l : LinkSt) : (s.setLink p l).slotUse = s.slotUse := rfl
@[simp] theorem State.setLink_heldAcc (s : State) (p : Nat) (l : LinkSt) : (s.setLink p l).heldAcc = s.heldAcc := rfl
@[simp] theorem State.setLink_engines (s : State) (p : Nat) (l : LinkSt) : (s.setLink p l).engines = s.engines := rfl
@[simp] theorem State.setLink_regions (s : State) (p : Nat) (l : LinkSt) : (s.setLink p l).regions = s.regions := rfl
@[simp] theorem State.setLink_cellInit (s : State) (p : Nat) (l : LinkSt) : (s.setLink p l).cellInit = s.cellInit := rfl
@[simp] theorem State.setLink_insts (s : State) (p : Nat) (l : LinkSt) : (s.setLink p l).insts = s.insts := rfl
@[simp] theorem State.setLink_lineUses (s : State) (p : Nat) (l : LinkSt) : (s.setLink p l).lineUses = s.lineUses := rfl
@[simp] theorem State.setLink_summaries (s : State) (p : Nat) (l : LinkSt) : (s.setLink p l).summaries = s.summaries := rfl
@[simp] theorem State.setLink_quals (s : State) (p : Nat) (l : LinkSt) : (s.setLink p l).quals = s.quals := rfl
@[simp] theorem State.setLink_winCur (s : State) (p : Nat) (l : LinkSt) : (s.setLink p l).winCur = s.winCur := rfl
@[simp] theorem State.setLink_winShown (s : State) (p : Nat) (l : LinkSt) : (s.setLink p l).winShown = s.winShown := rfl
@[simp] theorem State.setLink_trigIn (s : State) (p : Nat) (l : LinkSt) : (s.setLink p l).trigIn = s.trigIn := rfl
@[simp] theorem State.setLink_trigOut (s : State) (p : Nat) (l : LinkSt) : (s.setLink p l).trigOut = s.trigOut := rfl
@[simp] theorem State.setLink_trigs (s : State) (p : Nat) (l : LinkSt) : (s.setLink p l).trigs = s.trigs := rfl
@[simp] theorem State.setLink_offers (s : State) (p : Nat) (l : LinkSt) : (s.setLink p l).offers = s.offers := rfl
@[simp] theorem State.setLink_esl (s : State) (p : Nat) (l : LinkSt) : (s.setLink p l).esl = s.esl := rfl
@[simp] theorem State.setLink_caps (s : State) (p : Nat) (l : LinkSt) : (s.setLink p l).caps = s.caps := rfl
@[simp] theorem State.setLink_openGroups (s : State) (p : Nat) (l : LinkSt) : (s.setLink p l).openGroups = s.openGroups := rfl
@[simp] theorem State.setLink_remotes (s : State) (p : Nat) (l : LinkSt) : (s.setLink p l).remotes = s.remotes := rfl
@[simp] theorem State.setLink_swarm (s : State) (p : Nat) (l : LinkSt) : (s.setLink p l).swarm = s.swarm := rfl
@[simp] theorem State.setLink_doms (s : State) (p : Nat) (l : LinkSt) : (s.setLink p l).doms = s.doms := rfl
@[simp] theorem State.setLink_pps (s : State) (p : Nat) (l : LinkSt) : (s.setLink p l).pps = s.pps := rfl
@[simp] theorem State.setLink_mapTicks (s : State) (p : Nat) (l : LinkSt) : (s.setLink p l).mapTicks = s.mapTicks := rfl
@[simp] theorem State.setLink_syns (s : State) (p : Nat) (l : LinkSt) : (s.setLink p l).syns = s.syns := rfl
@[simp] theorem State.setLink_zq (s : State) (p : Nat) (l : LinkSt) : (s.setLink p l).zq = s.zq := rfl
@[simp] theorem State.setLink_tap (s : State) (p : Nat) (l : LinkSt) : (s.setLink p l).tap = s.tap := rfl
@[simp] theorem State.setLink_msix (s : State) (p : Nat) (l : LinkSt) : (s.setLink p l).msix = s.msix := rfl
@[simp] theorem State.setLink_endpoint (s : State) (p : Nat) (l : LinkSt) : (s.setLink p l).endpoint = s.endpoint := rfl
@[simp] theorem State.setLink_dma (s : State) (p : Nat) (l : LinkSt) : (s.setLink p l).dma = s.dma := rfl
@[simp] theorem State.setLink_dmaTurn (s : State) (p : Nat) (l : LinkSt) : (s.setLink p l).dmaTurn = s.dmaTurn := rfl
@[simp] theorem State.setLink_svc (s : State) (p : Nat) (l : LinkSt) : (s.setLink p l).svc = s.svc := rfl
@[simp] theorem State.setLink_out (s : State) (p : Nat) (l : LinkSt) : (s.setLink p l).out = s.out := rfl
@[simp] theorem State.setLink_freeCtr (s : State) (p : Nat) (l : LinkSt) : (s.setLink p l).freeCtr = s.freeCtr := rfl

/-! setDom changes doms only. -/

@[simp] theorem State.setDom_pending (s : State) (d : Nat) (x : Dom) : (s.setDom d x).pending = s.pending := rfl
@[simp] theorem State.setDom_time (s : State) (d : Nat) (x : Dom) : (s.setDom d x).time = s.time := rfl
@[simp] theorem State.setDom_power (s : State) (d : Nat) (x : Dom) : (s.setDom d x).power = s.power := rfl
@[simp] theorem State.setDom_run (s : State) (d : Nat) (x : Dom) : (s.setDom d x).run = s.run := rfl
@[simp] theorem State.setDom_regs (s : State) (d : Nat) (x : Dom) : (s.setDom d x).regs = s.regs := rfl
@[simp] theorem State.setDom_rcNew (s : State) (d : Nat) (x : Dom) : (s.setDom d x).rcNew = s.rcNew := rfl
@[simp] theorem State.setDom_shadows (s : State) (d : Nat) (x : Dom) : (s.setDom d x).shadows = s.shadows := rfl
@[simp] theorem State.setDom_keys (s : State) (d : Nat) (x : Dom) : (s.setDom d x).keys = s.keys := rfl
@[simp] theorem State.setDom_journal (s : State) (d : Nat) (x : Dom) : (s.setDom d x).journal = s.journal := rfl
@[simp] theorem State.setDom_streams (s : State) (d : Nat) (x : Dom) : (s.setDom d x).streams = s.streams := rfl
@[simp] theorem State.setDom_store (s : State) (d : Nat) (x : Dom) : (s.setDom d x).store = s.store := rfl
@[simp] theorem State.setDom_banks (s : State) (d : Nat) (x : Dom) : (s.setDom d x).banks = s.banks := rfl
@[simp] theorem State.setDom_reqs (s : State) (d : Nat) (x : Dom) : (s.setDom d x).reqs = s.reqs := rfl
@[simp] theorem State.setDom_lanes (s : State) (d : Nat) (x : Dom) : (s.setDom d x).lanes = s.lanes := rfl
@[simp] theorem State.setDom_writers (s : State) (d : Nat) (x : Dom) : (s.setDom d x).writers = s.writers := rfl
@[simp] theorem State.setDom_losses (s : State) (d : Nat) (x : Dom) : (s.setDom d x).losses = s.losses := rfl
@[simp] theorem State.setDom_recordingRegions (s : State) (d : Nat) (x : Dom) : (s.setDom d x).recordingRegions = s.recordingRegions := rfl
@[simp] theorem State.setDom_chans (s : State) (d : Nat) (x : Dom) : (s.setDom d x).chans = s.chans := rfl
@[simp] theorem State.setDom_fifos (s : State) (d : Nat) (x : Dom) : (s.setDom d x).fifos = s.fifos := rfl
@[simp] theorem State.setDom_cells (s : State) (d : Nat) (x : Dom) : (s.setDom d x).cells = s.cells := rfl
@[simp] theorem State.setDom_imem (s : State) (d : Nat) (x : Dom) : (s.setDom d x).imem = s.imem := rfl
@[simp] theorem State.setDom_scratch (s : State) (d : Nat) (x : Dom) : (s.setDom d x).scratch = s.scratch := rfl
@[simp] theorem State.setDom_stores (s : State) (d : Nat) (x : Dom) : (s.setDom d x).stores = s.stores := rfl
@[simp] theorem State.setDom_exch (s : State) (d : Nat) (x : Dom) : (s.setDom d x).exch = s.exch := rfl
@[simp] theorem State.setDom_sent (s : State) (d : Nat) (x : Dom) : (s.setDom d x).sent = s.sent := rfl
@[simp] theorem State.setDom_slotUse (s : State) (d : Nat) (x : Dom) : (s.setDom d x).slotUse = s.slotUse := rfl
@[simp] theorem State.setDom_heldAcc (s : State) (d : Nat) (x : Dom) : (s.setDom d x).heldAcc = s.heldAcc := rfl
@[simp] theorem State.setDom_engines (s : State) (d : Nat) (x : Dom) : (s.setDom d x).engines = s.engines := rfl
@[simp] theorem State.setDom_regions (s : State) (d : Nat) (x : Dom) : (s.setDom d x).regions = s.regions := rfl
@[simp] theorem State.setDom_cellInit (s : State) (d : Nat) (x : Dom) : (s.setDom d x).cellInit = s.cellInit := rfl
@[simp] theorem State.setDom_insts (s : State) (d : Nat) (x : Dom) : (s.setDom d x).insts = s.insts := rfl
@[simp] theorem State.setDom_lineUses (s : State) (d : Nat) (x : Dom) : (s.setDom d x).lineUses = s.lineUses := rfl
@[simp] theorem State.setDom_summaries (s : State) (d : Nat) (x : Dom) : (s.setDom d x).summaries = s.summaries := rfl
@[simp] theorem State.setDom_quals (s : State) (d : Nat) (x : Dom) : (s.setDom d x).quals = s.quals := rfl
@[simp] theorem State.setDom_winCur (s : State) (d : Nat) (x : Dom) : (s.setDom d x).winCur = s.winCur := rfl
@[simp] theorem State.setDom_winShown (s : State) (d : Nat) (x : Dom) : (s.setDom d x).winShown = s.winShown := rfl
@[simp] theorem State.setDom_trigIn (s : State) (d : Nat) (x : Dom) : (s.setDom d x).trigIn = s.trigIn := rfl
@[simp] theorem State.setDom_trigOut (s : State) (d : Nat) (x : Dom) : (s.setDom d x).trigOut = s.trigOut := rfl
@[simp] theorem State.setDom_trigs (s : State) (d : Nat) (x : Dom) : (s.setDom d x).trigs = s.trigs := rfl
@[simp] theorem State.setDom_offers (s : State) (d : Nat) (x : Dom) : (s.setDom d x).offers = s.offers := rfl
@[simp] theorem State.setDom_esl (s : State) (d : Nat) (x : Dom) : (s.setDom d x).esl = s.esl := rfl
@[simp] theorem State.setDom_caps (s : State) (d : Nat) (x : Dom) : (s.setDom d x).caps = s.caps := rfl
@[simp] theorem State.setDom_openGroups (s : State) (d : Nat) (x : Dom) : (s.setDom d x).openGroups = s.openGroups := rfl
@[simp] theorem State.setDom_links (s : State) (d : Nat) (x : Dom) : (s.setDom d x).links = s.links := rfl
@[simp] theorem State.setDom_remotes (s : State) (d : Nat) (x : Dom) : (s.setDom d x).remotes = s.remotes := rfl
@[simp] theorem State.setDom_swarm (s : State) (d : Nat) (x : Dom) : (s.setDom d x).swarm = s.swarm := rfl
@[simp] theorem State.setDom_pps (s : State) (d : Nat) (x : Dom) : (s.setDom d x).pps = s.pps := rfl
@[simp] theorem State.setDom_mapTicks (s : State) (d : Nat) (x : Dom) : (s.setDom d x).mapTicks = s.mapTicks := rfl
@[simp] theorem State.setDom_syns (s : State) (d : Nat) (x : Dom) : (s.setDom d x).syns = s.syns := rfl
@[simp] theorem State.setDom_zq (s : State) (d : Nat) (x : Dom) : (s.setDom d x).zq = s.zq := rfl
@[simp] theorem State.setDom_tap (s : State) (d : Nat) (x : Dom) : (s.setDom d x).tap = s.tap := rfl
@[simp] theorem State.setDom_msix (s : State) (d : Nat) (x : Dom) : (s.setDom d x).msix = s.msix := rfl
@[simp] theorem State.setDom_endpoint (s : State) (d : Nat) (x : Dom) : (s.setDom d x).endpoint = s.endpoint := rfl
@[simp] theorem State.setDom_dma (s : State) (d : Nat) (x : Dom) : (s.setDom d x).dma = s.dma := rfl
@[simp] theorem State.setDom_dmaTurn (s : State) (d : Nat) (x : Dom) : (s.setDom d x).dmaTurn = s.dmaTurn := rfl
@[simp] theorem State.setDom_svc (s : State) (d : Nat) (x : Dom) : (s.setDom d x).svc = s.svc := rfl
@[simp] theorem State.setDom_out (s : State) (d : Nat) (x : Dom) : (s.setDom d x).out = s.out := rfl
@[simp] theorem State.setDom_freeCtr (s : State) (d : Nat) (x : Dom) : (s.setDom d x).freeCtr = s.freeCtr := rfl

/-! setDmaCh changes dma only. -/

@[simp] theorem State.setDmaCh_pending (s : State) (c : Nat) (x : DmaCh) : (s.setDmaCh c x).pending = s.pending := rfl
@[simp] theorem State.setDmaCh_time (s : State) (c : Nat) (x : DmaCh) : (s.setDmaCh c x).time = s.time := rfl
@[simp] theorem State.setDmaCh_power (s : State) (c : Nat) (x : DmaCh) : (s.setDmaCh c x).power = s.power := rfl
@[simp] theorem State.setDmaCh_run (s : State) (c : Nat) (x : DmaCh) : (s.setDmaCh c x).run = s.run := rfl
@[simp] theorem State.setDmaCh_regs (s : State) (c : Nat) (x : DmaCh) : (s.setDmaCh c x).regs = s.regs := rfl
@[simp] theorem State.setDmaCh_rcNew (s : State) (c : Nat) (x : DmaCh) : (s.setDmaCh c x).rcNew = s.rcNew := rfl
@[simp] theorem State.setDmaCh_shadows (s : State) (c : Nat) (x : DmaCh) : (s.setDmaCh c x).shadows = s.shadows := rfl
@[simp] theorem State.setDmaCh_keys (s : State) (c : Nat) (x : DmaCh) : (s.setDmaCh c x).keys = s.keys := rfl
@[simp] theorem State.setDmaCh_journal (s : State) (c : Nat) (x : DmaCh) : (s.setDmaCh c x).journal = s.journal := rfl
@[simp] theorem State.setDmaCh_streams (s : State) (c : Nat) (x : DmaCh) : (s.setDmaCh c x).streams = s.streams := rfl
@[simp] theorem State.setDmaCh_store (s : State) (c : Nat) (x : DmaCh) : (s.setDmaCh c x).store = s.store := rfl
@[simp] theorem State.setDmaCh_banks (s : State) (c : Nat) (x : DmaCh) : (s.setDmaCh c x).banks = s.banks := rfl
@[simp] theorem State.setDmaCh_reqs (s : State) (c : Nat) (x : DmaCh) : (s.setDmaCh c x).reqs = s.reqs := rfl
@[simp] theorem State.setDmaCh_lanes (s : State) (c : Nat) (x : DmaCh) : (s.setDmaCh c x).lanes = s.lanes := rfl
@[simp] theorem State.setDmaCh_writers (s : State) (c : Nat) (x : DmaCh) : (s.setDmaCh c x).writers = s.writers := rfl
@[simp] theorem State.setDmaCh_losses (s : State) (c : Nat) (x : DmaCh) : (s.setDmaCh c x).losses = s.losses := rfl
@[simp] theorem State.setDmaCh_recordingRegions (s : State) (c : Nat) (x : DmaCh) : (s.setDmaCh c x).recordingRegions = s.recordingRegions := rfl
@[simp] theorem State.setDmaCh_chans (s : State) (c : Nat) (x : DmaCh) : (s.setDmaCh c x).chans = s.chans := rfl
@[simp] theorem State.setDmaCh_fifos (s : State) (c : Nat) (x : DmaCh) : (s.setDmaCh c x).fifos = s.fifos := rfl
@[simp] theorem State.setDmaCh_cells (s : State) (c : Nat) (x : DmaCh) : (s.setDmaCh c x).cells = s.cells := rfl
@[simp] theorem State.setDmaCh_imem (s : State) (c : Nat) (x : DmaCh) : (s.setDmaCh c x).imem = s.imem := rfl
@[simp] theorem State.setDmaCh_scratch (s : State) (c : Nat) (x : DmaCh) : (s.setDmaCh c x).scratch = s.scratch := rfl
@[simp] theorem State.setDmaCh_stores (s : State) (c : Nat) (x : DmaCh) : (s.setDmaCh c x).stores = s.stores := rfl
@[simp] theorem State.setDmaCh_exch (s : State) (c : Nat) (x : DmaCh) : (s.setDmaCh c x).exch = s.exch := rfl
@[simp] theorem State.setDmaCh_sent (s : State) (c : Nat) (x : DmaCh) : (s.setDmaCh c x).sent = s.sent := rfl
@[simp] theorem State.setDmaCh_slotUse (s : State) (c : Nat) (x : DmaCh) : (s.setDmaCh c x).slotUse = s.slotUse := rfl
@[simp] theorem State.setDmaCh_heldAcc (s : State) (c : Nat) (x : DmaCh) : (s.setDmaCh c x).heldAcc = s.heldAcc := rfl
@[simp] theorem State.setDmaCh_engines (s : State) (c : Nat) (x : DmaCh) : (s.setDmaCh c x).engines = s.engines := rfl
@[simp] theorem State.setDmaCh_regions (s : State) (c : Nat) (x : DmaCh) : (s.setDmaCh c x).regions = s.regions := rfl
@[simp] theorem State.setDmaCh_cellInit (s : State) (c : Nat) (x : DmaCh) : (s.setDmaCh c x).cellInit = s.cellInit := rfl
@[simp] theorem State.setDmaCh_insts (s : State) (c : Nat) (x : DmaCh) : (s.setDmaCh c x).insts = s.insts := rfl
@[simp] theorem State.setDmaCh_lineUses (s : State) (c : Nat) (x : DmaCh) : (s.setDmaCh c x).lineUses = s.lineUses := rfl
@[simp] theorem State.setDmaCh_summaries (s : State) (c : Nat) (x : DmaCh) : (s.setDmaCh c x).summaries = s.summaries := rfl
@[simp] theorem State.setDmaCh_quals (s : State) (c : Nat) (x : DmaCh) : (s.setDmaCh c x).quals = s.quals := rfl
@[simp] theorem State.setDmaCh_winCur (s : State) (c : Nat) (x : DmaCh) : (s.setDmaCh c x).winCur = s.winCur := rfl
@[simp] theorem State.setDmaCh_winShown (s : State) (c : Nat) (x : DmaCh) : (s.setDmaCh c x).winShown = s.winShown := rfl
@[simp] theorem State.setDmaCh_trigIn (s : State) (c : Nat) (x : DmaCh) : (s.setDmaCh c x).trigIn = s.trigIn := rfl
@[simp] theorem State.setDmaCh_trigOut (s : State) (c : Nat) (x : DmaCh) : (s.setDmaCh c x).trigOut = s.trigOut := rfl
@[simp] theorem State.setDmaCh_trigs (s : State) (c : Nat) (x : DmaCh) : (s.setDmaCh c x).trigs = s.trigs := rfl
@[simp] theorem State.setDmaCh_offers (s : State) (c : Nat) (x : DmaCh) : (s.setDmaCh c x).offers = s.offers := rfl
@[simp] theorem State.setDmaCh_esl (s : State) (c : Nat) (x : DmaCh) : (s.setDmaCh c x).esl = s.esl := rfl
@[simp] theorem State.setDmaCh_caps (s : State) (c : Nat) (x : DmaCh) : (s.setDmaCh c x).caps = s.caps := rfl
@[simp] theorem State.setDmaCh_openGroups (s : State) (c : Nat) (x : DmaCh) : (s.setDmaCh c x).openGroups = s.openGroups := rfl
@[simp] theorem State.setDmaCh_links (s : State) (c : Nat) (x : DmaCh) : (s.setDmaCh c x).links = s.links := rfl
@[simp] theorem State.setDmaCh_remotes (s : State) (c : Nat) (x : DmaCh) : (s.setDmaCh c x).remotes = s.remotes := rfl
@[simp] theorem State.setDmaCh_swarm (s : State) (c : Nat) (x : DmaCh) : (s.setDmaCh c x).swarm = s.swarm := rfl
@[simp] theorem State.setDmaCh_doms (s : State) (c : Nat) (x : DmaCh) : (s.setDmaCh c x).doms = s.doms := rfl
@[simp] theorem State.setDmaCh_pps (s : State) (c : Nat) (x : DmaCh) : (s.setDmaCh c x).pps = s.pps := rfl
@[simp] theorem State.setDmaCh_mapTicks (s : State) (c : Nat) (x : DmaCh) : (s.setDmaCh c x).mapTicks = s.mapTicks := rfl
@[simp] theorem State.setDmaCh_syns (s : State) (c : Nat) (x : DmaCh) : (s.setDmaCh c x).syns = s.syns := rfl
@[simp] theorem State.setDmaCh_zq (s : State) (c : Nat) (x : DmaCh) : (s.setDmaCh c x).zq = s.zq := rfl
@[simp] theorem State.setDmaCh_tap (s : State) (c : Nat) (x : DmaCh) : (s.setDmaCh c x).tap = s.tap := rfl
@[simp] theorem State.setDmaCh_msix (s : State) (c : Nat) (x : DmaCh) : (s.setDmaCh c x).msix = s.msix := rfl
@[simp] theorem State.setDmaCh_endpoint (s : State) (c : Nat) (x : DmaCh) : (s.setDmaCh c x).endpoint = s.endpoint := rfl
@[simp] theorem State.setDmaCh_dmaTurn (s : State) (c : Nat) (x : DmaCh) : (s.setDmaCh c x).dmaTurn = s.dmaTurn := rfl
@[simp] theorem State.setDmaCh_svc (s : State) (c : Nat) (x : DmaCh) : (s.setDmaCh c x).svc = s.svc := rfl
@[simp] theorem State.setDmaCh_out (s : State) (c : Nat) (x : DmaCh) : (s.setDmaCh c x).out = s.out := rfl
@[simp] theorem State.setDmaCh_freeCtr (s : State) (c : Nat) (x : DmaCh) : (s.setDmaCh c x).freeCtr = s.freeCtr := rfl

/-! setFresh changes rcNew only. -/

@[simp] theorem State.setFresh_pending (s : State) (a : Nat) (x : Fresh) : (s.setFresh a x).pending = s.pending := rfl
@[simp] theorem State.setFresh_time (s : State) (a : Nat) (x : Fresh) : (s.setFresh a x).time = s.time := rfl
@[simp] theorem State.setFresh_power (s : State) (a : Nat) (x : Fresh) : (s.setFresh a x).power = s.power := rfl
@[simp] theorem State.setFresh_run (s : State) (a : Nat) (x : Fresh) : (s.setFresh a x).run = s.run := rfl
@[simp] theorem State.setFresh_regs (s : State) (a : Nat) (x : Fresh) : (s.setFresh a x).regs = s.regs := rfl
@[simp] theorem State.setFresh_shadows (s : State) (a : Nat) (x : Fresh) : (s.setFresh a x).shadows = s.shadows := rfl
@[simp] theorem State.setFresh_keys (s : State) (a : Nat) (x : Fresh) : (s.setFresh a x).keys = s.keys := rfl
@[simp] theorem State.setFresh_journal (s : State) (a : Nat) (x : Fresh) : (s.setFresh a x).journal = s.journal := rfl
@[simp] theorem State.setFresh_streams (s : State) (a : Nat) (x : Fresh) : (s.setFresh a x).streams = s.streams := rfl
@[simp] theorem State.setFresh_store (s : State) (a : Nat) (x : Fresh) : (s.setFresh a x).store = s.store := rfl
@[simp] theorem State.setFresh_banks (s : State) (a : Nat) (x : Fresh) : (s.setFresh a x).banks = s.banks := rfl
@[simp] theorem State.setFresh_reqs (s : State) (a : Nat) (x : Fresh) : (s.setFresh a x).reqs = s.reqs := rfl
@[simp] theorem State.setFresh_lanes (s : State) (a : Nat) (x : Fresh) : (s.setFresh a x).lanes = s.lanes := rfl
@[simp] theorem State.setFresh_writers (s : State) (a : Nat) (x : Fresh) : (s.setFresh a x).writers = s.writers := rfl
@[simp] theorem State.setFresh_losses (s : State) (a : Nat) (x : Fresh) : (s.setFresh a x).losses = s.losses := rfl
@[simp] theorem State.setFresh_recordingRegions (s : State) (a : Nat) (x : Fresh) : (s.setFresh a x).recordingRegions = s.recordingRegions := rfl
@[simp] theorem State.setFresh_chans (s : State) (a : Nat) (x : Fresh) : (s.setFresh a x).chans = s.chans := rfl
@[simp] theorem State.setFresh_fifos (s : State) (a : Nat) (x : Fresh) : (s.setFresh a x).fifos = s.fifos := rfl
@[simp] theorem State.setFresh_cells (s : State) (a : Nat) (x : Fresh) : (s.setFresh a x).cells = s.cells := rfl
@[simp] theorem State.setFresh_imem (s : State) (a : Nat) (x : Fresh) : (s.setFresh a x).imem = s.imem := rfl
@[simp] theorem State.setFresh_scratch (s : State) (a : Nat) (x : Fresh) : (s.setFresh a x).scratch = s.scratch := rfl
@[simp] theorem State.setFresh_stores (s : State) (a : Nat) (x : Fresh) : (s.setFresh a x).stores = s.stores := rfl
@[simp] theorem State.setFresh_exch (s : State) (a : Nat) (x : Fresh) : (s.setFresh a x).exch = s.exch := rfl
@[simp] theorem State.setFresh_sent (s : State) (a : Nat) (x : Fresh) : (s.setFresh a x).sent = s.sent := rfl
@[simp] theorem State.setFresh_slotUse (s : State) (a : Nat) (x : Fresh) : (s.setFresh a x).slotUse = s.slotUse := rfl
@[simp] theorem State.setFresh_heldAcc (s : State) (a : Nat) (x : Fresh) : (s.setFresh a x).heldAcc = s.heldAcc := rfl
@[simp] theorem State.setFresh_engines (s : State) (a : Nat) (x : Fresh) : (s.setFresh a x).engines = s.engines := rfl
@[simp] theorem State.setFresh_regions (s : State) (a : Nat) (x : Fresh) : (s.setFresh a x).regions = s.regions := rfl
@[simp] theorem State.setFresh_cellInit (s : State) (a : Nat) (x : Fresh) : (s.setFresh a x).cellInit = s.cellInit := rfl
@[simp] theorem State.setFresh_insts (s : State) (a : Nat) (x : Fresh) : (s.setFresh a x).insts = s.insts := rfl
@[simp] theorem State.setFresh_lineUses (s : State) (a : Nat) (x : Fresh) : (s.setFresh a x).lineUses = s.lineUses := rfl
@[simp] theorem State.setFresh_summaries (s : State) (a : Nat) (x : Fresh) : (s.setFresh a x).summaries = s.summaries := rfl
@[simp] theorem State.setFresh_quals (s : State) (a : Nat) (x : Fresh) : (s.setFresh a x).quals = s.quals := rfl
@[simp] theorem State.setFresh_winCur (s : State) (a : Nat) (x : Fresh) : (s.setFresh a x).winCur = s.winCur := rfl
@[simp] theorem State.setFresh_winShown (s : State) (a : Nat) (x : Fresh) : (s.setFresh a x).winShown = s.winShown := rfl
@[simp] theorem State.setFresh_trigIn (s : State) (a : Nat) (x : Fresh) : (s.setFresh a x).trigIn = s.trigIn := rfl
@[simp] theorem State.setFresh_trigOut (s : State) (a : Nat) (x : Fresh) : (s.setFresh a x).trigOut = s.trigOut := rfl
@[simp] theorem State.setFresh_trigs (s : State) (a : Nat) (x : Fresh) : (s.setFresh a x).trigs = s.trigs := rfl
@[simp] theorem State.setFresh_offers (s : State) (a : Nat) (x : Fresh) : (s.setFresh a x).offers = s.offers := rfl
@[simp] theorem State.setFresh_esl (s : State) (a : Nat) (x : Fresh) : (s.setFresh a x).esl = s.esl := rfl
@[simp] theorem State.setFresh_caps (s : State) (a : Nat) (x : Fresh) : (s.setFresh a x).caps = s.caps := rfl
@[simp] theorem State.setFresh_openGroups (s : State) (a : Nat) (x : Fresh) : (s.setFresh a x).openGroups = s.openGroups := rfl
@[simp] theorem State.setFresh_links (s : State) (a : Nat) (x : Fresh) : (s.setFresh a x).links = s.links := rfl
@[simp] theorem State.setFresh_remotes (s : State) (a : Nat) (x : Fresh) : (s.setFresh a x).remotes = s.remotes := rfl
@[simp] theorem State.setFresh_swarm (s : State) (a : Nat) (x : Fresh) : (s.setFresh a x).swarm = s.swarm := rfl
@[simp] theorem State.setFresh_doms (s : State) (a : Nat) (x : Fresh) : (s.setFresh a x).doms = s.doms := rfl
@[simp] theorem State.setFresh_pps (s : State) (a : Nat) (x : Fresh) : (s.setFresh a x).pps = s.pps := rfl
@[simp] theorem State.setFresh_mapTicks (s : State) (a : Nat) (x : Fresh) : (s.setFresh a x).mapTicks = s.mapTicks := rfl
@[simp] theorem State.setFresh_syns (s : State) (a : Nat) (x : Fresh) : (s.setFresh a x).syns = s.syns := rfl
@[simp] theorem State.setFresh_zq (s : State) (a : Nat) (x : Fresh) : (s.setFresh a x).zq = s.zq := rfl
@[simp] theorem State.setFresh_tap (s : State) (a : Nat) (x : Fresh) : (s.setFresh a x).tap = s.tap := rfl
@[simp] theorem State.setFresh_msix (s : State) (a : Nat) (x : Fresh) : (s.setFresh a x).msix = s.msix := rfl
@[simp] theorem State.setFresh_endpoint (s : State) (a : Nat) (x : Fresh) : (s.setFresh a x).endpoint = s.endpoint := rfl
@[simp] theorem State.setFresh_dma (s : State) (a : Nat) (x : Fresh) : (s.setFresh a x).dma = s.dma := rfl
@[simp] theorem State.setFresh_dmaTurn (s : State) (a : Nat) (x : Fresh) : (s.setFresh a x).dmaTurn = s.dmaTurn := rfl
@[simp] theorem State.setFresh_svc (s : State) (a : Nat) (x : Fresh) : (s.setFresh a x).svc = s.svc := rfl
@[simp] theorem State.setFresh_out (s : State) (a : Nat) (x : Fresh) : (s.setFresh a x).out = s.out := rfl
@[simp] theorem State.setFresh_freeCtr (s : State) (a : Nat) (x : Fresh) : (s.setFresh a x).freeCtr = s.freeCtr := rfl

/-! setLanes changes lanes only. -/

@[simp] theorem State.setLanes_pending (s : State) (n : Nat) (x : Lanes) : (s.setLanes n x).pending = s.pending := rfl
@[simp] theorem State.setLanes_time (s : State) (n : Nat) (x : Lanes) : (s.setLanes n x).time = s.time := rfl
@[simp] theorem State.setLanes_power (s : State) (n : Nat) (x : Lanes) : (s.setLanes n x).power = s.power := rfl
@[simp] theorem State.setLanes_run (s : State) (n : Nat) (x : Lanes) : (s.setLanes n x).run = s.run := rfl
@[simp] theorem State.setLanes_regs (s : State) (n : Nat) (x : Lanes) : (s.setLanes n x).regs = s.regs := rfl
@[simp] theorem State.setLanes_rcNew (s : State) (n : Nat) (x : Lanes) : (s.setLanes n x).rcNew = s.rcNew := rfl
@[simp] theorem State.setLanes_shadows (s : State) (n : Nat) (x : Lanes) : (s.setLanes n x).shadows = s.shadows := rfl
@[simp] theorem State.setLanes_keys (s : State) (n : Nat) (x : Lanes) : (s.setLanes n x).keys = s.keys := rfl
@[simp] theorem State.setLanes_journal (s : State) (n : Nat) (x : Lanes) : (s.setLanes n x).journal = s.journal := rfl
@[simp] theorem State.setLanes_streams (s : State) (n : Nat) (x : Lanes) : (s.setLanes n x).streams = s.streams := rfl
@[simp] theorem State.setLanes_store (s : State) (n : Nat) (x : Lanes) : (s.setLanes n x).store = s.store := rfl
@[simp] theorem State.setLanes_banks (s : State) (n : Nat) (x : Lanes) : (s.setLanes n x).banks = s.banks := rfl
@[simp] theorem State.setLanes_reqs (s : State) (n : Nat) (x : Lanes) : (s.setLanes n x).reqs = s.reqs := rfl
@[simp] theorem State.setLanes_writers (s : State) (n : Nat) (x : Lanes) : (s.setLanes n x).writers = s.writers := rfl
@[simp] theorem State.setLanes_losses (s : State) (n : Nat) (x : Lanes) : (s.setLanes n x).losses = s.losses := rfl
@[simp] theorem State.setLanes_recordingRegions (s : State) (n : Nat) (x : Lanes) : (s.setLanes n x).recordingRegions = s.recordingRegions := rfl
@[simp] theorem State.setLanes_chans (s : State) (n : Nat) (x : Lanes) : (s.setLanes n x).chans = s.chans := rfl
@[simp] theorem State.setLanes_fifos (s : State) (n : Nat) (x : Lanes) : (s.setLanes n x).fifos = s.fifos := rfl
@[simp] theorem State.setLanes_cells (s : State) (n : Nat) (x : Lanes) : (s.setLanes n x).cells = s.cells := rfl
@[simp] theorem State.setLanes_imem (s : State) (n : Nat) (x : Lanes) : (s.setLanes n x).imem = s.imem := rfl
@[simp] theorem State.setLanes_scratch (s : State) (n : Nat) (x : Lanes) : (s.setLanes n x).scratch = s.scratch := rfl
@[simp] theorem State.setLanes_stores (s : State) (n : Nat) (x : Lanes) : (s.setLanes n x).stores = s.stores := rfl
@[simp] theorem State.setLanes_exch (s : State) (n : Nat) (x : Lanes) : (s.setLanes n x).exch = s.exch := rfl
@[simp] theorem State.setLanes_sent (s : State) (n : Nat) (x : Lanes) : (s.setLanes n x).sent = s.sent := rfl
@[simp] theorem State.setLanes_slotUse (s : State) (n : Nat) (x : Lanes) : (s.setLanes n x).slotUse = s.slotUse := rfl
@[simp] theorem State.setLanes_heldAcc (s : State) (n : Nat) (x : Lanes) : (s.setLanes n x).heldAcc = s.heldAcc := rfl
@[simp] theorem State.setLanes_engines (s : State) (n : Nat) (x : Lanes) : (s.setLanes n x).engines = s.engines := rfl
@[simp] theorem State.setLanes_regions (s : State) (n : Nat) (x : Lanes) : (s.setLanes n x).regions = s.regions := rfl
@[simp] theorem State.setLanes_cellInit (s : State) (n : Nat) (x : Lanes) : (s.setLanes n x).cellInit = s.cellInit := rfl
@[simp] theorem State.setLanes_insts (s : State) (n : Nat) (x : Lanes) : (s.setLanes n x).insts = s.insts := rfl
@[simp] theorem State.setLanes_lineUses (s : State) (n : Nat) (x : Lanes) : (s.setLanes n x).lineUses = s.lineUses := rfl
@[simp] theorem State.setLanes_summaries (s : State) (n : Nat) (x : Lanes) : (s.setLanes n x).summaries = s.summaries := rfl
@[simp] theorem State.setLanes_quals (s : State) (n : Nat) (x : Lanes) : (s.setLanes n x).quals = s.quals := rfl
@[simp] theorem State.setLanes_winCur (s : State) (n : Nat) (x : Lanes) : (s.setLanes n x).winCur = s.winCur := rfl
@[simp] theorem State.setLanes_winShown (s : State) (n : Nat) (x : Lanes) : (s.setLanes n x).winShown = s.winShown := rfl
@[simp] theorem State.setLanes_trigIn (s : State) (n : Nat) (x : Lanes) : (s.setLanes n x).trigIn = s.trigIn := rfl
@[simp] theorem State.setLanes_trigOut (s : State) (n : Nat) (x : Lanes) : (s.setLanes n x).trigOut = s.trigOut := rfl
@[simp] theorem State.setLanes_trigs (s : State) (n : Nat) (x : Lanes) : (s.setLanes n x).trigs = s.trigs := rfl
@[simp] theorem State.setLanes_offers (s : State) (n : Nat) (x : Lanes) : (s.setLanes n x).offers = s.offers := rfl
@[simp] theorem State.setLanes_esl (s : State) (n : Nat) (x : Lanes) : (s.setLanes n x).esl = s.esl := rfl
@[simp] theorem State.setLanes_caps (s : State) (n : Nat) (x : Lanes) : (s.setLanes n x).caps = s.caps := rfl
@[simp] theorem State.setLanes_openGroups (s : State) (n : Nat) (x : Lanes) : (s.setLanes n x).openGroups = s.openGroups := rfl
@[simp] theorem State.setLanes_links (s : State) (n : Nat) (x : Lanes) : (s.setLanes n x).links = s.links := rfl
@[simp] theorem State.setLanes_remotes (s : State) (n : Nat) (x : Lanes) : (s.setLanes n x).remotes = s.remotes := rfl
@[simp] theorem State.setLanes_swarm (s : State) (n : Nat) (x : Lanes) : (s.setLanes n x).swarm = s.swarm := rfl
@[simp] theorem State.setLanes_doms (s : State) (n : Nat) (x : Lanes) : (s.setLanes n x).doms = s.doms := rfl
@[simp] theorem State.setLanes_pps (s : State) (n : Nat) (x : Lanes) : (s.setLanes n x).pps = s.pps := rfl
@[simp] theorem State.setLanes_mapTicks (s : State) (n : Nat) (x : Lanes) : (s.setLanes n x).mapTicks = s.mapTicks := rfl
@[simp] theorem State.setLanes_syns (s : State) (n : Nat) (x : Lanes) : (s.setLanes n x).syns = s.syns := rfl
@[simp] theorem State.setLanes_zq (s : State) (n : Nat) (x : Lanes) : (s.setLanes n x).zq = s.zq := rfl
@[simp] theorem State.setLanes_tap (s : State) (n : Nat) (x : Lanes) : (s.setLanes n x).tap = s.tap := rfl
@[simp] theorem State.setLanes_msix (s : State) (n : Nat) (x : Lanes) : (s.setLanes n x).msix = s.msix := rfl
@[simp] theorem State.setLanes_endpoint (s : State) (n : Nat) (x : Lanes) : (s.setLanes n x).endpoint = s.endpoint := rfl
@[simp] theorem State.setLanes_dma (s : State) (n : Nat) (x : Lanes) : (s.setLanes n x).dma = s.dma := rfl
@[simp] theorem State.setLanes_dmaTurn (s : State) (n : Nat) (x : Lanes) : (s.setLanes n x).dmaTurn = s.dmaTurn := rfl
@[simp] theorem State.setLanes_svc (s : State) (n : Nat) (x : Lanes) : (s.setLanes n x).svc = s.svc := rfl
@[simp] theorem State.setLanes_out (s : State) (n : Nat) (x : Lanes) : (s.setLanes n x).out = s.out := rfl
@[simp] theorem State.setLanes_freeCtr (s : State) (n : Nat) (x : Lanes) : (s.setLanes n x).freeCtr = s.freeCtr := rfl

/-! What is read back. -/

theorem State.chan_setChan {s : State} (hc : s.Canonical) (k : Nat) (c : Chan) (j : Nat) :
    (s.setChan k c).chan j = if j = k then c else s.chan j := Tab.get_set _ _ _ _ hc.chans
theorem State.cell_setCell {s : State} (hc : s.Canonical) (c : Nat) (x : Cell) (j : Nat) :
    (s.setCell c x).cell j = if j = c then x else s.cell j := Tab.get_set _ _ _ _ hc.cells
theorem State.half_setHalf {s : State} (hc : s.Canonical) (i : Nat) (h : Half) (j : Nat) :
    (s.setHalf i h).half j = if j = i then h else s.half j := Tab.get_set _ _ _ _ hc.store
theorem State.writer_setWriter {s : State} (hc : s.Canonical) (i : Nat) (w : Writer) (j : Nat) :
    (s.setWriter i w).writer j = if j = i then w else s.writer j := Tab.get_set _ _ _ _ hc.writers
theorem State.link_setLink {s : State} (hc : s.Canonical) (p : Nat) (l : LinkSt) (j : Nat) :
    (s.setLink p l).link j = if j = p then l else s.link j := Tab.get_set _ _ _ _ hc.links
theorem State.dom_setDom {s : State} (hc : s.Canonical) (d : Nat) (x : Dom) (j : Nat) :
    (s.setDom d x).dom j = if j = d then x else s.dom j := Tab.get_set _ _ _ _ hc.doms
theorem State.dmaCh_setDmaCh {s : State} (hc : s.Canonical) (c : Nat) (x : DmaCh) (j : Nat) :
    (s.setDmaCh c x).dmaCh j = if j = c then x else s.dmaCh j := Tab.get_set _ _ _ _ hc.dma

end Sys2Proof.Machine
end

