-- ==== Sys2Proof/Laws/Cells.lean ====
section
/-! SUPPORT. Laws of a cell's slot: the instruction of the slot runs once on the cell as it stands, and its results wait to land. -/
namespace Sys2Proof.Machine
open Sys2Proof

section
variable {s : State} {c : Nat} {i : CellInstr} {gp : Bool}

/-- What the slot of an issuing cell fetches. -/
theorem State.Fetches.fetch (h : s.Fetches c i) : s.fetchCell c = some (s.iword c (s.slot (cellRegion c))) := by
  have hr : ((s.cell c).ranAt != some s.time.tclk) = true := by simpa using h.once
  simp only [State.fetchCell, State.runsSlot, h.live, h.executes, h.runs, hr, Option.any_none, Bool.not_false, Bool.true_or, Bool.and_self, if_true]

/-- An issuing cell runs its instruction once, on the cell as it stands. -/
theorem State.Issues.run (h : s.Issues c i gp) {want : CellOp → Bool} (hw : want i.op = true) (run : CellOp → Bool → State → State) :
    s.cellRun c want run = run i.op gp (s.markRan c) := by
  simp only [State.cellRun, h.toFetches.fetch, h.intact, h.clean, h.decodes, hw, h.guard, h.aligned, Bool.or_self, Bool.false_eq_true, if_false, Bool.not_true]

theorem State.Fetches.markRan_cell (h : s.Fetches c i) (j : Nat) :
    (s.markRan c).cell j = if j = c then { s.cellNow c with ranAt := some s.time.tclk } else s.cell j := State.cell_setCell h.canonical _ _ _

/-- An instruction whose guard is false only takes its slot. -/
theorem State.Fetches.skip (h : s.Fetches c i) (hg : (s.cellNow c).guardOf i = none) {want : CellOp → Bool} (hw : want i.op = true)
    (run : CellOp → Bool → State → State) : s.cellRun c want run = s.markRan c := by
  simp only [State.cellRun, h.fetch, h.intact, h.clean, h.decodes, hw, hg, Bool.or_self, Bool.false_eq_true, if_false, Bool.not_true]

/-- Its results wait for the end of their cycles, and nothing else changes. -/
theorem State.Issues.land (h : s.Issues c i gp) (l : List (Nat × Item)) :
    OnlyCell s ((s.markRan c).land c l) c ((s.cellNow c).issued s.time.tclk (l.map fun p => (s.time.tclk + p.1 - 1, p.2))) := by
  have hc : (s.markRan c).Canonical := { h.canonical with cells := Tab.set_wf _ _ _ h.canonical.cells }
  refine ⟨rfl, ?_, ?_⟩
  · unfold State.land
    dsimp only
    rw [State.cell_setCell hc, if_pos rfl, h.toFetches.markRan_cell, if_pos rfl]
    rfl
  · intro j hj
    unfold State.land
    dsimp only
    rw [State.cell_setCell hc, if_neg hj, h.toFetches.markRan_cell, if_neg hj]

end

/-- A state in which no capture waits to end the run and some region executes has nothing to settle. -/
theorem State.settle_executes {s : State} (h : s.run.endRun = none) {n : Nat} (hn : n < 8) (he : s.executes n = true) : s.settle = s := by
  have h1 : (allRegions.any fun n => s.executes n) = true := List.any_eq_true.2 ⟨n, List.mem_range.2 hn, he⟩
  simp only [State.settle, State.endRun, h, State.settleStop, h1, Bool.not_true, Bool.and_false, Bool.false_eq_true, if_false]

/-- Only a cell has changed: nothing settles. -/
theorem State.Fetches.settle {s : State} {c : Fin 1024} {i : CellInstr} (h : s.Fetches c i) {t : State} (ht : t = { s with cells := t.cells }) :
    t.settle = t := by
  refine State.settle_executes (n := cellRegion c) ?_ ?_ ?_
  · rw [ht]; exact h.calm
  · have := c.isLt; unfold cellRegion; omega
  · have := h.executes; rw [ht]; exact this

/-- The results of a LOGIC, ARITH or IMM operation; none for any other. -/
def Cell.aluItems (x : Cell) (gp : Bool) : CellOp → Option (List (Nat × Item))
  | .logic tt m d a b => some (x.logic gp tt m d a b)
  | .arith op cc d a b => some (x.arith gp op cc d a b)
  | .imm iop d i => some (x.imm gp iop d i)
  | _ => none

/-- The results depend on the cell's registers, predicates and carry alone. -/
theorem Cell.aluItems_ranAt (x : Cell) (t : Option Nat) (gp : Bool) (o : CellOp) : ({ x with ranAt := t } : Cell).aluItems gp o = x.aluItems gp o := by
  cases o <;> rfl

/-- What a LOGIC, ARITH or IMM instruction does: its results wait, and nothing else changes. -/
theorem Yields.ofAlu {mk : Fin 1024 → Instr} {op : CellOp} {want : CellOp → Bool} (hw : want op = true) {out : State → Cell → Bool → Cell}
    (hex : ∀ c s, exec (mk c) s = .next (s.cellAlu c.val want) ∨ exec (mk c) s = .next (s.cellAlu c.val want).settle)
    (ho : ∀ (s : State) gp (x : Cell), ∃ l, x.aluItems gp op = some l ∧ x.issued s.time.tclk (l.map fun p => (s.time.tclk + p.1 - 1, p.2)) = out s x gp) :
    Yields mk op out := by
  intro s c neg g gp h
  obtain ⟨l, hl, he⟩ := ho s gp (s.cellNow c)
  have h1 : s.cellAlu c.val want = (s.markRan c).land c l := by
    unfold State.cellAlu
    rw [h.run (i := ⟨neg, g, op⟩) hw]
    have hx : ((s.markRan c).cell c).aluItems gp op = some l := by
      rw [h.toFetches.markRan_cell, if_pos rfl, Cell.aluItems_ranAt, hl]
    cases op <;> simp only [Cell.aluItems, Option.some.injEq, reduceCtorEq] at hx <;> simp only [hx]
  have h2 := h.land l
  rw [he] at h2
  refine ⟨s.cellAlu c.val want, ?_, ?_⟩
  · rcases hex c s with e | e
    · exact e
    · rw [e, h1, h.toFetches.settle h2.1]
  · rw [h1]; exact h2

end Sys2Proof.Machine
end

