-- ==== Sys2Proof/Laws/Run.lean ====
section
/-! SUPPORT. Laws of the run state, of CMD_STATUS and of a command's judgement. -/
namespace Sys2Proof.Machine
open Sys2Proof

/-- No register below the journal's page is one of them. -/
theorem offJournal_low {a : Nat} (h : a < 0x00c000) : OffJournal a := by
  refine ⟨⟨?_, ?_, ?_⟩, ?_, ?_, ?_, ?_⟩ <;> intro e <;> rw [e] at h <;> exact absurd h (by decide)

theorem offJournal_chip {a : Nat} (h : a < 0x1000) : OffJournal a := offJournal_low (by omega)

theorem Holds.forEach {a : Nat} {v : Dword} {s : State} (h : Holds a v s) {l : List Nat} {f : Nat → State → State}
    (hf : ∀ n t, Holds a v t → Holds a v (f n t)) : Holds a v (s.forEach l f) := by
  unfold State.forEach
  exact keeps_foldl l (fun t x ht => hf x t ht) h

/-- A change of the run state leaves the CHIP page but for PAGE_STATUS, PAGE_LIVE and IMG_DIGEST. -/
theorem Holds.setRunState {a : Nat} {v : Dword} {s : State} (h : Holds a v s) {new : RunState} {internal : Bool} {g : Agent} (ha : a < 0x1000)
    (h1 : a ≠ 0x008) (h2 : a ≠ 0x00c) (h3 : a ≠ 0x068) (h4 : a ≠ 0x06c) : Holds a v (s.setRunState new internal g) := by
  unfold State.setRunState
  dsimp only
  split
  · exact h
  · have e1 : ∀ t, Holds a v t → Holds a v (((t.setFld chipPage CHIP.live_RUN_STATE new.code).entry .state g (chipPage + 0x00c) .done
        (s.runState.code + 16 * new.code + 256 * b2n (t.setFld chipPage CHIP.live_RUN_STATE new.code).inCluster + 512 * b2n internal)).post
        chipPage CHIP.st_STATE_CHANGE) := fun t ht =>
      Holds.post (Holds.entry (Holds.setFld ht h2) (offJournal_chip ha)) h1
    have e1' := e1 s h
    generalize (((s.setFld chipPage CHIP.live_RUN_STATE new.code).entry .state g (chipPage + 0x00c) .done
        (s.runState.code + 16 * new.code + 256 * b2n (s.setFld chipPage CHIP.live_RUN_STATE new.code).inCluster + 512 * b2n internal)).post
        chipPage CHIP.st_STATE_CHANGE) = t1 at e1' ⊢
    have e2 : Holds a v (if new = .fault then t1.post chipPage CHIP.st_FAULT_SET else t1) := by
      split
      · exact Holds.post e1' h1
      · exact e1'
    generalize (if new = RunState.fault then t1.post chipPage CHIP.st_FAULT_SET else t1) = t2 at e2 ⊢
    have e3 : Holds a v (if new = .idle then t2.setPair chipPage CHIP.IMG_DIGEST_LO 0 else t2) := by
      split
      · exact Holds.setPair e2 h3 h4
      · exact e2
    generalize (if new = RunState.idle then t2.setPair chipPage CHIP.IMG_DIGEST_LO 0 else t2) = t3 at e3 ⊢
    have e4 : Holds a v (if new = .stopped then t3.forEach allChans fun k s => s.holdCounts k else t3) := by
      split
      · exact Holds.forEach e3 fun n t ht =>
          State.holdCounts_keeps (Keeps.chipHolds (by decide) ha) (Sub.refl _) ht
      · exact e3
    generalize (if new = RunState.stopped then t3.forEach allChans fun k s => s.holdCounts k else t3) = t4 at e4 ⊢
    split
    · exact State.settleChans_keeps (Keeps.chipHolds (by decide) ha) (Sub.refl _) e4
    · exact e4

end Sys2Proof.Machine
end

