-- ==== Sys2Proof/Tests/Slice0.lean ====
section
/-! SUPPORT. Tests: witnesses that the hypotheses of every statement can be met, the smoke test of the well-formedness of commands, and single steps
whose results the spec's worked examples and tables give. -/
namespace Sys2Proof.Tests
open Sys2Proof Sys2Proof.Machine
set_option Elab.async false
set_option linter.unusedVariables false

/-- A part out of reset that answers the host, its timebase started at TCLK cycle 1,000. -/
def alive : State :=
  { State.reset with
    power := { State.reset.power with startup := .ready, configReady := true, selfTestDone := true, heart := 1003 }
    regs := [(tbPage + 0x00c, 0x3)]
    time := { State.reset.time with dtime := 0x123456789abcd000, tclk := 1000 } }

/-- Sets fields: page, field, value. -/
def sets (s : State) (l : List (Nat × Fld × Nat)) : State := l.foldl (fun s x => s.setFld x.1 x.2.1 x.2.2) s

/-- The encoding of an operation (Tables 6-2 to 6-7). -/
def opWord : CellOp → Nat
  | .nop => 0x3f * 2 ^ 30
  | .openSlot => 0x3f * 2 ^ 30 + 1
  | .logic tt m d a b => tt * 2 ^ 19 + b2n m * 2 ^ 18 + d * 2 ^ 12 + a * 2 ^ 6 + b
  | .arith op cc d a b => 2 ^ 27 + op * 2 ^ 22 + b2n cc * 2 ^ 21 + d * 2 ^ 12 + a * 2 ^ 6 + b
  | .imm iop d i => 2 * 2 ^ 27 + iop * 2 ^ 24 + d * 2 ^ 18 + i
  | .take f v d mode => 3 * 2 ^ 27 + f * 2 ^ 23 + v * 2 ^ 18 + d * 2 ^ 12 + mode * 2 ^ 10
  | .put sq stamp g => 4 * 2 ^ 27 + sq * 2 ^ 25 + b2n stamp * 2 ^ 24 + g * 2 ^ 12
  | .timer top u p g i => 5 * 2 ^ 27 + top * 2 ^ 23 + u * 2 ^ 21 + p * 2 ^ 16 + g * 2 ^ 10 + i
  | .nrd nb a d => 6 * 2 ^ 27 + nb * 2 ^ 19 + a * 2 ^ 6 + d
  | .rsnd ch g => 6 * 2 ^ 27 + 1 * 2 ^ 23 + ch * 2 ^ 16 + g
  | .rrcv ch d => 6 * 2 ^ 27 + 2 * 2 ^ 23 + ch * 2 ^ 16 + d
  | .csnd ch g => 6 * 2 ^ 27 + 3 * 2 ^ 23 + ch * 2 ^ 16 + g
  | .crcv ch d => 6 * 2 ^ 27 + 4 * 2 ^ 23 + ch * 2 ^ 16 + d
  | .sld port i a d => 6 * 2 ^ 27 + 5 * 2 ^ 23 + port * 2 ^ 22 + i * 2 ^ 12 + a * 2 ^ 6 + d
  | .sst port i a g => 6 * 2 ^ 27 + 6 * 2 ^ 23 + port * 2 ^ 22 + i * 2 ^ 12 + a * 2 ^ 6 + g
  | .xin sel d => 6 * 2 ^ 27 + 7 * 2 ^ 23 + sel * 2 ^ 16 + d
  | .evt line p => 6 * 2 ^ 27 + 8 * 2 ^ 23 + line * 2 ^ 16 + p
  | .bxfer dir bank n a b => 6 * 2 ^ 27 + 9 * 2 ^ 23 + b2n dir * 2 ^ 22 + bank * 2 ^ 17 + n * 2 ^ 12 + a * 2 ^ 6 + b
  | .btst q p => 6 * 2 ^ 27 + 10 * 2 ^ 23 + q * 2 ^ 18 + p

/-- A cell whose registers 0 to 7 hold values at the edges, with a carry; P0 is 0, P1 is 1; TM0 counts. -/
def someCell : Cell :=
  { Cell.init with
    regs := [(1, ⟨0x3ffff, false⟩), (2, ⟨0x20001, false⟩), (3, ⟨0x00012, false⟩), (4, ⟨0x24f00, false⟩), (5, ⟨0x00005, false⟩), (6, ⟨0x15555, true⟩)]
    preds := [(1, ⟨true, false⟩), (2, ⟨false, true⟩)]
    carry := ⟨true, false⟩
    units := [(0, ⟨70, false, true, 990⟩), (2, ⟨0xfffffffff, false, false, 0⟩)] }

/-- Region `c / 128` executes in slot 8 of 16, and cell `c`, which is `someCell`, fetches the word `w`. -/
def fetching (c w : Nat) : State :=
  let s := sets alive [(regPage (c / 128), REG.SLOT_EXEC, 1), (regPage (c / 128), REG.SCHED_L_M1, 15), (chipPage, CHIP.live_RUN_STATE, 3)]
  (s.setCell c someCell).setIword c 8 ⟨BitVec.ofNat 36 w, false⟩

/-- It issues an operation under the guard P31. -/
def issuing (c : Nat) (o : CellOp) : State := fetching c (31 * 2 ^ 30 + opWord o)

/-- The state that an outcome leads to. -/
def nextOf (o : Host.Outcome State Fault Refusal) : State := match o with | .next t => t | _ => State.reset

/-! What a structure asks, as one decidable condition -/

/-- The verdicts of the canonical form, one for each table of the state. -/
def formed (s : State) : List Bool :=
  [Tab.wf resetOf s.regs, Tab.wf (fun _ => none) s.rcNew, Tab.wf (fun _ => none) s.shadows, Tab.wf (fun _ => false) s.keys,
    Tab.wf (fun _ => SrcState.init) s.streams, Tab.wf (fun _ => Half.blank) s.store, Tab.wf (fun _ => BankAux.init) s.banks,
    Tab.wf (fun _ => Lanes.init) s.lanes, Tab.wf (fun _ => Writer.empty) s.writers, Tab.wf (fun _ => []) s.losses,
    Tab.wf (fun _ => Chan.init) s.chans, Tab.wf (fun _ => Fifo.empty) s.fifos, Tab.wf (fun _ => Cell.init) s.cells,
    Tab.wf (fun _ => IWord.init) s.imem, Tab.wf (fun _ => SWord.init) s.scratch, Tab.wf (fun _ => ⟨Tagged.zero, false⟩) s.exch,
    Tab.wf (fun _ => ⟨false, 0, false⟩) s.engines, Tab.wf (fun _ => RegionRun.init) s.regions, Tab.wf (fun _ => Qual.init) s.quals,
    Tab.wf (fun _ => RegWin.empty) s.winCur, Tab.wf (fun _ => RegWin.empty) s.winShown, Tab.wf (fun _ => Cap.init) s.caps,
    Tab.wf (fun _ => []) s.openGroups, Tab.wf (fun _ => LinkSt.init) s.links, Tab.wf (fun _ => Remote.init) s.remotes,
    Tab.wf (fun _ => Dom.init) s.doms, Tab.wf (fun _ => none) s.pps, Tab.wf (fun _ => Syn.init) s.syns, Tab.wf (fun _ => DmaCh.empty) s.dma,
    Tab.wf (fun _ => MsixEntry.init) s.msix.table]

theorem of_canonical {s : State} (h : ((formed s).all id) = true) : s.Canonical := by
  have k : ∀ b ∈ formed s, b = true := List.all_eq_true.mp h
  constructor <;> exact k _ (by simp only [formed, List.mem_cons, true_or, or_true])

theorem of_fetches {s : State} {c : Nat} {i : CellInstr} (h : s.Canonical) (k : s.live = true ∧ s.executes (cellRegion c) = true ∧ (s.cell c).stopAt = none
    ∧ (s.cell c).ranAt ≠ some s.time.tclk ∧ (s.iword c (s.slot (cellRegion c))).bad = false ∧ s.injectArmed 3 c = false
    ∧ decodeInstr (s.iword c (s.slot (cellRegion c))).word = some i ∧ s.run.endRun = none) : s.Fetches c i := by
  obtain ⟨a, b, d, e, f, g, j, l⟩ := k
  exact ⟨h, a, b, d, e, f, g, j, l⟩

theorem of_issues {s : State} {c : Nat} {i : CellInstr} {gp : Bool} (h : s.Fetches c i)
    (k : (s.cellNow c).guardOf i = some gp ∧ i.op.misaligned = false) : s.Issues c i gp := ⟨h, k.1, k.2⟩

theorem of_firstTake {s : State} {c f : Nat} (k : bitOf (s.fld (blkPage (c / 16)) BLK.FIFO_CFG_EN) f = true ∧ (∀ x ∈ s.use.takes, x ≠ 12 * (c / 16) + f)
    ∧ (∀ p ∈ s.use.oldest, p.1 ≠ 12 * (c / 16) + f) ∧ ∀ j < c % 16, s.willPop (c / 16 * 16 + j) f = false) : s.FirstTake c f := ⟨k.1, k.2.1, k.2.2.1, k.2.2.2⟩

theorem of_takesPut {s : State} {g : Nat} (k : s.recording (g / 8) = true ∧ s.hasRing (g / 8) = true ∧ s.recFrozen (g / 8) = false
    ∧ s.putHeld (g / 8) + 1 ≤ 256 ∧ g ∉ s.use.puts ∧ s.openGroup g = []) : s.TakesPut g := by
  obtain ⟨a, b, c, d, e, f⟩ := k
  exact ⟨a, b, c, d, e, f⟩

theorem of_accepts {s : State} {code : Nat} {id : BitVec 8} (h : s.Canonical) (k : s.hostLive = true ∧ s.run.pendingCmd = none ∧ s.cmdWaits .pcie = false
    ∧ s.run.lastId ≠ some id ∧ s.permitted code = true) : s.Accepts code id := ⟨h, k.1, k.2.1, k.2.2.1, k.2.2.2.1, k.2.2.2.2⟩

theorem of_hears {s : State} {p : Nat} {hd : Head} (h : s.Canonical) (k : s.live = true ∧ s.inCluster = false ∧ 2 ≤ s.lstate p ∧ hd.good = true ∧ hd.known = true) :
    s.Hears p hd := ⟨h, k.1, k.2.1, k.2.2.1, k.2.2.2.1, k.2.2.2.2⟩

theorem of_takes {s : State} {p : Nat} {hd : Head} (h : s.Hears p hd) (k : s.lstate p ≤ 4 ∧ hd.seq = ((s.takeAck p hd.ack).link p).rx + 1) : s.Takes p hd :=
  ⟨h, k.1, k.2⟩

theorem of_reaches {s : State} {addr i : Nat} {p : PageType} {row : RegRow} (h : s.Canonical) (k : s.hostLive = true ∧ (s.run.endRun = none ∧ s.runState ≠ .stopping)
    ∧ s.swarm.runs = [] ∧ pageOf addr = some (p, i) ∧ regAt addr = some row ∧ 0x040 ≤ addr % 0x1000 ∧ (p = .reg ∨ p = .blk ∨ p = .bank)) : s.Reaches addr p i row := by
  obtain ⟨a, b, c, d, e, f, g⟩ := k
  exact ⟨h, a, b, c, d, e, f, g⟩

theorem of_quiet {s : State} (h : s.Calm) (j : ∀ n < 8, (s.cap n).jumpDue = false) (k : s.run.chipStops = [] ∧ s.run.heldCmds = [] ∧ s.run.heldSwarm = [])
    (l : s.esl.due = [] ∧ s.heldAcc = [] ∧ s.reqs = [] ∧ s.offers = [] ∧ s.summaries = [])
    (m : s.time.resetDue = false ∧ s.run.slotDue = false ∧ s.roleOf = s.isQueen) : s.Quiet where
  calm := h
  jumps := j
  stops := k.1
  commands := k.2.1
  swarm := k.2.2
  frames := l.1
  accesses := l.2.1
  requests := l.2.2.1
  reset := m.1
  offers := l.2.2.2.1
  summaries := l.2.2.2.2
  slot0 := m.2.1
  role := m.2.2

theorem of_inv {s : State} (h : s.Canonical) (k : recsOf s.journal ≤ 4096) : s.Inv := ⟨h, k⟩

theorem of_canTake {s : State} {k j : Nat} (h : ((s.chan k).conv j).role = .active ∧ (((s.chan k).conv j).busy.all fun m => decide (m + 12 ≤ s.time.tclk)) = true) :
    s.canTake k j := ⟨h.1, fun m hm => by have := h.2; rw [hm] at this; simpa using this⟩

theorem none_canTake {s : State} {k n : Nat} (h : ∀ i < n, ((s.chan k).conv i).role ≠ .active ∨ (((s.chan k).conv i).busy.any fun m => decide (s.time.tclk < m + 12)) = true) :
    ∀ i < n, ¬ s.canTake k i := by
  intro i hi hc
  rcases h i hi with h | h
  · exact h hc.1
  · cases hb : ((s.chan k).conv i).busy with
    | none => rw [hb] at h; simp at h
    | some m => rw [hb] at h; have := hc.2 m hb; simp at h; omega

theorem from_half {a n : Nat} {P : Nat → Prop} (k : ∀ i < n, P (a + i)) : ∀ h, a ≤ h → h < a + n → P h := by
  intro h h1 h2
  obtain ⟨i, rfl⟩ := Nat.exists_eq_add_of_le h1
  exact k i (by omega)

theorem from_word {a n : Nat} {P : Nat → Prop} (k : ∀ i < 16, 4 * (a + i) < n → P (a + i)) (hn : n ≤ 4 * (a + 16)) : ∀ h, a ≤ h → 4 * h < n → P h := by
  intro h h1 h2
  obtain ⟨i, rfl⟩ := Nat.exists_eq_add_of_le h1
  exact k i (by omega) h2

theorem of_asked {s : State} {c : Nat} (h : c < 6 ∨ ((s.dmaCh c).cur.all fun d => decide (getBits d.dw0 0 24 ≤ (s.dmaCh c).asked)) = true) : s.Asked c := by
  intro h1 d hd
  rcases h with h | h
  · omega
  · rw [hd] at h; simpa using h

/-! The smoke test of `Instr.wf`: for each bound, a command that breaks it is refused, and one that keeps it is not -/

/-- A load that brings one measurement of this kind. -/
def loads (k : MeasKind) : Instr := .loadComplete [] none [⟨0, 0, k, []⟩] []

theorem test_wf_skew : (loads (.skew 1 0)).wf = false ∧ (loads (.skew 1 (2 ^ 30 + 1))).wf = false ∧ (loads (.skew 1 (2 ^ 30))).wf = true := by decide +kernel
theorem test_wf_adev : (loads (.adev 1 1)).wf = false ∧ (loads (.adev (2 ^ 32 + 1) 1)).wf = false ∧ (loads (.adev 2 0)).wf = false
    ∧ (loads (.adev 2 17)).wf = false ∧ (loads (.adev 2 16)).wf = true := by decide +kernel
theorem test_wf_stats : (loads (.stats .period (some 0))).wf = false ∧ (loads (.stats .period (some 1))).wf = true := by decide +kernel
theorem test_wf_lines : (Instr.loadComplete [] none [] [(512, .gate 0)]).wf = false ∧ (Instr.loadComplete [] none [] [(511, .gate 0)]).wf = true := by decide +kernel
theorem test_wf_image : (Instr.loadComplete (List.replicate 16 0) none [] []).wf = true := by decide +kernel
theorem test_wf_image_long (l : List (BitVec 64)) (h : 2 ^ 20 < l.length) : (Instr.loadComplete l none [] []).wf = false := by
  simp [Instr.wf]; omega
theorem test_wf_table : (Instr.initialCalDone [] [(0, 0, ⟨[], 1, 0⟩)]).wf = false ∧ (Instr.recalDone 0 0 [(0, 0, ⟨[], 1, 0⟩)]).wf = false
    ∧ (Instr.recalDone 0 0 [(0, 0, CalTable.nominal)]).wf = true := by decide +kernel
theorem test_wf_duty : (Instr.nurseDutyEnd 0 ⟨[32], 256, 257, 0, 1⟩).wf = false ∧ (Instr.nurseDutyEnd 0 ⟨List.replicate 32 32, 256, 257, 0, 1⟩).wf = true := by
  decide +kernel
/-- Both references present. -/
def refs : Refs := ⟨true, true⟩

theorem test_wf_lock : (Instr.lockDeclared [] refs).wf = false ∧ (Instr.lockDeclared [5, 0x800] refs).wf = false ∧ (Instr.lockDeclared [5, 0x801] refs).wf = true := by
  decide +kernel
theorem test_wf_soft_loss : (Instr.softLoss [] refs).wf = false ∧ (Instr.softLoss [0x800] refs).wf = false ∧ (Instr.softLoss [17] refs).wf = true := by
  decide +kernel
theorem test_wf_loss : (Instr.hardLoss (.phases []) refs).wf = false ∧ (Instr.hardLoss (.noEdge []) refs).wf = true
    ∧ (Instr.lockWithdrawn (.noEdge [0x800]) refs).wf = false ∧ (Instr.lockWithdrawn (.phases [300, 300]) refs).wf = true := by decide +kernel
theorem test_wf_address : (Instr.registerWrite 0x2042 0 0).wf = false ∧ (Instr.shadowWrite 0x2041 0 0).wf = false ∧ (Instr.rcRead 0x2043).wf = false
    ∧ (Instr.registerWrite 0x2044 0 0).wf = true := by decide +kernel
theorem test_wf_bar2 : (Instr.bar2Read 0 0).wf = false ∧ (Instr.bar2Read 0x1ffffff 2).wf = false ∧ (Instr.bar2Write 0 []).wf = false
    ∧ (Instr.bar2Read 0x1ffffff 1).wf = true := by decide +kernel
theorem test_wf_dma : (Instr.dmaDataMove 0 0 .timeout [1]).wf = false ∧ (Instr.dmaDataMove 0 0 .good [1]).wf = true ∧ (Instr.dmaDataMove 0 0 .timeout []).wf = true := by decide +kernel
theorem test_wf_break : (Instr.loadComplete [] (some (.pcie .good false 0)) [] []).wf = false ∧ (Instr.loadComplete [] (some (.pcie .timeout false 0)) [] []).wf = true := by
  decide +kernel
theorem test_wf_upset : (Instr.scrubVisit 0 [(5, true, [3, 80])]).wf = false ∧ (Instr.scrubVisit 0 [(5, true, [3, 79])]).wf = true := by decide +kernel
theorem test_wf_chip_ue : (Instr.chipUe 1 0).wf = false ∧ (Instr.chipUe 2 4096).wf = false ∧ (Instr.chipUe 2 4095).wf = true ∧ (Instr.chipUe 7 0).wf = false := by decide +kernel

/-! Single steps and the worked examples of the spec -/

/-- Tables 6-2 to 6-4: guard P31, form 0b001, operation 0, CC, GD 8, GA 1, GB 2, written out bit by bit. -/
theorem test_decode_add : decodeInstr 0b011111_001_00000_1_000_001000_000001_000010 = some ⟨false, 31, .arith 0 true 8 1 2⟩ := by decide +kernel

/-- Table 6-24: the instruction word after start-up is a NOP. -/
theorem test_decode_nop : (decodeInstr 0xfc0000000).map (·.op) = some .nop := by decide +kernel

/-- Table 6-4: 0x3FFFF + 0x20001 + 1 wraps to 0x20001 with a carry, at the end of the same cycle. -/
theorem test_add_wraps : ((nextOf (exec (.add 5) (issuing 5 (.arith 0 true 8 1 2)))).cell 5).landing
    = [(1000, .reg 8 ⟨0x20001, false⟩), (1000, .carry ⟨true, false⟩)] := by decide +kernel

/-- R49: an idle TCLK cycle adds 1,024 su to DTIME. -/
theorem test_idle_cycle : (nextOf (step alive)).now = 0x123456789abcd400 ∧ (nextOf (step alive)).time.tclk = 1001 := by decide +kernel

/-- Table 14-9. -/
theorem test_page_ids : [0x13d000, 0x205000, 0x3c8000, 0x005000, 0x00b000].map resetOf = [0x00013d10, 0x00010511, 0x0001c813, 0x00010203, 0x00010104] := by
  decide +kernel

/-- The example after Table 14-9: a read in CH61's reserved range sets BUS_ERR and leaves BIT 16, VALID 1 and OFFSET 0x0B0. -/
theorem test_read_reserved : (nextOf (exec (.rcRead 0x13d0b0) alive)).bit (chPage 61) PG.err_BUS_ERR = true
    ∧ getBits ((nextOf (exec (.rcRead 0x13d0b0) alive)).rd (chPage 61 + 0x14)) 0 20 = 0x0b000 + 32 + 16 := by decide +kernel

/-- Table 1-3: the units around cell 677. -/
theorem test_cell_677 : cellRegion 677 = 5 ∧ blkPage (677 / 16) = 0x23a000 ∧ regPage (cellRegion 677) = 0x205000 ∧ bankPage (32 * cellRegion 677) = 0x3a0000 := by
  decide +kernel

/-- The worked example of the chapter on measurements: five edges give b = 8,191.6 su. -/
theorem test_regression : (gateFit ⟨1, 0, 0, false, 4, 32766, 5, 10, 30, 81919, 245754, 0, 0, 0, 0, 0, false, none, true, PairSums.zero⟩).map (·.1) = some (81916 / 10) := by
  decide +kernel

/-- R30, R445: after reset the run state is IDLE, and the part does not answer the host before its configuration space is ready. -/
theorem test_reset_idle : State.reset.runState = .idle ∧ State.reset.hostLive = false := by decide +kernel

theorem witness_CommandFrames : ∃ (c : Instr) (s : State), (∃ t, exec c s = .next t) ∧ resets c = false ∧ writesByAddress c = false ∧ movesTime c = false
    ∧ writesStore c = false ∧ writesImem c = false ∧ writesScratch c = false ∧ (∀ image brk insts lines, c ≠ .loadComplete image brk insts lines)
    ∧ c ≠ .tapReset ∧ c ≠ .idcode ∧ c ≠ .bypass ∧ ∀ pins next, c ≠ .samplePreload pins next :=
  ⟨.svcNop, State.reset, ⟨_, rfl⟩, rfl, rfl, rfl, rfl, rfl, rfl, nofun, nofun, nofun, nofun, nofun⟩

/-- Table 7-7: the check value that this CRC-32 is known by, of the nine characters 1 to 9. -/
theorem test_crc : crc32 [0x31, 0x32, 0x33, 0x34, 0x35, 0x36, 0x37, 0x38, 0x39] = 0xcbf43926 := by decide +kernel

end Sys2Proof.Tests

namespace Sys2Proof.Tests.Cells
open Sys2Proof Sys2Proof.Machine
set_option Elab.async false
set_option linter.unusedVariables false



theorem witness_CellSums :
    (∃ (cc : Bool) (d : ℕ) (a : ℕ) (b : ℕ) (s : State) (c : Fin 1024) (neg : Bool) (g : ℕ) (gp : Bool), s.Issues ↑c { neg := neg, guard := g, op := CellOp.arith 0 cc d a b } gp)
    ∧ (∃ (cc : Bool) (d : ℕ) (a : ℕ) (b : ℕ) (s : State) (c : Fin 1024) (neg : Bool) (g : ℕ) (gp : Bool), s.Issues ↑c { neg := neg, guard := g, op := CellOp.arith 1 cc d a b } gp)
    ∧ (∃ (cc : Bool) (d : ℕ) (a : ℕ) (b : ℕ) (s : State) (c : Fin 1024) (neg : Bool) (g : ℕ) (gp : Bool), s.Issues ↑c { neg := neg, guard := g, op := CellOp.arith 2 cc d a b } gp)
    ∧ (∃ (d : ℕ) (i : ℕ) (s : State) (c : Fin 1024) (neg : Bool) (g : ℕ) (gp : Bool), s.Issues ↑c { neg := neg, guard := g, op := CellOp.imm 0 d i } gp)
    ∧ (∃ (d : ℕ) (i : ℕ) (s : State) (c : Fin 1024) (neg : Bool) (g : ℕ) (gp : Bool), s.Issues ↑c { neg := neg, guard := g, op := CellOp.imm 1 d i } gp ∧ i < 2 ^ 18)
    ∧ (∃ (d : ℕ) (i : ℕ) (s : State) (c : Fin 1024) (neg : Bool) (g : ℕ) (gp : Bool), s.Issues ↑c { neg := neg, guard := g, op := CellOp.imm 2 d i } gp ∧ i < 2 ^ 18) :=
  ⟨⟨true, 8, 1, 2, issuing 5 (.arith 0 true 8 1 2), 5, false, 31, false, of_issues (of_fetches (of_canonical (by decide +kernel)) (by decide +kernel)) (by decide +kernel)⟩,
   ⟨true, 8, 2, 1, issuing 5 (.arith 1 true 8 2 1), 5, false, 31, false, of_issues (of_fetches (of_canonical (by decide +kernel)) (by decide +kernel)) (by decide +kernel)⟩,
   ⟨false, 8, 6, 0, issuing 5 (.arith 2 false 8 6 0), 5, false, 31, false, of_issues (of_fetches (of_canonical (by decide +kernel)) (by decide +kernel)) (by decide +kernel)⟩,
   ⟨8, 0x3ffff, issuing 5 (.imm 0 8 0x3ffff), 5, false, 31, false, of_issues (of_fetches (of_canonical (by decide +kernel)) (by decide +kernel)) (by decide +kernel)⟩,
   ⟨1, 1, issuing 5 (.imm 1 1 1), 5, false, 31, false, of_issues (of_fetches (of_canonical (by decide +kernel)) (by decide +kernel)) (by decide +kernel), by decide +kernel⟩,
   ⟨1, 1, issuing 5 (.imm 2 1 1), 5, false, 31, false, of_issues (of_fetches (of_canonical (by decide +kernel)) (by decide +kernel)) (by decide +kernel), by decide +kernel⟩⟩

theorem witness_CellShiftsAndProducts :
    (∃ (cc : Bool) (d : ℕ) (a : ℕ) (b : ℕ) (s : State) (c : Fin 1024) (neg : Bool) (g : ℕ) (gp : Bool), s.Issues ↑c { neg := neg, guard := g, op := CellOp.arith 3 cc d a b } gp)
    ∧ (∃ (cc : Bool) (d : ℕ) (a : ℕ) (b : ℕ) (s : State) (c : Fin 1024) (neg : Bool) (g : ℕ) (gp : Bool), s.Issues ↑c { neg := neg, guard := g, op := CellOp.arith 4 cc d a b } gp)
    ∧ (∃ (cc : Bool) (d : ℕ) (a : ℕ) (b : ℕ) (s : State) (c : Fin 1024) (neg : Bool) (g : ℕ) (gp : Bool), s.Issues ↑c { neg := neg, guard := g, op := CellOp.arith 5 cc d a b } gp)
    ∧ (∃ (cc : Bool) (d : ℕ) (a : ℕ) (b : ℕ) (s : State) (c : Fin 1024) (neg : Bool) (g : ℕ) (gp : Bool), s.Issues ↑c { neg := neg, guard := g, op := CellOp.arith 6 cc d a b } gp)
    ∧ (∃ (cc : Bool) (d : ℕ) (a : ℕ) (b : ℕ) (s : State) (c : Fin 1024) (neg : Bool) (g : ℕ) (gp : Bool), s.Issues ↑c { neg := neg, guard := g, op := CellOp.arith 7 cc d a b } gp)
    ∧ (∃ (cc : Bool) (d : ℕ) (a : ℕ) (b : ℕ) (s : State) (c : Fin 1024) (neg : Bool) (g : ℕ) (gp : Bool), s.Issues ↑c { neg := neg, guard := g, op := CellOp.arith 8 cc d a b } gp)
    ∧ (∃ (cc : Bool) (d : ℕ) (a : ℕ) (b : ℕ) (s : State) (c : Fin 1024) (neg : Bool) (g : ℕ) (gp : Bool), s.Issues ↑c { neg := neg, guard := g, op := CellOp.arith 13 cc d a b } gp) :=
  ⟨⟨false, 8, 2, 3, issuing 5 (.arith 3 false 8 2 3), 5, false, 31, false, of_issues (of_fetches (of_canonical (by decide +kernel)) (by decide +kernel)) (by decide +kernel)⟩,
   ⟨false, 8, 2, 3, issuing 5 (.arith 4 false 8 2 3), 5, false, 31, false, of_issues (of_fetches (of_canonical (by decide +kernel)) (by decide +kernel)) (by decide +kernel)⟩,
   ⟨false, 8, 2, 1, issuing 5 (.arith 5 false 8 2 1), 5, false, 31, false, of_issues (of_fetches (of_canonical (by decide +kernel)) (by decide +kernel)) (by decide +kernel)⟩,
   ⟨false, 8, 1, 2, issuing 5 (.arith 6 false 8 1 2), 5, false, 31, false, of_issues (of_fetches (of_canonical (by decide +kernel)) (by decide +kernel)) (by decide +kernel)⟩,
   ⟨false, 8, 1, 2, issuing 5 (.arith 7 false 8 1 2), 5, false, 31, false, of_issues (of_fetches (of_canonical (by decide +kernel)) (by decide +kernel)) (by decide +kernel)⟩,
   ⟨true, 2, 1, 1, issuing 5 (.arith 8 true 2 1 1), 5, false, 31, false, of_issues (of_fetches (of_canonical (by decide +kernel)) (by decide +kernel)) (by decide +kernel)⟩,
   ⟨false, 5, 2, 3, issuing 5 (.arith 13 false 5 2 3), 5, false, 31, false, of_issues (of_fetches (of_canonical (by decide +kernel)) (by decide +kernel)) (by decide +kernel)⟩⟩

theorem witness_CellCompares :
    (∃ (cc : Bool) (d : ℕ) (a : ℕ) (b : ℕ) (s : State) (c : Fin 1024) (neg : Bool) (g : ℕ) (gp : Bool), s.Issues ↑c { neg := neg, guard := g, op := CellOp.arith 9 cc d a b } gp)
    ∧ (∃ (cc : Bool) (d : ℕ) (a : ℕ) (b : ℕ) (s : State) (c : Fin 1024) (neg : Bool) (g : ℕ) (gp : Bool), s.Issues ↑c { neg := neg, guard := g, op := CellOp.arith 10 cc d a b } gp)
    ∧ (∃ (cc : Bool) (d : ℕ) (a : ℕ) (b : ℕ) (s : State) (c : Fin 1024) (neg : Bool) (g : ℕ) (gp : Bool), s.Issues ↑c { neg := neg, guard := g, op := CellOp.arith 11 cc d a b } gp)
    ∧ (∃ (cc : Bool) (d : ℕ) (a : ℕ) (b : ℕ) (s : State) (c : Fin 1024) (neg : Bool) (g : ℕ) (gp : Bool), s.Issues ↑c { neg := neg, guard := g, op := CellOp.arith 14 cc d a b } gp) :=
  ⟨⟨true, 3, 1, 1, issuing 5 (.arith 9 true 3 1 1), 5, false, 31, false, of_issues (of_fetches (of_canonical (by decide +kernel)) (by decide +kernel)) (by decide +kernel)⟩,
   ⟨true, 3, 1, 1, issuing 5 (.arith 10 true 3 1 1), 5, false, 31, false, of_issues (of_fetches (of_canonical (by decide +kernel)) (by decide +kernel)) (by decide +kernel)⟩,
   ⟨false, 3, 2, 5, issuing 5 (.arith 11 false 3 2 5), 5, false, 31, false, of_issues (of_fetches (of_canonical (by decide +kernel)) (by decide +kernel)) (by decide +kernel)⟩,
   ⟨false, 3, 6, 0, issuing 5 (.arith 14 false 3 6 0), 5, false, 31, false, of_issues (of_fetches (of_canonical (by decide +kernel)) (by decide +kernel)) (by decide +kernel)⟩⟩

theorem witness_CellLogic :
    (∃ (tt : ℕ) (d : ℕ) (a : ℕ) (b : ℕ) (s : State) (c : Fin 1024) (neg : Bool) (g : ℕ) (gp : Bool), s.Issues ↑c { neg := neg, guard := g, op := CellOp.logic tt false d a b } gp)
    ∧ (∃ (tt : ℕ) (d : ℕ) (a : ℕ) (b : ℕ) (s : State) (c : Fin 1024) (neg : Bool) (g : ℕ) (gp : Bool), s.Issues ↑c { neg := neg, guard := g, op := CellOp.logic tt true d a b } gp)
    ∧ (∃ (d : ℕ) (i : ℕ) (s : State) (c : Fin 1024) (neg : Bool) (g : ℕ) (gp : Bool), s.Issues ↑c { neg := neg, guard := g, op := CellOp.imm 3 d i } gp)
    ∧ (∃ (d : ℕ) (i : ℕ) (s : State) (c : Fin 1024) (neg : Bool) (g : ℕ) (gp : Bool), s.Issues ↑c { neg := neg, guard := g, op := CellOp.imm 4 d i } gp)
    ∧ (∃ (d : ℕ) (i : ℕ) (s : State) (c : Fin 1024) (neg : Bool) (g : ℕ) (gp : Bool), s.Issues ↑c { neg := neg, guard := g, op := CellOp.imm 5 d i } gp)
    ∧ (∃ (cc : Bool) (d : ℕ) (a : ℕ) (b : ℕ) (s : State) (c : Fin 1024) (neg : Bool) (g : ℕ) (gp : Bool), s.Issues ↑c { neg := neg, guard := g, op := CellOp.arith 12 cc d a b } gp)
    ∧ (∃ (cc : Bool) (d : ℕ) (a : ℕ) (b : ℕ) (s : State) (c : Fin 1024) (neg : Bool) (g : ℕ) (gp : Bool), s.Issues ↑c { neg := neg, guard := g, op := CellOp.arith 15 cc d a b } gp)
    ∧ (∃ (cc : Bool) (d : ℕ) (a : ℕ) (b : ℕ) (s : State) (c : Fin 1024) (neg : Bool) (g : ℕ) (gp : Bool), s.Issues ↑c { neg := neg, guard := g, op := CellOp.arith 16 cc d a b } gp)
    ∧ (∃ (cc : Bool) (d : ℕ) (a : ℕ) (b : ℕ) (s : State) (c : Fin 1024) (neg : Bool) (g : ℕ) (gp : Bool), s.Issues ↑c { neg := neg, guard := g, op := CellOp.arith 17 cc d a b } gp)
    ∧ (∃ (cc : Bool) (d : ℕ) (a : ℕ) (b : ℕ) (s : State) (c : Fin 1024) (neg : Bool) (g : ℕ) (gp : Bool), s.Issues ↑c { neg := neg, guard := g, op := CellOp.arith 18 cc d a b } gp) :=
  ⟨⟨0x96, 1, 2, 5, issuing 5 (.logic 0x96 false 1 2 5), 5, false, 31, false, of_issues (of_fetches (of_canonical (by decide +kernel)) (by decide +kernel)) (by decide +kernel)⟩,
   ⟨0x8e, 1, 2, 4, issuing 5 (.logic 0x8e true 1 2 4), 5, false, 31, false, of_issues (of_fetches (of_canonical (by decide +kernel)) (by decide +kernel)) (by decide +kernel)⟩,
   ⟨1, 0x3f0f, issuing 5 (.imm 3 1 0x3f0f), 5, false, 31, false, of_issues (of_fetches (of_canonical (by decide +kernel)) (by decide +kernel)) (by decide +kernel)⟩,
   ⟨5, 0x3f0f0, issuing 5 (.imm 4 5 0x3f0f0), 5, false, 31, false, of_issues (of_fetches (of_canonical (by decide +kernel)) (by decide +kernel)) (by decide +kernel)⟩,
   ⟨1, 0x3f0f, issuing 5 (.imm 5 1 0x3f0f), 5, false, 31, false, of_issues (of_fetches (of_canonical (by decide +kernel)) (by decide +kernel)) (by decide +kernel)⟩,
   ⟨false, 8, 5, 0, issuing 5 (.arith 12 false 8 5 0), 5, false, 31, false, of_issues (of_fetches (of_canonical (by decide +kernel)) (by decide +kernel)) (by decide +kernel)⟩,
   ⟨false, 8, 0, 1, issuing 5 (.arith 15 false 8 0 1), 5, false, 31, false, of_issues (of_fetches (of_canonical (by decide +kernel)) (by decide +kernel)) (by decide +kernel)⟩,
   ⟨false, 1, 4, 0, issuing 5 (.arith 16 false 1 4 0), 5, false, 31, false, of_issues (of_fetches (of_canonical (by decide +kernel)) (by decide +kernel)) (by decide +kernel)⟩,
   ⟨false, 8, 0, 0, issuing 5 (.arith 17 false 8 0 0), 5, false, 31, false, of_issues (of_fetches (of_canonical (by decide +kernel)) (by decide +kernel)) (by decide +kernel)⟩,
   ⟨false, 0, 2, 0, issuing 5 (.arith 18 false 0 2 0), 5, false, 31, false, of_issues (of_fetches (of_canonical (by decide +kernel)) (by decide +kernel)) (by decide +kernel)⟩⟩

theorem witness_CellGuards :
    (∃ (s : State) (c : Fin 1024) (i : CellInstr), s.Fetches (↑c) i ∧ (s.cellNow ↑c).guardOf i = none)
    ∧ (∃ (s : State) (c : Fin 1024) (i : CellInstr), s.Fetches (↑c) i ∧ i.op = CellOp.nop)
    ∧ (∃ (s : State) (c : Fin 1024) (i : CellInstr), s.Fetches (↑c) i ∧ i.op = CellOp.openSlot) :=
  ⟨⟨fetching 5 (opWord (.imm 0 8 1)), 5, ⟨false, 0, .imm 0 8 1⟩, of_fetches (of_canonical (by decide +kernel)) (by decide +kernel), by decide +kernel⟩,
   ⟨fetching 5 (opWord .nop), 5, ⟨true, 31, .nop⟩, of_fetches (of_canonical (by decide +kernel)) (by decide +kernel), by decide +kernel⟩,
   ⟨fetching 5 (opWord .openSlot), 5, ⟨true, 31, .openSlot⟩, of_fetches (of_canonical (by decide +kernel)) (by decide +kernel), by decide +kernel⟩⟩

theorem witness_CellTimers :
    (∃ (u : ℕ) (p : ℕ) (g : ℕ) (i : ℕ) (s : State) (c : Fin 1024) (neg : Bool) (g' : ℕ) (gp : Bool), s.Issues ↑c { neg := neg, guard := g', op := CellOp.timer 0 u p g i } gp)
    ∧ (∃ (u : ℕ) (p : ℕ) (g : ℕ) (i : ℕ) (s : State) (c : Fin 1024) (neg : Bool) (g' : ℕ) (gp : Bool), s.Issues ↑c { neg := neg, guard := g', op := CellOp.timer 1 u p g i } gp)
    ∧ (∃ (u : ℕ) (p : ℕ) (g : ℕ) (i : ℕ) (s : State) (c : Fin 1024) (neg : Bool) (g' : ℕ) (gp : Bool), s.Issues ↑c { neg := neg, guard := g', op := CellOp.timer 2 u p g i } gp)
    ∧ (∃ (u : ℕ) (p : ℕ) (g : ℕ) (i : ℕ) (s : State) (c : Fin 1024) (neg : Bool) (g' : ℕ) (gp : Bool), s.Issues ↑c { neg := neg, guard := g', op := CellOp.timer 3 u p g i } gp)
    ∧ (∃ (u : ℕ) (p : ℕ) (g : ℕ) (i : ℕ) (s : State) (c : Fin 1024) (neg : Bool) (g' : ℕ) (gp : Bool), s.Issues ↑c { neg := neg, guard := g', op := CellOp.timer 4 u p g i } gp)
    ∧ (∃ (u : ℕ) (p : ℕ) (g : ℕ) (i : ℕ) (s : State) (c : Fin 1024) (neg : Bool) (g' : ℕ) (gp : Bool), s.Issues ↑c { neg := neg, guard := g', op := CellOp.timer 5 u p g i } gp)
    ∧ (∃ (u : ℕ) (p : ℕ) (g : ℕ) (i : ℕ) (s : State) (c : Fin 1024) (neg : Bool) (g' : ℕ) (gp : Bool), s.Issues ↑c { neg := neg, guard := g', op := CellOp.timer 6 u p g i } gp)
    ∧ (∃ (u : ℕ) (p : ℕ) (g : ℕ) (i : ℕ) (s : State) (c : Fin 1024) (neg : Bool) (g' : ℕ) (gp : Bool), s.Issues ↑c { neg := neg, guard := g', op := CellOp.timer 7 u p g i } gp)
    ∧ (∃ (u : ℕ) (p : ℕ) (g : ℕ) (i : ℕ) (s : State) (c : Fin 1024) (neg : Bool) (g' : ℕ) (gp : Bool), s.Issues ↑c { neg := neg, guard := g', op := CellOp.timer 8 u p g i } gp)
    ∧ (∃ (u : ℕ) (p : ℕ) (g : ℕ) (i : ℕ) (s : State) (c : Fin 1024) (neg : Bool) (g' : ℕ) (gp : Bool), s.Issues ↑c { neg := neg, guard := g', op := CellOp.timer 9 u p g i } gp)
    ∧ (∃ (s : State) (c : Fin 1024) (u : Fin 2), s.Canonical ∧ ((s.cell ↑c).unit ↑u).started = true ∧ ((s.cell ↑c).unit ↑u).at s.time.tclk = 0)
    ∧ (∃ (s : State) (c : Fin 1024) (n : ℕ) (r : ℕ) (v : Tagged), s.Canonical ∧ (s.cell ↑c).landing = [(n, Item.reg r v)] ∧ n < s.time.tclk)
    ∧ (∃ (s : State) (c : Fin 1024) (n : ℕ) (r : ℕ) (v : TaggedBit), s.Canonical ∧ (s.cell ↑c).landing = [(n, Item.pred r v)] ∧ n < s.time.tclk)
    ∧ (∃ (s : State) (c : Fin 1024) (n : ℕ) (v : TaggedBit), s.Canonical ∧ (s.cell ↑c).landing = [(n, Item.carry v)] ∧ n < s.time.tclk)
    ∧ (∃ (s : State) (c : Fin 1024), s.Canonical ∧ (∀ p ∈ (s.cell ↑c).landing, s.time.tclk ≤ p.1)) :=
  ⟨⟨0, 0, 2, 0, issuing 5 (.timer 0 0 0 2 0), 5, false, 31, false, of_issues (of_fetches (of_canonical (by decide +kernel)) (by decide +kernel)) (by decide +kernel)⟩,
   ⟨0, 0, 0, 0, issuing 5 (.timer 1 0 0 0 0), 5, false, 31, false, of_issues (of_fetches (of_canonical (by decide +kernel)) (by decide +kernel)) (by decide +kernel)⟩,
   ⟨0, 0, 0, 0, issuing 5 (.timer 2 0 0 0 0), 5, false, 31, false, of_issues (of_fetches (of_canonical (by decide +kernel)) (by decide +kernel)) (by decide +kernel)⟩,
   ⟨0, 0, 8, 0, issuing 5 (.timer 3 0 0 8 0), 5, false, 31, false, of_issues (of_fetches (of_canonical (by decide +kernel)) (by decide +kernel)) (by decide +kernel)⟩,
   ⟨2, 4, 0, 1, issuing 5 (.timer 4 2 4 0 1), 5, false, 31, false, of_issues (of_fetches (of_canonical (by decide +kernel)) (by decide +kernel)) (by decide +kernel)⟩,
   ⟨3, 4, 0, 1, issuing 5 (.timer 5 3 4 0 1), 5, false, 31, false, of_issues (of_fetches (of_canonical (by decide +kernel)) (by decide +kernel)) (by decide +kernel)⟩,
   ⟨0, 4, 0, 0, issuing 5 (.timer 6 0 4 0 0), 5, false, 31, false, of_issues (of_fetches (of_canonical (by decide +kernel)) (by decide +kernel)) (by decide +kernel)⟩,
   ⟨0, 4, 4, 0, issuing 5 (.timer 7 0 4 4 0), 5, false, 31, false, of_issues (of_fetches (of_canonical (by decide +kernel)) (by decide +kernel)) (by decide +kernel)⟩,
   ⟨0, 0, 0, 0, issuing 5 (.timer 8 0 0 0 0), 5, false, 31, false, of_issues (of_fetches (of_canonical (by decide +kernel)) (by decide +kernel)) (by decide +kernel)⟩,
   ⟨0, 0, 4, 0, issuing 5 (.timer 9 0 0 4 0), 5, false, 31, false, of_issues (of_fetches (of_canonical (by decide +kernel)) (by decide +kernel)) (by decide +kernel)⟩,
   ⟨alive.setCell 5 (someCell.setUnit 1 ⟨8, true, true, 991⟩), 5, 1, of_canonical (by decide +kernel), by decide +kernel⟩,
   ⟨alive.setCell 5 { someCell with landing := [(999, .reg 9 ⟨5, true⟩)] }, 5, 999, 9, ⟨5, true⟩, of_canonical (by decide +kernel), by decide +kernel⟩,
   ⟨alive.setCell 5 { someCell with landing := [(999, .pred 31 ⟨false, true⟩)] }, 5, 999, 31, ⟨false, true⟩, of_canonical (by decide +kernel), by decide +kernel⟩,
   ⟨alive.setCell 5 { someCell with landing := [(999, .carry ⟨false, true⟩)] }, 5, 999, ⟨false, true⟩, of_canonical (by decide +kernel), by decide +kernel⟩,
   ⟨alive.setCell 5 { someCell with landing := [(1001, .carry ⟨false, true⟩)] }, 5, of_canonical (by decide +kernel), by decide +kernel⟩⟩

end Sys2Proof.Tests.Cells

namespace Sys2Proof.Tests.SharedCells
open Sys2Proof Sys2Proof.Machine
set_option Elab.async false
set_option linter.unusedVariables false

def tk (mode : Nat) (e : List Rec) : State := { sets (issuing 300 (.take 11 3 8 mode)) [(blkPage 18, BLK.FIFO_CFG_EN, 0xfff)] with fifos := Tab.set (fun _ => Fifo.empty) [] 227 { Fifo.empty with entries := e } }
def pt (sq : Nat) (stamp : Bool) (e : Ext) : State :=
  let s := sets (issuing 300 (.put sq stamp 4)) [(regPage 2, REG.REC_RING_COUNT, 1)]
  let s := s.setCell 300 { someCell with lastSeq := 9, regs := [(4, ⟨0x09503, false⟩), (5, ⟨0x00005, false⟩), (6, ⟨0x15555, false⟩)] }
  ({ s with recordingRegions := 4 }).setSrc 10 42 ⟨0x3f, some e⟩
def en (toBank : Bool) (left : Nat) : State :=
  let s := sets alive [(blkPage 63, BLK.XFER_STATUS_BUSY, 1), (blkPage 63, BLK.XFER_STATUS_LEFT, left), (blkPage 63, BLK.XFER_STATUS_BANK, 31), (blkPage 63, BLK.XFER_STATUS_LINE, 0x3fff), (bankPage 255, BANK.OWNER_NOW_OWNER, 3 + 16 * 7)]
  let s := (s.setHalf (halfIdx 255 0x3fff 1) (Half.fresh ⟨1, 2, 3, 4⟩)).setSword 63 4089 ⟨99, false, false⟩
  s.setEngine 63 ⟨toBank, 4088, false⟩
def par : State := (issuing 300 (.rsnd 63 1)).setIword 300 8 ⟨0x700000000, true⟩ |>.setIword 300 3 ⟨BitVec.ofNat 36 (31 * 2 ^ 30 + opWord (.csnd 127 1)), false⟩
def dbg (l : List (Nat × Fld × Nat)) : State := sets (fetching 1023 (opWord .openSlot)) ((regPage 7, REG.DBG_SEL_CELL, 127) :: l)

theorem witness_CellExchange :
    (∃ (s : State) (c : Fin 1024) (neg : Bool) (gp : Bool) (g : ℕ) (nb : ℕ) (a : ℕ) (d : ℕ), s.Issues ↑c { neg := neg, guard := g, op := CellOp.nrd nb a d } gp ∧ nb < 16)
    ∧ (∃ (s : State) (c : Fin 1024) (neg : Bool) (gp : Bool) (g : ℕ) (ch : ℕ) (a : ℕ), s.Issues ↑c { neg := neg, guard := g, op := CellOp.rsnd ch a } gp ∧ (∀ x ∈ s.sent, ¬(x.ch = 64 * (↑c / 128) + ch ∧ x.due = s.time.tclk + 4)))
    ∧ (∃ (s : State) (c : Fin 1024) (neg : Bool) (gp : Bool) (g : ℕ) (ch : ℕ) (a : ℕ), s.Issues ↑c { neg := neg, guard := g, op := CellOp.csnd ch a } gp ∧ (∀ x ∈ s.sent, ¬(x.ch = 512 + ch ∧ x.due = s.time.tclk + 16)))
    ∧ (∃ (s : State) (c : Fin 1024) (neg : Bool) (gp : Bool) (g : ℕ) (ch : ℕ) (d : ℕ), s.Issues ↑c { neg := neg, guard := g, op := CellOp.rrcv ch d } gp ∧ (∀ x ∈ s.sent, x.ch = 64 * (↑c / 128) + ch → s.time.tclk < x.due))
    ∧ (∃ (s : State) (c : Fin 1024) (neg : Bool) (gp : Bool) (g : ℕ) (ch : ℕ) (d : ℕ), s.Issues ↑c { neg := neg, guard := g, op := CellOp.crcv ch d } gp ∧ (∀ x ∈ s.sent, x.ch = 512 + ch → s.time.tclk < x.due))
    ∧ (∃ (s : State) (i : Fin 640) (pre : List Sent) (rest : List Sent) (x : Sent), s.Canonical ∧ s.sent = pre ++ x :: rest ∧ x.ch = ↑i ∧ x.due ≤ s.time.tclk ∧ x.collided = false ∧ (∀ y ∈ rest, ¬(y.ch = ↑i ∧ y.due ≤ s.time.tclk ∧ y.collided = false)))
    ∧ (∃ (s : State) (i : Fin 640), s.Canonical ∧ (∀ x ∈ s.sent, x.ch = ↑i → x.due ≤ s.time.tclk → x.collided = true)) :=
  ⟨⟨(issuing 21 (.nrd 3 1 8)).setCell 19 { someCell with stopAt := some 999 }, 21, false, false, 31, 3, 1, 8, of_issues (of_fetches (of_canonical (by decide +kernel)) (by decide +kernel)) (by decide +kernel), by decide +kernel⟩,
   ⟨issuing 1023 (.rsnd 63 1), 1023, false, false, 31, 63, 1, of_issues (of_fetches (of_canonical (by decide +kernel)) (by decide +kernel)) (by decide +kernel), by decide +kernel⟩,
   ⟨issuing 1023 (.csnd 127 6), 1023, false, false, 31, 127, 6, of_issues (of_fetches (of_canonical (by decide +kernel)) (by decide +kernel)) (by decide +kernel), by decide +kernel⟩,
   ⟨(issuing 200 (.rrcv 63 8)).setXchan 127 ⟨⟨5, false⟩, true⟩, 200, false, false, 31, 63, 8, of_issues (of_fetches (of_canonical (by decide +kernel)) (by decide +kernel)) (by decide +kernel), by decide +kernel⟩,
   ⟨(issuing 200 (.crcv 127 8)).setXchan 639 ⟨⟨5, false⟩, false⟩, 200, false, false, 31, 127, 8, of_issues (of_fetches (of_canonical (by decide +kernel)) (by decide +kernel)) (by decide +kernel), by decide +kernel⟩,
   ⟨{ alive with sent := [⟨1000, 639, 3, ⟨7, true⟩, false⟩, ⟨1001, 639, 3, ⟨8, true⟩, false⟩, ⟨1000, 5, 3, ⟨8, true⟩, false⟩] }, 639, [], [⟨1001, 639, 3, ⟨8, true⟩, false⟩, ⟨1000, 5, 3, ⟨8, true⟩, false⟩], ⟨1000, 639, 3, ⟨7, true⟩, false⟩, of_canonical (by decide +kernel), by decide +kernel⟩,
   ⟨{ alive with sent := [⟨1000, 639, 3, ⟨7, true⟩, true⟩, ⟨1000, 5, 3, ⟨8, true⟩, false⟩] }, 639, of_canonical (by decide +kernel), by decide +kernel⟩⟩

theorem witness_CellInputs :
    (∃ (s : State) (c : Fin 1024) (neg : Bool) (gp : Bool) (g : ℕ) (sel : ℕ) (d : ℕ), s.Issues ↑c { neg := neg, guard := g, op := CellOp.xin sel d } gp)
    ∧ (∃ (s : State) (c : Fin 1024) (neg : Bool) (g : ℕ) (line : ℕ) (p : ℕ) (a : ℕ), s.Issues ↑c { neg := neg, guard := g, op := CellOp.evt line p } false ∧ (s.cellNow ↑c).pred p = { val := true, poison := false } ∧ 64 * (↑c / 128) + line ∉ s.use.lines ∧ s.lineUses = [] ∧ s.binding (↑c / 128) line = (2, a))
    ∧ (∃ (s : State) (c : Fin 1024) (neg : Bool) (gp : Bool) (g : ℕ) (line : ℕ) (p : ℕ), s.Issues ↑c { neg := neg, guard := g, op := CellOp.evt line p } gp ∧ (gp = true ∨ ((s.cellNow ↑c).pred p).poison = true ∨ ((s.cellNow ↑c).pred p).val = false))
    ∧ (∃ (s : State) (c : Fin 1024) (neg : Bool) (gp : Bool) (g : ℕ) (q : ℕ) (p : ℕ), s.Issues ↑c { neg := neg, guard := g, op := CellOp.btst q p } gp) :=
  ⟨⟨issuing 1023 (.xin 0 8), 1023, false, false, 31, 0, 8, of_issues (of_fetches (of_canonical (by decide +kernel)) (by decide +kernel)) (by decide +kernel)⟩,
   ⟨(issuing 300 (.evt 63 1)).wr (regPage 2 + 0x260 + 60) 0x5e000000, 300, false, 31, 63, 1, 30, of_issues (of_fetches (of_canonical (by decide +kernel)) (by decide +kernel)) (by decide +kernel), by decide +kernel⟩,
   ⟨issuing 300 (.evt 63 0), 300, false, false, 31, 63, 0, of_issues (of_fetches (of_canonical (by decide +kernel)) (by decide +kernel)) (by decide +kernel), by decide +kernel⟩,
   ⟨issuing 300 (.btst 4 3), 300, false, false, 31, 4, 3, of_issues (of_fetches (of_canonical (by decide +kernel)) (by decide +kernel)) (by decide +kernel)⟩⟩

theorem witness_CellTakesAndPut :
    (∃ (s : State) (c : Fin 1024) (neg : Bool) (gp : Bool) (g : ℕ) (f : ℕ) (v : ℕ) (d : ℕ) (mode : ℕ), s.Issues ↑c { neg := neg, guard := g, op := CellOp.take f v d mode } gp ∧ s.FirstTake (↑c) f ∧ mode < 3)
    ∧ (∃ (s : State) (c : Fin 1024) (neg : Bool) (g : ℕ) (sq : ℕ) (a : ℕ) (stamp : Bool) (e : Machine.Ext), s.Issues ↑c { neg := neg, guard := g, op := CellOp.put sq stamp a } false ∧ s.TakesPut (↑c / 16) ∧ sq < 3 ∧ (∀ i < 4, ((s.cellNow ↑c).reg (a + i)).poison = false) ∧ BitVec.toNat ((s.cellNow ↑c).reg a).val / 2 ^ 14 ∉ [0, 1, 5, 15] ∧ opensGroup     { w0 := ((s.cellNow ↑c).reg a).val, w1 := ((s.cellNow ↑c).reg (a + 1)).val, w2 := ((s.cellNow ↑c).reg (a + 2)).val,       w3 := ((s.cellNow ↑c).reg (a + 3)).val } =   false ∧ (s.src (8 + ↑c / 128) (BitVec.toNat ((s.cellNow ↑c).reg a).val / 2 ^ 7 % 2 ^ 7)).ext = some e ∧ e.coarse = s.coarse ∧ e.holdover = s.holdover ∧ (stamp = true → e.bit54 = some (bitOf (BitVec.toNat s.now) 54))) :=
  ⟨⟨tk 0 [⟨1,2,3,4⟩,⟨5,6,7,8⟩], 300, false, false, 31, 11, 3, 8, 0, of_issues (of_fetches (of_canonical (by decide +kernel)) (by decide +kernel)) (by decide +kernel), of_firstTake (by decide +kernel), by decide +kernel⟩,
   ⟨pt 0 true ⟨some false, false, false, 0⟩, 300, false, 31, 0, 4, true, ⟨some false, false, false, 0⟩, of_issues (of_fetches (of_canonical (by decide +kernel)) (by decide +kernel)) (by decide +kernel), of_takesPut (by decide +kernel), by decide +kernel⟩⟩

theorem witness_CellScratch :
    (∃ (s : State) (c : Fin 1024) (neg : Bool) (gp : Bool) (g : ℕ) (port : ℕ) (i : ℕ) (a : ℕ) (d : ℕ), s.Issues ↑c { neg := neg, guard := g, op := CellOp.sld port i a d } gp ∧ s.PortFree (↑c / 16) port ∧ (s.sword (↑c / 16) ((BitVec.toNat ((s.cellNow ↑c).reg a).val + i) % 4096)).bad = false ∧ s.injectArmed 4 (↑c / 16) = false)
    ∧ (∃ (s : State) (c : Fin 1024) (neg : Bool) (gp : Bool) (g : ℕ) (port : ℕ) (i : ℕ) (a : ℕ) (r : ℕ), s.Issues ↑c { neg := neg, guard := g, op := CellOp.sst port i a r } gp ∧ s.PortFree (↑c / 16) port)
    ∧ (∃ (s : State) (x : Stored), s.Canonical ∧ s.stores = [x] ∧ x.cycle < s.time.tclk)
    ∧ (∃ (s : State) (c : Fin 1024) (neg : Bool) (gp : Bool) (g : ℕ) (dir : Bool) (bank : ℕ) (n : ℕ) (a : ℕ) (b : ℕ), s.Issues ↑c { neg := neg, guard := g, op := CellOp.bxfer dir bank n a b } gp ∧ s.bit (blkPage (↑c / 16)) BLK.XFER_STATUS_BUSY = false ∧ s.bit (blkPage (↑c / 16)) BLK.XFER_STATUS_FROZEN = false)
    ∧ (∃ (s : State) (c : Fin 1024) (neg : Bool) (gp : Bool) (g : ℕ) (dir : Bool) (bank : ℕ) (n : ℕ) (a : ℕ) (b : ℕ), s.Issues ↑c { neg := neg, guard := g, op := CellOp.bxfer dir bank n a b } gp ∧ s.bit (blkPage (↑c / 16)) BLK.XFER_STATUS_BUSY = true) :=
  ⟨⟨(issuing 300 (.sld 1 1023 1 8)).setSword 18 0x3fe ⟨77, true, false⟩, 300, false, false, 31, 1, 1023, 1, 8, of_issues (of_fetches (of_canonical (by decide +kernel)) (by decide +kernel)) (by decide +kernel), by unfold State.PortFree; decide +kernel, by decide +kernel⟩,
   ⟨issuing 300 (.sst 0 1023 1 2), 300, false, false, 31, 0, 1023, 1, 2, of_issues (of_fetches (of_canonical (by decide +kernel)) (by decide +kernel)) (by decide +kernel), by unfold State.PortFree; decide +kernel⟩,
   ⟨{ alive with stores := [⟨999, 63, 4095, 0, ⟨5, true⟩⟩] }, ⟨999, 63, 4095, 0, ⟨5, true⟩⟩, of_canonical (by decide +kernel), by decide +kernel⟩,
   ⟨issuing 300 (.bxfer true 31 31 1 2), 300, false, false, 31, true, 31, 31, 1, 2, of_issues (of_fetches (of_canonical (by decide +kernel)) (by decide +kernel)) (by decide +kernel), by decide +kernel⟩,
   ⟨sets (issuing 300 (.bxfer true 31 31 1 2)) [(blkPage 18, BLK.XFER_STATUS_BUSY, 1)], 300, false, false, 31, true, 31, 31, 1, 2, of_issues (of_fetches (of_canonical (by decide +kernel)) (by decide +kernel)) (by decide +kernel), by decide +kernel⟩⟩

theorem witness_BankEngine : ∃ (s : State) (g : Fin 64), s.Canonical ∧ s.bit (blkPage ↑g) BLK.XFER_STATUS_BUSY = true ∧ s.bit (blkPage ↑g) BLK.XFER_STATUS_FROZEN = false ∧ s.bit (blkPage ↑g) BLK.live_HALTED = false ∧ 0 < s.fld (blkPage ↑g) BLK.XFER_STATUS_LEFT ∧ s.granted s.aclk s.others (Access.engine ↑g) = true ∧ s.gate (32 * (↑g / 8) + s.fld (blkPage ↑g) BLK.XFER_STATUS_BANK) 3 (↑g % 8) = Grant.granted ∧ (∀ x ∈ s.stores, s.time.tclk ≤ x.cycle) ∧ (s.engine ↑g).poison = false ∧ s.bit chipPage CHIP.INJECT_GO = false ∧ ((s.engine ↑g).toBank = true → ∀ i < 8, (s.sword (↑g) (((s.engine ↑g).addr + i) % 4096)).bad = false) ∧ ((s.engine ↑g).toBank = false →   (s.half (halfIdx (32 * (↑g / 8) + s.fld (blkPage ↑g) BLK.XFER_STATUS_BANK) (s.fld (blkPage ↑g) BLK.XFER_STATUS_LINE) 0)).integ = Integ.ok ∧     (s.half (halfIdx (32 * (↑g / 8) + s.fld (blkPage ↑g) BLK.XFER_STATUS_BANK) (s.fld (blkPage ↑g) BLK.XFER_STATUS_LINE) 1)).integ = Integ.ok) :=
  ⟨en true 1, 63, of_canonical (by decide +kernel), by decide +kernel⟩

theorem witness_RegionFaults :
    (∃ (s : State) (c : Fin 1024) (w : IWord), s.Canonical ∧ s.fetchCell ↑c = some w)
    ∧ (∃ (s : State) (c : Fin 1024) (w : IWord), s.Canonical ∧ s.run.endRun = none ∧ s.fetchCell ↑c = some w ∧ w.bad = false ∧ s.injectArmed 3 ↑c = false ∧ decodeInstr w.word = none ∧ (s.cellNow ↑c).pred (bitsOf w.word.toNat 30 5) = { val := !bitOf w.word.toNat 35, poison := false } ∧ s.bit (regPage (↑c / 128)) REG.live_FAULT = false)
    ∧ (∃ (s : State) (n : Fin 8) (code : Fin 4) (bank : Fin 32), s.Canonical ∧ s.live = true ∧ s.run.endRun = none ∧ s.bit (regPage ↑n) REG.live_FAULT = false) :=
  ⟨⟨par, 300, ⟨0x700000000, true⟩, of_canonical (by decide +kernel), by decide +kernel⟩,
   ⟨fetching 300 (31 * 2 ^ 30 + 7 * 2 ^ 27), 300, ⟨BitVec.ofNat 36 (31 * 2 ^ 30 + 7 * 2 ^ 27), false⟩, of_canonical (by decide +kernel), by decide +kernel⟩,
   ⟨fetching 300 0, 2, 3, 31, of_canonical (by decide +kernel), by decide +kernel⟩⟩

theorem witness_CellWindows :
    (∃ (s : State) (n : Fin 8) (pe : Bool), s.Canonical ∧ s.hostLive = true ∧ s.bit (regPage ↑n) REG.DBG_CTRL_GO = false ∧ s.fld (regPage ↑n) REG.DBG_SEL_SPACE = 0 ∧ s.executes ↑n = true ∧ s.hasOpen (128 * ↑n + s.fld (regPage ↑n) REG.DBG_SEL_CELL) = true)
    ∧ (∃ (s : State) (n : Fin 8), s.Canonical ∧ s.bit (regPage ↑n) REG.DBG_CTRL_GO = true ∧ s.fld (regPage ↑n) REG.DBG_SEL_SPACE = 0 ∧ s.openNow (128 * ↑n + s.fld (regPage ↑n) REG.DBG_SEL_CELL) = true)
    ∧ (∃ (s : State) (g : Fin 64) (w : Fin 4096) (v : Dword), s.Canonical ∧ s.hostLive = true ∧ s.executes (↑g / 8) = false ∧ s.stores = [])
    ∧ (∃ (s : State) (g : Fin 64) (w : Fin 4096), s.hostLive = true ∧ s.executes (↑g / 8) = false ∧ s.stores = [] ∧ ((s.sword ↑g ↑w).bad = true → s.bit (blkPage ↑g) BLK.live_HALTED = true))
    ∧ (∃ (s : State) (c : Fin 1024) (v : Dword), s.Canonical ∧ s.hostLive = true)
    ∧ (∃ (s : State) (c : Fin 1024) (a : Fin 512) (v : Dword), s.Canonical ∧ s.hostLive = true ∧ s.betweenRuns = true ∧ s.executes (↑c / 128) = false)
    ∧ (∃ (s : State) (c : Fin 1024) (a : Fin 512) (v : Dword), s.Canonical ∧ s.hostLive = true ∧ s.executes (↑c / 128) = true ∧ s.bit (regPage (↑c / 128)) REG.DBG_CTRL_PATCH_EN = true ∧ s.hasOpen ↑c = true)
    ∧ (∃ (s : State) (c : Fin 1024) (a : Fin 512) (v : Dword), s.Canonical ∧ s.hostLive = true ∧ s.executes (↑c / 128) = true ∧ s.bit (regPage (↑c / 128)) REG.DBG_CTRL_PATCH_EN = false)
    ∧ (∃ (s : State) (c : Fin 1024) (a : ℕ) (w : BitVec 36) (rest : List (ℕ × BitVec 36)), s.Canonical ∧ (s.cell ↑c).patch = (a, w) :: rest ∧ s.executes (↑c / 128) = true ∧ s.openNow ↑c = true) :=
  ⟨⟨dbg [], 7, true, of_canonical (by decide +kernel), by decide +kernel⟩,
   ⟨dbg [(regPage 7, REG.DBG_CTRL_GO, 1), (regPage 7, REG.DBG_SEL_INDEX, 1)], 7, of_canonical (by decide +kernel), by decide +kernel⟩,
   ⟨alive, 63, 4095, 0xffffffff, of_canonical (by decide +kernel), by decide +kernel⟩,
   ⟨alive.setSword 63 4095 ⟨0x3ffff, true, false⟩, 63, 4095, by decide +kernel⟩,
   ⟨alive, 1023, 0xffffffff, of_canonical (by decide +kernel), by decide +kernel⟩,
   ⟨alive.setCell 1023 { someCell with staged := 0xffffffff }, 1023, 511, 0xffffffff, of_canonical (by decide +kernel), by decide +kernel⟩,
   ⟨dbg [(regPage 7, REG.DBG_CTRL_PATCH_EN, 1)], 1023, 511, 0xffffffff, of_canonical (by decide +kernel), by decide +kernel⟩,
   ⟨dbg [], 1023, 511, 0xffffffff, of_canonical (by decide +kernel), by decide +kernel⟩,
   ⟨(dbg []).setCell 1023 { someCell with patch := [(511, 5), (3, 4)] }, 1023, 511, 5, [(3, 4)], of_canonical (by decide +kernel), by decide +kernel⟩⟩

end Sys2Proof.Tests.SharedCells

namespace Sys2Proof.Tests.Runs
open Sys2Proof Sys2Proof.Machine
set_option Elab.async false
set_option linter.unusedVariables false

/-- run state -/
def inRun (st : Nat) (l : List (Nat × Fld × Nat)) : State := sets alive ([(chipPage, CHIP.live_RUN_STATE, st), (chipPage, CHIP.live_READY, 1)] ++ l)
def img : List (BitVec 64) := [0x00b10003474d495a, 0, 64, 0, 0, 0, 0, 0]
def loading (st : Nat) : State := { inRun st [(chipPage, CHIP.live_LOADING, 1)] with run := { State.reset.run with pendingCmd := some (1, 5), loadLen := 64 } }

theorem witness_RunBegins :
    (∃ (s : State) (id : BitVec 8), s.Accepts 1 id)
    ∧ (∃ (s : State) (id : BitVec 8), s.Accepts 2 id ∧ s.isQueen = false ∧ s.armRefusal = none)
    ∧ (∃ (s : State) (id : BitVec 8) (cause : ℕ), s.Accepts 2 id ∧ s.armRefusal = some cause)
    ∧ (∃ (s : State) (id : BitVec 8), s.Accepts 3 id ∧ s.isQueen = false)
    ∧ (∃ (s : State) (image : List (BitVec 64)) (insts : List Meas) (lines : List (ℕ × LineUse)) (l : List (ℕ × Item2)), s.Canonical ∧ s.bit chipPage CHIP.live_LOADING = true ∧ s.firstPass s.run.loadLen (List.take (s.run.loadLen / 8) (image ++ List.replicate (s.run.loadLen / 8 - image.length) 0)) = Except.ok l)
    ∧ (∃ (s : State) (image : List (BitVec 64)) (insts : List Meas) (lines : List (ℕ × LineUse)) (e : LoadFail), s.Canonical ∧ s.bit chipPage CHIP.live_LOADING = true ∧ s.firstPass s.run.loadLen (List.take (s.run.loadLen / 8) (image ++ List.replicate (s.run.loadLen / 8 - image.length) 0)) = Except.error e) :=
  ⟨⟨(inRun 0 []).setPair chipPage CHIP.IMG_ADDR_LO 0xffffffff12345678, 0xff, of_accepts (of_canonical (by decide +kernel)) (by decide +kernel)⟩,
   ⟨inRun 1 [(swarmPage, SWARM.STATE_ALIGN, 0)], 0xff, of_accepts (of_canonical (by decide +kernel)) (by decide +kernel), by decide +kernel⟩,
   ⟨sets (inRun 5 []) [(chipPage, CHIP.live_READY, 0)], 0xff, 8, of_accepts (of_canonical (by decide +kernel)) (by decide +kernel), by decide +kernel⟩,
   ⟨inRun 2 [(chPage 95, CH.ECOUNT_LO, 9)], 0xff, of_accepts (of_canonical (by decide +kernel)) (by decide +kernel), by decide +kernel⟩,
   ⟨loading 0, img, [], [], [], of_canonical (by decide +kernel), by decide +kernel⟩,
   ⟨loading 1, [0x00b10003474d495b], [], [], ⟨1, false, false, 0⟩, of_canonical (by decide +kernel), by decide +kernel⟩⟩

theorem witness_RunEnds :
    (∃ (s : State) (id : BitVec 8), s.Accepts 4 id ∧ s.isQueen = false ∧ s.holdover = false)
    ∧ (∃ (s : State) (id : BitVec 8), s.Accepts 5 id ∧ s.isQueen = false ∧ s.holdover = false)
    ∧ (∃ (s : State) (id : BitVec 8), s.Accepts 6 id) :=
  ⟨⟨inRun 3 [(regPage 7, REG.SLOT_EXEC, 1)], 0xff, of_accepts (of_canonical (by decide +kernel)) (by decide +kernel), by decide +kernel⟩,
   ⟨inRun 3 [(regPage 7, REG.SLOT_EXEC, 1)], 0xff, of_accepts (of_canonical (by decide +kernel)) (by decide +kernel), by decide +kernel⟩,
   ⟨inRun 6 [(regPage 7, REG.live_FAULT, 1)], 0xff, of_accepts (of_canonical (by decide +kernel)) (by decide +kernel)⟩⟩

theorem witness_CommandJudgement :
    (∃ (s : State) (v : Dword), s.Canonical ∧ s.hostLive = true ∧ s.cmdWaits Agent.pcie = false ∧ wellFormedCmd v = false)
    ∧ (∃ (s : State) (id : BitVec 8) (x : ℕ × (BitVec 8 → Instr)), s.Canonical ∧ x ∈ runCommands ∧ s.hostLive = true ∧ s.cmdWaits Agent.pcie = false ∧ s.run.lastId = some id)
    ∧ (∃ (s : State) (id : BitVec 8) (x : ℕ × (BitVec 8 → Instr)), s.Canonical ∧ x ∈ runCommands ∧ s.hostLive = true ∧ s.cmdWaits Agent.pcie = false ∧ s.run.lastId ≠ some id ∧ s.permitted x.1 = false) :=
  ⟨⟨inRun 0 [], 0x00001210, of_canonical (by decide +kernel), by decide +kernel⟩,
   ⟨{ inRun 0 [] with run := { State.reset.run with lastId := some 0xff } }, 0xff, (8, .cmdWake), of_canonical (by decide +kernel), by decide +kernel⟩,
   ⟨inRun 0 [], 0xff, (3, .cmdStart), of_canonical (by decide +kernel), by decide +kernel⟩⟩

theorem witness_MajorCycles :
    (∃ (s : State), s.Canonical ∧ (∀ (u : DTime), s.run.startAt = some u → 0 ≤ dt u s.now ∧ dt u s.now < 1024) ∧ s.live = true ∧ s.runState = RunState.running ∧ s.run.slotDue = true)
    ∧ (∃ (s : State) (n : Fin 8), s.Canonical ∧ s.live = true ∧ s.executes ↑n = true ∧ s.slot ↑n = s.majorLen ↑n - 1 ∧ s.run.endRun = none ∧ (s.region ↑n).draining = false ∧ (s.region ↑n).endedAt ≠ some s.time.tclk)
    ∧ (∃ (s : State) (n : Fin 8) (c : ℕ), s.Canonical ∧ s.live = true ∧ s.executes ↑n = true ∧ (s.region ↑n).draining = true ∧ (s.region ↑n).emptyAt = some c ∧ s.slot ↑n = s.majorLen ↑n - 1 ∧ c < s.pair (regPage ↑n) REG.CYCLES_LO ∧ s.quiet ↑n = true ∧ s.writersEmpty ↑n = true) :=
  ⟨⟨{ inRun 3 [(regPage 7, REG.live_FAULT, 1)] with run := { State.reset.run with slotDue := true, startAt := some 0x123456789abcd000 } }, of_canonical (by decide +kernel), by intro u h; injection h with h; subst h; decide +kernel, by decide +kernel⟩,
   ⟨(sets (inRun 3 []) [(regPage 7, REG.SLOT_EXEC, 1)]).setRegion 7 ⟨985, false, none, none, none⟩, 7, of_canonical (by decide +kernel), by decide +kernel⟩,
   ⟨(sets (inRun 4 []) [(regPage 7, REG.SLOT_EXEC, 1), (regPage 7, REG.CYCLES_LO, 3)]).setRegion 7 ⟨985, true, some 2, none, none⟩, 7, 2, of_canonical (by decide +kernel), by decide +kernel⟩⟩

end Sys2Proof.Tests.Runs

namespace Sys2Proof.Tests.Clocks
open Sys2Proof Sys2Proof.Machine
set_option Elab.async false
set_option linter.unusedVariables false

def fresh : State := { sets alive [(tbPage, TB.live_STARTED, 0), (tbPage, TB.live_LOCKED, 0)] with power := { alive.power with startup := .waitLock } }
def byp (src : Nat) (l : List (Nat × Fld × Nat)) : State := sets alive ([(tbPage, TB.live_SOURCE, src), (tbPage, TB.live_COARSE, 1), (tbPage, TB.live_LOCKED, 0)] ++ l)
def win (s : State) (n k : Nat) (x y : BitVec 12) : State := { s with time := { s.time with window := List.replicate k x ++ List.replicate n y } }
def unl : State := alive.setKey tbPage true

theorem witness_LockAndLoss :
    (∃ (s : State) (l : List (BitVec 12)) (e : BitVec 12) (refs : Refs), s.Canonical ∧ s.live = true ∧ s.bit tbPage TB.live_LOCKED = false ∧ (l = [] ∨ s.time.window.length + l.length < 1024) ∧ (List.foldl (countCycle s.inBypass) s.time.window (l ++ [e])).length = 1024 ∧ outCount (List.foldl (countCycle s.inBypass) s.time.window (l ++ [e])) < 342 ∧ (if s.bit tbPage TB.live_STARTED = true then s.onRoot = false else s.power.startup = Startup.waitLock))
    ∧ (∃ (l : List (BitVec 12)) (e : BitVec 12), (∀ d ∈ l, d.toInt.natAbs ≤ 16) ∧ l.length < 1024 ∧ e.toInt.natAbs ≤ 16)
    ∧ (∃ (s : State), s.Canonical ∧ s.live = true ∧ s.bit tbPage TB.live_STARTED = false ∧ s.bit tbPage TB.live_LOCKED = true)
    ∧ (∃ (s : State) (l : List (BitVec 12)) (last : Option (BitVec 12)) (refs : Refs), s.Canonical ∧ (∀ (e : BitVec 12), last = some e → cycleLoss (List.foldl (countCycle false) s.time.window l) e = some 0) ∧ s.canLose = true ∧ quietCycles s.time.window l = true)
    ∧ (∃ (w : List (BitVec 12)) (d : BitVec 12) (e : BitVec 12), 256 < d.toInt.natAbs ∧ 256 < e.toInt.natAbs)
    ∧ (∃ (s : State) (l : List (BitVec 12)) (e : BitVec 12) (refs : Refs), s.Canonical ∧ s.canLose = true ∧ quietCycles s.time.window l = true ∧ cycleLoss (List.foldl (countCycle false) s.time.window l) e = some 1)
    ∧ (∃ (w : List (BitVec 12)) (e : BitVec 12), w.length < 1024 ∧ outCount w = 341 ∧ 16 < e.toInt.natAbs ∧ e.toInt.natAbs ≤ 256) :=
  ⟨⟨win fresh 682 340 17 0, [17], 0xfff, ⟨true, false⟩, of_canonical (by decide +kernel), by decide +kernel⟩,
   ⟨List.replicate 1023 16, (-16), (fun d h => by rw [List.eq_of_mem_replicate h]; decide), by decide +kernel⟩,
   ⟨sets fresh [(tbPage, TB.live_LOCKED, 1), (tbPage, TB.TRIM_LIVE_VALUE, 5)], of_canonical (by decide +kernel), by decide +kernel⟩,
   ⟨sets alive [(tbPage, TB.LOSS_COUNT_VALUE, 65535), (chipPage, CHIP.live_RUN_STATE, 3)], [300], none, ⟨false, true⟩, of_canonical (by decide +kernel), (fun _ h => nomatch h), by decide +kernel⟩,
   ⟨[(-257)], 0x800, 0x7ff, by decide +kernel⟩,
   ⟨win (sets alive [(chipPage, CHIP.live_RUN_STATE, 3)]) 682 341 17 0, [16, 0], 17, ⟨true, false⟩, of_canonical (by decide +kernel), by decide +kernel⟩,
   ⟨List.replicate 341 (-17) ++ List.replicate 682 16, 256, by decide +kernel⟩⟩

theorem witness_BypassSwitches :
    (∃ (s : State) (alt : Bool), s.Canonical ∧ s.live = true ∧ s.bit tbPage TB.live_STARTED = true ∧ s.bit tbPage TB.live_LOCKED = false ∧ s.onRoot = true)
    ∧ (∃ (s : State), s.Canonical ∧ s.live = true ∧ s.fld tbPage TB.live_SOURCE = 1)
    ∧ (∃ (s : State) (l : List (BitVec 12)) (last : Option (BitVec 12)) (refs : Refs), s.Canonical ∧ (∀ (e : BitVec 12), last = some e → cycleLoss (List.foldl (countCycle true) s.time.window l) e ≠ none) ∧ s.live = true ∧ s.bit tbPage TB.live_STARTED = true ∧ s.onRoot = false)
    ∧ (∃ (s : State), s.Canonical ∧ s.live = true ∧ s.coarse = true ∧ s.onRoot = false ∧ s.bit tbPage TB.live_LOCKED = true ∧ s.time.bypassEdge = true)
    ∧ (∃ (s : State), s.bit tbPage TB.live_STARTED = true ∧ s.onRoot = false ∧ s.time.resetDue = false ∧ s.time.bypassPhase < 10) :=
  ⟨⟨sets alive [(tbPage, TB.live_LOCKED, 0), (tbPage, TB.CTRL_ALTREF_EN, 1)], true, of_canonical (by decide +kernel), by decide +kernel⟩,
   ⟨byp 1 [(tbPage, TB.live_ALT_PRESENT, 1)], of_canonical (by decide +kernel), by decide +kernel⟩,
   ⟨byp 2 [(tbPage, TB.live_LOCKED, 1)], [], none, ⟨false, false⟩, of_canonical (by decide +kernel), (fun _ h => nomatch h), by decide +kernel⟩,
   ⟨{ byp 2 [(tbPage, TB.live_LOCKED, 1)] with time := { alive.time with bypassEdge := true } }, of_canonical (by decide +kernel), by decide +kernel⟩,
   ⟨{ byp 2 [] with time := { alive.time with bypassPhase := 9, dtime := 0xfffffffffffffff0 } }, by decide +kernel⟩⟩

theorem witness_WrapAndTrim :
    (∃ (s : State), s.Canonical ∧ s.time.wrapDue = true)
    ∧ (∃ (s : State), s.Canonical ∧ s.live = true ∧ s.bit tbPage TB.live_STARTED = true ∧ s.onRoot = true ∧ s.time.lastSlew + 1024 ≤ s.time.tclk ∧ s.alignOwed = 0 ∧ signed 16 (s.fld tbPage TB.TRIM_LIVE_VALUE) ≠ signed 16 (s.fld tbPage TB.TRIM_TARGET))
    ∧ (∃ (s : State), s.bit tbPage TB.live_STARTED = true ∧ s.onRoot = true ∧ s.time.resetDue = false ∧ s.time.wrapDue = false) :=
  ⟨⟨{ sets alive [(tbPage, TB.EPOCH_VALUE, 255)] with time := { alive.time with wrapDue := true } }, of_canonical (by decide +kernel), by decide +kernel⟩,
   ⟨{ sets alive [(tbPage, TB.TRIM_TARGET, 1)] with time := { alive.time with tclk := 1024 } }, of_canonical (by decide +kernel), by decide +kernel⟩,
   ⟨{ alive with time := { alive.time with dtime := 0xfffffffffffffc00, slew := -1 } }, by decide +kernel⟩⟩

theorem witness_TimebaseWrites :
    (∃ (s : State) (a : Bool), s.Canonical ∧ s.hostLive = true ∧ s.unlocked tbPage = true ∧ s.refOk (s.bit tbPage TB.CTRL_REFSEL) = true ∧ s.resetOk = true)
    ∧ (∃ (s : State), s.Canonical ∧ s.bit tbPage TB.live_STARTED = true ∧ s.time.resetDue = true)
    ∧ (∃ (s : State) (a : Bool), s.Canonical ∧ s.hostLive = true ∧ s.unlocked tbPage = true ∧ s.resetOk = false)
    ∧ (∃ (s : State) (a : Bool), s.Canonical ∧ s.hostLive = true ∧ s.unlocked tbPage = false)
    ∧ (∃ (s : State) (r : Bool) (a : Bool), s.Canonical ∧ s.hostLive = true ∧ s.unlocked tbPage = true ∧ s.bit tbPage TB.live_STARTED = true ∧ r ≠ s.bit tbPage TB.CTRL_REFSEL ∧ s.refOk r = true)
    ∧ (∃ (s : State) (r : Bool) (a : Bool), s.Canonical ∧ s.hostLive = true ∧ s.unlocked tbPage = true ∧ s.refOk r = false) :=
  ⟨⟨sets unl [(tbPage, TB.EPOCH_VALUE, 255), (tbPage, TB.live_WRAPPED, 1), (tbPage, TB.TRIM_LIVE_VALUE, 7)], true, of_canonical (by decide +kernel), by decide +kernel⟩,
   ⟨{ sets alive [(tbPage, TB.EPOCH_VALUE, 255), (tbPage, TB.live_WRAPPED, 1), (tbPage, TB.TRIM_LIVE_VALUE, 7)] with time := { alive.time with resetDue := true } }, of_canonical (by decide +kernel), by decide +kernel⟩,
   ⟨sets unl [(chipPage, CHIP.live_RUN_STATE, 3)], true, of_canonical (by decide +kernel), by decide +kernel⟩,
   ⟨alive, false, of_canonical (by decide +kernel), by decide +kernel⟩,
   ⟨sets unl [(tbPage, TB.live_UPREF_PRESENT, 1)], true, true, of_canonical (by decide +kernel), by decide +kernel⟩,
   ⟨sets unl [(chipPage, CHIP.live_RUN_STATE, 3)], true, false, of_canonical (by decide +kernel), by decide +kernel⟩⟩

end Sys2Proof.Tests.Clocks

namespace Sys2Proof.Tests.Channels
open Sys2Proof Sys2Proof.Machine
set_option Elab.async false
set_option linter.unusedVariables false

/-- channel on, pool ready -/
def chOn (k : Nat) (l : List (Nat × Fld × Nat)) : State := sets alive ([(chPage k, PG.CTRL_RUN, 1), (chPage k, CH.POOL_STATUS_READY, 1), (chPage k, CH.EDGE_SEL, 2)] ++ l)
def wc (k : Nat) (l : List (Nat × Fld × Nat)) (f : Chan → Chan) : State := (chOn k l).modChan k f
def cv (r : Role) (b : Option Nat) : Conv := ⟨r, b, 0, CalTable.nominal⟩
def pool (l : List Conv) : List Conv := l ++ List.replicate (16 - l.length) (cv .active none) ++ [cv .nurse none]
def dryPool (m : Nat) : List Conv := List.replicate 16 (cv .active (some m)) ++ [cv .nurse none]
def goodDuty : Duty := ⟨List.replicate 32 32, 256, 257, 2, 60000⟩
def fgap : State := { alive with fifos := [(35, { Fifo.empty with entries := List.replicate 56 Rec.pad, gap := some ⟨7, 900, 990, 5, false, false⟩ })] }
def gt (n : Nat) (s grid : DTime) : Gate := ⟨n, s, grid, false, 5, s + 100, 5, 1, 2, 3, 4, 5, 6, 7, 8, 9, false, none, true, PairSums.zero⟩
def emitS (rising : Bool) (l : List (Nat × Fld × Nat)) (a : Acc) : State :=
  { (wc 25 l (fun c => { c with pipe := [.stamp 984 0x1000 (-7) rising], acc := a })) with recordingRegions := 4, fifos := [(12*17+1, { Fifo.empty with entries := List.replicate 60 Rec.pad, bit54 := some false })] }
def st5 (k : Nat) (l : List (Nat × Fld × Nat)) (a : Acc) : State := (sets alive l).setAcc k a
def sG : State := st5 3 [(chPage 3, CH.GATE_LEN, 100)] { Acc.empty with since := some 0x123456789aab0000, origin := some 0x123456789aab0000, gridAt := 0x123456789aab0000, buckets := [⟨4, 0x123456789aab0000, 0x123456789aab0000+102400, false⟩], times := [(0x123456789aab0000+1500, 2), (0x123456789aab0000+102500, 1)] }
def dutyS (rej : Nat) : State := { wc 40 [(chPage 40, CH.POOL_CTRL_NURSE_EN, 1), (chPage 40, CH.ROTATIONS, 0xffffffff)] (fun c => { c with duty := some 5, convs := List.replicate 16 (cv .active none) ++ [{ cv .nurse none with rejects := rej }] }) with time := { alive.time with tclk := 131077 } }
def calS (l : List (Nat × Fld × Nat)) : State := { (sets alive ([(chipPage, CHIP.live_READY, 0)] ++ l)).forEach allChans fun k s => s.modChan k fun c => { c with cal := .initial } with power := { alive.power with startup := .calibrating } }
def keyC (k : Nat) (l : List (Nat × Fld × Nat)) : State := (chOn k l).setKey (chPage k) true

theorem witness_EdgesEnterPool :
    (∃ (s : State) (k : Fin 96) (fine : BitVec 10) (j : ℕ), s.Canonical ∧ s.canTake (↑k) j ∧ (∀ i < j, ¬s.canTake (↑k) i) ∧ s.compOn ↑k = true ∧ s.prescaled ↑k = false ∧ s.passes (↑k) (s.nextRises ↑k) = true ∧ s.unstampable ↑k = none ∧ j < (s.chan ↑k).convs.length)
    ∧ (∃ (s : State) (k : Fin 96) (fine : BitVec 10), s.Canonical ∧ s.compOn ↑k = true ∧ s.prescaled ↑k = true ∧ s.nextRises ↑k = true) :=
  ⟨⟨wc 95 [(chPage 95, CH.ECOUNT_LO, 0xffffffff), (chPage 95, CH.live_STUCK, 1)] (fun c => { c with convs := pool [cv .active (some 990), cv .retired none, cv .active (some 988)] }), 95, 1023, 2, of_canonical (by decide +kernel), of_canTake (by decide +kernel), none_canTake (by decide +kernel), by decide +kernel⟩,
   ⟨wc 3 [(chPage 3, CH.INPUT_PRESCALE, 1)] (fun c => { c with presc := 3 }), 3, 7, of_canonical (by decide +kernel), by decide +kernel⟩⟩

theorem witness_PoolGaps :
    (∃ (s : State) (k : Fin 96) (fine : BitVec 10) (cause : ℕ), s.Canonical ∧ (s.unstampable ↑k = some cause ∨ s.unstampable ↑k = none ∧ cause = 1 ∧ ∀ i < (s.chan ↑k).convs.length, ¬s.canTake (↑k) i) ∧ s.compOn ↑k = true ∧ s.prescaled ↑k = false ∧ s.passes (↑k) (s.nextRises ↑k) = true ∧ (s.chan ↑k).gap = none)
    ∧ (∃ (s : State) (k : Fin 96) (fine : BitVec 10) (cause : ℕ) (g : Gap), s.Canonical ∧ s.compOn ↑k = true ∧ s.prescaled ↑k = false ∧ s.passes (↑k) (s.nextRises ↑k) = true ∧ (s.chan ↑k).gap = some g ∧ g.cause ≠ 1 ∧ s.time.tclk ≤ g.first + 262142 ∧ s.unstampable ↑k = some cause)
    ∧ (∃ (s : State) (k : Fin 96) (j : Fin 17) (m : ℕ), s.Canonical ∧ ((s.chan ↑k).conv ↑j).busy = some m ∧ m + 12 ≤ s.time.tclk)
    ∧ (∃ (s : State) (k : Fin 96) (g : Gap), s.Canonical ∧ (s.chan ↑k).gap = some g ∧ g.cause ≠ 1 ∧ g.first + 262142 < s.time.tclk)
    ∧ (∃ (s : State) (g : Fin 64) (i : Fin 12) (x : FifoGap), s.Canonical ∧ (s.fifo (12 * ↑g + ↑i)).gap = some x ∧ (s.fifo (12 * ↑g + ↑i)).closed = [] ∧ (s.fifo (12 * ↑g + ↑i)).heldExt = none ∧ (s.fifo (12 * ↑g + ↑i)).entries.length ≤ 56 ∧ x.last < s.time.tclk ∧ s.time.tclk < x.first + 262143 ∧ s.bit (blkPage ↑g) BLK.live_HALTED = false) :=
  ⟨⟨wc 7 [] (fun c => { c with convs := dryPool 989 }), 7, 0, 1, of_canonical (by decide +kernel), .inr ⟨by decide +kernel, by decide +kernel, none_canTake (by decide +kernel)⟩, by decide +kernel⟩,
   ⟨(wc 7 [(chPage 7, CH.POOL_STATUS_READY, 0)] (fun c => { c with gap := some ⟨3, 5, 900, 4, 950, false⟩ })), 7, 0, 3, ⟨3, 5, 900, 4, 950, false⟩, of_canonical (by decide +kernel), by decide +kernel⟩,
   ⟨wc 7 [(chPage 7, CH.live_GAP_OPEN, 1)] (fun c => { c with convs := dryPool 988, gap := some ⟨1, 5, 990, 2, 995, true⟩ }), 7, 3, 988, of_canonical (by decide +kernel), by decide +kernel⟩,
   ⟨{ wc 7 [] (fun c => { c with gap := some ⟨3, 5, 1, 2, 262143, true⟩ }) with time := { alive.time with tclk := 262144 } }, 7, ⟨3, 5, 1, 2, 262143, true⟩, of_canonical (by decide +kernel), by decide +kernel⟩,
   ⟨fgap, 2, 11, ⟨7, 900, 990, 5, false, false⟩, of_canonical (by decide +kernel), by decide +kernel⟩⟩

theorem witness_StuckDetector :
    (∃ (s : State) (k : Fin 96), s.Canonical ∧ s.compOn ↑k = true ∧ s.nextSelected ↑k = false)
    ∧ (∃ (s : State) (k : Fin 96), s.Canonical ∧ s.Calm ∧ s.compOn ↑k = true ∧ s.fld (chPage ↑k) CH.STUCK_TO_COUNT ≠ 0 ∧ (s.chan ↑k).expired = false ∧ s.crosses ↑k = false ∧ (s.chan ↑k).timerFrom + 1024 * s.fld (chPage ↑k) CH.STUCK_TO_COUNT ≤ s.time.tclk)
    ∧ (∃ (s : State) (k : Fin 96), s.Canonical ∧ s.Calm ∧ s.crosses ↑k = true) :=
  ⟨⟨chOn 9 [(chPage 9, CH.EDGE_SEL, 1), (chPage 9, CH.live_STUCK, 1)], 9, of_canonical (by decide +kernel), by decide +kernel⟩,
   ⟨{ chOn 9 [(chPage 9, CH.STUCK_TO_COUNT, 1), (chPage 9, CH.LEVEL_COMP, 1)] with time := { alive.time with tclk := 1024 } }, 9, of_canonical (by decide +kernel), by unfold State.Calm; decide +kernel, by decide +kernel⟩,
   ⟨{ chOn 9 [(chPage 9, CH.STUCK_TO_COUNT, 1)] with time := { alive.time with tclk := 1024 }, pending := [.edgeArrival 9 5] }, 9, of_canonical (by decide +kernel), by unfold State.Calm; decide +kernel, by decide +kernel⟩⟩

theorem witness_PoolEmits : ∃ (s : State) (k : Fin 96) (m : ℕ) (tc : DTime) (corr : ℤ) (rising : Bool), s.Canonical ∧ s.Calm ∧ s.insts = [] ∧ m + 16 ≤ s.time.tclk ∧ s.capturing (chRegion ↑k) = false ∧ (s.chan ↑k).pipe = [Entry.stamp m tc corr rising] ∧ (s.acc ↑k).early = [] :=
  ⟨emitS true [(blkPage 17, BLK.FIFO_CFG_EN, 2), (chPage 25, CH.DELAY_OFFSET, 0x2000)] Acc.empty, 25, 984, 0x1000, (-7), true, of_canonical (by decide +kernel), by unfold State.Calm; decide +kernel, by decide +kernel⟩

theorem witness_GridResults :
    (∃ (s : State) (k : Fin 96) (b : Bucket), s.Canonical ∧ (s.acc ↑k).origin.isSome = true ∧ (s.acc ↑k).stopped = none ∧ s.gateMode ↑k = 0 ∧ s.gateLen ↑k ≠ 0 ∧ (s.acc ↑k).buckets = [b] ∧ b.trunc = false ∧ 0 ≤ dt s.now (b.hi + ns 177) ∧ 0 ≤ dt s.now b.hi ∧ s.emittedTo (↑k) (b.hi + ns 161) = true)
    ∧ (∃ (s : State) (k : Fin 96) (j : ℕ), s.Canonical ∧ (s.acc ↑k).stuckNext = some j ∧ s.bit (chPage ↑k) CH.live_STUCK = true ∧ s.gateMode ↑k = 0 ∧ 0 ≤ dt s.now (s.gridPoint (↑k) j))
    ∧ (∃ (s : State) (k : Fin 96) (u : DTime), s.Canonical ∧ (s.acc ↑k).stopped = some u ∧ (s.acc ↑k).graceOver = false ∧ 0 ≤ dt s.now (u + ns (1024 * s.fld (chPage ↑k) CH.GATE_GRACE_COUNT))) :=
  ⟨⟨sG, 3, ⟨4, 0x123456789aab0000, 0x123456789aab0000+102400, false⟩, of_canonical (by decide +kernel), by decide +kernel⟩,
   ⟨(sets alive [(chPage 3, CH.GATE_LEN, 100), (chPage 3, CH.live_STUCK, 1)]).setAcc 3 { Acc.empty with since := some 0, origin := some 0, stuckNext := some 4, gridAt := 0x123456789abb0000, gridNum := 3 }, 3, 4, of_canonical (by decide +kernel), by decide +kernel⟩,
   ⟨(sets alive [(chPage 3, CH.GATE_LEN, 100), (chPage 3, CH.GATE_GRACE_COUNT, 1)]).setAcc 3 { Acc.empty with since := some 0x123456789aa00000, gridAt := 0x123456789aa90000, stopped := some 0x123456789aab0000, gate := some (gt 3 0x123456789aa90000 0x123456789aaa9000) }, 3, 0x123456789aab0000, of_canonical (by decide +kernel), by decide +kernel⟩⟩

theorem witness_MeasurementArithmetic :
    (∃ (r : ℚ), |↑(roundEven r) - r| = 1 / 2)
    ∧ (∃ (n : ℕ) (d : ℤ) (free : ℕ), 0 < d ∧ 2 ^ 72 ≤ (n : ℚ) * 1024000000000 / (d : ℚ) * 2 ^ 36)
    ∧ (∃ (g : Gate) (b : ℚ) (a : ℚ), gateFit g = some (b, a))
    ∧ (∃ (g : Gate) (b : ℚ) (a : ℚ), gateFit g = some (b, a) ∧ g.m ≠ 0)
    ∧ (∃ (v : ℚ), 0 ≤ v ∧ v < 2 ^ 200 ∧ sqrtEven v ≠ 0)
    ∧ (∃ (l : List ℤ), l ≠ []) :=
  ⟨⟨(5/2 : Rat), by decide +kernel⟩,
   ⟨7, 13, 0, by decide +kernel⟩,
   ⟨gt 1 5 9, (gateFit (gt 1 5 9)).get!.1, (gateFit (gt 1 5 9)).get!.2, by decide +kernel⟩,
   ⟨gt 1 5 9, (gateFit (gt 1 5 9)).get!.1, (gateFit (gt 1 5 9)).get!.2, by decide +kernel⟩,
   ⟨(5/2 : Rat), by decide +kernel⟩,
   ⟨[3, -5, 7], by decide +kernel⟩⟩

theorem witness_NurseDuties :
    (∃ (s : State) (k : Fin 96) (d : Duty) (u : ℕ) (j : ℕ), s.Canonical ∧ (s.chan ↑k).convs.length = 17 ∧ (s.chan ↑k).duty = some u ∧ (s.chan ↑k).nurse = some j ∧ s.rotationOk ↑k = true ∧ u + 131072 ≤ s.time.tclk ∧ s.bit (chPage ↑k) CH.POOL_CTRL_NURSE_EN = true ∧ dutyOk d ((s.chan ↑k).conv j).table = true)
    ∧ (∃ (s : State) (k : Fin 96) (d : Duty) (u : ℕ) (j : ℕ), s.Canonical ∧ (s.chan ↑k).convs.length = 17 ∧ (s.chan ↑k).duty = some u ∧ (s.chan ↑k).nurse = some j ∧ s.rotationOk ↑k = true ∧ u + 131072 ≤ s.time.tclk ∧ s.bit (chPage ↑k) CH.POOL_CTRL_NURSE_EN = true ∧ dutyOk d ((s.chan ↑k).conv j).table = false)
    ∧ (∃ (s : State) (k : Fin 96) (n : ℕ) (o : ℕ), s.Canonical ∧ s.canTake (↑k) o ∧ (s.chan ↑k).convs.length = 17 ∧ (s.chan ↑k).accepted = true ∧ (s.chan ↑k).nurse = some n ∧ (s.chan ↑k).nextActive n = some o)
    ∧ (∃ (s : State) (k : Fin 96) (o : ℕ), s.Canonical ∧ s.canTake (↑k) o ∧ (s.chan ↑k).convs.length = 17 ∧ (s.chan ↑k).nurse = none ∧ (s.chan ↑k).failed = false ∧ (s.chan ↑k).awaitNurse = true ∧ s.bit (chPage ↑k) CH.POOL_STATUS_READY = true ∧ (s.chan ↑k).nextActive (s.chan ↑k).lastNurse = some o) :=
  ⟨⟨dutyS 1, 40, goodDuty, 5, 16, of_canonical (by decide +kernel), by decide +kernel⟩,
   ⟨dutyS 1, 40, { goodDuty with edges := 59999 }, 5, 16, of_canonical (by decide +kernel), by decide +kernel⟩,
   ⟨wc 40 [] (fun c => { c with accepted := true, convs := pool [cv .active (some 988)] }), 40, 16, 0, of_canonical (by decide +kernel), of_canTake (by decide +kernel), by decide +kernel⟩,
   ⟨wc 40 [] (fun c => { c with awaitNurse := true, convs := List.replicate 16 (cv .active (some 988)) ++ [cv .retired none] }), 40, 0, of_canonical (by decide +kernel), of_canTake (by decide +kernel), by decide +kernel⟩⟩

theorem witness_Calibrations :
    (∃ (s : State) (tables : List (Fin 96 × Fin 17 × CalTable)), s.Canonical ∧ s.live = true ∧ s.asleep = false ∧ s.causeThermal = false ∧ s.causeUe = false ∧ s.power.startup ≠ Startup.ready ∧ (∀ k < 96, (s.chan k).cal = CalRun.initial ∧ (s.chan k).convs.length = 17))
    ∧ (∃ (s : State) (k : Fin 96) (v : Dword), s.Canonical ∧ s.hostLive = true ∧ s.unlocked (chPage ↑k) = true ∧ s.betweenRuns = true)
    ∧ (∃ (s : State) (k : Fin 96) (v : Dword), s.Canonical ∧ s.hostLive = true ∧ s.unlocked (chPage ↑k) = true ∧ s.betweenRuns = false)
    ∧ (∃ (s : State) (k : Fin 96) (v : Dword), s.Canonical ∧ s.hostLive = true ∧ s.unlocked (chPage ↑k) = false)
    ∧ (∃ (s : State) (k : Fin 96) (failed : BitVec 17) (tables : List (Fin 96 × Fin 17 × CalTable)), s.Canonical ∧ s.live = true ∧ s.asleep = false ∧ (s.chan ↑k).cal = CalRun.recal ∧ (s.chan ↑k).convs.length = 17)
    ∧ (∃ (s : State) (k : Fin 96), s.Canonical ∧ s.live = true ∧ s.asleep = false ∧ (s.chan ↑k).cal = CalRun.check) :=
  ⟨⟨calS [], [(3, 4, ⟨[], 2, 3⟩)], of_canonical (by decide +kernel), by decide +kernel⟩,
   ⟨keyC 5 [], 5, 4, of_canonical (by decide +kernel), by decide +kernel⟩,
   ⟨keyC 5 [(chipPage, CHIP.live_RUN_STATE, 3)], 5, 4, of_canonical (by decide +kernel), by decide +kernel⟩,
   ⟨chOn 5 [], 5, 4, of_canonical (by decide +kernel), by decide +kernel⟩,
   ⟨wc 5 [(chPage 5, CH.POOL_STATUS_READY, 0)] (fun c => { c with cal := .recal }), 5, 0x10008, [], of_canonical (by decide +kernel), by decide +kernel⟩,
   ⟨wc 5 [(chPage 5, CH.POOL_STATUS_READY, 0)] (fun c => { c with cal := .check, convs := pool [cv .retired none] }), 5, of_canonical (by decide +kernel), by decide +kernel⟩⟩

theorem witness_RunGuardedWrites :
    (∃ (s : State) (k : Fin 96) (v : Dword) (a : Bool) (b : Bool), s.Canonical ∧ s.hostLive = true ∧ s.unlocked (chPage ↑k) = true ∧ s.betweenRuns = true ∧ getBits v 0 2 < 2 ∧ (if ↑k % 2 = 0 then getBits v 4 1 = 0 ∧ (getBits v 3 1 = 0 ∨ s.paired (↑k + 1) = false) else getBits v 4 1 = 0 ∨ getBits v 3 1 = 0 ∧ s.prescaled (↑k - 1) = false))
    ∧ (∃ (s : State) (k : Fin 96) (v : Dword) (a : Bool) (b : Bool), s.Canonical ∧ s.hostLive = true ∧ s.unlocked (chPage ↑k) = true ∧ s.betweenRuns = true ∧ (2 ≤ getBits v 0 2 ∨ ↑k % 2 = 0 ∧ getBits v 4 1 = 1 ∨ ↑k % 2 = 1 ∧ getBits v 4 1 = 1 ∧ getBits v 3 1 = 1))
    ∧ (∃ (s : State) (k : Fin 96) (v : Dword) (a : Bool) (b : Bool), s.Canonical ∧ s.hostLive = true ∧ s.unlocked (chPage ↑k) = true ∧ s.betweenRuns = false)
    ∧ (∃ (s : State) (k : Fin 96) (v : Dword) (a : Bool) (b : Bool), s.Canonical ∧ s.hostLive = true ∧ s.unlocked (chPage ↑k) = false)
    ∧ (∃ (s : State) (k : Fin 96) (run : Bool) (level : Bool), s.Canonical ∧ s.hostLive = true ∧ s.unlocked (chPage ↑k) = true ∧ s.betweenRuns = true)
    ∧ (∃ (s : State) (k : Fin 96) (run : Bool) (level : Bool), s.Canonical ∧ s.hostLive = true ∧ s.unlocked (chPage ↑k) = true ∧ s.betweenRuns = false) :=
  ⟨⟨keyC 4 [], 4, 0x9, true, false, of_canonical (by decide +kernel), by decide +kernel⟩,
   ⟨keyC 4 [], 4, 0x10, true, false, of_canonical (by decide +kernel), by decide +kernel⟩,
   ⟨keyC 4 [(chipPage, CHIP.live_RUN_STATE, 4)], 4, 0x9, true, false, of_canonical (by decide +kernel), by decide +kernel⟩,
   ⟨chOn 5 [], 5, 1, true, false, of_canonical (by decide +kernel), by decide +kernel⟩,
   ⟨keyC 5 [(chPage 5, CH.live_STUCK, 1)], 5, false, false, of_canonical (by decide +kernel), by decide +kernel⟩,
   ⟨keyC 5 [(chipPage, CHIP.live_RUN_STATE, 2)], 5, false, false, of_canonical (by decide +kernel), by decide +kernel⟩⟩

end Sys2Proof.Tests.Channels

namespace Sys2Proof.Tests.Triggers
open Sys2Proof Sys2Proof.Machine
set_option Elab.async false
set_option linter.unusedVariables false

def NOW : DTime := 0x123456789abcd000
def trg (sq : Nat) : Trig := ⟨999, 2, sq, 25, 0, 0, NOW - 0x4000, NOW, 300, 7, 0⟩
def trigS (cfg : Nat) (l : List (Nat × Fld × Nat)) : State :=
  { sets alive ([(regPage 2, ⟨0x200 + 4 * 5, 0, 32⟩, cfg), (chipPage, CHIP.TRIG_IO_OUT_EN, 1), (regPage 2, REG.TRIG_COUNT, 0xffffffff)] ++ l) with trigs := [trg 5] }
def capS (n : Nat) (l : List (Nat × Fld × Nat)) : State :=
  (sets (trigS (2 ^ (12 + n)) []) ([(regPage n, REG.SLOT_EXEC, 1), (regPage n, REG.CAP_CTRL_MODE, 2), (regPage n, REG.CAP_STATUS_PHASE, 1), (regPage n, REG.CAP_RING_COUNT, 4), (regPage n, REG.CAP_PRE_VALUE, 5), (regPage n, REG.CAP_POST_VALUE, 7), (chipPage, CHIP.live_RUN_STATE, 3)] ++ l))
def tin (l : List (Nat × Fld × Nat)) (t : TrigIn) : State := { sets alive ([(chipPage, CHIP.TRIG_IO_IN_EN, 1)] ++ l) with trigIn := t }
def eslS (l : List (Nat × Fld × Nat)) (p : Option Nat) : State := let s := sets alive ([(eslPage, ESL.CTRL_EN, 1), (eslPage, ESL.STATUS_ALIGNED, 1)] ++ l); { s with esl := { s.esl with prev := p } }
/-- The bytes of a frame's number and probe bits, with a check word. -/
def frameWith (num probe crc : Nat) : List (BitVec 8) := leBytes 6 num ++ leBytes 8 probe ++ [0, 0] ++ leBytes 4 crc
def crcOf (num probe : Nat) : Nat := (crc32 (leBytes 6 num ++ leBytes 8 probe ++ [0, 0])).toNat
def striped (w : Nat) (bs : List (BitVec 8)) : List (List StepChar) :=
  (List.range w).map fun l => (StepChar.start :: (List.range (20 / w)).map fun j => StepChar.data (bs.getD (w * j + l) 0)) ++ [StepChar.stop]
def eslA (l : List (Nat × Fld × Nat)) (p : Option Nat) : State := let s := eslS l p; { s with esl := { s.esl with aligned := ⟨some (NOW - 90000), []⟩, first := p.isNone } }
def frameGood (w : Nat) : List (List StepChar) := striped w (frameWith 0x800000000001 0xfedcba9876543210 (crcOf 0x800000000001 0xfedcba9876543210))
def eu (l : List (Nat × Fld × Nat)) (p : Nat) : State := (eslS l none).setKey p true
def ra : Rec := ⟨0x08001, 5, 6, 7⟩
def rb : Rec := ⟨0x08002, 8, 9, 10⟩
def wrS (i : Nat) (l : List (Nat × Fld × Nat)) (w : Writer) : State :=
  let n := i % 8
  { sets alive ([(regPage n, REG.SLOT_EXEC, 1), (regPage n, REG.CAP_CTRL_MODE, 1), (regPage n, REG.CAP_RING_FIRST, 30), (regPage n, REG.CAP_RING_COUNT, 4), (regPage n, REG.CAP_STRIPE_STRIPE, 2),
     (regPage n, REG.REC_RING_FIRST, 3), (regPage n, REG.REC_RING_COUNT, 3), (chipPage, CHIP.live_RUN_STATE, 3)] ++ l) with recordingRegions := 255, writers := [(i, w)] }
def segS (l : List (Nat × Fld × Nat)) (q : List Batch) (c : Nat) : State :=
  let s := wrS 5 ([(regPage 5, REG.CAP_CTRL_MODE, 2), (regPage 5, REG.CAP_STATUS_PHASE, 1), (bankPage 160, BANK.OWNER_NOW_OWNER, 1)] ++ l) { Writer.empty with queue := q }
  { s with caps := [(5, { Cap.init with count := c, stopped := false })] }
def restS : State := { wrS 5 [(regPage 5, REG.CAP_SEL_CH, 0xfff), (regPage 5, REG.DEMOTED_CH, 0xf00)] Writer.empty with caps := [(5, { Cap.init with low := some 872 })], losses := [(5, [⟨1,0,68,4,5,6,false,false⟩])] }
def lossS : State := { wrS 5 [] Writer.empty with writers := [], losses := [(5, [⟨1,0,68,4,5,6,true,true⟩, ⟨1,0,69,4,5,6,true,true⟩])] }
def bk (b : Nat) (l : List (Nat × Fld × Nat)) (k : Bool) : State := let s := sets alive l; if k then s.setKey (bankPage b) true else s
def dr (b v : Nat) : State := (bk b [] false).setShadow (bankPage b + 0x40) (some (BitVec.ofNat 32 v))
def sc (l : Nat) (x : List (Nat × Half)) (f : Option (Nat × Bool × Bool)) : State := { bk 9 [(bankPage 9, BANK.SCRUB_EN, 1)] false with store := x, banks := [(9, ⟨none, l, f⟩)] }

theorem witness_TriggersAct :
    (∃ (s : State) (g : Trig) (n : ℕ), s.Canonical ∧ s.Calm ∧ s.live = true ∧ s.trigs = [g] ∧ g.cycle < s.time.tclk ∧ g.region < 8 ∧ bitOf (BitVec.toNat (s.trigCfg g)) 21 = false ∧ n < 8 ∧ (∀ m < 8, bitOf (BitVec.toNat (s.trigCfg g)) (12 + m) = decide (m = n)) ∧ s.capturing n = true ∧ s.segMode n = true ∧ s.capPhase n = 1 ∧ (s.cap n).stopped = false ∧ s.fld (regPage n) REG.CAP_PRE_VALUE ≤ min (s.cap n).count (s.segLen n) ∧ s.fld (regPage n) REG.CAP_POST_VALUE ≠ 0 ∧ (s.cap n).began ≤ g.cycle ∧ (∀ p ∈ (s.cap n).memory, p.1 < (s.cycleOf g.time).toNat))
    ∧ (∃ (s : State) (g : Trig) (n : ℕ), s.Canonical ∧ s.Calm ∧ s.live = true ∧ s.trigs = [g] ∧ g.cycle < s.time.tclk ∧ g.region < 8 ∧ bitOf (BitVec.toNat (s.trigCfg g)) 21 = false ∧ n < 8 ∧ (∀ m < 8, bitOf (BitVec.toNat (s.trigCfg g)) (12 + m) = decide (m = n)) ∧ s.capturing n = true ∧ s.segMode n = true ∧ s.capPhase n = 1 ∧ (s.cap n).stopped = false ∧ min (s.cap n).count (s.segLen n) < s.fld (regPage n) REG.CAP_PRE_VALUE)
    ∧ (∃ (s : State) (g : Trig), s.Canonical ∧ s.Calm ∧ s.live = true ∧ s.trigs = [g] ∧ g.cycle < s.time.tclk ∧ g.region < 8 ∧ bitOf (BitVec.toNat (s.trigCfg g)) 21 = false ∧ (∀ n < 8, bitOf (BitVec.toNat (s.trigCfg g)) (12 + n) = false))
    ∧ (∃ (s : State) (m : ℕ), s.trigOut = some m ∧ m + max 1 (s.fld chipPage CHIP.TRIG_IO_OUT_WIDTH) ≤ s.time.tclk)
    ∧ (∃ (s : State) (rising : Bool) (fine : BitVec 10), s.live = true ∧ s.bit chipPage CHIP.TRIG_IO_IN_EN = true ∧ rising ≠ s.bit chipPage CHIP.TRIG_IO_IN_POL)
    ∧ (∃ (s : State) (m : ℕ) (u : Option DTime) (r : List (ℕ × Option DTime)), s.Canonical ∧ s.trigIn.pipe = (m, u) :: r ∧ m + 16 ≤ s.time.tclk) :=
  ⟨⟨{ capS 6 [] with recordingRegions := 64, caps := [(6, { Cap.init with count := 5, stopped := false, memory := [(900, 3), (890, 1)] })] }, trg 5, 6, of_canonical (by decide +kernel), by unfold State.Calm; decide +kernel, by decide +kernel⟩,
   ⟨{ capS 6 [] with recordingRegions := 64, caps := [(6, { Cap.init with count := 4, stopped := false, memory := [(900, 3)] })] }, trg 5, 6, of_canonical (by decide +kernel), by unfold State.Calm; decide +kernel, by decide +kernel⟩,
   ⟨trigS 0x100000 [], trg 5, of_canonical (by decide +kernel), by unfold State.Calm; decide +kernel, by decide +kernel⟩,
   ⟨{ sets alive [(chipPage, CHIP.TRIG_IO_OUT_POL, 1), (chipPage, CHIP.TRIG_IO_OUT_EN, 1), (chipPage, CHIP.TRIG_IO_OUT_WIDTH, 0)] with trigOut := some 999 }, 999, by decide +kernel⟩,
   ⟨tin [] ⟨false, some 988, []⟩, true, 7, by decide +kernel⟩,
   ⟨tin [] ⟨true, some 989, [(984, some 5), (989, none)]⟩, 984, some 5, [(989, none)], of_canonical (by decide +kernel), by decide +kernel⟩⟩

theorem witness_StepFrames :
    (∃ (w : ℕ) (bs : List (BitVec 8)), (w = 1 ∨ w = 2 ∨ w = 4) ∧ bs.length = 20)
    ∧ (∃ (s : State) (start : DTime) (lanes : List (List StepChar)) (num : ℕ) (probe : BitVec 64), s.Canonical ∧ s.live = true ∧ s.inCluster = false ∧ s.bit eslPage ESL.CTRL_EN = true ∧ s.alignedAt start = (true, false) ∧ frameCheck s.laneCount lanes = (FrameCheck.good, num, probe))
    ∧ (∃ (s : State) (start : DTime) (lanes : List (List StepChar)) (num : ℕ) (probe : BitVec 64), s.Canonical ∧ s.live = true ∧ s.inCluster = false ∧ s.bit eslPage ESL.CTRL_EN = true ∧ s.alignedAt start = (true, false) ∧ frameCheck s.laneCount lanes = (FrameCheck.crc, num, probe))
    ∧ (∃ (s : State) (start : DTime) (lanes : List (List StepChar)) (num : ℕ) (probe : BitVec 64), s.Canonical ∧ s.live = true ∧ s.inCluster = false ∧ s.bit eslPage ESL.CTRL_EN = true ∧ s.alignedAt start = (true, false) ∧ frameCheck s.laneCount lanes = (FrameCheck.code, num, probe))
    ∧ (∃ (s : State) (d : StepDue) (num : ℕ) (probe : BitVec 64), s.Canonical ∧ s.esl.due = [d] ∧ d.good = some (num, probe))
    ∧ (∃ (s : State) (d : StepDue) (num : ℕ) (probe : BitVec 64), s.Canonical ∧ s.esl.due = [d] ∧ d.good = none)
    ∧ (∃ (s : State) (on : Option (BitVec 4)) (locked : BitVec 4) (estep : Bool), s.Canonical ∧ s.live = true ∧ s.asleep = false ∧ s.bit eslPage ESL.CTRL_EN = true ∧ s.bit eslPage ESL.STATUS_ALIGNED = true ∧ s.alignBroken on = true)
    ∧ (∃ (s : State) (on : Option (BitVec 4)) (locked : BitVec 4) (estep : Bool), s.Canonical ∧ s.live = true ∧ s.asleep = false ∧ s.bit eslPage ESL.CTRL_EN = true ∧ s.bit eslPage ESL.STATUS_ALIGNED = true ∧ s.alignBroken on = false)
    ∧ (∃ (s : State) (estep : Bool), s.Canonical ∧ s.live = true ∧ s.asleep = false ∧ s.bit eslPage ESL.CTRL_EN = true ∧ s.bit eslPage ESL.STATUS_ALIGNED = false) :=
  ⟨⟨4, frameWith 0x800000000001 0xfedcba9876543210 5, by decide +kernel⟩,
   ⟨eslA [(eslPage, ESL.SKEW_VALUE, 0xfffff), (eslPage, ESL.CTRL_WIDTH, 2), (eslPage, ESL.STEPS_LO, 0xffffffff), (eslPage, ESL.RECORD_EN_REGIONS, 0xff)] (some 0xffffffffffff), NOW - 5000, frameGood 4, 0x800000000001, 0xfedcba9876543210, of_canonical (by decide +kernel), by decide +kernel⟩,
   ⟨eslA [] (some 0xffffffffffff), NOW - 5000, striped 1 (frameWith 0x800000000001 0xfedcba9876543210 5), 0x800000000001, 0xfedcba9876543210, of_canonical (by decide +kernel), by decide +kernel⟩,
   ⟨eslA [(eslPage, ESL.CTRL_WIDTH, 1)] none, NOW - 5000, (frameGood 2).take 1, 0, 0, of_canonical (by decide +kernel), by decide +kernel⟩,
   ⟨{ alive with esl := { Esl.init with due := [⟨some (0x800000000001, 7), NOW - 9, true, 0x81⟩] } }, ⟨some (0x800000000001, 7), NOW - 9, true, 0x81⟩, 0x800000000001, 7, of_canonical (by decide +kernel), by decide +kernel⟩,
   ⟨{ alive with esl := { Esl.init with due := [⟨none, NOW - 9, false, 0⟩] } }, ⟨none, NOW - 9, false, 0⟩, 0, 0, of_canonical (by decide +kernel), by decide +kernel⟩,
   ⟨eslA [(eslPage, ESL.STATUS_LANE_LOCK, 15), (eslPage, ESL.CTRL_WIDTH, 2)] (some 7), some 7, 0xf, true, of_canonical (by decide +kernel), by decide +kernel⟩,
   ⟨eslA [(eslPage, ESL.STATUS_LANE_LOCK, 3), (eslPage, ESL.CTRL_WIDTH, 1)] (some 7), some 0xc, 0xd, false, of_canonical (by decide +kernel), by decide +kernel⟩,
   ⟨eslS [(eslPage, ESL.STATUS_ALIGNED, 0), (eslPage, ESL.CTRL_WIDTH, 1)] (some 7), true, of_canonical (by decide +kernel), by decide +kernel⟩⟩

theorem witness_RunGuardedWrites :
    (∃ (s : State) (skew : Bool) (v : Dword), s.Canonical ∧ s.hostLive = true ∧ s.unlocked eslPage = true ∧ s.betweenRuns = true ∧ (skew = true ∨ getBits v 1 2 ≠ 3))
    ∧ (∃ (s : State) (skew : Bool) (v : Dword), s.Canonical ∧ s.hostLive = true ∧ s.unlocked eslPage = true ∧ s.betweenRuns = false)
    ∧ (∃ (s : State) (skew : Bool) (v : Dword), s.Canonical ∧ s.hostLive = true ∧ s.unlocked eslPage = false)
    ∧ (∃ (s : State) (n : Fin 8) (v : Dword), s.Canonical ∧ s.hostLive = true ∧ s.unlocked (regPage ↑n) = true ∧ s.betweenRuns = true)
    ∧ (∃ (s : State) (n : Fin 8) (v : Dword), s.Canonical ∧ s.hostLive = true ∧ s.unlocked (regPage ↑n) = true ∧ s.betweenRuns = false)
    ∧ (∃ (s : State) (n : Fin 8) (v : Dword), s.Canonical ∧ s.hostLive = true ∧ s.unlocked (regPage ↑n) = false) :=
  ⟨⟨eu [] eslPage, true, 0xffffffff, of_canonical (by decide +kernel), by decide +kernel⟩,
   ⟨eu [(chipPage, CHIP.live_RUN_STATE, 3)] eslPage, false, 0x4, of_canonical (by decide +kernel), by decide +kernel⟩,
   ⟨eslS [] none, false, 0x4, of_canonical (by decide +kernel), by decide +kernel⟩,
   ⟨eu [] (regPage 7), 7, 0xffffffff, of_canonical (by decide +kernel), by decide +kernel⟩,
   ⟨eu [(chipPage, CHIP.live_RUN_STATE, 3)] (regPage 7), 7, 0xffffffff, of_canonical (by decide +kernel), by decide +kernel⟩,
   ⟨alive, 7, 0xffffffff, of_canonical (by decide +kernel), by decide +kernel⟩⟩

theorem witness_WritersWrite :
    (∃ (s : State) (i : Fin 16) (a : ℕ) (r0 : Rec) (r1 : Rec) (q : List Batch), s.Canonical ∧ s.Calm ∧ s.live = true ∧ s.inCluster = false ∧ (↑i < 8 → s.segMode ↑i = false) ∧ (8 ≤ ↑i → s.remote (↑i - 8) = false) ∧ (s.writer ↑i).queue = { arrival := a, recs := [r0, r1] } :: q ∧ (s.writer ↑i).inGroup = false ∧ (s.writer ↑i).line < groupLines (s.ring ↑i).2.2 ∧ s.canWrite ↑i = true ∧ s.gate (s.place (↑i) (s.writer ↑i).group (s.writer ↑i).line).1 (if ↑i < 8 then 1 else 2) 0 = Grant.granted ∧ s.granted s.aclk s.others (Access.line (↑i) false) = true ∧ s.injectArmed 1 (s.place (↑i) (s.writer ↑i).group (s.writer ↑i).line).1 = false ∧ s.injectArmed 2 (s.place (↑i) (s.writer ↑i).group (s.writer ↑i).line).1 = false)
    ∧ (∃ (s : State) (i : Fin 16) (a : ℕ) (r0 : Rec), s.Canonical ∧ s.Calm ∧ s.live = true ∧ s.inCluster = false ∧ (↑i < 8 → s.segMode ↑i = false) ∧ (8 ≤ ↑i → s.remote (↑i - 8) = false) ∧ (s.writer ↑i).queue = [{ arrival := a, recs := [r0] }] ∧ (s.writer ↑i).since + 64 ≤ s.time.tclk ∧ (s.writer ↑i).line < groupLines (s.ring ↑i).2.2 ∧ s.canWrite ↑i = true ∧ s.gate (s.place (↑i) (s.writer ↑i).group (s.writer ↑i).line).1 (if ↑i < 8 then 1 else 2) 0 = Grant.granted ∧ s.granted s.aclk s.others (Access.line (↑i) true) = true ∧ s.injectArmed 1 (s.place (↑i) (s.writer ↑i).group (s.writer ↑i).line).1 = false ∧ s.injectArmed 2 (s.place (↑i) (s.writer ↑i).group (s.writer ↑i).line).1 = false)
    ∧ (∃ (s : State) (n : Fin 8) (a : ℕ) (r0 : Rec) (r1 : Rec) (q : List Batch), s.Canonical ∧ s.Calm ∧ s.live = true ∧ s.inCluster = false ∧ s.segMode ↑n = true ∧ s.capPhase ↑n = 1 ∧ (s.cap ↑n).stopEnd = false ∧ (s.writer ↑n).queue = { arrival := a, recs := [r0, r1] } :: q ∧ (s.writer ↑n).inGroup = false ∧ s.canWrite ↑n = true ∧ s.gate (s.place (↑n) (s.nextLine ↑n).1 (s.nextLine ↑n).2).1 1 0 = Grant.granted ∧ s.granted s.aclk s.others (Access.line (↑n) false) = true ∧ s.injectArmed 1 (s.place (↑n) (s.nextLine ↑n).1 (s.nextLine ↑n).2).1 = false ∧ s.injectArmed 2 (s.place (↑n) (s.nextLine ↑n).1 (s.nextLine ↑n).2).1 = false) :=
  ⟨⟨wrS 5 [(bankPage 160, BANK.OWNER_NOW_OWNER, 1)] ⟨[⟨900, [ra, rb]⟩, ⟨950, [ra]⟩], false, 990, 2, 1, true, 3, 0⟩, 5, 900, ra, rb, [⟨950, [ra]⟩], of_canonical (by decide +kernel), by unfold State.Calm; decide +kernel, by decide +kernel⟩,
   ⟨wrS 13 [(bankPage 164, BANK.OWNER_NOW_OWNER, 2)] ⟨[⟨900, [ra]⟩], true, 936, 12, 1, true, 3, 0⟩, 13, 900, ra, of_canonical (by decide +kernel), by unfold State.Calm; decide +kernel, by decide +kernel⟩,
   ⟨segS [] [⟨900, [ra, rb]⟩] 65536, 5, 900, ra, rb, [], of_canonical (by decide +kernel), by unfold State.Calm; decide +kernel, by decide +kernel⟩⟩

theorem witness_WritersYield :
    (∃ (s : State) (i : Fin 16), s.Canonical ∧ s.live = true ∧ s.inCluster = false ∧ (↑i < 8 → s.segMode ↑i = false) ∧ (8 ≤ ↑i → s.remote (↑i - 8) = false) ∧ (s.ring ↑i).2.1 ≠ 0 ∧ (s.writer ↑i).entered = false ∧ s.isFrozen (regPage (↑i % 8)) (if ↑i < 8 then 8 else 9) = false ∧ (∀ b ∈ s.groupBanks (↑i) (s.nextGroup ↑i), (s.ownerNow b = if ↑i < 8 then 1 else 2) ∧ s.draining b = false))
    ∧ (∃ (s : State) (i : Fin 16), s.Canonical ∧ s.live = true ∧ s.inCluster = false ∧ (↑i < 8 → s.segMode ↑i = false) ∧ (8 ≤ ↑i → s.remote (↑i - 8) = false) ∧ (s.ring ↑i).2.1 ≠ 0 ∧ (s.writer ↑i).entered = false ∧ s.isFrozen (regPage (↑i % 8)) (if ↑i < 8 then 8 else 9) = false ∧ (∃ b ∈ s.groupBanks (↑i) (s.nextGroup ↑i), (s.ownerNow b ≠ if ↑i < 8 then 1 else 2) ∨ s.draining b = true))
    ∧ (∃ (s : State) (n : Fin 8), s.Canonical ∧ s.capturing ↑n = true ∧ 768 < (s.writer ↑n).held ∧ (s.cap ↑n).demotedAt ≠ some s.time.tclk ∧ s.captured (↑n) false ≠ [])
    ∧ (∃ (s : State) (n : Fin 8) (u : ℕ), s.Canonical ∧ s.capturing ↑n = true ∧ (s.cap ↑n).low = some u ∧ u + 128 ≤ s.time.tclk ∧ (∃ i < 12, bitOf (s.fld (regPage ↑n) REG.DEMOTED_CH) i = true))
    ∧ (∃ (s : State) (n : Fin 8) (l : Loss) (r : List Loss), s.Canonical ∧ s.lossesOf ↑n = l :: r ∧ l.closed = true ∧ s.recFrozen ↑n = false ∧ s.hasRing ↑n = true ∧ s.bit (regPage ↑n) REG.live_REC_STALLED = false ∧ s.putHeld ↑n + s.extNeed (streamRec ↑n) l.src l.first + 3 ≤ 256) :=
  ⟨⟨wrS 5 [(bankPage 158 , BANK.OWNER_NOW_OWNER, 1), (bankPage 160, BANK.OWNER_NOW_OWNER, 1), (bankPage 161, BANK.OWNER_NOW_OWNER, 1), (bankPage 190, BANK.OWNER_NOW_OWNER, 1), (bankPage 191, BANK.OWNER_NOW_OWNER, 1)] ⟨[], false, 900, 500, 0, false, 0, 0⟩, 5, of_canonical (by decide +kernel), by decide +kernel⟩,
   ⟨wrS 5 [(bankPage 160, BANK.OWNER_NOW_OWNER, 1)] ⟨[], false, 900, 32768, 0, false, 1, 0⟩, 5, of_canonical (by decide +kernel), by decide +kernel⟩,
   ⟨wrS 5 [(regPage 5, REG.CAP_SEL_CH, 0xfff), (regPage 5, ⟨0x108,0,32⟩, 0xfffffc), (regPage 5, REG.DEMOTED_CH, 1)] { Writer.empty with queue := List.replicate 769 ⟨1, [ra]⟩ }, 5, of_canonical (by decide +kernel), by decide +kernel⟩,
   ⟨{ restS with writers := [] }, 5, 872, of_canonical (by decide +kernel), by decide +kernel⟩,
   ⟨lossS, 5, ⟨1,0,68,4,5,6,true,true⟩, [⟨1,0,69,4,5,6,true,true⟩], of_canonical (by decide +kernel), by decide +kernel⟩⟩

theorem witness_BanksChangeHands :
    (∃ (s : State) (b : Fin 256) (v : Dword), s.Canonical ∧ s.hostLive = true ∧ getBits v 0 4 < 8 ∧ (getBits v 0 4 = 3 ∨ getBits v 0 4 = 7 ∧ getBits v 4 3 < 4 ∨ getBits v 4 3 = 0))
    ∧ (∃ (s : State) (b : Fin 256) (v : Dword), s.Canonical ∧ s.hostLive = true ∧ (¬(getBits v 0 4 < 8 ∧ (getBits v 0 4 = 3 ∨ getBits v 0 4 = 7 ∧ getBits v 4 3 < 4 ∨ getBits v 4 3 = 0))))
    ∧ (∃ (s : State) (b : Fin 256) (v : Dword), s.Canonical ∧ s.shadow (bankPage ↑b + 64) = some v ∧ s.filling ↑b = false ∧ s.reqs = [])
    ∧ (∃ (s : State) (b : Fin 256) (v : Dword), s.Canonical ∧ s.hostLive = true ∧ s.unlocked (bankPage ↑b) = true ∧ (s.ownerNow ↑b = 0 ∨ s.ownerNow ↑b = 6) ∧ s.draining ↑b = false ∧ s.filling ↑b = false)
    ∧ (∃ (s : State) (b : Fin 256) (v : Dword), s.Canonical ∧ s.hostLive = true ∧ s.unlocked (bankPage ↑b) = true ∧ (s.ownerNow ↑b ≠ 0 ∧ s.ownerNow ↑b ≠ 6 ∨ s.draining ↑b = true ∨ s.filling ↑b = true))
    ∧ (∃ (s : State) (b : Fin 256) (v : Dword), s.Canonical ∧ s.hostLive = true ∧ s.unlocked (bankPage ↑b) = false)
    ∧ (∃ (s : State) (b : Fin 256), s.Canonical ∧ s.filling ↑b = true ∧ s.reqs = [] ∧ s.injectArmed 1 ↑b = false ∧ s.injectArmed 2 ↑b = false)
    ∧ (∃ (s : State) (b : Fin 256) (ups : List (BitVec 14 × Bool × List (BitVec 7))), s.Canonical ∧ s.live = true ∧ s.bit (bankPage ↑b) BANK.SCRUB_EN = true ∧ ((s.upsetHalves (↑b) ups).half (halfIdx (↑b) (s.bank ↑b).scrubLine 1)).integ = Integ.ok ∧ ((s.upsetHalves (↑b) ups).half (halfIdx (↑b) (s.bank ↑b).scrubLine 0)).integ = Integ.ok)
    ∧ (∃ (s : State) (b : Fin 256) (ups : List (BitVec 14 × Bool × List (BitVec 7))), s.Canonical ∧ s.live = true ∧ s.bit (bankPage ↑b) BANK.SCRUB_EN = true ∧ ((s.upsetHalves (↑b) ups).half (halfIdx (↑b) (s.bank ↑b).scrubLine 1)).integ = Integ.ok ∧ ((s.upsetHalves (↑b) ups).half (halfIdx (↑b) (s.bank ↑b).scrubLine 0)).integ = Integ.ce)
    ∧ (∃ (s : State) (b : Fin 256) (ups : List (BitVec 14 × Bool × List (BitVec 7))), s.Canonical ∧ s.live = true ∧ s.bit (bankPage ↑b) BANK.SCRUB_EN = true ∧ ((s.upsetHalves (↑b) ups).half (halfIdx (↑b) (s.bank ↑b).scrubLine 1)).integ = Integ.ok ∧ ((s.upsetHalves (↑b) ups).half (halfIdx (↑b) (s.bank ↑b).scrubLine 0)).integ = Integ.ue false)
    ∧ (∃ (s : State) (b : Fin 256) (l : ℕ) (f0 : Bool) (f1 : Bool), s.Canonical ∧ (s.bank ↑b).scrubFix = some (l, f0, f1) ∧ s.injectArmed 1 ↑b = false ∧ s.injectArmed 2 ↑b = false)
    ∧ (∃ (r : Rec) (a : BitVec 7) (c : BitVec 7), a ≠ c) :=
  ⟨⟨bk 255 [(bankPage 255, BANK.OWNER_NOW_OWNER, 6)] false, 255, 0x37, of_canonical (by decide +kernel), by decide +kernel⟩,
   ⟨bk 255 [] false, 255, 0x47, of_canonical (by decide +kernel), by decide +kernel⟩,
   ⟨dr 9 0x6, 9, 6, of_canonical (by decide +kernel), by decide +kernel⟩,
   ⟨bk 9 [(bankPage 9, BANK.OWNER_NOW_OWNER, 6)] true, 9, 1, of_canonical (by decide +kernel), by decide +kernel⟩,
   ⟨bk 9 [(bankPage 9, BANK.OWNER_NOW_OWNER, 1)] true, 9, 1, of_canonical (by decide +kernel), by decide +kernel⟩,
   ⟨bk 9 [(bankPage 9, BANK.OWNER_NOW_OWNER, 1)] false, 9, 1, of_canonical (by decide +kernel), by decide +kernel⟩,
   ⟨{ bk 9 [(bankPage 9, BANK.live_FILLING, 1)] false with store := [(9 * 32768 - 1, Half.poisoned), (9 * 32768, Half.poisoned), (9 * 32768 + 32767, Half.fresh ra), (10 * 32768, Half.fresh ra)] }, 9, of_canonical (by decide +kernel), by decide +kernel⟩,
   ⟨sc 16383 [] (some (5, true, true)), 9, [], of_canonical (by decide +kernel), by decide +kernel⟩,
   ⟨sc 16383 [(10*32768 - 2, ⟨ra, [0], false⟩)] none, 9, [], of_canonical (by decide +kernel), by decide +kernel⟩,
   ⟨sc 7 [(9*32768 + 14, ⟨ra, [0, 1], false⟩)] none, 9, [], of_canonical (by decide +kernel), by decide +kernel⟩,
   ⟨sc 8 [(9*32768 + 14, ⟨ra, [0], false⟩)] (some (7, true, false)), 9, 7, true, false, of_canonical (by decide +kernel), by decide +kernel⟩,
   ⟨ra, 3, 79, by decide +kernel⟩⟩

end Sys2Proof.Tests.Triggers

namespace Sys2Proof.Tests.Ports
open Sys2Proof Sys2Proof.Machine
set_option Elab.async false
set_option linter.unusedVariables false

def NOW : DTime := 0x123456789abcd000
/-- The head of a whole frame. -/
def headOf (seq ack : Nat) : Head := let w := headerWord 6 1 seq ack 0 0 77; ⟨w, [], frameCrc [w], true⟩
def hd0 : Head := headOf 5 3
/-- port p with a role and a state -/
def prt (p role st : Nat) : List (Nat × Fld × Nat) := [(linkPage p, LINK.CTRL_EN, 1), (linkPage p, LINK.CTRL_ROLE, role), (linkPage p, LINK.STATE_LSTATE, st)]
def upOn (p : Nat) : List (Nat × Fld × Nat) := [(swarmPage, SWARM.STATE_UP_VALID, 1), (swarmPage, SWARM.STATE_UPPORT, p), (swarmPage, SWARM.STATE_QUEEN, 0), (swarmPage, SWARM.STATE_MEMBER, 2), (chipPage, CHIP.live_MEMBER, 1), (swarmPage, SWARM.STATE_ALIGN, 2)]
def queen : List (Nat × Fld × Nat) := [(swarmPage, SWARM.STATE_QUEEN, 1), (swarmPage, SWARM.STATE_ALIGN, 4), (swarmPage, SWARM.ORDINAL_VALUE, 1)]
def hel (role ord link : Nat) : Hello := { sets alive queen |>.hello 0 with role := BitVec.ofNat 2 role, queen := false, link := BitVec.ofNat 3 link, ordinal := BitVec.ofNat 11 ord, queenDie := none }
def frm (seq : Nat) (x : Payload) : Frame := ⟨BitVec.ofNat 12 seq, 9, 0, 4, x⟩
def ua (seq first sent : Nat) : Unacked := ⟨frm seq (.joinReply 5 true false), first, sent⟩
def lnk (p : Nat) (l : LinkSt) (r : List (Nat × Fld × Nat)) : State := { sets alive r with links := [(p, l)] }
def L0 : LinkSt := { LinkSt.init with rx := 4, tx := 3 }
def ackS : State := lnk 2 { L0 with unacked := [ua 1 10 10, ua 3 11 11, ua 4 12 12] } (prt 2 1 5)
def jrx (r : List (Nat × Fld × Nat)) (t : List (BitVec 11)) : State := { lnk 2 { L0 with peer := some (hel 1 7 2) } (prt 2 3 4 ++ r) with swarm := { Swarm.init with taken := t } }
def rte (o : Nat) (st : Nat) : State := { sets alive (prt 1 1 4 ++ prt 2 3 st ++ upOn 1 ++ [(swarmPage, SWARM.ORDINAL_VALUE, 3)]) with links := [(1, { L0 with peer := some (hel 3 1 4) }), (2, { L0 with peer := some (hel 1 o 2) })], swarm := { Swarm.init with routes := [(9, 2)] } }
def wg (f : DTime) (a : Nat) (h : Bool) : Waggle := ⟨f, BitVec.ofNat 64 a, 17, 1, 2, 3, 4, h, false, true, 5, 6⟩
def ali (x : Rat) : State := { lnk 2 { L0 with ds := [400, 401] } (prt 2 1 4 ++ upOn 2) with swarm := { Swarm.init with filtered := x, within := 255, stepped := true } }

theorem witness_LinksAndDelivery :
    (∃ (s : State) (p : Fin 4), s.Canonical ∧ s.live = true ∧ s.asleep = false ∧ s.bit (linkPage ↑p) LINK.CTRL_EN = true ∧ s.linkRole ↑p ≠ 0 ∧ (s.lstate ↑p = 1 ∨ s.lstate ↑p = 7))
    ∧ (∃ (s : State) (p : Fin 4) (i : Instr), s.Canonical ∧ s.Calm ∧ (i = Instr.linkDown p ∧ s.live = true ∧ s.asleep = false ∧ s.lstate ↑p ≠ 7 ∨   (i = Instr.retryExhausted p ∧ s.live = true ∧ s.inCluster = false ∧ ∃ u r, (s.link ↑p).unacked = u :: r ∧ s.roundTrip ↑p + 2000 * 1024 ≤ s.elapsed u.first) ∨     ∃ v,       i = Instr.linkRetrain p v ∧         s.hostLive = true ∧ s.inCluster = false ∧ s.unlocked (linkPage ↑p) = true ∧ getBits v 0 1 = 1 ∧ getBits v 1 2 = s.linkRole ↑p ∧ s.linkRole ↑p ≠ 0) ∧ s.swarm.runs = [] ∧ 2 ≤ s.lstate ↑p)
    ∧ (∃ (s : State) (p : Fin 4) (q : ℕ), s.Canonical ∧ s.Calm ∧ s.swarm.runs = [] ∧ s.live = true ∧ s.asleep = false ∧ s.lstate ↑p = 4 ∧ s.isUp ↑p = true ∧ q < 4 ∧ q ≠ ↑p ∧ (s.linkRole q = 1 ∨ s.linkRole q = 2) ∧ s.lstate q = 4 ∧ (∀ r < q, r ≠ ↑p → ¬((s.linkRole r = 1 ∨ s.linkRole r = 2) ∧ s.lstate r = 4)))
    ∧ (∃ (s : State) (p : Fin 4) (v : Dword), s.Canonical ∧ s.Calm ∧ s.swarm.runs = [] ∧ s.hostLive = true ∧ s.unlocked (linkPage ↑p) = false)
    ∧ (∃ (s : State) (p : Fin 4) (hd : Head) (pre : List Unacked) (r : List Unacked) (u : Unacked), s.Hears (↑p) hd ∧ s.lstate ↑p ≤ 5 ∧ (s.link ↑p).waiting = [] ∧ (s.link ↑p).unacked = pre ++ u :: r ∧ (∀ v ∈ pre, v.frame.seq ≠ hd.ack) ∧ u.frame.seq = hd.ack)
    ∧ (∃ (s : State) (p : Fin 4) (u : ℕ), s.Canonical ∧ s.live = true ∧ s.inCluster = false ∧ 2 ≤ s.lstate ↑p ∧ s.lstate ↑p ≤ 5 ∧ (s.link ↑p).ackDue = some u ∧ u + 100 ≤ s.time.tclk)
    ∧ (∃ (s : State) (p : Fin 4) (u : Unacked) (r : List Unacked), s.Canonical ∧ 2 ≤ s.lstate ↑p ∧ s.lstate ↑p ≤ 4 ∧ (s.link ↑p).unacked = u :: r ∧ s.roundTrip ↑p + 300 * 1024 ≤ s.elapsed u.sent ∧ s.injectArmed 5 ↑p = false)
    ∧ (∃ (s : State) (p : Fin 4) (hd : Head) (x : Payload) (i : Instr), s.Canonical ∧ s.Calm ∧ rxCommand p hd x = some i ∧ s.swarm.runs = [] ∧ s.live = true ∧ s.inCluster = false ∧ 2 ≤ s.lstate ↑p ∧ hd.good = true ∧ hd.known = true ∧ s.lstate ↑p ≤ 4 ∧ hd.seq ≠ (s.link ↑p).rx + 1 ∧ (s.link ↑p).unacked = [])
    ∧ (∃ (s : State) (p : Fin 4) (hd : Head) (x : Payload) (i : Instr), s.Canonical ∧ s.Calm ∧ rxCommand p hd x = some i ∧ s.swarm.runs = [] ∧ s.live = true ∧ s.inCluster = false ∧ 2 ≤ s.lstate ↑p ∧ hd.good = true ∧ hd.known = true ∧ 5 ≤ s.lstate ↑p)
    ∧ (∃ (s : State) (p : Fin 4) (hd : Head) (x : Payload) (i : Instr), s.Canonical ∧ s.Calm ∧ rxCommand p hd x = some i ∧ s.swarm.runs = [] ∧ s.live = true ∧ s.inCluster = false ∧ 2 ≤ s.lstate ↑p ∧ (hd.good = false ∨ hd.known = false))
    ∧ (∃ (s : State) (p : ℕ) (o : BitVec 11) (h : BitVec 5) (x : Payload), s.talks p = false ∧ isTrigger x = false) :=
  ⟨⟨lnk 2 L0 (prt 2 1 1), 2, of_canonical (by decide +kernel), by decide +kernel⟩,
   ⟨lnk 2 { L0 with unacked := [ua 3 10 10] } (prt 2 1 4 ++ upOn 2), 2, .linkDown 2, of_canonical (by decide +kernel), by unfold State.Calm; decide +kernel, .inl (by decide +kernel), by decide +kernel⟩,
   ⟨lnk 2 L0 (prt 2 1 4 ++ prt 3 2 4 ++ upOn 2), 2, 3, of_canonical (by decide +kernel), by unfold State.Calm; decide +kernel, by decide +kernel⟩,
   ⟨lnk 2 L0 (prt 2 1 4 ++ upOn 2), 2, 9, of_canonical (by decide +kernel), by unfold State.Calm; decide +kernel, by decide +kernel⟩,
   ⟨ackS, 2, hd0, [ua 1 10 10], [ua 4 12 12], ua 3 11 11, of_hears (of_canonical (by decide +kernel)) (by decide +kernel), by decide +kernel⟩,
   ⟨lnk 2 { L0 with ackDue := some 900 } (prt 2 1 4), 2, 900, of_canonical (by decide +kernel), by decide +kernel⟩,
   ⟨{ lnk 2 { L0 with unacked := [ua 3 10 10, ua 4 11 11] } (prt 2 1 4) with time := { alive.time with tclk := 4310 } }, 2, ua 3 10 10, [ua 4 11 11], of_canonical (by decide +kernel), by decide +kernel⟩,
   ⟨lnk 2 L0 (prt 2 1 4), 2, (headOf 4 3), .event ⟨1, 2, 3, 4⟩, .eventFrameRx 2 (headOf 4 3) ⟨1, 2, 3, 4⟩, of_canonical (by decide +kernel), by unfold State.Calm; decide +kernel, by decide +kernel⟩,
   ⟨lnk 2 L0 (prt 2 1 7), 2, hd0, .lentGrant 1 true, .lentGrantRx 2 hd0 1 true, of_canonical (by decide +kernel), by unfold State.Calm; decide +kernel, by decide +kernel⟩,
   ⟨lnk 2 L0 (prt 2 1 4), 2, { hd0 with crc := 0 }, .trigger ⟨1, 2, 3, true, false⟩, .triggerFrameRx 2 { hd0 with crc := 0 } ⟨1, 2, 3, true, false⟩, of_canonical (by decide +kernel), by unfold State.Calm; decide +kernel, by decide +kernel⟩,
   ⟨lnk 2 L0 (prt 2 1 1), 2, 9, 4, .event ⟨1, 2, 3, 4⟩, by decide +kernel⟩⟩

theorem witness_Joining :
    (∃ (s : State) (p : Fin 4), s.Canonical ∧ s.live = true ∧ s.inCluster = false ∧ 2 ≤ s.lstate ↑p)
    ∧ (∃ (s : State) (p : Fin 4) (hd : Head) (h : Hello), s.Hears (↑p) hd ∧ s.Calm ∧ s.swarm.runs = [] ∧ (s.takeAck (↑p) hd.ack).lstate ↑p ≤ 3 ∧ (s.takeAck (↑p) hd.ack).twoQueens h = false ∧ (s.takeAck (↑p) hd.ack).linkRole ↑p = 3 ∧ (s.takeAck (↑p) hd.ack).isQueen = true ∧ (s.takeAck (↑p) hd.ack).judgeHello h = none ∧ h.role = 1 ∧ (s.takeAck (↑p) hd.ack).lstate ↑p ≠ 3 ∧ ((s.takeAck (↑p) hd.ack).link ↑p).counted ≠ some h.ordinal ∧ h.ordinal ≠ (s.takeAck (↑p) hd.ack).ordinal ∧ h.ordinal ∉ (s.takeAck (↑p) hd.ack).swarm.taken)
    ∧ (∃ (s : State) (p : Fin 4) (hd : Head) (h : Hello), s.Hears (↑p) hd ∧ s.Calm ∧ s.swarm.runs = [] ∧ (s.takeAck (↑p) hd.ack).lstate ↑p ≤ 3 ∧ (s.takeAck (↑p) hd.ack).twoQueens h = false ∧ (s.takeAck (↑p) hd.ack).linkRole ↑p = 3 ∧ (s.takeAck (↑p) hd.ack).isQueen = true ∧ (s.takeAck (↑p) hd.ack).judgeHello h = none ∧ h.role = 1 ∧ (s.takeAck (↑p) hd.ack).lstate ↑p ≠ 3 ∧ ((s.takeAck (↑p) hd.ack).link ↑p).counted ≠ some h.ordinal ∧ (h.ordinal = (s.takeAck (↑p) hd.ack).ordinal ∨ h.ordinal ∈ (s.takeAck (↑p) hd.ack).swarm.taken))
    ∧ (∃ (s : State) (p : Fin 4) (hd : Head) (h : Hello), s.Hears (↑p) hd ∧ s.Calm ∧ s.swarm.runs = [] ∧ (s.takeAck (↑p) hd.ack).lstate ↑p ≤ 3 ∧ (s.takeAck (↑p) hd.ack).twoQueens h = false ∧ (s.takeAck (↑p) hd.ack).linkRole ↑p = 1 ∧ (s.takeAck (↑p) hd.ack).isQueen = false ∧ (s.takeAck (↑p) hd.ack).upValid = false ∧ h.link = 4)
    ∧ (∃ (s : State) (p : Fin 4) (hd : Head) (h : Hello) (c : ℕ), s.Hears (↑p) hd ∧ s.Calm ∧ s.swarm.runs = [] ∧ (s.takeAck (↑p) hd.ack).lstate ↑p ≤ 3 ∧ (s.takeAck (↑p) hd.ack).twoQueens h = false ∧ (s.takeAck (↑p) hd.ack).linkRole ↑p = 3 ∧ (s.takeAck (↑p) hd.ack).isQueen = true ∧ (s.takeAck (↑p) hd.ack).judgeHello h = some c)
    ∧ (∃ (s : State) (p : Fin 4) (hd : Head) (h : Hello), s.Hears (↑p) hd ∧ s.Calm ∧ s.swarm.runs = [] ∧ (s.takeAck (↑p) hd.ack).lstate ↑p ≤ 3 ∧ (s.takeAck (↑p) hd.ack).twoQueens h = true)
    ∧ (∃ (s : State) (p : Fin 4) (hd : Head) (ordinal : BitVec 11) (parent : BitVec 11), s.Takes (↑p) hd ∧ (s.taken (↑p) hd).activeDown ↑p = true ∧ (s.taken (↑p) hd).isQueen = true ∧ ordinal ≠ (s.taken (↑p) hd).ordinal ∧ ordinal ∉ (s.taken (↑p) hd).swarm.taken)
    ∧ (∃ (s : State) (p : Fin 4) (hd : Head) (ordinal : BitVec 11) (parent : BitVec 11), s.Takes (↑p) hd ∧ (s.taken (↑p) hd).activeDown ↑p = true ∧ (s.taken (↑p) hd).isQueen = true ∧ (ordinal = (s.taken (↑p) hd).ordinal ∨ ordinal ∈ (s.taken (↑p) hd).swarm.taken))
    ∧ (∃ (s : State) (p : Fin 4) (hd : Head) (ordinal : BitVec 11) (parent : BitVec 11), s.Takes (↑p) hd ∧ (s.taken (↑p) hd).activeDown ↑p = true ∧ (s.taken (↑p) hd).isQueen = false ∧ (s.taken (↑p) hd).joined = true)
    ∧ (∃ (s : State) (p : Fin 4) (hd : Head) (ok : Bool) (engaged : Bool) (o : BitVec 11) (q : ℕ) (h : Hello), s.Takes (↑p) hd ∧ (s.taken (↑p) hd).linkRole ↑p = 1 ∧ o ≠ (s.taken (↑p) hd).ordinal ∧ q < 4 ∧ (s.taken (↑p) hd).swarm.routes = [(o, q)] ∧ ((s.taken (↑p) hd).link q).peer = some h ∧ h.ordinal = o ∧ ((s.taken (↑p) hd).link q).counted ≠ some o ∧ (s.taken (↑p) hd).lstate q ≠ 4)
    ∧ (∃ (s : State) (p : Fin 4) (hd : Head) (ok : Bool) (engaged : Bool) (o : BitVec 11) (q : ℕ) (h : Hello), s.Takes (↑p) hd ∧ (s.taken (↑p) hd).linkRole ↑p = 1 ∧ o ≠ (s.taken (↑p) hd).ordinal ∧ q < 4 ∧ (s.taken (↑p) hd).swarm.routes = [(o, q)] ∧ ((s.taken (↑p) hd).link q).peer = some h ∧ h.ordinal ≠ o)
    ∧ (∃ (s : State) (p : Fin 4) (hd : Head) (ok : Bool) (engaged : Bool) (h : Hello), s.Takes (↑p) hd ∧ (s.taken (↑p) hd).linkRole ↑p = 1 ∧ (s.taken (↑p) hd).lstate ↑p ≠ 4 ∧ (s.taken (↑p) hd).upValid = false ∧ ((s.taken (↑p) hd).link ↑p).peer = some h) :=
  ⟨⟨lnk 2 L0 (prt 2 1 2), 2, of_canonical (by decide +kernel), by decide +kernel⟩,
   ⟨{ lnk 2 L0 (prt 2 3 2 ++ queen) with swarm := { Swarm.init with taken := [6] } }, 2, hd0, hel 1 7 2, of_hears (of_canonical (by decide +kernel)) (by decide +kernel), by unfold State.Calm; decide +kernel, by decide +kernel⟩,
   ⟨{ lnk 2 L0 (prt 2 3 2 ++ queen) with swarm := { Swarm.init with taken := [7] } }, 2, hd0, hel 1 7 2, of_hears (of_canonical (by decide +kernel)) (by decide +kernel), by unfold State.Calm; decide +kernel, by decide +kernel⟩,
   ⟨lnk 2 L0 (prt 2 1 3 ++ [(tbPage, TB.CTRL_REFSEL, 1), (swarmPage, SWARM.STATE_QUEEN, 0)]), 2, hd0, { hel 3 7 4 with queenDie := some 8, depth := 14, queenOrd := 33 }, of_hears (of_canonical (by decide +kernel)) (by decide +kernel), by unfold State.Calm; decide +kernel, by decide +kernel⟩,
   ⟨lnk 2 L0 (prt 2 3 2 ++ queen), 2, hd0, { hel 1 7 2 with epoch := 55 }, 3, of_hears (of_canonical (by decide +kernel)) (by decide +kernel), by unfold State.Calm; decide +kernel, by decide +kernel⟩,
   ⟨lnk 2 L0 (prt 2 3 2 ++ queen), 2, hd0, { hel 1 7 2 with queen := true }, of_hears (of_canonical (by decide +kernel)) (by decide +kernel), by unfold State.Calm; decide +kernel, by decide +kernel⟩,
   ⟨jrx queen [7], 2, hd0, 9, 7, of_takes (of_hears (of_canonical (by decide +kernel)) (by decide +kernel)) (by decide +kernel), by decide +kernel⟩,
   ⟨jrx queen [7], 2, hd0, 7, 7, of_takes (of_hears (of_canonical (by decide +kernel)) (by decide +kernel)) (by decide +kernel), by decide +kernel⟩,
   ⟨jrx (upOn 1 ++ prt 1 1 4) [], 2, hd0, 9, 7, of_takes (of_hears (of_canonical (by decide +kernel)) (by decide +kernel)) (by decide +kernel), by decide +kernel⟩,
   ⟨rte 9 3, 1, hd0, false, true, 9, 2, hel 1 9 2, of_takes (of_hears (of_canonical (by decide +kernel)) (by decide +kernel)) (by decide +kernel), by decide +kernel⟩,
   ⟨rte 8 4, 1, hd0, false, true, 9, 2, hel 1 8 2, of_takes (of_hears (of_canonical (by decide +kernel)) (by decide +kernel)) (by decide +kernel), by decide +kernel⟩,
   ⟨lnk 2 { L0 with peer := some (hel 3 1 4) } (prt 2 1 3 ++ [(swarmPage, SWARM.ORDINAL_VALUE, 9), (swarmPage, SWARM.STATE_QUEEN, 0)]), 2, hd0, true, true, hel 3 1 4, of_takes (of_hears (of_canonical (by decide +kernel)) (by decide +kernel)) (by decide +kernel), by decide +kernel⟩⟩

theorem witness_SharedTime :
    (∃ (s : State) (p : Fin 4) (f : DTime) (a : BitVec 64), s.Canonical ∧ s.carries ↑p = true ∧ s.linkRole ↑p = 3 ∧ (s.link ↑p).aUp = some a)
    ∧ (∃ (s : State) (p : Fin 4) (f : DTime), s.Canonical ∧ s.carries ↑p = true ∧ (s.linkRole ↑p = 1 ∨ s.linkRole ↑p = 2))
    ∧ (∃ (s : State) (p : Fin 4) (hd : Head) (a : DTime) (f : DTime), s.Hears (↑p) hd ∧ s.lstate ↑p ≤ 4 ∧ (s.takeAck (↑p) hd.ack).linkRole ↑p = 3)
    ∧ (∃ (s : State) (p : Fin 4) (hd : Head) (a : DTime) (w : Waggle), s.Hears (↑p) hd ∧ s.Calm ∧ s.lstate ↑p = 4 ∧ ((s.takeAck (↑p) hd.ack).linkRole ↑p = 1 ∨ (s.takeAck (↑p) hd.ack).linkRole ↑p = 2))
    ∧ (∃ (s : State), s.Canonical ∧ s.live = true ∧ s.inCluster = false ∧ s.align = aAcquiring ∧ s.swarm.stepped = false ∧ s.swarm.errs.length = 16 ∧ (∀ n < 8, s.executes n = false))
    ∧ (∃ (s : State), s.Canonical ∧ s.live = true ∧ s.inCluster = false ∧ s.align = aAcquiring ∧ s.swarm.stepped = true ∧ 256 ≤ s.swarm.within) :=
  ⟨⟨lnk 2 { L0 with aUp := some 99 } (prt 2 3 4 ++ queen), 2, NOW - 50, 99, of_canonical (by decide +kernel), by decide +kernel⟩,
   ⟨lnk 2 L0 (prt 2 2 4), 2, NOW - 50, of_canonical (by decide +kernel), by decide +kernel⟩,
   ⟨lnk 2 L0 (prt 2 3 4), 2, hd0, NOW, NOW - 500, of_hears (of_canonical (by decide +kernel)) (by decide +kernel), by decide +kernel⟩,
   ⟨ali 3, 2, hd0, NOW, wg (NOW - 300) 500 false, of_hears (of_canonical (by decide +kernel)) (by decide +kernel), by unfold State.Calm; decide +kernel, by decide +kernel⟩,
   ⟨{ sets alive (prt 2 1 4 ++ upOn 2 ++ [(swarmPage, SWARM.STATE_ALIGN, 1), (chipPage, CHIP.live_RUN_STATE, 1)]) with swarm := { Swarm.init with errs := List.replicate 15 (-100) ++ [-50], epochUp := 200 } }, of_canonical (by decide +kernel), by decide +kernel⟩,
   ⟨{ sets alive (prt 2 1 4 ++ upOn 2 ++ [(swarmPage, SWARM.STATE_ALIGN, 1)]) with swarm := { Swarm.init with stepped := true, within := 256, engaged := true } }, of_canonical (by decide +kernel), by decide +kernel⟩⟩

end Sys2Proof.Tests.Ports

namespace Sys2Proof.Tests.Swarming
open Sys2Proof Sys2Proof.Machine
set_option Elab.async false
set_option linter.unusedVariables false

def NOW : DTime := 0x123456789abcd000
/-- The head of a whole frame. -/
def headOf (seq ack : Nat) : Head := let w := headerWord 6 1 seq ack 0 0 77; ⟨w, [], frameCrc [w], true⟩
def hd0 : Head := headOf 5 3
/-- port p with a role and a state -/
def prt (p role st : Nat) : List (Nat × Fld × Nat) := [(linkPage p, LINK.CTRL_EN, 1), (linkPage p, LINK.CTRL_ROLE, role), (linkPage p, LINK.STATE_LSTATE, st)]
def upOn (p : Nat) : List (Nat × Fld × Nat) := [(swarmPage, SWARM.STATE_UP_VALID, 1), (swarmPage, SWARM.STATE_UPPORT, p), (swarmPage, SWARM.STATE_QUEEN, 0), (swarmPage, SWARM.STATE_MEMBER, 2), (chipPage, CHIP.live_MEMBER, 1), (swarmPage, SWARM.STATE_ALIGN, 2)]
def queen : List (Nat × Fld × Nat) := [(swarmPage, SWARM.STATE_QUEEN, 1), (swarmPage, SWARM.STATE_ALIGN, 4), (swarmPage, SWARM.ORDINAL_VALUE, 1)]
def hel (role ord link : Nat) : Hello := { sets alive queen |>.hello 0 with role := BitVec.ofNat 2 role, queen := false, link := BitVec.ofNat 3 link, ordinal := BitVec.ofNat 11 ord, queenDie := none }
def L0 : LinkSt := { LinkSt.init with rx := 4, tx := 3 }
def rA : Rec := ⟨1, 2, 3, 4⟩
def cmd (code : Nat) : SwarmCmd := ⟨0x0102, BitVec.ofNat 4 code, 0, 0, NOW + 1024000⟩
def mem (l : List (Nat × Fld × Nat)) : State := sets alive (prt 2 1 4 ++ upOn 2 ++ [(swarmPage, SWARM.ORDINAL_VALUE, 9), (swarmPage, SWARM.EPOCH_VALUE, 0), (chipPage, CHIP.live_READY, 1)] ++ l)
def mm (l : List (Nat × Fld × Nat)) : State := { mem l with links := [(2, L0)] }
def r0 : SwarmReply := ⟨0, 0, 0, 0, 0, none⟩
def rep0 : SwarmReply := ⟨0x0102, 3, 0, 0, 1, none⟩
def runs (w : List PortWait) (up : Bool) (c : Nat) (r : SwarmReply) (l : List (Nat × Fld × Nat)) : State := { mm l with links := [(2, L0), (3, { L0 with peer := some (hel 1 7 2) })], swarm := { Swarm.init with runs := [⟨cmd c, up, w, r⟩], armId := some 0x0102 } }
def upL : List (Nat × Fld × Nat) := prt 3 3 4
def qrun : State := let s := runs [⟨3, 0, none⟩] false 2 ⟨0x0102, 0, 0, 0, 0, none⟩ (upL ++ queen ++ [(swarmPage, SWARM.STATE_UP_VALID, 0), (chipPage, CHIP.live_MEMBER, 0), (chipPage, CHIP.live_RUN_STATE, 1)]); { s with run := { s.run with pendingCmd := some (2, 7), lastId := some 7 } }
def rem (n p first count : Nat) : List (Nat × Fld × Nat) := [(swarmPage, remoteEn n, 1), (swarmPage, remotePort n, p), (swarmPage, remoteFirst n, first), (swarmPage, remoteCount n, count)]
def swk (l : List (Nat × Fld × Nat)) : State := (sets alive l).setKey swarmPage true

theorem witness_SwarmCommands :
    (∃ (s : State) (p : Fin 4) (hd : Head) (c : SwarmCmd), s.Takes (↑p) hd ∧ s.Calm ∧ (s.taken (↑p) hd).isUp ↑p = true ∧ (s.taken (↑p) hd).lstate ↑p = 4 ∧ (∀ x ∈ (s.taken (↑p) hd).run.heldSwarm, x.2.2.id ≠ c.id) ∧ (∀ x ∈ (s.taken (↑p) hd).swarm.history, x.1 ≠ c.id) ∧ (s.taken (↑p) hd).fld swarmPage SWARM.STATE_MEMBER ≠ 3 ∧ (s.taken (↑p) hd).eventWaits = false ∧ (s.taken (↑p) hd).swarm.runs = [] ∧ (∀ q < 4, (s.taken (↑p) hd).activeDown q = false) ∧ (s.taken (↑p) hd).unreached = [] ∧ (s.taken (↑p) hd).cmdRefusal c = none ∧ (s.taken (↑p) hd).startLate c = false)
    ∧ (∃ (s : State) (p : Fin 4) (hd : Head) (c : SwarmCmd) (cause : ℕ), s.Takes (↑p) hd ∧ s.Calm ∧ (s.taken (↑p) hd).isUp ↑p = true ∧ (s.taken (↑p) hd).lstate ↑p = 4 ∧ (∀ x ∈ (s.taken (↑p) hd).run.heldSwarm, x.2.2.id ≠ c.id) ∧ (∀ x ∈ (s.taken (↑p) hd).swarm.history, x.1 ≠ c.id) ∧ (s.taken (↑p) hd).fld swarmPage SWARM.STATE_MEMBER ≠ 3 ∧ (s.taken (↑p) hd).eventWaits = false ∧ (s.taken (↑p) hd).swarm.runs = [] ∧ (∀ q < 4, (s.taken (↑p) hd).activeDown q = false) ∧ (s.taken (↑p) hd).unreached = [] ∧ (s.taken (↑p) hd).cmdRefusal c = some cause)
    ∧ (∃ (s : State) (p : Fin 4) (hd : Head) (c : SwarmCmd), s.Takes (↑p) hd ∧ s.Calm ∧ (s.taken (↑p) hd).isUp ↑p = true ∧ (s.taken (↑p) hd).lstate ↑p = 4 ∧ (∀ x ∈ (s.taken (↑p) hd).run.heldSwarm, x.2.2.id ≠ c.id) ∧ (∀ x ∈ (s.taken (↑p) hd).swarm.history, x.1 ≠ c.id) ∧ (s.taken (↑p) hd).fld swarmPage SWARM.STATE_MEMBER ≠ 3 ∧ (s.taken (↑p) hd).eventWaits = true)
    ∧ (∃ (s : State) (p : Fin 4) (hd : Head) (c : SwarmCmd) (r : SwarmReply), s.Takes (↑p) hd ∧ s.Calm ∧ (s.taken (↑p) hd).isUp ↑p = true ∧ (s.taken (↑p) hd).lstate ↑p = 4 ∧ (∀ x ∈ (s.taken (↑p) hd).run.heldSwarm, x.2.2.id ≠ c.id) ∧ List.find? (fun x => x.1 == c.id) (s.taken (↑p) hd).swarm.history = some (c.id, some r))
    ∧ (∃ (s : State) (p : Fin 4) (hd : Head) (r : SwarmReply) (x : CmdRun) (w : PortWait) (ws : List PortWait) (id : BitVec 8), s.Takes (↑p) hd ∧ s.Calm ∧ (s.taken (↑p) hd).swarm.runs = [x] ∧ x.cmd.id = r.id ∧ x.waits = w :: ws ∧ w.port = ↑p ∧ (∀ v ∈ ws, v.port ≠ ↑p) ∧ r.first = none ∧ ws = [] ∧ x.up = false ∧ x.cmd.code = 2 ∧ (s.taken (↑p) hd).swarm.armId = some x.cmd.id ∧ replyOutcome     { id := x.reply.id, done := x.reply.done + r.done, refused := x.reply.refused + r.refused, timedOut := x.reply.timedOut + r.timedOut,       notReached := x.reply.notReached + r.notReached, first := if x.reply.first.isSome = true then x.reply.first else r.first } =   1 ∧ (s.taken (↑p) hd).armRefusal = none ∧ (s.taken (↑p) hd).run.pendingCmd = some (2, id.toNat))
    ∧ (∃ (s : State) (p : Fin 4) (hd : Head) (r : SwarmReply) (x : CmdRun) (w : PortWait) (ws : List PortWait), s.Takes (↑p) hd ∧ s.Calm ∧ (s.taken (↑p) hd).swarm.runs = [x] ∧ x.cmd.id = r.id ∧ x.waits = w :: ws ∧ w.port = ↑p ∧ (∀ v ∈ ws, v.port ≠ ↑p) ∧ r.first = none ∧ ws = [] ∧ x.up = true ∧ (s.taken (↑p) hd).joined = true)
    ∧ (∃ (s : State) (p : Fin 4) (hd : Head) (r : SwarmReply) (x : CmdRun) (w : PortWait) (ws : List PortWait), s.Takes (↑p) hd ∧ s.Calm ∧ (s.taken (↑p) hd).swarm.runs = [x] ∧ x.cmd.id = r.id ∧ x.waits = w :: ws ∧ w.port = ↑p ∧ (∀ v ∈ ws, v.port ≠ ↑p) ∧ r.first = none ∧ ws ≠ [])
    ∧ (∃ (s : State) (p : Fin 4) (x : CmdRun) (w : PortWait), s.Canonical ∧ s.Calm ∧ s.live = true ∧ s.inCluster = false ∧ s.swarm.runs = [x] ∧ x.waits = [w] ∧ w.port = ↑p ∧ s.fld swarmPage SWARM.CMD_TO_US * 1000 ≤ w.total s.time.tclk ∧ x.up = true ∧ s.joined = true)
    ∧ (∃ (s : State) (p : Fin 4) (hd : Head) (g : SwarmTrigger), s.Takes (↑p) hd)
    ∧ (∃ (s : State) (p : Fin 4) (hd : Head) (e : SwarmEvent), s.Takes (↑p) hd ∧ s.Calm ∧ (s.taken (↑p) hd).swarm.runs = [] ∧ seen hd.origin e.id (fresh (s.taken (↑p) hd).time.tclk (s.taken (↑p) hd).swarm.seenEvents) = false ∧ e.code = 17 ∧ hd.origin.toNat = (s.taken (↑p) hd).fld (linkPage ↑p) LINK.PEER_ORDINAL)
    ∧ (∃ (s : State) (p : Fin 4) (hd : Head) (e : SwarmEvent), s.Takes (↑p) hd ∧ s.Calm ∧ (s.taken (↑p) hd).swarm.runs = [] ∧ seen hd.origin e.id (fresh (s.taken (↑p) hd).time.tclk (s.taken (↑p) hd).swarm.seenEvents) = false ∧ e.code = 3) :=
  ⟨⟨mm [(chipPage, CHIP.live_RUN_STATE, 1)], 2, hd0, cmd 2, of_takes (of_hears (of_canonical (by decide +kernel)) (by decide +kernel)) (by decide +kernel), by unfold State.Calm; decide +kernel, by decide +kernel⟩,
   ⟨mm [(chipPage, CHIP.live_RUN_STATE, 0)], 2, hd0, cmd 2, 0, of_takes (of_hears (of_canonical (by decide +kernel)) (by decide +kernel)) (by decide +kernel), by unfold State.Calm; decide +kernel, by decide +kernel⟩,
   ⟨{ mm [(chipPage, CHIP.live_RUN_STATE, 1)] with pending := [.regionHalt 3] }, 2, hd0, cmd 2, of_takes (of_hears (of_canonical (by decide +kernel)) (by decide +kernel)) (by decide +kernel), by unfold State.Calm; decide +kernel, by decide +kernel⟩,
   ⟨{ mm [] with swarm := { Swarm.init with history := [(7, none), (0x0102, some ⟨0x0102, 1, 0, 0, 0, none⟩)] } }, 2, hd0, cmd 2, ⟨0x0102, 1, 0, 0, 0, none⟩, of_takes (of_hears (of_canonical (by decide +kernel)) (by decide +kernel)) (by decide +kernel), by unfold State.Calm; decide +kernel, by decide +kernel⟩,
   ⟨qrun, 3, hd0, ⟨0x0102, 5, 0, 0, 0, none⟩, ⟨cmd 2, false, [⟨3, 0, none⟩], ⟨0x0102, 0, 0, 0, 0, none⟩⟩, ⟨3, 0, none⟩, [], 7, of_takes (of_hears (of_canonical (by decide +kernel)) (by decide +kernel)) (by decide +kernel), by unfold State.Calm; decide +kernel, by decide +kernel⟩,
   ⟨runs [⟨3, 0, none⟩] true 2 rep0 upL, 3, hd0, rep0, ⟨cmd 2, true, [⟨3, 0, none⟩], rep0⟩, ⟨3, 0, none⟩, [], of_takes (of_hears (of_canonical (by decide +kernel)) (by decide +kernel)) (by decide +kernel), by unfold State.Calm; decide +kernel, by decide +kernel⟩,
   ⟨runs [⟨3, 0, none⟩, ⟨1, 0, none⟩] true 2 rep0 upL, 3, hd0, rep0, ⟨cmd 2, true, [⟨3, 0, none⟩, ⟨1, 0, none⟩], rep0⟩, ⟨3, 0, none⟩, [⟨1, 0, none⟩], of_takes (of_hears (of_canonical (by decide +kernel)) (by decide +kernel)) (by decide +kernel), by unfold State.Calm; decide +kernel, by decide +kernel⟩,
   ⟨runs [⟨3, 500, some 990⟩] true 2 rep0 (upL ++ [(swarmPage, SWARM.CMD_TO_US, 0)]), 3, ⟨cmd 2, true, [⟨3, 500, some 990⟩], rep0⟩, ⟨3, 500, some 990⟩, of_canonical (by decide +kernel), by unfold State.Calm; decide +kernel, by decide +kernel⟩,
   ⟨mm [], 2, hd0, ⟨NOW - 5, 7, 31, false, false⟩, of_takes (of_hears (of_canonical (by decide +kernel)) (by decide +kernel)) (by decide +kernel)⟩,
   ⟨{ sets alive (prt 2 3 4 ++ queen ++ [(linkPage 2, LINK.PEER_ORDINAL, 77)]) with links := [(2, { L0 with peer := some (hel 1 77 2), counted := some 77 })], swarm := { Swarm.init with taken := [77, 78] } }, 2, hd0, ⟨0x11, 7, 9, 78⟩, of_takes (of_hears (of_canonical (by decide +kernel)) (by decide +kernel)) (by decide +kernel), by unfold State.Calm; decide +kernel, by decide +kernel⟩,
   ⟨{ sets alive (prt 2 3 4 ++ queen) with links := [(2, { L0 with peer := some (hel 1 77 2), counted := some 77 })], swarm := { Swarm.init with taken := [77, 78] } }, 2, hd0, ⟨3, 7, 9, 78⟩, of_takes (of_hears (of_canonical (by decide +kernel)) (by decide +kernel)) (by decide +kernel), by unfold State.Calm; decide +kernel, by decide +kernel⟩⟩

theorem witness_LentBanks :
    (∃ (s : State) (n : Fin 8) (i : Fin 16) (a : ℕ) (r0 : Rec) (r1 : Rec) (q : List Batch), s.Canonical ∧ s.Calm ∧ s.remote ↑n = true ∧ s.recFrozen ↑n = false ∧ s.remLink ↑n = true ∧ (i : ℕ) = 8 + (n : ℕ) ∧ (s.writer ↑i).entered = true ∧ (s.writer ↑i).line < 16384 ∧ (s.writer ↑i).queue = { arrival := a, recs := [r0, r1] } :: q ∧ (s.writer ↑i).inGroup = false ∧ s.lentSent (s.remPort ↑n) < 16 ∧ s.granted s.aclk s.others (Access.line (↑i) false) = true)
    ∧ (∃ (s : State) (n : Fin 8), s.Canonical ∧ s.remote ↑n = true ∧ s.recFrozen ↑n = false ∧ s.remLink ↑n = true ∧ (s.writer (8 + ↑n)).entered = false ∧ (s.rem ↑n).asked = none ∧ s.recording ↑n = true)
    ∧ (∃ (s : State) (n : Fin 8) (c : ℕ) (r : ℕ), s.Canonical ∧ s.remote ↑n = true ∧ s.recFrozen ↑n = false ∧ s.remLink ↑n = true ∧ s.rem ↑n = { asked := some c, refused := some r, frozen := false } ∧ r + 1000 ≤ s.time.tclk)
    ∧ (∃ (s : State) (p : Fin 4) (hd : Head) (bank : BitVec 8) (ok : Bool) (n : Fin 8), s.Takes (↑p) hd ∧ (∀ m < 8, (s.taken (↑p) hd).remote m = true ∧ (s.taken (↑p) hd).remPort m = ↑p ↔ m = ↑n) ∧ ((s.taken (↑p) hd).rem ↑n).frozen = false ∧ ((s.taken (↑p) hd).rem ↑n).asked = none ∧ ok = false ∧ (s.taken (↑p) hd).remBank (↑n) ((s.taken (↑p) hd).writer (8 + ↑n)).group = bank.toNat)
    ∧ (∃ (s : State) (p : Fin 4) (hd : Head) (bank : BitVec 8) (ok : Bool) (n : Fin 8), s.Takes (↑p) hd ∧ (∀ m < 8, (s.taken (↑p) hd).remote m = true ∧ (s.taken (↑p) hd).remPort m = ↑p ↔ m = ↑n) ∧ ((s.taken (↑p) hd).rem ↑n).frozen = false ∧ ((s.taken (↑p) hd).rem ↑n).asked = some bank.toNat)
    ∧ (∃ (s : State) (p : Fin 4) (hd : Head) (bank : BitVec 8) (fill : BitVec 16), s.Takes (↑p) hd ∧ (s.taken (↑p) hd).ownerNow bank.toNat = 7 + 16 * ↑p ∧ (s.taken (↑p) hd).draining bank.toNat = false ∧ (s.taken (↑p) hd).isFrozen (linkPage ↑p) 8 = false)
    ∧ (∃ (s : State) (p : Fin 4) (hd : Head) (bank : BitVec 8) (fill : BitVec 16), s.Takes (↑p) hd ∧ ((s.taken (↑p) hd).ownerNow bank.toNat ≠ 7 + 16 * ↑p ∨ (s.taken (↑p) hd).draining bank.toNat = true ∨ (s.taken (↑p) hd).isFrozen (linkPage ↑p) 8 = true))
    ∧ (∃ (s : State) (p : Fin 4) (hd : Head) (bank : BitVec 8) (line : BitVec 14) (r0 : Rec) (r1 : Rec), s.Takes (↑p) hd ∧ (s.taken (↑p) hd).granted (s.taken (↑p) hd).aclk (s.taken (↑p) hd).others (Access.lent (↑p) bank.toNat line.toNat r0 r1) = true ∧ (s.taken (↑p) hd).isFrozen (linkPage ↑p) 8 = false ∧ (s.taken (↑p) hd).gate bank.toNat 7 ↑p = Grant.granted ∧ (s.taken (↑p) hd).injectArmed 1 bank.toNat = false ∧ (s.taken (↑p) hd).injectArmed 2 bank.toNat = false)
    ∧ (∃ (s : State) (p : Fin 4) (hd : Head) (bank : BitVec 8) (line : BitVec 14) (r0 : Rec) (r1 : Rec), s.Takes (↑p) hd ∧ (s.taken (↑p) hd).granted (s.taken (↑p) hd).aclk (s.taken (↑p) hd).others (Access.lent (↑p) bank.toNat line.toNat r0 r1) = true ∧ (s.taken (↑p) hd).isFrozen (linkPage ↑p) 8 = false ∧ (s.taken (↑p) hd).gate bank.toNat 7 ↑p = Grant.violation) :=
  ⟨⟨{ mm (rem 7 2 250 3) with recordingRegions := 128, writers := [(15, ⟨[⟨900, [rA, Rec.pad]⟩], false, 900, 16383, 1, true, 1, 0⟩)] }, 7, 15, 900, rA, Rec.pad, [], of_canonical (by decide +kernel), by unfold State.Calm; decide +kernel, by decide +kernel⟩,
   ⟨{ mm (rem 7 2 250 3) with recordingRegions := 128 }, 7, of_canonical (by decide +kernel), by decide +kernel⟩,
   ⟨{ mm (rem 7 2 250 3) with recordingRegions := 128, writers := [(15, { Writer.empty with fills := 65535, group := 2 })], remotes := [(7, ⟨some 252, some 0, false⟩)] }, 7, 252, 0, of_canonical (by decide +kernel), by decide +kernel⟩,
   ⟨{ mm (rem 7 2 250 3) with recordingRegions := 128, writers := [(15, { Writer.empty with fills := 6, group := 1 })] }, 2, hd0, 251, false, 7, of_takes (of_hears (of_canonical (by decide +kernel)) (by decide +kernel)) (by decide +kernel), by decide +kernel⟩,
   ⟨{ mm (rem 7 2 250 3) with recordingRegions := 128, writers := [(15, { Writer.empty with fills := 6, group := 1 })], remotes := [(7, ⟨some 252, none, false⟩)] }, 2, hd0, 252, true, 7, of_takes (of_hears (of_canonical (by decide +kernel)) (by decide +kernel)) (by decide +kernel), by decide +kernel⟩,
   ⟨{ mm [(bankPage 9, BANK.OWNER_NOW_OWNER, 7 + 32)] with recordingRegions := 128 }, 2, hd0, 9, 0xffff, of_takes (of_hears (of_canonical (by decide +kernel)) (by decide +kernel)) (by decide +kernel), by decide +kernel⟩,
   ⟨{ mm [(bankPage 9, BANK.OWNER_NOW_OWNER, 7)] with recordingRegions := 128 }, 2, hd0, 9, 0xffff, of_takes (of_hears (of_canonical (by decide +kernel)) (by decide +kernel)) (by decide +kernel), by decide +kernel⟩,
   ⟨{ mm [(bankPage 9, BANK.OWNER_NOW_OWNER, 7 + 32)] with recordingRegions := 128 }, 2, hd0, 9, 16383, rA, Rec.pad, of_takes (of_hears (of_canonical (by decide +kernel)) (by decide +kernel)) (by decide +kernel), by decide +kernel⟩,
   ⟨{ mm [(bankPage 9, BANK.OWNER_NOW_OWNER, 1)] with recordingRegions := 128 }, 2, hd0, 9, 16383, rA, Rec.pad, of_takes (of_hears (of_canonical (by decide +kernel)) (by decide +kernel)) (by decide +kernel), by decide +kernel⟩⟩

theorem witness_SwarmRoles :
    (∃ (s : State) (v : Dword) (r : SwarmReg), s.Canonical ∧ s.Calm ∧ s.swarm.runs = [] ∧ s.hostLive = true ∧ s.unlocked swarmPage = true ∧ s.configOk = false ∧ r ∈ [SwarmReg.ctrl, SwarmReg.ordinal, SwarmReg.epoch] ∧ (r = SwarmReg.ctrl → getBits v 0 2 ≠ 3))
    ∧ (∃ (s : State) (v : Dword), s.Canonical ∧ s.Calm ∧ s.swarm.runs = [] ∧ s.hostLive = true ∧ s.unlocked swarmPage = true ∧ s.configOk = true ∧ getBits v 0 2 ≠ 3)
    ∧ (∃ (s : State) (v : Dword), s.Canonical ∧ s.Calm ∧ s.swarm.runs = [] ∧ s.hostLive = true ∧ s.unlocked swarmPage = true ∧ getBits v 0 2 = 3)
    ∧ (∃ (s : State) (v : Dword) (r : SwarmReg), s.Canonical ∧ s.Calm ∧ s.swarm.runs = [] ∧ s.hostLive = true ∧ s.unlocked swarmPage = false ∧ r ∈ [SwarmReg.ctrl, SwarmReg.ordinal, SwarmReg.epoch])
    ∧ (∃ (s : State) (high : Bool), s.Canonical ∧ s.live = true ∧ s.fld swarmPage SWARM.CTRL_QUEEN_OVR = 0) :=
  ⟨⟨swk [(linkPage 3, LINK.STATE_LSTATE, 5)], 2, .epoch, of_canonical (by decide +kernel), by unfold State.Calm; decide +kernel, by decide +kernel⟩,
   ⟨swk [], 0, of_canonical (by decide +kernel), by unfold State.Calm; decide +kernel, by decide +kernel⟩,
   ⟨swk [], 0xffffffff, of_canonical (by decide +kernel), by unfold State.Calm; decide +kernel, by decide +kernel⟩,
   ⟨sets alive [], 3, .ctrl, of_canonical (by decide +kernel), by unfold State.Calm; decide +kernel, by decide +kernel⟩,
   ⟨sets alive [(swarmPage, SWARM.CTRL_QUEEN_OVR, 0)], true, of_canonical (by decide +kernel), by decide +kernel⟩⟩

end Sys2Proof.Tests.Swarming

namespace Sys2Proof.Tests.Outputs
open Sys2Proof Sys2Proof.Machine
set_option Elab.async false
set_option linter.unusedVariables false

def NOW : DTime := 0x123456789abcd000
def dm (d : Nat) (l : List (Nat × Fld × Nat)) (x : Dom) : State := { sets alive ([(domPage d, DOM.CTRL_EN, 1), (swarmPage, SWARM.STATE_QUEEN, 0)] ++ l) with doms := [(d, x)] }
def D0 : Dom := { Dom.init with d := 12345678901234567 }
def off (θ : Int) (h : Bool) : Offset := ⟨θ, NOW - 7, h⟩
def ppsS (x : Dom) (l : List (Nat × Fld × Nat)) : State := dm 0 ([(domPage 0, DOM.CTRL_SRC, 3), (domPage 0, DOM.PERIOD_NS, 1000000000), (domPage 0, DOM.PPS_WIN, 0)] ++ l) x
def s1 : State := ppsS { D0 with d := 7500000123 * 2^48 % 2^80 } [(domPage 0, DOM.EXPECT_NS, 4000000000), (domPage 0, DOM.FREQ_NOW, 0xffff0000)]
def sy (i : Nat) (l : List (Nat × Fld × Nat)) (k : Bool) : State := let s := sets alive l; if k then s.setKey (synPage i) true else s
def run5 : List (Nat × Fld × Nat) := [(synPage 5, PG.CTRL_RUN, 1), (synPage 5, SYN.CTRL_EN, 1), (synPage 5, SYN.FREQ, 9 * 2^24 + 5)]
def srch (t0 : Nat) (f : Option Nat) : State := { sy 5 (run5 ++ [(synPage 5, SYN.live_SEARCHING, 1), (synPage 5, SYN.PROF_CTRL_SLOT, 7)]) false with syns := [(5, { Syn.init with search := some t0, fill := f })], time := { alive.time with tclk := 200000 } }

theorem witness_Domains :
    (∃ (s : State) (d : Fin 2) (o : Offset) (u : DTime), s.Canonical ∧ s.live = true ∧ s.bit tbPage TB.live_STARTED = true ∧ s.mapTicks < ticksOf s.now ∧ s.shadows = [] ∧ s.isMember = false ∧ s.domEn ↑d = true ∧ (s.dom ↑d).pending = some o ∧ s.bit (domPage ↑d) DOM.SET_CTRL_GO = false ∧ s.domSrc ↑d ≠ 0 ∧ (s.domSrc ↑d = 1 ↔ o.host = true) ∧ (BitVec.toNat (s.rd (domPage ↑d + 80)) * 2 ^ 48 = 0 ∨ o.θ.natAbs ≤ BitVec.toNat (s.rd (domPage ↑d + 80)) * 2 ^ 48) ∧ (s.dom ↑d).lastUsed = some u ∧ 0 < dt o.time u ∧ |(s.dom ↑d).integ + ↑(s.fld (domPage ↑d) DOM.KI_GAIN) / 65536 * (4 * ↑o.θ / ↑(dt o.time u))| ≤ s.domLimit ↑d ∧ |(-(↑(s.fld (domPage ↑d) DOM.KP_GAIN) / 65536 * (4 * ↑o.θ / ↑(dt o.time u)) +         ((s.dom ↑d).integ + ↑(s.fld (domPage ↑d) DOM.KI_GAIN) / 65536 * (4 * ↑o.θ / ↑(dt o.time u)))))| ≤   ↑(s.domLimit ↑d).floor)
    ∧ (∃ (s : State) (d : Fin 2) (o : Offset), s.Canonical ∧ s.live = true ∧ s.bit tbPage TB.live_STARTED = true ∧ s.mapTicks < ticksOf s.now ∧ s.shadows = [] ∧ s.isMember = false ∧ s.domEn ↑d = true ∧ (s.dom ↑d).pending = some o ∧ s.bit (domPage ↑d) DOM.SET_CTRL_GO = false ∧ s.domSrc ↑d ≠ 0 ∧ (s.domSrc ↑d = 1 ↔ o.host = true) ∧ BitVec.toNat (s.rd (domPage ↑d + 80)) * 2 ^ 48 ≠ 0 ∧ BitVec.toNat (s.rd (domPage ↑d + 80)) * 2 ^ 48 < o.θ.natAbs)
    ∧ (∃ (s : State) (d : Fin 2) (o : Offset), s.Canonical ∧ s.live = true ∧ s.bit tbPage TB.live_STARTED = true ∧ s.mapTicks < ticksOf s.now ∧ s.shadows = [] ∧ s.isMember = false ∧ s.domEn ↑d = true ∧ (s.dom ↑d).pending = some o ∧ s.bit (domPage ↑d) DOM.SET_CTRL_GO = false ∧ s.domSrc ↑d ≠ 0 ∧ (s.domSrc ↑d = 1 ↔ o.host = true) ∧ (BitVec.toNat (s.rd (domPage ↑d + 80)) * 2 ^ 48 = 0 ∨ o.θ.natAbs ≤ BitVec.toNat (s.rd (domPage ↑d + 80)) * 2 ^ 48) ∧ (s.dom ↑d).lastUsed = none)
    ∧ (∃ (s : State) (d : Fin 2), s.Canonical ∧ s.live = true ∧ s.bit tbPage TB.live_STARTED = true ∧ s.mapTicks < ticksOf s.now ∧ s.shadows = [] ∧ s.isMember = false ∧ s.domEn ↑d = true ∧ s.bit (domPage ↑d) DOM.SET_CTRL_GO = true)
    ∧ (∃ (s : State) (d : Fin 2) (frac : BitVec 16), s.Canonical ∧ s.hostLive = true ∧ s.isMember = false ∧ s.domEn ↑d = true)
    ∧ (∃ (s : State) (d : Fin 2) (frac : BitVec 16), s.Canonical ∧ s.hostLive = true ∧ s.isMember = false ∧ s.domEn ↑d = false)
    ∧ (∃ (s : State) (d : Fin 2) (frac : BitVec 16), s.Canonical ∧ s.hostLive = true ∧ s.isMember = true)
    ∧ (∃ (s : State) (d : Fin 2) (i : Fin 2) (rising : Bool) (fine : BitVec 10), s.Canonical ∧ s.live = true ∧ s.coarse = false ∧ s.inCluster = false ∧ s.bit tbPage TB.live_STARTED = true ∧ s.domSrc ↑d = 2 + ↑i ∧ rising ≠ s.bit (domPage ↑d) DOM.CTRL_PPS_POL ∧ s.domEn ↑d = true ∧ s.isMember = false ∧ Tab.get (fun x => none) s.pps (2 * ↑d + ↑i) = none ∧ BitVec.toNat (s.rd (domPage ↑d + 116)) ≠ 0 ∧ s.rd (domPage ↑d + 120) = 0)
    ∧ (∃ (s : State) (d : Fin 2) (v : Dword), s.Canonical ∧ (∀ (x : DTime), (s.dom ↑d).lastHost = some x → 0 < dt (v ++ s.rd (domPage ↑d + 100)) x) ∧ s.hostLive = true ∧ s.isMember = false ∧ s.domSrc ↑d = 1 ∧ dt (v ++ s.rd (domPage ↑d + 100)) s.now ≤ 0)
    ∧ (∃ (s : State) (d : Fin 2) (v : Dword), s.Canonical ∧ s.hostLive = true ∧ s.isMember = false ∧ s.domSrc ↑d = 1 ∧ 0 < dt (v ++ s.rd (domPage ↑d + 100)) s.now)
    ∧ (∃ (s : State) (d : Fin 2) (v : Dword), s.Canonical ∧ s.hostLive = true ∧ s.isMember = false ∧ s.domSrc ↑d ≠ 1)
    ∧ (∃ (s : State) (d : Fin 2), s.Canonical ∧ s.hostLive = true)
    ∧ (∃ (s : State) (d : Fin 2), s.Canonical ∧ s.live = true ∧ s.isMember = false ∧ s.domEn ↑d = true ∧ s.domSrc ↑d ≠ 0 ∧ s.bit (domPage ↑d) DOM.live_STALE = false ∧ (if s.domSrc ↑d = 1 then (2000000000 * 1024 : ℤ) else 2 * ↑(BitVec.toNat (s.rd (domPage ↑d + 116))) * 1024) ≤ dt s.now (s.dom ↑d).freshAt ∧ |(s.dom ↑d).integ| ≤ ↑(s.domLimit ↑d).floor) :=
  ⟨⟨dm 0 [(domPage 0, DOM.CTRL_SRC, 1), (domPage 0, DOM.STEP_NS, 0), (domPage 0, DOM.KP_GAIN, 500), (domPage 0, DOM.KI_GAIN, 40), (domPage 0, DOM.LIMITS_MAXPPM, 100)] { D0 with pending := some (off (-4*2^38) true), lastUsed := some (NOW - 1024000000), integ := 3/7 }, 0, off (-4*2^38) true, NOW - 1024000000, of_canonical (by decide +kernel), by decide +kernel⟩,
   ⟨dm 1 [(domPage 1, DOM.CTRL_SRC, 1), (domPage 1, DOM.STEP_NS, 3)] { D0 with pending := some (off (-4*2^48) true), lastUsed := some (NOW - 1024000000) }, 1, off (-4*2^48) true, of_canonical (by decide +kernel), by decide +kernel⟩,
   ⟨dm 0 [(domPage 0, DOM.CTRL_SRC, 2), (domPage 0, DOM.STEP_NS, 4)] { D0 with pending := some (off (-4*2^48) false) }, 0, off (-4*2^48) false, of_canonical (by decide +kernel), by decide +kernel⟩,
   ⟨dm 1 [(domPage 1, DOM.SET_CTRL_GO, 1), (domPage 1, DOM.SET_NS, 0xdeadbeef), (domPage 1, DOM.SET_CTRL_FRAC, 0xabcd)] { D0 with pending := some (off 5 true), lastUsed := some 3 }, 1, of_canonical (by decide +kernel), by decide +kernel⟩,
   ⟨dm 1 [(domPage 1, DOM.SET_NS, 5)] D0, 1, 0xbeef, of_canonical (by decide +kernel), by decide +kernel⟩,
   ⟨{ dm 1 [(domPage 1, DOM.SET_NS, 0xffffffff), (domPage 1, DOM.CTRL_EN, 0)] D0 with doms := [] }, 1, 0xbeef, of_canonical (by decide +kernel), by decide +kernel⟩,
   ⟨dm 1 [(chipPage, CHIP.live_MEMBER, 1)] D0, 1, 0xbeef, of_canonical (by decide +kernel), by decide +kernel⟩,
   ⟨s1, 0, 1, true, 1000, of_canonical (by decide +kernel), by decide +kernel⟩,
   ⟨dm 1 [(domPage 1, DOM.CTRL_SRC, 1), (domPage 1, DOM.OFS_AT_LO, 0x9abcd000), (domPage 1, DOM.OFS_NS, 0xfffffffe), (domPage 1, DOM.OFS_FRAC_FRAC, 9)] { D0 with lastHost := some (NOW - 1) }, 1, 0x12345678, of_canonical (by decide +kernel), by intro x h; injection h with h; subst h; decide +kernel, by decide +kernel⟩,
   ⟨dm 1 [(domPage 1, DOM.CTRL_SRC, 1), (domPage 1, DOM.OFS_AT_LO, 0x9abcd001)] D0, 1, 0x12345678, of_canonical (by decide +kernel), by decide +kernel⟩,
   ⟨dm 1 [(domPage 1, DOM.CTRL_SRC, 2)] D0, 1, 0x12345678, of_canonical (by decide +kernel), by decide +kernel⟩,
   ⟨dm 1 [] D0, 1, of_canonical (by decide +kernel), by decide +kernel⟩,
   ⟨dm 1 [(domPage 1, DOM.CTRL_SRC, 1), (domPage 1, DOM.LIMITS_MAXPPM, 100), (domPage 1, DOM.live_LOCKED, 1)] { D0 with integ := 22/7, freshAt := NOW - 2048000000000 }, 1, of_canonical (by decide +kernel), by decide +kernel⟩⟩

theorem witness_Synthesizers :
    (∃ (s : State) (i : Fin 6), s.Canonical ∧ s.hostLive = true ∧ s.unlocked (synPage ↑i) = true ∧ s.bit (synPage ↑i) PG.CTRL_RUN = false ∧ s.rootOk = true ∧ s.asleep = false ∧ s.causeThermal = false)
    ∧ (∃ (s : State) (i : Fin 6), s.Canonical ∧ s.hostLive = true ∧ s.unlocked (synPage ↑i) = true ∧ s.bit (synPage ↑i) PG.CTRL_RUN = true)
    ∧ (∃ (s : State) (i : Fin 6) (c : Instr), s.Canonical ∧ s.hostLive = true ∧ s.unlocked (synPage ↑i) = false ∧ c ∈ [Instr.synPageStart i, Instr.synPageStop i])
    ∧ (∃ (s : State) (i : Fin 6) (v : Dword), s.Canonical ∧ s.hostLive = true ∧ (getBits v 4 1 = 1 → s.calTaken ↑i = false) ∧ s.bit (synPage ↑i) PG.CTRL_RUN = true)
    ∧ (∃ (s : State) (i : Fin 6) (v : Dword), s.Canonical ∧ s.hostLive = true ∧ (getBits v 4 1 = 1 → s.calTaken ↑i = false) ∧ s.bit (synPage ↑i) PG.CTRL_RUN = false)
    ∧ (∃ (s : State) (i : Fin 6) (v : Dword) (b : Bool), s.Canonical ∧ s.live = true ∧ s.bit (synPage ↑i) PG.CTRL_RUN = true ∧ s.asleep = false ∧ s.causeThermal = false ∧ s.shadows = [(synPage ↑i + 64, some v)] ∧ getBits v 6 1 = 1 ∧ s.rootOk = true)
    ∧ (∃ (s : State) (i : Fin 6) (t0 : ℕ) (band : BitVec 5) (tune : BitVec 8), s.Canonical ∧ s.live = true ∧ s.synOn ↑i = true ∧ (s.syn ↑i).search = some t0 ∧ t0 + 40000 ≤ s.time.tclk ∧ (s.syn ↑i).fill = none)
    ∧ (∃ (s : State) (i : Fin 6) (t0 : ℕ), s.Canonical ∧ s.live = true ∧ s.synOn ↑i = true ∧ (s.syn ↑i).search = some t0 ∧ t0 + 200000 ≤ s.time.tclk)
    ∧ (∃ (s : State) (i : Fin 6) (index : BitVec 4) (slot : BitVec 4) (b : Bool), s.Canonical ∧ s.hostLive = true ∧ s.synOn ↑i = true ∧ s.rootOk = true ∧ s.shadows = [(synPage ↑i + 88, some (BitVec.ofNat 32 (slot.toNat + 2 ^ 4 * index.toNat + 2 ^ 8)))] ∧ (signed 11 (s.fld chipPage CHIP.TEMP_VALUE) - 4 * signed 8 (bitsOf (s.fld (synPage ↑i) (profAux index.toNat)) 24 8)).natAbs ≤ 80)
    ∧ (∃ (s : State) (i : Fin 6) (index : BitVec 4) (slot : BitVec 4), s.Canonical ∧ s.hostLive = true ∧ bitOf (s.fld (synPage ↑i) (profFreq index.toNat)) 31 = true ∧ s.bit (synPage ↑i) PG.CTRL_RUN = true)
    ∧ (∃ (s : State) (i : Fin 6) (index : BitVec 4) (slot : BitVec 4), s.Canonical ∧ s.hostLive = true ∧ bitOf (s.fld (synPage ↑i) (profFreq index.toNat)) 31 = false)
    ∧ (∃ (s : State) (i : Fin 6), s.Canonical ∧ s.live = true ∧ s.synOn ↑i = true ∧ s.rootOk = true ∧ (s.syn ↑i).lost = true ∧ (s.syn ↑i).relock = true ∧ s.bit (synPage ↑i) SYN.live_HOLD = true)
    ∧ (∃ (s : State) (i : Fin 6), s.Canonical ∧ s.live = true ∧ s.synOn ↑i = true ∧ s.rootOk = true ∧ (s.syn ↑i).lost = true ∧ (s.syn ↑i).relock = true ∧ s.bit (synPage ↑i) SYN.live_HOLD = false)
    ∧ (∃ (s : State) (i : Fin 6), s.Canonical ∧ s.live = true ∧ s.synOn ↑i = true ∧ (s.syn ↑i).hop.isSome = true)
    ∧ (∃ (s : State) (i : Fin 6), s.Canonical ∧ s.live = true ∧ s.bit (synPage ↑i) SYN.live_OUT_ON = true ∧ s.fld (synPage ↑i) SYN.STATUS_DELAY_NOW ≠ s.fld (synPage ↑i) SYN.DELAY_TARGET)
    ∧ (∃ (s : State) (i : Fin 6) (j : Fin 3) (v : Dword) (levels : Dword), s.Canonical ∧ s.hostLive = true ∧ s.unlocked (synPage ↑i) = true ∧ s.betweenRuns = true ∧ (∀ k < 6, k ≠ ↑i → s.rd (synPage k + (92 + 4 * ↑j)) &&& v = 0))
    ∧ (∃ (s : State) (i : Fin 6) (j : Fin 3) (v : Dword) (levels : Dword), s.Canonical ∧ s.hostLive = true ∧ s.unlocked (synPage ↑i) = true ∧ (s.betweenRuns = false ∨ ∃ k < 6, k ≠ ↑i ∧ s.rd (synPage k + (92 + 4 * ↑j)) &&& v ≠ 0))
    ∧ (∃ (s : State) (i : Fin 6) (j : Fin 3) (v : Dword) (levels : Dword), s.Canonical ∧ s.hostLive = true ∧ s.unlocked (synPage ↑i) = false)
    ∧ (∃ (s : State) (i : Fin 6) (ohms : Option ℕ), (∀ (z : Zq), s.zq = some z → z.tclk + 100000000 ≤ s.time.tclk) ∧ s.live = true ∧ (s.bit (synPage ↑i) SYN.CTRL_EN = true ∨ s.bit (synPage ↑i) SYN.CTRL_CAL = true)) :=
  ⟨⟨sy 5 [(synPage 5, SYN.CTRL_EN, 1)] true, 5, of_canonical (by decide +kernel), by decide +kernel⟩,
   ⟨sy 5 (run5 ++ [(synPage 5, profFreq 15, 5), (synPage 5, profAux 3, 5), (synPage 5, SYN.live_OUT_ON, 1)]) true, 5, of_canonical (by decide +kernel), by decide +kernel⟩,
   ⟨sy 5 run5 false, 5, .synPageStop 5, of_canonical (by decide +kernel), by decide +kernel⟩,
   ⟨sy 5 run5 false, 5, 0x11, of_canonical (by decide +kernel), by decide +kernel⟩,
   ⟨sy 5 [] false, 5, 0x51, of_canonical (by decide +kernel), by decide +kernel⟩,
   ⟨{ sy 5 run5 false with shadows := [(synPage 5 + 0x40, some 0x41)] }, 5, 0x41, false, of_canonical (by decide +kernel), by decide +kernel⟩,
   ⟨srch 160000 none, 5, 160000, 31, 200, of_canonical (by decide +kernel), by decide +kernel⟩,
   ⟨srch 0 (some 3), 5, 0, of_canonical (by decide +kernel), by decide +kernel⟩,
   ⟨{ sy 5 (run5 ++ [(synPage 5, profFreq 9, 2^31 + 10 * 2^24), (synPage 5, profAux 9, 20*2^24 + 77 * 2^16 + 9 * 2^10 + 1023), (chipPage, CHIP.TEMP_VALUE, 160)]) false with shadows := [(synPage 5 + 0x58, some 0x193)] }, 5, 9, 3, false, of_canonical (by decide +kernel), by decide +kernel⟩,
   ⟨sy 5 (run5 ++ [(synPage 5, profFreq 9, 2^31 + 10 * 2^24)]) false, 5, 9, 3, of_canonical (by decide +kernel), by decide +kernel⟩,
   ⟨sy 5 run5 false, 5, 9, 3, of_canonical (by decide +kernel), by decide +kernel⟩,
   ⟨{ sy 5 (run5 ++ [(synPage 5, SYN.live_HOLD, 1)]) false with syns := [(5, { Syn.init with lost := true, relock := true })] }, 5, of_canonical (by decide +kernel), by decide +kernel⟩,
   ⟨{ sy 5 run5 false with syns := [(5, { Syn.init with lost := true, relock := true })] }, 5, of_canonical (by decide +kernel), by decide +kernel⟩,
   ⟨{ sy 5 (run5 ++ [(synPage 5, SYN.HOPS, 0xffffffff)]) false with syns := [(5, { Syn.init with hop := some (9, 990) })] }, 5, of_canonical (by decide +kernel), by decide +kernel⟩,
   ⟨sy 5 (run5 ++ [(synPage 5, SYN.live_OUT_ON, 1), (synPage 5, SYN.STATUS_DELAY_NOW, 100), (synPage 5, SYN.DELAY_TARGET, 99)]) false, 5, of_canonical (by decide +kernel), by decide +kernel⟩,
   ⟨sy 5 (run5 ++ [(synPage 4, ⟨0x64, 0, 32⟩, 0xf0)]) true, 5, 2, 0xffffff0f, 0, of_canonical (by decide +kernel), by decide +kernel⟩,
   ⟨sy 5 (run5 ++ [(synPage 4, ⟨0x64, 0, 32⟩, 0xf0)]) true, 5, 2, 0x10, 0, of_canonical (by decide +kernel), by decide +kernel⟩,
   ⟨sy 5 run5 false, 5, 2, 0x10, 0, of_canonical (by decide +kernel), by decide +kernel⟩,
   ⟨sy 5 run5 false, 5, some 240, (fun _ h => nomatch h), by decide +kernel⟩⟩

end Sys2Proof.Tests.Outputs

namespace Sys2Proof.Tests.Hosting
open Sys2Proof Sys2Proof.Machine
set_option Elab.async false
set_option linter.unusedVariables false

def ra : Rec := ⟨0x08001, 5, 6, 7⟩
def rb : Rec := ⟨0x38002, 8, 9, 0x3ffff⟩
def preH : State := { alive with power := { alive.power with configReady := false } }
def bp : State := { sets alive [(bankPage 0, BANK.OWNER_NOW_OWNER, 6), (bankPage 1, BANK.OWNER_NOW_OWNER, 6)] with store := [(32767, Half.fresh ra), (32768, Half.poisoned)] }
def bw : State := { sets alive [(bankPage 0, BANK.OWNER_NOW_OWNER, 6), (bankPage 1, BANK.OWNER_NOW_OWNER, 6)] with store := [(32767, Half.fresh ra), (32768, Half.fresh rb)] }
def wds : List (BitVec 4 × Dword) := [(7, 0xffffffff), (0xb, 1), (0xf, 0x12345), (7, 9), (3, 8)]
def ms (l : List (Nat × MsixEntry)) (e m : Bool) : State := { alive with msix := ⟨e, m, l⟩ }
def fz (k : Bool) : State := (sets alive [(blkPage 63, PG.FREEZE_FROZEN, 0x81), (blkPage 63, BLK.XFER_STATUS_BUSY, 1), (blkPage 63, BLK.XFER_STATUS_FROZEN, 1)]).setKey (blkPage 63) k
def irq : State := { sets alive [(bankPage 9, PG.STATUS, 5), (bankPage 9, PG.IRQ_VEC_VECTOR, 33)] with msix := ⟨true, false, [(33, ⟨0xfee00000, 1, 0x4141, false, false⟩)]⟩ }
def jr (l : List (Nat × Fld × Nat)) : State := { sets alive ([(jrnlPage, JRNL.WR_COUNT, 1), (jrnlPage, JRNL.RD_COUNT, 0xfffffffe)] ++ l) with journal := [[ra, rb], [rb, ra, ra]] }
def ck (l : List (Nat × Fld × Nat)) : State := (sets alive l).setKey chipPage true
def dc (c : Nat) (st : Nat) (l : List (Nat × Fld × Nat)) (x : DmaCh) : State := { sets alive ([(dmacPage c, DMAC.STATE_STATE, st), (dmacPage c, DMAC.CTRL_EN, 1), (dmacPage c, DMAC.RING_LO, 0x12340020), (dmacPage c, DMAC.RING_HI, 0x7), (dmacPage c, DMAC.RING_SIZE_SIZE_M1, 15), (dmacPage c, DMAC.INDEX_CI, 15)] ++ l) with dma := if x = DmaCh.empty then [] else [(c, x)] }
def desc (own irq fmt len word hl : Nat) : Desc := ⟨BitVec.ofNat 32 (own * 2^31 + irq * 2^30 + fmt * 2^24 + len), BitVec.ofNat 32 word, BitVec.ofNat 32 hl, 3⟩
def off7 : State := dc 7 0 [(dmacPage 7, DMAC.CTRL_EN, 0)] DmaCh.empty
def fr (c : Nat) (x : DmaCh) : State := dc c 1 [(dmaPage, ⟨0x24, 8, 2⟩, 3)] x
def mv (c : Nat) (d : Desc) (left w owner : Nat) (st : Tab Half) (bf : List (BitVec 8)) : State := { dc c 1 [(dmacPage c, DMAC.CUR_LEFT_BYTES, left), (dmacPage c, DMAC.CUR_WORD_WORD, w), (dmacPage c, DMAC.CUR_HOST_LO, 0xfffffffe), (bankPage 0, BANK.OWNER_NOW_OWNER, owner), (bankPage 1, BANK.OWNER_NOW_OWNER, owner)] { DmaCh.empty with cur := some d, count := getBits d.dw0 0 24 - left, buf := bf, atEnd := true } with store := st }
def bts (n : Nat) : List (BitVec 8) := (List.range n).map fun i => BitVec.ofNat 8 (i * 37 + 11)
def dA : Desc := desc 1 1 0 90 131036 0x1000
def mw (c : Nat) (d : Desc) (left w owner : Nat) (st : Tab Half) (rds : List HostRead) : State := let s := mv c d left w owner st []; { s with dma := [(c, { (s.dmaCh c) with asked := 90, reads := rds, units := if rds.isEmpty then [] else [90] })] }
def rbk (c st : Nat) (ue : Nat) (l : List (Nat × Fld × Nat)) : State := dc c st l { DmaCh.empty with cur := some (desc 1 1 0 90 44 7), readback := true, fetching := true, count := 90, asked := 90, poisoned := 70000, ueRefused := ue }
def cA : DmaCh := { DmaCh.empty with cur := some dA, fetching := true }

theorem witness_HostRequests :
    (∃ (s : State) (link : PciLink) (early : List CfgRequest) (later : List CfgRequest), s.live = true ∧ s.power.configReady = false)
    ∧ (∃ (s : State) (addr : BitVec 24) (req : BusReq), s.Canonical ∧ s.hostLive = true)
    ∧ (∃ (s : State) (addr : BitVec 24), s.Canonical ∧ s.hostLive = true)
    ∧ (∃ (s : State) (w : BitVec 25), s.hostLive = true)
    ∧ (∃ (s : State) (w : BitVec 25) (n : Fin 1025), (∀ (h : ℕ), w.toNat / 4 ≤ h → 4 * h < w.toNat + ↑n → s.gate (h / 32768) 6 0 = Grant.granted ∧ ((s.half h).integ = Integ.ok ∨ (s.half h).integ = Integ.poison)) ∧ s.hostLive = true ∧ s.granted s.aclk s.others (Access.hostRead (4 * w.toNat) w.toNat ↑n []) = true ∧ s.windowFrozen = false ∧ (inBank w.toNat ↑n = ↑n ∨   (s.takeLanes (Access.hostRead (4 * w.toNat) w.toNat ↑n [])).granted s.aclk s.others       (Access.hostRead (4 * w.toNat) (w.toNat + inBank w.toNat ↑n) (↑n - inBank w.toNat ↑n)         (List.map           (fun j =>             have h := s.half ((w.toNat + j) / 4);             if h.integ = Integ.ok then BitVec.setWidth 32 (recWord h.data ((w.toNat + j) % 4)) else 2147483648)           (List.range (inBank w.toNat ↑n)))) =     true))
    ∧ (∃ (s : State) (w : BitVec 25) (n : Fin 1025), s.hostLive = true ∧ s.granted s.aclk s.others (Access.hostRead (4 * w.toNat) w.toNat ↑n []) = true ∧ s.windowFrozen = true)
    ∧ (∃ (s : State) (w : BitVec 25) (ds : List (BitVec 4 × Dword)), s.Canonical ∧ (∀ (h : ℕ), w.toNat / 4 ≤ h → 4 * h < w.toNat + ds.length → s.gate (h / 32768) 6 0 = Grant.granted ∧ (s.half h).integ = Integ.ok) ∧ s.hostLive = true ∧ s.windowFrozen = false ∧ w.toNat + ds.length ≤ 2 ^ 25 ∧ ds.length ≤ 1024 ∧ s.granted s.aclk s.others (Access.hostWrite w.toNat ds) = true ∧ (inBank w.toNat ds.length = ds.length ∨   ((s.takeLanes (Access.hostWrite w.toNat ds)).bar2Write w.toNat (List.take (inBank w.toNat ds.length) ds)).granted s.aclk s.others       (Access.hostWrite (w.toNat + inBank w.toNat ds.length) (List.drop (inBank w.toNat ds.length) ds)) =     true))
    ∧ (∃ (s : State) (v : Option (Fin 64)) (enable : Bool) (mask : Bool), s.Canonical ∧ s.hostLive = true) :=
  ⟨⟨preH, ⟨.gt8, .x4⟩, [], [], by decide +kernel⟩,
   ⟨alive.setKey (bankPage 9) true, BitVec.ofNat 24 (bankPage 9 + 0x40), .write, of_canonical (by decide +kernel), by decide +kernel⟩,
   ⟨alive.setKey (bankPage 9) true, BitVec.ofNat 24 (bankPage 9 + 0x40), of_canonical (by decide +kernel), by decide +kernel⟩,
   ⟨alive, 0x1ffffff, by decide +kernel⟩,
   ⟨bp, 131069, 9, from_word (by decide +kernel) (by decide +kernel), by decide +kernel⟩,
   ⟨sets alive [(bankPage 9, ⟨0x24, 8, 1⟩, 1)], 0x1ffffff, 1, by decide +kernel⟩,
   ⟨bw, 131069, wds, of_canonical (by decide +kernel), from_word (by decide +kernel) (by decide +kernel), by decide +kernel⟩,
   ⟨ms [(63, ⟨0xfee00000, 1, 0x4141, true, true⟩)] false false, some 63, true, false, of_canonical (by decide +kernel), by decide +kernel⟩⟩

theorem witness_RegisterProtocol :
    (∃ (s : State) (addr : BitVec 24) (p : PageType) (i : ℕ), s.Canonical ∧ s.hostLive = true ∧ pageOf addr.toNat = some (p, i))
    ∧ (∃ (s : State) (addr : BitVec 24) (row : RegRow), s.Canonical ∧ s.hostLive = true ∧ regAt addr.toNat = some row ∧ addr.toNat ≠ jrnlPage + 88)
    ∧ (∃ (s : State) (addr : BitVec 24) (p : PageType) (i : ℕ) (row : RegRow) (v : Dword) (lv : Dword), s.Reaches addr.toNat p i row ∧ row.rw ≠ 0 ∧ row.rwk = 0 ∧ row.rwb = 0)
    ∧ (∃ (s : State) (addr : BitVec 24) (p : PageType) (i : ℕ) (row : RegRow) (v : Dword) (lv : Dword), s.Reaches addr.toNat p i row ∧ row.rwk ≠ 0 ∧ row.rw = 0 ∧ row.rwb = 0 ∧ s.unlocked (pageBase p i) = false)
    ∧ (∃ (s : State) (addr : BitVec 24) (p : PageType) (i : ℕ) (row : RegRow) (v : Dword) (lv : Dword), s.Reaches addr.toNat p i row ∧ row.rwb ≠ 0 ∧ row.rwk = 0 ∧ s.verdict p i (addr.toNat % 4096) v false = Verdict.accept v none ∧ s.pageRunning p i = true)
    ∧ (∃ (s : State) (addr : BitVec 24) (p : PageType) (i : ℕ) (row : RegRow) (v : Dword) (lv : Dword), s.Reaches addr.toNat p i row ∧ row.rwb ≠ 0 ∧ row.rwk = 0 ∧ s.verdict p i (addr.toNat % 4096) v false = Verdict.accept v none ∧ s.pageRunning p i = false)
    ∧ (∃ (s : State) (p : Fin 4) (addr : BitVec 24) (inBand : Bool) (v : Dword), s.Canonical ∧ s.live = true ∧ addr.toNat / 4096 = 16 + ↑p ∧ s.pageRunning PageType.link ↑p = true ∧ s.pendingOf (linkPage ↑p) = [linkPage ↑p + 68] ∧ s.shadow (linkPage ↑p + 68) = some v)
    ∧ (∃ (s : State) (g : Fin 64) (addr : BitVec 24), s.Canonical ∧ s.hostLive = true ∧ addr.toNat / 4096 = 528 + ↑g ∧ getBits (s.freshOf (blkPage ↑g + 36)).stood 8 8 ≠ 0 ∧ s.unlocked (blkPage ↑g) = true)
    ∧ (∃ (s : State) (g : Fin 64) (addr : BitVec 24), s.Canonical ∧ s.hostLive = true ∧ addr.toNat / 4096 = 528 + ↑g ∧ getBits (s.freshOf (blkPage ↑g + 36)).stood 8 8 ≠ 0 ∧ s.unlocked (blkPage ↑g) = false)
    ∧ (∃ (s : State) (addr : BitVec 24) (p : PageType) (i : ℕ) (v : Dword) (lv : Dword), s.Canonical ∧ s.Calm ∧ s.hostLive = true ∧ s.swarm.runs = [] ∧ addr.toNat % 4096 = 40 ∧ pageOf addr.toNat = some (p, i) ∧ s.irqReq (pageBase p i) = false ∧ (s.msixGet (s.fld (pageBase p i) PG.IRQ_VEC_VECTOR)).masked = false ∧ s.msix.enable = true ∧ s.msix.funcMask = false) :=
  ⟨⟨alive, 0x309020, .bank, 9, of_canonical (by decide +kernel), by decide +kernel⟩,
   ⟨sets alive [(blkPage 3, ⟨0x48, 0, 32⟩, 0x5a5)], BitVec.ofNat 24 (blkPage 3 + 0x48), ⟨0x48, 1, 0x0, 0x0, 0x0, 0x0, 0xfff, 0x0⟩, of_canonical (by decide +kernel), by decide +kernel⟩,
   ⟨sets alive [(bankPage 9, BANK.SCRUB_EN, 1)], BitVec.ofNat 24 (bankPage 9 + 0x58), .bank, 9, ⟨0x58, 1, 0x1, 0x1, 0x0, 0x0, 0x0, 0x0⟩, 0xfffffffe, 0, of_reaches (of_canonical (by decide +kernel)) (by decide +kernel), by decide +kernel⟩,
   ⟨alive, BitVec.ofNat 24 (bankPage 9 + 0x70), .bank, 9, ⟨0x70, 1, 0x0, 0x0, 0x1, 0x0, 0x0, 0x0⟩, 1, 0, of_reaches (of_canonical (by decide +kernel)) (by decide +kernel), by decide +kernel⟩,
   ⟨sets alive [(chipPage, CHIP.live_RUN_STATE, 3), (regPage 0, REG.SLOT_EXEC, 1)], BitVec.ofNat 24 (blkPage 0 + 0x40), .blk, 0, ⟨0x40, 1, 0x0, 0x0, 0x0, 0x1, 0x0, 0x0⟩, 1, 0, of_reaches (of_canonical (by decide +kernel)) (by decide +kernel), by decide +kernel⟩,
   ⟨alive, BitVec.ofNat 24 (blkPage 0 + 0x40), .blk, 0, ⟨0x40, 1, 0x0, 0x0, 0x0, 0x1, 0x0, 0x0⟩, 1, 0, of_reaches (of_canonical (by decide +kernel)) (by decide +kernel), by decide +kernel⟩,
   ⟨(sets alive [(linkPage 3, LINK.CTRL_EN, 1), (linkPage 3, LINK.STATE_LSTATE, 4), (linkPage 3, PG.CTRL_RUN, 1)]).setShadow (linkPage 3 + 0x44) (some 0xffffffff), 3, BitVec.ofNat 24 (linkPage 3 + 0x18), false, 0xffffffff, of_canonical (by decide +kernel), by decide +kernel⟩,
   ⟨fz true, 63, BitVec.ofNat 24 (blkPage 63 + 0x24), of_canonical (by decide +kernel), by decide +kernel⟩,
   ⟨{ fz true with keys := [] }, 63, BitVec.ofNat 24 (blkPage 63 + 0x24), of_canonical (by decide +kernel), by decide +kernel⟩,
   ⟨irq, BitVec.ofNat 24 (bankPage 9 + 0x28), .bank, 9, 4, 0, of_canonical (by decide +kernel), by unfold State.Calm; decide +kernel, by decide +kernel⟩⟩

theorem witness_ChipPorts :
    (∃ (s : State) (n : Dword), s.Canonical ∧ s.hostLive = true)
    ∧ (∃ (s : State), s.Canonical ∧ s.hostLive = true)
    ∧ (∃ (s : State) (v : Dword), s.Canonical ∧ s.hostLive = true ∧ s.unlocked chipPage = true ∧ s.bit chipPage CHIP.INJECT_GO = false ∧ (BitVec.toNat (v ||| 2147483648) % 16 = 0 ∧ BitVec.toNat (v ||| 2147483648) / 16 % 1024 = 0 ∨   (BitVec.toNat (v ||| 2147483648) % 16 = 1 ∨ BitVec.toNat (v ||| 2147483648) % 16 = 2) ∧ BitVec.toNat (v ||| 2147483648) / 16 % 1024 < 256 ∨     BitVec.toNat (v ||| 2147483648) % 16 = 3 ∨       BitVec.toNat (v ||| 2147483648) % 16 = 4 ∧ BitVec.toNat (v ||| 2147483648) / 16 % 1024 < 64 ∨         BitVec.toNat (v ||| 2147483648) % 16 = 5 ∧ BitVec.toNat (v ||| 2147483648) / 16 % 1024 < 4))
    ∧ (∃ (s : State) (v : Dword), s.Canonical ∧ s.hostLive = true ∧ s.unlocked chipPage = true ∧ s.bit chipPage CHIP.INJECT_GO = false ∧ (¬(BitVec.toNat (v ||| 2147483648) % 16 = 0 ∧ BitVec.toNat (v ||| 2147483648) / 16 % 1024 = 0 ∨     (BitVec.toNat (v ||| 2147483648) % 16 = 1 ∨ BitVec.toNat (v ||| 2147483648) % 16 = 2) ∧ BitVec.toNat (v ||| 2147483648) / 16 % 1024 < 256 ∨       BitVec.toNat (v ||| 2147483648) % 16 = 3 ∨         BitVec.toNat (v ||| 2147483648) % 16 = 4 ∧ BitVec.toNat (v ||| 2147483648) / 16 % 1024 < 64 ∨           BitVec.toNat (v ||| 2147483648) % 16 = 5 ∧ BitVec.toNat (v ||| 2147483648) / 16 % 1024 < 4)))
    ∧ (∃ (s : State) (v : Dword), s.Canonical ∧ s.hostLive = true ∧ s.unlocked chipPage = true ∧ s.bit chipPage CHIP.INJECT_GO = true)
    ∧ (∃ (s : State) (v : Dword), s.Canonical ∧ s.hostLive = true ∧ s.unlocked chipPage = false)
    ∧ (∃ (s : State) (r : Fin 3) (v : Dword), s.Canonical ∧ s.hostLive = true ∧ s.bit chipPage CHIP.live_LOADING = false)
    ∧ (∃ (s : State) (r : Fin 3) (v : Dword), s.Canonical ∧ s.hostLive = true ∧ s.bit chipPage CHIP.live_LOADING = true)
    ∧ (∃ (s : State) (v : Dword), s.Canonical ∧ s.hostLive = true) :=
  ⟨⟨jr [], 0xfffffffd, of_canonical (by decide +kernel), by decide +kernel⟩,
   ⟨jr [], of_canonical (by decide +kernel), by decide +kernel⟩,
   ⟨ck [], 0x3ff3, of_canonical (by decide +kernel), by decide +kernel⟩,
   ⟨ck [], 0x1001, of_canonical (by decide +kernel), by decide +kernel⟩,
   ⟨ck [(chipPage, CHIP.INJECT_GO, 1)], 0x5, of_canonical (by decide +kernel), by decide +kernel⟩,
   ⟨sets alive [(chipPage, CHIP.INJECT_GO, 1)], 0x5, of_canonical (by decide +kernel), by decide +kernel⟩,
   ⟨alive, 0, 0xffffffff, of_canonical (by decide +kernel), by decide +kernel⟩,
   ⟨sets alive [(chipPage, CHIP.live_LOADING, 1)], 1, 5, of_canonical (by decide +kernel), by decide +kernel⟩,
   ⟨alive, 0xdeadbeef, of_canonical (by decide +kernel), by decide +kernel⟩⟩

theorem witness_DmaTransfers :
    (∃ (s : State) (c : Fin 8) (r : Fin 3) (v : Dword), s.Canonical ∧ s.hostLive = true ∧ s.bit (dmacPage ↑c) DMAC.CTRL_EN = false)
    ∧ (∃ (s : State) (c : Fin 8) (r : Fin 3) (v : Dword), s.Canonical ∧ s.hostLive = true ∧ s.bit (dmacPage ↑c) DMAC.CTRL_EN = true)
    ∧ (∃ (s : State) (c : Fin 8) (pi : BitVec 16), s.Canonical ∧ s.hostLive = true ∧ s.bit (dmacPage ↑c) DMAC.CTRL_EN = true ∧ s.dState ↑c = 0 ∧ (s.dmaCh ↑c).cur = none ∧ s.mayFetch ↑c = true)
    ∧ (∃ (s : State) (c : Fin 8) (pi : BitVec 16), s.Canonical ∧ s.hostLive = true ∧ s.bit (dmacPage ↑c) DMAC.CTRL_EN = true ∧ s.dState ↑c = 0 ∧ (s.dmaCh ↑c).cur = none ∧ s.mayFetch ↑c = false)
    ∧ (∃ (s : State) (c : Fin 8) (pi : BitVec 16), s.Canonical ∧ s.hostLive = true ∧ s.bit (dmacPage ↑c) DMAC.CTRL_EN = true ∧ s.dState ↑c = 2)
    ∧ (∃ (s : State) (c : Fin 8) (pi : BitVec 16), s.Canonical ∧ s.hostLive = true ∧ s.dState ↑c = 4)
    ∧ (∃ (s : State) (c : Fin 8) (d : Desc), s.Canonical ∧ s.Alone ↑c ∧ s.hostLive = true ∧ (s.dmaCh ↑c).fetching = true ∧ (s.dmaCh ↑c).lostFetch = 0 ∧ s.engineFrozen ↑c = false ∧ s.granted s.aclk s.others (Access.fetch (↑c) (FetchResult.words d.dw0 d.dw1 d.dw2 d.dw3)) = true ∧ s.dmaOutstanding ≤ 57 ∧ getBits d.dw0 31 1 = 1 ∧ (s.dmaCh ↑c).cur = none ∧ s.dState ↑c = 1 ∧ s.modeServes ↑c = true ∧ (s.dmaCh ↑c).atEnd = false ∧ d.ok = true ∧ getBits d.dw0 0 24 ≠ 0)
    ∧ (∃ (s : State) (c : Fin 8) (d : Desc), s.Canonical ∧ s.Alone ↑c ∧ s.hostLive = true ∧ (s.dmaCh ↑c).fetching = true ∧ (s.dmaCh ↑c).lostFetch = 0 ∧ s.engineFrozen ↑c = false ∧ s.granted s.aclk s.others (Access.fetch (↑c) (FetchResult.words d.dw0 d.dw1 d.dw2 d.dw3)) = true ∧ s.dmaOutstanding ≤ 57 ∧ getBits d.dw0 31 1 = 0 ∧ (s.dmaCh ↑c).cur = none ∧ (s.dmaCh ↑c).ahead = none ∧ s.dState ↑c = 1 ∧ s.shadow (dmacPage ↑c + 68) = none ∧ (s.dmaCh ↑c).dbSince = true ∧ (s.dmaCh ↑c).second = false)
    ∧ (∃ (s : State) (c : Fin 8) (d : Desc), s.Canonical ∧ s.Alone ↑c ∧ s.hostLive = true ∧ (s.dmaCh ↑c).fetching = true ∧ (s.dmaCh ↑c).lostFetch = 0 ∧ s.engineFrozen ↑c = false ∧ s.granted s.aclk s.others (Access.fetch (↑c) (FetchResult.words d.dw0 d.dw1 d.dw2 d.dw3)) = true ∧ s.dmaOutstanding ≤ 57 ∧ getBits d.dw0 31 1 = 1 ∧ (s.dmaCh ↑c).cur = none ∧ s.dState ↑c = 1 ∧ s.modeServes ↑c = true ∧ (s.dmaCh ↑c).atEnd = false ∧ d.ok = false)
    ∧ (∃ (s : State) (c : Fin 8) (d : Desc), s.Canonical ∧ s.Alone ↑c ∧ s.hostLive = true ∧ (s.dmaCh ↑c).fetching = true ∧ (s.dmaCh ↑c).lostFetch = 0 ∧ s.engineFrozen ↑c = false ∧ s.granted s.aclk s.others (Access.fetch (↑c) (FetchResult.words d.dw0 d.dw1 d.dw2 d.dw3)) = true ∧ s.dmaOutstanding ≤ 57 ∧ getBits d.dw0 31 1 = 0 ∧ (s.dmaCh ↑c).cur = none ∧ (s.dmaCh ↑c).ahead = none ∧ s.dState ↑c = 1 ∧ s.shadow (dmacPage ↑c + 68) = none ∧ ((s.dmaCh ↑c).dbSince = false ∨ (s.dmaCh ↑c).second = true))
    ∧ (∃ (s : State) (c : Fin 8) (d : Desc), s.Canonical ∧ s.Alone ↑c ∧ s.Asked ↑c ∧ s.hostLive = true ∧ (s.dmaCh ↑c).fetching = true ∧ (s.dmaCh ↑c).lostFetch = 0 ∧ s.engineFrozen ↑c = false ∧ s.granted s.aclk s.others (Access.fetch (↑c) (FetchResult.words d.dw0 d.dw1 d.dw2 d.dw3)) = true ∧ s.dmaOutstanding ≤ 57 ∧ getBits d.dw0 31 1 = 1 ∧ (s.dmaCh ↑c).cur.isSome = true)
    ∧ (∃ (s : State) (c : Fin 8) (r : FetchResult) (k : Completion), s.Canonical ∧ s.Alone ↑c ∧ s.Asked ↑c ∧ s.hostLive = true ∧ s.granted s.aclk s.others (Access.fetch (↑c) r) = true ∧ r = FetchResult.failed k ∧ (s.dmaCh ↑c).fetching = true ∧ (s.dmaCh ↑c).lostFetch = 0 ∧ s.engineFrozen ↑c = false)
    ∧ (∃ (s : State) (c : Fin 8) (r : FetchResult) (d : Desc), s.Canonical ∧ s.Alone ↑c ∧ s.Asked ↑c ∧ s.hostLive = true ∧ s.granted s.aclk s.others (Access.fetch (↑c) r) = true ∧ r = FetchResult.words d.dw0 d.dw1 d.dw2 d.dw3 ∧ 0 < (s.dmaCh ↑c).lostFetch ∧ ((s.dmaCh ↑c).fetching = true ∨ s.dState ↑c ≠ 1))
    ∧ (∃ (s : State) (c : Fin 8) (r : FetchResult), s.Canonical ∧ s.Alone ↑c ∧ s.Asked ↑c ∧ s.hostLive = true ∧ s.granted s.aclk s.others (Access.fetch (↑c) r) = true ∧ (s.dmaCh ↑c).fetching = true ∧ (s.dmaCh ↑c).lostFetch = 0 ∧ s.engineFrozen ↑c = true)
    ∧ (∃ (s : State) (c : Fin 8) (d : Desc) (j : BitVec 6) (k : Completion) (bytes : List (BitVec 8)) (h : ℕ × ℕ × ℕ) (r : List (ℕ × ℕ × ℕ)), s.Canonical ∧ s.Alone ↑c ∧ s.Fetched ↑c ∧ s.hostLive = true ∧ (s.dmaCh ↑c).cur = some d ∧ s.readTurn = some ↑c ∧ (s.issueReq ↑c).granted s.aclk (s.issueReq ↑c).others (Access.move ↑c) = true ∧ (∃ n < 3, s.endpoint.maxPayload = 128 * 2 ^ n) ∧ List.take (min (s.fld (dmacPage ↑c) DMAC.CUR_LEFT_BYTES) (512 - s.pair (dmacPage ↑c) DMAC.CUR_HOST_LO % 512))     ((s.dmaCh ↑c).buf ++       List.flatMap (fun h => hostBytes (getBits d.dw0 24 4) (if (s.half h.1).integ = Integ.ok then some (s.half h.1).data else none) h.2.1 h.2.2)         (s.moveHalves (↑c) d)) ≠   [] ∧ s.moveHalves (↑c) d = h :: r ∧ (s.dmaCh ↑c).buf = [] ∧ s.gate (h.1 / 32768) 4 0 = Grant.violation)
    ∧ (∃ (s : State) (c : Fin 8) (d : Desc) (j : BitVec 6) (k : Completion) (bytes : List (BitVec 8)), s.Canonical ∧ s.Alone ↑c ∧ s.Fetched ↑c ∧ s.hostLive = true ∧ (s.dmaCh ↑c).cur = some d ∧ s.readTurn = some ↑c ∧ (s.issueReq ↑c).granted s.aclk (s.issueReq ↑c).others (Access.move ↑c) = true ∧ (∃ n < 3, s.endpoint.maxPayload = 128 * 2 ^ n) ∧ List.take (min (s.fld (dmacPage ↑c) DMAC.CUR_LEFT_BYTES) (512 - s.pair (dmacPage ↑c) DMAC.CUR_HOST_LO % 512))     ((s.dmaCh ↑c).buf ++       List.flatMap (fun h => hostBytes (getBits d.dw0 24 4) (if (s.half h.1).integ = Integ.ok then some (s.half h.1).data else none) h.2.1 h.2.2)         (s.moveHalves (↑c) d)) ≠   [] ∧ (∀ h ∈ s.moveHalves (↑c) d, s.gate (h.1 / 32768) 4 0 = Grant.granted ∧ ((s.half h.1).integ = Integ.ok ∨ (s.half h.1).integ = Integ.poison)))
    ∧ (∃ (s : State) (c : Fin 8) (d : Desc) (k : ℕ) (bytes : List (BitVec 8)), s.Canonical ∧ s.Alone ↑c ∧ s.Fetched ↑c ∧ s.Asked ↑c ∧ (∀ (h : ℕ), s.fld (dmacPage ↑c) DMAC.CUR_WORD_WORD / 4 ≤ h → h < s.fld (dmacPage ↑c) DMAC.CUR_WORD_WORD / 4 + k → s.gate (h / 32768) 5 0 = Grant.granted) ∧ s.hostLive = true ∧ 6 ≤ ↑c ∧ (s.dmaCh ↑c).cur = some d ∧ s.mayMove ↑c = true ∧ s.bit chipPage CHIP.INJECT_GO = false ∧ 0 < k ∧ (s.dmaCh ↑c).buf = [] ∧ (s.dmaCh ↑c).reads = [{ left := bytes.length, got := [], lost := false }] ∧ (∀ q ∈ s.reqs, q.access ≠ Access.move ↑c) ∧ (s.dataArrives (↑c) 0 Completion.good bytes).dmaServe.writeTurn = some ↑c ∧ ((s.dataArrives (↑c) 0 Completion.good bytes).dmaServe.issueReq ↑c).granted (s.dataArrives (↑c) 0 Completion.good bytes).dmaServe.aclk     ((s.dataArrives (↑c) 0 Completion.good bytes).dmaServe.issueReq ↑c).others (Access.move ↑c) =   true ∧ getBits d.dw0 24 4 ≤ 1 ∧ bytes.length = (if getBits d.dw0 24 4 = 0 then 9 else 16) * k ∧ (if getBits d.dw0 24 4 = 0 then 9 else 16) * k ≤ 512 ∧ (if getBits d.dw0 24 4 = 0 then 9 else 16) * k ≤ s.fld (dmacPage ↑c) DMAC.CUR_LEFT_BYTES ∧ s.fld (dmacPage ↑c) DMAC.CUR_WORD_WORD % 4 = 0)
    ∧ (∃ (s : State) (c : Fin 8) (d : Desc) (l₁ : List HostRead) (l₂ : List HostRead) (r : HostRead) (i : BitVec 6) (k : Completion) (bytes : List (BitVec 8)), s.Canonical ∧ s.Alone ↑c ∧ s.Fetched ↑c ∧ s.Asked ↑c ∧ s.hostLive = true ∧ 6 ≤ ↑c ∧ (s.dmaCh ↑c).cur = some d ∧ (s.dmaCh ↑c).reads = l₁ ++ r :: l₂ ∧ i.toNat = l₁.length ∧ k = Completion.good ∧ bytes ≠ [] ∧ bytes.length ≤ r.left ∧ r.lost = false ∧ (s.dmaCh ↑c).buf = [] ∧ Option.any (fun o => decide (0 < o.left) && !o.lost && o.got.isEmpty) l₁.head? = true ∧ (s.dataArrives (↑c) i.toNat k bytes).dmaServe.writeTurn ≠ some ↑c)
    ∧ (∃ (s : State) (c : Fin 8) (d : Desc) (l₁ : List HostRead) (l₂ : List HostRead) (r : HostRead) (i : BitVec 6) (k : Completion) (bytes : List (BitVec 8)), s.Canonical ∧ s.hostLive = true ∧ 6 ≤ ↑c ∧ (s.dmaCh ↑c).cur = some d ∧ (s.dmaCh ↑c).reads = l₁ ++ r :: l₂ ∧ i.toNat = l₁.length ∧ k ≠ Completion.good ∧ 0 < r.left ∧ r.lost = false ∧ s.engineFrozen ↑c = true ∧ (s.dataArrives (↑c) i.toNat k []).dmaServe.writeTurn ≠ some ↑c)
    ∧ (∃ (s : State) (c : Fin 8) (d : Desc) (l₁ : List HostRead) (l₂ : List HostRead) (r : HostRead) (i : BitVec 6) (k : Completion) (bytes : List (BitVec 8)), s.Canonical ∧ s.hostLive = true ∧ 6 ≤ ↑c ∧ (s.dmaCh ↑c).cur = some d ∧ (s.dmaCh ↑c).reads = l₁ ++ r :: l₂ ∧ i.toNat = l₁.length ∧ k ≠ Completion.good ∧ 0 < r.left ∧ r.lost = false ∧ s.engineFrozen ↑c = false)
    ∧ (∃ (s : State) (c : Fin 8) (k : Completion) (d : Desc), s.Canonical ∧ s.hostLive = true ∧ (s.dmaCh ↑c).cur = some d ∧ (s.dmaCh ↑c).readback = true ∧ s.engineFrozen ↑c = false ∧ (↑c < 6 ∧ k = Completion.good ∧ (s.dmaCh ↑c).backAt = none ∧ (s.dmaCh ↑c).lostBack = 0 ∨   6 ≤ ↑c ∧     (∀ q ∈ s.reqs, q.access ≠ Access.back ↑c) ∧       (s.issueReq ↑c).granted s.aclk (s.issueReq ↑c).others (Access.back ↑c) = true ∧         s.gate d.lastLine.1 5 0 = Grant.granted ∧           ∀ h ∈ [halfIdx d.lastLine.1 d.lastLine.2 0, halfIdx d.lastLine.1 d.lastLine.2 0 + 1], (s.half h).integ = Integ.ok ∨ (s.half h).integ = Integ.poison) ∧ (s.dmaCh ↑c).ahead = none ∧ (s.dmaCh ↑c).fetching = true ∧ s.dState ↑c ≠ 4)
    ∧ (∃ (s : State) (c : Fin 8) (k : Completion) (d : Desc), s.Canonical ∧ s.hostLive = true ∧ (s.dmaCh ↑c).cur = some d ∧ (s.dmaCh ↑c).readback = true ∧ s.engineFrozen ↑c = false ∧ 6 ≤ ↑c ∧ (∀ q ∈ s.reqs, q.access ≠ Access.back ↑c) ∧ (s.issueReq ↑c).granted s.aclk (s.issueReq ↑c).others (Access.back ↑c) = true ∧ s.gate d.lastLine.1 5 0 = Grant.violation)
    ∧ (∃ (s : State) (c : Fin 8) (k : Completion) (d : Desc), s.Canonical ∧ s.hostLive = true ∧ (s.dmaCh ↑c).cur = some d ∧ (s.dmaCh ↑c).readback = true ∧ s.engineFrozen ↑c = false ∧ k ≠ Completion.good ∧ ↑c < 6 ∧ (s.dmaCh ↑c).backAt = none ∧ (s.dmaCh ↑c).lostBack = 0)
    ∧ (∃ (s : State) (c : Fin 8) (k : Completion) (d : Desc), s.Canonical ∧ s.hostLive = true ∧ (s.dmaCh ↑c).cur = some d ∧ (s.dmaCh ↑c).readback = true ∧ s.engineFrozen ↑c = false ∧ (↑c < 6 ∧ k = Completion.good ∧ (s.dmaCh ↑c).backAt = none ∧ (s.dmaCh ↑c).lostBack = 0 ∨   6 ≤ ↑c ∧     (∀ q ∈ s.reqs, q.access ≠ Access.back ↑c) ∧       (s.issueReq ↑c).granted s.aclk (s.issueReq ↑c).others (Access.back ↑c) = true ∧         s.gate d.lastLine.1 5 0 = Grant.granted ∧           ∀ h ∈ [halfIdx d.lastLine.1 d.lastLine.2 0, halfIdx d.lastLine.1 d.lastLine.2 0 + 1], (s.half h).integ = Integ.ok ∨ (s.half h).integ = Integ.poison) ∧ s.dState ↑c = 4 ∧ (s.bit (dmacPage ↑c) DMAC.STATE_DB_PENDING = false ∨ s.bit (dmacPage ↑c) DMAC.CTRL_EN = false)) :=
  ⟨⟨off7, 7, 0, 0xffffffff, of_canonical (by decide +kernel), by decide +kernel⟩,
   ⟨dc 7 0 [] DmaCh.empty, 7, 1, 14, of_canonical (by decide +kernel), by decide +kernel⟩,
   ⟨dc 7 0 [] DmaCh.empty, 7, 14, of_canonical (by decide +kernel), by decide +kernel⟩,
   ⟨dc 7 0 [(dmaPage, ⟨0x24, 9, 1⟩, 1)] DmaCh.empty, 7, 14, of_canonical (by decide +kernel), by decide +kernel⟩,
   ⟨dc 7 2 [] { DmaCh.empty with fetching := true }, 7, 14, of_canonical (by decide +kernel), by decide +kernel⟩,
   ⟨dc 7 4 [] { DmaCh.empty with fetching := true }, 7, 14, of_canonical (by decide +kernel), by decide +kernel⟩,
   ⟨dc 2 1 [] { DmaCh.empty with fetching := true }, 2, desc 1 1 0 90 44 0x1000, of_canonical (by decide +kernel), by unfold State.Alone; decide +kernel, by decide +kernel⟩,
   ⟨dc 2 1 [] { DmaCh.empty with fetching := true, dbSince := true }, 2, desc 0 1 0 91 44 0x1000, of_canonical (by decide +kernel), by unfold State.Alone; decide +kernel, by decide +kernel⟩,
   ⟨dc 2 1 [] { DmaCh.empty with fetching := true }, 2, desc 1 1 0 91 44 0x1000, of_canonical (by decide +kernel), by unfold State.Alone; decide +kernel, by decide +kernel⟩,
   ⟨dc 2 1 [] { DmaCh.empty with fetching := true, dbSince := true, second := true }, 2, desc 0 1 0 91 44 0x1000, of_canonical (by decide +kernel), by unfold State.Alone; decide +kernel, by decide +kernel⟩,
   ⟨dc 2 1 [] { DmaCh.empty with fetching := true, cur := some (desc 1 1 1 8 3 5) }, 2, desc 1 1 0 91 44 0x1000, of_canonical (by decide +kernel), by unfold State.Alone; decide +kernel, of_asked (by decide +kernel), by decide +kernel⟩,
   ⟨dc 2 1 [] { DmaCh.empty with fetching := true }, 2, .failed .timeout, .timeout, of_canonical (by decide +kernel), by unfold State.Alone; decide +kernel, of_asked (by decide +kernel), by decide +kernel⟩,
   ⟨dc 2 1 [] { DmaCh.empty with fetching := true, cur := some (desc 1 1 1 8 3 5), lostFetch := 1 }, 2, .words 5 6 7 8, ⟨5, 6, 7, 8⟩, of_canonical (by decide +kernel), by unfold State.Alone; decide +kernel, of_asked (by decide +kernel), by decide +kernel⟩,
   ⟨fr 2 { DmaCh.empty with fetching := true }, 2, .words 5 6 7 8, of_canonical (by decide +kernel), by unfold State.Alone; decide +kernel, of_asked (by decide +kernel), by decide +kernel⟩,
   ⟨mv 2 (desc 1 1 1 90 131067 0x1000) 90 131067 5 [(32767, Half.fresh ra), (32768, Half.poisoned)] [], 2, desc 1 1 1 90 131067 0x1000, 0, .good, [], ((mv 2 (desc 1 1 1 90 131067 0x1000) 90 131067 5 [] []).moveHalves 2 (desc 1 1 1 90 131067 0x1000)).headD (0,0,0), ((mv 2 (desc 1 1 1 90 131067 0x1000) 90 131067 5 [] []).moveHalves 2 (desc 1 1 1 90 131067 0x1000)).tail, of_canonical (by decide +kernel), by unfold State.Alone; decide +kernel, by unfold State.Fetched; decide +kernel, by decide +kernel⟩,
   ⟨mv 2 dA 27 131068 4 [(32767, Half.fresh ra), (32768, Half.fresh rb)] [], 2, dA, 0, .good, [], of_canonical (by decide +kernel), by unfold State.Alone; decide +kernel, by unfold State.Fetched; decide +kernel, by decide +kernel⟩,
   ⟨mw 7 dA 27 131064 5 [(32767, ⟨ra, [0, 9], false⟩)] [⟨27, [], false⟩], 7, dA, 3, bts 27, of_canonical (by decide +kernel), by unfold State.Alone; decide +kernel, by unfold State.Fetched; decide +kernel, of_asked (by decide +kernel), from_half (by decide +kernel), by decide +kernel⟩,
   ⟨mw 7 (desc 1 1 1 90 131064 0x1000) 64 131064 5 [] [⟨48, [], false⟩, ⟨16, [], false⟩], 7, desc 1 1 1 90 131064 0x1000, [⟨48, [], false⟩], [], ⟨16, [], false⟩, 1, .good, bts 7, of_canonical (by decide +kernel), by unfold State.Alone; decide +kernel, by unfold State.Fetched; decide +kernel, of_asked (by decide +kernel), by decide +kernel⟩,
   ⟨sets (mw 7 (desc 1 1 1 90 131064 0x1000) 64 131064 5 [] [⟨48, [], false⟩, ⟨16, [], false⟩]) [(dmaPage, ⟨0x24, 9, 1⟩, 1)], 7, desc 1 1 1 90 131064 0x1000, [⟨48, [], false⟩], [], ⟨16, [], false⟩, 1, .error, [], of_canonical (by decide +kernel), by decide +kernel⟩,
   ⟨mw 7 (desc 1 1 1 90 131064 0x1000) 64 131064 5 [] [⟨48, [], false⟩, ⟨16, [], false⟩], 7, desc 1 1 1 90 131064 0x1000, [], [⟨16, [], false⟩], ⟨48, [], false⟩, 0, .error, [], of_canonical (by decide +kernel), by decide +kernel⟩,
   ⟨rbk 2 1 0 [(dmacPage 2, DMAC.BYTES_LO, 0xffffffff)], 2, .good, desc 1 1 0 90 44 7, of_canonical (by decide +kernel), by decide +kernel⟩,
   ⟨rbk 6 1 3 [(bankPage 0, BANK.OWNER_NOW_OWNER, 4)], 6, .good, desc 1 1 0 90 44 7, of_canonical (by decide +kernel), by decide +kernel⟩,
   ⟨rbk 2 1 0 [], 2, .timeout, desc 1 1 0 90 44 7, of_canonical (by decide +kernel), by decide +kernel⟩,
   ⟨rbk 2 4 0 [(dmacPage 2, DMAC.CTRL_ABORT, 1)], 2, .good, desc 1 1 0 90 44 7, of_canonical (by decide +kernel), by decide +kernel⟩⟩

theorem witness_DmaControl :
    (∃ (s : State) (v : Dword) (c : ℕ), s.Canonical ∧ s.hostLive = true ∧ c < 8 ∧ s.dState c ≠ 0 ∧ s.dState c ≠ 5)
    ∧ (∃ (s : State) (v : Dword), s.Canonical ∧ s.hostLive = true ∧ (∀ c < 8, s.dState c = 0 ∨ s.dState c = 5))
    ∧ (∃ (s : State) (c : Fin 8) (v : Dword), s.Canonical ∧ s.Alone ↑c ∧ s.Fetched ↑c ∧ s.Asked ↑c ∧ s.hostLive = true ∧ s.bit (dmacPage ↑c) DMAC.CTRL_PAUSE = false ∧ getBits v 2 2 = 0 ∧ getBits v 0 1 = 0 ∧ s.bit (dmacPage ↑c) DMAC.CTRL_EN = true ∧ s.dState ↑c ≠ 0 ∧ s.dState ↑c ≠ 5)
    ∧ (∃ (s : State) (c : Fin 8) (v : Dword), s.Canonical ∧ s.Alone ↑c ∧ s.Fetched ↑c ∧ s.Asked ↑c ∧ s.hostLive = true ∧ s.bit (dmacPage ↑c) DMAC.CTRL_PAUSE = false ∧ getBits v 2 2 = 0 ∧ getBits v 0 1 = 1 ∧ s.bit (dmacPage ↑c) DMAC.STATE_DB_PENDING = false ∧ s.dState ↑c = 1)
    ∧ (∃ (s : State) (c : Fin 8) (v : Dword), s.Canonical ∧ s.Alone ↑c ∧ s.Fetched ↑c ∧ s.Asked ↑c ∧ s.hostLive = true ∧ s.bit (dmacPage ↑c) DMAC.CTRL_PAUSE = false ∧ getBits v 2 2 = 0 ∧ getBits v 0 1 = 1 ∧ s.bit (dmacPage ↑c) DMAC.STATE_DB_PENDING = false ∧ s.dState ↑c = 0)
    ∧ (∃ (s : State) (c : Fin 8) (v : Dword), s.Canonical ∧ s.Alone ↑c ∧ s.Fetched ↑c ∧ s.Asked ↑c ∧ s.hostLive = true ∧ s.bit (dmacPage ↑c) DMAC.CTRL_PAUSE = false ∧ getBits v 2 2 = 0 ∧ getBits v 1 1 = 0 ∧ (s.bit (dmacPage ↑c) DMAC.STATE_DB_PENDING = false ∨ s.dState ↑c ≠ 0))
    ∧ (∃ (s : State) (c : Fin 8) (d : Desc), s.Canonical ∧ s.hostLive = true ∧ s.dState ↑c = 2 ∧ (s.dmaCh ↑c).readback = false ∧ s.waits ↑c = false ∧ (s.dmaCh ↑c).fetched = none ∧ (s.dmaCh ↑c).failed = false ∧ ↑c < 6 ∧ (s.dmaCh ↑c).cur = some d ∧ (s.dmaCh ↑c).buf ≠ [] ∧ (s.dmaCh ↑c).buf.length ≤ 512 ∧ (s.dmaCh ↑c).buf.length < s.fld (dmacPage ↑c) DMAC.CUR_LEFT_BYTES ∧ s.engineFrozen ↑c = false ∧ (∃ n < 3, s.endpoint.maxPayload = 128 * 2 ^ n))
    ∧ (∃ (s : State) (c : Fin 8), s.Canonical ∧ s.hostLive = true ∧ s.dState ↑c = 2 ∧ (s.dmaCh ↑c).readback = false ∧ s.waits ↑c = false ∧ (s.dmaCh ↑c).fetched = none ∧ (s.dmaCh ↑c).failed = false ∧ (s.dmaCh ↑c).buf = [])
    ∧ (∃ (s : State) (c : Fin 8) (v : Dword), s.Canonical ∧ s.hostLive = true ∧ s.bit (dmacPage ↑c) DMAC.CTRL_PAUSE = true ∧ getBits v 0 1 = 1 ∧ getBits v 2 2 = 0 ∧ s.bit (dmacPage ↑c) DMAC.STATE_DB_PENDING = false ∧ (s.dState ↑c = 2 ∨ s.dState ↑c = 3) ∧ (s.dmaCh ↑c).cur = none ∧ (s.dmaCh ↑c).ahead = none ∧ (s.dmaCh ↑c).atEnd = false ∧ (s.dmaCh ↑c).fetching = false ∧ (s.dmaCh ↑c).fetched = none ∧ s.mayFetch ↑c = true)
    ∧ (∃ (s : State) (c : Fin 8) (v : Dword), s.Canonical ∧ s.hostLive = true ∧ s.bit (dmacPage ↑c) DMAC.CTRL_PAUSE = true ∧ getBits v 0 1 = 1 ∧ getBits v 2 2 = 0 ∧ s.bit (dmacPage ↑c) DMAC.STATE_DB_PENDING = false ∧ (s.dState ↑c = 2 ∨ s.dState ↑c = 3) ∧ (s.dmaCh ↑c).cur = none ∧ (s.dmaCh ↑c).ahead = none ∧ (s.dmaCh ↑c).atEnd = true ∧ (s.dmaCh ↑c).dbSince = false)
    ∧ (∃ (s : State) (c : Fin 8) (v : Dword), s.Canonical ∧ s.Alone ↑c ∧ s.Asked ↑c ∧ s.hostLive = true ∧ s.bit (dmacPage ↑c) DMAC.CTRL_PAUSE = true ∧ getBits v 0 1 = 1 ∧ getBits v 2 2 = 0 ∧ s.bit (dmacPage ↑c) DMAC.STATE_DB_PENDING = false ∧ s.dState ↑c = 2 ∧ (s.dmaCh ↑c).cur.isSome = true ∧ ((s.dmaCh ↑c).fetching = true ∨ (s.dmaCh ↑c).ahead.isSome = true ∨ (s.dmaCh ↑c).atEnd = true))
    ∧ (∃ (s : State) (c : Fin 8) (v : Dword), s.Canonical ∧ s.hostLive = true ∧ s.bit (dmacPage ↑c) DMAC.CTRL_PAUSE = true ∧ getBits v 0 1 = 1 ∧ getBits v 2 2 = 0 ∧ s.bit (dmacPage ↑c) DMAC.STATE_DB_PENDING = false ∧ s.dState ↑c = 3 ∧ (s.dmaCh ↑c).cur.isSome = true)
    ∧ (∃ (s : State) (c : Fin 8) (v : Dword) (d : Desc), s.Canonical ∧ s.Alone ↑c ∧ s.hostLive = true ∧ s.bit (dmacPage ↑c) DMAC.CTRL_PAUSE = false ∧ getBits v 1 1 = 0 ∧ s.bit (dmacPage ↑c) DMAC.STATE_DB_PENDING = false ∧ getBits v 3 1 = 0 ∧ s.dState ↑c = 1 ∧ getBits v 0 1 = 1 ∧ (s.dmaCh ↑c).readback = false ∧ s.engineFrozen ↑c = false ∧ (s.dmaCh ↑c).cur = some d)
    ∧ (∃ (s : State) (c : Fin 8) (v : Dword), s.Canonical ∧ s.Alone ↑c ∧ s.hostLive = true ∧ s.bit (dmacPage ↑c) DMAC.CTRL_PAUSE = false ∧ getBits v 1 1 = 0 ∧ s.bit (dmacPage ↑c) DMAC.STATE_DB_PENDING = false ∧ getBits v 3 1 = 0 ∧ s.dState ↑c = 1 ∧ getBits v 0 1 = 1 ∧ (s.dmaCh ↑c).readback = false ∧ (s.dmaCh ↑c).cur = none)
    ∧ (∃ (s : State) (c : Fin 8) (v : Dword), s.Canonical ∧ s.Alone ↑c ∧ s.hostLive = true ∧ s.bit (dmacPage ↑c) DMAC.CTRL_PAUSE = false ∧ getBits v 1 1 = 0 ∧ s.bit (dmacPage ↑c) DMAC.STATE_DB_PENDING = false ∧ getBits v 3 1 = 0 ∧ s.dState ↑c = 1 ∧ getBits v 0 1 = 1 ∧ ((s.dmaCh ↑c).readback = true ∨ (s.dmaCh ↑c).cur.isSome = true ∧ s.engineFrozen ↑c = true))
    ∧ (∃ (s : State) (c : Fin 8) (v : Dword), s.Canonical ∧ s.Alone ↑c ∧ s.hostLive = true ∧ s.bit (dmacPage ↑c) DMAC.CTRL_PAUSE = false ∧ getBits v 1 1 = 0 ∧ s.bit (dmacPage ↑c) DMAC.STATE_DB_PENDING = false ∧ getBits v 3 1 = 0 ∧ (s.dState ↑c = 0 ∨ s.dState ↑c = 5))
    ∧ (∃ (s : State) (c : Fin 8) (v : Dword), s.Canonical ∧ s.hostLive = true ∧ s.bit (dmacPage ↑c) DMAC.CTRL_PAUSE = false ∧ getBits v 1 2 = 0 ∧ s.bit (dmacPage ↑c) DMAC.STATE_DB_PENDING = false ∧ s.dState ↑c = 5)
    ∧ (∃ (s : State) (c : Fin 8), s.Canonical ∧ s.hostLive = true ∧ s.dState ↑c = 1 ∧ s.fld dmaPage DMA.STALL_TO_US * 1000 ≠ 0 ∧ s.engineFrozen ↑c = false ∧ s.dmaStalled ↑c = true ∧ (s.dmaCh ↑c).since + s.fld dmaPage DMA.STALL_TO_US * 1000 ≤ s.time.tclk)
    ∧ (∃ (s : State) (c : Fin 8) (fetch : Bool), s.Canonical ∧ s.hostLive = true ∧ s.endpoint.timeoutOff = false ∧ s.engineFrozen ↑c = false ∧ (if fetch = true then (s.dmaCh ↑c).fetching = true ∧ (s.dmaCh ↑c).lostFetch = 0 else   (s.dmaCh ↑c).cur.isSome = true ∧     (Option.any (fun r => decide (0 < r.left) && !r.lost) (s.dmaCh ↑c).reads.head? = true ∨       (∀ r ∈ (s.dmaCh ↑c).reads, r.left = 0) ∧ (s.dmaCh ↑c).lostBack = 0 ∧ (s.dmaCh ↑c).readback = true ∧ (s.dmaCh ↑c).backAt = none ∧ ↑c < 6)))
    ∧ (∃ (s : State) (c : Fin 8), s.Canonical ∧ s.hostLive = true ∧ (s.fld dmaPage DMA.STALL_TO_US * 1000 = 0 ∨   s.time.tclk < (s.dmaCh ↑c).since + s.fld dmaPage DMA.STALL_TO_US * 1000 ∨ s.dmaStalled ↑c = false ∨ s.engineFrozen ↑c = true))
    ∧ (∃ (s : State) (c : Fin 8) (fetch : Bool), s.Canonical ∧ s.hostLive = true ∧ s.endpoint.timeoutOff = true)
    ∧ (∃ (s : State), s.Canonical ∧ s.live = true) :=
  ⟨⟨dc 2 3 [] DmaCh.empty, 1, 2, of_canonical (by decide +kernel), by decide +kernel⟩,
   ⟨dc 2 5 [] DmaCh.empty, 1, of_canonical (by decide +kernel), by decide +kernel⟩,
   ⟨dc 2 1 [] cA, 2, 0, of_canonical (by decide +kernel), by unfold State.Alone; decide +kernel, by unfold State.Fetched; decide +kernel, of_asked (by decide +kernel), by decide +kernel⟩,
   ⟨dc 2 1 [] cA, 2, 3, of_canonical (by decide +kernel), by unfold State.Alone; decide +kernel, by unfold State.Fetched; decide +kernel, of_asked (by decide +kernel), by decide +kernel⟩,
   ⟨dc 2 0 [] DmaCh.empty, 2, 3, of_canonical (by decide +kernel), by unfold State.Alone; decide +kernel, by unfold State.Fetched; decide +kernel, of_asked (by decide +kernel), by decide +kernel⟩,
   ⟨dc 2 0 [(dmacPage 2, DMAC.CTRL_EN, 0)] DmaCh.empty, 2, 0x70, of_canonical (by decide +kernel), by unfold State.Alone; decide +kernel, by unfold State.Fetched; decide +kernel, of_asked (by decide +kernel), by decide +kernel⟩,
   ⟨{ (mv 2 dA 27 131068 4 [] (bts 9)) with regs := (sets (mv 2 dA 27 131068 4 [] (bts 9)) [(dmacPage 2, DMAC.STATE_STATE, 2), (dmacPage 2, DMAC.CTRL_PAUSE, 1)]).regs }, 2, dA, of_canonical (by decide +kernel), by decide +kernel⟩,
   ⟨dc 2 2 [(dmacPage 2, DMAC.CTRL_PAUSE, 1)] { DmaCh.empty with cur := some dA }, 2, of_canonical (by decide +kernel), by decide +kernel⟩,
   ⟨dc 2 2 [(dmacPage 2, DMAC.CTRL_PAUSE, 1)] DmaCh.empty, 2, 1, of_canonical (by decide +kernel), by decide +kernel⟩,
   ⟨dc 2 3 [(dmacPage 2, DMAC.CTRL_PAUSE, 1)] { DmaCh.empty with atEnd := true }, 2, 1, of_canonical (by decide +kernel), by decide +kernel⟩,
   ⟨dc 2 2 [(dmacPage 2, DMAC.CTRL_PAUSE, 1)] { cA with asked := 90 }, 2, 1, of_canonical (by decide +kernel), by unfold State.Alone; decide +kernel, of_asked (by decide +kernel), by decide +kernel⟩,
   ⟨dc 2 3 [(dmacPage 2, DMAC.CTRL_PAUSE, 1), (dmacPage 2, DMAC.CUR_LEFT_BYTES, 18)] { DmaCh.empty with cur := some dA }, 2, 1, of_canonical (by decide +kernel), by decide +kernel⟩,
   ⟨dc 2 1 [] cA, 2, 5, dA, of_canonical (by decide +kernel), by unfold State.Alone; decide +kernel, by decide +kernel⟩,
   ⟨dc 2 1 [] { DmaCh.empty with fetching := true }, 2, 5, of_canonical (by decide +kernel), by unfold State.Alone; decide +kernel, by decide +kernel⟩,
   ⟨dc 2 1 [] { DmaCh.empty with cur := some dA, readback := true, atEnd := true }, 2, 5, of_canonical (by decide +kernel), by unfold State.Alone; decide +kernel, by decide +kernel⟩,
   ⟨dc 2 0 [] DmaCh.empty, 2, 5, of_canonical (by decide +kernel), by unfold State.Alone; decide +kernel, by decide +kernel⟩,
   ⟨dc 2 5 [] DmaCh.empty, 2, 9, of_canonical (by decide +kernel), by decide +kernel⟩,
   ⟨{ (dc 2 1 [(dmaPage, DMA.STALL_TO_US, 5)] { cA with since := 7 }) with time := { alive.time with tclk := 5007 } }, 2, of_canonical (by decide +kernel), by decide +kernel⟩,
   ⟨dc 2 1 [(dmaPage, DMA.STALL_TO_US, 5)] { cA with fetching := true, since := 7 }, 2, true, of_canonical (by decide +kernel), by decide +kernel⟩,
   ⟨dc 2 1 [(dmaPage, DMA.STALL_TO_US, 5)] { cA with fetching := true, since := 7 }, 2, of_canonical (by decide +kernel), by decide +kernel⟩,
   ⟨{ (dc 2 1 [] cA) with endpoint := { alive.endpoint with timeoutOff := true } }, 2, true, of_canonical (by decide +kernel), by decide +kernel⟩,
   ⟨dc 2 1 [] cA, of_canonical (by decide +kernel), by decide +kernel⟩⟩

end Sys2Proof.Tests.Hosting

namespace Sys2Proof.Tests.Resetting
open Sys2Proof Sys2Proof.Machine
set_option Elab.async false
set_option linter.unusedVariables false

def ra : Rec := ⟨0x08001, 5, 6, 7⟩
def noisy : State := { sets alive [(chipPage, CHIP.live_RUN_STATE, 3), (chipPage, CHIP.RESET_CAUSE_CAUSE, 1), (tbPage, TB.EPOCH_VALUE, 7), (svcPage, SVC.FRAMES, 5)] with store := [(5, Half.fresh ra)], journal := [[ra]], recordingRegions := 7 }
def held (f : Power → Power) : State := { State.reset with power := f { State.reset.power with causes := 3 } }
def cl (p : Power → Power) (l : List (Nat × Fld × Nat)) : State := { sets alive ([(chipPage, CHIP.live_CLUSTER, 1)] ++ l) with power := p alive.power }
def hot (l : List (Nat × Fld × Nat)) : State := { sets alive ([(chipPage, CHIP.live_RUN_STATE, 3), (regPage 7, REG.SLOT_EXEC, 1), (chipPage, CHIP.THERM_WARN_LEVEL, 400)] ++ l) with recordingRegions := 255 }

theorem witness_Resets :
    (∃ (s : State) (i : Instr), s.Canonical ∧ (i = Instr.resetNAssert ∨ i = Instr.testEnHigh))
    ∧ (∃ (s : State) (pin : ResetPin) (strap : Bool) (bad : List (BitVec 8)) (levels : BitVec 96) (ohms : Option ℕ), s.Canonical ∧ (match pin with     | ResetPin.none => s.power     | ResetPin.resetN =>       have __src := s.power;       { monitor := __src.monitor, resetN := false, svcHold := __src.svcHold, testEn := __src.testEn, startup := __src.startup,         selfTestDone := __src.selfTestDone, badFuses := __src.badFuses, configReady := __src.configReady, perst := __src.perst, causes := __src.causes,         clusterEntered := __src.clusterEntered, waking := __src.waking, wakeFrom := __src.wakeFrom, noHv := __src.noHv, noCore := __src.noCore,         noOther := __src.noOther, heart := __src.heart, alerted := __src.alerted }     | ResetPin.testEn =>       have __src := s.power;       { monitor := __src.monitor, resetN := __src.resetN, svcHold := __src.svcHold, testEn := false, startup := __src.startup,         selfTestDone := __src.selfTestDone, badFuses := __src.badFuses, configReady := __src.configReady, perst := __src.perst, causes := __src.causes,         clusterEntered := __src.clusterEntered, waking := __src.waking, wakeFrom := __src.wakeFrom, noHv := __src.noHv, noCore := __src.noCore,         noOther := __src.noOther, heart := __src.heart, alerted := __src.alerted }).monitor =   false ∧ (match pin with     | ResetPin.none => s.power     | ResetPin.resetN =>       have __src := s.power;       { monitor := __src.monitor, resetN := false, svcHold := __src.svcHold, testEn := __src.testEn, startup := __src.startup,         selfTestDone := __src.selfTestDone, badFuses := __src.badFuses, configReady := __src.configReady, perst := __src.perst, causes := __src.causes,         clusterEntered := __src.clusterEntered, waking := __src.waking, wakeFrom := __src.wakeFrom, noHv := __src.noHv, noCore := __src.noCore,         noOther := __src.noOther, heart := __src.heart, alerted := __src.alerted }     | ResetPin.testEn =>       have __src := s.power;       { monitor := __src.monitor, resetN := __src.resetN, svcHold := __src.svcHold, testEn := false, startup := __src.startup,         selfTestDone := __src.selfTestDone, badFuses := __src.badFuses, configReady := __src.configReady, perst := __src.perst, causes := __src.causes,         clusterEntered := __src.clusterEntered, waking := __src.waking, wakeFrom := __src.wakeFrom, noHv := __src.noHv, noCore := __src.noCore,         noOther := __src.noOther, heart := __src.heart, alerted := __src.alerted }).resetN =   false ∧ (match pin with     | ResetPin.none => s.power     | ResetPin.resetN =>       have __src := s.power;       { monitor := __src.monitor, resetN := false, svcHold := __src.svcHold, testEn := __src.testEn, startup := __src.startup,         selfTestDone := __src.selfTestDone, badFuses := __src.badFuses, configReady := __src.configReady, perst := __src.perst, causes := __src.causes,         clusterEntered := __src.clusterEntered, waking := __src.waking, wakeFrom := __src.wakeFrom, noHv := __src.noHv, noCore := __src.noCore,         noOther := __src.noOther, heart := __src.heart, alerted := __src.alerted }     | ResetPin.testEn =>       have __src := s.power;       { monitor := __src.monitor, resetN := __src.resetN, svcHold := __src.svcHold, testEn := false, startup := __src.startup,         selfTestDone := __src.selfTestDone, badFuses := __src.badFuses, configReady := __src.configReady, perst := __src.perst, causes := __src.causes,         clusterEntered := __src.clusterEntered, waking := __src.waking, wakeFrom := __src.wakeFrom, noHv := __src.noHv, noCore := __src.noCore,         noOther := __src.noOther, heart := __src.heart, alerted := __src.alerted }).svcHold =   false ∧ (match pin with     | ResetPin.none => s.power     | ResetPin.resetN =>       have __src := s.power;       { monitor := __src.monitor, resetN := false, svcHold := __src.svcHold, testEn := __src.testEn, startup := __src.startup,         selfTestDone := __src.selfTestDone, badFuses := __src.badFuses, configReady := __src.configReady, perst := __src.perst, causes := __src.causes,         clusterEntered := __src.clusterEntered, waking := __src.waking, wakeFrom := __src.wakeFrom, noHv := __src.noHv, noCore := __src.noCore,         noOther := __src.noOther, heart := __src.heart, alerted := __src.alerted }     | ResetPin.testEn =>       have __src := s.power;       { monitor := __src.monitor, resetN := __src.resetN, svcHold := __src.svcHold, testEn := false, startup := __src.startup,         selfTestDone := __src.selfTestDone, badFuses := __src.badFuses, configReady := __src.configReady, perst := __src.perst, causes := __src.causes,         clusterEntered := __src.clusterEntered, waking := __src.waking, wakeFrom := __src.wakeFrom, noHv := __src.noHv, noCore := __src.noCore,         noOther := __src.noOther, heart := __src.heart, alerted := __src.alerted }).testEn =   false ∧ holdsPart s.tap.instr = false ∧ s.power.startup = Startup.held)
    ∧ (∃ (s : State) (pin : ResetPin) (strap : Bool) (bad : List (BitVec 8)) (levels : BitVec 96) (ohms : Option ℕ), s.Canonical ∧ ((match pin with             | ResetPin.none => s.power             | ResetPin.resetN =>               have __src := s.power;               { monitor := __src.monitor, resetN := false, svcHold := __src.svcHold, testEn := __src.testEn, startup := __src.startup,                 selfTestDone := __src.selfTestDone, badFuses := __src.badFuses, configReady := __src.configReady, perst := __src.perst, causes := __src.causes,                 clusterEntered := __src.clusterEntered, waking := __src.waking, wakeFrom := __src.wakeFrom, noHv := __src.noHv, noCore := __src.noCore,                 noOther := __src.noOther, heart := __src.heart, alerted := __src.alerted }             | ResetPin.testEn =>               have __src := s.power;               { monitor := __src.monitor, resetN := __src.resetN, svcHold := __src.svcHold, testEn := false, startup := __src.startup,                 selfTestDone := __src.selfTestDone, badFuses := __src.badFuses, configReady := __src.configReady, perst := __src.perst, causes := __src.causes,                 clusterEntered := __src.clusterEntered, waking := __src.waking, wakeFrom := __src.wakeFrom, noHv := __src.noHv, noCore := __src.noCore,                 noOther := __src.noOther, heart := __src.heart, alerted := __src.alerted }).monitor ||           (match pin with             | ResetPin.none => s.power             | ResetPin.resetN =>               have __src := s.power;               { monitor := __src.monitor, resetN := false, svcHold := __src.svcHold, testEn := __src.testEn, startup := __src.startup,                 selfTestDone := __src.selfTestDone, badFuses := __src.badFuses, configReady := __src.configReady, perst := __src.perst, causes := __src.causes,                 clusterEntered := __src.clusterEntered, waking := __src.waking, wakeFrom := __src.wakeFrom, noHv := __src.noHv, noCore := __src.noCore,                 noOther := __src.noOther, heart := __src.heart, alerted := __src.alerted }             | ResetPin.testEn =>               have __src := s.power;               { monitor := __src.monitor, resetN := __src.resetN, svcHold := __src.svcHold, testEn := false, startup := __src.startup,                 selfTestDone := __src.selfTestDone, badFuses := __src.badFuses, configReady := __src.configReady, perst := __src.perst, causes := __src.causes,                 clusterEntered := __src.clusterEntered, waking := __src.waking, wakeFrom := __src.wakeFrom, noHv := __src.noHv, noCore := __src.noCore,                 noOther := __src.noOther, heart := __src.heart, alerted := __src.alerted }).resetN ||         (match pin with           | ResetPin.none => s.power           | ResetPin.resetN =>             have __src := s.power;             { monitor := __src.monitor, resetN := false, svcHold := __src.svcHold, testEn := __src.testEn, startup := __src.startup,               selfTestDone := __src.selfTestDone, badFuses := __src.badFuses, configReady := __src.configReady, perst := __src.perst, causes := __src.causes,               clusterEntered := __src.clusterEntered, waking := __src.waking, wakeFrom := __src.wakeFrom, noHv := __src.noHv, noCore := __src.noCore,               noOther := __src.noOther, heart := __src.heart, alerted := __src.alerted }           | ResetPin.testEn =>             have __src := s.power;             { monitor := __src.monitor, resetN := __src.resetN, svcHold := __src.svcHold, testEn := false, startup := __src.startup,               selfTestDone := __src.selfTestDone, badFuses := __src.badFuses, configReady := __src.configReady, perst := __src.perst, causes := __src.causes,               clusterEntered := __src.clusterEntered, waking := __src.waking, wakeFrom := __src.wakeFrom, noHv := __src.noHv, noCore := __src.noCore,               noOther := __src.noOther, heart := __src.heart, alerted := __src.alerted }).svcHold ||       (match pin with         | ResetPin.none => s.power         | ResetPin.resetN =>           have __src := s.power;           { monitor := __src.monitor, resetN := false, svcHold := __src.svcHold, testEn := __src.testEn, startup := __src.startup,             selfTestDone := __src.selfTestDone, badFuses := __src.badFuses, configReady := __src.configReady, perst := __src.perst, causes := __src.causes,             clusterEntered := __src.clusterEntered, waking := __src.waking, wakeFrom := __src.wakeFrom, noHv := __src.noHv, noCore := __src.noCore,             noOther := __src.noOther, heart := __src.heart, alerted := __src.alerted }         | ResetPin.testEn =>           have __src := s.power;           { monitor := __src.monitor, resetN := __src.resetN, svcHold := __src.svcHold, testEn := false, startup := __src.startup,             selfTestDone := __src.selfTestDone, badFuses := __src.badFuses, configReady := __src.configReady, perst := __src.perst, causes := __src.causes,             clusterEntered := __src.clusterEntered, waking := __src.waking, wakeFrom := __src.wakeFrom, noHv := __src.noHv, noCore := __src.noCore,             noOther := __src.noOther, heart := __src.heart, alerted := __src.alerted }).testEn ||     holdsPart s.tap.instr) =   true)
    ∧ (∃ (s : State) (i : Instr) (bit : ℕ), s.Canonical ∧ s.live = true ∧ s.bit chipPage CHIP.live_LOADING = false ∧ (i = Instr.perstN ∧ bit = 3 ∨ i = Instr.hotReset ∧ bit = 4)) :=
  ⟨⟨noisy, .resetNAssert, of_canonical (by decide +kernel), by decide +kernel⟩,
   ⟨held id, .none, true, [], 5, some 41, of_canonical (by decide +kernel), by decide +kernel⟩,
   ⟨held fun p => { p with testEn := true }, .resetN, false, [], 5, some 41, of_canonical (by decide +kernel), by decide +kernel⟩,
   ⟨{ noisy with dma := [(2, { DmaCh.empty with count := 7 })], msix := ⟨true, true, []⟩ }, .perstN, 3, of_canonical (by decide +kernel), by decide +kernel⟩⟩

theorem witness_ClusterAndHeat :
    (∃ (s : State), s.live = true ∧ s.inCluster = true ∧ s.power.clusterEntered = false)
    ∧ (∃ (s : State) (levels : BitVec 96), s.Canonical ∧ s.live = true ∧ s.inCluster = true ∧ s.power.waking = true ∧ s.power.clusterEntered = true ∧ s.power.heart / 4 ≠ (s.power.wakeFrom + 200000) / 4)
    ∧ (∃ (s : State) (v : BitVec 11), s.Canonical ∧ s.Calm ∧ s.live = true)
    ∧ (∃ (s : State) (code : BitVec 4) (loc : BitVec 30), s.Canonical ∧ s.Calm ∧ s.live = true ∧ 2 ≤ code.toNat ∧ code.toNat ≤ 6)
    ∧ (∃ (s : State) (id : BitVec 8), s.Accepts 7 id) :=
  ⟨⟨cl (fun p => { p with waking := true, wakeFrom := 7 }) [], by decide +kernel⟩,
   ⟨{ cl (fun p => { p with waking := true, clusterEntered := true, wakeFrom := 7 }) [] with time := { alive.time with tclk := 200007 } }, 0, of_canonical (by decide +kernel), by decide +kernel⟩,
   ⟨hot [], 460, of_canonical (by decide +kernel), by unfold State.Calm; decide +kernel, by decide +kernel⟩,
   ⟨hot [], 6, 5, of_canonical (by decide +kernel), by unfold State.Calm; decide +kernel, by decide +kernel⟩,
   ⟨sets alive [(chipPage, CHIP.live_RUN_STATE, 1)], 9, of_accepts (of_canonical (by decide +kernel)) (by decide +kernel)⟩⟩

end Sys2Proof.Tests.Resetting

namespace Sys2Proof.Tests.Powering
open Sys2Proof Sys2Proof.Machine
set_option Elab.async false
set_option linter.unusedVariables false

def ra : Rec := ⟨0x08001, 5, 6, 7⟩
def sv (l : List (Nat × Fld × Nat)) : State := { sets alive ([(svcPage, SVC.FRAMES, 0xffffffff), (svcPage, SVC.live_OUT_FULL, 1), (svcPage, SVC.MBOX_OUT, 0xdead)] ++ l) with svc := ⟨0x1234, 0x55, (0, 0), (0, 0)⟩, store := [(5, Half.fresh ra)] }
def quiet : State := sets alive [(swarmPage, SWARM.STATE_QUEEN, 1)]

theorem witness_Resets : ∃ (s : State) (bad : List (Fin 256 × BitVec 14 × Bool)), s.live = true ∧ s.bit tbPage TB.live_STARTED = true ∧ s.power.selfTestDone = false :=
  ⟨{ alive with power := { alive.power with selfTestDone := false } }, [(255, 16383, true), (0, 5, false)], by decide +kernel⟩

theorem witness_ClusterAndHeat : ∃ (s : State) (id : BitVec 8), s.Accepts 8 id :=
  ⟨{ sets alive [(chipPage, CHIP.live_CLUSTER, 1)] with power := { alive.power with clusterEntered := true } }, 9, of_accepts (of_canonical (by decide +kernel)) (by decide +kernel)⟩

theorem witness_ServiceAndTestPorts :
    (∃ (s : State) (i : Instr) (w : Dword), s.Canonical ∧ s.live = true ∧ s.power.noHv = false ∧ s.power.noCore = false ∧ (i = Instr.svcNop ∧ w = s.svc.response ∨   (∃ j, i = Instr.svcReadId j ∧ w = s.rd (chipPage + 64 + 4 * j.toNat)) ∨     i = Instr.svcReadHealth ∧ w = s.health ∨       i = Instr.svcReadMbox ∧ w = s.mailbox s.svc.outOld 84 ∨         (∃ v, (i = Instr.svcMboxLo v ∨ i = Instr.svcMboxHi v) ∧ w = s.health) ∨ i = Instr.svcReadCmd ∧ w = s.rd (chipPage + 84)))
    ∧ (∃ (s : State) (id : BitVec 8) (wake : Bool), s.Canonical ∧ s.live = true ∧ s.power.noHv = false ∧ s.power.noCore = false ∧ s.bit svcPage SVC.CTRL_CMD_EN = true ∧ s.cmdWaits Agent.svc = false ∧ s.run.pendingCmd = none ∧ s.run.lastId ≠ some id ∧ s.permitted (if wake = true then 8 else 7) = true)
    ∧ (∃ (s : State) (id : BitVec 8) (wake : Bool), s.Canonical ∧ s.live = true ∧ s.power.noHv = false ∧ s.power.noCore = false ∧ s.bit svcPage SVC.CTRL_CMD_EN = false)
    ∧ (∃ (s : State), s.Canonical ∧ s.live = true ∧ s.power.noHv = false ∧ s.power.noCore = false ∧ s.bit svcPage SVC.CTRL_HOLD_EN = true)
    ∧ (∃ (s : State), s.Canonical ∧ s.live = false ∧ s.power.noHv = false ∧ s.power.noCore = false)
    ∧ (∃ (s : State), s.Canonical ∧ s.power.noHv = false ∧ s.power.noCore = false)
    ∧ (∃ (s : State), s.power.noHv = false ∧ s.power.noCore = false)
    ∧ (∃ (s : State) (pins : BitVec 158) (next : BitVec 158), s.power.noHv = false ∧ s.power.noCore = false)
    ∧ (∃ (s : State) (pins : BitVec 158) (next : BitVec 158) (i : Instr) (code : BitVec 8) (captured : BitVec 158) (drive : BitVec 158), s.Canonical ∧ s.power.noHv = false ∧ s.power.noCore = false ∧ ((i = Instr.extest pins next ∧ code = 0 ∨ i = Instr.extestPulse pins next ∧ code = 6 ∨ i = Instr.extestTrain pins next ∧ code = 7) ∧     captured = pins ∧ drive = next ∨   (i = Instr.clamp ∧ code = 4 ∨ i = Instr.highz ∧ code = 5) ∧ captured = s.tap.shift ∧ drive = s.tap.drive)) :=
  ⟨⟨sv [], .svcNop, 0x1234, of_canonical (by decide +kernel), by decide +kernel⟩,
   ⟨sv [(svcPage, SVC.CTRL_CMD_EN, 1), (chipPage, CHIP.live_RUN_STATE, 1)], 9, false, of_canonical (by decide +kernel), by decide +kernel⟩,
   ⟨sv [(svcPage, SVC.CTRL_CMD_EN, 0)], 9, true, of_canonical (by decide +kernel), by decide +kernel⟩,
   ⟨sv [(svcPage, SVC.CTRL_HOLD_EN, 1)], of_canonical (by decide +kernel), by decide +kernel⟩,
   ⟨{ State.reset with power := { State.reset.power with svcHold := true } }, of_canonical (by decide +kernel), by decide +kernel⟩,
   ⟨sv [(svcPage, SVC.BAD_OPS, 0xffffffff)], of_canonical (by decide +kernel), by decide +kernel⟩,
   ⟨sv [], by decide +kernel⟩,
   ⟨sv [], 5, 6, by decide +kernel⟩,
   ⟨sv [], 5, 6, .extest 5 6, 0, 5, 6, of_canonical (by decide +kernel), by decide +kernel⟩⟩

theorem witness_StepRunsFront :
    (∃ (s : State) (c : Instr) (rest : List Instr), s.pending = c :: rest)
    ∧ (∃ (s : State), s.pending = [] ∧ s.live = false)
    ∧ (∃ (s : State), s.Quiet ∧ s.pending = [] ∧ s.live = true) :=
  ⟨⟨{ alive with pending := [.svcNop, .tapReset] }, .svcNop, [.tapReset], by decide +kernel⟩,
   ⟨State.reset, by decide +kernel⟩,
   ⟨quiet, of_quiet (by unfold State.Calm; decide +kernel) (by decide +kernel) (by decide +kernel) (by decide +kernel) (by decide +kernel), by decide +kernel⟩⟩

theorem witness_StepsKeepInvariant : ∃ (s : State), s.Inv :=
  ⟨alive, of_inv (of_canonical (by decide +kernel)) (by decide +kernel)⟩

end Sys2Proof.Tests.Powering

namespace Sys2Proof.Tests.Doorbells
open Sys2Proof Sys2Proof.Machine
set_option Elab.async false
set_option linter.unusedVariables false

def dc (c : Nat) (st : Nat) (l : List (Nat × Fld × Nat)) (x : DmaCh) : State := { sets alive ([(dmacPage c, DMAC.STATE_STATE, st), (dmacPage c, DMAC.CTRL_EN, 1), (dmacPage c, DMAC.RING_LO, 0x12340020), (dmacPage c, DMAC.RING_HI, 0x7), (dmacPage c, DMAC.RING_SIZE_SIZE_M1, 15), (dmacPage c, DMAC.INDEX_CI, 15)] ++ l) with dma := if x = DmaCh.empty then [] else [(c, x)] }
def desc (own irq fmt len word hl : Nat) : Desc := ⟨BitVec.ofNat 32 (own * 2^31 + irq * 2^30 + fmt * 2^24 + len), BitVec.ofNat 32 word, BitVec.ofNat 32 hl, 3⟩

theorem witness_HeldDoorbells :
    (∃ (s : State) (c : Fin 8) (pi : BitVec 16), s.Canonical ∧ s.hostLive = true ∧ s.bit (dmacPage ↑c) DMAC.CTRL_EN = true ∧ s.dState ↑c = 1)
    ∧ (∃ (s : State) (c : Fin 8) (pi : BitVec 16), s.Canonical ∧ s.hostLive = true ∧ (s.bit (dmacPage ↑c) DMAC.CTRL_EN = false ∨ s.dState ↑c = 5 ∨ s.dState ↑c = 3))
    ∧ (∃ (s : State) (c : Fin 8) (v : Dword), s.Canonical ∧ s.hostLive = true ∧ s.bit (dmacPage ↑c) DMAC.STATE_DB_PENDING = true ∧ getBits v 2 1 = 0 ∧ s.bit (dmacPage ↑c) DMAC.CTRL_EN = false ∧ s.bit (dmacPage ↑c) DMAC.CTRL_PAUSE = false ∧ s.dState ↑c = 0 ∧ getBits v 1 3 = 0)
    ∧ (∃ (s : State) (c : Fin 8) (v : Dword), s.Canonical ∧ s.hostLive = true ∧ s.bit (dmacPage ↑c) DMAC.STATE_DB_PENDING = true ∧ getBits v 2 1 = 0 ∧ s.bit (dmacPage ↑c) DMAC.CTRL_EN = true ∧ s.bit (dmacPage ↑c) DMAC.CTRL_PAUSE = false ∧ s.dState ↑c = 5 ∧ getBits v 0 3 = 1)
    ∧ (∃ (s : State) (c : Fin 8) (v : Dword), s.Canonical ∧ s.hostLive = true ∧ s.bit (dmacPage ↑c) DMAC.STATE_DB_PENDING = true ∧ getBits v 2 1 = 0 ∧ s.bit (dmacPage ↑c) DMAC.CTRL_PAUSE = true ∧ s.dState ↑c = 3 ∧ getBits v 0 1 = 1 ∧ getBits v 3 1 = 0)
    ∧ (∃ (s : State) (c : Fin 8) (v : Dword), s.Canonical ∧ s.Alone ↑c ∧ s.Asked ↑c ∧ s.hostLive = true ∧ s.bit (dmacPage ↑c) DMAC.STATE_DB_PENDING = true ∧ getBits v 2 1 = 0 ∧ s.mayFetch ↑c = true ∧ s.bit (dmacPage ↑c) DMAC.CTRL_PAUSE = true ∧ s.dState ↑c = 3 ∧ getBits v 0 1 = 1 ∧ getBits v 3 1 = 0 ∧ (s.dmaCh ↑c).fetching = false ∧ (s.dmaCh ↑c).fetched = none ∧ (s.dmaCh ↑c).cur.isSome = true ∧ (s.dmaCh ↑c).ahead = none ∧ (s.dmaCh ↑c).atEnd = false)
    ∧ (∃ (s : State) (c : Fin 8) (v : Dword), s.Canonical ∧ s.Alone ↑c ∧ s.Asked ↑c ∧ s.hostLive = true ∧ s.bit (dmacPage ↑c) DMAC.STATE_DB_PENDING = true ∧ getBits v 2 1 = 0 ∧ s.mayFetch ↑c = true ∧ s.bit (dmacPage ↑c) DMAC.CTRL_PAUSE = true ∧ s.dState ↑c = 3 ∧ getBits v 0 1 = 1 ∧ getBits v 3 1 = 0 ∧ (s.dmaCh ↑c).fetching = false ∧ (s.dmaCh ↑c).fetched = none ∧ (s.dmaCh ↑c).cur = none ∧ (s.dmaCh ↑c).ahead = none)
    ∧ (∃ (s : State) (c : Fin 8) (v : Dword), s.Canonical ∧ s.Alone ↑c ∧ s.Asked ↑c ∧ s.hostLive = true ∧ s.bit (dmacPage ↑c) DMAC.STATE_DB_PENDING = true ∧ getBits v 2 1 = 0 ∧ s.mayFetch ↑c = true ∧ s.bit (dmacPage ↑c) DMAC.CTRL_PAUSE = true ∧ s.dState ↑c = 3 ∧ getBits v 0 1 = 1 ∧ getBits v 3 1 = 0 ∧ (s.dmaCh ↑c).fetching = false ∧ (s.dmaCh ↑c).fetched = none ∧ (s.dmaCh ↑c).cur.isSome = true ∧ ((s.dmaCh ↑c).ahead.isSome = true ∨ (s.dmaCh ↑c).atEnd = true))
    ∧ (∃ (s : State) (c : Fin 8) (v : Dword), s.Canonical ∧ s.Alone ↑c ∧ s.Asked ↑c ∧ s.hostLive = true ∧ s.bit (dmacPage ↑c) DMAC.STATE_DB_PENDING = true ∧ getBits v 2 1 = 0 ∧ s.mayFetch ↑c = true ∧ s.bit (dmacPage ↑c) DMAC.CTRL_EN = false ∧ s.bit (dmacPage ↑c) DMAC.CTRL_PAUSE = false ∧ s.dState ↑c = 0 ∧ (s.dmaCh ↑c).cur = none ∧ getBits v 1 3 = 0)
    ∧ (∃ (s : State) (c : Fin 8) (v : Dword), s.Canonical ∧ s.Alone ↑c ∧ s.Asked ↑c ∧ s.hostLive = true ∧ s.bit (dmacPage ↑c) DMAC.STATE_DB_PENDING = true ∧ getBits v 2 1 = 0 ∧ s.mayFetch ↑c = true ∧ s.bit (dmacPage ↑c) DMAC.CTRL_EN = true ∧ s.bit (dmacPage ↑c) DMAC.CTRL_PAUSE = false ∧ s.dState ↑c = 5 ∧ (s.dmaCh ↑c).cur = none ∧ getBits v 0 3 = 1) :=
  ⟨⟨dc 2 1 [] { DmaCh.empty with fetching := true }, 2, 9, of_canonical (by decide +kernel), by decide +kernel⟩,
   ⟨dc 2 0 [(dmacPage 2, DMAC.CTRL_EN, 0)] DmaCh.empty, 2, 9, of_canonical (by decide +kernel), by decide +kernel⟩,
   ⟨dc 2 0 [(dmacPage 2, DMAC.CTRL_EN, 0), (dmacPage 2, DMAC.STATE_DB_PENDING, 1), (dmacPage 7, DMAC.STATE_STATE, 1)] DmaCh.empty, 2, 0x70, of_canonical (by decide +kernel), by decide +kernel⟩,
   ⟨dc 2 5 [(dmacPage 2, DMAC.STATE_DB_PENDING, 1), (dmaPage, ⟨0x24, 8, 1⟩, 1)] DmaCh.empty, 2, 1, of_canonical (by decide +kernel), by decide +kernel⟩,
   ⟨dc 2 3 [(dmacPage 2, DMAC.CTRL_PAUSE, 1), (dmacPage 2, DMAC.STATE_DB_PENDING, 1)] { DmaCh.empty with ahead := some (desc 1 1 0 91 44 7) }, 2, 1, of_canonical (by decide +kernel), by decide +kernel⟩,
   ⟨dc 2 3 [(dmacPage 2, DMAC.CTRL_PAUSE, 1), (dmacPage 2, DMAC.STATE_DB_PENDING, 1)] { DmaCh.empty with cur := some (desc 1 1 0 90 44 7) }, 2, 1, of_canonical (by decide +kernel), by unfold State.Alone; decide +kernel, of_asked (by decide +kernel), by decide +kernel⟩,
   ⟨dc 2 3 [(dmacPage 2, DMAC.CTRL_PAUSE, 1), (dmacPage 2, DMAC.STATE_DB_PENDING, 1)] { DmaCh.empty with atEnd := true }, 2, 1, of_canonical (by decide +kernel), by unfold State.Alone; decide +kernel, of_asked (by decide +kernel), by decide +kernel⟩,
   ⟨dc 2 3 [(dmacPage 2, DMAC.CTRL_PAUSE, 1), (dmacPage 2, DMAC.STATE_DB_PENDING, 1)] { DmaCh.empty with cur := some (desc 1 1 0 90 44 7), ahead := some (desc 1 1 0 90 44 7) }, 2, 1, of_canonical (by decide +kernel), by unfold State.Alone; decide +kernel, of_asked (by decide +kernel), by decide +kernel⟩,
   ⟨dc 2 0 [(dmacPage 2, DMAC.CTRL_EN, 0), (dmacPage 2, DMAC.STATE_DB_PENDING, 1)] DmaCh.empty, 2, 0x70, of_canonical (by decide +kernel), by unfold State.Alone; decide +kernel, of_asked (by decide +kernel), by decide +kernel⟩,
   ⟨dc 2 5 [(dmacPage 2, DMAC.STATE_DB_PENDING, 1)] DmaCh.empty, 2, 1, of_canonical (by decide +kernel), by unfold State.Alone; decide +kernel, of_asked (by decide +kernel), by decide +kernel⟩⟩

end Sys2Proof.Tests.Doorbells

namespace Sys2Proof.Tests.Scanning
open Sys2Proof Sys2Proof.Machine
set_option Elab.async false
set_option linter.unusedVariables false



theorem witness_TestInstructionsHold : ∃ (s : State) (j : Instr) (p₁ : BitVec 158) (n₁ : BitVec 158) (i : Instr) (p₂ : BitVec 158) (n₂ : BitVec 158), s.Canonical ∧ s.power.noHv = false ∧ s.power.noCore = false ∧ (j = Instr.tapReset ∨ j = Instr.idcode ∨ j = Instr.bypass ∨ j = Instr.samplePreload p₁ n₁) ∧ (i = Instr.extest p₂ n₂ ∨ i = Instr.extestPulse p₂ n₂ ∨ i = Instr.extestTrain p₂ n₂ ∨ i = Instr.clamp ∨ i = Instr.highz) :=
  ⟨alive, .tapReset, 0, 0, .highz, 5, 6, of_canonical (by decide +kernel), by decide +kernel⟩

end Sys2Proof.Tests.Scanning

namespace Sys2Proof.Tests.Cycles
open Sys2Proof Sys2Proof.Machine
set_option Elab.async false
set_option linter.unusedVariables false

def chOn (k : Nat) (l : List (Nat × Fld × Nat)) : State := sets alive ([(chPage k, PG.CTRL_RUN, 1), (chPage k, CH.POOL_STATUS_READY, 1), (chPage k, CH.EDGE_SEL, 2)] ++ l)
def wc (k : Nat) (l : List (Nat × Fld × Nat)) (f : Chan → Chan) : State := (chOn k l).modChan k f
def cv (r : Role) (b : Option Nat) : Conv := ⟨r, b, 0, CalTable.nominal⟩
def pool (l : List Conv) : List Conv := l ++ List.replicate (16 - l.length) (cv .active none) ++ [cv .nurse none]
def goodDuty : Duty := ⟨List.replicate 32 32, 256, 257, 2, 60000⟩
def dutyS (rej : Nat) : State := { wc 40 [(chPage 40, CH.POOL_CTRL_NURSE_EN, 1), (chPage 40, CH.ROTATIONS, 0xffffffff)] (fun c => { c with duty := some 5, convs := List.replicate 16 (cv .active none) ++ [{ cv .nurse none with rejects := rej }] }) with time := { alive.time with tclk := 131077 } }
def tk (mode : Nat) (e : List Rec) : State := { sets (issuing 300 (.take 11 3 8 mode)) [(blkPage 18, BLK.FIFO_CFG_EN, 0xfff)] with fifos := Tab.set (fun _ => Fifo.empty) [] 227 { Fifo.empty with entries := e } }
def en (toBank : Bool) (left : Nat) : State :=
  let s := sets alive [(blkPage 63, BLK.XFER_STATUS_BUSY, 1), (blkPage 63, BLK.XFER_STATUS_LEFT, left), (blkPage 63, BLK.XFER_STATUS_BANK, 31), (blkPage 63, BLK.XFER_STATUS_LINE, 0x3fff), (bankPage 255, BANK.OWNER_NOW_OWNER, 3 + 16 * 7)]
  let s := (s.setHalf (halfIdx 255 0x3fff 1) (Half.fresh ⟨1, 2, 3, 4⟩)).setSword 63 4089 ⟨99, false, false⟩
  s.setEngine 63 ⟨toBank, 4088, false⟩
def par : State := (issuing 300 (.rsnd 63 1)).setIword 300 8 ⟨0x700000000, true⟩ |>.setIword 300 3 ⟨BitVec.ofNat 36 (31 * 2 ^ 30 + opWord (.csnd 127 1)), false⟩
def prt (p role st : Nat) : List (Nat × Fld × Nat) := [(linkPage p, LINK.CTRL_EN, 1), (linkPage p, LINK.CTRL_ROLE, role), (linkPage p, LINK.STATE_LSTATE, st)]
def upOn (p : Nat) : List (Nat × Fld × Nat) := [(swarmPage, SWARM.STATE_UP_VALID, 1), (swarmPage, SWARM.STATE_UPPORT, p), (swarmPage, SWARM.STATE_QUEEN, 0), (swarmPage, SWARM.STATE_MEMBER, 2), (chipPage, CHIP.live_MEMBER, 1), (swarmPage, SWARM.STATE_ALIGN, 2)]
def frm (seq : Nat) (x : Payload) : Frame := ⟨BitVec.ofNat 12 seq, 9, 0, 4, x⟩
def ua (seq first sent : Nat) : Unacked := ⟨frm seq (.joinReply 5 true false), first, sent⟩
def lnk (p : Nat) (l : LinkSt) (r : List (Nat × Fld × Nat)) : State := { sets alive r with links := [(p, l)] }
def L0 : LinkSt := { LinkSt.init with rx := 4, tx := 3 }
def ra : Rec := ⟨0x08001, 5, 6, 7⟩
def sv (l : List (Nat × Fld × Nat)) : State := { sets alive ([(svcPage, SVC.FRAMES, 0xffffffff), (svcPage, SVC.live_OUT_FULL, 1), (svcPage, SVC.MBOX_OUT, 0xdead)] ++ l) with svc := ⟨0x1234, 0x55, (0, 0), (0, 0)⟩, store := [(5, Half.fresh ra)] }
def inRun (st : Nat) (l : List (Nat × Fld × Nat)) : State := sets alive ([(chipPage, CHIP.live_RUN_STATE, st), (chipPage, CHIP.live_READY, 1)] ++ l)
def NOW : DTime := 0x123456789abcd000
def trg (sq : Nat) : Trig := ⟨999, 2, sq, 25, 0, 0, NOW - 0x4000, NOW, 300, 7, 0⟩
def trigS (cfg : Nat) (l : List (Nat × Fld × Nat)) : State :=
  { sets alive ([(regPage 2, ⟨0x200 + 4 * 5, 0, 32⟩, cfg), (chipPage, CHIP.TRIG_IO_OUT_EN, 1), (regPage 2, REG.TRIG_COUNT, 0xffffffff)] ++ l) with trigs := [trg 5] }
def capS (n : Nat) (l : List (Nat × Fld × Nat)) : State :=
  (sets (trigS (2 ^ (12 + n)) []) ([(regPage n, REG.SLOT_EXEC, 1), (regPage n, REG.CAP_CTRL_MODE, 2), (regPage n, REG.CAP_STATUS_PHASE, 1), (regPage n, REG.CAP_RING_COUNT, 4), (regPage n, REG.CAP_PRE_VALUE, 5), (regPage n, REG.CAP_POST_VALUE, 7), (chipPage, CHIP.live_RUN_STATE, 3)] ++ l))
def rb : Rec := ⟨0x38002, 8, 9, 0x3ffff⟩
def bw : State := { sets alive [(bankPage 0, BANK.OWNER_NOW_OWNER, 6), (bankPage 1, BANK.OWNER_NOW_OWNER, 6)] with store := [(32767, Half.fresh ra), (32768, Half.fresh rb)] }
def jmp (nat : Option (Nat × Nat)) : State := let s := capS 2 [(regPage 2, REG.JUMPS_ABSORBED, 0xffffffff), (regPage 2, REG.CAP_CTRL_MODE, 3), (regPage 2, REG.CAP_CTRL_NSEG_M1, 7)]
  s.setCap 2 { s.cap 2 with jumpDue := true, stopped := false, natural := nat }
def wl (l : List (Nat × Fld × Nat)) : State := let s := capS 2 l
  { s with lanes := [(2, ⟨500, 32, [], 0, 0⟩)] }.setWriter 2 { s.writer 2 with entered := true, queue := [⟨5, [ra]⟩] }
def run5 : List (Nat × Fld × Nat) := [(synPage 5, PG.CTRL_RUN, 1), (synPage 5, SYN.CTRL_EN, 1), (synPage 5, SYN.FREQ, 9 * 2^24 + 5)]
def sy (l : List (Nat × Fld × Nat)) (k : Bool) (x : Syn) : State := let s := { sets alive (run5 ++ l) with syns := if x = Syn.init then [] else [(5, x)], time := { alive.time with tclk := 200000 } }; if k then s.setKey (synPage 5) true else s

theorem witness_CommandJudgement : ∃ (s : State) (id : BitVec 8) (x : ℕ × (BitVec 8 → Instr)), x ∈ runCommands ∧ s.hostLive = true ∧ s.cmdWaits Agent.pcie = true :=
  ⟨{ inRun 0 [] with run := { State.reset.run with heldCmds := [(.pcie, 0x108)] } }, 0xff, (3, .cmdStart), by decide +kernel⟩

theorem witness_CyclesEnd :
    (∃ (s : State) (n : ℕ), s.Canonical ∧ n < 8 ∧ (s.cap n).jumpDue = true ∧ (∀ (p : ℕ × ℕ), (s.cap n).natural = some p → p.1 ≠ s.time.tclk) ∧ s.capPhase n ≠ 3 ∧ (s.cap n).stopped = false ∧ s.capSeg n + 1 < s.segments n)
    ∧ (∃ (s : State) (n : ℕ) (seg : ℕ), s.Canonical ∧ n < 8 ∧ (s.cap n).jumpDue = true ∧ (s.cap n).natural = some (s.time.tclk, seg))
    ∧ (∃ (s : State) (n : ℕ) (cause : ℕ) (detail : ℕ) (at_ : DTime) (m : ℕ), s.Canonical ∧ n < 8 ∧ s.run.chipStops = [(n, cause, detail, at_)] ∧ m < 8 ∧ m ≠ n)
    ∧ (∃ (s : State), s.Canonical ∧ s.power.heart % 4 = 3)
    ∧ (∃ (s : State), s.Canonical ∧ s.power.heart % 4 ≠ 3)
    ∧ (∃ (s : State), s.railLow = true)
    ∧ (∃ (s : State), s.railLow = false ∧ holdsPart s.tap.instr = false ∧ s.live = false)
    ∧ (∃ (s : State), s.railLow = false ∧ holdsPart s.tap.instr = false ∧ s.live = true) :=
  ⟨⟨jmp (some (999, 3)), 2, of_canonical (by decide +kernel), by decide +kernel⟩,
   ⟨jmp (some (1000, 3)), 2, 3, of_canonical (by decide +kernel), by decide +kernel⟩,
   ⟨{ inRun 3 [] with recordingRegions := 0x81, run := { State.reset.run with chipStops := [(7, 2, 460, 5)] } }, 7, 2, 460, 5, 0, of_canonical (by decide +kernel), by decide +kernel⟩,
   ⟨{ alive with power := { alive.power with heart := 3 } }, of_canonical (by decide +kernel), by decide +kernel⟩,
   ⟨{ alive with power := { alive.power with heart := 4 }, rcNew := [] }, of_canonical (by decide +kernel), by decide +kernel⟩,
   ⟨{ State.reset with power := { State.reset.power with noOther := true } }, by decide +kernel⟩,
   ⟨State.reset, by decide +kernel⟩,
   ⟨sets alive [(tbPage, TB.live_LOCKED, 1)], by decide +kernel⟩⟩

theorem witness_RequestsWait :
    (∃ (s : State) (others : List Request) (a : Access) (raised : ℕ) (n : ℕ), s.laneRegion a = some n ∧ 32 ≤ (s.lanesNow n).used)
    ∧ (∃ (s : State) (others : List Request) (a : Access) (raised : ℕ) (b : ℕ) (line : ℕ), (b, line) ∈ s.linesOf a ∧ (s.draining b = true ∨ s.filling b = true))
    ∧ (∃ (s : State) (others : List Request) (a : Access) (q : Request) (raised : ℕ) (r : ℕ) (k : ℕ), s.chipRank a = some r ∧ q ∈ others ∧ s.chipRank q.access = some k ∧ s.bankWaits q.access = false ∧ (q.raised < raised ∨ q.raised = raised ∧ k < r))
    ∧ (∃ (s : State) (c : ℕ) (at_ : ℕ) (w : ℕ) (n : ℕ) (got : List Dword) (r : FetchResult) (ds : List (BitVec 4 × Dword)) (p : ℕ) (bank : ℕ) (line : ℕ) (r0 : Rec) (r1 : Rec) (i : ℕ) (pad : Bool), 8 ≤ i ∧ s.remote (i - 8) = true)
    ∧ (∃ (s : State) (i : Fin 16), s.granted s.aclk s.others (Access.line (↑i) false) = false)
    ∧ (∃ (s : State) (i : Fin 16), s.granted s.aclk s.others (Access.line (↑i) true) = false)
    ∧ (∃ (s : State) (g : Fin 64), s.granted s.aclk s.others (Access.engine ↑g) = false)
    ∧ (∃ (s : State) (w : BitVec 25) (n : Fin 1025), s.hostLive = true ∧ s.granted s.aclk s.others (Access.hostRead (4 * w.toNat) w.toNat ↑n []) = false)
    ∧ (∃ (s : State) (w : BitVec 25) (ds : List (BitVec 4 × Dword)), s.hostLive = true ∧ s.granted s.aclk s.others (Access.hostWrite w.toNat ds) = false)
    ∧ (∃ (s : State) (q : Request), s.reqs = [q] ∧ s.granted q.raised [] q.access = true) :=
  ⟨⟨{ bw with lanes := [(0, ⟨500, 32, [], 0, 0⟩)] }, [], .hostRead 524276 131069 9 [], 5, 0, by decide +kernel⟩,
   ⟨bw.setShadow (bankPage 1 + 0x40) (some 4), [], .hostRead 524292 131073 9 [], 5, 1, 0, by decide +kernel⟩,
   ⟨bw, [⟨5, .move 6⟩], .hostRead 524276 131069 9 [], ⟨5, .move 6⟩, 5, 6, 4, by decide +kernel⟩,
   ⟨(alive.setFld swarmPage (remoteEn 7) 1), 6, 0, 1, 9, [], .words 0 0 0 0, [], 3, 7, 8, ra, rb, 15, true, by decide +kernel⟩,
   ⟨wl [], 2, by decide +kernel⟩,
   ⟨wl [], 2, by decide +kernel⟩,
   ⟨{ en true 5 with lanes := [(7, ⟨500, 32, [], 0, 0⟩)] }, 63, by decide +kernel⟩,
   ⟨{ bw with lanes := [(0, ⟨500, 32, [], 0, 0⟩)] }, 131069, 9, by decide +kernel⟩,
   ⟨{ bw with lanes := [(0, ⟨500, 32, [], 0, 0⟩)] }, 131069, [(7, 5)], by decide +kernel⟩,
   ⟨{ bw with reqs := [⟨3, .hostRead 524276 131069 9 []⟩] }, ⟨3, .hostRead 524276 131069 9 []⟩, by decide +kernel⟩⟩

theorem witness_OwnEffects :
    (∃ (s : State) (k : Fin 96) (d : Duty) (u : ℕ) (j : ℕ), s.Canonical ∧ (s.chan ↑k).convs.length = 17 ∧ (s.chan ↑k).duty = some u ∧ (s.chan ↑k).nurse = some j ∧ s.rotationOk ↑k = true ∧ u + 131072 ≤ s.time.tclk ∧ s.bit (chPage ↑k) CH.POOL_CTRL_NURSE_EN = true ∧ dutyOk d ((s.chan ↑k).conv j).table = true)
    ∧ (∃ (s : State) (k : Fin 96) (n : ℕ) (o : ℕ), s.Canonical ∧ s.canTake (↑k) o ∧ (s.chan ↑k).convs.length = 17 ∧ (s.chan ↑k).accepted = true ∧ (s.chan ↑k).nurse = some n ∧ (s.chan ↑k).nextActive n = some o)
    ∧ (∃ (s : State) (k : Fin 96) (o : ℕ), s.Canonical ∧ s.canTake (↑k) o ∧ (s.chan ↑k).convs.length = 17 ∧ (s.chan ↑k).nurse = none ∧ (s.chan ↑k).failed = false ∧ (s.chan ↑k).awaitNurse = true ∧ s.bit (chPage ↑k) CH.POOL_STATUS_READY = true ∧ (s.chan ↑k).nextActive (s.chan ↑k).lastNurse = some o)
    ∧ (∃ (s : State) (i : Fin 6) (j : Fin 3) (v : Dword) (levels : Dword) (index : BitVec 4) (slot : BitVec 4), s.Canonical ∧ s.hostLive = true ∧ s.unlocked (synPage ↑i) = true ∧ s.betweenRuns = true ∧ (∀ k < 6, k ≠ ↑i → s.rd (synPage k + (92 + 4 * ↑j)) &&& v = 0))
    ∧ (∃ (s : State) (i : Fin 6) (j : Fin 3) (v : Dword) (levels : Dword) (index : BitVec 4) (slot : BitVec 4), s.Canonical ∧ s.hostLive = true ∧ s.unlocked (synPage ↑i) = true ∧ s.bit (synPage ↑i) PG.CTRL_RUN = false)
    ∧ (∃ (s : State) (i : Fin 6) (j : Fin 3) (v : Dword) (levels : Dword) (index : BitVec 4) (slot : BitVec 4), s.Canonical ∧ s.hostLive = true ∧ s.unlocked (synPage ↑i) = true ∧ s.bit (synPage ↑i) PG.CTRL_RUN = true)
    ∧ (∃ (s : State) (i : Fin 6) (j : Fin 3) (v : Dword) (levels : Dword) (index : BitVec 4) (slot : BitVec 4), s.Canonical ∧ s.hostLive = true ∧ s.bit (synPage ↑i) PG.CTRL_RUN = true ∧ (getBits v 4 1 = 1 → s.calTaken ↑i = false))
    ∧ (∃ (s : State) (i : Fin 6) (j : Fin 3) (v : Dword) (levels : Dword) (index : BitVec 4) (slot : BitVec 4), s.Canonical ∧ s.hostLive = true ∧ s.bit (synPage ↑i) PG.CTRL_RUN = true ∧ bitOf (s.fld (synPage ↑i) (profFreq index.toNat)) 31 = true)
    ∧ (∃ (s : State) (i : Fin 6) (band : BitVec 5) (tune : BitVec 8) (ohms : Option ℕ), s.Canonical ∧ s.live = true ∧ s.synOn ↑i = true ∧ s.rootOk = true ∧ (s.syn ↑i).lost = true ∧ s.bit (synPage ↑i) SYN.live_HOLD = true)
    ∧ (∃ (s : State) (i : Fin 6) (band : BitVec 5) (tune : BitVec 8) (ohms : Option ℕ) (t0 : ℕ), s.Canonical ∧ s.live = true ∧ s.synOn ↑i = true ∧ (s.syn ↑i).search = some t0 ∧ t0 + 40000 ≤ s.time.tclk)
    ∧ (∃ (s : State) (i : Fin 6) (band : BitVec 5) (tune : BitVec 8) (ohms : Option ℕ) (t0 : ℕ), s.Canonical ∧ s.live = true ∧ s.synOn ↑i = true ∧ (s.syn ↑i).search = some t0 ∧ t0 + 200000 ≤ s.time.tclk)
    ∧ (∃ (s : State) (i : Fin 6) (band : BitVec 5) (tune : BitVec 8) (ohms : Option ℕ), s.Canonical ∧ s.live = true ∧ s.synOn ↑i = true ∧ s.bit (synPage ↑i) SYN.CTRL_EN = true ∧ s.zq = none)
    ∧ (∃ (s : State) (i : Fin 6) (band : BitVec 5) (tune : BitVec 8) (ohms : Option ℕ), s.Canonical ∧ s.live = true ∧ s.synOn ↑i = true ∧ s.bit (synPage ↑i) SYN.live_OUT_ON = true ∧ s.fld (synPage ↑i) SYN.STATUS_DELAY_NOW < s.fld (synPage ↑i) SYN.DELAY_TARGET)
    ∧ (∃ (s : State) (i : Fin 6) (band : BitVec 5) (tune : BitVec 8) (ohms : Option ℕ), s.Canonical ∧ s.live = true ∧ s.synOn ↑i = true ∧ (s.syn ↑i).hop.isSome = true)
    ∧ (∃ (s : State) (g : Fin 64), s.Canonical ∧ s.bit (blkPage ↑g) BLK.XFER_STATUS_BUSY = true ∧ s.bit (blkPage ↑g) BLK.XFER_STATUS_FROZEN = false ∧ s.bit (blkPage ↑g) BLK.live_HALTED = false ∧ 0 < s.fld (blkPage ↑g) BLK.XFER_STATUS_LEFT ∧ s.granted s.aclk s.others (Access.engine ↑g) = true ∧ s.gate (32 * (↑g / 8) + s.fld (blkPage ↑g) BLK.XFER_STATUS_BANK) 3 (↑g % 8) = Grant.granted)
    ∧ (∃ (s : State) (c : Fin 1024) (w : IWord), s.Canonical ∧ s.fetchCell ↑c = some w)
    ∧ (∃ (s : State) (c : Fin 1024) (w : IWord), s.Canonical ∧ s.run.endRun = none ∧ s.fetchCell ↑c = some w ∧ w.bad = false ∧ s.injectArmed 3 ↑c = false ∧ decodeInstr w.word = none ∧ (s.cellNow ↑c).pred (bitsOf w.word.toNat 30 5) = { val := !bitOf w.word.toNat 35, poison := false } ∧ s.bit (regPage (↑c / 128)) REG.live_FAULT = false)
    ∧ (∃ (s : State) (n : Fin 8) (code : Fin 4) (bank : Fin 32), s.Canonical ∧ s.live = true ∧ s.run.endRun = none ∧ s.bit (regPage ↑n) REG.live_FAULT = false)
    ∧ (∃ (s : State) (c : Fin 1024) (neg : Bool) (gp : Bool) (g : ℕ) (f : ℕ) (v : ℕ) (d : ℕ) (r : Rec) (l : List Rec), s.FirstTake (↑c) f ∧ s.Issues ↑c { neg := neg, guard := g, op := CellOp.take f v d 0 } gp ∧ s.takeable (12 * (↑c / 16) + f) = r :: l)
    ∧ (∃ (s : State) (c : Fin 1024) (neg : Bool) (gp : Bool) (g : ℕ) (f : ℕ) (v : ℕ) (d : ℕ) (r : Rec) (l : List Rec), s.FirstTake (↑c) f ∧ s.Issues ↑c { neg := neg, guard := g, op := CellOp.take f v d 1 } gp ∧ s.takeable (12 * (↑c / 16) + f) = r :: l)
    ∧ (∃ (s : State) (c : Fin 1024) (neg : Bool) (gp : Bool) (g : ℕ) (f : ℕ) (v : ℕ) (d : ℕ) (r : Rec) (l : List Rec), s.FirstTake (↑c) f ∧ s.Issues ↑c { neg := neg, guard := g, op := CellOp.take f v d 2 } gp ∧ s.takeable (12 * (↑c / 16) + f) = r :: l)
    ∧ (∃ (s : State) (p : Fin 4) (u : Unacked) (r : List Unacked), s.Canonical ∧ s.Calm ∧ s.swarm.runs = [] ∧ s.live = true ∧ s.inCluster = false ∧ 2 ≤ s.lstate ↑p ∧ (s.link ↑p).unacked = u :: r ∧ s.roundTrip ↑p + 2000 * 1024 ≤ s.elapsed u.first)
    ∧ (∃ (s : State), s.Canonical ∧ s.live = true ∧ s.bit chipPage CHIP.live_LOADING = false)
    ∧ (∃ (s : State) (j : BitVec 2) (v : BitVec 16), s.Canonical ∧ s.live = true ∧ s.power.noHv = false ∧ s.power.noCore = false)
    ∧ (∃ (s : State) (pins : BitVec 158) (next : BitVec 158), s.Canonical ∧ s.power.noHv = false ∧ s.power.noCore = false) :=
  ⟨⟨dutyS 1, 40, goodDuty, 5, 16, of_canonical (by decide +kernel), by decide +kernel⟩,
   ⟨wc 40 [] (fun c => { c with accepted := true, convs := pool [cv .active (some 988)] }), 40, 16, 0, of_canonical (by decide +kernel), of_canTake (by decide +kernel), by decide +kernel⟩,
   ⟨wc 40 [] (fun c => { c with awaitNurse := true, convs := List.replicate 16 (cv .active (some 988)) ++ [cv .retired none] }), 40, 0, of_canonical (by decide +kernel), of_canTake (by decide +kernel), by decide +kernel⟩,
   ⟨sy [(synPage 5, PG.CTRL_RUN, 0)] true Syn.init, 5, 2, 0x10, 0, 9, 3, of_canonical (by decide +kernel), by decide +kernel⟩,
   ⟨sy [(synPage 5, PG.CTRL_RUN, 0)] true Syn.init, 5, 2, 0x10, 0, 9, 3, of_canonical (by decide +kernel), by decide +kernel⟩,
   ⟨sy [(synPage 5, profFreq 9, 2^31 + 10 * 2^24)] true Syn.init, 5, 2, 0x10, 0, 9, 3, of_canonical (by decide +kernel), by decide +kernel⟩,
   ⟨sy [(synPage 5, profFreq 9, 2^31 + 10 * 2^24)] true Syn.init, 5, 2, 0x10, 0, 9, 3, of_canonical (by decide +kernel), by decide +kernel⟩,
   ⟨sy [(synPage 5, profFreq 9, 2^31 + 10 * 2^24)] true Syn.init, 5, 2, 0x10, 0, 9, 3, of_canonical (by decide +kernel), by decide +kernel⟩,
   ⟨sy [(synPage 5, SYN.live_HOLD, 1)] false { Syn.init with lost := true, relock := true }, 5, 3, 4, none, of_canonical (by decide +kernel), by decide +kernel⟩,
   ⟨sy [] false { Syn.init with search := some 0 }, 5, 3, 4, some 240, 0, of_canonical (by decide +kernel), by decide +kernel⟩,
   ⟨sy [] false { Syn.init with search := some 0 }, 5, 3, 4, some 240, 0, of_canonical (by decide +kernel), by decide +kernel⟩,
   ⟨sy [] false { Syn.init with search := some 0 }, 5, 3, 4, some 240, of_canonical (by decide +kernel), by decide +kernel⟩,
   ⟨sy [(synPage 5, SYN.live_OUT_ON, 1), (synPage 5, SYN.STATUS_DELAY_NOW, 100), (synPage 5, SYN.DELAY_TARGET, 511)] false Syn.init, 5, 3, 4, some 240, of_canonical (by decide +kernel), by decide +kernel⟩,
   ⟨sy [] false { Syn.init with hop := some (9, 990) }, 5, 3, 4, some 240, of_canonical (by decide +kernel), by decide +kernel⟩,
   ⟨en true 1, 63, of_canonical (by decide +kernel), by decide +kernel⟩,
   ⟨par, 300, ⟨0x700000000, true⟩, of_canonical (by decide +kernel), by decide +kernel⟩,
   ⟨fetching 300 (31 * 2 ^ 30 + 7 * 2 ^ 27), 300, ⟨BitVec.ofNat 36 (31 * 2 ^ 30 + 7 * 2 ^ 27), false⟩, of_canonical (by decide +kernel), by decide +kernel⟩,
   ⟨fetching 300 0, 2, 3, 31, of_canonical (by decide +kernel), by decide +kernel⟩,
   ⟨tk 0 [⟨1,2,3,4⟩,⟨5,6,7,8⟩], 300, false, false, 31, 11, 3, 8, ⟨1,2,3,4⟩, [⟨5,6,7,8⟩], of_firstTake (by decide +kernel), of_issues (of_fetches (of_canonical (by decide +kernel)) (by decide +kernel)) (by decide +kernel), by decide +kernel⟩,
   ⟨tk 1 [⟨1,2,3,4⟩,⟨5,6,7,8⟩], 300, false, false, 31, 11, 3, 8, ⟨1,2,3,4⟩, [⟨5,6,7,8⟩], of_firstTake (by decide +kernel), of_issues (of_fetches (of_canonical (by decide +kernel)) (by decide +kernel)) (by decide +kernel), by decide +kernel⟩,
   ⟨tk 2 [⟨1,2,3,4⟩,⟨5,6,7,8⟩], 300, false, false, 31, 11, 3, 8, ⟨1,2,3,4⟩, [⟨5,6,7,8⟩], of_firstTake (by decide +kernel), of_issues (of_fetches (of_canonical (by decide +kernel)) (by decide +kernel)) (by decide +kernel), by decide +kernel⟩,
   ⟨{ lnk 2 { L0 with unacked := [ua 3 10 10] } (prt 2 1 4 ++ upOn 2) with time := { alive.time with tclk := 6010 } }, 2, ua 3 10 10, [], of_canonical (by decide +kernel), by unfold State.Calm; decide +kernel, by decide +kernel⟩,
   ⟨sets alive [(chipPage, CHIP.RESET_CAUSE_CAUSE, 1)], of_canonical (by decide +kernel), by decide +kernel⟩,
   ⟨sv [], 3, 0x77, of_canonical (by decide +kernel), by decide +kernel⟩,
   ⟨{ alive with tap := ⟨1, 5, 7⟩ }, 5, 6, of_canonical (by decide +kernel), by decide +kernel⟩⟩

end Sys2Proof.Tests.Cycles
end

section
/-! Fields and channels read back -/
namespace Sys2Proof.Machine
open Sys2Proof

/-- A field is read from its register alone. -/
theorem State.fld_congr {s t : State} {base : Nat} {f : Fld} (h : t.rd (base + f.off) = s.rd (base + f.off)) : t.fld base f = s.fld base f := by
  unfold State.fld; rw [h]

theorem State.bit_congr {s t : State} {base : Nat} {f : Fld} (h : t.rd (base + f.off) = s.rd (base + f.off)) : t.bit base f = s.bit base f := by
  unfold State.bit; rw [State.fld_congr h]

theorem State.pair_congr {s t : State} {base : Nat} {f : Fld} (hlo : t.rd (base + f.off) = s.rd (base + f.off))
    (hhi : t.rd (base + f.off + 4) = s.rd (base + f.off + 4)) : t.pair base f = s.pair base f := by
  unfold State.pair; rw [hlo, hhi]

theorem State.bit_setBit_same {s : State} (h : s.Canonical) (base : Nat) (f : Fld) (b : Bool) (hf : f.lo + f.width ≤ 32) (hw : f.width ≠ 0) :
    (s.setBit base f b).bit base f = b := by
  have h1 : 1 % 2 ^ f.width = 1 := Nat.mod_eq_of_lt (Nat.one_lt_two_pow hw)
  unfold State.bit State.setBit
  rw [State.fld_setFld_same h _ _ _ hf]
  cases b <;> simp [b2n, h1]

/-- A value of 64 bits is read back from its pair. -/
theorem State.pair_setPair_same {s : State} (h : s.Canonical) (base : Nat) (f : Fld) {v : Nat} (hv : v < 2 ^ 64) :
    (s.setPair base f v).pair base f = v := by
  unfold State.pair State.setPair
  rw [State.rd_wr_same (h.wr _ _), State.rd_wr_ne (h.wr _ _) _ (by omega), State.rd_wr_same h, BitVec.toNat_ofNat, BitVec.toNat_ofNat]
  omega

theorem State.Canonical.setBit {s : State} (h : s.Canonical) (base : Nat) (f : Fld) (b : Bool) : (s.setBit base f b).Canonical := h.setFld _ _ _

theorem State.chan_congr {s t : State} (h : t.chans = s.chans) (i : Nat) : t.chan i = s.chan i := by unfold State.chan; rw [h]

theorem State.Canonical.setChan {s : State} (h : s.Canonical) (k : Nat) (c : Chan) : (s.setChan k c).Canonical :=
  { h with chans := Tab.set_wf _ _ _ h.chans }

theorem State.Canonical.modChan {s : State} (h : s.Canonical) (k : Nat) (f : Chan → Chan) : (s.modChan k f).Canonical := h.setChan _ _

theorem State.chan_modChan {s : State} (h : s.Canonical) (k : Nat) (f : Chan → Chan) (j : Nat) :
    (s.modChan k f).chan j = if j = k then f (s.chan k) else s.chan j := State.chan_setChan h _ _ _

@[simp] theorem State.rd_modChan (s : State) (k : Nat) (f : Chan → Chan) (a : Nat) : (s.modChan k f).rd a = s.rd a := rfl

theorem Holds.setChan {a : Nat} {v : Dword} {s : State} (h : Holds a v s) {k : Nat} {c : Chan} : Holds a v (s.setChan k c) :=
  h.of_regs (h.1.setChan _ _) rfl

theorem Holds.modChan {a : Nat} {v : Dword} {s : State} (h : Holds a v s) {k : Nat} {f : Chan → Chan} : Holds a v (s.modChan k f) := h.setChan

/-! Registers apart: those of the journal and of the regions lie outside the TB page and the CH pages -/

theorem offUnit_of_lt {n a : Nat} (h : a < 0x200000) : OffUnit n a := by
  unfold OffUnit regPage
  dsimp only
  omega

theorem offJournal_of_range {a : Nat} (h : 0x00d000 ≤ a) (h' : a < 0x200000) : OffJournal a := by
  refine ⟨?_, offUnit_of_lt h'⟩
  dsimp only [jrnlPage]
  omega

theorem offJournal_ch {k off : Nat} (hk : k < 96) (ho : off < 0x1000) : OffJournal (chPage k + off) :=
  offJournal_of_range (by unfold chPage; omega) (by unfold chPage; omega)

theorem offUnit_ch {n k off : Nat} (hk : k < 96) (ho : off < 0x1000) : OffUnit n (chPage k + off) := offUnit_of_lt (by unfold chPage; omega)

theorem Holds.error {a : Nat} {v : Dword} {s : State} (h : Holds a v s) {n src cause unit detail : Nat} {stopped : Bool} (hj : OffJournal a)
    (hu : OffUnit n a) : Holds a v (s.error (some n) src cause unit detail stopped) := (h.journalGroup hj).unitGroup hu

end Sys2Proof.Machine
end

section
/-! A transition of a comparator, in its three stages: the level turns, a stuck condition ends, the timer restarts (R88 to R91) -/
namespace Sys2Proof.Machine
open Sys2Proof

/-- The comparator output turns, and the window shows it. -/
def State.turnLevel (s : State) (k : Nat) : State :=
  (s.setBit (chPage k) CH.LEVEL_COMP (!s.bit (chPage k) CH.LEVEL_COMP)).showWin k

/-- The STUCK_CLEAR record of a stuck condition that has ended, with its status bit and its mark in the window (R91). -/
def State.noteStuckEnd (s : State) (k : Nat) : State :=
  let s := (s.post (chPage k) CH.st_STUCK_CLEAR).markEvent k 11 s.now
  if s.runState == .running then s.error (some (chRegion k)) k 0x09 0 0 false else s

/-- A stuck condition ends (R91). -/
def State.endStuck (s : State) (k : Nat) : State := if s.bit (chPage k) CH.live_STUCK then (s.setStuck k false).noteStuckEnd k else s

theorem State.transition_eq (s : State) (k : Nat) : s.transition k = ((s.turnLevel k).endStuck k).restartTimer k := rfl

/-- Not a register that a transition of channel `k` writes, be it through the STUCK_CLEAR record. -/
structure OffTransition (k a : Nat) : Prop where
  level : a ≠ chPage k + CH.LEVEL_COMP.off
  window : a ≠ chPage (k / 2 * 2 + 1) + CH.LEVEL_WIN.off
  live : a ≠ chPage k + CH.live_STUCK.off
  status : a ≠ chPage k + CH.st_STUCK_CLEAR.off
  journal : OffJournal a
  unit : OffUnit (chRegion k) a

theorem offTransition_tb {k a : Nat} (h : a < 0x00c000) : OffTransition k a := by
  constructor
  case journal => exact offJournal_low h
  case unit => exact offUnit_of_lt (by omega)
  all_goals unfold chPage; omega

/-- A register of channel `k`'s page but for PAGE_STATUS, PAGE_LIVE and LEVEL. -/
theorem offTransition_ch {k off : Nat} (hk : k < 96) (ho : off < 0x1000) (h1 : off ≠ 0x008) (h2 : off ≠ 0x00c) (h3 : off ≠ 0x054) :
    OffTransition k (chPage k + off) := by
  constructor
  case journal => exact offJournal_ch hk ho
  case unit => exact offUnit_ch hk ho
  all_goals dsimp only [chPage]; omega

theorem Holds.showWin {a : Nat} {v : Dword} {s : State} (h : Holds a v s) {k : Nat} (ha : a ≠ chPage (k / 2 * 2 + 1) + CH.LEVEL_WIN.off) :
    Holds a v (s.showWin k) := by
  unfold State.showWin
  dsimp only
  split <;> exact Holds.setFld h ha

theorem Holds.noteStuckEnd {a : Nat} {v : Dword} {s : State} (h : Holds a v s) {k : Nat} (h2 : a ≠ chPage k + CH.st_STUCK_CLEAR.off)
    (hj : OffJournal a) (hu : OffUnit (chRegion k) a) : Holds a v (s.noteStuckEnd k) := by
  have hp : Holds a v (s.post (chPage k) CH.st_STUCK_CLEAR) := h.post h2
  have hs : Holds a v ((s.post (chPage k) CH.st_STUCK_CLEAR).markEvent k 11 s.now) :=
    hp.of_regs (State.markEvent_keeps (canonical_keeps _) (Sub.refl _) hp.1) rfl
  unfold State.noteStuckEnd
  dsimp only
  split
  · exact hs.error hj hu
  · exact hs

theorem State.noteStuckEnd_chans (s : State) (k : Nat) : (s.noteStuckEnd k).chans = s.chans := by
  have hp : ((s.post (chPage k) CH.st_STUCK_CLEAR).markEvent k 11 s.now).chans = s.chans :=
    State.markEvent_keeps (Keeps.same_chans (A := 0x8000) (by decide) _) (Sub.refl _)
      (State.post_keeps (Keeps.same_chans (A := 0x20000000000002b) (by decide) _) (Sub.refl _) rfl)
  unfold State.noteStuckEnd
  dsimp only
  split
  · exact State.error_keeps (Keeps.same_chans (A := 0x2000000008003e9) (by decide) _) (Sub.refl _) hp
  · exact hp

theorem Holds.setStuck {a : Nat} {v : Dword} {s : State} (h : Holds a v s) {k : Nat} {b : Bool} (ha : a ≠ chPage k + CH.live_STUCK.off) :
    Holds a v (s.setStuck k b) := (Holds.setFld h ha).modChan

theorem State.Canonical.setStuck {s : State} (h : s.Canonical) (k : Nat) (b : Bool) : (s.setStuck k b).Canonical :=
  (h.setBit _ _ _).modChan _ _

theorem Holds.endStuck {a : Nat} {v : Dword} {s : State} (h : Holds a v s) {k : Nat} (h1 : a ≠ chPage k + CH.live_STUCK.off)
    (h2 : a ≠ chPage k + CH.st_STUCK_CLEAR.off) (hj : OffJournal a) (hu : OffUnit (chRegion k) a) : Holds a v (s.endStuck k) := by
  unfold State.endStuck
  split
  · exact (h.setStuck h1).noteStuckEnd h2 hj hu
  · exact h

/-- A transition leaves every register that it does not write. -/
theorem Holds.transition {a : Nat} {v : Dword} {s : State} (h : Holds a v s) {k : Nat} (ha : OffTransition k a) : Holds a v (s.transition k) := by
  rw [State.transition_eq]
  exact ((Holds.setFld h ha.level).showWin ha.window |>.endStuck ha.live ha.status ha.journal ha.unit).modChan

theorem State.Canonical.transition {s : State} (h : s.Canonical) (k : Nat) : (s.transition k).Canonical :=
  State.transition_keeps (canonical_keeps _) (Sub.refl _) h

theorem State.rd_transition {s : State} (h : s.Canonical) {k a : Nat} (ha : OffTransition k a) : (s.transition k).rd a = s.rd a :=
  (Holds.transition ⟨h, rfl⟩ ha).2

@[simp] theorem State.transition_time (s : State) (k : Nat) : (s.transition k).time = s.time :=
  State.transition_keeps (Keeps.same_time (by decide) s.time) (Sub.refl _) rfl

/-- The window state lies beside the level in its register. -/
theorem State.bit_turnLevel_level {s : State} (h : s.Canonical) (k : Nat) :
    (s.turnLevel k).bit (chPage k) CH.LEVEL_COMP = !s.bit (chPage k) CH.LEVEL_COMP := by
  have hw : ∀ t : State, t.Canonical → (t.showWin k).bit (chPage k) CH.LEVEL_COMP = t.bit (chPage k) CH.LEVEL_COMP := by
    intro t ht
    unfold State.showWin State.bit
    dsimp only
    split <;> rw [State.fld_setFld_other ht _ _ _ _ _ (.inr (by decide))]
  unfold State.turnLevel
  rw [hw _ (h.setBit _ _ _), State.bit_setBit_same h _ _ _ (by decide) (by decide)]

theorem State.Canonical.turnLevel {s : State} (h : s.Canonical) (k : Nat) : (s.turnLevel k).Canonical :=
  State.showWin_keeps (canonical_keeps _) (Sub.refl _) (h.setBit _ _ _)

@[simp] theorem State.rd_restartTimer (s : State) (k a : Nat) : (s.restartTimer k).rd a = s.rd a := rfl

/-- The output has turned. -/
theorem State.bit_transition_level {s : State} (h : s.Canonical) {k : Nat} (hk : k < 96) :
    (s.transition k).bit (chPage k) CH.LEVEL_COMP = s.nextRises k := by
  have hr := Holds.endStuck (a := chPage k + CH.LEVEL_COMP.off) (k := k) ⟨h.turnLevel k, rfl⟩ (by dsimp only; omega) (by dsimp only; omega)
    (offJournal_ch hk (by decide)) (offUnit_ch hk (by decide))
  rw [State.transition_eq, State.bit_congr (State.rd_restartTimer _ _ _), State.bit_congr hr.2, State.bit_turnLevel_level h]
  rfl

/-- No stuck condition outlasts its end. -/
theorem State.bit_endStuck_stuck {s : State} (h : s.Canonical) {k : Nat} (hk : k < 96) : (s.endStuck k).bit (chPage k) CH.live_STUCK = false := by
  unfold State.endStuck
  split
  · have hs : (s.setStuck k false).bit (chPage k) CH.live_STUCK = false := State.bit_setBit_same h _ _ _ (by decide) (by decide)
    have hr := Holds.noteStuckEnd (a := chPage k + CH.live_STUCK.off) (k := k) ⟨h.setStuck k false, rfl⟩ (by dsimp only; omega)
      (offJournal_ch hk (by decide)) (offUnit_ch hk (by decide))
    rw [State.bit_congr hr.2, hs]
  · next hn => exact Bool.eq_false_iff.2 hn

theorem State.bit_transition_stuck {s : State} (h : s.Canonical) {k : Nat} (hk : k < 96) :
    (s.transition k).bit (chPage k) CH.live_STUCK = false := by
  rw [State.transition_eq, State.bit_congr (State.rd_restartTimer _ _ _), State.bit_endStuck_stuck (h.turnLevel k) hk]

/-- What a transition in TCLK cycle `m` at `now` makes of a channel whose stuck history becomes `marks`: its timer restarts. -/
def Chan.turned (c : Chan) (m : Nat) (now : DTime) (marks : Marks) : Chan :=
  { c with stuck := marks, timerFrom := m, lastAt := now, expired := false }

theorem State.chan_endStuck {s : State} (h : s.Canonical) (k : Nat) :
    ∃ marks, ∀ i, (s.endStuck k).chan i = if i = k then { s.chan k with stuck := marks } else s.chan i := by
  have hstuck : ∀ i, (s.setStuck k false).chan i = if i = k then { s.chan k with stuck := (s.chan k).stuck.note false s.now } else s.chan i := by
    exact fun i => State.chan_modChan (h.setBit _ _ _) _ _ _
  unfold State.endStuck
  split
  · exact ⟨(s.chan k).stuck.note false s.now, fun i => (State.chan_congr (State.noteStuckEnd_chans _ k) i).trans (hstuck i)⟩
  · refine ⟨(s.chan k).stuck, fun i => ?_⟩
    split
    · next e => rw [e]
    · rfl

/-- A transition restarts the timer of its channel, and leaves the other channels. -/
theorem State.chan_transition {s : State} (h : s.Canonical) (k : Nat) :
    ∃ marks, ∀ i, (s.transition k).chan i = if i = k then (s.chan k).turned s.time.tclk s.now marks else s.chan i := by
  have hchans : (s.turnLevel k).chans = s.chans := State.showWin_keeps (Keeps.same_chans (A := 1) (by decide) _) (Sub.refl _) rfl
  have htime : ((s.turnLevel k).endStuck k).time = s.time := State.transition_time s k
  have hc : ((s.turnLevel k).endStuck k).Canonical :=
    (Holds.endStuck ⟨h.turnLevel k, rfl⟩ (by unfold chPage; omega) (by unfold chPage; omega) (offJournal_low (a := 0) (by decide))
      (offUnit_of_lt (by decide))).1
  obtain ⟨marks, hm⟩ := State.chan_endStuck (h.turnLevel k) k
  refine ⟨marks, fun i => ?_⟩
  rw [State.transition_eq]
  unfold State.restartTimer State.now
  rw [State.chan_modChan hc, htime, hm, hm, if_pos rfl, State.chan_congr hchans, State.chan_congr hchans]
  split <;> rfl

theorem State.prescaled_transition {s : State} (h : s.Canonical) {k : Nat} (hk : k < 96) : (s.transition k).prescaled k = s.prescaled k :=
  State.bit_congr (State.rd_transition h (offTransition_ch hk (by decide) (by decide) (by decide) (by decide)))

theorem State.pair_transition_ecount {s : State} (h : s.Canonical) {k : Nat} (hk : k < 96) :
    (s.transition k).pair (chPage k) CH.ECOUNT_LO = s.pair (chPage k) CH.ECOUNT_LO :=
  State.pair_congr (State.rd_transition h (offTransition_ch hk (by decide) (by decide) (by decide) (by decide)))
    (State.rd_transition h (offTransition_ch (off := CH.ECOUNT_LO.off + 4) hk (by decide) (by decide) (by decide) (by decide)))

end Sys2Proof.Machine
end

section
/-! The edge counters (R106, R145) -/
namespace Sys2Proof.Machine
open Sys2Proof

theorem State.Canonical.countEdges {s : State} (h : s.Canonical) (k n : Nat) : (s.countEdges k n).Canonical :=
  State.countEdges_keeps (canonical_keeps _) (Sub.refl _) h

@[simp] theorem State.countEdges_chans (s : State) (k n : Nat) : (s.countEdges k n).chans = s.chans :=
  State.countEdges_keeps (Keeps.same_chans (by decide) s.chans) (Sub.refl _) rfl

@[simp] theorem State.countEdges_time (s : State) (k n : Nat) : (s.countEdges k n).time = s.time :=
  State.countEdges_keeps (Keeps.same_time (by decide) s.time) (Sub.refl _) rfl

/-- Counting leaves every register but the counter's pair. -/
theorem State.rd_countEdges {s : State} (h : s.Canonical) (k n : Nat) {a : Nat} (h1 : a ≠ chPage k + CH.ECOUNT_LO.off)
    (h2 : a ≠ chPage k + CH.ECOUNT_LO.off + 4) : (s.countEdges k n).rd a = s.rd a := by
  unfold State.countEdges
  split
  · rfl
  · exact (Holds.setPair ⟨h, rfl⟩ h1 h2).2

/-- The counter saturates, and holds outside a run. -/
theorem State.pair_countEdges {s : State} (h : s.Canonical) (k n : Nat) : (s.countEdges k n).pair (chPage k) CH.ECOUNT_LO =
    if (s.chan k).held then s.pair (chPage k) CH.ECOUNT_LO else min (s.pair (chPage k) CH.ECOUNT_LO + n) (2 ^ 64 - 1) := by
  unfold State.countEdges
  split
  · rfl
  · exact State.pair_setPair_same h _ _ (by unfold sat; omega)

@[simp] theorem State.rd_countNow (s : State) (k n a : Nat) : (s.countNow k n).rd a = s.rd a := by
  unfold State.rd
  rw [State.countNow_keeps (Keeps.same_regs (A := 0x4000) (by decide) s.regs) (Sub.refl _) rfl]

/-- COUNT gates take their edges in the accumulator of the channel. -/
theorem State.chan_countNow {s : State} (h : s.Canonical) (k n : Nat) : ∃ a, (s.countNow k n).chan k = { s.chan k with acc := a } := by
  unfold State.countNow State.countAt
  dsimp only
  split
  · split
    · exact ⟨_, (State.chan_modChan h _ _ _).trans (if_pos rfl)⟩
    · exact ⟨_, rfl⟩
  · exact ⟨_, rfl⟩

end Sys2Proof.Machine
end

section
/-! The start of a cycle for a pool: converters are released, and its open gap may close (R101, R108) -/
namespace Sys2Proof.Machine
open Sys2Proof

/-- The converter at the start of TCLK cycle `m`: an edge it took 12 cycles back or more leaves it free (R101). -/
def Conv.released (m : Nat) (v : Conv) : Conv :=
  match v.busy with
  | some b => if b + 12 ≤ m then { v with busy := none } else v
  | none => v

/-- The pool with its converters at the start of TCLK cycle `m`. -/
def Chan.released (m : Nat) (c : Chan) : Chan := { c with convs := c.convs.map (Conv.released m) }

/-- A gap past its limit has closed (R108). -/
def State.closeOverdue (s : State) (k : Nat) : State :=
  match (s.chan k).gap with
  | some g => if g.limit < s.time.tclk then s.closeGap k (some g.limit) else s
  | none => s

theorem State.settlePool_eq (s : State) (k : Nat) :
    s.settlePool k = ((s.modChan k (Chan.released s.time.tclk)).closeDry k).closeOverdue k := rfl

@[simp] theorem Conv.released_role (m : Nat) (v : Conv) : (v.released m).role = v.role := by
  unfold Conv.released; split <;> [split; skip] <;> rfl

@[simp] theorem Conv.released_table (m : Nat) (v : Conv) : (v.released m).table = v.table := by
  unfold Conv.released; split <;> [split; skip] <;> rfl

/-- A converter is active and free at the start of cycle `m` if it is active and took its last edge in cycle `m - 12` or before. -/
theorem Conv.free_released (m : Nat) (v : Conv) :
    (v.released m).free = true ↔ v.role = .active ∧ ∀ b, v.busy = some b → b + 12 ≤ m := by
  unfold Conv.free Conv.released
  cases hb : v.busy with
  | none => simp [hb]
  | some b => by_cases hm : b + 12 ≤ m <;> simp [hm, hb]

theorem Chan.conv_released (m : Nat) (c : Chan) (j : Nat) : (c.released m).conv j = (c.conv j).released m := by
  unfold Chan.conv Chan.released
  rw [List.getD_eq_getElem?_getD, List.getD_eq_getElem?_getD, List.getElem?_map]
  cases c.convs[j]? <;> rfl

/-- Releasing converters retires none. -/
theorem Chan.failed_released (m : Nat) (c : Chan) : (c.released m).failed = c.failed := by
  unfold Chan.failed Chan.usable Chan.released
  rw [List.filter_map, List.length_map]
  simp [Function.comp_def]

/-- The lowest-numbered converter that can take an edge in this cycle is the free one that the pool finds once it has settled. -/
theorem State.freeConv_released {s : State} {k j : Nat} (hlen : j < (s.chan k).convs.length) (hj : s.canTake k j) (hlow : ∀ i < j, ¬ s.canTake k i) :
    ((s.chan k).released s.time.tclk).freeConv = some j := by
  have hfree : ∀ i (hi : i < (s.chan k).convs.length), (((s.chan k).convs[i]).released s.time.tclk).free = true ↔ s.canTake k i := by
    intro i hi
    rw [Conv.free_released]
    unfold State.canTake Chan.conv
    rw [List.getD_eq_getElem _ _ hi]
  unfold Chan.freeConv Chan.released
  rw [List.findIdx?_map, List.findIdx?_eq_some_iff_getElem]
  exact ⟨hlen, (hfree j hlen).2 hj, fun i hi => (hfree i (by omega)).not.2 (hlow i hi)⟩

theorem State.canTake_congr {s t : State} {k : Nat} (hc : (t.chan k).convs = (s.chan k).convs) (ht : t.time = s.time) (j : Nat) :
    t.canTake k j ↔ s.canTake k j := by
  unfold State.canTake Chan.conv; rw [hc, ht]

/-- Why a pool cannot stamp depends on its retired converters, on the timebase and on its READY. -/
theorem State.unstampable_congr {s t : State} {k : Nat} (hf : (t.chan k).failed = (s.chan k).failed)
    (htb : t.rd (tbPage + 0x00c) = s.rd (tbPage + 0x00c)) (hch : t.rd (chPage k + CH.POOL_STATUS_READY.off) = s.rd (chPage k + CH.POOL_STATUS_READY.off)) :
    t.unstampable k = s.unstampable k := by
  unfold State.unstampable State.timeGood State.coarse
  rw [hf, State.bit_congr (f := TB.live_STARTED) htb, State.bit_congr (f := TB.live_LOCKED) htb, State.fld_congr (f := TB.live_SOURCE) htb,
    State.bit_congr (f := TB.live_COARSE) htb, State.bit_congr hch]

/-- From `s` to `t` the gap of channel `k` may have closed, its marker entering the pool behind what it holds; nothing else of the channels, of the
registers or of the time has changed but GAP_OPEN. -/
structure State.ShutsGap (s t : State) (k : Nat) : Prop where
  canonical : t.Canonical
  time : t.time = s.time
  rd : ∀ a, a ≠ chPage k + CH.live_GAP_OPEN.off → t.rd a = s.rd a
  stuck : t.bit (chPage k) CH.live_STUCK = s.bit (chPage k) CH.live_STUCK
  chan : ∃ p g, t.chan k = { s.chan k with gap := g, pipe := (s.chan k).pipe ++ p } ∧ ((s.chan k).gap = none → p = [] ∧ g = none)
  others : ∀ i, i ≠ k → t.chan i = s.chan i

theorem State.ShutsGap.refl {s : State} (h : s.Canonical) (k : Nat) : s.ShutsGap s k :=
  ⟨h, rfl, fun _ _ => rfl, rfl, ⟨[], (s.chan k).gap, by rw [List.append_nil], fun e => ⟨rfl, e⟩⟩, fun _ _ => rfl⟩

theorem State.ShutsGap.trans {s t u : State} {k : Nat} (h : s.ShutsGap t k) (h' : t.ShutsGap u k) : s.ShutsGap u k where
  canonical := h'.canonical
  time := h'.time.trans h.time
  rd a ha := (h'.rd a ha).trans (h.rd a ha)
  stuck := h'.stuck.trans h.stuck
  others i hi := (h'.others i hi).trans (h.others i hi)
  chan := by
    obtain ⟨p, g, e, hn⟩ := h.chan
    obtain ⟨p', g', e', hn'⟩ := h'.chan
    refine ⟨p ++ p', g', by rw [e', e, List.append_assoc], fun e0 => ?_⟩
    obtain ⟨rfl, rfl⟩ := hn e0
    obtain ⟨rfl, rfl⟩ := hn' (by rw [e])
    exact ⟨rfl, rfl⟩

/-- No gap opens where a gap may close. -/
theorem State.ShutsGap.gap_none {s t : State} {k : Nat} (h : s.ShutsGap t k) (hn : (s.chan k).gap = none) : (t.chan k).gap = none := by
  obtain ⟨p, g, e, hg⟩ := h.chan
  rw [e]
  exact (hg hn).2

theorem State.ShutsGap.convs {s t : State} {k : Nat} (h : s.ShutsGap t k) : (t.chan k).convs = (s.chan k).convs := by
  obtain ⟨p, g, e, -⟩ := h.chan
  rw [e]

theorem State.closeGap_shuts {s : State} (h : s.Canonical) (k : Nat) (limit : Option Nat) : s.ShutsGap (s.closeGap k limit) k := by
  unfold State.closeGap
  dsimp only
  split
  · exact .refl h k
  · next g hg =>
    have hc : ∀ c, (s.setChan k c).Canonical := fun c => h.setChan k c
    refine ⟨(hc _).setFld _ _ _, rfl, fun a ha => ?_, ?_, ⟨_, none, (State.chan_setChan h _ _ _).trans (if_pos rfl), fun e => ?_⟩,
      fun i hi => (State.chan_setChan h _ _ _).trans (if_neg hi)⟩
    · rw [State.rd_setFld (hc _), if_neg ha]; rfl
    · unfold State.bit
      rw [State.fld_setFld_other (hc _) _ _ _ _ _ (.inr (by decide))]
      rfl
    · exact absurd (hg.symm.trans e) (by simp)

theorem State.closeGap_gap {s : State} (h : s.Canonical) (k : Nat) (limit : Option Nat) : ((s.closeGap k limit).chan k).gap = none := by
  unfold State.closeGap
  dsimp only
  split
  · assumption
  · exact congrArg Chan.gap ((State.chan_setChan h _ _ _).trans (if_pos rfl))

theorem State.closeDry_shuts {s : State} (h : s.Canonical) (k : Nat) : s.ShutsGap (s.closeDry k) k := by
  unfold State.closeDry State.closeGapOf
  split
  · split
    · split
      · exact State.closeGap_shuts h k _
      · exact .refl h k
    · exact .refl h k
  · exact .refl h k

/-- With a converter free, no POOL_DRY gap stays open (Table 4-2). -/
theorem State.closeDry_gap {s : State} (h : s.Canonical) {k : Nat} {g : Gap} (hf : (s.chan k).freeConv.isSome = true) (hg : (s.chan k).gap = some g)
    (hd : g.cause = 1) : ((s.closeDry k).chan k).gap = none := by
  unfold State.closeDry State.closeGapOf
  simp only [hf, hg, hd, if_true]
  exact State.closeGap_gap h k none

theorem State.closeOverdue_shuts {s : State} (h : s.Canonical) (k : Nat) : s.ShutsGap (s.closeOverdue k) k := by
  unfold State.closeOverdue
  split
  · split
    · exact State.closeGap_shuts h k _
    · exact .refl h k
  · exact .refl h k

/-- Beyond the release of its converters, a pool that settles can only close its gap. -/
theorem State.settlePool_shuts {s : State} (h : s.Canonical) (k : Nat) :
    (s.modChan k (Chan.released s.time.tclk)).ShutsGap (s.settlePool k) k := by
  have hd := State.closeDry_shuts (h.modChan k (Chan.released s.time.tclk)) k
  rw [State.settlePool_eq]
  exact hd.trans (State.closeOverdue_shuts hd.canonical k)

theorem State.settlePool_convs {s : State} (h : s.Canonical) (k : Nat) :
    ((s.settlePool k).chan k).convs = ((s.chan k).released s.time.tclk).convs := by
  rw [(State.settlePool_shuts h k).convs, State.chan_modChan h, if_pos rfl]

theorem State.settlePool_unstampable {s : State} (h : s.Canonical) {k : Nat} (hk : k < 96) : (s.settlePool k).unstampable k = s.unstampable k := by
  have hs := State.settlePool_shuts h k
  refine State.unstampable_congr ?_ (hs.rd _ (by dsimp only [tbPage, chPage]; omega)) (hs.rd _ (by dsimp only; omega))
  rw [← Chan.failed_released s.time.tclk (s.chan k)]
  unfold Chan.failed Chan.usable
  rw [State.settlePool_convs h]

/-- A pool with a free converter has no POOL_DRY gap once it has settled. -/
theorem State.settlePool_gap {s : State} (h : s.Canonical) {k : Nat} {g : Gap} (hf : ((s.chan k).released s.time.tclk).freeConv.isSome = true)
    (hg : (s.chan k).gap = some g) (hd : g.cause = 1) : ((s.settlePool k).chan k).gap = none := by
  have hm := h.modChan k (Chan.released s.time.tclk)
  have hc : (s.modChan k (Chan.released s.time.tclk)).chan k = (s.chan k).released s.time.tclk := (State.chan_modChan h _ _ _).trans (if_pos rfl)
  rw [State.settlePool_eq]
  exact (State.closeOverdue_shuts (State.closeDry_shuts hm k).canonical k).gap_none
    (State.closeDry_gap hm (by rw [hc]; exact hf) (by rw [hc]; exact hg) hd)

end Sys2Proof.Machine
end

section
/-! A selected edge arrives (R84, R101, R104, R106) -/
namespace Sys2Proof.Machine
open Sys2Proof

/-- The pool of channel `k` stamps an edge of this cycle with converter `j`: nothing keeps it from stamping, and `j` is its lowest-numbered converter
that can take an edge. -/
structure State.Stamps (s : State) (k j : Nat) : Prop where
  canonical : s.Canonical
  channel : k < 96
  good : s.unstampable k = none
  conv : j < (s.chan k).convs.length
  takes : s.canTake k j
  lowest : ∀ i < j, ¬ s.canTake k i

/-- What the pool holds of an edge of this cycle that converter `j` takes (R97, R104). -/
def State.stampOf (s : State) (k j fine : Nat) (rising : Bool) : Entry :=
  let v := ((s.chan k).conv j).table
  .stamp s.time.tclk s.now (Config.correction v.starts v.pdiff v.offset fine) rising

theorem State.Stamps.congr {s t : State} {k j : Nat} (h : s.Stamps k j) (hc : t.Canonical) (ht : t.time = s.time)
    (hv : (t.chan k).convs = (s.chan k).convs) (htb : t.rd (tbPage + 0x00c) = s.rd (tbPage + 0x00c))
    (hch : t.rd (chPage k + CH.POOL_STATUS_READY.off) = s.rd (chPage k + CH.POOL_STATUS_READY.off)) : t.Stamps k j where
  canonical := hc
  channel := h.channel
  good := by
    rw [← h.good]
    exact State.unstampable_congr (by unfold Chan.failed Chan.usable; rw [hv]) htb hch
  conv := by rw [hv]; exact h.conv
  takes := (State.canTake_congr hv ht j).2 h.takes
  lowest i hi := (State.canTake_congr hv ht i).not.2 (h.lowest i hi)

theorem State.Stamps.transition {s : State} {k j : Nat} (h : s.Stamps k j) : (s.transition k).Stamps k j := by
  obtain ⟨marks, hm⟩ := State.chan_transition h.canonical k
  refine h.congr (h.canonical.transition k) (State.transition_time s k) ?_ (State.rd_transition h.canonical (offTransition_tb (by decide)))
    (State.rd_transition h.canonical (offTransition_ch h.channel (by decide) (by decide) (by decide) (by decide)))
  rw [hm, if_pos rfl]
  rfl

theorem State.Stamps.countEdges {s : State} {k j : Nat} (h : s.Stamps k j) (n : Nat) : (s.countEdges k n).Stamps k j :=
  h.congr (h.canonical.countEdges k n) (State.countEdges_time s k n) (by rw [State.chan_congr (State.countEdges_chans s k n)])
    (State.rd_countEdges h.canonical k n (by dsimp only [tbPage, chPage]; omega) (by dsimp only [tbPage, chPage]; omega))
    (State.rd_countEdges h.canonical k n (by dsimp only; omega) (by dsimp only; omega))

theorem State.Stamps.settled_good {s : State} {k j : Nat} (h : s.Stamps k j) : (s.settlePool k).unstampable k = none := by
  rw [State.settlePool_unstampable h.canonical h.channel, h.good]

theorem State.Stamps.settled_freeConv {s : State} {k j : Nat} (h : s.Stamps k j) : ((s.settlePool k).chan k).freeConv = some j := by
  rw [← State.freeConv_released h.conv h.takes h.lowest]
  unfold Chan.freeConv
  rw [State.settlePool_convs h.canonical]

/-- The pool once converter `j` has taken an edge in TCLK cycle `m`, whose entry is `e`. -/
def Chan.taken (c : Chan) (j m : Nat) (e : Entry) : Chan :=
  { c.setConv j { c.conv j with busy := some m } with pipe := c.pipe ++ [e] }

/-- The pool settles, and its lowest-numbered free converter takes the edge. -/
theorem State.Stamps.poolEdge {s : State} {k j : Nat} (h : s.Stamps k j) (rising : Bool) (fine : Nat) :
    s.poolEdge k rising fine
      = (s.settlePool k).setChan k (((s.settlePool k).chan k).taken j s.time.tclk (s.stampOf k j fine rising)) := by
  have htime : (s.settlePool k).time = s.time := (State.settlePool_shuts h.canonical k).time
  have htable : (((s.settlePool k).chan k).conv j).table = ((s.chan k).conv j).table := by
    rw [← Conv.released_table s.time.tclk ((s.chan k).conv j), ← Chan.conv_released]
    unfold Chan.conv
    rw [State.settlePool_convs h.canonical]
  unfold State.poolEdge State.stampOf Chan.taken State.now
  simp only [h.settled_good, h.settled_freeConv, htime, htable]
  rfl

end Sys2Proof.Machine
end

section
/-! The arrival of an edge at the pool, and at the divider before it (R84, R101, R104, R106) -/
namespace Sys2Proof.Machine
open Sys2Proof

theorem exec_edgeArrival (k : Fin 96) (fine : BitVec 10) (s : State) : exec (.edgeArrival k fine) s = .next (s.edgeArrival k.val fine.toNat) := rfl

/-- What an edge that the pool stamps makes of the channel, as it stands before the pool settles: converter `j` is busy, the stamp comes last in the
pool, behind the marker of a gap that closed; and no other channel changes. -/
theorem State.Stamps.chan_poolEdge {s : State} {k j : Nat} (h : s.Stamps k j) (rising : Bool) (fine : Nat) :
    ∃ p g, (s.poolEdge k rising fine).chan k =
        { (s.chan k).released s.time.tclk with
          convs := ((s.chan k).released s.time.tclk).convs.set j { ((s.chan k).released s.time.tclk).conv j with busy := some s.time.tclk }
          gap := g
          pipe := (s.chan k).pipe ++ p ++ [s.stampOf k j fine rising] }
      ∧ ((s.chan k).gap = none → p = [] ∧ g = none) ∧ (∀ x, (s.chan k).gap = some x → x.cause = 1 → g = none)
      ∧ ∀ i, i ≠ k → (s.poolEdge k rising fine).chan i = s.chan i := by
  have hs := State.settlePool_shuts h.canonical k
  obtain ⟨p, g, e, hn⟩ := hs.chan
  rw [State.chan_modChan h.canonical, if_pos rfl] at e hn
  refine ⟨p, g, ?_, hn, fun x hx hd => ?_, fun i hi => ?_⟩
  · rw [h.poolEdge, State.chan_setChan hs.canonical, if_pos rfl, e]
    rfl
  · have hf : ((s.chan k).released s.time.tclk).freeConv.isSome = true := by rw [State.freeConv_released h.conv h.takes h.lowest]; rfl
    have := State.settlePool_gap h.canonical hf hx hd
    rwa [e] at this
  · rw [h.poolEdge, State.chan_setChan hs.canonical, if_neg hi, hs.others i hi, State.chan_modChan h.canonical, if_neg hi]

/-- An edge that the pool stamps leaves every register but that of GAP_OPEN, and in it STUCK. -/
theorem State.Stamps.rd_poolEdge {s : State} {k j : Nat} (h : s.Stamps k j) (rising : Bool) (fine : Nat) {a : Nat}
    (ha : a ≠ chPage k + CH.live_GAP_OPEN.off) : (s.poolEdge k rising fine).rd a = s.rd a := by
  rw [h.poolEdge]
  exact (State.settlePool_shuts h.canonical k).rd a ha

theorem State.Stamps.stuck_poolEdge {s : State} {k j : Nat} (h : s.Stamps k j) (rising : Bool) (fine : Nat) :
    (s.poolEdge k rising fine).bit (chPage k) CH.live_STUCK = s.bit (chPage k) CH.live_STUCK := by
  rw [h.poolEdge]
  exact (State.settlePool_shuts h.canonical k).stuck

/-- A selected edge that the pool can stamp turns the level, is counted and enters the pool; it is none of those that COUNT gates count as they
arrive. -/
theorem State.Stamps.edgeArrival {s : State} {k j : Nat} (h : s.Stamps k j) (hon : s.compOn k = true) (hp : s.prescaled k = false)
    (hsel : s.passes k (s.nextRises k) = true) (fine : Nat) :
    s.edgeArrival k fine = ((s.transition k).countEdges k 1).poolEdge k (s.nextRises k) fine := by
  have hns : s.nextSelected k = true := by unfold State.nextSelected; rw [hp]; exact hsel
  unfold State.edgeArrival
  simp [hon, hns, State.prescaled_transition h.canonical h.channel, hp, h.transition.settled_good, h.transition.settled_freeConv]

/-- The ÷4 divider takes a rising edge (R84). -/
def Chan.divided (c : Chan) : Chan := { c with presc := if c.presc = 3 then 0 else c.presc + 1 }

/-- A rising edge before the divider turns the level and steps the divider; every fourth one counts for four (R84). -/
theorem State.edgeArrival_prescaled {s : State} (h : s.Canonical) {k : Nat} (hk : k < 96) (hon : s.compOn k = true) (hp : s.prescaled k = true)
    (hr : s.nextRises k = true) (fine : Nat) :
    s.edgeArrival k fine =
      if ((s.transition k).chan k).presc = 3 then (((s.transition k).modChan k Chan.divided).countEdges k 4).countNow k 4
      else (s.transition k).modChan k Chan.divided := by
  have hns : s.nextSelected k = true := by unfold State.nextSelected; rw [hp]; exact hr
  unfold State.edgeArrival
  by_cases h3 : ((s.transition k).chan k).presc = 3 <;>
    simp [hon, hns, State.prescaled_transition h hk, hp, h3, State.modChan, Chan.divided]

theorem State.stampOf_congr {s t : State} {k j : Nat} (ht : t.time = s.time) (hc : (t.chan k).convs = (s.chan k).convs) (fine : Nat) (rising : Bool) :
    t.stampOf k j fine rising = s.stampOf k j fine rising := by
  unfold State.stampOf State.now Chan.conv
  rw [ht, hc]

/-- What a stamped edge makes of the channels. -/
theorem State.Stamps.chan_edgeArrival {s : State} {k j : Nat} (h : s.Stamps k j) (hon : s.compOn k = true) (hp : s.prescaled k = false)
    (hsel : s.passes k (s.nextRises k) = true) (fine : Nat) :
    ∃ p, ((s.edgeArrival k fine).chan k).pipe = (s.chan k).pipe ++ p ++ [s.stampOf k j fine (s.nextRises k)]
      ∧ ((s.chan k).gap = none → p = [] ∧ ((s.edgeArrival k fine).chan k).gap = none)
      ∧ (∀ x, (s.chan k).gap = some x → x.cause = 1 → ((s.edgeArrival k fine).chan k).gap = none)
      ∧ (((s.edgeArrival k fine).chan k).conv j).busy = some s.time.tclk ∧ ((s.edgeArrival k fine).chan k).timerFrom = s.time.tclk
      ∧ ∀ i, i ≠ k → (s.edgeArrival k fine).chan i = s.chan i := by
  obtain ⟨marks, hm⟩ := State.chan_transition h.canonical k
  have hc : ∀ i, ((s.transition k).countEdges k 1).chan i = if i = k then (s.chan k).turned s.time.tclk s.now marks else s.chan i :=
    fun i => (State.chan_congr (State.countEdges_chans _ _ _) i).trans (hm i)
  have hk := (hc k).trans (if_pos rfl)
  have ht : ((s.transition k).countEdges k 1).time = s.time := by simp
  obtain ⟨p, g, e, hn, hd, ho⟩ := (h.transition.countEdges 1).chan_poolEdge (s.nextRises k) fine
  rw [h.edgeArrival hon hp hsel]
  rw [State.stampOf_congr ht (by rw [hk]; rfl), hk, ht] at e
  rw [hk] at hn hd
  have hgap : ((((s.transition k).countEdges k 1).poolEdge k (s.nextRises k) fine).chan k).gap = g := by rw [e]
  refine ⟨p, by rw [e]; rfl, by rw [hgap]; exact hn, by rw [hgap]; exact hd, ?_, by rw [e]; rfl, fun i hi => ?_⟩
  · rw [e]
    unfold Chan.conv Chan.released Chan.turned
    simp [h.conv]
  · rw [ho i hi, hc, if_neg hi]

/-- What a stamped edge makes of the level, the edge counter and STUCK. -/
theorem State.Stamps.regs_edgeArrival {s : State} {k j : Nat} (h : s.Stamps k j) (hon : s.compOn k = true) (hp : s.prescaled k = false)
    (hsel : s.passes k (s.nextRises k) = true) (fine : Nat) :
    (s.edgeArrival k fine).bit (chPage k) CH.LEVEL_COMP = s.nextRises k
      ∧ (s.edgeArrival k fine).pair (chPage k) CH.ECOUNT_LO
          = (if (s.chan k).held then s.pair (chPage k) CH.ECOUNT_LO else min (s.pair (chPage k) CH.ECOUNT_LO + 1) (2 ^ 64 - 1))
      ∧ (s.edgeArrival k fine).bit (chPage k) CH.live_STUCK = false := by
  have ht := h.transition
  have hc := ht.countEdges 1
  obtain ⟨marks, hm⟩ := State.chan_transition h.canonical k
  have hheld : ((s.transition k).chan k).held = (s.chan k).held := by rw [hm, if_pos rfl]; rfl
  rw [h.edgeArrival hon hp hsel]
  refine ⟨?_, ?_, ?_⟩
  · rw [State.bit_congr (hc.rd_poolEdge _ _ (by dsimp only; omega)),
      State.bit_congr (State.rd_countEdges ht.canonical _ _ (by dsimp only; omega) (by dsimp only; omega)),
      State.bit_transition_level h.canonical h.channel]
  · rw [State.pair_congr (hc.rd_poolEdge _ _ (by dsimp only; omega)) (hc.rd_poolEdge _ _ (by dsimp only; omega)),
      State.pair_countEdges ht.canonical, State.pair_transition_ecount h.canonical h.channel, hheld]
  · rw [hc.stuck_poolEdge, State.bit_congr (State.rd_countEdges ht.canonical _ _ (by dsimp only; omega) (by dsimp only; omega)),
      State.bit_transition_stuck h.canonical h.channel]

/-- The divider steps, and the pool takes nothing. -/
theorem State.chan_edgeArrival_prescaled {s : State} (h : s.Canonical) {k : Nat} (hk : k < 96) (hon : s.compOn k = true) (hp : s.prescaled k = true)
    (hr : s.nextRises k = true) (fine : Nat) :
    ((s.edgeArrival k fine).chan k).pipe = (s.chan k).pipe ∧ ((s.edgeArrival k fine).chan k).gap = (s.chan k).gap
      ∧ ((s.edgeArrival k fine).chan k).presc = if (s.chan k).presc = 3 then 0 else (s.chan k).presc + 1 := by
  obtain ⟨marks, hm⟩ := State.chan_transition h k
  have ht := h.transition k
  have hu := ht.modChan k Chan.divided
  have hchan : ((s.transition k).modChan k Chan.divided).chan k = ((s.chan k).turned s.time.tclk s.now marks).divided := by
    rw [State.chan_modChan ht, if_pos rfl, hm, if_pos rfl]
  rw [State.edgeArrival_prescaled h hk hon hp hr]
  split
  · obtain ⟨a, ha⟩ := State.chan_countNow (hu.countEdges k 4) k 4
    rw [ha, State.chan_congr (State.countEdges_chans _ _ _), hchan]
    exact ⟨rfl, rfl, rfl⟩
  · rw [hchan]
    exact ⟨rfl, rfl, rfl⟩

/-- The level rises, and every fourth edge counts for four. -/
theorem State.regs_edgeArrival_prescaled {s : State} (h : s.Canonical) {k : Nat} (hk : k < 96) (hon : s.compOn k = true) (hp : s.prescaled k = true)
    (hr : s.nextRises k = true) (fine : Nat) :
    (s.edgeArrival k fine).bit (chPage k) CH.LEVEL_COMP = true
      ∧ (s.edgeArrival k fine).pair (chPage k) CH.ECOUNT_LO = if (s.chan k).presc = 3 ∧ (s.chan k).held = false
          then min (s.pair (chPage k) CH.ECOUNT_LO + 4) (2 ^ 64 - 1) else s.pair (chPage k) CH.ECOUNT_LO := by
  obtain ⟨marks, hm⟩ := State.chan_transition h k
  have ht := h.transition k
  have hu := ht.modChan k Chan.divided
  have hlevel : ((s.transition k).modChan k Chan.divided).bit (chPage k) CH.LEVEL_COMP = true := by
    rw [State.bit_congr (State.rd_modChan _ _ _ _), State.bit_transition_level h hk, hr]
  have hcount : ((s.transition k).modChan k Chan.divided).pair (chPage k) CH.ECOUNT_LO = s.pair (chPage k) CH.ECOUNT_LO := by
    rw [State.pair_congr (State.rd_modChan _ _ _ _) (State.rd_modChan _ _ _ _), State.pair_transition_ecount h hk]
  have hpresc : ((s.transition k).chan k).presc = (s.chan k).presc := by rw [hm, if_pos rfl]; rfl
  have hheld : (((s.transition k).modChan k Chan.divided).chan k).held = (s.chan k).held := by
    rw [State.chan_modChan ht, if_pos rfl, hm, if_pos rfl]; rfl
  rw [State.edgeArrival_prescaled h hk hon hp hr, hpresc]
  split
  · next h3 =>
    refine ⟨?_, ?_⟩
    · rw [State.bit_congr (State.rd_countNow _ _ _ _), State.bit_congr (State.rd_countEdges hu _ _ (by dsimp only; omega) (by dsimp only; omega)), hlevel]
    · rw [State.pair_congr (State.rd_countNow _ _ _ _) (State.rd_countNow _ _ _ _), State.pair_countEdges hu, hheld, hcount]
      cases (s.chan k).held <;> simp [h3]
  · next h3 => exact ⟨hlevel, by rw [hcount, if_neg fun e => h3 e.1]⟩

/-- Settles O22: a stamped edge passes the transition, the counter and the settled pool, each of which has its law above; behind the divider the pool
is not reached. -/
theorem edgesEnterPool : Obligations.EdgesEnterPool := by
  refine ⟨fun s k fine j h hon hp hsel hu hlen hj hlow => ?_, fun s k fine h hon hp hr => ?_⟩
  · have hs : s.Stamps k j := ⟨h, k.isLt, hu, hlen, hj, hlow⟩
    obtain ⟨p, hpipe, hn, hd, hbusy, htimer, ho⟩ := hs.chan_edgeArrival hon hp hsel fine.toNat
    obtain ⟨hlevel, hcount, hstuck⟩ := hs.regs_edgeArrival hon hp hsel fine.toNat
    refine ⟨_, exec_edgeArrival k fine s, ?_, fun e => ?_, hd, hbusy, hlevel, hcount, htimer, hstuck, ho⟩
    · rw [hpipe, List.getLast?_concat]
      rfl
    · obtain ⟨rfl, hgap⟩ := hn e
      exact ⟨by rw [hpipe, List.append_nil]; rfl, hgap⟩
  · obtain ⟨hpipe, hgap, hpresc⟩ := State.chan_edgeArrival_prescaled h k.isLt hon hp hr fine.toNat
    obtain ⟨hlevel, hcount⟩ := State.regs_edgeArrival_prescaled h k.isLt hon hp hr fine.toNat
    exact ⟨_, exec_edgeArrival k fine s, hpipe, hgap, hlevel, hpresc, hcount⟩

end Sys2Proof.Machine
end

section
/-! A doorbell is a write of its channel's page (R375, R399) -/
namespace Sys2Proof.Machine
open Sys2Proof

/-- A write of DOORBELL consumes the page's unlock, then the doorbell acts. -/
theorem State.pageWrite_doorbell (s : State) (c : Fin 8) (v lv : Dword) :
    s.pageWrite .dmac c 0x054 v lv = (s.setKey (dmacPage c) false).doorbell c (getBits v 0 16) := by
  have hreg : pageReg .dmac c 0x054 = some ⟨0x54, 1, 0, 0, 0, 0, 0, 0xffff⟩ := rfl
  simp only [State.pageWrite, hreg]
  exact if_neg (by decide)

theorem exec_doorbell {s : State} (h : s.hostLive = true) (c : Fin 8) (pi : BitVec 16) :
    exec (.doorbell c pi) s = .next ((s.setKey (dmacPage c) false).doorbell c (getBits (pi.setWidth 32) 0 16)) := by
  rw [← State.pageWrite_doorbell _ _ _ 0]
  exact congrArg Host.Outcome.next (if_pos h)

theorem State.keys_doorbell (s : State) (c pi : Nat) : (s.doorbell c pi).keys = s.keys :=
  State.doorbell_keeps (Keeps.same_keys (A := 0x2000000008007f9) (by decide) s.keys) (Sub.refl _) rfl

/-- After a doorbell its page is locked. -/
theorem State.unlocked_doorbell {s : State} (h : s.Canonical) (c pi : Nat) :
    ((s.setKey (dmacPage c) false).doorbell c pi).unlocked (dmacPage c) = false := by
  unfold State.unlocked
  rw [State.keys_doorbell]
  exact (Tab.get_set _ _ _ _ h.keys).trans (if_pos rfl)

end Sys2Proof.Machine
end

section
/-! A doorbell to a running channel whose page is unlocked (R377, R399) -/
namespace Sys2Proof.Machine
open Sys2Proof

/-- A part that the host reaches: the page of DMA channel 0 is unlocked, and the channel is RUNNING with EN 1. -/
def unlockedRunning : State :=
  { State.reset with
    power := { State.reset.power with startup := .ready, configReady := true }
    regs := [(dmacPage 0 + 0x044, 1), (dmacPage 0 + 0x05c, 1)]
    keys := [(dmacPage 0, true)] }

theorem canonical_unlockedRunning : unlockedRunning.Canonical := by
  constructor
  case regs => decide
  case keys => decide
  all_goals exact Tab.wf_nil

/-- Refutes O49: the statement lets a doorbell to a RUNNING channel change `regs` and `dma` alone, but as a write of the channel's page it also
consumes that page's unlock (R399). On `unlockedRunning` the page is unlocked before the doorbell and locked after it. -/
theorem not_heldDoorbells : ¬ Obligations.HeldDoorbells := by
  unfold Obligations.HeldDoorbells
  rintro ⟨hdoorbell, -, -⟩
  have hlive : unlockedRunning.hostLive = true := by decide
  obtain ⟨-, hrunning⟩ := hdoorbell unlockedRunning 0 0 canonical_unlockedRunning hlive
  obtain ⟨t, hexec, hframe, -⟩ := hrunning (by decide) (by decide)
  have hafter : t.unlocked (dmacPage 0) = false := by
    rw [exec_doorbell hlive, Host.Outcome.next.injEq] at hexec
    rw [← hexec]
    exact State.unlocked_doorbell canonical_unlockedRunning 0 _
  have hbefore : t.unlocked (dmacPage 0) = true := by
    have hkeys : t.keys = unlockedRunning.keys := by rw [hframe]
    rw [State.unlocked, hkeys]
    decide
  exact Bool.false_ne_true (hafter.symm.trans hbefore)

end Sys2Proof.Machine
end

section
/-! Start-up in its two parts: the causes of the reset are gathered, then the part takes its inputs (R421, R445, R466) -/
namespace Sys2Proof.Machine
open Sys2Proof

/-- Start-up has begun, and RESET_CAUSE has taken the causes gathered while the part was held (R421). -/
def State.gatherCauses (s : State) (ohms : Option Nat) : State :=
  { s with zq := some ⟨0, ohms⟩, power := { s.power with startup := .waitLock, causes := 0 } }.setRc chipPage CHIP.RESET_CAUSE_CAUSE
    (s.fld chipPage CHIP.RESET_CAUSE_CAUSE ||| s.power.causes.toNat)

/-- The queen strap and the comparators are read, and every pool is to be calibrated (R445, R446, R466). -/
def State.takeInputs (s : State) (strap : Bool) (levels : BitVec 96) : State :=
  let s := s.setBit swarmPage SWARM.STATE_STRAP strap
  (s.setQueen s.roleOf).forEach allChans fun k s => (s.takeLevel k (levels.getLsbD k)).setFld (chPage k) CH.POOL_STATUS_CALIBRATING 1

theorem State.startUp_eq (s : State) (strap : Bool) (bad : List (BitVec 8)) (levels : BitVec 96) (ohms : Option Nat) :
    s.startUp strap bad levels ohms = bad.foldl State.fuseFails ((s.gatherCauses ohms).takeInputs strap levels) := rfl

@[simp] theorem State.gatherCauses_power (s : State) (ohms : Option Nat) :
    (s.gatherCauses ohms).power = { s.power with startup := .waitLock, causes := 0 } := rfl

@[simp] theorem State.gatherCauses_tap (s : State) (ohms : Option Nat) : (s.gatherCauses ohms).tap = s.tap := rfl

theorem State.Canonical.gatherCauses {s : State} (h : s.Canonical) (ohms : Option Nat) : (s.gatherCauses ohms).Canonical :=
  State.setRc_keeps (canonical_keeps _) (Sub.refl _) { h with }

/-- RESET_CAUSE adds the causes gathered to those that it showed. -/
theorem State.fld_gatherCauses {s : State} (h : s.Canonical) (ohms : Option Nat) :
    (s.gatherCauses ohms).fld chipPage CHIP.RESET_CAUSE_CAUSE = s.fld chipPage CHIP.RESET_CAUSE_CAUSE ||| s.power.causes.toNat := by
  have hc : { s with zq := some ⟨0, ohms⟩, power := { s.power with startup := .waitLock, causes := 0 } }.Canonical := { h with }
  refine (State.fld_setFld_same (hc.setFresh _ _) chipPage CHIP.RESET_CAUSE_CAUSE _ (by decide)).trans (Nat.mod_eq_of_lt ?_)
  exact Nat.or_lt_two_pow (getBits_lt _ _ _) s.power.causes.isLt

theorem State.takeInputs_keeps {A : Nat} {P : State → Prop} (hP : Keeps A P) (hA : Sub 0x2008001208047eb A) {s : State} {strap : Bool}
    {levels : BitVec 96} (hs : P s) : P (s.takeInputs strap levels) := by
  refine State.forEach_keeps hP (hA.mono (by decide)) ?_ fun k t ht => ?_
  · exact State.setQueen_keeps hP (hA.mono (by decide)) (State.setBit_unit hP (hA.mono (by decide)) (by decide) hs)
  · exact State.setFld_unit hP (hA.mono (by decide)) (by unfold chPage; omega) (State.takeLevel_keeps hP (hA.mono (by decide)) ht)

@[simp] theorem State.takeInputs_power (s : State) (strap : Bool) (levels : BitVec 96) : (s.takeInputs strap levels).power = s.power :=
  State.takeInputs_keeps (Keeps.same_power (by decide) s.power) (Sub.refl _) rfl

@[simp] theorem State.takeInputs_tap (s : State) (strap : Bool) (levels : BitVec 96) : (s.takeInputs strap levels).tap = s.tap :=
  State.takeInputs_keeps (Keeps.same_tap (by decide) s.tap) (Sub.refl _) rfl

/-! Of the CHIP page a change of role writes PAGE_LIVE alone (R280) -/

theorem Holds.setFld_unit {a : Nat} {v : Dword} {s : State} (h : Holds a v s) (ha : a < 0x1000) {base w : Nat} {f : Fld} (hb : 0x1000 ≤ base) :
    Holds a v (s.setFld base f w) := h.setFld (by omega)

theorem Holds.tbStops {a : Nat} {v : Dword} {s old : State} (h : Holds a v s) (hold : Holds a v old) (ha : a < 0x1000) : Holds a v (s.tbStops old) :=
  State.tbStops_keeps (Keeps.chipHolds (by decide) ha) (Sub.refl _) h hold

theorem Holds.showMember {a : Nat} {v : Dword} {s : State} (h : Holds a v s) (ha : a < 0x1000) (hl : a ≠ chipPage + CHIP.live_MEMBER.off) :
    Holds a v s.showMember := by
  refine State.memberDoms_keeps (Keeps.chipHolds (by decide) ha) (Sub.refl _) (Holds.tbStops ?_ h ha)
  exact Holds.setFld_unit (Holds.setFld (h.setFld_unit ha (by decide)) hl) ha (by decide)

theorem Holds.setQueen {a : Nat} {v : Dword} {s : State} (h : Holds a v s) (ha : a < 0x1000) (hl : a ≠ chipPage + CHIP.live_MEMBER.off) {b : Bool} :
    Holds a v (s.setQueen b) := by
  have hk : Keeps 0x200801120000029 (Holds a v) := Keeps.chipHolds (by decide) ha
  unfold State.setQueen
  split
  · exact h
  · refine State.showDoms_keeps hk (by unfold Sub; decide) (Holds.forEach ?_ fun d t ht => State.domRate_keeps hk (by unfold Sub; decide) ht)
    refine Holds.tbStops (Holds.showMember ?_ ha hl) h ha
    refine State.showMembers_keeps hk (by unfold Sub; decide) (State.modSwarm_keeps hk (by unfold Sub; decide) ?_)
    iterate 4 refine Holds.setFld_unit ?_ ha (by decide)
    exact State.setAlign_keeps hk (by unfold Sub; decide) (h.setFld_unit ha (by decide))

theorem Holds.takeInputs {a : Nat} {v : Dword} {s : State} (h : Holds a v s) (ha : a < 0x1000) (hl : a ≠ chipPage + CHIP.live_MEMBER.off)
    {strap : Bool} {levels : BitVec 96} : Holds a v (s.takeInputs strap levels) := by
  refine Holds.forEach (Holds.setQueen (h.setFld_unit ha (by decide)) ha hl) fun k t ht => ?_
  exact Holds.setFld_unit (State.takeLevel_keeps (Keeps.chipHolds (by decide) ha) (Sub.refl _) ht) ha (by unfold chPage; omega)

theorem State.startUp_power (s : State) (strap : Bool) (levels : BitVec 96) (ohms : Option Nat) :
    (s.startUp strap [] levels ohms).power = { s.power with startup := .waitLock, causes := 0 } := by simp [State.startUp_eq]

theorem State.startUp_tap (s : State) (strap : Bool) (levels : BitVec 96) (ohms : Option Nat) : (s.startUp strap [] levels ohms).tap = s.tap := by
  simp [State.startUp_eq]

/-- After start-up RESET_CAUSE shows what it showed and the causes gathered since (R421). -/
theorem State.resetCause_startUp {s : State} (h : s.Canonical) (strap : Bool) (levels : BitVec 96) (ohms : Option Nat) :
    (s.startUp strap [] levels ohms).fld chipPage CHIP.RESET_CAUSE_CAUSE = s.fld chipPage CHIP.RESET_CAUSE_CAUSE ||| s.power.causes.toNat := by
  rw [State.startUp_eq, List.foldl_nil, ← State.fld_gatherCauses h ohms]
  have hg : Holds (chipPage + CHIP.RESET_CAUSE_CAUSE.off) _ (s.gatherCauses ohms) := ⟨h.gatherCauses ohms, rfl⟩
  exact State.fld_congr (hg.takeInputs (by decide) (by decide)).2

/-- A part that starts up responds. -/
theorem State.live_startUp {s : State} (h : s.released = true) (strap : Bool) (levels : BitVec 96) (ohms : Option Nat) :
    (s.startUp strap [] levels ohms).live = true := by
  unfold State.live State.released at *
  rw [State.startUp_power, State.startUp_tap]
  simpa using h

end Sys2Proof.Machine
end

section
/-! The part under an instruction of the test access port that holds it (R475) -/
namespace Sys2Proof.Machine
open Sys2Proof

theorem State.powered_of {s : State} (hhv : s.power.noHv = false) (hcore : s.power.noCore = false) (f : State → State) : s.powered f = f s := by
  simp [State.powered, hhv, hcore]

/-- The part held in reset by the test access port, which has scanned and shifted out. -/
def State.heldByTap (s : State) (tap : Tap) (out : List Out) : State := { s.holdBy 1 false id with tap := tap, out := out }

theorem State.Canonical.heldByTap {s : State} (h : s.Canonical) (tap : Tap) (out : List Out) : (s.heldByTap tap out).Canonical :=
  { State.holdBy_keeps (canonical_keeps _) (Sub.refl _) h with }

/-- Behind such an instruction nothing else holds a part whose pins, monitor and service port did not. -/
theorem State.released_heldByTap {s : State} {tap : Tap} (hmonitor : s.power.monitor = false) (hresetN : s.power.resetN = false)
    (hsvc : s.power.svcHold = false) (htest : s.power.testEn = false) (htap : holdsPart tap.instr = false) (out : List Out) :
    (s.heldByTap tap out).released = true := by
  simp [State.released, State.heldByTap, State.holdBy, State.wiped, hmonitor, hresetN, hsvc, htest, htap]

/-- Cause bit [1] is gathered. -/
theorem State.causes_heldByTap (s : State) (tap : Tap) (out : List Out) : (s.heldByTap tap out).power.causes.toNat.testBit 1 = true := by
  change (s.power.causes ||| 2#6).getLsbD 1 = true
  rw [BitVec.getLsbD_or]
  exact Bool.or_true _

/-- EXTEST, its 1149.6 forms, CLAMP and HIGHZ hold the part in reset (Table 17-12). -/
theorem exec_holdsPart {s : State} (hhv : s.power.noHv = false) (hcore : s.power.noCore = false) {i : Instr} {pins next : BitVec 158}
    (hi : i = .extest pins next ∨ i = .extestPulse pins next ∨ i = .extestTrain pins next ∨ i = .clamp ∨ i = .highz) :
    ∃ tap out, holdsPart tap.instr = true ∧ exec i s = .next (s.heldByTap tap out) := by
  have hscan (code : BitVec 8) (hc : holdsPart code = true) :
      s.powered (·.tapScan code pins next) = s.heldByTap ⟨code, pins, next⟩ (s.out ++ [.tdo code pins]) := by
    rw [State.powered_of hhv hcore, State.tapScan, State.tapInstr, if_pos hc]; rfl
  have hbypass (code : BitVec 8) (hc : holdsPart code = true) :
      s.powered (·.tapBypass code) = s.heldByTap ⟨code, s.tap.shift, s.tap.drive⟩ (s.out ++ [.tdo code 0]) := by
    rw [State.powered_of hhv hcore, State.tapBypass, State.tapInstr, if_pos hc]; rfl
  rcases hi with rfl | rfl | rfl | rfl | rfl
  · exact ⟨_, _, rfl, congrArg Host.Outcome.next (hscan 0x00 rfl)⟩
  · exact ⟨_, _, rfl, congrArg Host.Outcome.next (hscan 0x06 rfl)⟩
  · exact ⟨_, _, rfl, congrArg Host.Outcome.next (hscan 0x07 rfl)⟩
  · exact ⟨_, _, rfl, congrArg Host.Outcome.next (hbypass 0x04 rfl)⟩
  · exact ⟨_, _, rfl, congrArg Host.Outcome.next (hbypass 0x05 rfl)⟩

/-- Test-Logic-Reset, IDCODE, BYPASS and SAMPLE/PRELOAD touch the test access port alone (Table 17-12). -/
theorem exec_undisturbed {s : State} (hhv : s.power.noHv = false) (hcore : s.power.noCore = false) {j : Instr} {pins next : BitVec 158}
    (hj : j = .tapReset ∨ j = .idcode ∨ j = .bypass ∨ j = .samplePreload pins next) :
    ∃ tap out, holdsPart tap.instr = false ∧ exec j s = .next { s with tap := tap, out := out } := by
  rcases hj with rfl | rfl | rfl | rfl
  · exact ⟨_, s.out, rfl, congrArg Host.Outcome.next (State.powered_of hhv hcore State.tapReset)⟩
  · exact ⟨_, _, rfl, congrArg Host.Outcome.next (State.powered_of hhv hcore State.tapIdcode)⟩
  · exact ⟨_, _, rfl, congrArg Host.Outcome.next (State.powered_of hhv hcore (·.tapBypass 0xff))⟩
  · exact ⟨_, _, rfl, congrArg Host.Outcome.next (State.powered_of hhv hcore (·.tapScan 0x02 pins next))⟩

theorem State.released_of_holdsPart {s : State} (h : holdsPart s.tap.instr = true) : s.released = false := by simp [State.released, h]

theorem State.live_of_holdsPart {s : State} (h : holdsPart s.tap.instr = true) : s.live = false := by
  simp [State.live, State.released_of_holdsPart h]

/-- The part is held as RESET_N holds it, but for that pin. -/
theorem State.heldByTap_eq_resetN (s : State) (tap : Tap) (out : List Out) :
    s.heldByTap tap out =
      { s.resetNAssert with power := { s.resetNAssert.power with resetN := s.power.resetN }, tap := tap, out := out } := rfl

/-- A pin that goes inactive starts nothing while an instruction holds the part. -/
theorem State.resetRelease_of_holdsPart {s : State} (h : holdsPart s.tap.instr = true) (pin : ResetPin) (strap : Bool) (bad : List (BitVec 8))
    (levels : BitVec 96) (ohms : Option Nat) : ∃ p, s.resetRelease pin strap bad levels ohms = { s with power := p } := by
  have hr (p : Power) : { s with power := p }.released = false := State.released_of_holdsPart h
  unfold State.resetRelease
  cases pin with
  | none => exact ⟨s.power, by simp [hr s.power]⟩
  | resetN => exact ⟨{ s.power with resetN := false }, by simp [hr]⟩
  | testEn => exact ⟨{ s.power with testEn := false }, by simp [hr]⟩

/-- Once nothing holds the part, it starts up. -/
theorem State.resetRelease_of_released {s : State} (hr : s.released = true) (hs : s.power.startup = .held) (strap : Bool) (bad : List (BitVec 8))
    (levels : BitVec 96) (ohms : Option Nat) : s.resetRelease .none strap bad levels ohms = s.startUp strap bad levels ohms := by
  simp [State.resetRelease, hr, hs]

/-- Settles O53: an instruction that holds the part leaves it as `heldByTap`, which no reset pin ends; behind another instruction the state is released
with cause bit [1] gathered, and start-up shows it. -/
theorem testInstructionsHold : Obligations.TestInstructionsHold := by
  intro s j p₁ n₁ hc hhv hcore hj
  refine ⟨fun i p₂ n₂ hi => ?_, ?_⟩
  · obtain ⟨tap, out, hholds, hexec⟩ := exec_holdsPart hhv hcore hi
    have hheld : holdsPart (s.heldByTap tap out).tap.instr = true := hholds
    refine ⟨_, hexec, State.live_of_holdsPart hheld, ⟨_, rfl, s.heldByTap_eq_resetN tap out⟩, fun pin strap bad levels ohms => ?_,
      fun hmonitor hresetN hsvc htest => ?_⟩
    · obtain ⟨p, hp⟩ := State.resetRelease_of_holdsPart hheld pin strap bad levels ohms
      exact ⟨_, congrArg Host.Outcome.next hp, State.live_of_holdsPart hheld, rfl⟩
    · obtain ⟨tap', out', hother, hexec'⟩ := exec_undisturbed (s := s.heldByTap tap out) hhv hcore hj
      refine ⟨s.heldByTap tap' out', hexec', rfl, fun strap levels ohms => ?_⟩
      have hr := State.released_heldByTap hmonitor hresetN hsvc htest hother out'
      refine ⟨_, congrArg Host.Outcome.next (State.resetRelease_of_released hr rfl strap [] levels ohms), State.live_startUp hr strap levels ohms, ?_, ?_⟩
      · rw [State.startUp_power]
      · rw [State.resetCause_startUp (hc.heldByTap tap' out'), Nat.testBit_or, State.causes_heldByTap, Bool.or_true]
  · obtain ⟨tap, out, -, hexec⟩ := exec_undisturbed hhv hcore hj
    exact ⟨_, hexec, rfl⟩

end Sys2Proof.Machine
end
